-- ==== Sys2Proof/Word.lean ====
section
/-! DEFINITION. The words, indices and sparse tables the model is built of. -/
namespace Sys2Proof

/-- Every register is 32 bits wide (R4). -/
abbrev Word := BitVec 32
abbrev Byte := BitVec 8
/-- Global pair or link index L, 0 to 511 (R2, R3). -/
abbrev Pair := BitVec 9
/-- Global port index P, 0 to 63 (R2). -/
abbrev Port := BitVec 6
/-- Tile index t, 0 to 7 (R2). -/
abbrev Tile := BitVec 3
/-- Global group index G, 0 to 15 (R2). -/
abbrev Group := BitVec 4
/-- Acnan lane index P × 8 + n, 0 to 511 (R208). -/
abbrev Lane := BitVec 9
/-- PLL index, 0 to 73 (R235). -/
abbrev Pll := Fin 74
/-- Power domain index, 0 to 79 (R296). -/
abbrev Domain := Fin 80
/-- Rack clock output, 0 to 15. -/
abbrev Output := BitVec 4
/-- Take slot of a pair, 0 to 7. -/
abbrev Slot := BitVec 3
/-- Submission or completion ring, 0 to 63. -/
abbrev Ring := BitVec 6

/-- A sparse table keyed by a number: the keys rise strictly. A key that is not listed holds a default. -/
abbrev Tab (α : Type) := List (Nat × α)

/-- What a table holds at a key. -/
def tabGet {α : Type} (d : α) : Tab α → Nat → α
  | [], _ => d
  | (k, v) :: t, n => if n = k then v else tabGet d t n

/-- A table with the entry of a key removed. -/
def tabErase {α : Type} : Tab α → Nat → Tab α
  | [], _ => []
  | (k, v) :: t, n => if n = k then tabErase t n else (k, v) :: tabErase t n

/-- A table with the value of a key replaced, in key order. -/
def tabInsert {α : Type} : Tab α → Nat → α → Tab α
  | [], n, x => [(n, x)]
  | (k, v) :: t, n, x =>
    if n < k then (n, x) :: (k, v) :: t
    else if n = k then (n, x) :: t
    else (k, v) :: tabInsert t n x

/-- A table with the value of a key replaced, in the canonical form that lists no default value. -/
def tabPut {α : Type} [DecidableEq α] (d : α) (t : Tab α) (n : Nat) (x : α) : Tab α :=
  if x = d then tabErase t n else tabInsert t n x

/-- The keys of a table rise strictly. -/
def tabSorted {α : Type} : Tab α → Bool
  | [] => true
  | [_] => true
  | (a, _) :: (b, y) :: t => decide (a < b) && tabSorted ((b, y) :: t)

/-- The canonical form of a table whose unlisted keys hold what the function gives:
strictly rising keys, and no entry that says what an unlisted key says. -/
def tabCanon {α : Type} [DecidableEq α] (d : Nat → α) (t : Tab α) : Bool :=
  tabSorted t && t.all (fun e => decide (e.2 ≠ d e.1))

end Sys2Proof
end

