-- ==== Sys2Proof/Syntax.lean ====
section
/-! DEFINITION. The commands the block takes: one constructor for each row of the opcode table, with the row's
operands. A measurement, a received word, a host memory read or a solver's result that the row speaks of is an
operand: the sender supplies it. -/
namespace Sys2Proof

/-- The origin of a register access (R378). -/
inductive View where
  | pcie | serial | operator | supervisor
  | grader (g : BitVec 4)   -- the operator view, from the grader of a group
deriving DecidableEq, Repr

/-- The path on which a Cerop command arrives (12_command_protocol.md). -/
inductive Path where
  | ring (n : BitVec 6)
  | mboxPcie
  | mboxSerial
  | chain
deriving DecidableEq, Repr

/-- A Cerop command as its submission slot and its parameter bytes give it (R318 to R322). The opcode is the
constructor's. `rsvd` says that some reserved bit of the slot is 1. -/
structure Cmd where
  path : Path := .mboxSerial
  tag : BitVec 12 := 0
  fence : Bool := false
  expert : Bool := false
  notify : Bool := false
  inl : Bool := true
  rsvd : Bool := false
  chainAddr : BitVec 6 := 0
  cls : BitVec 4 := 0
  idx : BitVec 12 := 0
  paramLen : BitVec 16 := 0
  timeout : BitVec 16 := 0
  buf : BitVec 64 := 0
  params : List Byte := []
deriving DecidableEq, Repr

/-- What a read of host memory was for (R427). -/
inductive HostRead where
  | slot (e : BitVec 12)
  | params (e : BitVec 12)
  | ldt (l : Pair)
deriving DecidableEq, Repr

/-- A Clause 73 page as received (R152): the COMPAT technologies of a base page (bit 0 COMPAT-1, bit 1 COMPAT-2,
bit 2 COMPAT-4) and its NP bit, or the bits D[47:0] of a message or unformatted next page. -/
inductive Page where
  | base (compat : BitVec 3) (np : Bool)
  | message (d : BitVec 48)
  | unformatted (d : BitVec 48)
deriving DecidableEq, Repr

/-- How a chain frame arrives (R447): whole, with a bad CRC or a reserved type, or with HOPS 127. -/
inductive Fate where
  | good | badCrc | hops127
deriving DecidableEq, Repr

/-- The TIME payload of R453 but for PRESENT, as a frame holds it on arrival. -/
structure TimeFrame where
  tTx : BitVec 64
  corr : BitVec 64
  decl : BitVec 64
  nundecl : BitVec 16
  unaddr : Byte
  fabric : Bool
  share : Word
  present : BitVec 64
  serial : BitVec 64
deriving DecidableEq, Repr

/-- The payload of an EPOCH frame (R456): what it asks for (0 schedule, 1 confirm, 2 cancel), the action, and the
acknowledgement masks. -/
structure EpochFrame where
  kind : BitVec 2
  id : Word
  time : BitVec 64
  action : BitVec 2
  pll : Bool
  slot : BitVec 4
  ack : BitVec 64
  busy : BitVec 64
  reject : BitVec 64
deriving DecidableEq, Repr

/-- A frame of the clocked serial port (R433 to R440), as the words that it carries whole: those a write brings, or the
number of those whose data phase a read begins. `late` is the first word of a read whose data comes too late for the clock;
`rsvd` are the reserved bits of an addressed frame's command, `address` the address as sent. -/
inductive SpFrame where
  | windowedRead (i : BitVec 6) (n : BitVec 11) (late : Option (BitVec 11))
  | windowedWrite (i : BitVec 6) (ws : List Word)
  | addressedRead (rsvd : BitVec 5) (address : Word) (n : BitVec 11) (late : Option (BitVec 11))
  | addressedWrite (rsvd : BitVec 5) (address : Word) (ws : List Word)
  | status
deriving DecidableEq, Repr

/-- A reflection cluster as the grader finds it (R199): echo delay of its peak in 1/16 symbol, peak echo below launch in 0.1 dB, symbols
between its first and last tap above −55 dB, and the polarity of the reflection. -/
structure Cluster where
  delay : BitVec 16
  level : BitVec 16
  width : Byte
  positive : Bool
deriving DecidableEq, Repr

/-- What the grader measures of a pair for a cable profile (R198): the clusters, the four insertion losses in 0.01 dB, the NEXT map (loss,
delay of the strongest tap), the pair skew in ps, and the energy of the uncovered clusters below launch in 0.01 dB. -/
structure PairMeasure where
  clusters : List Cluster
  loss : List (BitVec 16)
  next : List (BitVec 16 × Byte)
  skew : BitVec 16
  energy : BitVec 16
deriving DecidableEq, Repr

/-- What last said, in a marker period, whether the host has a stream for a half: a data half, or a fill half with status ABSENT; other fill
halves say nothing (R212). -/
inductive HalfSign where
  | data | absent | silent
deriving DecidableEq, Repr

/-- A memory bank with error registers (R466). -/
inductive MemBank where
  | hub (b : BitVec 4)
  | group (g : Group) (b : Fin 12)
  | port (p : Port)
deriving DecidableEq, Repr

/-- What a scrub read finds: a clean word, a correctable or an uncorrectable one. -/
inductive Found where
  | clean | correctable | uncorrectable
deriving DecidableEq, Repr

/-- What the word holds, where the reader's consequence depends on it (R465). -/
inductive Holds where
  | other | operatorImage | ldt (l : Pair)
deriving DecidableEq, Repr

/-- A configuration request (R424, R430): a read of a doubleword of the header, or of half of the Device Serial Number, and
writes of the command register's enables, of the MSI-X control bits and of a base address register. -/
inductive CfgReq where
  | read (dword : BitVec 4)
  | serialNumber (hi : Bool)
  | command (mem bus : Bool)
  | msixControl (enable mask : Bool)
  | bar (k : Fin 6) (w : Word)
deriving DecidableEq, Repr

/-- The commands: one constructor per row of the opcode table. -/
inductive Instr where
  /-- DEV_IDENTIFY (R346). -/
  | devIdentify (c : Cmd)
  /-- DEV_STATUS (R346). -/
  | devStatus (c : Cmd)
  /-- DEV_OFF (R310). -/
  | devOff (c : Cmd)
  /-- DEV_TIME_SET (R347). -/
  | devTimeSet (c : Cmd)
  /-- DEV_LOCK_QUERY (R346). -/
  | devLockQuery (c : Cmd)
  /-- LINK_CONFIGURE (R349). -/
  | linkConfigure (c : Cmd) (entry : Option (List Byte))
  /-- LINK_UP (R144). -/
  | linkUp (c : Cmd)
  /-- LINK_DOWN (R144). -/
  | linkDown (c : Cmd)
  /-- LINK_STATUS (R351). -/
  | linkStatus (c : Cmd)
  /-- LINK_REFRESH (R336). -/
  | linkRefresh (c : Cmd) (entry : Option (List Byte))
  /-- LINK_QUIET_POLICY (R352). -/
  | linkQuietPolicy (c : Cmd)
  /-- LINK_FORCE_ROLE (R352). -/
  | linkForceRole (c : Cmd)
  /-- LINK_TRAIN_STEP (R353). -/
  | linkTrainStep (c : Cmd)
  /-- TAKE_LIST (R354). -/
  | takeList (c : Cmd)
  /-- TAKE_READ (R355). -/
  | takeRead (c : Cmd)
  /-- TAKE_WRITE (R108). -/
  | takeWrite (c : Cmd)
  /-- TAKE_VERIFY (R102). -/
  | takeVerify (c : Cmd)
  /-- TAKE_CUT (R356). -/
  | takeCut (c : Cmd)
  /-- TAKE_GRADE (R356). -/
  | takeGrade (c : Cmd)
  /-- TAKE_POLICY (R352). -/
  | takePolicy (c : Cmd)
  /-- RUSHES_ARM (R195). -/
  | rushesArm (c : Cmd)
  /-- RUSHES_STATUS (R196). -/
  | rushesStatus (c : Cmd)
  /-- RUSHES_UPLOAD (R197). -/
  | rushesUpload (c : Cmd)
  /-- CABLE_PROFILE (R198). -/
  | cableProfile (c : Cmd)
  /-- CABLE_TEST (R204). -/
  | cableTest (c : Cmd)
  /-- PAIR_SNR (R186). -/
  | pairSnr (c : Cmd)
  /-- EYE_SCAN (R231). -/
  | eyeScan (c : Cmd)
  /-- LOOPBACK (R207). -/
  | loopback (c : Cmd)
  /-- CLK_OUTPUT_SET (R268). -/
  | clkOutputSet (c : Cmd)
  /-- CLK_PLL_PROGRAM (R361). -/
  | clkPllProgram (c : Cmd)
  /-- CLK_HOP (R241). -/
  | clkHop (c : Cmd)
  /-- CLK_STEP (R242). -/
  | clkStep (c : Cmd)
  /-- CLK_SPREAD (R271). -/
  | clkSpread (c : Cmd)
  /-- CLK_SYNC_ARM (R362). -/
  | clkSyncArm (c : Cmd)
  /-- CLK_REF_SELECT (R361). -/
  | clkRefSelect (c : Cmd) (step : BitVec 16) (diff : Word)
  /-- CLK_STATUS (R360). -/
  | clkStatus (c : Cmd)
  /-- PWR_STATE_SET (R303). -/
  | pwrStateSet (c : Cmd)
  /-- PWR_POLICY (R302). -/
  | pwrPolicy (c : Cmd)
  /-- PWR_LEVEL_SET (R313). -/
  | pwrLevelSet (c : Cmd)
  /-- PWR_STATUS (R363). -/
  | pwrStatus (c : Cmd)
  /-- PWR_KEEP_AWAKE (R305). -/
  | pwrKeepAwake (c : Cmd)
  /-- CNT_SNAPSHOT (R406). -/
  | cntSnapshot (c : Cmd)
  /-- CNT_READ (R364). -/
  | cntRead (c : Cmd)
  /-- CNT_CLEAR (R364). -/
  | cntClear (c : Cmd)
  /-- UTIL_WINDOW (R191). -/
  | utilWindow (c : Cmd)
  /-- CONT_LIST (R365). -/
  | contList (c : Cmd)
  /-- CONT_READ (R366). -/
  | contRead (c : Cmd)
  /-- CONT_DELETE (R366). -/
  | contDelete (c : Cmd)
  /-- CAL_RECORD_READ (R366). -/
  | calRecordRead (c : Cmd)
  /-- FW_STAGE (R384). -/
  | fwStage (c : Cmd) (chunk : Option (List Byte))
  /-- FW_ACTIVATE (R385). -/
  | fwActivate (c : Cmd)
  /-- FW_STATUS (R365). -/
  | fwStatus (c : Cmd)
  /-- CHAIN_ENUMERATE (R449). -/
  | chainEnumerate (c : Cmd)
  /-- CHAIN_STATUS (R365). -/
  | chainStatus (c : Cmd)
  /-- CHAIN_EPOCH (R456). -/
  | chainEpoch (c : Cmd)
  /-- EVT_SUBSCRIBE (R369). -/
  | evtSubscribe (c : Cmd)
  /-- EVT_READ_LOG (R369). -/
  | evtReadLog (c : Cmd)
  /-- HL_CONFIGURE (R370). -/
  | hlConfigure (c : Cmd)
  /-- HL_STATUS (R370). -/
  | hlStatus (c : Cmd)
  /-- HL_CTLE_SET (R230). -/
  | hlCtleSet (c : Cmd)
  /-- COMMAND_TIMEOUT_EXPIRY (R326). -/
  | commandTimeoutExpiry (e : BitVec 12)
  /-- SQ_TAIL_DOORBELL (R319). -/
  | sqTailDoorbell (n : Ring) (v : Word)
  /-- SLOT_FETCH (R323). -/
  | slotFetch
  /-- SLOT_FETCH_DONE (R427). -/
  | slotFetchDone (r : HostRead) (data : Option (List Byte))
  /-- HOST_READ_COMPLETION_TIMEOUT (R427). -/
  | hostReadCompletionTimeout (r : HostRead)
  /-- STATUS_SLOT_WRITE (R320). -/
  | statusSlotWrite (n : Ring)
  /-- CQ_HEAD_DOORBELL (R320). -/
  | cqHeadDoorbell (n : Ring) (v : Word)
  /-- CQ_COALESCE_EXPIRY (R321). -/
  | cqCoalesceExpiry (n : Ring)
  /-- SQ_CFG_WRITE (R318). -/
  | sqCfgWrite (v : View) (n : Ring) (w : Word)
  /-- CQ_CFG_WRITE (R318). -/
  | cqCfgWrite (v : View) (n : Ring) (w : Word)
  /-- LDT_CTL_WRITE (R338). -/
  | ldtCtlWrite (v : View) (w : Word)
  /-- LDT_CACHE_FILL (R339). -/
  | ldtCacheFill (l : Pair) (data : Option (List Byte))
  /-- MAILBOX_GO (R333). -/
  | mailboxGo (serial : Bool) (w : Word)
  /-- MAILBOX_BUFFER_WRITE (R333). -/
  | mailboxBufferWrite (word : BitVec 10) (w : Word)
  /-- MBOX_WDATA (R435). -/
  | mboxWdata (w : Word)
  /-- MBOX_RDATA (R435). -/
  | mboxRdata
  /-- EVENT_RING_HEAD_DOORBELL (R471). -/
  | eventRingHeadDoorbell (w : Word)
  /-- EVT_RING_CFG_WRITE (R471). -/
  | evtRingCfgWrite (v : View) (reg : Fin 3) (w : Word)
  /-- EVENT_RECORD_DELIVERY (R471). -/
  | eventRecordDelivery
  /-- EVENT_LOG_WRITE (R474). -/
  | eventLogWrite
  /-- COUNTER_RECORD_PERIOD (R422). -/
  | counterRecordPeriod (l : Pair)
  /-- REGISTER_WRITE (R4). -/
  | registerWrite (v : View) (a : BitVec 29) (w : Word) (whole : Bool)
  /-- CLEAR_ON_READ (R400). -/
  | clearOnRead (v : View) (a : BitVec 29) (whole : Bool)
  /-- DEV_TIME_LO_READ (R409). -/
  | devTimeLoRead (v : View)
  /-- SNAP_CTL_GO (R406). -/
  | snapCtlGo (v : View)
  /-- SNAP_CTL_HELD (R407). -/
  | snapCtlHeld (v : View) (b : Bool)
  /-- SNAPSHOT_COMPLETE (R406). -/
  | snapshotComplete
  /-- LOCK_CTL_WRITE (R401). -/
  | lockCtlWrite (v : View) (w : Word)
  /-- PORT_RESET (R410). -/
  | portReset (v : View) (p : Port)
  /-- PAIR_SWAP_WRITE (R410). -/
  | pairSwapWrite (v : View) (p : Port) (b : Bool)
  /-- PAIR_RESTART (R410). -/
  | pairRestart (v : View) (l : Pair)
  /-- TX_DISABLE_WRITE (R410). -/
  | txDisableWrite (v : View) (l : Pair) (b : Bool)
  /-- CLK_SYN_WRITE (R301). -/
  | clkSynWrite (v : View) (l : Pair) (b : Bool)
  /-- TILE_RESET (R477). -/
  | tileReset (v : View) (t : Tile)
  /-- DEV_RESET_CTL_WRITE (R478). -/
  | devResetCtlWrite (v : View) (w : Word)
  /-- CHAIN_RESTART (R445). -/
  | chainRestart (v : View)
  /-- REF_SEL_WRITE (R250). -/
  | refSelWrite (v : View) (w : Word) (step : BitVec 16) (diff : Word)
  /-- SYN_SLOT_WRITE (R240). -/
  | synSlotWrite (v : View) (ix : Pll) (k : BitVec 2)
  /-- SYN_BW_WRITE (R258). -/
  | synBwWrite (v : View) (ix : Pll) (bw : BitVec 2)
  /-- SYN_PREDIV_WRITE (R258). -/
  | synPredivWrite (v : View) (ix : Pll) (m1 : BitVec 4)
  /-- SYN_SLOT_WORD_WRITE (R239). -/
  | synSlotWordWrite (v : View) (ix : Pll) (k : BitVec 2) (frac : Bool) (w : Word)
  /-- RC_SLOT_WRITE (R265). -/
  | rcSlotWrite (v : View) (osb : Bool) (k : BitVec 4) (word : Option (Bool × Word))
  /-- RC_ENABLE_WRITE (R264). -/
  | rcEnableWrite (v : View) (osb b : Bool)
  /-- OUT_DIV_PHASE_WRITE (R268). -/
  | outDivPhaseWrite (v : View) (n : BitVec 4) (phase : Bool) (x : BitVec 12)
  /-- OUT_FMT_SRC_WRITE (R268). -/
  | outFmtSrcWrite (v : View) (n : BitVec 4) (fmt : BitVec 2) (src : Bool)
  /-- OUT_CTL_RETURN (R279). -/
  | outCtlReturn (v : View) (n : BitVec 4)
  /-- OUT_SPREAD_WRITE (R271). -/
  | outSpreadWrite (v : View) (n : BitVec 4) (w : Word)
  /-- SPREAD_TOP (R271). -/
  | spreadTop (n : BitVec 4)
  /-- HL_CTL_WRITE (R230). -/
  | hlCtlWrite (v : View) (n : Lane) (w : Word)
  /-- PWR_TARGET_WRITE (R317). -/
  | pwrTargetWrite (v : View) (d : Domain) (w : Word)
  /-- PWR_PL_WRITE (R313). -/
  | pwrPlWrite (v : View) (oper : Bool) (w : Word)
  /-- PERF_CTL_CLEAR (R411). -/
  | perfCtlClear (v : View) (b : Fin 9)
  /-- PERF_CTL_WIN_ARM (R419). -/
  | perfCtlWinArm (v : View) (b : Fin 9)
  /-- PERF_CTL_EN_FREEZE (R411). -/
  | perfCtlEnFreeze (v : View) (b : Fin 9) (en freeze : Bool)
  /-- PERF_SEL_WRITE (R413). -/
  | perfSelWrite (v : View) (b : Fin 9) (n : BitVec 3) (w : Word)
  /-- PERF_WINDOW_START (R419). -/
  | perfWindowStart (b : Fin 9)
  /-- PERF_WINDOW_END (R419). -/
  | perfWindowEnd (b : Fin 9)
  /-- PERF_OVERFLOW (R417). -/
  | perfOverflow (b n : Fin 9)
  /-- BCFG_SETUP (R512). -/
  | bcfgSetup (w : Word)
  /-- BCFG_COMMIT (R512). -/
  | bcfgCommit (w : Word)
  /-- BCFG_DATA_ACCESS (R512). -/
  | bcfgDataAccess (write : Option Word)
  /-- SERIAL_WINDOWED_READ (R434). -/
  | serialWindowedRead (ix : BitVec 6) (n : BitVec 11) (late : Option (BitVec 11))
  /-- SERIAL_WINDOWED_WRITE (R434). -/
  | serialWindowedWrite (ix : BitVec 6) (ws : List Word)
  /-- SERIAL_ADDRESSED_FRAME (R436). -/
  | serialAddressedFrame (rsvd : BitVec 5) (a : Word) (ws : Option (List Word)) (n : BitVec 11) (late : Option (BitVec 11))
  /-- SERIAL_STATUS_READ (R439). -/
  | serialStatusRead
  /-- SERIAL_RETRY (R438). -/
  | serialRetry (n : BitVec 11)
  /-- SERIAL_HELD_READ_DONE (R438). -/
  | serialHeldReadDone
  /-- SERIAL_FRAME_IDLE_TIMEOUT (R437). -/
  | serialFrameIdleTimeout (f : SpFrame)
  /-- SERIAL_WRITE_POSTED (R440). -/
  | serialWritePosted
  /-- ACCESS_STALL_TIMEOUT (R394). -/
  | accessStallTimeout (v : View) (a : BitVec 29) (write : Bool)
  /-- FUNCTION_RESET (R429). -/
  | functionReset (kind : BitVec 2)
  /-- D3HOT_ENTRY (R431). -/
  | d3hotEntry
  /-- D0_RETURN (R431). -/
  | d0Return
  /-- BUS_MASTER_ENABLE_CHANGE (R427). -/
  | busMasterEnableChange (b : Bool)
  /-- MSIX_UNMASK (R426). -/
  | msixUnmask (v : Option (BitVec 9))
  /-- PCIE_INBOUND_REQUEST (R428). -/
  | pcieInboundRequest (write : Option Word) (a : Option (BitVec 29)) (poisoned : Bool)
  /-- PCIE_CONFIG_REQUEST (R430). -/
  | pcieConfigRequest (r : CfgReq)
  /-- POWER_ON_RESET (R489). -/
  | powerOnReset
  /-- RESET_N_PULSE (R495). -/
  | resetNPulse
  /-- WAKE_PIN (R311). -/
  | wakePin
  /-- DEVICE_BOOT (R504). -/
  | deviceBoot (mgr : Bool) (passing : List (BitVec 4)) (imgs : List (List Byte × BitVec 3))
  /-- REF_WAIT_EXPIRY (R505). -/
  | refWaitExpiry
  /-- PENDING_ROOT_SWITCH (R505). -/
  | pendingRootSwitch
  /-- RACK_PLL_BOOT_ENABLE (R506). -/
  | rackPllBootEnable (ix : Pll)
  /-- TILE_SYNTH_ENABLE (R507). -/
  | tileSynthEnable (t : Tile)
  /-- SUPPLY_DIP_START (R314). -/
  | supplyDipStart (rail : BitVec 3) (low : BitVec 9)
  /-- SUPPLY_DIP_RECOVERY (R314). -/
  | supplyDipRecovery (rail : BitVec 3) (low : BitVec 9)
  /-- MRAM_HOLD_END (R314). -/
  | mramHoldEnd
  /-- SUPPLY_LOW (R315). -/
  | supplyLow (rail : BitVec 3) (low : BitVec 9)
  /-- VDD_AON_LOW (R315). -/
  | vddAonLow
  /-- THERM_ALERT (R476). -/
  | thermAlert (ix : BitVec 7) (t : BitVec 16)
  /-- THERM_CLEAR (R476). -/
  | thermClear (ts : List (BitVec 16))
  /-- THERM_CRIT (R476). -/
  | thermCrit (ix : BitVec 7) (t : BitVec 16)
  /-- POWER_IDLE_TIMER_EXPIRY (R302). -/
  | powerIdleTimerExpiry (d : Domain) (st : BitVec 2)
  /-- POWER_DRAIN_TIMEOUT (R306). -/
  | powerDrainTimeout (d : Domain)
  /-- POWER_ENTRY_COMPLETE (R306). -/
  | powerEntryComplete (d : Domain)
  /-- WAKE_REQUEST (R307). -/
  | wakeRequest (d : Domain) (edge late : Bool)
  /-- DOMAIN_READY (R298). -/
  | domainReady (d : Domain)
  /-- PERF_LEVEL_CHANGE_DONE (R313). -/
  | perfLevelChangeDone (u : BitVec 5)
  /-- DEVICE_OFF_ENTRY (R310). -/
  | deviceOffEntry
  /-- REF_NO_EDGES (R283). -/
  | refNoEdges (src : BitVec 4) (dev : Word) (step : BitVec 16) (diff : Word)
  /-- REF_FREQUENCY_FAULT (R283). -/
  | refFrequencyFault (src : BitVec 4) (dev : Word) (step : BitVec 16) (diff : Word)
  /-- MONITOR_PASS (R283). -/
  | monitorPass (src : BitVec 4) (dev : Word)
  /-- REF_SLEW_END (R251). -/
  | refSlewEnd
  /-- DEVICE_TIME_CORRECTION (R286). -/
  | deviceTimeCorrection (d : BitVec 16)
  /-- TILE_ROOT_RETURN (R287). -/
  | tileRootReturn (t : Tile)
  /-- AON_CORE_FAILOVER (R288). -/
  | aonCoreFailover (dev : Word)
  /-- BOTH_CORES_DEAD (R288). -/
  | bothCoresDead
  /-- MUX_WATCHDOG_FORCE (R290). -/
  | muxWatchdogForce (mux : Fin 6) (inst : Pair)
  /-- MUX_NEW_DEAD (R291). -/
  | muxNewDead (mux : Fin 6) (inst : Pair) (oldAlive : Bool)
  /-- MUX_SWITCH_DONE (R290). -/
  | muxSwitchDone (mux : Fin 6) (inst : Pair)
  /-- SYNTH_LOSS_OF_LOCK (R256). -/
  | synthLossOfLock (ix : Pll)
  /-- SYNTH_MARGIN_LOW (R257). -/
  | synthMarginLow (ix : Pll) (m : Byte)
  /-- SYNTH_HOP_DONE (R240). -/
  | synthHopDone (ix : Pll) (band other : BitVec 6) (fresh : Bool)
  /-- STEERING_PERIOD (R246). -/
  | steeringPeriod (p : Port) (q : BitVec 15)
  /-- SMALL_STEP_APPLIED (R242). -/
  | smallStepApplied (ix : Pll)
  /-- STEER_RAMP (R243). -/
  | steerRamp (p : Port)
  /-- ACQUIRE_RAMP (R245). -/
  | acquireRamp (p : Port)
  /-- RACK_PLL_REF_LOST (R277). -/
  | rackPllRefLost (ix : Pll)
  /-- RACK_PLL_REF_RETURN (R277). -/
  | rackPllRefReturn (ix : Pll)
  /-- RACK_PLL_UNLOCK (R277). -/
  | rackPllUnlock (ix : Pll)
  /-- RACK_PLL_RELOCK (R277). -/
  | rackPllRelock (ix : Pll)
  /-- BYPASS_INPUT_FAIL (R278). -/
  | bypassInputFail (src : BitVec 2)
  /-- RACK_HOP_DONE (R265). -/
  | rackHopDone (ix : Pll) (band : BitVec 6) (fresh : Bool)
  /-- CLAPPER_PULSE (R273). -/
  | clapperPulse
  /-- CLAPPER_RIDE_THROUGH_END (R274). -/
  | clapperRideThroughEnd (t : Tile)
  /-- SUPERFRAME_START (R31). -/
  | superframeStart (l : Pair) (bad : BitVec 2) (lpi : Bool)
  /-- TX_BANK_EXCHANGE (R81). -/
  | txBankExchange (l : Pair)
  /-- RX_ANALOG_EXCHANGE (R81). -/
  | rxAnalogExchange (l : Pair)
  /-- RX_DIGITAL_EXCHANGE (R81). -/
  | rxDigitalExchange (l : Pair)
  /-- COMPAT_PERIOD_BOUNDARY (R124). -/
  | compatPeriodBoundary (p : Port) (bad badNext : BitVec 8)
  /-- ROW_START (R40). -/
  | rowStart (l : Pair) (lpi : Bool)
  /-- TX_UNDERRUN (R43). -/
  | txUnderrun (l : Pair)
  /-- GBX_OVERFLOW (R44). -/
  | gbxOverflow (l : Pair) (n : BitVec 16)
  /-- SYNC_WORD_RECEIVED (R36). -/
  | syncWordReceived (l : Pair) (n : BitVec 7) (spaced : Bool) (ms : Word)
  /-- SF_LOCK_LOSS (R36). -/
  | sfLockLoss (l : Pair)
  /-- ROW_HEADER_RECEIVED (R42). -/
  | rowHeaderReceived (l : Pair) (r : BitVec 14) (h : BitVec 120)
  /-- COUNT_RECEIVED (R49). -/
  | countReceived (l : Pair) (msg : BitVec 64) (off : BitVec 7)
  /-- CUT_NOTICE_RECEIVED (R115). -/
  | cutNoticeReceived (l : Pair) (msg : BitVec 64)
  /-- CUT_ACK_RECEIVED (R116). -/
  | cutAckReceived (l : Pair) (msg : BitVec 64)
  /-- IDENTITY_RECEIVED (R46). -/
  | identityReceived (l : Pair) (msg : BitVec 64)
  /-- QUIET_MESSAGE_RECEIVED (R176). -/
  | quietMessageReceived (l : Pair) (msg : BitVec 64)
  /-- SNR_MEASUREMENT (R185). -/
  | snrMeasurement (l : Pair) (e : BitVec 48) (held : Bool)
  /-- INTERP_LIMIT (R74). -/
  | interpLimit (l : Pair) (high : Bool) (n : Word) (first : Bool)
  /-- QUIET_WAKE (R178). -/
  | quietWake (l : Pair)
  /-- CLAUSE73_PAGE (R152). -/
  | clause73Page (l : Pair) (page : Page) (ms : Word)
  /-- NEGOTIATION_RESOLUTION (R153). -/
  | negotiationResolution (m : Pair) (off : Word)
  /-- BEACON_DETECT (R148). -/
  | beaconDetect (l : Pair) (b : BitVec 128) (ms : Word)
  /-- BEACON_WINDOW_EXPIRY (R148). -/
  | beaconWindowExpiry (m : Pair)
  /-- FAST_ROAD_ENTRY (R168). -/
  | fastRoadEntry (m : Pair) (off : Word)
  /-- COMPAT_PARALLEL_DETECT (R171). -/
  | compatParallelDetect (m : Pair) (fired : BitVec 8)
  /-- MASTER_SUPERFRAME_ZERO (R245). -/
  | masterSuperframeZero (m : Pair)
  /-- JOIN_ROAD_LOCK (R149). -/
  | joinRoadLock (m : Pair)
  /-- TIMING_DECISION (R158). -/
  | timingDecision (m : Pair)
  /-- TRAINING_PHASE_END (R161). -/
  | trainingPhaseEnd (m : Pair)
  /-- TRAINING_PHASE_LIMIT (R161). -/
  | trainingPhaseLimit (m : Pair)
  /-- QUALIFICATION_WINDOW (R165). -/
  | qualificationWindow (l : Pair) (e : BitVec 48)
  /-- COMPAT_TRAINING_REQUEST (R170). -/
  | compatTrainingRequest (l : Pair) (tx : BitVec 128)
  /-- COMPAT_TRAINING_COMPLETE (R170). -/
  | compatTrainingComplete (m : Pair)
  /-- COMPAT_TRAINING_TIMEOUT (R170). -/
  | compatTrainingTimeout (m : Pair)
  /-- COMPAT_SIGNAL_LOST (R172). -/
  | compatSignalLost (l : Pair)
  /-- LEAVING_END (R143). -/
  | leavingEnd (m : Pair)
  /-- HOLDOFF_EXPIRY (R173). -/
  | holdoffExpiry (m : Pair)
  /-- TAKE_VERIFICATION (R101). -/
  | takeVerification (t : Tile)
  /-- BANK_FILL (R103). -/
  | bankFill (t : Tile)
  /-- GRADING_TEMPERATURE_EVAL (R126). -/
  | gradingTemperatureEval (l : Pair) (t : BitVec 16)
  /-- GRADING_TIMER_EXPIRY (R126). -/
  | gradingTimerExpiry (l : Pair)
  /-- GRADING_PASS_START (R132). -/
  | gradingPassStart (g : Group)
  /-- GRADING_SEGMENT_FOLD (R128). -/
  | gradingSegmentFold (g : Group)
  /-- GRADING_RUN_END (R130). -/
  | gradingRunEnd (l : Pair) (take retake : List Byte) (clusters : List Cluster)
  /-- CONTINUITY_RECORD_WRITE (R140). -/
  | continuityRecordWrite (m : Pair)
  /-- RUSHES_CAPTURE_START (R195). -/
  | rushesCaptureStart (p : Port) (pos : BitVec 27) (trig : BitVec 14)
  /-- RUSHES_CAPTURE_DONE (R195). -/
  | rushesCaptureDone (p : Port) (data : List Byte)
  /-- RUSHES_HELD (R196). -/
  | rushesHeld (p : Port)
  /-- RUSHES_UPLOAD_DONE (R197). -/
  | rushesUploadDone (p : Port)
  /-- CABLE_TEST_PAIR_DONE (R205). -/
  | cableTestPairDone (p : Port) (clusters : List Cluster) (far : BitVec 2) (length : Word) (next : List (BitVec 16))
  /-- EYE_SCAN_POINT (R231). -/
  | eyeScanPoint (n : Lane) (k : Word)
  /-- UTIL_WINDOW_END (R191). -/
  | utilWindowEnd (p : Port) (counts : List (BitVec 48)) (unmon : BitVec 8)
  /-- ACNAN_MARKER_RECEIVED (R220). -/
  | acnanMarkerReceived (n : Lane) (p : BitVec 512) (time : Word) (errs : BitVec 16) (a b : HalfSign)
  /-- ACNAN_INVALID_HEADER (R219). -/
  | acnanInvalidHeader (n : Lane) (second : Bool)
  /-- ACNAN_SLIP_SEARCH_END (R219). -/
  | acnanSlipSearchEnd (n : Lane) (found : Bool)
  /-- ACNAN_MARKER_LOST (R220). -/
  | acnanMarkerLost (n : Lane)
  /-- ACNAN_ELASTIC_SLIP (R223). -/
  | acnanElasticSlip (n : Lane)
  /-- ACNAN_SCHEDULED_MARKER (R216). -/
  | acnanScheduledMarker (p : Port) (fills : List Word)
  /-- ACNAN_STUFF_OVERFLOW (R217). -/
  | acnanStuffOverflow (n : Lane)
  /-- HL_GBX_OVERFLOW (R225). -/
  | hlGbxOverflow (l : Pair) (words : Word)
  /-- ACNAN_LANE_SLEEP (R227). -/
  | acnanLaneSleep (n : Lane)
  /-- ACNAN_LANE_WAKE (R228). -/
  | acnanLaneWake (n : Lane)
  /-- ACNAN_RX_ASLEEP (R229). -/
  | acnanRxAsleep (n : Lane) (blocks : Word)
  /-- ACNAN_SIGNAL_DETECT (R229). -/
  | acnanSignalDetect (n : Lane)
  /-- GEARBOX_RESET_HANDSHAKE (R294). -/
  | gearboxResetHandshake (bridge : Bool) (u : Pair) (n : Word)
  /-- GEARBOX_HANDSHAKE_END (R294). -/
  | gearboxHandshakeEnd (l : Pair)
  /-- RESET_COMPLETE (R477). -/
  | resetComplete (kind : BitVec 3) (u : Pair)
  /-- SCRUB_READ (R464). -/
  | scrubRead (b : MemBank) (off : BitVec 24) (found : Found) (rewritten : Bool) (h : Holds)
  /-- TMR_MISMATCH (R404). -/
  | tmrMismatch (a : BitVec 28) (majority : Bool) (copyA : Word)
  /-- OPERATOR_WATCHDOG_CHECK (R380). -/
  | operatorWatchdogCheck (beats : List Word)
  /-- OPERATOR_TRAP (R380). -/
  | operatorTrap (memory : Bool)
  /-- OPERATOR_RESTART (R381). -/
  | operatorRestart (crypto : BitVec 3)
  /-- ROLLBACK_FLOOR_TIMER (R375). -/
  | rollbackFloorTimer (patch : Bool)
  /-- QUIESCENT_POINT (R385). -/
  | quiescentPoint (crypto : BitVec 3)
  /-- PATCH_ACTIVATION (R386). -/
  | patchActivation
  /-- SUPERVISOR_REQUEST (R371). -/
  | supervisorRequest (v : View) (a : BitVec 28) (w : Word)
  /-- LOCKSTEP_MISMATCH (R387). -/
  | lockstepMismatch
  /-- TOKEN_FRAME (R449). -/
  | tokenFrame (f : Fate) (v : Byte)
  /-- COMMIT_FRAME (R449). -/
  | commitFrame (f : Fate)
  /-- ENUMERATION_TIMEOUT (R449). -/
  | enumerationTimeout
  /-- CMD_FRAME (R452). -/
  | cmdFrame (f : Fate) (op : BitVec 16) (c : Cmd)
  /-- REPLY_FRAME (R452). -/
  | replyFrame (f : Fate) (e : BitVec 12) (addr : BitVec 6) (status : BitVec 16) (result : List Byte)
  /-- EVENT_FRAME (R457). -/
  | eventFrame (fate : Fate) (addr : BitVec 6) (seq : Word) (code unit : BitVec 16) (time data : BitVec 64) (logged : Bool)
  /-- TIME_FRAME_SEND (R453). -/
  | timeFrameSend
  /-- TIME_FRAME_RECEIVED (R454). -/
  | timeFrameReceived (fate : Fate) (f : TimeFrame) (res : Word)
  /-- TIME_FRAME_RETURN (R453). -/
  | timeFrameReturn (fate : Fate) (f : TimeFrame) (rt : Word)
  /-- CHAIN_TIME_TIMEOUT (R455). -/
  | chainTimeTimeout
  /-- EPOCH_FRAME (R456). -/
  | epochFrame (fate : Fate) (f : EpochFrame)
  /-- EPOCH_FRAME_RETURN (R456). -/
  | epochFrameReturn (fate : Fate) (f : EpochFrame)
  /-- EPOCH_RETURN_TIMEOUT (R456). -/
  | epochReturnTimeout (id : Word)
  /-- EPOCH_UNCONFIRMED_DISCARD (R456). -/
  | epochUnconfirmedDiscard (id : Word)
  /-- EPOCH_FIRE (R456). -/
  | epochFire (id : Option Word)
  /-- SCHEDULED_HOP_FIRE (R265). -/
  | scheduledHopFire (ix : Pll)
  /-- CHAIN_IN_LOSS (R458). -/
  | chainInLoss
  /-- IN_LOSS_FRAME_SEND (R458). -/
  | inLossFrameSend
  /-- IN_LOSS_FRAME (R458). -/
  | inLossFrame (f : Fate) (src : Byte)
  /-- RING_BROKEN_TIMEOUT (R458). -/
  | ringBrokenTimeout
  /-- CHAIN_IN_RELOCK (R445). -/
  | chainInRelock
  /-- FABRIC_STATUS_TIMEOUT (R254). -/
  | fabricStatusTimeout
  /-- RS_MONITOR_LOCK (R188). -/
  | rsMonitorLock (l : Pair) (host : Bool) (n : List (BitVec 32))
  /-- RS_MONITOR_LOCK_LOSS (R57). -/
  | rsMonitorLockLoss (l : Pair) (host : Bool) (n : List (BitVec 32))
  /-- PERST_N_DEASSERTION (R430). -/
  | perstNDeassertion
  /-- ASPM_L1_ENTRY (R431). -/
  | aspmL1Entry
  /-- ASPM_L1_EXIT (R431). -/
  | aspmL1Exit
  /-- CABLE_PROFILE_COMPUTED (R198). -/
  | cableProfileComputed (g : Group) (recs : List PairMeasure)
  /-- FINAL_CHUNK_VERIFIED (R384). -/
  | finalChunkVerified (crypto : BitVec 3)
deriving DecidableEq, Repr

end Sys2Proof
end

