-- ==== Sys2Proof/Decode.lean ====
section
/-! DEFINITION. The command that a word spells by the opcode table's bits. -/
namespace Sys2Proof

/-- The table gives no row any bits: no word spells a command. DESIGN CHOICE: log 4. -/
def decodeTableWord (_nbits _w : Nat) : Option Instr := none

end Sys2Proof
end

