-- ==== Sys2Proof/Machine/Operands.lean ====
section
/-! DEFINITION. Bit fields, byte order and sign: the small helpers every register and message is read with. -/
namespace Sys2Proof.Machine

/-- `n` as `k` little-endian bytes. -/
def leBytes : Nat → Nat → List Byte
  | 0, _ => []
  | k + 1, n => BitVec.ofNat 8 n :: leBytes k (n / 256)

/-- The number that little-endian bytes spell. -/
def leNat : List Byte → Nat
  | [] => 0
  | b :: t => b.toNat + 256 * leNat t

/-- The number of `k` bytes from offset `o`, little-endian; bytes past the end count as 0. -/
def leAt (l : List Byte) (o k : Nat) : Nat := leNat ((l.drop o).take k)

/-- The byte at an offset; 0 past the end. -/
def byteAt (l : List Byte) (o : Nat) : Byte := l.getD o 0

/-- Bits [hi:lo] of a number. -/
def bitsOf (n hi lo : Nat) : Nat := (n / 2 ^ lo) % 2 ^ (hi + 1 - lo)

/-- Bits [hi:lo] of a word, as a number. -/
def fieldGet (w : Word) (hi lo : Nat) : Nat := bitsOf w.toNat hi lo

/-- The word whose bits [hi:lo] are 1 and whose other bits are 0. -/
def fieldMask (hi lo : Nat) : Word := BitVec.ofNat 32 ((2 ^ (hi + 1 - lo) - 1) * 2 ^ lo)

/-- A word with bits [hi:lo] replaced by a value, taken modulo the field's size. -/
def fieldPut (w : Word) (hi lo : Nat) (v : Nat) : Word :=
  (w &&& ~~~(fieldMask hi lo)) ||| (BitVec.ofNat 32 ((v % 2 ^ (hi + 1 - lo)) * 2 ^ lo))

/-- Bit i of a word. -/
def bitGet (w : Word) (i : Nat) : Bool := w.getLsbD i

/-- A word with bit i set or cleared. -/
def bitPut (w : Word) (i : Nat) (b : Bool) : Word := fieldPut w i i (if b then 1 else 0)

/-- A Bool as a number. -/
def b2n (b : Bool) : Nat := if b then 1 else 0

/-- `n` zero bytes. -/
def zeros (n : Nat) : List Byte := List.replicate n 0

/-- The signed value of the low `k` bits of a number. -/
def signed (k n : Nat) : Int := if n % 2 ^ k < 2 ^ (k - 1) then (n % 2 ^ k : Nat) else (n % 2 ^ k : Nat) - (2 ^ k : Nat)

/-- An integer as the number its low `k` bits spell in two's complement. -/
def twos (k : Nat) (z : Int) : Nat := (z % (2 ^ k : Nat)).toNat

end Sys2Proof.Machine
end

