-- ==== Sys2Proof/Machine/Check.lean ====
section
/-! DEFINITION. Check words: the CRC-32 of R87 and the short CRCs of messages and beacons. -/
namespace Sys2Proof.Machine

/-- One bit of a reflected CRC with polynomial `p` (reflected) in `w` bits. -/
def crcBit (p c : Nat) : Nat := if c % 2 = 1 then (c / 2) ^^^ p else c / 2

/-- One byte of a reflected CRC. -/
def crcByte (p c : Nat) (b : Byte) : Nat :=
  crcBit p (crcBit p (crcBit p (crcBit p (crcBit p (crcBit p (crcBit p (crcBit p (c ^^^ b.toNat))))))))

def crcBytes (p : Nat) : Nat → List Byte → Nat
  | c, [] => c
  | c, b :: t => crcBytes p (crcByte p c b) t

/-- The CRC-32 of IEEE 802.3: polynomial 0x04C1_1DB7 reflected, preset and final exclusive-or all ones (R87). -/
def crc32 (l : List Byte) : Nat := crcBytes 0xEDB88320 0xFFFFFFFF l ^^^ 0xFFFFFFFF

end Sys2Proof.Machine
end

