-- ==== Sys2Proof/Config.lean ====
section
/-! DEFINITION. What a part or an implementation fixes, and the values the manual leaves open.
Every constant here is opaque: no proof can see its value, so a claim holds whatever it is. -/
namespace Sys2Proof.Config

/-- The OUI that DEV_OUI and DEV_IDENTIFY report (R346): the manual gives no number. DESIGN CHOICE: log 7. -/
opaque oui : BitVec 24
/-- The serial number of this part (R346). DESIGN CHOICE: log 7. -/
opaque serial : BitVec 64
/-- Which of the VIDs 8 to 72 the factory fused into this part (R486). DESIGN CHOICE: log 7. -/
opaque coreVidCode : Fin 65
/-- PWR_CORE_VID.VID (R486). DESIGN CHOICE: log 7. -/
def coreVid : BitVec 8 := BitVec.ofNat 8 (8 + coreVidCode.val)
/-- Gollith's PCI-SIG vendor identifier (R424): the manual gives no number. DESIGN CHOICE: log 7. -/
opaque vendorId : BitVec 16
/-- Where the nominal frequencies of the board's REFA and REFB lie from 10 MHz to 800 MHz, and that of its crystal from 25 MHz to 52 MHz, in mHz
(R261): the manual names no register that holds them. DESIGN CHOICE: log 7. -/
opaque refaCode : Fin 790000000001
/-- DESIGN CHOICE: log 7. -/
opaque refbCode : Fin 790000000001
/-- DESIGN CHOICE: log 7. -/
opaque xtalCode : Fin 27000000001
/-- These frequencies, in mHz: the device computes words and output frequencies from them (R236, R361). DESIGN CHOICE: log 7. -/
def refaFreq : Nat := 10000000000 + refaCode.val
/-- DESIGN CHOICE: log 7. -/
def refbFreq : Nat := 10000000000 + refbCode.val
/-- DESIGN CHOICE: log 7. -/
def xtalFreq : Nat := 25000000000 + xtalCode.val
/-- A value that the manual leaves open: the n-th one drawn, from a source named by the kind. DESIGN CHOICE: log 6. -/
opaque freeValue : Nat → Nat → BitVec 64
/-- The take contents that the device computes from a continuity record and the calibration records of a pair
(R138, R139): the manual does not document the pair model, so the bytes are open. Arguments: record, calibration records of the pair,
pair, byte. DESIGN CHOICE: log 8. -/
opaque continuityTakeByte : List Byte → List Byte → Nat → Nat → Byte
/-- The calibration store that the factory wrote (R136): byte of the record of a pair and band, by number 4 × pair + band.
DESIGN CHOICE: log 8. -/
opaque calRecordByte : Nat → Nat → Byte
/-- Samples of the line, which no row brings: the m-th slicer input of the n-th free run of symbols, and the number of symbols of a run
(R61, R73). DESIGN CHOICE: log 162. -/
opaque slicerInput : Nat → Nat → Rat
/-- DESIGN CHOICE: log 162. -/
opaque symbolCount : Nat → Nat
/-- The soft value of a scaled distance before it saturates: R79 gives no unit (log 144). -/
opaque softUnit : Rat → Nat
/-- Which of two equally reliable bits a Chase search takes first (R79, log 144). -/
opaque tieRank : Nat → Nat → Nat
/-- A stretch of memory whose contents are open, by the number drawn for it and the offset (R10, R193, R194). DESIGN CHOICE: log 165. -/
opaque openByte : BitVec 64 → Nat → Byte
/-- The change of the insertion loss at 57.03 GHz that the device has learned, per °C, by pair and number of accepted takes (R200), and the
slicer SNR, in 0.01 dB, that it predicts with a take's FFE re-solved for a loss in 0.01 dB. DESIGN CHOICE: log 166. -/
opaque learnedIltc : Nat → Nat → Rat
/-- DESIGN CHOICE: log 166. -/
opaque forecastSnr : List Byte → Rat → Nat
/-- The hybrid's replica of a driver's output at an instant, in symbol periods, from the codes HYB_RES, HYB_CAP, HYB_GAIN, HYB_DELAY and
HYB_BAL and the DAC codes: the factory characterizes it per device (R66). The linear gain of a number of 0.01 dB, a sequence of DAC codes
resampled at an instant (R249), and the level of the line at an instant. DESIGN CHOICE: log 173. -/
opaque hybridReplica : List Nat → (Int → Int) → Rat → Rat
/-- DESIGN CHOICE: log 173. -/
opaque linearGain : Nat → Rat
/-- DESIGN CHOICE: log 173. -/
opaque resample : (Int → Int) → Rat → Rat
/-- The 56 bytes of pair model that the device compresses an active take into (R138): the format is not documented.
DESIGN CHOICE: log 8. -/
opaque pairModelByte : List Byte → Nat → Byte

end Sys2Proof.Config
end

