-- ==== Sys2Proof/Machine/Regs.lean ====
section
/-! DEFINITION. The register map: where every register lies, what it holds after reset, and which of its bits a
write may change (R4, R389, R390). The map follows the register tables of the chapters that own the blocks. -/
namespace Sys2Proof.Machine

/-- One register: its reset value and the access of its bits (R4).
`rw` are the bits a plain write changes, `w1c` those a 1 clears, `sup` those only the supervisor view writes,
`rl` those lock bit `lock` of LOCK_CTL locks (R402), `pv` those with one copy per view, `rc` those a read returns
to their reset value (R400). Bits in none of them are read only or reserved. -/
structure RegInfo where
  reset : Word := 0
  rw : Word := 0
  w1c : Word := 0
  sup : Word := 0
  rl : Word := 0
  lock : Nat := 0
  pv : Word := 0
  rc : Word := 0
deriving DecidableEq, Repr

/-- Base of tile t's space (R389). -/
def tileBase (t : Nat) : Nat := 0x01000000 * (t + 1)
/-- Base of global port P's block (R390). -/
def portBase (p : Nat) : Nat := tileBase (p / 8) + 0x100000 * (p % 8 + 1)
/-- Base of global pair L's block (R390). -/
def pairBase (l : Nat) : Nat := portBase (l / 8) + 0x10000 * (l % 8 + 1)
/-- Base of Acnan lane P × 8 + n (R390). -/
def laneBase (l : Nat) : Nat := portBase (l / 8) + 0x2000 + 0x400 * (l % 8)
/-- Base of global group G's block (R390). -/
def groupBase (g : Nat) : Nat := tileBase (g / 2) + 0x10000 * (g % 2 + 1)
/-- Base of the synthesizer block of PLL index 0 to 71: port P, then tile t (R235, R258). -/
def synBase (i : Nat) : Nat := if i < 64 then portBase i + 0x1000 else tileBase (i - 64) + 0x1000
/-- Base of rack PLL 72 (OSA) or 73 (OSB) (R282). -/
def rackBase (i : Nat) : Nat := 0x40000 + 0x200 * (i - 72)
/-- Base of clock output n (R282). -/
def outBase (n : Nat) : Nat := 0x41000 + 0x20 * n
/-- Base of power domain n (R317). -/
def domBase (n : Nat) : Nat := 0x20000 + 0x20 * n
/-- Base of counter block b: the hub's, then those of tiles 0 to 7 (R411). -/
def perfBase (b : Nat) : Nat := if b = 0 then 0x70000 else tileBase (b - 1) + 0x2000
/-- Base of submission ring n and of completion ring n (R341). -/
def sqBase (n : Nat) : Nat := 0x80000 + 0x40 * n
def cqBase (n : Nat) : Nat := 0x81000 + 0x40 * n
/-- The key under which a BAR2 address is held: BAR2 stands above BAR0's 256 MB. -/
def bar2 (off : Nat) : Nat := 0x10000000 + off
/-- Take store window: pair L, slot s (R10). -/
def takeBase (l s : Nat) : Nat :=
  tileBase (l / 64) + 0xA00000 + 0x100000 * (l / 32 % 2) + (l % 32) * 0x8000 + 0x1000 * s
/-- Rushes window of global group G (R10). -/
def rushBase (g : Nat) : Nat := tileBase (g / 2) + 0xC00000 + 0x180000 * (g % 2)
/-- Link status area of link L (R340). -/
def linkArea (l : Nat) : Nat := 0x800000 + 0x80 * l

/-! Registers with a name of their own. -/
def devIdR := 0x0
def devOuiR := 0x4
def devSerialLoR := 0x8
def devSerialHiR := 0xC
def devStrapsR := 0x10
def devResetCauseR := 0x14
def devResetCtlR := 0x18
def devTimeLoR := 0x20
def devTimeHiR := 0x24
def lockCtlR := 0x40
def fwStateR := 0x100
def fwWallCntR := 0x104
def snapCtlR := 0x200
def snapSeqR := 0x204
def snapTimeLoR := 0x208
def snapTimeHiR := 0x20C
def clkRootSrcR := 0x10000
def clkMonCfgR := 0x10004
def clkMonStatusR := 0x10008
def clkEnR := 0x10010
def hubMuxForcedR := 0x10014
def rootNIntR := 0x10020
def rootNFracR := 0x10024
def refSelR := 0x10100
def pwrPlOperR := 0x20C00
def pwrPlGraderR := 0x20C04
def pwrSupplyStatusR := 0x21000
def pwrBrownoutCntR := 0x21004
def evtlogDropR := 0x21008
def pwrCoreVidR := 0x2100C
def pwrRailMinR (n : Nat) := 0x21040 + 4 * n
def evtBaseLoR := 0x30000
def evtBaseHiR := 0x30004
def evtRingCfgR := 0x30008
def evtRingStatusR := 0x3000C
def evtClassLoR := 0x30010
def evtClassHiR := 0x30014
def evtLastSeqR := 0x30018
def evtFullCntR := 0x3001C
def accErrAddrR := 0x30040
def accErrInfoR := 0x30044
def accErrCntR := 0x30048
def tmrMismatchCntR := 0x30050
def tmrLastR := 0x30054
def thermCfgR := 0x30080
def thermStatusR := 0x30084
def hubBankR (b : Nat) := 0x30100 + 0x10 * b
def rackCtlR := 0x42000
def clapCtlR := 0x42004
def clapInCntR := 0x42010
def clapOutCntR := 0x42014
def clapRejectR := 0x42018
def chainCtlR := 0x50000
def chainStateR := 0x50004
def chainInDelayR := 0x50008
def chainEvtMaskLoR := 0x50010
def chainEvtMaskHiR := 0x50014
def chainRtR := 0x50020
def chainTimeOfsR := 0x50024
def chainCrcErrR := 0x50040
def chainHopDropR := 0x50044
def chainLateReplyR := 0x50048
def chainTimeStepR := 0x5004C
def windowBaseR := 0x60000
def spFrameConfigR := 0x60004
def spStatusR := 0x60008
def spIrqEnR := 0x6000C
def bcfgCtlR := 0x60020
def bcfgPtrR := 0x60024
def bcfgDataR := 0x60028
def cmdTagsFreeR := 0x82000
def cmdPathCfgR := 0x82004
def cmdFetchPauseR := 0x82008
def ldtBaseLoR := 0x90000
def ldtBaseHiR := 0x90004
def ldtCtlR := 0x90008
def ldtHitR := 0x90010
def ldtMissR := 0x90014
def ldtCrcErrR := 0x90018
def operWdtCfgR := 0x100200
def fwallCfgR := 0x101000
def mailboxCtlR := bar2 0xC0000
def sqTailDb (n : Nat) := bar2 (0x1000 * n)
def cqHeadDb (n : Nat) := bar2 (0x40000 + 0x1000 * n)
def evtHeadDb := bar2 0x80000
def tileCtlR (t : Nat) := tileBase t
def tileClkStatusR (t : Nat) := tileBase t + 0x200
def tileClkEnR (t : Nat) := tileBase t + 0x204
def tileMuxForcedR (t : Nat) := tileBase t + 0x208
def tileXqR (t : Nat) := tileBase t + 0x210
def portXqR (p : Nat) := portBase p + 0x200
def utilR (p off : Nat) := portBase p + 0x100 + off
def slotStateR (l : Nat) := pairBase l + 0x40
def cutSfR (l : Nat) := pairBase l + 0x44
def calCountR (l : Nat) := pairBase l + 0x48
def retakeFailR (l : Nat) := pairBase l + 0x4C
def calSfR (l : Nat) := pairBase l + 0x50
def calTimeLoR (l : Nat) := pairBase l + 0x54
def calTimeHiR (l : Nat) := pairBase l + 0x58
def cutMissedR (l : Nat) := pairBase l + 0x5C
def sigLevelR (l : Nat) := pairBase l + 0x60
def sigStampR (l : Nat) := pairBase l + 0x64
def acqStatusR (l : Nat) := pairBase l + 0x68
def snrR (l : Nat) := pairBase l + 0x70
def snrMeanR (l : Nat) := pairBase l + 0x74
def innerCwR (l : Nat) := pairBase l + 0x100
def innerCorrR (l : Nat) := pairBase l + 0x108
def innerChaseR (l : Nat) := pairBase l + 0x110
def innerUncorrR (l : Nat) := pairBase l + 0x118
def rowHdrLostR (l : Nat) := pairBase l + 0x120
def txUnderrunR (l : Nat) := pairBase l + 0x124
def gbxOverflowR (l : Nat) := pairBase l + 0x128
def slateMsgErrR (l : Nat) := pairBase l + 0x12C
def slateMsgUnknownR (l : Nat) := pairBase l + 0x130
def interpLimitR (l : Nat) := pairBase l + 0x134
def bankAuditErrR (l : Nat) := pairBase l + 0x138
def quietEnterR (l : Nat) := pairBase l + 0x13C
def quietWakeR (l : Nat) := pairBase l + 0x140
def takeStoreFullR (l : Nat) := pairBase l + 0x144
/-- RS_MON_STATUS of pair block L in a direction: 0 line, 1 host (R188). -/
def rsMonStatusR (l dir : Nat) := pairBase l + 0x290 + 0x100 * dir

def allOnes : Word := 0xFFFFFFFF

/-- The hub's registers that stand alone (R389 and the chapters it names). -/
def hubRegs1 : List (Nat × RegInfo) :=
  [ (devIdR, { reset := 0x00A15120 }),
    (devOuiR, {}), (devSerialLoR, {}), (devSerialHiR, {}),
    (devStrapsR, { rw := 0x300, sup := 0x300, rl := 0x300, lock := 4 }),
    (devResetCauseR, { reset := 1 }), (devResetCtlR, {}), (devTimeLoR, {}), (devTimeHiR, {}),
    (lockCtlR, { sup := 0x1F }),
    (fwStateR, {}), (fwWallCntR, {}),
    (snapCtlR, { w1c := 0x8, rw := 0x2, pv := 0x2 }),
    (snapSeqR, {}), (snapTimeLoR, {}), (snapTimeHiR, {}),
    (clkRootSrcR, { rw := 0x3, sup := 0x3, rl := 0x3, lock := 0 }),
    (clkMonCfgR, { reset := 0x0A, rw := 0xFF, rl := 0xFF, lock := 0 }),
    (clkMonStatusR, { reset := 0x18, pv := 0x20, rc := 0x20 }),
    (clkEnR, { rw := 0x1F, sup := 0x1F }),
    (hubMuxForcedR, {}),
    (rootNIntR, { rw := allOnes, sup := allOnes, rl := allOnes, lock := 0 }),
    (rootNFracR, { rw := allOnes, sup := allOnes, rl := allOnes, lock := 0 }),
    (refSelR, { reset := 0x2, rw := 0xC3, rl := 0xC3, lock := 0 }),
    (pwrPlOperR, { reset := 3, rw := 3 }),
    (pwrPlGraderR, { reset := allOnes, rw := allOnes }),
    (pwrSupplyStatusR, {}), (pwrBrownoutCntR, {}), (evtlogDropR, {}), (pwrCoreVidR, {}) ]

def hubRegs2 : List (Nat × RegInfo) :=
  [ (evtBaseLoR, { rw := 0xFFFFF000 }), (evtBaseHiR, { rw := allOnes }),
    (evtRingCfgR, { rw := 0x1FF1F }),
    (evtRingStatusR, { reset := 0x10000, w1c := 0x40000 }),
    (evtClassLoR, { rw := allOnes }), (evtClassHiR, { rw := allOnes }),
    (evtLastSeqR, {}), (evtFullCntR, {}),
    (accErrAddrR, { pv := allOnes }), (accErrInfoR, { pv := allOnes, rc := 0x80 }), (accErrCntR, {}),
    (tmrMismatchCntR, {}), (tmrLastR, {}),
    (thermCfgR, { reset := 0x564, rw := 0xFFF }), (thermStatusR, {}),
    (rackCtlR, { rw := 1, rl := 1, lock := 0 }),
    (clapCtlR, { reset := 0x1000, rw := 0xFF07, rl := 0x4, lock := 1 }),
    (clapInCntR, {}), (clapOutCntR, {}), (clapRejectR, {}),
    (chainCtlR, {}), (chainStateR, { reset := 0xFF00 }), (chainInDelayR, { rw := 0xFFFF }),
    (chainEvtMaskLoR, { rw := allOnes }), (chainEvtMaskHiR, { rw := allOnes }),
    (chainRtR, {}), (chainTimeOfsR, {}), (chainCrcErrR, {}), (chainHopDropR, {}), (chainLateReplyR, {}),
    (chainTimeStepR, {}) ]

def hubRegs3 : List (Nat × RegInfo) :=
  [ (windowBaseR, { rw := 0x0FFFFFFC }), (spFrameConfigR, { reset := 0x104, rw := 0xFFF }),
    (spStatusR, { w1c := 0xF }), (spIrqEnR, { reset := 1, rw := 0x3F }),
    (bcfgCtlR, {}), (bcfgPtrR, { rw := 0x3FC }), (bcfgDataR, {}),
    (cmdTagsFreeR, { reset := 0x1000 }), (cmdPathCfgR, { reset := 7, rw := 7, sup := 7 }), (cmdFetchPauseR, {}),
    (ldtBaseLoR, { rw := 0xFFFFF000 }), (ldtBaseHiR, { rw := allOnes }), (ldtCtlR, { rw := 1 }),
    (ldtHitR, {}), (ldtMissR, {}), (ldtCrcErrR, {}),
    (operWdtCfgR, { reset := 0x8A, rw := 0xFF, sup := 0xFF, rl := 0xFF, lock := 4 }),
    (fwallCfgR, { rw := allOnes, sup := allOnes }),
    (mailboxCtlR, { w1c := 0x8, rw := 0x1FF0000 }), (evtHeadDb, { rw := 0xFFFF }) ]

/-- Look a register up in a list of rows. -/
def findReg : List (Nat × RegInfo) → Nat → Option RegInfo
  | [], _ => none
  | (k, i) :: t, a => if a = k then some i else findReg t a

/-- Submission ring block (R341). -/
def sqRegs (o : Nat) : Option RegInfo :=
  if o = 0 then some { rw := 0xFFFFF000 } else if o = 4 then some { rw := allOnes }
  else if o = 8 then some { reset := 0xC04, rw := 0xBFFF } else if o = 0xC then some {} else none

/-- Completion ring block (R341). -/
def cqRegs (o : Nat) : Option RegInfo :=
  if o = 0 then some { rw := 0xFFFFF000 } else if o = 4 then some { rw := allOnes }
  else if o = 8 then some { reset := 0x4, rw := 0xFFFF9FFF }
  else if o = 0xC then some { reset := 0x1000, w1c := 0x4000 } else if o = 0x10 then some {} else none

/-- Rack PLL block (R282). -/
def rackRegs (o : Nat) : Option RegInfo :=
  if o = 0 then some { rw := 0x1F, rl := 0x10, lock := 0 }
  else if o = 4 then some { reset := 0xFF00 }
  else if o = 8 ∨ o = 0x10 ∨ o = 0x14 ∨ o = 0x18 ∨ o = 0x1C then some {}
  else if 0x100 ≤ o ∧ o < 0x200 then
    if o % 16 = 0 then some { reset := 0x400, rw := 0x3FFFFF, rl := 0x3, lock := 0 }
    else if o % 16 = 4 then some { rw := allOnes } else none
  else none

/-- Clock output block (R282). -/
def outRegs (o : Nat) : Option RegInfo :=
  if o = 0 then some { rw := 0xFFFFF, rl := 0xBF, lock := 0 }
  else if o = 4 then some { rw := 0x0FFF0FFF, rl := 0x0FFF0000, lock := 0 }
  else if o = 8 then some { reset := 0x3F0000, rw := 0x7F3F03 }
  else if o = 0xC then some {} else if o = 0x10 then some {} else none

/-- Power domain block of domain n (R308, R317). -/
def domRegs (n o : Nat) : Option RegInfo :=
  if o = 0 then some { rw := 0xF, rl := 0x8, lock := 2 }
  else if o = 4 then some { reset := 0x40000 }
  else if o = 8 then some { rw := 0x3FFFFFFF, rl := 0x3FFFFFFF, lock := 2 }
  else if o = 0xC ∨ o = 0x10 then some {}
  else if o = 0x14 then
    if 64 ≤ n ∧ n < 72 then some { reset := 3, rw := 3, rl := 3, lock := 2 }
    else if n = 75 then some { reset := 0xFF, rw := 0xFF, rl := 0xFF, lock := 2 } else none
  else if o = 0x18 then some { reset := 0x924 } else none

/-- Counter block (R411, R412). -/
def perfRegs (o : Nat) : Option RegInfo :=
  if o = 0 then some { rw := 0x3 }
  else if o = 0x8 then some { rw := allOnes } else if o = 0xC then some { rw := 0xFFFF }
  else if o = 0x10 then some { w1c := 0x1FF } else if o = 0x14 then some { rw := 0x1FF }
  else if o = 0x18 ∨ o = 0x1C ∨ o = 0x20 then some { rw := allOnes }
  else if 0x40 ≤ o ∧ o < 0x140 then
    if o % 0x20 = 0 then some { rw := 0xFFFFF }
    else if o % 0x20 = 4 ∨ o % 0x20 = 8 ∨ o % 0x20 = 0x10 then some { rw := allOnes }
    else if o % 0x20 = 0xC then some { rw := 0x0FFFFFFF }
    else if o % 0x20 = 0x14 then some { rw := 0xFFFF } else none
  else none

/-- Synthesizer block; `host` for a tile host synthesizer (R239, R258). Words at reset are those of a synthesizer
that is OFF: zero until its enable loads the defaults. -/
def slotDefault (host : Bool) (k : Nat) : Nat :=
  if host then (if k = 0 then 0x5640000000 else 0) else if k = 0 then 0x5B40000000 else if k = 1 then 0x5500000000 else 0
def synRegs (host : Bool) (o : Nat) : Option RegInfo :=
  if o = 0 then some { reset := if host then 0x80 else 0x40, rw := 0xFF }
  else if o = 4 then some { reset := 0xFF0000 }
  else if o = 8 ∨ o = 0xC then some {}
  else if o = 0x10 then some { reset := 0x1101, rw := 0x777F }
  else if o = 0x14 then some (if host then { rw := 0x1F, rl := 0x1F, lock := 0 } else {})
  else if 0x20 ≤ o ∧ o < 0x40 then
    let w := slotDefault host ((o - 0x20) / 8)
    if o % 8 = 0 then some { reset := BitVec.ofNat 32 (w / 2 ^ 32), rw := 0xFF }
    else if o % 8 = 4 then some { reset := BitVec.ofNat 32 w, rw := allOnes } else none
  else if o = 0x40 ∨ o = 0x44 ∨ o = 0x48 ∨ o = 0x4C then some {} else none

/-- Acnan lane block; transmit lanes are n = 0 to 3 (R208, R233, R234). CTLE of a transmit lane is reserved and reads 0. DESIGN CHOICE, log 151: the
fields of HL_CTL that are described for transmit lanes alone cannot be written on a receive lane, where they keep their reset values. -/
def laneRegs (tx : Bool) (o : Nat) : Option RegInfo :=
  if o = 0 then some { reset := if tx then 0x440 else 0x44C, rw := if tx then 0xFFE0 else 0x801F }
  else if o = 4 then some {}
  else if o = 8 then some { reset := allOnes, pv := allOnes, rc := allOnes }
  else if 0x10 ≤ o ∧ o ≤ 0x30 ∧ o % 4 = 0 then some {} else none

/-- Pair block (R109, R151, R182, R184, R186, R188, R410). -/
def pairRegs (o : Nat) : Option RegInfo :=
  if o % 4 ≠ 0 then none
  else if o = 0 ∨ o = 4 then some {}
  else if 0x40 ≤ o ∧ o ≤ 0x5C then some {}
  else if o = 0x60 then some { reset := 0x7FF } else if o = 0x64 then some {}
  else if o = 0x68 then some { reset := 7 }
  else if o = 0x70 then some { reset := allOnes } else if o = 0x74 then some { reset := 0xFFFF }
  else if 0x100 ≤ o ∧ o ≤ 0x144 then some {}
  else if (0x200 ≤ o ∧ o < 0x290) ∨ (0x300 ≤ o ∧ o < 0x390) then some {}
  else if o = 0x290 ∨ o = 0x390 then some { pv := 0x2, rc := 0x2 } else none

/-- Registers of a port block outside its synthesizer, lanes and pairs (R191, R390, R410, R466). -/
def portRegs (o : Nat) : Option RegInfo :=
  if o = 0 ∨ o = 4 then some {}
  else if o = 0x100 then some { reset := 0x0A }
  else if 0x108 ≤ o ∧ o ≤ 0x134 ∧ o % 4 = 0 then some {}
  else if o = 0x200 ∨ o = 0x204 ∨ o = 0x208 ∨ o = 0x20C then some {} else none

/-- Group block: the error registers of its twelve banks (R466). -/
def groupRegs (o : Nat) : Option RegInfo :=
  if 0x100 ≤ o ∧ o < 0x1C0 ∧ o % 16 < 12 ∧ o % 4 = 0 then some {} else none

/-- What lies at a tile offset (R390). Sensor readings stand at +0x00_4000 (R475). -/
def tileRegs (o : Nat) : Option RegInfo :=
  if o < 0x1000 then
    if o = 0 ∨ o = 0x200 ∨ o = 0x208 ∨ o = 0x210 then some {}
    else if o = 0x204 then some { rw := 0xF, sup := 0xF } else none
  else if o < 0x2000 then synRegs true (o - 0x1000)
  else if o < 0x3000 then perfRegs (o - 0x2000)
  else if 0x4000 ≤ o ∧ o < 0x4030 ∧ o % 4 = 0 then some {}
  else if 0x10000 ≤ o ∧ o < 0x30000 then groupRegs (o % 0x10000)
  else if 0x100000 ≤ o ∧ o < 0x900000 then
    let q := o % 0x100000
    if q < 0x1000 then portRegs q
    else if q < 0x2000 then synRegs false (q - 0x1000)
    else if q < 0x4000 then laneRegs (decide ((q - 0x2000) / 0x400 < 4)) (q % 0x400)
    else if 0x10000 ≤ q ∧ q < 0x90000 then pairRegs (q % 0x10000) else none
  else none

/-- The register at an address; none where the address is reserved (R391). BAR2 addresses are given by `bar2`. -/
def regInfo (a : Nat) : Option RegInfo :=
  if a % 4 ≠ 0 then none
  else if a < 0x20000 then findReg hubRegs1 a
  else if a < 0x20A00 then domRegs ((a - 0x20000) / 0x20) (a % 0x20)
  else if 0x21040 ≤ a ∧ a < 0x21060 then some { reset := 0x1FF, pv := allOnes, rc := allOnes }
  else if a < 0x30000 then findReg hubRegs1 a
  else if 0x30100 ≤ a ∧ a < 0x30200 then (if a % 16 < 12 then some {} else none)
  else if a < 0x40000 then findReg hubRegs2 a
  else if a < 0x40400 then rackRegs (a % 0x200)
  else if 0x41000 ≤ a ∧ a < 0x41200 then outRegs (a % 0x20)
  else if a < 0x60000 then findReg hubRegs2 a
  else if 0x70000 ≤ a ∧ a < 0x80000 then perfRegs (a - 0x70000)
  else if 0x80000 ≤ a ∧ a < 0x81000 then sqRegs (a % 0x40)
  else if 0x81000 ≤ a ∧ a < 0x82000 then cqRegs (a % 0x40)
  else if a < 0x01000000 then findReg hubRegs3 a
  else if a < 0x09000000 then tileRegs (a % 0x01000000)
  else if a < 0x10000000 then none
  else if a < 0x10080000 then (if a % 0x1000 = 0 then some { rw := 0xFFF } else none)
  else findReg hubRegs3 a

/-- What a register holds after reset (R5: a reserved address reads 0). DESIGN CHOICE: log 1. -/
def regReset (a : Nat) : Word := match regInfo a with
  | some i => i.reset
  | none => 0

/-- EN of OUT_CFG is locked by OUT_EN, not by CLK_SRC (R402): the lock bit of one bit of a register. -/
def lockOfBit (a : Nat) (i : RegInfo) (bit : Nat) : Nat :=
  if 0x41000 ≤ a ∧ a < 0x41200 ∧ a % 0x20 = 0 ∧ bit = 7 then 1 else i.lock

end Sys2Proof.Machine
end

