-- ==== Sys2Proof/Machine/State.lean ====
section
/-! DEFINITION. The state of the device as plain data: every register, queue, memory, mode and pin the manual gives,
and the queue of waiting commands. A table (`Tab`) lists only the units that differ from their reset contents. -/
namespace Sys2Proof.Machine

/-- No command of this model ends in a fault. -/
inductive Fault where
  /-- Raised by no meaning: the type is closed and has this one member only because it must have one. Safe. -/
  | none
deriving DecidableEq, Repr

/-- Why a command has no meaning here. -/
inductive Refusal where
  /-- Raised by the dispatcher for a command whose meaning is not written. Safe: nothing is claimed of it. -/
  | notModelled (mnemonic : String)
deriving DecidableEq, Repr

abbrev Out (σ : Type) := Host.Outcome σ Fault Refusal

/-- Where the device as a whole stands (R310, R376, R489, R495, R504). -/
inductive DevMode where
  | inReset    -- in a COLD or DEVICE reset: the supervisor ROM has not started
  | running
  | off        -- device-level OFF
deriving DecidableEq, Repr

/-- How far a command in flight has come (R323, R324, R452). -/
inductive Stage where
  | fetching    -- its slot is being read from host memory
  | loading     -- its parameter buffer is being read
  | ready       -- fetched, not started
  | running     -- started, completes on a later event
  | forwarded   -- sent over the chain
deriving DecidableEq, Repr

/-- A command that holds an engine tag and has not completed (R323). -/
structure InFlight where
  etag : Nat
  opcode : Nat := 0
  cmd : Cmd := {}
  stage : Stage := .ready
  aux : Nat := 0        -- what the command waits for: a unit, a slot, a superframe, as its meaning says
  failMask : Nat := 0   -- address 63: devices that did not answer OK (R330)
  failStatus : Nat := 0
  waitFor : Nat := 0    -- address 63: devices still to answer, as a mask
  orphan : Bool := false  -- a FUNCTION reset or D3hot discards its status slot and result (R332)
deriving DecidableEq, Repr

/-- A completion that waits for its status slot to be written (R320). -/
structure Completion where
  etag : Nat
  cmd : Cmd
  status : Nat
  result : List Byte
  stalled : Bool := false
deriving DecidableEq, Repr

/-- One line of the LDT cache (R339). -/
structure LdtLine where
  link : Nat
  bytes : List Byte
deriving DecidableEq, Repr

/-- The command engine (R318 to R341). -/
structure CmdSt where
  inflight : List InFlight := []    -- in order of fetch
  done : List Completion := []      -- completed, status slot not written, in completion order
  rrRing : Nat := 0                 -- ring whose turn it is, and slots left in the turn (R323)
  rrLeft : Nat := 0
  stopped : Bool := false           -- fetching stopped during an operator restart (R381)
  starved : Bool := false           -- fetching paused for lack of engine tags (R323)
  mailbox : Tab Byte := []          -- the 4 KB mailbox buffer (R333)
  mboxWaits : Bool := false         -- a GO waits for an engine tag (R323)
  mboxMute : Bool := false          -- a FUNCTION reset or D3hot: the mailbox's PCIe command sends no MSI-X message (R429)
  mboxWptr : Nat := 0               -- MBOX_WPTR, MBOX_RPTR (R435)
  mboxRptr : Nat := 0
  ldtSets : Tab (List LdtLine) := []  -- set → ways, most recently used first (R339)
  ldtFills : List Nat := []         -- links whose entry is being fetched
  ldtBad : List Nat := []           -- links whose last fill found a bad entry, until the next use (R337)
  unraised : List Nat := []         -- CQs with a status slot that has not raised the vector (R321)
deriving DecidableEq, Repr

/-- One event record (R468). -/
structure EvRec where
  seq : Word
  code : BitVec 16
  unit : BitVec 16
  time : BitVec 64
  data : List Byte
  origin : Byte
  logged : Bool
deriving DecidableEq, Repr

/-- The event collector (R468 to R474). -/
structure EvtSt where
  seq : Word := 0              -- SEQ of the last event raised
  staging : List EvRec := []   -- staging buffer, oldest first, 1,024 records
  gap : Bool := false          -- GAP for the next record written
  outstanding : Bool := false  -- a raise of the ring's vector is outstanding (R473)
  logBuf : List EvRec := []    -- 256-entry buffer of PD_AON (R309)
  log : List EvRec := []       -- MRAM event log, oldest first, 32,768 records (R474)
  logBad : List Word := []     -- SEQ values of logged records whose CRC fails (R474)
  raised : Tab Word := []      -- SEQ of the last event raised, by code × 2^16 + unit (R195)
  lastAccErr : Option (BitVec 64) := none  -- time of the last EVT_ACCESS_ERROR (R396)
deriving DecidableEq, Repr

/-- What the device sends out (a log, newest first). -/
inductive Output where
  | msix (vector : Nat)
  | readData (view : View) (data : Word) (error : Bool)
  | forward (etag : Nat) (addr : Nat)
  | eventFrame (r : EvRec)
  | chainReply (etag : Nat) (status : Nat) (result : List Byte)
  | frame (type dst : Nat) (seq : BitVec 16) (ext : Nat) (payload : List Byte)
  | clapOut
  | coefStatus (pair : Nat) (tx : List Byte)   -- COMPAT training: the transmit settings now in force (R125)
  | coefRequest (pair : Nat) (tx : List Byte)  -- COMPAT training: a request for the partner's transmit settings (R170)
  | serialOut (bytes : List Byte)
  | cfgRetry
  | cfgData (data : Word)
  | unsupported
deriving DecidableEq, Repr

/-- The PCIe function context (R423 to R431). -/
structure PcieSt where
  perstN : Bool := false           -- the PERST_N pin is deasserted
  bootAt : Option (BitVec 64) := none   -- when the boot enabled PD_PCIE (R430, R504)
  waitFrom : Option (BitVec 64) := none -- start of the 100 ms of R430, while the function is not ready
  ready : Bool := false            -- it answers configuration requests
  subsys : Word := 0               -- Subsystem Vendor ID and Subsystem ID (R424)
  linkUp : Bool := false
  aspmL1 : Bool := false
  d3hot : Bool := false
  memSpace : Bool := false
  busMaster : Bool := false
  bars : Tab Word := []        -- base address registers, as written
  msixEnable : Bool := false
  funcMask : Bool := false
  unmasked : List Nat := []    -- vectors whose mask bit is 0
  pba : List Nat := []         -- vectors with the pending bit set
  aer : BitVec 32 := 0         -- AER uncorrectable error status (R428)
  aerHeader : Option (Nat × Bool) := none -- the request whose header is logged: its address, and whether it is a write
deriving DecidableEq, Repr

/-- Reads of a serial frame that were late (R438). -/
structure SpHold where
  addressed : Bool          -- an addressed frame; else a windowed one
  start : Nat               -- its window index, or its address as sent
  n : Nat := 0              -- its words: a retry has no more of them
  words : List Word := []   -- words that have been read
  todo : List Nat := []     -- BAR0 addresses still to be read; the read waits
deriving DecidableEq, Repr

/-- The clocked serial port (R432 to R443). -/
structure SpSt where
  hold : Option SpHold := none
  queue : List (Nat × Word) := []  -- posted writes, oldest first, 1,024 words (R440)
  drop : Bool := false             -- DROP of the status read byte
deriving DecidableEq, Repr

/-- The firmware (R371 to R387). Banks: 0 operator A, 1 operator B, 2 patch A, 3 patch B. -/
structure FwSt where
  headers : Tab (List Byte) := []   -- header of a bank as last read or staged, 512 bytes
  invalid : List Nat := []          -- banks marked invalid by a first chunk (R384)
  staged : Tab Nat := []            -- bytes staged into a bank since that mark
  verified : List Nat := []         -- staged banks that verification passed
  verifying : Option (Nat × Nat) := none  -- bank whose FINAL chunk is being verified, and the engine tag
  stagingState : Nat := 0           -- FW_STATUS byte 18: 0 incomplete, 1 verified, 2 failed
  floors : Tab Nat := []            -- rollback floor by image type: 0 operator, 1 patch (R374)
  revoked : BitVec 4 := 0           -- revoke mask of the key region
  operVersion : Word := 0           -- versions in use
  supVersion : Word := 0
  svnSince : Tab (BitVec 64) := []  -- by image type: since when the running image has run without a restart (R375)
  restartTimes : List (BitVec 64) := []   -- operator restarts of the last 60 s (R383)
  restarting : Option Nat := none   -- an operator restart is under way, with its cause (R381)
  activating : Option Nat := none   -- engine tag of the FW_ACTIVATE of an operator image that is pending (R385)
  patching : Option Nat := none     -- engine tag of the FW_ACTIVATE of a patch (R386)
  heartbeats : Tab Nat := []        -- last heartbeat words seen: cores 0 to 3, graders 4 to 19 (R380)
deriving DecidableEq, Repr

/-- An epoch that waits for its chain time (R456). -/
structure Epoch where
  id : Word
  time : BitVec 64
  action : Nat          -- 1 clapper pulse, 2 rack PLL hop, 3 time mark
  pll : Nat := 0
  slot : Nat := 0
  confirmed : Bool := false
deriving DecidableEq, Repr

/-- The chain port (R445 to R460). -/
structure ChainSt where
  epochs : List Epoch := []
  fabricOk : Bool := false       -- worker: the latest fabric status reported FABRIC_OK (R254)
  nextId : Word := 1             -- epoch ID of the next CHAIN_EPOCH (R456)
  seq : BitVec 16 := 0           -- SEQ of the next frame that this device originates (R447)
  share : Int := 0               -- U of the last round trip, ps (R453)
  enum : Option (Nat × Nat) := none  -- enumeration in progress: engine tag, and 1 TOKEN or 2 COMMIT sent (R449)
  token : Nat := 0               -- manager: value of the token that returned
  tentative : Option Nat := none -- worker: tentative address
  lost : Nat := 0                -- manager: workers reported lost, as a mask (R453)
  returns : Nat := 0             -- consecutive TIME frames that have returned (R458)
  broken : Bool := false         -- EVT_CHAIN_BROKEN raised, EVT_CHAIN_RESTORED not yet
  timed : Bool := false          -- worker: a TIME frame has been received since the restart (R454)
  heldEvents : List EvRec := []  -- events that wait for the ring to be complete (R457)
deriving DecidableEq, Repr

/-- The states of a link (R143). -/
inductive LState where
  | down | listen | negotiate | train | up | leaving | holdoff
deriving DecidableEq, Repr

/-- The policy fields of an LDT entry as applied, defaults substituted (R135, R181, R334, R335). -/
structure Policy where
  flags : BitVec 8 := 0        -- [0] AUTO_RELINK [1] AUTO_CAL [2] AUTO_CUT [3] CUT_RECOVER [4] CONTINUITY [5] QUIET
  rolePref : Nat := 0          -- 0 none, 1 master, 2 slave
  expPort : Nat := 0
  expSerial : Nat := 0
  calDelta : Nat := 6          -- 0.5 degC
  retakeTol : Int := -30       -- dB
  txLead : Nat := 16
  relinkLimit : Nat := 255
  calPeriod : Nat := 0         -- s
  holdoff : Nat := 10          -- ms
  snrMin : Nat := 32           -- 0.5 dB
  quietRefresh : Nat := 8      -- units of 8 superframes
  pwrTimers : Nat := 0
deriving DecidableEq, Repr

/-- What a link has heard of its partner in negotiation (R152) or beacons (R147). -/
structure Offer where
  compat : BitVec 3 := 0       -- COMPAT-1, -2, -4 of the partner's base page
  base : Bool := false         -- a base page was received
  pages : Nat := 0             -- 1 the OUI-tagged message page was received, 2 page 1, 3 page 2: the offer is whole
  modes : BitVec 4 := 0        -- FDX-1, -2, -4, -8
  pref : Nat := 0              -- 0 none, 1 master, 2 slave
  forced : Bool := false
  chainLocked : Bool := false
  lowest : Nat := 0            -- lowest pair of the offered link
  serial : Nat := 0
  port : Nat := 0
  onPair : Nat := 0            -- pair index on which the partner's DME arrived
deriving DecidableEq, Repr

/-- A link (R24, R143, R335, R349, R350). DESIGN CHOICE: log 1. DEDUCED: log 177. -/
structure LinkSt where
  state : LState := .down
  mode : Nat := 0              -- applied MODE code, 0 not configured, 0x80 AUTO
  mask : BitVec 8 := 0         -- applied pair mask
  runMode : Nat := 0           -- mode resolved by acquisition, 0 none
  runMask : BitVec 8 := 0      -- pairs of the resolved mode
  pcs : Nat := 0               -- applied RS monitor type (R56)
  pol : Policy := {}           -- policies in force
  trainPol : Policy := {}      -- policies that the training in progress entered with (R181)
  gen : Nat := 0               -- GEN of the applied entry
  configPending : Bool := false
  override : Bool := false     -- R352
  slave : Bool := false        -- role
  locked : Bool := false       -- timing: LOCKED
  partnerLocked : Bool := false
  road : Nat := 0              -- R350
  phase : Nat := 0             -- training phase
  phaseSf : Word := 0          -- superframe at which phase 2 or 4 counts from
  attempts : Nat := 0          -- disagreements of phase 3 (R164)
  hold : Bool := false         -- holding is armed (R353)
  heldAt : Bool := false       -- the link is held at the end of a phase
  lastReason : Nat := 0
  lastCause : Nat := 0
  relinks : Nat := 0           -- attempts since the last UP
  serial : Nat := 0            -- partner identity learned
  port : Nat := 0
  offer : Offer := {}
  upTime : BitVec 64 := 0
  listenTime : BitVec 64 := 0
  beacons : Bool := false      -- beacons are sent in LISTEN (R148)
  firedAs : Option Nat := none -- what a detector found while an activation was pending: 0 Clause 73, n COMPAT-n (R385)
  noCont : Bool := false       -- NO_CONTINUITY of LINK_UP: no beacons in the next LISTEN
  relisten : Bool := false     -- LEAVING ends in LISTEN (R169)
  synthWait : Bool := false    -- HOLDOFF waits for the port synthesizer (R173)
  counts : Nat := 0            -- COUNT messages received in the time of R158, and those without CHAIN_LOCKED
  countsUnlocked : Nat := 0
  lockRun : Nat := 0           -- consecutive COUNTs with CHAIN_LOCKED at both ends (R159)
  unlockRun : Nat := 0
  graded : Bool := false       -- a grading has been accepted since LINK_UP (R140)
  contWritten : Option (BitVec 64) := none -- time of the last continuity write after a take
  evenCounts : Nat := 0        -- even-numbered slates sent in LEAVING
  loopback : Nat := 0          -- 0 none, 2 REMOTE, 3 DIGITAL_PAIR (R207)
  recSeq : Word := 0           -- SEQ of the last counter record (R422)
deriving DecidableEq, Repr

/-- A coefficient bank (R15, R81, R84): each part as the take image it was filled from, with the CRC stored for it. -/
structure Bank where
  tx : List Byte := []
  ana : List Byte := []
  dig : List Byte := []
  crcTx : Nat := 0
  crcAna : Nat := 0     -- the receive part's CRC, kept with each of its two images until both have switched
  crcRx : Nat := 0
  filled : Bool := false
  damaged : Bool := false  -- a word of it is no longer what was filled
deriving DecidableEq, Repr

/-- The cut that a pair's SCHEDULED slot has or waits for (R111 to R119). -/
structure Cut where
  slot : Nat
  sf : Word := 0               -- S
  await : Bool := false        -- it waits for a partner's notice
  coord : Bool := false        -- coordinated: the notice exchange decides
  join : Bool := false
  txChange : Bool := false
  seq : Nat := 0               -- NOTICE_SEQ
  notice : Word := 0           -- n, the first superframe that carries the notice
  acked : Bool := false        -- an accepting answer has come
  joined : Bool := false       -- local cut under an accepted JOIN notice; notice then holds the notice's S
  sent : Bool := false         -- its notice has been sent
  purpose : Nat := 0           -- 0 host or policy, 1 S1, 4 S4, 5 first cut, 6 recovery
  fillCheck : Nat := 0         -- check code of a failed re-check of R103
  dipped : Bool := false       -- its fill was held back by a supply dip (R121)
  etag : Option Nat := none    -- TAKE_CUT that set it
deriving DecidableEq, Repr

/-- A cut that has been decided and whose parts are still to be exchanged (R81). -/
structure Exchange where
  slot : Nat
  sf : Word
  tx : Bool := false
  ana : Bool := false
  dig : Bool := false
deriving DecidableEq, Repr

/-- The answer to a notice (R115): it is sent in the first odd slate after the decode and repeated until S. -/
structure Answer where
  sf : Word
  seq : Nat
  accept : Bool
  sent : Bool := false         -- a slate has carried it since the notice was last decoded
deriving DecidableEq, Repr

/-- The divergence test of R119. -/
structure Diverge where
  sf : Word                    -- S of the notice
  final : Word                 -- superframe of the final outcome
  took : Bool
  slot : Nat                   -- slot to cut for recovery
  partner : Nat                -- the partner's ACTIVE_SLOT recorded before S
deriving DecidableEq, Repr

/-- A request for quiet (R176). -/
structure QuietReq where
  sf : Word                    -- ENTRY_SF
  refresh : Nat
  mine : Bool                  -- this end requested
  granted : Bool := false
deriving DecidableEq, Repr

/-- A pair (chapters 02 to 06). DESIGN CHOICE: log 1. -/
structure PairSt where
  banksValid : Bool := false
  active : Bank := {}
  standby : Bank := {}
  bankReported : Bool := false -- EVT_BANK_MISMATCH raised since the last exchange (R84)
  exch : Option Exchange := none
  cut : Option Cut := none
  onSyn : Bool := false        -- the line domain runs on the port synthesizer (R301)
  restarting : Bool := false   -- a PAIR_RESTART is in progress
  xqOff : Bool := false        -- its gearbox queues are in a reset handshake (R294)
  partnerTx : Option Word := none -- superframe at which a PARTNER_TX run starts (R117)
  retired : List Nat := []     -- RETIRED slots, the one retired longest first (R108)
  noticeSeq : Nat := 0         -- NOTICE_SEQ of the next new cut
  answer : Option Answer := none
  div : Option Diverge := none
  partnerSlot : Nat := 0       -- ACTIVE_SLOT of the last COUNT received
  tempHold : Option Int := none -- port temperature of a run that ended EVT_TAKE_UNSTABLE (R126)
  -- framing
  sf : Word := 0               -- number of the pair's transmit superframe
  txOn : Bool := false         -- it transmits slates
  slate : BitVec 64 := 0       -- message of the last slate sent
  inject : Nat := 0            -- quiet interval: 0 zero output, 1 ZERO, 2 TONE (R133)
  nextTone : Bool := false
  row : Nat := 0               -- number of the next row
  fill : Nat := 0
  queue : Nat := 0             -- bits in the gearbox queue of its stream, up to 16,384 (R40)
  underrun : Bool := false     -- UNDERRUN for the next row header
  header : BitVec 120 := 0     -- information bits of the last row header sent
  scr : BitVec 23 := 0         -- scrambler state at row 0
  absent : Bool := true        -- no host stream (R212)
  toHost : Nat := 0            -- bits in the line-to-host queue of its stream, up to 16,384 (R225)
  rsOpen : Bool := true        -- some of its host stream was carried since the RS monitor's last row (R189)
  cuts : Nat := 0              -- cuts made so far (R202)
  gradeSpan : Option (Int × Int) := none -- least and greatest TEMP_GRADE of its accepted takes (R200)
  -- receiving
  sfLock : Bool := false
  inverted : Bool := false
  found : Option Bool := none  -- polarity of the last sync word found while out of lock
  missed : Nat := 0
  adopted : Bool := false      -- it numbers its superframes with the partner (R162)
  sfOffset : Nat := 0
  disagree : Nat := 0          -- consecutive disagreeing COUNTs
  agree : Nat := 0
  mismatch : Bool := false     -- count mismatch in force (R49)
  rxFill : Nat := 0
  rxRow : Nat := 0
  rxAbsent : Bool := false
  rxLpi : Bool := false
  rxUnderrun : Bool := false
  rxScr : BitVec 23 := 0
  farPair : Nat := 0           -- pair index of the partner's COUNT messages (R41)
  farLpi : Bool := false       -- every row header of this superframe carried HOST_LPI
  farLpiLast : Bool := false   -- every row header of the last superframe did
  identLo : Option (BitVec 52) := none
  identHi : Option (BitVec 52) := none
  phi : Int := 0
  integ : Rat := 0             -- I of R73, in steps of phi
  loopI : Rat := 0             -- sums of I and phi, and their number, since the steering period began (R246)
  loopPhi : Int := 0
  loopN : Nat := 0
  rotation : BitVec 8 := 0     -- receive rotation of R249, 1/256 symbol
  rotRate : Rat := 0           -- its rate, in symbols per symbol, and its exact position, in symbols (R249)
  rotPos : Rat := 0
  -- acquisition
  detect : Nat := 0
  pairMismatch : Bool := false
  beaconOk : Bool := false
  trainSlot : Option Nat := none -- slot of the take that the next entry or joined cut of training brings in (R160, R163)
  ownLpi : Bool := false       -- every block of the own host stream in the last superframe was LPI
  farBodies : Nat := 0
  rowLost : Bool := false
  cutDone : Bool := false      -- the cut that ends the current phase has been decided
  qualified : Bool := false
  partnerUp : Bool := false    -- a COUNT with STATE UP has been received
  qHdr : Word := 0             -- ROW_HDR_LOST and INTERP_LIMIT at the start of the window
  qLim : Word := 0
  trained : Bool := false      -- COMPAT training is complete on the lane
  rxReady : Bool := false      -- COMPAT: it signals receiver ready (R170)
  asked : Option (List Byte) := none -- COMPAT: the transmit settings that it asks the partner for (R170)
  -- quiet
  quiet : Bool := false
  quietSf : Word := 0
  quietRefresh : Nat := 0
  refreshing : Bool := false   -- a refresh superframe's body is sent
  quietReq : Option QuietReq := none
  quietAns : Option (Bool × Word × Nat) := none -- answer to a request: granted, ENTRY_SF, REFRESH
  quietAnsDue : Bool := false  -- a slate is to carry that answer: the request was decoded since the last one that did
  -- SNR (R186, R187)
  snrSum : Nat := 0            -- sum of mean error powers, and their number
  snrN : Nat := 0
  lowRun : Nat := 0
  highRun : Nat := 0
  snrLow : Bool := false
deriving DecidableEq, Repr

/-- A port. DESIGN CHOICE: log 1. -/
structure PortSt where
  fixedRole : Option Bool := none  -- role while an FDX link is out of DOWN: true slave (R156)
  force : Option (Nat × Bool) := none  -- LINK_FORCE_ROLE: preference and FORCED for the next acquisition
  locked : Bool := false           -- timing of the port
  period : Word := 0               -- COMPAT period number (R124)
  periodOn : Bool := false
  hostLoop : Bool := false         -- HOST loopback (R207)
  ramp : Bool := false             -- a ramp is still to be made (R243)
  refMoved : Bool := false         -- a reference switch fell into its measurement window (R245)
  mseq : BitVec 16 := 0            -- MSEQ of the last scheduled marker of the transmit lanes (R216)
  resetting : Bool := false        -- a PORT reset is in progress
  cableTest : Option Nat := none   -- engine tag of the CABLE_TEST that runs
  cableMask : BitVec 8 := 0        -- pairs still to be tested
  cableOut : List Byte := []       -- records of the pairs tested
  cableNext : List Byte := []      -- NEXT map entries found so far
deriving DecidableEq, Repr

/-- A request at a tile's take loader, served in order (R101). -/
structure LoadReq where
  pair : Nat
  slot : Nat
  fill : Bool
  purpose : Nat := 0     -- verification: 0 TAKE_VERIFY, 1 TAKE_WRITE, 2 accepted take, 3 training take, 4 expanded take
  etag : Nat := 0
  prev : Nat := 0        -- TAKE_WRITE: previous state code
deriving DecidableEq, Repr

/-- A tile. DESIGN CHOICE: log 1. -/
structure TileSt where
  resetting : Bool := false      -- a TILE reset is in progress
  loader : List LoadReq := []
deriving DecidableEq, Repr

/-- A grading run of a pair (R126 to R132). -/
structure Run where
  pair : Nat
  cls : Nat                -- 0 acquisition, 1 TAKE_GRADE, 2 policy
  etag : Nat := 0
  cut : Bool := false      -- TAKE_GRADE asked for a cut
  tol : Int := -30         -- RETAKE_TOL in dB, and AUTO_CUT, as the run's trigger found them (R336)
  auto : Bool := false
  started : Bool := false
  retake : Bool := false   -- the retake pass is due or in progress
  segs : Nat := 0          -- segments folded in the pass
  fails : Nat := 0
  worst : Option Int := none  -- E_X of the worst attempt, 0.01 dB
  worstCond : Nat := 0
  worstIdx : Nat := 0
  profile : Bool := false  -- a cable profile, not a grading run
  slots : List Nat := []   -- profile: cuts of the link's pairs that the computation has seen (R202)
  segAt : Nat := 0         -- position of the take's last segment, counted in symbols from superframe 0 (R128)
  slot : Option Nat := none  -- slot of the accepted take, in verification
  band : Nat := 0          -- band of the temperature that it started from, and the slice trims of that record (R137)
  trims : List Byte := []
  temp : Int := 0          -- port temperature, superframe and time at the retake (R131)
  sf : Word := 0
  time : BitVec 64 := 0
deriving DecidableEq, Repr

/-- The rushes capture of a port (R193 to R197). -/
structure Capture where
  owner : Nat              -- 0 host, 1 grader, 2 diagnostic
  state : Nat              -- 0 WAITING, 1 ARMED, 2 CAPTURING, 3 DONE, 4 RELEASED
  trigger : Nat := 0
  content : Nat := 7
  n : Nat := 16384
  post : Nat := 0
  s : Nat := 0
  pos : Nat := 0
  t : Nat := 0
  etag : Option Nat := none   -- RUSHES_ARM with WAIT
  pair : Nat := 0             -- grader: the pair whose pass it serves
  sfStart : Nat := 0
  posStart : Nat := 0
  timeStart : Nat := 0
  header : List Byte := []
  live : BitVec 8 := 0        -- pairs in TRAIN or UP since the capture started (R194)
  cuts : List Nat := []       -- cuts made of the port's pairs when it started (R202)
  armSeq : Word := 0          -- SEQ of the last event when it was armed (R195)
  heldSent : Bool := false    -- EVT_RUSHES_HELD was raised for this hold
deriving DecidableEq, Repr

/-- A synthesizer, PLL index 0 to 71. DESIGN CHOICE: log 1. -/
structure SynSt where
  target : Nat := 0           -- slot of the hop in progress
  search : Bool := false      -- it needs a band search
  enabling : Bool := false    -- the search is that of an enable from OFF: its default slots are searched (R239)
  hopTag : Option Nat := none -- CLK_HOP or CLK_PLL_PROGRAM that waits
  steps : List (Nat × Int) := []  -- CLK_STEP commands that wait: engine tag, step (R242)
  acquire : Option Int := none    -- offset that the slave's ramp still has to apply, LSB
  marginLow : Bool := false       -- EVT_SYNTH_MARGIN raised, margin not yet above 64
  limited : Bool := false         -- in an excursion to the steering limit
  held : Int := 0                 -- SYN_STEER when LOCKED was chosen (R247)
  masked : Bool := false          -- lock detector masked for a clapper ride-through (R274)
  auto : Bool := false            -- acquisition hopped it to slot 1 (R241)
  remeasure : Bool := false       -- a reference switch fell into the slave's measurement window: it restarts (R245)
  loopPair : Option Nat := none   -- pair whose loop supplies the running period's means (R246)
deriving DecidableEq, Repr

/-- A stream direction of an Acnan lane half or a lane (chapter 07). DESIGN CHOICE: log 1. -/
structure LaneSt where
  mseq : BitVec 16 := 0       -- MSEQ of the last marker sent, or received
  marker : BitVec 128 := 0    -- unit of the last marker sent, or received (R215)
  arrived : Word := 0         -- receive: when its last scheduled marker came, in symbols (R222)
  seed : BitVec 31 := 0       -- seed of the last marker sent, or received and not lost
  descramble : Bool := false  -- receive: a marker has decoded and none was lost since
  settled : Bool := false     -- first lock after HL_CONFIGURE or reset done (R221)
  invLevels : Bool := false   -- polarity settled
  lane : Option Nat := none   -- LANE received since the order was last to be settled
  searching : Bool := false
  sleepMark : Bool := false   -- the last marker carried SLEEP
  breakA : Bool := false      -- transmit: BREAK is due before the next data half of stream 2j
  breakB : Bool := false
  scan : Option Nat := none   -- engine tag of the EYE_SCAN that runs
  scanPoint : Nat := 0
  auto : Option Nat := none   -- engine tag of HL_CTLE_SET with AUTO
  autoBest : Nat := 0
  autoArea : Nat := 0
  deskewFail : Bool := false  -- the lanes' skew was beyond the bound at the last scheduled marker
deriving DecidableEq, Repr

/-- A glitch-free mux that is switching (R290). Muxes: 0 hub root input, 1 AON, 2 tile root input, 3 line domain of a
pair, 4 grader divider, 5 rack output bypass. -/
structure MuxSwitch where
  mux : Nat
  inst : Nat
  old : Nat
  new : Nat
  next : Option Nat := none   -- the last request that came while it was switching
deriving DecidableEq, Repr

/-- What a power domain's transition needs (R304 to R307, R515). DESIGN CHOICE: log 1. -/
structure DomSt where
  going : Nat := 0            -- the state that the transition in progress enters; 0 a return to RUN
  next : Option Nat := none   -- the state to enter once the domain is in RUN
  tag : Option Nat := none    -- PWR_STATE_SET that waits
  wakeAt : Bool := false      -- a level wake source is to be seen at the end of the entry, or of the tile's wake
deriving DecidableEq, Repr

/-- A supply dip in progress (R314, R315). -/
structure Dip where
  since : BitVec 64           -- its beginning
  low : Nat                   -- minimum so far, 5 mV
deriving DecidableEq, Repr

/-- A performance-level change in progress (R313): unit 0 to 15 a grader, 16 PD_OPER. -/
structure PlChange where
  unit : Nat
  tag : Option Nat
deriving DecidableEq, Repr

/-- A counting window that is armed or open (R419). -/
structure PerfWin where
  opened : Bool := false
  since : BitVec 64 := 0      -- device time at which it began
deriving DecidableEq, Repr

/-- The state of the device. DESIGN CHOICE: log 6. -/
structure State where
  pending : List Instr := []
  mode : DevMode := .inReset
  time : BitVec 64 := 0               -- device time, ns
  regs : Tab Word := []               -- registers that differ from their reset value, by address
  views : Tab Word := []              -- per-view copies (R400), by view × 2^32 + address
  held : Tab Word := []               -- holding copies of the last snapshot (R406)
  snapAt : BitVec 64 := 0             -- device time of the copies (R406)
  snapOff : List Nat := []            -- domains that were in OFF at that time
  snapDone : Bool := false            -- a snapshot has completed
  perfWins : Tab PerfWin := []        -- by counter block
  perfAcc : Tab Nat := []             -- events 0x26 to 0x2A gathered since the last transfer, by tile, code and unit (R415)
  timeLatch : Tab Word := []          -- DEV_TIME_HI shadows by view (R409)
  hostMem : Tab Byte := []            -- bytes of host memory that the device has written
  out : List Output := []
  fresh : Nat := 0                    -- number of free values drawn (the model's own)
  cmd : CmdSt := {}
  evt : EvtSt := {}
  pcie : PcieSt := {}
  sp : SpSt := {}
  fw : FwSt := {}
  offPending : Bool := false          -- DEV_OFF completed, entry not yet made (R310)
  hops : Tab (Nat × BitVec 64) := []  -- rack PLL 72 or 73: slot and chain time of its scheduled hop (R362)
  pulse : Option (BitVec 64) := none  -- chain time of the scheduled clapper pulse (R362)
  chain : ChainSt := {}
  muxes : List MuxSwitch := []        -- muxes that are switching
  muxFrozen : List (Nat × Nat) := []  -- mux and instance whose domain is held frozen (R291)
  bcfg : Option (List Byte) := none   -- the staging copy of board setup (R512)
  rackBoot : List Nat := []           -- rack PLLs that the record enables and whose input has not passed yet (R506)
  badWords : List (Nat × Nat) := []   -- uncorrectable words known: bank and word (R464, R465)
  corrAt : Tab (BitVec 64) := []      -- by bank: time of its last EVT_MEM_CORR (R466)
  rootWords : Tab (BitVec 64) := []   -- feedback words of the root that board setup gives, by source (R285, R512)
  rootWord : BitVec 64 := 0x1900000000 -- feedback word in force: N_INT, N_FRAC
  rootPending : Option Nat := none    -- source of a hub root switch that boot left pending (R505)
  badCores : List Nat := []           -- internal oscillator cores that failed since the COLD reset (R288)
  spread : Tab Word := []             -- spread parameters in effect of a clock output, laid out as OUT_SPREAD (R271)
  lastClap : Option (BitVec 64) := none  -- time of the last clapper edge (R275)
  doms : Tab DomSt := []
  dips : Tab Dip := []                -- by rail
  plChanges : List PlChange := []
  discards : Tab Nat := []            -- by unit in reset: words discarded at its crossings so far (R294)
  temps : Tab (BitVec 16) := []       -- readings of the 98 sensors, 1/16 degC, signed (R475)
  mram : Tab Byte := []               -- MRAM, by offset (R372)
  sram : Tab Byte := []               -- operator area of the hub SRAM window, by BAR0 address (R389)
  utilDiscard : List Nat := []        -- ports whose utilization window in progress is discarded (R191, R347)
  links : Tab LinkSt := []
  pairs : Tab PairSt := []
  ports : Tab PortSt := []
  tiles : Tab TileSt := []
  takes : Tab (List Byte) := []       -- take slots, by pair × 8 + slot (R10)
  runs : Tab (List Run) := []         -- grading runs of a group, in order of arrival
  captures : Tab (List Capture) := [] -- captures of a port's area: the holder, then those that wait (R196)
  stalls : List (Nat × Nat) := []    -- the access that stalls, of each view and die: 2 · address, + 1 for a write (R393)
  areas : Tab (List (Option Byte)) := [] -- capture areas of the ports, 384 KB each; none: no defined value (R193)
  work : Tab (BitVec 64) := []        -- grader workspace of a group, as the number of its open contents (R10)
  syns : Tab SynSt := []
  lanes : Tab LaneSt := []
  contRecs : Tab (List Byte) := []    -- continuity records by place, 512 bytes (R138)
  contUse : Word := 0                 -- use counter of the store (R141)
  contDrop : Word := 0                -- CONT_WRITE_DROP, CONT_EVICT, CONT_BAD, CONT_STALE
  contEvict : Word := 0
  contBad : Word := 0
  contStale : Word := 0
  contDue : List Nat := []            -- links whose record write is due (R140)
deriving DecidableEq, Repr

/-- The state right after a COLD reset. DESIGN CHOICE: log 1. DESIGN CHOICE: log 2. -/
def State.reset : State := {}

end Sys2Proof.Machine
end

