-- ==== Sys2Proof/Machine/Ops.lean ====
section
/-! DEFINITION. The named operations over registers, memories, events and completions that the meanings share. -/
namespace Sys2Proof.Machine

/-! ### Registers -/

def viewNum : View → Nat
  | .pcie => 0 | .serial => 1 | .operator => 2 | .supervisor => 3 | .grader _ => 2

def allViews : List View := [.pcie, .serial, .operator, .supervisor]

/-- The stored word of a register. -/
def rd (s : State) (a : Nat) : Word := tabGet (regReset a) s.regs a

/-- A register with its stored word replaced. -/
def wr (a : Nat) (v : Word) (s : State) : State := { s with regs := tabPut (regReset a) s.regs a v }

def rdF (s : State) (a hi lo : Nat) : Nat := fieldGet (rd s a) hi lo
def wrF (a hi lo v : Nat) (s : State) : State := wr a (fieldPut (rd s a) hi lo v) s
def rdB (s : State) (a i : Nat) : Bool := bitGet (rd s a) i
def wrB (a i : Nat) (b : Bool) (s : State) : State := wr a (bitPut (rd s a) i b) s

/-- A 32-bit counter that wraps. -/
def count (a n : Nat) (s : State) : State := wr a (rd s a + BitVec.ofNat 32 n) s

/-- A wide value in a _LO, _HI pair of registers, `w` bits wide (R184, R408). -/
def rdWide (s : State) (a : Nat) : Nat := (rd s a).toNat + (rd s (a + 4)).toNat * 2 ^ 32
def wrWide (a w v : Nat) (s : State) : State :=
  wr (a + 4) (BitVec.ofNat 32 (v % 2 ^ w / 2 ^ 32)) (wr a (BitVec.ofNat 32 v) s)
def countWide (a w n : Nat) (s : State) : State := wrWide a w (rdWide s a + n) s

/-- The key of a view's copy. -/
def viewKey (v : View) (a : Nat) : Nat := viewNum v * 2 ^ 32 + a

/-- The bits of a register that have one copy per view, and their reset value. -/
def pvMask (a : Nat) : Word := match regInfo a with
  | some i => i.pv
  | none => 0

/-- A view's copy of the bits it keeps of its own (R400). -/
def rdView (s : State) (v : View) (a : Nat) : Word := tabGet (regReset a &&& pvMask a) s.views (viewKey v a)
def wrView (v : View) (a : Nat) (x : Word) (s : State) : State :=
  { s with views := tabPut (regReset a &&& pvMask a) s.views (viewKey v a) x }

/-- Set bits in every view's copy. -/
def orViews (a : Nat) (bits : Word) (s : State) : State :=
  allViews.foldl (fun s v => wrView v a (rdView s v a ||| bits) s) s

/-- Apply a function to every view's copy. -/
def mapViews (a : Nat) (f : Word → Word) (s : State) : State :=
  allViews.foldl (fun s v => wrView v a (f (rdView s v a)) s) s

/-- A 64-bit value over two registers. -/
def wr64 (lo : Nat) (v : BitVec 64) (s : State) : State := wrWide lo 64 v.toNat s

/-! ### Free values -/

/-- Draw a free value: the open constant at the count of draws, which advances. DESIGN CHOICE: log 6. -/
def draw (kind : Nat) (s : State) : BitVec 64 × State := (Config.freeValue kind s.fresh, { s with fresh := s.fresh + 1 })

/-! ### Byte memories -/

/-- Write bytes from an address up. -/
def putBytes (m : Tab Byte) (a : Nat) : List Byte → Tab Byte
  | [] => m
  | b :: t => putBytes (tabInsert m a b) (a + 1) t

/-- Write bytes into a memory whose unlisted bytes read 0, in its canonical form. -/
def putBytes0 (m : Tab Byte) (a : Nat) : List Byte → Tab Byte
  | [] => m
  | b :: t => putBytes0 (tabPut 0 m a b) (a + 1) t

/-- Read `n` bytes of a memory whose unlisted bytes read 0. -/
def getBytes (m : Tab Byte) (a : Nat) : Nat → List Byte
  | 0 => []
  | n + 1 => tabGet 0 m a :: getBytes m (a + 1) n

/-- DMA into host memory. -/
def hostWrite (a : Nat) (b : List Byte) (s : State) : State := { s with hostMem := putBytes s.hostMem a b }

/-! ### Messages to the host -/

def emit (o : Output) (s : State) : State := { s with out := o :: s.out }

/-- Requests and messages may leave: Bus Master Enable is 1 and the function is not in D3hot (R427, R431). -/
def dmaOk (s : State) : Bool := s.pcie.busMaster && !s.pcie.d3hot

/-- Raise an MSI-X vector: send it, or set its pending bit while it may not go (R426, R427). DEDUCED: log 28. -/
def raiseMsix (v : Nat) (s : State) : State :=
  if s.pcie.msixEnable then
    if !s.pcie.funcMask && s.pcie.unmasked.contains v && dmaOk s then emit (.msix v) s
    else { s with pcie := { s.pcie with pba := if s.pcie.pba.contains v then s.pcie.pba else s.pcie.pba ++ [v] } }
  else s

/-! ### Unit IDs -/

def unitId (cls idx : Nat) : BitVec 16 := BitVec.ofNat 16 (cls * 4096 + idx)
def unitDev : BitVec 16 := unitId 0 0
def unitTile (t : Nat) : BitVec 16 := unitId 1 t
def unitGroup (g : Nat) : BitVec 16 := unitId 2 g
def unitPort (p : Nat) : BitVec 16 := unitId 3 p
def unitLink (l : Nat) : BitVec 16 := unitId 4 l
def unitLane (l : Nat) : BitVec 16 := unitId 5 l
def unitOut (n : Nat) : BitVec 16 := unitId 6 n
def unitPll (i : Nat) : BitVec 16 := unitId 7 i

/-! ### Events (R468 to R474) -/

/-- The classes that the MRAM log takes (R470). -/
def loggedClass (c : Nat) : Bool := c ≤ 4 || c == 0xC

/-- This device's chain address, if it is addressed on a chain (R446, R460). -/
def chainAddr (s : State) : Option Nat :=
  if rdB s chainStateR 1 then some (rdF s chainStateR 15 8) else none

/-- Bit n of the two-register class mask at `lo`. -/
def maskBit (s : State) (lo n : Nat) : Bool := (rdWide s lo).testBit n

def ringEnabled (s : State) : Bool := rdF s evtRingCfgR 4 0 != 0

/-- Put a record into the AON log buffer; a full buffer drops its oldest entry (R309). -/
def logPush (r : EvRec) (s : State) : State :=
  if s.evt.logBuf.length < 256 then { s with evt := { s.evt with logBuf := s.evt.logBuf ++ [r] } }
  else count evtlogDropR 1 { s with evt := { s.evt with logBuf := s.evt.logBuf.drop 1 ++ [r] } }

/-- Drop a record from ring delivery (R472). -/
def ringDrop (s : State) : State :=
  wrB evtRingStatusR 17 true (count evtFullCntR 1 { s with evt := { s.evt with gap := true } })

/-- Stage a record for the host event ring: only while the ring is enabled and the record's class is delivered
(R471), and only while the buffer holds fewer than 1,024 records (R472). -/
def stageRec (r : EvRec) (s : State) : State :=
  if ringEnabled s && maskBit s evtClassLoR (r.code.toNat / 256) then
    if s.evt.staging.length < 1024 then { s with evt := { s.evt with staging := s.evt.staging ++ [r] } }
    else ringDrop s
  else s

/-- Eight data bytes. -/
def pad8 (d : List Byte) : List Byte := (d ++ zeros 8).take 8

/-- An addressed worker sends an event over the chain; while the ring is broken, as far as it can see, it holds up to 64 and
then drops the oldest (R457). -/
def chainEvent (r : EvRec) (s : State) : State :=
  if rdB s chainStateR 3 && rdB s chainStateR 5 then emit (.eventFrame r) s
  else if s.chain.heldEvents.length < 64 then { s with chain := { s.chain with heldEvents := s.chain.heldEvents ++ [r] } }
  else count chainHopDropR 1 { s with chain := { s.chain with heldEvents := s.chain.heldEvents.drop 1 ++ [r] } }

/-- Raise an event: the collector gives it the next SEQ, whether it is delivered or masked (R469), the log takes the
logged classes (R474), and an addressed worker sends the classes of CHAIN_EVT_MASK to the manager (R457). DEDUCED: log 39. -/
def raise (code : Nat) (unit : BitVec 16) (data : List Byte) (s : State) : State :=
  let n := s.evt.seq + 1
  let lg := loggedClass (code / 256)
  let r : EvRec := { seq := n, code := BitVec.ofNat 16 code, unit := unit, time := s.time, data := pad8 data,
                     origin := BitVec.ofNat 8 ((chainAddr s).getD 0x3F), logged := lg }
  let s := wr evtLastSeqR n { s with evt := { s.evt with seq := n, raised := tabInsert s.evt.raised (code % 2 ^ 16 * 2 ^ 16 + unit.toNat) n } }
  let s := if lg then logPush r s else s
  let s := if rdB s chainStateR 1 && !rdB s chainStateR 0 && maskBit s chainEvtMaskLoR (code / 256)
    then chainEvent r s else s
  stageRec r s

/-! ### Performance counters (R411 to R417) -/

def perfPc (b n : Nat) : Nat := perfBase b + 0x50 + 0x20 * n
def perfSel (b n : Nat) : Nat := perfBase b + 0x40 + 0x20 * n
def perfOvf (b : Nat) : Nat := perfBase b + 0x10
/-- The block counts: EN 1, FREEZE 0, its domain in RUN, its clock enabled. Block 0 is the hub's, block t + 1 tile t's. -/
def perfCounts (s : State) (b : Nat) : Bool :=
  let d := if b = 0 then 73 else 63 + b
  rdF s (perfBase b) 1 0 == 1 && rdF s (domBase d + 4) 3 0 == 0 && rdB s (if b = 0 then clkEnR else tileClkEnR (b - 1)) 0

/-- An increment of PCn, and the carries of the counters chained after it. -/
def perfAdd (b : Nat) : Nat → Nat → Nat → State → State
  | 0, _, _, s => s
  | fuel + 1, n, k, s =>
    let a := perfPc b n
    let v := rdWide s a + k
    let s := wrWide a 48 v s
    if 2 ^ 48 ≤ v then
      let s := wrB (perfOvf b) (n + 1) true s
      if n < 7 ∧ rdB s (perfSel b (n + 1)) 19 = true then perfAdd b fuel (n + 1) 1 s else s
    else s

/-- What a counted event carries: its view, requester, address and unit, where it has them. -/
structure PerfEvent where
  code : Nat
  view : Option View := none
  master : Option Nat := none
  addr : Option Nat := none
  unit : Option (BitVec 16) := none

/-- PCn of a block selects an event (R412). A filter that the event does not support is ignored. -/
def perfSelects (s : State) (b n : Nat) (e : PerfEvent) : Bool :=
  let a := perfSel b n
  let base := rd s (a + 4)
  let mask := rd s (a + 8)
  let fu := rd s (a + 0xC)
  rdF s a 7 0 == e.code && !rdB s a 19
    && (match e.view with
        | some v => rdF s a 11 8 == 0 || rdB s a (8 + viewNum v)
        | none => true)
    && (match e.master with
        | some m => rdF s a 16 12 == 0x1F || rdF s a 16 12 == m
        | none => true)
    && (match e.addr with
        | some x => !rdB s a 17 || ((BitVec.ofNat 32 x ^^^ base) &&& mask) == 0
        | none => true)
    && (match e.unit with
        | some u => !rdB s a 18 || (fieldGet fu 15 12 == u.toNat / 4096
            && ((u.toNat ^^^ fu.toNat) % 4096) &&& (fieldGet fu 27 16) == 0)
        | none => true)

/-- The block's overflow interrupt (R417): a PERF_OVF bit that has just been set, with its PERF_OVF_IE bit 1. -/
def perfIrq (b : Nat) (was : Word) (s : State) : State :=
  let now := rd s (perfOvf b)
  if (now &&& ~~~was &&& rd s (perfOvf b + 4)) ≠ 0 then
    raise 0x0903 unitDev (leBytes 1 b ++ zeros 1 ++ leBytes 2 now.toNat) s
  else s

/-- Count an event `k` times in a block. DEDUCED: log 131. -/
def perfCount (b k : Nat) (e : PerfEvent) (s : State) : State :=
  if perfCounts s b then
    perfIrq b (rd s (perfOvf b)) ((List.range 8).foldl (fun s n => if perfSelects s b n e then perfAdd b 8 n k s else s) s)
  else s

/-- Events 0x26 to 0x2A gather in their own clock domains (R415). DEDUCED: log 131. -/
def perfTally (t code : Nat) (unit : BitVec 16) (k : Nat) (s : State) : State :=
  let a := t * 2 ^ 24 + code * 2 ^ 16 + unit.toNat
  { s with perfAcc := tabPut 0 s.perfAcc a (tabGet 0 s.perfAcc a + k) }
/-- They are added to the counters of their tiles (R415). -/
def perfTransfer (s : State) : State :=
  s.perfAcc.foldl (fun s e => perfCount (e.1 / 2 ^ 24 + 1) e.2 { code := e.1 / 2 ^ 16 % 256, unit := some (BitVec.ofNat 16 e.1) } s)
    { s with perfAcc := [] }

/-- The 64-byte words of a group's memory that `n` bytes from an offset on lie in, each read (0x21) or written (0x22) by a requester (R414).
DEDUCED: log 131. -/
def groupWords (t code m a n : Nat) (s : State) : State :=
  if perfCounts s (t + 1) then
    (List.range ((a % 64 + n + 63) / 64)).foldl
      (fun s j => perfCount (t + 1) 1 { code := code, master := some m, addr := some (a / 64 * 64 + 64 * j) } s) s
  else s
/-- The words of a take, read or written: the take store is the first region of the group memory (R10). -/
def takeWords (code m l k n : Nat) (s : State) : State := groupWords (l / 64) code m (l % 32 * 0x8000 + k * 0x1000) n s
/-- The length of a segment record. -/
def recordLen := 295168
/-- The words of a port's capture area: the rushes buffer comes after the take store (R10, R193). -/
def areaWords (code m p o n : Nat) (s : State) : State := groupWords (p / 8) code m (0x100000 + p % 4 * 0x60000 + o) n s

/-- An increment of the cycle counter, with the carry into a chained PC0 (R411, R416). DEDUCED: log 131. -/
def perfCycle (b k : Nat) (s : State) : State :=
  if perfCounts s b then
    let was := rd s (perfOvf b)
    let v := rdWide s (perfBase b + 8) + k
    let s := wrWide (perfBase b + 8) 48 v s
    if 2 ^ 48 ≤ v then
      let s := wrB (perfOvf b) 0 true s
      perfIrq b was (if rdB s (perfSel b 0) 19 then perfAdd b 8 0 1 s else s)
    else s
  else s

/-- DMA by a requester, with its bytes counted (R414, events 0x08 and 0x09). -/
def hostWriteBy (m a : Nat) (b : List Byte) (s : State) : State :=
  perfCount 0 b.length { code := 9, master := some m } (hostWrite a b s)
/-- DEDUCED: log 14. -/
def dmaRead (m n : Nat) (s : State) : State := perfCount 0 n { code := 8, master := some m } s

/-! ### Access errors (R395, R396) and firewall refusals (R379) -/

/-- Log an access that could not be served: every view whose capture is free takes it, the count advances, and at
most once per millisecond EVT_ACCESS_ERROR is raised (R396). `a` is a BAR0 address, or a BAR2 one by `bar2`. -/
def accessError (v : View) (a cause : Nat) (write : Bool) (s : State) : State :=
  let info : Word := BitVec.ofNat 32 (cause + 16 * viewNum v + 64 * b2n write + 128)
  let s := allViews.foldl (fun s w =>
    if bitGet (rdView s w accErrInfoR) 7 then s
    else wrView w accErrInfoR info (wrView w accErrAddrR (BitVec.ofNat 32 a) s)) s
  let s := count accErrCntR 1 s
  let due := match s.evt.lastAccErr with
    | none => true
    | some t => decide (t.toNat + 1000000 ≤ s.time.toNat)
  if due then
    raise 0x0008 unitDev (leBytes 4 a ++ leBytes 1 cause ++ leBytes 1 (viewNum v) ++ leBytes 1 (b2n write))
      { s with evt := { s.evt with lastAccErr := some s.time } }
  else s

/-- A refusal by the privilege firewall. -/
def firewallRefusal (v : View) (a : Nat) (write : Bool) (s : State) : State :=
  accessError v a 0x5 write
    (raise 0x0C05 unitDev (leBytes 4 a ++ leBytes 1 (viewNum v) ++ leBytes 1 (b2n write)) (count fwWallCntR 1 s))

/-- Device time is set or corrected: what lies a while ago stays as long ago (R275). -/
def setTime (t : BitVec 64) (s : State) : State := { s with lastClap := s.lastClap.map (fun x => x + (t - s.time)), time := t }

end Sys2Proof.Machine
end

