-- ==== Sys2Proof/Machine/Command.lean ====
section
/-! DEFINITION. What every Cerop command goes through: the engine tag, the ordered checks, the completion. -/
namespace Sys2Proof.Machine

/-! ### Status codes (R327) -/
def stOk := 0x0000
def stBadOpcode := 0x0010
def stBadLength := 0x0011
def stBadParam := 0x0012
def stNoUnit := 0x0013
def stRange := 0x0014
def stBusy := 0x0020
def stRefused := 0x0021
def stLocked := 0x0022
def stNotReady := 0x0023
def stUnitOff := 0x0024
def stTimeout := 0x0030
def stAborted := 0x0031
def stRestarted := 0x0032
def stDisagree := 0x0040
def stChecksum := 0x0041
def stStoreFull := 0x0042
def stUnaddressed := 0x0050
def stChainDown := 0x0051
def stPrivilege := 0x0060

def modCmd (f : CmdSt → CmdSt) (s : State) : State := { s with cmd := f s.cmd }

/-! ### Unit tests -/

/-- The view of the path that carried a command (R400: the chain reads the operator view's copies). -/
def pathView : Path → View
  | .ring _ => .pcie
  | .mboxPcie => .pcie
  | .mboxSerial => .serial
  | .chain => .operator

/-- The expert enable bit of a path in CMD_PATH_CFG (R329, R341). -/
def pathBit : Path → Nat
  | .ring _ => 0
  | .mboxPcie => 0
  | .mboxSerial => 1
  | .chain => 2

def isMailbox : Path → Bool
  | .mboxPcie => true
  | .mboxSerial => true
  | _ => false

/-- The number of units of a class (R331). -/
def classSize (c : Nat) : Nat :=
  match c with
  | 0 => 1 | 1 => 8 | 2 => 16 | 3 => 64 | 4 => 512 | 5 => 512 | 6 => 16 | 7 => 74 | 8 => 80 | 9 => 1 | _ => 0

/-- The power domain of a unit (R516). -/
def unitDomain (c i : Nat) : Option Nat :=
  match c with
  | 1 => some (64 + i)
  | 2 => some (64 + i / 2)
  | 3 => some i
  | 4 => some (i / 8)
  | 5 => some (i / 8)
  | 6 => some 78
  | 7 => some (if i < 64 then i else if i < 72 then i else 78)
  | 9 => some 77
  | _ => none

/-- The state of a power domain, coded as TARGET: 0 RUN, 1 IDLE, 2 SLEEP, 3 DEEP, 4 OFF (R317). -/
def domState (s : State) (n : Nat) : Nat := rdF s (domBase n + 4) 2 0
def domBusy (s : State) (n : Nat) : Bool := rdB s (domBase n + 4) 3
/-- The domain runs and is in no transition. -/
def domRuns (s : State) (n : Nat) : Bool := domState s n == 0 && !domBusy s n

/-- The link table: what a link is configured as (R335, R349). -/
def linkOf (s : State) (l : Nat) : LinkSt := tabGet {} s.links l
def putLink (l : Nat) (x : LinkSt) (s : State) : State := { s with links := tabPut {} s.links l x }
def modLink (l : Nat) (f : LinkSt → LinkSt) (s : State) : State := putLink l (f (linkOf s l)) s

/-- L is the index of a configured link. -/
def isLink (s : State) (l : Nat) : Bool := (linkOf s l).mode != 0

/-- The configured link that holds a pair: the link of the same port whose pair mask has the pair's bit (R3, R344). -/
def linkOfPair (s : State) (l : Nat) : Option Nat :=
  ((List.range 8).map (fun k => l / 8 * 8 + k)).find?
    (fun m => isLink s m && (linkOf s m).mask.getLsbD (l % 8))

/-- The pairs of a link, in order. -/
def linkPairs (s : State) (l : Nat) : List Nat :=
  ((List.range 8).filter (fun k => (linkOf s l).mask.getLsbD k)).map (fun k => l / 8 * 8 + k)

/-! ### The LDT cache (R339) -/

def ldtSet (l : Nat) : Nat := (l ^^^ (l / 32)) % 32

def ldtEnabled (s : State) : Bool := rdB s ldtCtlR 0

/-- The cached entry of a link. -/
def ldtFind (s : State) (l : Nat) : Option (List Byte) :=
  ((tabGet [] s.cmd.ldtSets (ldtSet l)).find? (fun w => w.link == l)).map LdtLine.bytes

/-- The ways of an entry's set that hold other links. -/
def ldtOthers (s : State) (l : Nat) : List LdtLine :=
  (tabGet [] s.cmd.ldtSets (ldtSet l)).filter (fun w => w.link != l)

def ldtPut (l : Nat) (w : List LdtLine) (s : State) : State :=
  modCmd (fun c => { c with ldtSets := tabInsert c.ldtSets (ldtSet l) w }) s

/-- Remove the cached copy of an entry, with a fill in progress and the mark that the last fill was bad. -/
def ldtInvalidate (l : Nat) (s : State) : State :=
  modCmd (fun c => { c with ldtFills := c.ldtFills.filter (fun x => x != l), ldtBad := c.ldtBad.filter (fun x => x != l) })
    (ldtPut l (ldtOthers s l) s)

/-- Put an entry into its set as the most recently used way; the set keeps four ways. -/
def ldtStore (l : Nat) (b : List Byte) (s : State) : State :=
  ldtPut l (({ link := l, bytes := b } :: ldtOthers s l).take 4) s

/-- A fill that the cache asks host memory for now: one of each set, and up to 8 across the sets (R339). -/
def ldtAsked (s : State) (l : Nat) : Bool :=
  let first (k : Nat) : Bool := (s.cmd.ldtFills.find? (fun x => ldtSet x == ldtSet k)) == some k
  ((s.cmd.ldtFills.filter first).take 8).contains l

/-- A use of an entry through the cache: a hit makes it the most recently used; a miss asks for a fill. -/
def ldtUse (l : Nat) (s : State) : State :=
  if !ldtEnabled s then s else
  match ldtFind s l with
  | some b => ldtStore l b (count ldtHitR 1 s)
  | none =>
    let s := perfCount 0 1 { code := 7, unit := some (unitLink l) } (count ldtMissR 1 s)
    if s.cmd.ldtFills.contains l then s
    else modCmd (fun c => { c with ldtFills := c.ldtFills ++ [l] }) s

/-! ### Rings and completions -/

def sqCq (s : State) (n : Nat) : Nat := rdF s (sqBase n + 8) 9 4
def sqEnabled (s : State) (n : Nat) : Bool := rdB s (sqBase n + 8) 15
def sqSize (s : State) (n : Nat) : Nat := 2 ^ rdF s (sqBase n + 8) 3 0
def sqHead (s : State) (n : Nat) : Nat := rdF s (sqBase n + 0xC) 11 0
def sqTail (s : State) (n : Nat) : Nat := rdF s (sqTailDb n) 11 0
def cqEnabled (s : State) (n : Nat) : Bool := rdB s (cqBase n + 8) 15
def cqSize (s : State) (n : Nat) : Nat := 2 ^ rdF s (cqBase n + 8) 3 0
def cqTail (s : State) (n : Nat) : Nat := rdF s (cqBase n + 0xC) 11 0
def cqHead (s : State) (n : Nat) : Nat := rdF s (cqHeadDb n) 11 0
/-- The slot after TAIL is the head slot (R320). -/
def cqFull (s : State) (n : Nat) : Bool := (cqTail s n + 1) % cqSize s n == cqHead s n

/-- The completion ring of a command. -/
def pathCq (s : State) : Path → Option Nat
  | .ring n => some (sqCq s n.toNat)
  | _ => none

/-- Free engine tags (R323): a tag is held from fetch until the status slot is written or discarded. -/
def tagsFree (s : State) : Nat := 4096 - s.cmd.inflight.length - s.cmd.done.length

/-- The lowest engine tag that no command holds. -/
def freeTag (s : State) : Nat :=
  ((List.range 4096).find? (fun e =>
    !(s.cmd.inflight.any (fun f => f.etag == e)) && !(s.cmd.done.any (fun c => c.etag == e)))).getD 0

/-- Slots of a ring that are being fetched (R319). -/
def sqPending (s : State) (n : Nat) : Bool :=
  sqEnabled s n && !rdB s (sqBase n + 0xC) 13 && sqHead s n != sqTail s n

/-- The pool of engine tags is empty and fetching pauses (R323): the rings that have slots to fetch show PAUSED, and each pause is
counted once, until a tag is drawn again. DEDUCED: log 149. -/
def fetchPause (s : State) : State :=
  let s := ((List.range 64).filter (sqPending s)).foldl (fun s n => wrB (sqBase n + 0xC) 12 true s) s
  if s.cmd.starved then s else count cmdFetchPauseR 1 (modCmd (fun c => { c with starved := true }) s)

/-- A tag has been drawn: a pause ends (R323). DEDUCED: log 149. -/
def fetchResume (s : State) : State :=
  if s.cmd.starved then
    modCmd (fun c => { c with starved := false })
      (((List.range 64).filter (fun n => rdB s (sqBase n + 0xC) 12)).foldl (fun s n => wrB (sqBase n + 0xC) 12 false s) s)
  else s

/-- Mark the completions of CQ n that have to wait for space, and show FULL while some do (R320). -/
def cqStalls (n : Nat) (s : State) : State :=
  let mine := s.cmd.done.filter (fun c => pathCq s c.cmd.path == some n)
  if cqFull s n && !mine.isEmpty then
    let k := (mine.filter (fun c => !c.stalled)).length
    let s1 := wrB (cqBase n + 0xC) 13 true (count (cqBase n + 0x10) k s)
    modCmd (fun x => { x with done := x.done.map (fun c =>
      if pathCq s c.cmd.path == some n then { c with stalled := true } else c) }) s1
  else wrB (cqBase n + 0xC) 13 false s

/-- The 32 bytes of a status slot. -/
def statusSlot (tag : BitVec 12) (phase : Bool) (status : Nat) (result : List Byte) (buf : BitVec 64) : List Byte :=
  leBytes 2 (tag.toNat + 0x8000 * b2n phase) ++ leBytes 2 status ++ leBytes 2 result.length ++ zeros 2
    ++ (if result.length ≤ 16 then result ++ zeros (16 - result.length) else zeros 16) ++ leBytes 8 buf.toNat

/-- IRQ_N's mailbox source and MAILBOX_CTL: the mailbox takes a completion (R333). Its PHASE is 1. DEDUCED: log 19. -/
def mailboxComplete (serial : Bool) (c : Cmd) (status : Nat) (result : List Byte) (s : State) : State :=
  let slot := statusSlot c.tag true status result 0
  let long := if result.length ≤ 16 then [] else result
  let s := modCmd (fun x => { x with mailbox := putBytes0 (putBytes0 x.mailbox 0 slot) 0x20 long }) s
  let s := wrB mailboxCtlR 1 false (wrB mailboxCtlR 2 true s)
  if serial || s.cmd.mboxMute then s else raiseMsix (rdF s mailboxCtlR 24 16) s

/-- The unit ID of a command. -/
def cmdUnit (c : Cmd) : BitVec 16 := unitId c.cls.toNat c.idx.toNat

/-- End the command that holds an engine tag. A ring's completion waits for its status slot (R320), or is
discarded after a FUNCTION reset or D3hot (R332); the mailbox's is written at once (R333); a command that came
over the chain is answered by a REPLY frame (R452). A command that has ended holds no tag and is not ended again. DEDUCED: log 14.
DEDUCED: log 139. -/
def finish (f : InFlight) (status : Nat) (result : List Byte) (s : State) : State :=
  if !(s.cmd.inflight.any (fun g => g.etag == f.etag)) then s else
  let s := modCmd (fun c => { c with inflight := c.inflight.filter (fun g => g.etag != f.etag) }) s
  let s := perfCount 0 1 { code := 5, unit := some (cmdUnit f.cmd) } s
  match f.cmd.path with
  | .ring n =>
    let q := sqCq s n.toNat
    let c : Completion := { etag := f.etag, cmd := f.cmd, status := status, result := result }
    if cqEnabled s q && !f.orphan then cqStalls q (modCmd (fun x => { x with done := x.done ++ [c] }) s) else s
  | .mboxPcie => mailboxComplete false f.cmd status result s
  | .mboxSerial => mailboxComplete true f.cmd status result s
  | .chain => emit (.chainReply f.etag status result) s

/-- One device's answer to a command for address 63 (R330): the command ends when every device has answered, with OK
or with the status of the lowest-addressed failure, and with the mask of the devices that did not answer OK. DEDUCED: log 24. -/
def answer (f : InFlight) (addr status : Nat) (s : State) : State :=
  let fail := status != stOk
  let low := fail && (f.failMask == 0 || decide (2 ^ addr ≤ f.failMask && f.failMask % 2 ^ addr = 0))
  let g := { f with waitFor := f.waitFor &&& (2 ^ 64 - 1 - 2 ^ addr),
                    failMask := if fail then f.failMask ||| 2 ^ addr else f.failMask,
                    failStatus := if low then status else f.failStatus }
  if g.waitFor = 0 then finish g g.failStatus (leBytes 8 g.failMask) s
  else modCmd (fun c => { c with inflight := c.inflight.map (fun h => if h.etag == f.etag then g else h) }) s

/-- Complete the command that holds an engine tag; of a command for every device, only this device's part. DEDUCED: log 18.
DEDUCED: log 24. DEDUCED: log 139. -/
def complete (e status : Nat) (result : List Byte) (s : State) : State :=
  match s.cmd.inflight.find? (fun f => f.etag == e) with
  | none => s
  | some f => if f.waitFor = 0 then finish f status result s else answer f ((chainAddr s).getD 0) status s

/-- Replace the entry of a command in flight. -/
def modFlight (e : Nat) (g : InFlight → InFlight) (s : State) : State :=
  modCmd (fun c => { c with inflight := c.inflight.map (fun f => if f.etag == e then g f else f) }) s

/-- A started command waits for a later event. -/
def keepRunning (e aux : Nat) (s : State) : State := modFlight e (fun f => { f with stage := .running, aux := aux }) s

/-- The commands in flight of an opcode on a unit that have been started. -/
def running (s : State) (op cls idx : Nat) : List InFlight :=
  s.cmd.inflight.filter (fun f => f.opcode == op && f.cmd.cls.toNat == cls && f.cmd.idx.toNat == idx && f.stage == .running)

/-- Complete every started command of an opcode on a unit. -/
def completeAll (op cls idx status : Nat) (result : List Byte) (s : State) : State :=
  (running s op cls idx).foldl (fun s f => complete f.etag status result s) s

/-! ### Checks (R327) -/

/-- Whether an opcode is basic only, expert only, or both (R328, R342). -/
inductive Level where
  | basic | expert | both
deriving DecidableEq, Repr

/-- What a link-class command asks of its index (R331, R344). -/
inductive LinkNeed where
  | any | link | pair
deriving DecidableEq, Repr

/-- What the command reference says of an opcode before its own parameters are looked at. -/
structure OpSpec where
  opcode : Nat
  level : Level := .basic
  classes : List Nat
  lens : List Nat
  maxResult : Nat := 0
  need : LinkNeed := .link
  onChain : Bool := true     -- R345
  recovery : Bool := false   -- executes in recovery (R377)
deriving DecidableEq, Repr

/-- Check 1 (R330): where a command is executed. -/
inductive Place where
  | here | everywhere | forward | unaddressed | chainDown
deriving DecidableEq, Repr

def placeOf (s : State) (c : Cmd) : Place :=
  let a := c.chainAddr.toNat
  match chainAddr s with
  | none => if a = 0 ∨ a = 63 then .here else .unaddressed
  | some own =>
    if rdB s chainStateR 0 then
      if a = own then .here
      else if !rdB s chainStateR 2 then .chainDown
      else if a = 63 then .everywhere else .forward
    else if a = own ∨ a = 63 then .here else .unaddressed

/-- EXPERT agrees with the opcode's level (R328). -/
def expertOk (l : Level) (x : Bool) : Bool :=
  match l with
  | .basic => !x
  | .expert => x
  | .both => true

/-- The largest result a path carries: the mailbox holds 4,064 bytes (R333), the chain 8,192 (R452), RESULT_LEN at most
65,535 (R322). -/
def pathResultMax (p : Path) : Nat := if isMailbox p then 4064 else if p = .chain then 8192 else 65535

/-- PARAM_LEN fits the command (R343) and the path (R322, R333, R452). -/
def lengthOk (o : OpSpec) (c : Cmd) : Bool :=
  o.lens.contains c.paramLen.toNat && (!c.inl || decide (c.paramLen.toNat ≤ 40))
    && decide (c.paramLen.toNat ≤ if isMailbox c.path then (if c.inl then 40 else 4032) else if c.path = .chain then 8192 else 16384)
    && decide (o.maxResult ≤ pathResultMax c.path)

/-- The class is accepted and the index names a unit; a link command other than LINK_CONFIGURE needs a configured
link, or a pair of one (R331, R344). -/
def unitOk (s : State) (o : OpSpec) (c : Cmd) : Bool :=
  o.classes.contains c.cls.toNat && decide (c.idx.toNat < classSize c.cls.toNat)
    && (c.cls.toNat != 4 || match o.need with
        | .any => true
        | .link => isLink s c.idx.toNat
        | .pair => (linkOfPair s c.idx.toNat).isSome)

/-- In recovery no operator core runs (R377). -/
def inRecovery (s : State) : Bool := rdB s fwStateR 2
/-- The activation of an operator image is pending (R385). -/
def activationPending (s : State) : Bool := rdB s fwStateR 3

/-- A tile whose bridge is in PEER_RESET answers no command (R295). -/
def tileOfUnit (c i : Nat) : Option Nat :=
  match c with
  | 1 => some i
  | 2 => some (i / 2)
  | 3 => some (i / 8)
  | 4 => some (i / 64)
  | 5 => some (i / 64)
  | 7 => if i < 64 then some (i / 8) else if i < 72 then some (i - 64) else none
  | _ => none

def tileOf (s : State) (t : Nat) : TileSt := tabGet {} s.tiles t
def modTile (t : Nat) (f : TileSt → TileSt) (s : State) : State :=
  { s with tiles := tabPut {} s.tiles t (f (tileOf s t)) }

/-- Parameter bytes whose reserved part must be 0 (R343). -/
def allZero (l : List Byte) : Bool := l.all (fun b => b == 0)
def zeroFrom (l : List Byte) (o : Nat) : Bool := allZero (l.drop o)

/-- A reserved byte or bit of a command's parameters is not 0: what R343's layouts leave unnamed (R6). DEDUCED, log 152: they are the reserved
fields of check 3, as those of the slot are. -/
def reservedParam (op : Nat) (c : Cmd) : Bool :=
  let rest (o : Nat) : Bool := !allZero (c.params.drop o)
  let above (o n : Nat) : Bool := decide (n ≤ leAt c.params o 1)
  let gap (o n : Nat) : Bool := leAt c.params o n != 0
  match op with
  | 0x0201 | 0x0202 | 0x0306 => above 0 2 || rest 1
  | 0x0206 => above 0 2 || rest 2
  | 0x0207 => above 1 2 || rest 2
  | 0x0208 | 0x0304 | 0x0505 | 0x0701 | 0x0703 | 0x0705 | 0x0802 | 0x0804 | 0x0A02 | 0x0D03 => rest 1
  | 0x0303 => above 1 4 || gap 2 6
  | 0x0305 => above 1 16 || gap 2 2
  | 0x0307 => above 0 16 || rest 6
  | 0x0401 => leAt c.params 1 1 / 8 % 2 != 0 || above 1 32 || (leAt c.params 0 1 == 4 && gap 6 2)
  | 0x0403 => above 16 2 || rest 17
  | 0x0501 | 0x0605 | 0x0904 => rest 3
  | 0x0502 => rest 5
  | 0x0504 => rest 16
  | 0x0601 => if c.expert then leAt c.params 0 1 / 64 % 2 != 0 || above 1 2 || rest 8 else above 9 4 || rest 10
  | 0x0602 => above 1 4 || gap 2 2 || (if c.idx.toNat < 72 then decide (2 ^ 12 ≤ leAt c.params 4 4) else decide (2 ^ 22 ≤ leAt c.params 4 4))
  | 0x0603 => gap 1 3
  | 0x0606 => gap 2 2
  | 0x0607 => (if c.expert && c.cls == 0 then above 2 8 else gap 2 1) || rest 3
  | 0x0702 => above 4 2 || gap 5 3 || above 9 2 || rest 10
  | 0x0902 | 0x0903 =>
    if leAt c.params 0 1 = 0 then gap 1 1 || rest 4 else if leAt c.params 0 1 = 1 then gap 3 1 else leAt c.params 0 1 == 2 && rest 1
  | 0x0A01 => above 17 2 || rest 18
  | 0x0B04 => gap 11 1
  | 0x0C01 => gap 9 1 || gap 12 4
  | 0x0C02 => gap 6 2
  | 0x0D01 => if c.expert then false else above 0 4 || rest 1
  | _ => false

/-- The commands that read or write the MRAM (R309). -/
def needsMram (op : Nat) : Bool := op / 256 == 9 || op == 0x0A01 || op == 0x0A02 || op == 0x0C02

/-- The commands that the operator firmware carries out by a request to the supervisor firmware (R371): the MRAM, the power controller, and
writes of RL fields (R402) and of fields refused to the operator view (R378). DEDUCED: log 175. -/
def needsSupervisor (op : Nat) (c : Cmd) : Bool :=
  needsMram op || op == 0x0103 || op == 0x0701 || op == 0x0702 || op == 0x0703 || op == 0x0705 || op == 0x0601 || op == 0x0607
    || (op == 0x0602 && decide (72 ≤ c.idx.toNat))

/-- Checks 2 to 8 of R327, then the conditions that answer NOT_READY: recovery (R377), a tile
bridge in PEER_RESET (R295) and, for what takes a request of the supervisor firmware, a halted supervisor core (R387). The status of the first check that fails.
DESIGN CHOICE: log 13. DEDUCED: log 152. DEDUCED: log 175. -/
def firstFailure (s : State) (o : OpSpec) (c : Cmd) : Option Nat :=
  if c.rsvd || reservedParam o.opcode c || !expertOk o.level c.expert then some stBadParam
  else if c.expert && !rdB s cmdPathCfgR (pathBit c.path) then some stLocked
  else if !lengthOk o c then some stBadLength
  else if !unitOk s o c then some stNoUnit
  else if c.path == .chain && !o.onChain then some stPrivilege
  else if (unitDomain c.cls.toNat c.idx.toNat).any (fun d => domState s d == 4) then some stUnitOff
  else if inRecovery s && !o.recovery then some stNotReady
  else if (tileOfUnit c.cls.toNat c.idx.toNat).any (fun t => (tileOf s t).resetting) then some stNotReady
  else if rdB s fwStateR 4 && needsSupervisor o.opcode c then some stNotReady
  else none

/-! ### Starting a command -/

/-- An earlier-fetched command of the same ring must start or complete first: the one before it on the same unit
(R324), and with FENCE every one (R325). -/
def blocked (s : State) (f : InFlight) : Bool :=
  match f.cmd.path with
  | .ring n =>
    (s.cmd.inflight.takeWhile (fun g => g.etag != f.etag)).any (fun g =>
      g.cmd.path == .ring n && (f.cmd.fence || g.stage == .fetching
        || ((g.stage == .ready || g.stage == .loading) && g.cmd.cls == f.cmd.cls && g.cmd.idx == f.cmd.idx)))
  | _ => false

/-- The fetched entry that a command row names: the oldest one with the same opcode and contents. -/
def fetchedEntry (s : State) (op : Nat) (c : Cmd) : Option InFlight :=
  s.cmd.inflight.find? (fun f => f.opcode == op && f.cmd == c && f.stage == .ready)

/-- Give a command an engine tag: the entry that was fetched, or a fresh one where the row brings the command
itself. None while the pool is empty (R323). DEDUCED: log 11. -/
def claimTag (s : State) (op : Nat) (c : Cmd) : Option (InFlight × State) :=
  match fetchedEntry s op c with
  | some f => some (f, s)
  | none =>
    if tagsFree s = 0 then none
    else
      let f : InFlight := { etag := freeTag s, opcode := op, cmd := c }
      some (f, perfCount 0 1 { code := 4, unit := some (cmdUnit c) }
        (fetchResume (modCmd (fun x => { x with inflight := x.inflight ++ [f] }) s)))

/-- The domains that a command wakes before it acts (R299, R307, R516): those of the command engine and the operator
cores, its unit's (a port is reached through its tile's bridge), and those its work needs. `mram` says that the MRAM is in
neither DEEP nor OFF: from those a command does not wake it (R309). -/
def commandDomains (op : Nat) (recovery mram : Bool) (c : Cmd) : List Nat :=
  let unit := match unitDomain c.cls.toNat c.idx.toNat with
    | some d => if d < 64 then [64 + d / 8, d] else [d]
    | none => []
  (if recovery then [] else [74, 73]) ++ (match c.path with | .mboxSerial => [] | .chain => [] | _ => [76]) ++ unit
    ++ (if needsMram op && mram then [79] else [])

def domOf (s : State) (d : Nat) : DomSt := tabGet {} s.doms d
def modDom (d : Nat) (f : DomSt → DomSt) (s : State) : State := { s with doms := tabPut {} s.doms d (f (domOf s d)) }

/-- A refusal or an abort is recorded (R303, R306): its first refuser, the mask of all, and the count. -/
def recordRefusal (d id mask : Nat) (s : State) : State :=
  count (domBase d + 0x10) 1 (wr (domBase d + 0xC) (BitVec.ofNat 32 mask) (wrF (domBase d + 4) 15 8 id s))

/-- The result of PWR_STATE_SET (R363). DEDUCED: log 105. -/
def stateSetResult (id mask : Nat) : List Byte := leBytes 1 id ++ zeros 1 ++ leBytes 2 mask

/-- An entry in progress is aborted, by a wake source (0x0C) or a drain that took too long (0x04): the domain returns to
RUN, and a PWR_STATE_SET that waits for the entry is REFUSED (R306). DEDUCED: log 105. -/
def abortEntry (d id : Nat) (s : State) : State :=
  let tag := (domOf s d).tag
  let s := recordRefusal d id (2 ^ (id - 1)) (modDom d (fun _ => {}) s)
  match tag with
  | some e => complete e stRefused (stateSetResult id (2 ^ (id - 1))) s
  | none => s

/-- A level wake source of a domain: a wake begins from IDLE, SLEEP or DEEP, an entry in progress is aborted, OFF is not
woken (R299, R306, R307). While the supervisor core is halted there is no power transition (R387). DEDUCED: log 106. -/
def wakeOne (d : Nat) (s : State) : State :=
  let st := domState s d
  if rdB s fwStateR 4 then s
  else if domBusy s d then (if (domOf s d).going = 0 then s else abortEntry d 0x0C s)
  else if st = 0 ∨ st = 4 then s
  else modDom d (fun x => { x with going := 0, wakeAt := false }) (wrF (domBase d + 4) 6 4 st (wrB (domBase d + 4) 3 true s))

/-- The same, for a port under a tile in DEEP: the tile first, the port after it (R300). DEDUCED: log 106. DESIGN CHOICE: log 147. -/
def beginWake (d : Nat) (s : State) : State :=
  if d < 64 ∧ domState s (64 + d / 8) = 3 ∧ domState s d ≠ 0 ∧ domState s d ≠ 4 then
    wakeOne (64 + d / 8) (modDom d (fun x => { x with wakeAt := true }) s)
  else wakeOne d s

/-- A command of unit class 4 reads its link's entry through the cache (R339): the link that it names, or that its pair belongs to. -/
def checkLink (o : OpSpec) (c : Cmd) (s : State) : State :=
  if c.cls == 4 then
    ldtUse (match o.need with
      | .pair => (linkOfPair s c.idx.toNat).getD c.idx.toNat
      | _ => c.idx.toNat) s
  else s

/-- The checks and the action on this device (R327). DEDUCED: log 12. -/
def runHere (o : OpSpec) (c : Cmd) (f : InFlight) (act : Nat → State → State) (s : State) : State :=
  match firstFailure s o c with
  | some st => complete f.etag st [] s
  | none =>
    let ds := commandDomains o.opcode (inRecovery s) (decide (domState s 79 < 3)) c
    if ds.all (domRuns s) then act f.etag (checkLink o c s) else ds.foldl (fun s d => beginWake d s) s

/-- The manager originates no CMD frame: while an enumeration runs (R448), and once it has seen another manager (R451). -/
def chainHolds (s : State) : Bool := s.chain.enum.isSome || rdB s chainStateR 4

/-- Check a command and, when every check passes, act (R327). While the operator firmware is being restarted no command is fetched
(R381). A command that has to wait for an engine tag, for an
earlier command or for a domain's wake changes nothing of its unit; its row comes again later. DEDUCED: log 5. DEDUCED: log 11.
DEDUCED: log 12. DESIGN CHOICE: log 13. DEDUCED: log 139. -/
def command (o : OpSpec) (c : Cmd) (act : Nat → State → State) (s : State) : State :=
  if s.mode ≠ .running || s.cmd.stopped then s
  else match claimTag s o.opcode c with
  | none => fetchPause s
  | some (f, s) =>
    if blocked s f then s
    else match placeOf s c with
    | .unaddressed => complete f.etag stUnaddressed [] s
    | .chainDown => complete f.etag stChainDown [] s
    | .forward =>
      if chainHolds s then s
      else emit (.forward f.etag c.chainAddr.toNat) (modFlight f.etag (fun f => { f with stage := .forwarded }) s)
    | .here => runHere o c f act s
    | .everywhere =>
      if o.maxResult ≠ 0 then complete f.etag stBadParam [] s
      else if chainHolds s then s
      else
        let mask := 2 ^ (rdF s chainStateR 23 16 + 1) - 1
        runHere o c f act (if f.waitFor ≠ 0 then s
          else emit (.forward f.etag 63) (modFlight f.etag (fun f => { f with waitFor := mask }) s))

end Sys2Proof.Machine
end

