-- ==== Sys2Proof/Machine/CmdDevice.lean ====
section
/-! DEFINITION. The DEVICE commands (R346, R347). -/
namespace Sys2Proof.Machine

/-- Links 0 to 511 that are configured, and those in a state. -/
def linkCount (s : State) (f : LinkSt → Bool) : Nat := (s.links.filter (fun e => e.2.mode != 0 && f e.2)).length

def anyLinkActive (s : State) : Bool := s.links.any (fun e => e.2.mode != 0 && e.2.state != .down)

/-- Signed reading of a sensor, in 1/16 °C (R475). -/
def tempOf (s : State) (i : Nat) : Int := (tabGet 0 s.temps i).toInt

/-- The hottest of the 98 sensors; of equal ones the lowest index. -/
def hottest (s : State) : Nat :=
  (List.range 98).foldl (fun b i => if tempOf s b < tempOf s i then i else b) 0

/-- The DEV_IDENTIFY result (R346). -/
def identifyResult (s : State) : List Byte :=
  leBytes 4 0x5120 ++ leBytes 1 0xA1 ++ leBytes 3 Config.oui.toNat ++ leBytes 8 Config.serial.toNat
    ++ leBytes 4 s.fw.supVersion.toNat ++ leBytes 4 s.fw.operVersion.toNat
    ++ leBytes 1 ((chainAddr s).getD 0xFF)
    ++ leBytes 1 (b2n (rdB s devStrapsR 0) + 2 * b2n (rdB s chainStateR 1) + 4 * b2n (rdB s chainStateR 2)) ++ zeros 6

/-- The DEV_STATUS result (R346). -/
def devStatusResult (s : State) : List Byte :=
  leBytes 8 s.time.toNat ++ leBytes 4 (rd s evtLastSeqR).toNat
    ++ leBytes 2 (tabGet 0 s.temps (hottest s)).toNat ++ leBytes 1 (hottest s)
    ++ leBytes 1 (b2n (rdB s thermStatusR 0) + 2 * b2n (rdB s thermStatusR 1) + 4 * b2n (rdB s clkRootSrcR 2)
        + 8 * b2n (rdF s pwrSupplyStatusR 7 0 != 0) + 16 * b2n (rdB s pwrSupplyStatusR 16))
    ++ leBytes 2 (linkCount s (fun l => l.state == .up)) ++ leBytes 2 (linkCount s (fun l => l.state != .down))
    ++ leBytes 4 (tagsFree s) ++ leBytes 4 (rd s snapSeqR).toNat ++ zeros 4

/-- DEV_IDENTIFY (R346). -/
def opDevIdentify : OpSpec := { opcode := 0x0101, classes := [0], lens := [0], maxResult := 32, recovery := true }
def execDevIdentify (c : Cmd) (s : State) : Out State :=
  .next (command opDevIdentify c (fun e s => complete e stOk (identifyResult s) s) s)

/-- DEV_STATUS (R346). DEDUCED: log 23. -/
def opDevStatus : OpSpec := { opcode := 0x0102, classes := [0], lens := [0], maxResult := 32 }
def execDevStatus (c : Cmd) (s : State) : Out State :=
  .next (command opDevStatus c (fun e s => complete e stOk (devStatusResult s) s) s)

/-- Some view holds a keep-awake floor above OFF on some domain (R310). -/
def anyHold (s : State) : Bool := (List.range 80).any (fun d => rd s (domBase d + 0x18) != 0x924)

/-- DEV_OFF (R310): refused with the refuser's ID, or done; the entry itself follows the completion. -/
def opDevOff : OpSpec := { opcode := 0x0103, classes := [0], lens := [0], maxResult := 1, onChain := false }
def actDevOff (e : Nat) (s : State) : State :=
  if anyLinkActive s then complete e stRefused [0x07] s
  else if anyHold s then complete e stRefused [0x02] s
  else { complete e stOk [] s with offPending := true }
def execDevOff (c : Cmd) (s : State) : Out State := .next (command opDevOff c actDevOff s)

/-- An action scheduled at a time waits (R347). -/
def actionPending (s : State) : Bool := !s.hops.isEmpty || s.pulse.isSome || !s.chain.epochs.isEmpty

/-- The utilization windows in progress are discarded without a count (R347). -/
def discardUtil (s : State) : State := { s with utilDiscard := List.range 64 }

/-- DEV_TIME_SET (R347): on the manager device time is chain time. -/
def opDevTimeSet : OpSpec := { opcode := 0x0104, classes := [0], lens := [8] }
def actDevTimeSet (c : Cmd) (e : Nat) (s : State) : State :=
  if (rdB s chainStateR 1 && !rdB s chainStateR 0) || actionPending s then complete e stRefused [] s
  else complete e stOk [] (discardUtil (setTime (BitVec.ofNat 64 (leAt c.params 0 8)) s))
def execDevTimeSet (c : Cmd) (s : State) : Out State := .next (command opDevTimeSet c (actDevTimeSet c) s)

/-- DEV_LOCK_QUERY (R346, R401). -/
def opDevLockQuery : OpSpec := { opcode := 0x0105, classes := [0], lens := [0], maxResult := 4 }
def execDevLockQuery (c : Cmd) (s : State) : Out State :=
  .next (command opDevLockQuery c (fun e s => complete e stOk (leBytes 4 (rdF s lockCtlR 4 0)) s) s)

end Sys2Proof.Machine
end

