-- ==== Sys2Proof/Machine/CmdFw.lean ====
section
/-! DEFINITION. The FIRMWARE commands and the checks of an image (R365, R367, R372 to R374, R384 to R386).
Banks: 0 operator A, 1 operator B, 2 patch A, 3 patch B. -/
namespace Sys2Proof.Machine

def modFw (f : FwSt → FwSt) (s : State) : State := { s with fw := f s.fw }

/-- MRAM offset and size of an image bank (R372). -/
def bankBase (b : Nat) : Nat := match b with
  | 0 => 0x0000000 | 1 => 0x0400000 | 2 => 0x0800000 | _ => 0x0840000
def bankSize (b : Nat) : Nat := if b < 2 then 0x400000 else 0x40000

/-- The active bank of an image type: 0 operator, 1 supervisor patch (R388). -/
def activeBank (s : State) (ty : Nat) : Nat :=
  if ty = 0 then b2n (rdB s fwStateR 0) else 2 + b2n (rdB s fwStateR 1)
/-- The bank that FW_STAGE fills: the inactive one of the type (R384). -/
def stagingBank (s : State) (ty : Nat) : Nat :=
  if ty = 0 then 1 - activeBank s 0 else 5 - activeBank s 1

/-- The MRAM can be used: its domain is not in DEEP or OFF and its clock enable is 1 (R292, R309). -/
def mramReady (s : State) : Bool := decide (domState s 79 < 3) && rdB s clkEnR 4
/-- The brown-out hold on MRAM writes is in force (R314). -/
def mramHold (s : State) : Bool := rdB s pwrSupplyStatusR 16

/-- The checks of R374 on a header, in order: 0, or the first check that fails. `crypto` is the first failing check
among those against keys and hashes (0x03, 0x06, 0x07), or 0. -/
def headerCheck (h : List Byte) (ty floor : Nat) (revoked : BitVec 4) (crypto : Nat) : Nat :=
  let magic := if ty = 0 then 0x4650524F else 0x48505553
  if leAt h 0 4 ≠ magic ∨ leAt h 6 1 ≠ ty + 1 ∨ leAt h 4 2 ≠ 0x0100
      ∨ leAt h 0x12 14 ≠ 0 ∨ leAt h 0x110 240 ≠ 0 ∨ h.length < 512 then 1
  else if (if ty = 0 then 4193792 else 261632) < leAt h 0xE 4 then 2
  else if crypto = 3 then 3
  else if revoked.getLsbD (leAt h 7 1) then 4
  else if leAt h 0xC 2 < floor then 5
  else if crypto = 6 then 6
  else if crypto = 7 then 7
  else 0

/-- The type of a bank: 0 operator, 1 patch. -/
def bankType (b : Nat) : Nat := if b < 2 then 0 else 1

/-- IMAGE_VERIFY (R374) of a bank: the check code, and the event of a failure. DEDUCED: log 10. -/
def verifyBank (b crypto : Nat) (s : State) : Nat × State :=
  let ty := bankType b
  let code := headerCheck (tabGet [] s.fw.headers b) ty (tabGet 0 s.fw.floors ty) s.fw.revoked crypto
  if code = 0 then (0, s)
  else (code, raise 0x0C00 unitDev (leBytes 1 code ++ leBytes 1 (b % 2) ++ leBytes 1 (ty + 1)) s)

/-- FW_STAGE (R367, R384). `chunk` is what the device reads at the chunk's host address, none for a host memory
error; on the serial mailbox the chunk lies in the buffer at 0x058. -/
def opFwStage : OpSpec :=
  { opcode := 0x0A01, classes := [0], lens := [24], maxResult := 8, onChain := false, recovery := true }
def stageChunk (c : Cmd) (chunk : Option (List Byte)) (s : State) : Option (List Byte) :=
  if c.path = .mboxSerial then some (getBytes s.cmd.mailbox 0x58 (leAt c.params 12 4))
  else chunk.map (fun b => (b ++ zeros (leAt c.params 12 4)).take (leAt c.params 12 4))
def fwStageBad (c : Cmd) : Bool :=
  decide (1 < leAt c.params 16 1) || decide (1 < leAt c.params 17 1) || !zeroFrom c.params 18
    || (c.path == .mboxSerial && (leAt c.params 0 8 != 0 || decide (4008 < leAt c.params 12 4)))
def actFwStage (c : Cmd) (chunk : Option (List Byte)) (e : Nat) (s : State) : State :=
  let off := leAt c.params 8 4
  let len := leAt c.params 12 4
  let b := stagingBank s (leAt c.params 16 1)
  if fwStageBad c then complete e stBadParam [] s
  else if s.fw.activating.isSome || s.fw.patching.isSome || s.fw.verifying.isSome then complete e stBusy [] s
  else if bankSize b < off + len then complete e stRange [] s
  else if !mramReady s then complete e stNotReady [] s
  else if mramHold s then s
  else match stageChunk c chunk s with
  | none => complete e stBadParam [] s
  | some bytes =>
    let s := { s with mram := putBytes0 s.mram (bankBase b + off) bytes }
    let first := !s.fw.invalid.contains b
    let n := (if first then 0 else tabGet 0 s.fw.staged b) + len
    let hdr := getBytes s.mram (bankBase b) 512
    let s := modFw (fun f => { f with
      invalid := if first then f.invalid ++ [b] else f.invalid
      verified := f.verified.filter (fun x => x != b)
      staged := tabInsert f.staged b n
      headers := tabInsert f.headers b hdr
      stagingState := 0 }) s
    if leAt c.params 17 1 = 1 then keepRunning e b (modFw (fun f => { f with verifying := some (b, e) }) s)
    else complete e stOk (leBytes 4 n ++ zeros 4) s
def execFwStage (c : Cmd) (chunk : Option (List Byte)) (s : State) : Out State :=
  .next (command opFwStage c (actFwStage c chunk) s)

/-- FINAL_CHUNK_VERIFIED (R384): the verification of the staged bank ends, and FW_STAGE with it. -/
def finalChunkVerified (crypto : Nat) (s : State) : State :=
  match s.fw.verifying with
  | none => s
  | some (b, e) =>
    let (code, s) := verifyBank b crypto s
    let n := tabGet 0 s.fw.staged b
    if code = 0 then
      complete e stOk (leBytes 4 n ++ leBytes 1 1 ++ zeros 3)
        (modFw (fun f => { f with verifying := none, stagingState := 1, verified := f.verified ++ [b],
                                  invalid := f.invalid.filter (fun x => x != b) }) s)
    else
      complete e stChecksum (leBytes 4 n ++ leBytes 1 2 ++ zeros 3)
        (modFw (fun f => { f with verifying := none, stagingState := 2 }) s)
/-- DEDUCED: log 10. -/
def execFinalChunkVerified (crypto : BitVec 3) (s : State) : Out State := .next (finalChunkVerified crypto.toNat s)

/-- FW_ACTIVATE (R367, R385, R386): it completes at the quiescent point or when the patch runs. -/
def opFwActivate : OpSpec :=
  { opcode := 0x0A02, classes := [0], lens := [4], onChain := false, recovery := true }
def actFwActivate (c : Cmd) (e : Nat) (s : State) : State :=
  let ty := leAt c.params 0 1
  if 1 < ty ∨ !zeroFrom c.params 1 then complete e stBadParam [] s
  else if s.fw.activating.isSome || s.fw.patching.isSome then complete e stBusy [] s
  else if !s.fw.verified.contains (stagingBank s ty) then complete e stNotReady [] s
  else if ty = 0 then
    keepRunning e ty (wrB fwStateR 3 true (modFw (fun f => { f with activating := some e }) s))
  else keepRunning e ty (modFw (fun f => { f with patching := some e }) s)
def execFwActivate (c : Cmd) (s : State) : Out State := .next (command opFwActivate c (actFwActivate c) s)

/-- FW_STATUS (R365): versions of the four banks, the active banks and the staging state. -/
def opFwStatus : OpSpec := { opcode := 0x0A03, classes := [0], lens := [0], maxResult := 32, recovery := true }
def bankVersion (s : State) (b : Nat) : Nat := leAt (tabGet [] s.fw.headers b) 8 4
/-- DEDUCED: log 23. -/
def fwStatusResult (s : State) : List Byte :=
  leBytes 4 (bankVersion s 0) ++ leBytes 4 (bankVersion s 1) ++ leBytes 4 (bankVersion s 2)
    ++ leBytes 4 (bankVersion s 3) ++ leBytes 1 (b2n (rdB s fwStateR 0)) ++ leBytes 1 (b2n (rdB s fwStateR 1))
    ++ leBytes 1 s.fw.stagingState ++ zeros 13
def execFwStatus (c : Cmd) (s : State) : Out State :=
  .next (command opFwStatus c (fun e s => complete e stOk (fwStatusResult s) s) s)

end Sys2Proof.Machine
end

