-- ==== Sys2Proof/Machine/Rings.lean ====
section
/-! DEFINITION. Rings, doorbells, fetching, the mailbox, the LDT and the delivery of events
(12_command_protocol.md; R427, R435, R468 to R474). -/
namespace Sys2Proof.Machine

/-! ### Submission -/

/-- EVT_RING_ERROR (R320): kind 0 SQ, 1 CQ, 2 event ring. DEDUCED: log 138. -/
def ringError (kind n code : Nat) (s : State) : State :=
  raise 0x0B00 unitDev (leBytes 1 kind ++ leBytes 1 n ++ leBytes 1 code) s

/-- A doorbell wakes what serves it (R307): PD_PCIE, PD_HMEM_A and PD_OPER. -/
def doorbellWake (s : State) : State := [76, 74, 73].foldl (fun s d => beginWake d s) s

/-- Write of SQ_TAIL_DB (R319). -/
def sqTailWrite (n : Nat) (v : Word) (s : State) : State :=
  let t := fieldGet v 11 0
  if !sqEnabled s n then accessError .pcie (sqTailDb n) 0xB true s
  else if sqSize s n ≤ t then
    ringError 0 n 0x01 (wrF (sqBase n + 0xC) 23 16 0x01 (wrB (sqBase n + 0xC) 13 true s))
  else doorbellWake (wr (sqTailDb n) (BitVec.ofNat 32 t) s)

/-- The ring that weighted round robin serves next: the current one while its turn lasts, else the next with
pending slots (R323). -/
def nextRing (s : State) : Option Nat :=
  if s.cmd.rrLeft ≠ 0 ∧ sqPending s s.cmd.rrRing then some s.cmd.rrRing
  else ((List.range 64).map (fun i => (s.cmd.rrRing + 1 + i) % 64)).find? (sqPending s)

/-- A slot of a ring is fetched: the engine takes the next slot in turn, gives it an engine tag and advances HEAD; with an
empty pool it fetches none and counts a pause. DEDUCED: log 138. -/
def ringFetch (s : State) : State :=
  match nextRing s with
  | none => s
  | some n =>
    if !dmaOk s then s
    else if tagsFree s = 0 then
      fetchPause s
    else
      let left := if s.cmd.rrRing = n ∧ s.cmd.rrLeft ≠ 0 then s.cmd.rrLeft - 1 else rdF s (sqBase n + 8) 13 10
      let f : InFlight := { etag := freeTag s, cmd := { path := .ring (BitVec.ofNat 6 n) }, stage := .fetching, aux := sqHead s n }
      let s := modCmd (fun c => { c with inflight := c.inflight ++ [f], rrRing := n, rrLeft := left }) s
      fetchResume (wrF (sqBase n + 0xC) 11 0 ((sqHead s n + 1) % sqSize s n) s)
/-- The opcode of a submission slot, and the command it spells (12_command_protocol.md, "submission slot"). -/
def slotOpcode (b : List Byte) : Nat := leAt b 0 2
def parseSlot (p : Path) (b : List Byte) (params : List Byte) : Cmd :=
  let w := leAt b 2 2
  let u := leAt b 6 2
  { path := p, tag := BitVec.ofNat 12 w, fence := w.testBit 12, expert := w.testBit 13, notify := w.testBit 14,
    inl := w.testBit 15, rsvd := decide (63 < leAt b 4 1) || leAt b 5 1 != 0 || leAt b 12 4 != 0,
    chainAddr := BitVec.ofNat 6 (leAt b 4 1), cls := BitVec.ofNat 4 (u / 4096), idx := BitVec.ofNat 12 u,
    paramLen := BitVec.ofNat 16 (leAt b 8 2), timeout := BitVec.ofNat 16 (leAt b 10 2),
    buf := BitVec.ofNat 64 (leAt b 16 8),
    params := if w.testBit 15 then ((b.drop 24).take (min 40 (leAt b 8 2))) else params }

/-- The opcodes of the command reference. -/
def opcodes : List Nat :=
  [0x0101, 0x0102, 0x0103, 0x0104, 0x0105, 0x0201, 0x0202, 0x0203, 0x0204, 0x0205, 0x0206, 0x0207, 0x0208,
   0x0301, 0x0302, 0x0303, 0x0304, 0x0305, 0x0306, 0x0307, 0x0401, 0x0402, 0x0403, 0x0501, 0x0502, 0x0503, 0x0504,
   0x0505, 0x0601, 0x0602, 0x0603, 0x0604, 0x0605, 0x0606, 0x0607, 0x0608, 0x0701, 0x0702, 0x0703, 0x0704, 0x0705,
   0x0801, 0x0802, 0x0803, 0x0804, 0x0901, 0x0902, 0x0903, 0x0904, 0x0A01, 0x0A02, 0x0A03, 0x0B01, 0x0B02, 0x0B04,
   0x0C01, 0x0C02, 0x0D01, 0x0D02, 0x0D03]

/-- A command whose slot and parameters are present: one that this device executes and whose opcode is not defined
completes with BAD_OPCODE (R327, checks 1 and 2); every other waits for its row. -/
def submitted (e : Nat) (s : State) : State :=
  match s.cmd.inflight.find? (fun f => f.etag == e) with
  | none => s
  | some f =>
    if opcodes.contains f.opcode then s
    else match placeOf s f.cmd with
    | .here => complete e stBadOpcode [] s
    | .everywhere => complete e stBadOpcode [] s
    | .unaddressed => complete e stUnaddressed [] s
    | .chainDown => complete e stChainDown [] s
    | .forward => emit (.forward e f.cmd.chainAddr.toNat) (modFlight e (fun f => { f with stage := .forwarded }) s)

/-- A command has been fetched (R414, event 0x04). -/
def fetchedCount (c : Cmd) (s : State) : State := perfCount 0 1 { code := 4, unit := some (cmdUnit c) } s

/-- The command in the mailbox buffer gets its engine tag (R323, R333): its parameters are inline or follow at 0x040. -/
def mailboxStart (p : Path) (s : State) : State :=
  let b := getBytes s.cmd.mailbox 0 64
  let c := parseSlot p b (getBytes s.cmd.mailbox 0x40 (min 4032 (leAt b 8 2)))
  let e := freeTag s
  let f : InFlight := { etag := e, opcode := slotOpcode b, cmd := c }
  submitted e (fetchedCount c (fetchResume (modCmd (fun x => { x with mboxWaits := false, inflight := x.inflight ++ [f] }) s)))

/-- SLOT_FETCH (R323): a mailbox GO that waits for a tag goes first; else the next slot of the rings is fetched. -/
def slotFetch (s : State) : State :=
  if s.mode ≠ .running || s.cmd.stopped then s
  else if s.cmd.mboxWaits && tagsFree s != 0 then
    mailboxStart (if rdB s mailboxCtlR 4 then .mboxSerial else .mboxPcie) s
  else ringFetch s
def execSlotFetch (s : State) : Out State := .next (slotFetch s)

/-- A slot's bytes arrive (R319, R427): inline parameters come with it, others are read next. A slot that cannot be read is
still the next one to fetch, and the ring reports its error. DEDUCED: log 138. -/
def slotArrived (e : Nat) (data : Option (List Byte)) (s : State) : State :=
  match s.cmd.inflight.find? (fun f => f.etag == e && f.stage == .fetching) with
  | none => s
  | some f =>
    match data with
    | none =>
      let s := modCmd (fun c => { c with inflight := c.inflight.filter (fun g => g.etag != e) }) s
      match f.cmd.path with
      | .ring n =>
        ringError 0 n.toNat 0x02 (wrF (sqBase n.toNat + 0xC) 11 0 f.aux (wrF (sqBase n.toNat + 0xC) 23 16 0x02 (wrB (sqBase n.toNat + 0xC) 13 true s)))
      | _ => s
    | some b =>
      let c := parseSlot f.cmd.path b []
      let st := if c.inl || c.paramLen == 0 then Stage.ready else .loading
      submitted e (fetchedCount c (dmaRead 5 64 (modFlight e (fun f => { f with opcode := slotOpcode b, cmd := c, stage := st, aux := 0 }) s)))

/-- A parameter buffer arrives; a host memory error completes the command with BAD_PARAM (R427). -/
def paramsArrived (e : Nat) (data : Option (List Byte)) (s : State) : State :=
  match s.cmd.inflight.find? (fun f => f.etag == e && f.stage == .loading) with
  | none => s
  | some f =>
    match data with
    | none => complete e stBadParam [] s
    | some b =>
      let p := (b ++ zeros f.cmd.paramLen.toNat).take f.cmd.paramLen.toNat
      submitted e (dmaRead 5 p.length (modFlight e (fun f => { f with cmd := { f.cmd with params := p }, stage := .ready }) s))

/-- An entry arrives in the LDT cache (R337, R339): a bad CRC is counted, and the entry is not kept. -/
def ldtCrcOk (b : List Byte) : Bool := b.length == 256 && crc32 (b.take 0xFC) == leAt b 0xFC 4
/-- DEDUCED: log 58. -/
def ldtArrived (l : Nat) (data : Option (List Byte)) (s : State) : State :=
  if !ldtAsked s l || !ldtEnabled s then s
  else
    let s := modCmd (fun c => { c with ldtFills := c.ldtFills.filter (fun x => x != l) }) s
    match data with
    | some b =>
      let s := dmaRead 5 256 s
      if ldtCrcOk b then ldtStore l b s
      else count ldtCrcErrR 1 (modCmd (fun c => { c with ldtBad := c.ldtBad ++ [l] }) s)
    | none => count ldtCrcErrR 1 (modCmd (fun c => { c with ldtBad := c.ldtBad ++ [l] }) s)
/-- DEDUCED: log 58. -/
def execLdtCacheFill (l : Pair) (data : Option (List Byte)) (s : State) : Out State := .next (ldtArrived l.toNat data s)

/-- SLOT_FETCH_DONE (R427): a read of host memory completes, or fails. -/
def hostReadDone (r : HostRead) (data : Option (List Byte)) (s : State) : State :=
  match r with
  | .slot e => slotArrived e.toNat data s
  | .params e => paramsArrived e.toNat data s
  | .ldt l => ldtArrived l.toNat data s
def execSlotFetchDone (r : HostRead) (data : Option (List Byte)) (s : State) : Out State := .next (hostReadDone r data s)
/-- HOST_READ_COMPLETION_TIMEOUT (R427): the read is a host memory error. DEDUCED: log 14. -/
def execHostReadCompletionTimeout (r : HostRead) (s : State) : Out State := .next (hostReadDone r none s)

/-! ### Completion -/

/-- STATUS_SLOT_WRITE (R320, R321): the oldest waiting completion of the ring is written: its result first, then the
32-byte status slot; TAIL and PHASE advance and the engine tag is free. DEDUCED: log 18. -/
def statusSlotWrite (n : Nat) (s : State) : State :=
  match s.cmd.done.find? (fun c => pathCq s c.cmd.path == some n) with
  | none => s
  | some c =>
    if !cqEnabled s n || cqFull s n || !dmaOk s then s
    else
      let tail := cqTail s n
      let phase := rdB s (cqBase n + 0xC) 12
      let s := if c.result.length ≤ 16 then s else hostWriteBy 5 c.cmd.buf.toNat c.result s
      let s := hostWriteBy 5 (rdWide s (cqBase n) + 32 * tail) (statusSlot c.cmd.tag phase c.status c.result c.cmd.buf) s
      let next := (tail + 1) % cqSize s n
      let s := wrF (cqBase n + 0xC) 11 0 next (wrB (cqBase n + 0xC) 12 (if next = 0 then !phase else phase) s)
      let s := modCmd (fun x => { x with done := x.done.filter (fun d => d.etag != c.etag) }) s
      let s := if c.cmd.notify then
          raiseMsix (rdF s (cqBase n + 8) 12 4) (modCmd (fun x => { x with unraised := x.unraised.filter (fun q => q != n) }) s)
        else if s.cmd.unraised.contains n then s
        else modCmd (fun x => { x with unraised := x.unraised ++ [n] }) s
      cqStalls n s
def execStatusSlotWrite (n : Ring) (s : State) : Out State := .next (statusSlotWrite n.toNat s)

/-- Distance from one ring index to another. -/
def ringDist (size a b : Nat) : Nat := (b + size - a) % size

/-- Write of CQ_HEAD_DB (R320). -/
def cqHeadWrite (n : Nat) (v : Word) (s : State) : State :=
  let h := fieldGet v 11 0
  let bad (code : Nat) : State :=
    ringError 1 n code (wrF (cqBase n + 0xC) 23 16 code (wrB (cqBase n + 0xC) 14 true s))
  if !cqEnabled s n then accessError .pcie (cqHeadDb n) 0xB true s
  else if cqSize s n ≤ h then bad 0x01
  else if ringDist (cqSize s n) (cqHead s n) (cqTail s n) < ringDist (cqSize s n) (cqHead s n) h then bad 0x03
  else doorbellWake (cqStalls n (wr (cqHeadDb n) (BitVec.ofNat 32 h) s))

/-- CQ_COALESCE_EXPIRY (R321). -/
def coalesceExpiry (n : Nat) (s : State) : State :=
  if s.cmd.unraised.contains n && rdF s (cqBase n + 8) 31 16 != 0 then
    raiseMsix (rdF s (cqBase n + 8) 12 4) (modCmd (fun x => { x with unraised := x.unraised.filter (fun q => q != n) }) s)
  else s
def execCqCoalesceExpiry (n : Ring) (s : State) : Out State := .next (coalesceExpiry n.toNat s)

/-! ### Ring configuration (R318) -/

/-- A write that R318 refuses is dropped whole and logged with cause RING_CONFIG. DEDUCED: log 16. -/
def ringRefuse (v : View) (a : Nat) (s : State) : State := accessError v a 0xB true s

def log2Ok (w : Word) : Bool := decide (4 ≤ fieldGet w 3 0 ∧ fieldGet w 3 0 ≤ 12)

/-- Write of a BASE register of a ring: only while the ring is disabled. -/
def ringBaseWrite (enabled : Bool) (v : View) (a : Nat) (w mask : Word) (s : State) : State :=
  let new := w &&& mask
  if enabled && new != rd s a then ringRefuse v a s else wr a new s

/-- Write of SQ_CFG (R318): enabling sets HEAD to 0 and clears ERROR. DEDUCED: log 16. DEDUCED: log 17. -/
def sqCfgWrite (v : View) (n : Nat) (w : Word) (s : State) : State :=
  let a := sqBase n + 8
  let new := w &&& 0xBFFF
  let old := rd s a
  if new = old then s
  else if bitGet old 15 then
    if (new ^^^ old) &&& 0x7FFF ≠ 0 then ringRefuse v a s else wr a new s
  else if !log2Ok new then ringRefuse v a s
  else if bitGet new 15 then
    if !cqEnabled s (fieldGet new 9 4) then ringRefuse v a s
    else wr (sqTailDb n) 0 (wr (sqBase n + 0xC) 0 (wr a new s))
  else wr a new s

/-- A completion ring that an enabled SQ is bound to, or that a command in flight will complete to (R318). -/
def cqBusy (s : State) (n : Nat) : Bool :=
  (List.range 64).any (fun q => sqEnabled s q && sqCq s q == n)
    || s.cmd.inflight.any (fun f => !f.orphan && pathCq s f.cmd.path == some n)
    || s.cmd.done.any (fun c => pathCq s c.cmd.path == some n)

/-- Write of CQ_CFG (R318, R320): enabling sets TAIL to 0 and PHASE to 1. DEDUCED: log 16. -/
def cqCfgWrite (v : View) (n : Nat) (w : Word) (s : State) : State :=
  let a := cqBase n + 8
  let new := w &&& 0xFFFF9FFF
  let old := rd s a
  if new = old then s
  else if bitGet old 15 then
    if (new ^^^ old) &&& 0xFFFF7FFF ≠ 0 then ringRefuse v a s
    else if cqBusy s n then ringRefuse v a s else wr a new s
  else if !log2Ok new then ringRefuse v a s
  else if bitGet new 15 then
    wr (cqHeadDb n) 0 (wrF (cqBase n + 0xC) 11 0 0 (wrB (cqBase n + 0xC) 12 true (wr a new s)))
  else wr a new s

/-- Write of LDT_CTL (R338): clearing ENABLE invalidates the whole cache. -/
def ldtCtlWrite (w : Word) (s : State) : State :=
  let s := wr ldtCtlR (w &&& 1) s
  if bitGet w 0 then s else modCmd (fun c => { c with ldtSets := [], ldtFills := [], ldtBad := [] }) s

/-- Write of LDT_BASE (R338): only while ENABLE is 0; the drop is logged with cause RING_CONFIG. -/
def ldtBaseWrite (v : View) (a : Nat) (w mask : Word) (s : State) : State :=
  ringBaseWrite (ldtEnabled s) v a w mask s

/-! ### The mailbox (R333, R435) -/

/-- Write of MAILBOX_CTL: COLLIDE, VECTOR, and GO, which is dropped while BUSY is 1. -/
def mailboxCtlWrite (serial : Bool) (w : Word) (s : State) : State :=
  let s := wrF mailboxCtlR 24 16 (fieldGet w 24 16) s
  let s := if bitGet w 3 then wrB mailboxCtlR 3 false s else s
  if !bitGet w 0 then s
  else if rdB s mailboxCtlR 1 then wrB mailboxCtlR 3 true s
  else
    let s := modCmd (fun c => { c with mboxMute := false }) (wrB mailboxCtlR 1 true (wrB mailboxCtlR 2 false (wrB mailboxCtlR 4 serial s)))
    let s := if serial then [74, 73].foldl (fun s d => beginWake d s) s else doorbellWake s
    if tagsFree s = 0 then fetchPause (modCmd (fun c => { c with mboxWaits := true }) s)
    else mailboxStart (if serial then .mboxSerial else .mboxPcie) s
def execMailboxGo (serial : Bool) (w : Word) (s : State) : Out State :=
  .next (if s.mode ≠ .running then s else mailboxCtlWrite serial w s)

/-- Write of one word of the mailbox buffer: dropped with COLLIDE while BUSY is 1. -/
def mailboxBufWrite (o : Nat) (w : Word) (s : State) : State :=
  if rdB s mailboxCtlR 1 then wrB mailboxCtlR 3 true s
  else modCmd (fun c => { c with mailbox := putBytes0 c.mailbox (o % 0x1000 / 4 * 4) (leBytes 4 w.toNat) }) s
/-- DESIGN CHOICE: log 21. -/
def execMailboxBufferWrite (word : BitVec 10) (w : Word) (s : State) : Out State :=
  .next (if s.mode ≠ .running then s else mailboxBufWrite (4 * word.toNat) w s)

/-- MBOX_WDATA (R435): the word goes to MBOX_WPTR, which advances in any case. -/
def mboxWdata (w : Word) (s : State) : State :=
  let s := mailboxBufWrite s.cmd.mboxWptr w s
  modCmd (fun c => { c with mboxWptr := (c.mboxWptr + 4) % 0x1000 }) s
/-- DESIGN CHOICE: log 21. -/
def execMboxWdata (w : Word) (s : State) : Out State :=
  .next (if s.mode ≠ .running then s else mboxWdata w s)

/-- MBOX_RDATA (R435): the word at MBOX_RPTR, which advances. -/
def mboxRdata (s : State) : Word × State :=
  (BitVec.ofNat 32 (leNat (getBytes s.cmd.mailbox s.cmd.mboxRptr 4)),
   modCmd (fun c => { c with mboxRptr := (c.mboxRptr + 4) % 0x1000 }) s)
/-- DESIGN CHOICE: log 21. -/
def execMboxRdata (s : State) : Out State :=
  .next (if s.mode ≠ .running then s else emit (.readData .serial (mboxRdata s).1 false) (mboxRdata s).2)

/-! ### The event ring (R471 to R474) -/

def evtSize (s : State) : Nat := 2 ^ rdF s evtRingCfgR 4 0
def evtTail (s : State) : Nat := rdF s evtRingStatusR 15 0
def evtHead (s : State) : Nat := rdF s evtHeadDb 15 0
def evtFull (s : State) : Bool := (evtTail s + 1) % evtSize s == evtHead s

/-- Each enable restarts the ring (R471). -/
def evtRestart (s : State) : State :=
  wr evtHeadDb 0 (wr evtRingStatusR 0x10000 { s with evt := { s.evt with outstanding := false } })

/-- Write of the event ring head doorbell (R471, R473). -/
def evtHeadWrite (w : Word) (s : State) : State :=
  let h := fieldGet w 15 0
  let bad (code : Nat) : State := ringError 2 0 code (wrB evtRingStatusR 18 true s)
  if !ringEnabled s then accessError .pcie evtHeadDb 0xB true s
  else if evtSize s ≤ h then bad 0x01
  else if ringDist (evtSize s) (evtHead s) (evtTail s) < ringDist (evtSize s) (evtHead s) h then bad 0x03
  else
    let s := wr evtHeadDb (BitVec.ofNat 32 h) { s with evt := { s.evt with outstanding := false } }
    doorbellWake (wrB evtRingStatusR 17 (evtFull s) s)

/-- Write of a register of the event ring (R471). `off` is 0x00 or 0x04 for BASE and 0x08 for EVT_RING_CFG. DEDUCED: log 16. -/
def evtCfgWrite (v : View) (off : Nat) (w : Word) (s : State) : State :=
  let a := evtBaseLoR + off
  let on := ringEnabled s
  if off = 0 ∨ off = 4 then
    let new := if off = 0 then w &&& 0xFFFFF000 else w
    if on && new != rd s a then accessError v a 0xB true s else wr a new s
  else if off = 8 then
    let n := fieldGet w 4 0
    let cur := rdF s a 4 0
    let reserved := (1 ≤ n ∧ n ≤ 3) ∨ 17 ≤ n
    let vec := fieldGet w 16 8
    if reserved then
      let s := accessError v a 0x8 true s
      if on then (if vec ≠ rdF s a 16 8 then accessError v a 0xB true s else s) else wrF a 16 8 vec s
    else if on then
      let s := if vec ≠ rdF s a 16 8 ∨ (n ≠ 0 ∧ n ≠ cur) then accessError v a 0xB true s else s
      if n = 0 then wrF a 4 0 0 s else s
    else
      let s := wrF a 16 8 vec s
      if n = 0 then s else evtRestart (wrF a 4 0 n s)
  else s

/-- The 32 bytes of a record (R468). -/
def evBytes (r : EvRec) (phase gap : Bool) : List Byte :=
  leBytes 4 r.seq.toNat ++ leBytes 2 r.code.toNat ++ leBytes 2 r.unit.toNat ++ leBytes 8 r.time.toNat ++ r.data
    ++ leBytes 1 (r.code.toNat / 256) ++ leBytes 1 r.origin.toNat ++ zeros 1
    ++ leBytes 1 (b2n phase + 2 * b2n r.logged + 4 * b2n gap) ++ zeros 4

/-- The link whose EVENT_MASK an event answers to: that of its link or pair (R471); none for other units and for a
worker's event. -/
def maskLink (s : State) (r : EvRec) : Option Nat :=
  let u := r.unit.toNat
  if u / 4096 = 4 ∧ !(r.origin.getLsbD 6) then
    if isLink s (u % 4096) then some (u % 4096) else linkOfPair s (u % 4096)
  else none

/-- What EVENT_MASK says of a record: deliver, withhold, or wait for the entry (R337, R339). -/
inductive MaskVerdict where
  | deliver | withhold | wait
deriving DecidableEq, Repr

def maskVerdict (s : State) (r : EvRec) : MaskVerdict :=
  match maskLink s r with
  | none => .deliver
  | some l =>
    if !ldtEnabled s then .deliver
    else if s.cmd.ldtBad.contains l then .deliver
    else match ldtFind s l with
      | some b => if (leAt b 0x20 8).testBit (r.code.toNat / 256) then .withhold else .deliver
      | none => .wait

/-- The use of the cached entry that a delivery makes: it is counted, and a bad fill is used up. -/
def maskUse (r : EvRec) (s : State) : State :=
  match maskLink s r with
  | none => s
  | some l =>
    if s.cmd.ldtBad.contains l then modCmd (fun c => { c with ldtBad := c.ldtBad.filter (fun x => x != l) }) s
    else if s.cmd.ldtFills.contains l then s else ldtUse l s

/-- Write a record into the host event ring, and raise its vector when none is outstanding (R471, R473). -/
def evtWrite (r : EvRec) (s : State) : State :=
  let t := evtTail s
  let phase := rdB s evtRingStatusR 16
  let s := hostWriteBy 6 (rdWide s evtBaseLoR + 32 * t) (evBytes r phase s.evt.gap) s
  let s := perfCount 0 1 { code := 0xA, unit := some r.unit } s
  let next := (t + 1) % evtSize s
  let s := wrF evtRingStatusR 15 0 next (wrB evtRingStatusR 16 (if next = 0 then !phase else phase) s)
  let s := wrB evtRingStatusR 17 (evtFull s) { s with evt := { s.evt with gap := false } }
  if s.evt.outstanding then s
  else raiseMsix (rdF s evtRingCfgR 16 8) { s with evt := { s.evt with outstanding := true } }

/-- EVENT_RECORD_DELIVERY (R471, R472): the oldest staged record. -/
def evtDeliver (s : State) : State :=
  match s.evt.staging with
  | [] => s
  | r :: rest =>
    if !ringEnabled s || !dmaOk s then s
    else
      let gone (s : State) : State := { s with evt := { s.evt with staging := rest } }
      if !maskBit s evtClassLoR (r.code.toNat / 256) then gone s
      else match maskVerdict s r with
        | .wait => maskUse r s
        | .withhold => gone (maskUse r s)
        | .deliver => if evtFull s then gone (ringDrop (maskUse r s)) else gone (evtWrite r (maskUse r s))
def execEventRecordDelivery (s : State) : Out State := .next (evtDeliver s)

/-- The supervisor core is halted: no MRAM write, no restart and no power transition (R387). -/
def supHalted (s : State) : Bool := rdB s fwStateR 4

/-- EVENT_LOG_WRITE (R309, R314, R474): the oldest buffered record goes to the MRAM log, which holds 32,768. -/
def logWrite (s : State) : State :=
  match s.evt.logBuf with
  | [] => s
  | r :: rest =>
    if domState s 79 ≠ 0 ∨ !rdB s clkEnR 4 ∨ mramHold s ∨ supHalted s then s
    else
      let log := if s.evt.log.length < 32768 then s.evt.log ++ [r] else s.evt.log.drop 1 ++ [r]
      { s with evt := { s.evt with logBuf := rest, log := log } }
def execEventLogWrite (s : State) : Out State := .next (logWrite s)

end Sys2Proof.Machine
end

