-- ==== Sys2Proof/Machine/Line.lean ====
section
/-! DEFINITION. The line's codes and messages: CRC-8, row headers, slate messages, beacons, the wrap-safe compare, and
the accessors of pairs, ports and links (chapters 02, 05, 06). -/
namespace Sys2Proof.Machine

/-! ### Accessors -/

def pairOf (s : State) (l : Nat) : PairSt := tabGet {} s.pairs l
def putPair (l : Nat) (x : PairSt) (s : State) : State := { s with pairs := tabPut {} s.pairs l x }
def modPair (l : Nat) (f : PairSt → PairSt) (s : State) : State := putPair l (f (pairOf s l)) s
def portOf (s : State) (p : Nat) : PortSt := tabGet {} s.ports p
def modPort (p : Nat) (f : PortSt → PortSt) (s : State) : State := { s with ports := tabPut {} s.ports p (f (portOf s p)) }
def synOf (s : State) (i : Nat) : SynSt := tabGet {} s.syns i
def modSyn (i : Nat) (f : SynSt → SynSt) (s : State) : State := { s with syns := tabPut {} s.syns i (f (synOf s i)) }
def laneOf (s : State) (n : Nat) : LaneSt := tabGet {} s.lanes n
def modLane (n : Nat) (f : LaneSt → LaneSt) (s : State) : State := { s with lanes := tabPut {} s.lanes n (f (laneOf s n)) }

/-- Apply an update for each of a list of numbers. -/
def each (l : List Nat) (f : Nat → State → State) (s : State) : State := l.foldl (fun s n => f n s) s

/-- The numbers k to k + 7. -/
def eight (k : Nat) : List Nat := (List.range 8).map (fun n => k + n)

/-- The pairs of a mask on the port of a link. -/
def maskPairs (l : Nat) (m : BitVec 8) : List Nat :=
  ((List.range 8).filter (fun k => m.getLsbD k)).map (fun k => l / 8 * 8 + k)

/-- The configured links of a port. -/
def portLinks (s : State) (p : Nat) : List Nat := (eight (8 * p)).filter (fun l => isLink s l)

/-- The pairs that a link's acquisition and traffic use: those of its resolved mode, else all of its own. -/
def activePairs (s : State) (l : Nat) : List Nat :=
  let x := linkOf s l
  maskPairs l (if x.runMode = 0 then x.mask else x.runMask)

/-- The mode a link runs: the resolved one, else the configured one. -/
def modeOf (s : State) (l : Nat) : Nat := if (linkOf s l).runMode = 0 then (linkOf s l).mode else (linkOf s l).runMode

def isFdx (m : Nat) : Bool := m == 1 || m == 2 || m == 4 || m == 8
def isCompat (m : Nat) : Bool := m == 0x11 || m == 0x12 || m == 0x14

/-- States in which a link carries line signals of its own (TRAIN or UP). -/
def trainOrUp (x : LState) : Bool := x == .train || x == .up

/-- Whether a pair's link is in a state. -/
def pairLinkIn (s : State) (l : Nat) (f : LState → Bool) : Bool :=
  (linkOfPair s l).any (fun m => f (linkOf s m).state)

def pairUnit (l : Nat) : BitVec 16 := unitLink l

/-- PAIR_SWAP of a port (R410). -/
def pairSwap (s : State) (p : Nat) : Bool := rdB s (portBase p) 0

/-- The operator firmware has switched the line domain of a pair to its port synthesizer: until then the pair carries no link
(R20, R301). -/
def lineOn (s : State) (l : Nat) : Bool := (pairOf s l).onSyn

/-- FROZEN of a pair's port: its line domain stands still, and its pairs transmit zero output (R240, R256, R291). -/
def lineFrozen (s : State) (l : Nat) : Bool := rdB s (tileClkStatusR (l / 64)) (8 + l / 8 % 8)
/-- The line domain of a pair runs: its power domain is in RUN, and it is on the port synthesizer, which is not stopped. -/
def lineRuns (s : State) (l : Nat) : Bool := lineOn s l && !lineFrozen s l && domState s (l / 8) == 0
/-- A signal on a line wakes a port that is below RUN and has a link with AUTO_RELINK armed (R307). -/
def lineWake (l : Nat) (s : State) : State :=
  if s.mode = .running ∧ (portLinks s (l / 8)).any (fun m => (linkOf s m).pol.flags.getLsbD 0) = true then beginWake (l / 8) s else s
/-- A policy timer that falls due wakes the operator cores (R307). -/
def timerWake (s : State) : State := if s.mode = .running then beginWake 73 s else s

/-! ### Wrap-safe comparison (R50) -/

/-- x lies in the future of c. -/
def sfFuture (x c : Word) : Bool := x != c && decide ((x - c).toNat < 2 ^ 31)
/-- x is c or lies in its past. -/
def sfReached (x c : Word) : Bool := !sfFuture x c
/-- The difference x − c, for an x that is not in the past. -/
def sfDiff (x c : Word) : Nat := (x - c).toNat
/-- The first odd-numbered superframe after c (R112). -/
def nextOdd (c : Word) : Word := if bitGet c 0 then c + 2 else c + 1

/-! ### CRC-8 of R38 -/

def crc8Step (c : BitVec 8) (b : Bool) : BitVec 8 :=
  let fb := c.getLsbD 7 ^^ b
  if fb then (c <<< 1) ^^^ 0x07 else c <<< 1
def crc8 (bits : List Bool) : BitVec 8 := bits.foldl crc8Step 0xFF
/-- Bits lo to hi of a number, lowest first. -/
def bitList (n lo hi : Nat) : List Bool := (List.range (hi + 1 - lo)).map (fun i => n.testBit (lo + i))

/-! ### Row headers (R38) -/

/-- One copy of bits [33:0]. -/
def headerCopy (f r k : Nat) : Nat :=
  let low := f + r * 2 ^ 8 + k * 2 ^ 22
  low + (crc8 (bitList low 0 25)).toNat * 2 ^ 26
/-- The information bits of a row header. -/
def rowHeader (f r k : Nat) (absent lpi underrun : Bool) : BitVec 120 :=
  let c := headerCopy f r k
  let flags := b2n absent + 2 * b2n lpi + 4 * b2n underrun
  BitVec.ofNat 120 (c + c * 2 ^ 34 + c * 2 ^ 68 + flags * 2 ^ 102 + (crc8 (bitList flags 0 5)).toNat * 2 ^ 108)

/-- The fill count and row number of the first copy whose CRC checks and whose values are not reserved (R42). -/
def headerRead (h : BitVec 120) : Option (Nat × Nat) :=
  let copy (i : Nat) : Nat := bitsOf h.toNat (34 * i + 33) (34 * i)
  let good (c : Nat) : Bool :=
    (crc8 (bitList c 0 25)).toNat == bitsOf c 33 26 && bitsOf c 7 0 != 255 && decide (bitsOf c 21 8 ≤ 8223)
  (([copy 0, copy 1, copy 2]).find? good).map (fun c => (bitsOf c 7 0, bitsOf c 21 8))
/-- The flags STREAM_ABSENT, HOST_LPI and UNDERRUN, when CRC_F checks. -/
def headerFlags (h : BitVec 120) : Option (Bool × Bool × Bool) :=
  if (crc8 (bitList h.toNat 102 107)).toNat = bitsOf h.toNat 115 108 then
    some (h.getLsbD 102, h.getLsbD 103, h.getLsbD 104)
  else none

/-- The scrambler state at row 0 of a superframe: 1, k, SF[18:0] (R41). -/
def scramblerSeed (k : Nat) (sf : Word) : BitVec 23 := BitVec.ofNat 23 (2 ^ 22 + k % 8 * 2 ^ 19 + sf.toNat % 2 ^ 19)

/-- One step of the scrambler x^23 + x^18 + 1: its output bit and its next state. -/
def scramblerStep (x : BitVec 23) : Bool × BitVec 23 :=
  let b := x.getLsbD 22 ^^ x.getLsbD 17
  (b, (x <<< 1) ||| BitVec.ofNat 23 (b2n b))

/-! ### Slate (R32, R33, R45, R46) -/

def syncWord : BitVec 64 := 0xF3A50C6E91D7284B

/-- The first `n` output bits of the PRBS13 generator of R33 from a state. -/
def prbs13 (st : Nat) : Nat → List Bool
  | 0 => []
  | n + 1 =>
    let b := (st.testBit 0 ^^ st.testBit 1) ^^ (st.testBit 11 ^^ st.testBit 12)
    b :: prbs13 ((2 * st + b2n b) % 8192) n
def prbs13Seed : Nat := 0x1FFF

/-- PAM4 level of two bits (R30). -/
def pam4 (msb lsb : Bool) : Int := if msb then (if lsb then 1 else 3) else (if lsb then -1 else -3)

/-- A slate message of a type and payload bits [55:4], with its CRC. -/
def slateMsg (ty payload : Nat) : BitVec 64 :=
  let low := ty + payload % 2 ^ 52 * 16
  BitVec.ofNat 64 (low + (crc8 (bitList low 0 55)).toNat * 2 ^ 56)
def slateCrcOk (m : BitVec 64) : Bool := (crc8 (bitList m.toNat 0 55)).toNat == bitsOf m.toNat 63 56
def slateType (m : BitVec 64) : Nat := bitsOf m.toNat 3 0
def slateField (m : BitVec 64) (hi lo : Nat) : Nat := bitsOf m.toNat hi lo
def slateSf (m : BitVec 64) : Word := BitVec.ofNat 32 (slateField m 35 4)

/-- COUNT: SF_NUM, ROLE, TIMING, CHAIN_LOCKED, PAIR, STATE, MODE, ACTIVE_SLOT. -/
def countMsg (sf : Word) (slave locked chain : Bool) (k st mode slot : Nat) : BitVec 64 :=
  slateMsg 1 (sf.toNat + b2n slave * 2 ^ 32 + b2n locked * 2 ^ 33 + b2n chain * 2 ^ 34 + k * 2 ^ 35 + st * 2 ^ 38
    + mode % 16 * 2 ^ 40 + slot % 8 * 2 ^ 44)
def noticeMsg (c : Cut) : BitVec 64 :=
  slateMsg 2 (c.sf.toNat + c.seq * 2 ^ 32 + b2n c.txChange * 2 ^ 36 + b2n c.join * 2 ^ 37)
def ackMsg (a : Answer) : BitVec 64 := slateMsg 3 (a.sf.toNat + a.seq * 2 ^ 32 + b2n a.accept * 2 ^ 36)
def identMsg (hi : Bool) (port : Nat) : BitVec 64 :=
  slateMsg (if hi then 5 else 4) ((if hi then Config.serial.toNat / 2 ^ 32 else Config.serial.toNat % 2 ^ 32) + port * 2 ^ 32)
/-- QUIET: KIND 1 REQUEST, 2 GRANT, 3 REFUSE; ENTRY_SF; REFRESH (R175). -/
def quietMsg (kind : Nat) (sf : Word) (refresh : Nat) : BitVec 64 :=
  slateMsg 6 (kind + sf.toNat * 4 + refresh * 2 ^ 34)

/-! ### Beacons (R147) -/

def crc16Step (c : Nat) (b : Bool) : Nat :=
  let fb := c.testBit 15 ^^ b
  (2 * c % 65536) ^^^ (if fb then 0x1021 else 0)
/-- CRC-16 over b[127:16], taken from b[127] downward. -/
def beaconCrc (b : Nat) : Nat := ((bitList b 16 127).reverse).foldl crc16Step 0xFFFF
def beaconOk (b : BitVec 128) : Bool := beaconCrc b.toNat == bitsOf b.toNat 15 0 && bitsOf b.toNat 127 112 == 0xF2C5

/-! ### Logarithms -/

/-- The largest e in [lo, lo + 2^n) for which a predicate that is true up to some point holds; lo at least. -/
def bisect (p : Int → Bool) : Nat → Int → Int
  | 0, lo => lo
  | n + 1, lo => let mid := lo + 2 ^ n; if p mid then bisect p n mid else bisect p n lo

/-- round(k · log10(num / den)) within ±2^17, halves upward: the largest e with 10^(2e − 1) ≤ (num / den)^(2k). DEDUCED: log 49. -/
def roundLog (k num den : Nat) : Int :=
  bisect (fun e =>
    if 0 < 2 * e - 1 then decide (10 ^ (2 * e - 1).toNat * den ^ (2 * k) ≤ num ^ (2 * k))
    else decide (den ^ (2 * k) ≤ num ^ (2 * k) * 10 ^ (1 - 2 * e).toNat)) 18 (-131072)

/-- Round a quotient to the nearest integer, halves away from zero. DEDUCED: log 49. -/
def roundDiv (a : Int) (b : Nat) : Int :=
  if 0 ≤ a then ((2 * a + b) / (2 * b) : Int) else -((2 * (-a) + b) / (2 * b) : Int)

end Sys2Proof.Machine
end

