-- ==== Sys2Proof/Machine/TakeFormat.lean ====
section
/-! DEFINITION. The take format and the take loader's checks (R63, R78, R86 to R101). A take is 4,096 bytes. -/
namespace Sys2Proof.Machine

/-! ### Fields -/

def tkMode (t : List Byte) : Nat := leAt t 0xA 1
def tkRate (t : List Byte) : Nat := leAt t 0xB 1
def tkDir (t : List Byte) : Nat := leAt t 0xC 1
def tkSource (t : List Byte) : Nat := leAt t 6 1
def tkTempGrade (t : List Byte) : Int := signed 16 (leAt t 0xE 2)
def tkSfCreated (t : List Byte) : Nat := leAt t 0x10 4
def tkId (t : List Byte) : Nat := leAt t 0x14 4
def tkTime (t : List Byte) : Nat := leAt t 0x18 8
def tkPartnerSerial (t : List Byte) : Nat := leAt t 0x20 8
def tkPartnerPort (t : List Byte) : Nat := leAt t 0x28 1
def tkAdcPhase (t : List Byte) : Nat := leAt t 0x60 1
def tkSnrPred (t : List Byte) : Nat := leAt t 0x860 2
def tkRetakeErr (t : List Byte) : Nat := leAt t 0x864 2
def tkClusters (t : List Byte) : Nat := leAt t 0x866 1
/-- The transmit block, bytes 0x040 to 0x04F: what R111 compares. -/
def tkTransmit (t : List Byte) : List Byte := (t.drop 0x40).take 16
/-- Signed 16-bit values from an offset. -/
def s16s (t : List Byte) (o n : Nat) : List Int := (List.range n).map (fun i => signed 16 (leAt t (o + 2 * i) 2))

/-- The CRC of R87: over the whole image with the CRC field taken as 0. -/
def takeCrc (t : List Byte) : Nat := crc32 (t.take 0x3C ++ zeros 4 ++ (t.drop 0x40).take 0xFC0)

/-- The modes of R88 and their families. -/
def isFdxMode (m : Nat) : Bool := m == 1 || m == 2 || m == 4 || m == 8
def isCompatMode (m : Nat) : Bool := m == 0x11 || m == 0x12 || m == 0x14

/-- Where the field that holds a byte starts (R101): an element of an array is a field of its own, and a run of
reserved bytes is one field. -/
def fieldStart (o : Nat) : Nat :=
  if o = 9 then 8
  else if 0x29 ≤ o ∧ o < 0x3C then 0x29
  else if 0x40 ≤ o ∧ o < 0x50 then o / 2 * 2
  else if o < 0x55 then o
  else if o < 0x60 then 0x55
  else if o < 0x6C then o / 2 * 2
  else if o < 0x6E then o
  else if o < 0x72 then o / 2 * 2
  else if o < 0x80 then 0x72
  else if o < 0x180 then o / 4 * 4
  else if o < 0x4C0 then
    let e := (o - 0x180) / 0x68 * 0x68 + 0x180
    if o - e < 2 then e else if o - e < 8 then e + 2 else o / 2 * 2
  else if o < 0x540 then o / 2 * 2
  else if o < 0x71C then
    let e := (o - 0x540) / 0x44 * 0x44 + 0x540
    if o - e < 2 then e else if o - e < 4 then e + 2 else o / 2 * 2
  else if o < 0x740 then 0x71C
  else if o < 0x7CC then
    let e := (o - 0x740) / 0x14 * 0x14 + 0x740
    if o - e < 2 then o else if o - e < 4 then e + 2 else o / 2 * 2
  else if o < 0x7E0 then 0x7CC
  else if o < 0x820 then o / 2 * 2
  else if o < 0x860 then o / 4 * 4
  else o

/-- The field of the first nonzero byte of a region. -/
def firstNonzero (t : List Byte) (o n : Nat) : Option Nat :=
  ((List.range n).find? (fun i => byteAt t (o + i) != 0)).map (fun i => fieldStart (o + i))

/-- Reserved bits of the take outside the notes, byte by byte: the byte's mask of reserved bits (R88 to R98). -/
def reservedMask (o : Nat) : Nat :=
  if o = 7 then 0xFF
  else if o = 9 then 0xFE
  else if o = 0x28 then 0xC0
  else if 0x29 ≤ o ∧ o < 0x3C then 0xFF
  else if o = 0x4D then 0xF8
  else if o = 0x4E then 0xFE
  else if o = 0x4F then 0xFF
  else if o = 0x53 then 0xC0
  else if 0x55 ≤ o ∧ o < 0x60 then 0xFF
  else if o = 0x61 then 0xFF
  else if o = 0x62 then 0xC0
  else if o = 0x63 then 0xFF
  else if o = 0x6C then 0xE0
  else if o = 0x6D then 0xF8
  else if o = 0x6F then 0xFF
  else if o = 0x70 then 0x08
  else if o = 0x71 then 0xFE
  else if 0x72 ≤ o ∧ o < 0x80 then 0xFF
  else if 0x180 ≤ o ∧ o < 0x4C0 then
    let e := (o - 0x180) % 0x68
    if e = 1 then 0x70 else if 2 ≤ e ∧ e < 8 then 0xFF else 0
  else if 0x540 ≤ o ∧ o < 0x71C then
    let e := (o - 0x540) % 0x44
    if e = 1 then 0x7F else if e = 2 ∨ e = 3 then 0xFF else 0
  else if 0x71C ≤ o ∧ o < 0x740 then 0xFF
  else if 0x740 ≤ o ∧ o < 0x7CC then
    let e := (o - 0x740) % 0x14
    if e = 1 then 0xFE else if e = 2 ∨ e = 3 then 0xFF else 0
  else if 0x7CC ≤ o ∧ o < 0x7E0 then 0xFF
  else if 0x854 ≤ o ∧ o < 0x860 then 0xFF
  else 0

/-- Check 0x07: the first reserved field that is not 0. -/
def reservedFault (t : List Byte) : Option Nat :=
  ((List.range 0x860).find? (fun o => (byteAt t o).toNat &&& reservedMask o != 0)).map fieldStart

/-- Echo window w: WSTART and WEN (R93). -/
def winStart (t : List Byte) (w : Nat) : Nat := leAt t (0x180 + 0x68 * w) 2 % 4096
def winOn (t : List Byte) (w : Nat) : Bool := (leAt t (0x180 + 0x68 * w) 2).testBit 15

/-- Check 0x08: the first field out of its range (R63, R66 to R79, R91). DESIGN CHOICE, log 150: a TX_FIR sum above 2^14 is reported at the
first tap, and of two thresholds out of order the lower one is the offending field. -/
def rangeFault (t : List Byte) : Option Nat :=
  let fdx := tkRate t == 1
  let rx := tkDir t != 1
  let thr := s16s t 0x64 3
  let lo := thr.getD 0 0
  let mid := thr.getD 1 0
  let hi := thr.getD 2 0
  let dec := leAt t 0x70 2
  let ntest := dec % 8
  let llr := dec / 16 % 16
  let decBad := decide (6 < ntest) || (if fdx then dec.testBit 8 || llr == 0 else ntest != 0 || llr != 0)
  let tests : List (Nat × Bool) :=
    [ (0x006, decide (2 < tkSource t)),
      (0x00D, decide (3 < leAt t 0xD 1)),
      (0x040, decide (16384 < ((s16s t 0x40 6).map Int.natAbs).sum)),
      (0x04C, decide (1024 < leAt t 0x4C 2 % 2048)),
      (0x04E, fdx && (leAt t 0x4E 2).testBit 0),
      (0x064, rx && decide (mid ≤ lo)),
      (0x066, rx && decide (hi ≤ mid)),
      (0x070, decBad) ]
    ++ (List.range 8).map (fun w => (0x180 + 0x68 * w,
        if winOn t w then decide (winStart t w < 64 ∨ 4048 < winStart t w) else winStart t w != 0))
    ++ (List.range 7).map (fun a => (0x540 + 0x44 * a, decide (224 < leAt t (0x540 + 0x44 * a) 1)))
    ++ (List.range 7).map (fun a => (0x740 + 0x14 * a, decide (120 < signed 8 (leAt t (0x740 + 0x14 * a) 1))))
  (tests.find? (fun x => x.2)).map Prod.fst

/-- Check 0x09: the enabled windows fill entries 0 to n − 1 in increasing order, 48 apart, and every disabled entry
of the three tables is zero (R94, R96). DESIGN CHOICE, log 150: a window that breaks the order or follows a gap is itself the offending
entry. DEDUCED: log 133. -/
def windowFault (t : List Byte) : Option Nat :=
  let win (w : Nat) : Option Nat :=
    let o := 0x180 + 0x68 * w
    if winOn t w then
      if w ≠ 0 ∧ (!winOn t (w - 1) ∨ winStart t w < winStart t (w - 1) + 48) then some o else none
    else firstNonzero t o 0x68
  let next (a : Nat) : Option Nat :=
    let o := 0x540 + 0x44 * a
    if (leAt t o 2).testBit 15 then none else firstNonzero t o 0x44
  let fext (a : Nat) : Option Nat :=
    let o := 0x740 + 0x14 * a
    if (leAt t (o + 1) 1).testBit 0 then none else firstNonzero t o 0x14
  (((List.range 8).map win ++ (List.range 7).map next ++ (List.range 7).map fext).find? Option.isSome).join

/-- Check 0x0A: the unused part of a one-direction take is zero. -/
def directionFault (t : List Byte) : Option Nat :=
  if tkDir t = 1 then firstNonzero t 0x50 0x7D0
  else if tkDir t = 2 then
    match firstNonzero t 0x40 16 with
    | some o => some o
    | none => firstNonzero t 0x180 0x3C0
  else none

/-- The quantities that bounds block b covers (R98). -/
def boundsValues (t : List Byte) (b : Nat) : List Int :=
  let trims := (List.range 64).map (fun i => leAt t (0x80 + 4 * i) 4)
  match b with
  | 0 => s16s t 0x40 6
  | 1 => [(leAt t 0x4C 2 % 2048 : Nat)]
  | 2 => [(leAt t 0x50 1 : Nat), (leAt t 0x51 1 : Nat), (leAt t 0x52 1 : Nat), (leAt t 0x53 1 % 64 : Nat), (leAt t 0x54 1 : Nat)]
  | 3 => trims.map (fun w => signed 10 w)
  | 4 => trims.map (fun w => signed 10 (w / 1024))
  | 5 => if tkDir t = 1 then [] else trims.map (fun w => ((w / 1048576 % 4096 : Nat) : Int) - 2048)
  | 6 => (List.range 8).flatMap (fun w => s16s t (0x188 + 0x68 * w) 48)
  | 7 => s16s t 0x4C0 64
  | 8 => (List.range 7).flatMap (fun a => s16s t (0x544 + 0x44 * a) 32)
  | 9 => (List.range 7).flatMap (fun a => s16s t (0x744 + 0x14 * a) 8)
  | 10 => s16s t 0x7E0 32
  | 11 => s16s t 0x6A 1
  | 12 => s16s t 0x64 3
  | _ => []

/-- The device ceilings of R98: MAX_ABS, SUM_K. -/
def ceilings : List (Nat × Nat) :=
  [(16384, 16), (1024, 1), (255, 2), (384, 16), (511, 24), (2047, 96), (32767, 64), (32767, 48), (16384, 32),
   (4096, 8), (32767, 64), (8192, 8), (8192, 24)]

/-- DEDUCED: log 133. -/
def boundMax (t : List Byte) (b : Nat) : Nat := leAt t (0x820 + 4 * b) 2
def boundSum (t : List Byte) (b : Nat) : Nat := leAt t (0x822 + 4 * b) 2

/-- Check 0x0B. -/
def ceilingFault (t : List Byte) : Option Nat :=
  (List.range 13).find? (fun b => decide ((ceilings.getD b (0, 0)).1 < boundMax t b)
    || decide ((ceilings.getD b (0, 0)).2 < boundSum t b))

def absSum (l : List Int) : Nat := (l.map Int.natAbs).sum

/-- A bounds word that holds block b of a take and stays under the ceilings where they allow it; which of those it is, `x` says. -/
def boundWord (t : List Byte) (b x : Nat) : List Byte :=
  let v := boundsValues t b
  let m := (v.map Int.natAbs).foldl max 0
  let k := (absSum v + 1023) / 1024
  let c := ceilings.getD b (0, 0)
  leBytes 2 (m + x % max 1 (c.1 + 1 - m)) ++ leBytes 2 (k + x / 65536 % max 1 (c.2 + 1 - k))

/-- Check 0x0C. -/
def boundFault (t : List Byte) : Option Nat :=
  (List.range 13).find? (fun b =>
    let v := boundsValues t b
    v.any (fun x => decide (boundMax t b < x.natAbs)) || decide (boundSum t b * 1024 < absSum v))

/-- Check 0x0D (R99). -/
def headroomFault (t : List Byte) : Bool :=
  decide (131072 < absSum (boundsValues t 6) + absSum (boundsValues t 7) + absSum (boundsValues t 8))

/-- What the loader compares a take with: the pair of the slot, its link's mode, its direction and the learned
partner (R101). -/
structure TakeContext where
  pair : Nat
  mode : Nat
  dir : Nat
  serial : Nat := 0
  port : Nat := 0
deriving DecidableEq, Repr

def pairFault (x : TakeContext) (t : List Byte) : Option Nat := if leAt t 8 2 % 512 = x.pair then none else some 8
def modeFault (x : TakeContext) (t : List Byte) : Option Nat :=
  if tkMode t ≠ x.mode ∨ x.mode = 0 then some 0xA
  else if tkRate t ≠ (if isFdxMode x.mode then 1 else 2) then some 0xB
  else if tkDir t ≠ x.dir then some 0xC
  else none
def partnerFault (x : TakeContext) (t : List Byte) : Option Nat :=
  if isFdxMode x.mode then
    if tkPartnerSerial t = 0 ∨ x.serial = 0 then none
    else if tkPartnerSerial t ≠ x.serial then some 0x20
    else if tkPartnerPort t % 64 ≠ x.port then some 0x28 else none
  else if tkPartnerSerial t ≠ 0 then some 0x20
  else if tkPartnerPort t ≠ 0 then some 0x28 else none

/-- The checks of R101 in order; the code of the first that fails and the offset or block index, or code 0. -/
def verifyTake (x : TakeContext) (t : List Byte) : Nat × Nat :=
  if leAt t 0 4 ≠ 0x454B4154 then (0x01, 0)
  else if leAt t 4 2 ≠ 0x0100 then (0x02, 4)
  else if takeCrc t ≠ leAt t 0x3C 4 then (0x03, 0x3C)
  else match pairFault x t with
  | some o => (0x04, o)
  | none => match modeFault x t with
  | some o => (0x05, o)
  | none => match partnerFault x t with
  | some o => (0x06, o)
  | none => match reservedFault t with
  | some o => (0x07, o)
  | none => match rangeFault t with
  | some o => (0x08, o)
  | none => match windowFault t with
  | some o => (0x09, o)
  | none => match directionFault t with
  | some o => (0x0A, o)
  | none => match ceilingFault t with
  | some b => (0x0B, b)
  | none => match boundFault t with
  | some b => (0x0C, b)
  | none => if headroomFault t then (0x0D, 0x180) else (0, 0)

/-- The checks 0x03 to 0x06 that a fill repeats (R103). DEDUCED: log 133. -/
def refillCheck (x : TakeContext) (t : List Byte) : Nat :=
  if takeCrc t ≠ leAt t 0x3C 4 then 0x03
  else if (pairFault x t).isSome then 0x04
  else if (modeFault x t).isSome then 0x05
  else if (partnerFault x t).isSome then 0x06
  else 0

/-- The result bytes that a verification reports: check code, then the block index, or the offset / 16. -/
def checkInfo (r : Nat × Nat) : Nat × Nat × Nat :=
  if r.1 = 0x0B ∨ r.1 = 0x0C then (r.1, r.2, 0) else (r.1, 0, r.2)

/-- What R125 keeps unchanged on a COMPAT link after training: transmit part, hybrid, RX_PGA, ADC_PHASE and SKEW. -/
def compatFixed (t : List Byte) : List Byte × List Nat × List Int :=
  ((t.drop 0x40).take 21, [leAt t 0x60 2, leAt t 0x62 2], boundsValues t 3)

end Sys2Proof.Machine
end

