-- ==== Sys2Proof/Machine/Slicer.lean ====
section
/-! DEFINITION. The slicer, the inner decoder and the timing loop of a pair under the take in its active bank (R29, R72 to R79). The
slicer's inputs are samples of the line: no row brings them, and they are free values. -/
namespace Sys2Proof.Machine

/-! ### The inner code (R29, R79) -/

/-- One step of the division by x^7 + x^3 + 1: the remainder of I(x) · x^7 after one more information bit. -/
def innerStep (r : BitVec 7) (b : Bool) : BitVec 7 :=
  if r.getLsbD 6 ^^ b then (r <<< 1) ^^^ 0x09 else r <<< 1
def innerRem (bits : List Bool) : BitVec 7 := bits.foldl innerStep 0
/-- Parity of a list of bits. -/
def parityOf (bits : List Bool) : Bool := bits.foldl (fun a b => a ^^ b) false
/-- Bits of a word, highest first. -/
def bitsDown {n : Nat} (w : BitVec n) : List Bool := ((List.range n).map (fun i => w.getLsbD i)).reverse
/-- The codeword of 120 information bits: c[0] to c[127] (R29). -/
def innerEncode (info : List Bool) : List Bool :=
  let c := info ++ bitsDown (innerRem info)
  c ++ [parityOf c]

/-- The cyclic part of a word's syndrome: the received remainder against the computed one. -/
def innerSyndrome (c : List Bool) : BitVec 7 :=
  innerRem (c.take 120) ^^^ (((c.drop 120).take 7).foldl (fun (a : BitVec 7) b => (a <<< 1) ||| BitVec.ofNat 7 (b2n b)) 0)
/-- A list with one of its bits inverted. -/
def flipBit (c : List Bool) (i : Nat) : List Bool := c.modify i (fun b => !b)
/-- The syndrome of a single error in position i. -/
def errorSyndrome (i : Nat) : BitVec 7 := innerSyndrome (flipBit (List.replicate 128 false) i)

inductive InnerVerdict where
  | clean        -- a codeword
  | corrected    -- one bit flipped
  | detected     -- an even-weight error
deriving DecidableEq, Repr

/-- The decoder on the hard decisions of one codeword, before the Chase search (R79). An odd-weight error with no cyclic syndrome is in
the parity bit itself. -/
def innerDecode (c : List Bool) : List Bool × InnerVerdict :=
  let y := innerSyndrome c
  if parityOf c then
    if y = 0 then (flipBit c 127, .corrected)
    else match (List.range 127).find? (fun i => errorSyndrome i == y) with
      | some i => (flipBit c i, .corrected)
      | none => (c, .detected)
  else if y = 0 then (c, .clean) else (c, .detected)

/-- A bit list with the positions of another list inverted. -/
def flipAll (c : List Bool) (ps : List Nat) : List Bool := ps.foldl flipBit c
def isCodeword (c : List Bool) : Bool := innerSyndrome c == 0 && !parityOf c
/-- The soft distance of a test pattern: the soft values of the bits that it flips. -/
def softDistance (soft : List Nat) (ps : List Nat) : Nat := (ps.map (fun i => soft.getD i 0)).sum
/-- The NTEST least reliable positions, given as a choice where reliabilities are equal. DEDUCED: log 144. -/
def leastReliable (soft : List Nat) (n : Nat) (ps : List Nat) : Bool :=
  ps.length == n && decide ps.Nodup && ps.all (fun i => decide (i < 128)) &&
    (List.range 128).all (fun k => ps.contains k || ps.all (fun i => decide (soft.getD i 0 ≤ soft.getD k 0)))
/-- The sub-lists of a list. -/
def subLists : List Nat → List (List Nat)
  | [] => [[]]
  | a :: t => subLists t ++ (subLists t).map (fun l => a :: l)
/-- What the Chase search may answer (R79): a codeword that flipping some of the least reliable bits gives, with the smallest soft distance
among those; the hard decisions when there is none. Ties are left open. DEDUCED: log 144. -/
def chaseAnswers (c : List Bool) (soft : List Nat) (least : List Nat) (out : List Bool) : Bool :=
  let good := (subLists least).filter (fun ps => isCodeword (flipAll c ps))
  if good.isEmpty then out == c
  else good.any (fun ps => out == flipAll c ps && good.all (fun qs => decide (softDistance soft ps ≤ softDistance soft qs)))

/-! ### The slicer and soft values (R61, R78, R79) -/

/-- Coefficient i of an array of signed words in a take. -/
def tap (t : List Byte) (o i : Nat) : Int := signed 16 (leAt t (o + 2 * i) 2)
/-- The slicer: thresholds in 2^-11 level (R78). -/
def slice (t : List Byte) (v : Rat) : Int :=
  if v < tap t 0x64 0 / 2048 then -3 else if v < tap t 0x64 1 / 2048 then -1 else if v < tap t 0x64 2 / 2048 then 1 else 3
/-- The slicer error e = v − lev. -/
def slicerError (t : List Byte) (v : Rat) : Rat := v - slice t v
/-- The two bits of a level, as R30 maps them. -/
def levelBits (a : Int) : List Bool :=
  if a = -3 then [false, false] else if a = -1 then [false, true] else if a = 1 then [true, true] else [true, false]
def absRat (x : Rat) : Rat := if x < 0 then -x else x
/-- NTEST and LLR_SCALE of DEC_CFG. -/
def ntest (t : List Byte) : Nat := leAt t 0x70 2 % 8
def llrScale (t : List Byte) : Nat := leAt t 0x70 2 / 16 % 16
/-- The soft values of the two bits of a slicer input (R79): the distance to the threshold between the values of the bit, scaled by
LLR_SCALE and saturated to 6 bits. THR_MID separates the first bit's values, the nearer outer threshold the second's. DEDUCED: log 144. -/
def softBits (t : List Byte) (v : Rat) : List Nat :=
  let d (i : Nat) : Rat := absRat (v - tap t 0x64 i / 2048)
  [d 1, if d 0 ≤ d 2 then d 0 else d 2].map (fun x => min 63 (Config.softUnit (x * llrScale t)))

/-- The position of the smallest value among some, by a rank where values are equal. -/
def leastAt (soft : List Nat) (rank : Nat → Nat) (ps : List Nat) : Option Nat :=
  ps.foldl (fun b i => match b with
    | none => some i
    | some k =>
      if soft.getD i 0 < soft.getD k 0 ∨ (soft.getD i 0 = soft.getD k 0 ∧ rank i < rank k) then some i else some k) none
/-- The n least reliable positions among some: which of equals is left open. -/
def leastOf (soft : List Nat) (rank : Nat → Nat) : Nat → List Nat → List Nat
  | 0, _ => []
  | n + 1, ps => match leastAt soft rank ps with
    | none => []
    | some k => k :: leastOf soft rank n (ps.erase k)

inductive InnerResult where
  | clean | corrected | searched | uncorrectable
deriving DecidableEq, Repr

/-- The decoder's outcome for the 64 slicer inputs of a codeword (R79). DEDUCED: log 144. -/
def innerResult (t : List Byte) (v : List Rat) (rank : Nat → Nat) : InnerResult :=
  let c := v.flatMap (fun x => levelBits (slice t x))
  match (innerDecode c).2 with
  | .clean => .clean
  | .corrected => .corrected
  | .detected =>
    let least := leastOf (v.flatMap (softBits t)) rank (ntest t) (List.range 128)
    if (subLists least).any (fun ps => isCodeword (flipAll c ps)) then .searched else .uncorrectable
/-- The decoder's outcomes for the 255 codewords of a row whose samples are the n-th free ones. DESIGN CHOICE: log 136. -/
def rowResults (t : List Byte) (n : Nat) : List InnerResult :=
  (List.range 255).map (fun j =>
    innerResult t ((List.range 64).map (fun i => Config.slicerInput n (64 * j + i))) (fun i => Config.tieRank n (128 * j + i)))
def resultCount (x : InnerResult) (l : List InnerResult) : Nat := (l.filter (fun y => y == x)).length

/-! ### The timing loop (R73, R74) -/

/-- An exact value rounded to the nearest integer, halves away from zero. -/
def roundRat (x : Rat) : Int := roundDiv x.num x.den
def detector (e0 e1 : Rat) (v0 v1 : Int) : Rat := e1 * v0 - e0 * v1
/-- One symbol: the integrator, then the phase, which stays at a limit that it reaches. TL_KP and TL_KI come from the digital part. The sums
are what the steering logic reads at the end of its period (R246). DEDUCED: log 143. -/
def timingSymbol (d : Rat) (p : PairSt) : PairSt :=
  let w := leAt p.active.dig 0x6E 2
  let i := p.integ + d / (2 ^ (12 + w / 16 % 16) : Nat)
  let f := max (-8192) (min 8191 (p.phi + roundRat (d / (2 ^ (6 + w % 16) : Nat) + i)))
  { p with integ := i, phi := f, loopI := p.loopI + i, loopPhi := p.loopPhi + f, loopN := p.loopN + 1 }
/-- The loop over slicer inputs, from the error and the decision of the symbol before: it stops short of a symbol that takes φ to a
limit, which INTERP_LIMIT brings (R74). -/
def loopSteps : List Rat → Rat → Int → PairSt → PairSt
  | [], _, _, p => p
  | v :: t, e0, v0, p =>
    let lev := slice p.active.dig v
    let e := slicerError p.active.dig v
    let q := timingSymbol (detector e0 e v0 lev) p
    if q.phi = -8192 ∨ q.phi = 8191 then p else loopSteps t e lev q
/-- The timing loop of a pair that receives has run since a row last looked at φ and I: over how many symbols, and with what slicer inputs, is open.
DESIGN CHOICE: log 162. -/
def loopRun (l : Nat) (s : State) : State :=
  if !(pairOf s l).sfLock && !pairLinkIn s l trainOrUp then s
  else
  let (v, s) := draw 22 s
  let n := v.toNat
  modPair l (loopSteps ((List.range (Config.symbolCount n)).map (Config.slicerInput n)) 0 1) s

end Sys2Proof.Machine
end

