-- ==== Sys2Proof/Machine/Takes.lean ====
section
/-! DEFINITION. Take slots, the take loader, coefficient banks and cuts (R15, R81 to R85, R101 to R123). -/
namespace Sys2Proof.Machine

/-! ### Slots (R105 to R108) -/

def slEmpty := 0
def slLoaded := 1
def slVerified := 2
def slScheduled := 3
def slActive := 4
def slRetired := 5

def slotCode (s : State) (l k : Nat) : Nat := rdF s (slotStateR l) (4 * k + 2) (4 * k)

/-- Set a slot's state code and AWAIT bit; the list of RETIRED slots follows. -/
def setSlot (l k code : Nat) (await : Bool) (s : State) : State :=
  let s := wrF (slotStateR l) (4 * k + 3) (4 * k) (code + 8 * b2n await) s
  modPair l (fun p => { p with retired := let r := p.retired.filter (fun x => x != k)
                                         if code = 5 then r ++ [k] else r }) s

def slotIn (s : State) (l code : Nat) : Option Nat := (List.range 8).find? (fun k => slotCode s l k == code)
def activeSlot (s : State) (l : Nat) : Option Nat := slotIn s l slActive
def schedSlot (s : State) (l : Nat) : Option Nat := slotIn s l slScheduled

/-- The slot that "any slot" names: the lowest EMPTY one, else the one RETIRED longest (R108). -/
def anySlot (s : State) (l : Nat) : Option Nat :=
  match slotIn s l slEmpty with
  | some k => some k
  | none => (pairOf s l).retired.head?

def takeKey (l k : Nat) : Nat := l * 8 + k
/-- The 4,096 bytes of a slot; an EMPTY slot reads as zeros (R11). -/
def takeAt (s : State) (l k : Nat) : List Byte :=
  let t := tabGet [] s.takes (takeKey l k)
  (t ++ zeros (4096 - t.length)).take 4096
def putTake (l k : Nat) (t : List Byte) (s : State) : State := { s with takes := tabPut [] s.takes (takeKey l k) t }
/-- Write a take into a slot: it becomes LOADED. -/
def writeTake (l k : Nat) (t : List Byte) (s : State) : State := setSlot l k slLoaded false (putTake l k t s)
/-- Empty a slot: its content is zeroed (R11). -/
def clearSlot (l k : Nat) (s : State) : State := setSlot l k slEmpty false (putTake l k [] s)

def activeTake (s : State) (l : Nat) : Option (List Byte) := (activeSlot s l).map (takeAt s l)

/-- A COMPAT pair that transmits: pairs 0 to 3, or 4 to 7 with PAIR_SWAP (R13). -/
def txPair (s : State) (l : Nat) : Bool := decide (l % 8 < 4) != pairSwap s (l / 8)

/-- What the loader compares a take of a pair with (R101). -/
def takeContext (s : State) (l : Nat) : TakeContext :=
  match linkOfPair s l with
  | none => { pair := l, mode := 0, dir := 0 }
  | some m =>
    let md := modeOf s m
    { pair := l, mode := md, dir := if isCompat md then (if txPair s l then 1 else 2) else 0,
      serial := (linkOf s m).serial, port := (linkOf s m).port }

/-! ### The take loader (R101 to R104) -/

def loaderPut (t : Nat) (r : LoadReq) (s : State) : State := modTile t (fun x => { x with loader := x.loader ++ [r] }) s
def loaderDrop (t : Nat) (s : State) : State := modTile t (fun x => { x with loader := x.loader.tail }) s
/-- A slot waits at the loader. -/
def loaderHas (s : State) (l k : Nat) : Bool := (tileOf s (l / 64)).loader.any (fun r => r.pair == l && r.slot == k)
/-- Ask for the verification of a slot. -/
def askVerify (l k purpose etag prev : Nat) (s : State) : State :=
  loaderPut (l / 64) { pair := l, slot := k, fill := false, purpose := purpose, etag := etag, prev := prev } s
/-- Ask for the fill of the standby bank from a slot (R113). -/
def askFill (l k : Nat) (s : State) : State :=
  let s := modPair l (fun p => { p with standby := { p.standby with filled := false } }) s
  if (tileOf s (l / 64)).loader.any (fun r => r.pair == l && r.slot == k && r.fill) then s
  else loaderPut (l / 64) { pair := l, slot := k, fill := true } s

/-- The fills of a pair that wait are abandoned. -/
def dropFills (l : Nat) (s : State) : State :=
  modTile (l / 64) (fun x => { x with loader := x.loader.filter (fun r => !(r.fill && r.pair == l)) }) s

/-- The parts of a take image that a bank's two CRCs cover (R84, R86). -/
def txWords (t : List Byte) : List Byte := (t.drop 0x40).take 0x10
def rxWords (t : List Byte) : List Byte := (t.drop 0x50).take 0x7D0

/-- The bank that a fill from a take makes, with its stored CRCs (R84). -/
def bankOf (t : List Byte) : Bank :=
  { tx := t, ana := t, dig := t, crcTx := crc32 (txWords t), crcAna := crc32 (rxWords t), crcRx := crc32 (rxWords t), filled := true }

/-- The audit of R84: the CRC-32 of each part of a bank, computed again, differs from the one stored with it. DESIGN CHOICE: log 158. -/
def bankBad (b : Bank) : Bool :=
  b.damaged || crc32 (txWords b.tx) != b.crcTx || crc32 (rxWords b.ana) != b.crcAna || crc32 (rxWords b.dig) != b.crcRx
/-- An upset strikes a bank: one of its words is no longer what was filled, until the bank is filled again. DESIGN CHOICE: log 158. -/
def damagedBank (hit : Bool) (b : Bank) : Bank := { b with damaged := b.damaged || hit }

/-- A slot that may reach a bank: its take has passed verification (R102). -/
def slotVerified (s : State) (l k : Nat) : Bool := slotCode s l k == slVerified || slotCode s l k == slScheduled

/-- BANK_FILL of one pair from a slot: the slot is VERIFIED or SCHEDULED (R15), and checks 0x03 to 0x06 are repeated (R103). -/
def fillStandby (l k : Nat) (s : State) : State :=
  let t := takeAt s l k
  let code := refillCheck (takeContext s l) t
  if !slotVerified s l k then modPair l (fun p => { p with standby := { p.standby with filled := false } }) s
  else if code = 0 then modPair l (fun p => { p with standby := bankOf t }) s
  else modPair l (fun p => { p with
    standby := { p.standby with filled := false }, cut := p.cut.map (fun c => { c with fillCheck := code }) }) s

/-- The switch of one part of the banks (R81). -/
def swapTx (p : PairSt) : PairSt :=
  { p with
    active := { p.active with tx := p.standby.tx, crcTx := p.standby.crcTx }
    standby := { p.standby with tx := p.active.tx, crcTx := p.active.crcTx } }
def swapAna (p : PairSt) : PairSt :=
  { p with
    active := { p.active with ana := p.standby.ana, crcAna := p.standby.crcAna }
    standby := { p.standby with ana := p.active.ana, crcAna := p.active.crcAna } }
def swapDig (p : PairSt) : PairSt :=
  { p with
    active := { p.active with dig := p.standby.dig, crcRx := p.standby.crcRx }
    standby := { p.standby with dig := p.active.dig, crcRx := p.active.crcRx } }

/-- φ moves by −4 times the change of ADC_PHASE, within its range (R72, R75). -/
def phiAfter (phi : Int) (old new : Nat) : Int := max (-8192) (min 8191 (phi - 4 * ((new : Int) - (old : Int))))

/-- End an exchange whose three parts are done: the banks are exchanged, and a new mismatch may be reported (R84). -/
def exchangeEnd (p : PairSt) : PairSt :=
  match p.exch with
  | some e =>
    if e.tx && e.ana && e.dig then
      { p with
        exch := none, bankReported := false
        active := { p.active with filled := true, damaged := p.standby.damaged }
        standby := { p.standby with filled := false, damaged := p.active.damaged } }
    else p
  | none => p

/-- The transmit part is exchanged. -/
def exchangeTx (p : PairSt) : PairSt :=
  match p.exch with
  | some e => if e.tx then p else exchangeEnd { swapTx p with exch := some { e with tx := true } }
  | none => p
/-- The analog receive settings are exchanged, and φ follows ADC_PHASE. -/
def exchangeAna (p : PairSt) : PairSt :=
  match p.exch with
  | some e =>
    if e.ana then p
    else exchangeEnd { swapAna p with
      exch := some { e with ana := true }, phi := phiAfter p.phi (tkAdcPhase p.active.ana) (tkAdcPhase p.standby.ana) }
  | none => p
/-- The digital receive stages are exchanged; an analog exchange that has not come is made with them. -/
def exchangeDig (p : PairSt) : PairSt :=
  match p.exch with
  | some e => if e.dig then p else exchangeEnd { swapDig p with exch := some { e with dig := true } }
  | none => p
def exchangeAll (p : PairSt) : PairSt := exchangeDig (exchangeAna (exchangeTx p))

/-! ### Cuts (R111 to R123) -/

/-- The current superframe of an FDX pair, or COMPAT period of its port (R112, R124). -/
def curSf (s : State) (l : Nat) : Word :=
  if (linkOfPair s l).any (fun m => isCompat (modeOf s m)) then (portOf s (l / 8)).period else (pairOf s l).sf

/-- A superframe count mismatch is in force on the link of a pair (R49). -/
def linkMismatch (s : State) (m : Nat) : Bool := (linkPairs s m).any (fun l => (pairOf s l).mismatch)
def pairMismatchInForce (s : State) (l : Nat) : Bool := (linkOfPair s l).any (linkMismatch s)

/-- The transmit block of a slot's take differs from the active take's (R111). -/
def txDiffers (s : State) (l k : Nat) : Bool :=
  match activeTake s l with
  | some t => tkTransmit t != tkTransmit (takeAt s l k)
  | none => true

/-- The result of TAKE_CUT: S, the miss reason, the slot. -/
def cutResult (sf : Word) (reason slot : Nat) : List Byte := leBytes 4 sf.toNat ++ leBytes 1 reason ++ leBytes 1 slot ++ zeros 2

/-- Set a cut on a VERIFIED slot: it becomes SCHEDULED, and a cut nearer than S − 1 asks for its fill at once (R113). -/
def setCut (l : Nat) (c : Cut) (s : State) : State :=
  let s := modPair l (fun p => { p with cut := some c }) (setSlot l c.slot slScheduled c.await s)
  if c.await then s
  else
    let s := wr (cutSfR l) c.sf s
    if sfDiff c.sf (curSf s l) ≤ 1 then askFill l c.slot s else s

/-- A local cut at the earliest superframe C + 2 (R112). -/
def localCut (l k purpose : Nat) (etag : Option Nat) (s : State) : State :=
  setCut l { slot := k, sf := curSf s l + 2, purpose := purpose, etag := etag } s

/-- A coordinated cut at S, n being the first odd superframe after C; the pair's NOTICE_SEQ advances (R112, R114). -/
def coordCut (l k purpose : Nat) (sf : Word) (join : Bool) (etag : Option Nat) (s : State) : State :=
  let q := (pairOf s l).noticeSeq
  let c : Cut := { slot := k, sf := sf, coord := true, join := join, txChange := txDiffers s l k, seq := q,
                   notice := nextOdd (curSf s l), purpose := purpose, etag := etag }
  setCut l c (modPair l (fun p => { p with noticeSeq := (q + 1) % 16 }) s)

/-- EVT_CUT_MISSED (R122). -/
def cutMissEvent (l reason slot check : Nat) (sf : Word) (s : State) : State :=
  raise 0x0700 (pairUnit l) (leBytes 1 reason ++ leBytes 1 slot ++ leBytes 2 check ++ leBytes 4 sf.toNat)
    (count (cutMissedR l) 1 s)

/-- The scheduled cut of a pair is missed, cancelled or declined: the event, the slot's return, the divergence test
that may follow (R119), and the end of its TAKE_CUT with a status (R122, R123). -/
def cutMiss (l reason check back status : Nat) (s : State) : State :=
  match (pairOf s l).cut with
  | none => s
  | some c =>
    let s := setSlot l c.slot back false (cutMissEvent l reason c.slot check c.sf s)
    let s := dropFills l s
    let tested := c.joined || (c.join && c.sent)
    let n := if c.joined then c.notice else c.sf
    let s := modPair l (fun p => { p with
      cut := none
      div := if tested then some { sf := n, final := c.sf, took := false, slot := c.slot, partner := p.partnerSlot } else p.div }) s
    match c.etag with
    | some e => complete e status (cutResult c.sf reason c.slot) s
    | none => s

/-- A cut ends for a reason other than a decline or a timeout: the slot is VERIFIED again, TAKE_CUT ABORTED. -/
def cutAbort (l reason : Nat) (s : State) : State := cutMiss l reason 0 slVerified stAborted s

/-- The decided cut: SCHEDULED becomes ACTIVE and ACTIVE becomes RETIRED, TAKE_CUT completes OK (R82, R106, R123). -/
def cutTakes (l : Nat) (c : Cut) (s : State) : State :=
  let old := activeSlot s l
  let s := match old with
    | some k => setSlot l k slRetired false s
    | none => s
  let s := setSlot l c.slot slActive false s
  let tested := c.joined || c.join
  let n := if c.joined then c.notice else c.sf
  let s := modPair l (fun p => { p with
    cut := none
    banksValid := true
    cuts := p.cuts + 1
    cutDone := p.cutDone || (c.purpose != 0 && c.purpose != 6)
    exch := some { slot := c.slot, sf := c.sf }
    div := if tested then some { sf := n, final := c.sf, took := true, slot := old.getD 8, partner := p.partnerSlot } else p.div }) s
  match c.etag with
  | some e => complete e stOk (cutResult c.sf 0 c.slot) s
  | none => s

/-- The decision of R82 at S, with R116 and R121. `hit`: an upset has struck the standby bank. -/
def cutDecide (l : Nat) (hit : Bool) (s : State) : State :=
  match (pairOf s l).cut with
  | none => s
  | some c =>
    if c.await || c.sf != curSf s l then s
    else if c.coord && !c.acked then cutAbort l 0x04 s
    else if !(pairOf s l).standby.filled then
      if c.fillCheck ≠ 0 then cutMiss l 0x02 c.fillCheck slVerified stAborted s
      else if mramHold s then
        if c.coord then cutAbort l 0x09 s
        else
          let s := cutMissEvent l 0x08 c.slot 0 c.sf s
          wr (cutSfR l) (c.sf + 1) (modPair l (fun p => { p with cut := some { c with sf := c.sf + 1, dipped := true } }) s)
      else cutAbort l 0x01 s
    else if bankBad (damagedBank hit (pairOf s l).standby) then cutAbort l 0x03 s
    else cutTakes l c s

/-- Both parts of the banks are exchanged at once (R160, R124). φ follows ADC_PHASE where the pair ran on another bank (R75). -/
def exchangeNow (k : Nat) (sf : Word) (p : PairSt) : PairSt :=
  let q := exchangeAll { exchangeAll p with exch := some { slot := k, sf := sf } }
  { q with banksValid := true, cuts := p.cuts + 1, phi := if p.banksValid then q.phi else p.phi }

/-- An entry cut (R160): the standby bank is filled from a VERIFIED slot under the re-check of R103, the take becomes ACTIVE, and both
bank parts are exchanged. A cut whose re-check fails is missed, and the banks stay as they are. DEDUCED: log 159. -/
def entryCut (l k : Nat) (s : State) : State :=
  if slotCode s l k ≠ slVerified then s
  else
    let s := fillStandby l k s
    if !(pairOf s l).standby.filled then cutMissEvent l 0x02 k (refillCheck (takeContext s l) (takeAt s l k)) (curSf s l) s
    else
      let s := match activeSlot s l with
        | some a => setSlot l a slRetired false s
        | none => s
      modPair l (exchangeNow k (curSf s l)) (setSlot l k slActive false s)

/-- The cut of a pair whose banks are about to become invalid is cancelled, with reason BANKS_INVALID (R110, R122). -/
def banksCut (l back : Nat) (s : State) : State := cutMiss l 0x0A 0 back stAborted s

/-- The banks of a pair become invalid (R85, R110): a scheduled cut is cancelled, its slot and the ACTIVE one go back
to VERIFIED, or to LOADED after a TILE reset. -/
def banksLost (l back : Nat) (s : State) : State :=
  let s := banksCut l back s
  let s := match activeSlot s l with
    | some k => setSlot l k back false s
    | none => s
  modPair l (fun p => { p with
    banksValid := false, exch := none, div := none, bankReported := false, active := {}, standby := {} }) s

end Sys2Proof.Machine
end

