-- ==== Sys2Proof/Machine/LaneOps.lean ====
section
/-! DEFINITION. What rows of several families do to Acnan lanes and host streams (R212, R219, R221, R227). A lane is
named by P × 8 + n; lanes n = 0 to 3 transmit, n = 4 to 7 receive (R208). -/
namespace Sys2Proof.Machine

def hlCtl (n : Nat) : Nat := laneBase n
def hlStatus (n : Nat) : Nat := laneBase n + 4
def hlFill (n : Nat) : Nat := laneBase n + 8
def hlHdrErr (n : Nat) : Nat := laneBase n + 0x10
def hlStuffErr (n : Nat) : Nat := laneBase n + 0x14
def hlSlip (n : Nat) : Nat := laneBase n + 0x18
def hlMarkerLost (n : Nat) : Nat := laneBase n + 0x1C
def hlLockLost (n : Nat) : Nat := laneBase n + 0x20
def hlStuffOverflow (n : Nat) : Nat := laneBase n + 0x24
def hlGbxOverflow (n : Nat) : Nat := laneBase n + 0x28
def hlBreak (n : Nat) : Nat := laneBase n + 0x2C
def hlWake (n : Nat) : Nat := laneBase n + 0x30

def laneIsTx (n : Nat) : Bool := decide (n % 8 < 4)
def laneEnabled (s : State) (n : Nat) : Bool := rdB s (hlCtl n) 15
/-- HL_STATUS.STATE: 0 OFF, 1 ACQUIRE, 2 LOCKED, 3 ASLEEP, 4 WAKING, 5 FAULT. A transmit lane that runs shows LOCKED. DEDUCED: log 44. -/
def laneState (s : State) (n : Nat) : Nat := rdF s (hlStatus n) 2 0
def setLaneState (n st : Nat) (s : State) : State := wrF (hlStatus n) 2 0 st s

/-- The two streams of a lane, as port × 8 + stream (R12). -/
def laneStreams (n : Nat) : List Nat := [n / 8 * 8 + n % 4 * 2, n / 8 * 8 + n % 4 * 2 + 1]
/-- The transmit and the receive lane of a stream. -/
def txLaneOf (l : Nat) : Nat := l / 8 * 8 + l % 8 / 2
def rxLaneOf (l : Nat) : Nat := l / 8 * 8 + 4 + l % 8 / 2

/-- Host streams become absent or present (R212). -/
def setAbsent (b : Bool) (l : Nat) (s : State) : State := modPair l (fun p => { p with absent := b }) s
def streamsAbsent (n : Nat) (s : State) : State := each (laneStreams n) (setAbsent true) s

/-- A pair's link runs a COMPAT mode. -/
def onCompat (s : State) (l : Nat) : Bool := (linkOfPair s l).any (fun m => isCompat (modeOf s m))
/-- The pair that a stream comes from the line on (R12, R13): in COMPAT pair k + 4, or with PAIR_SWAP pair k. -/
def streamRxPair (s : State) (l : Nat) : Nat := if onCompat s l && !pairSwap s (l / 8) then l / 8 * 8 + (l + 4) % 8 else l
/-- The pair that a stream goes to the line on. -/
def streamTxPair (s : State) (l : Nat) : Nat := if onCompat s l && pairSwap s (l / 8) then l / 8 * 8 + (l + 4) % 8 else l
/-- Streams 0 to 3 alone are used in COMPAT (R13). -/
def isStream (s : State) (l : Nat) : Bool := !onCompat s l || decide (l % 8 < 4)
/-- The streams of a link. -/
def linkStreams (s : State) (m : Nat) : List Nat := (activePairs s m).filter (isStream s)

/-- A stream has bits for the host (R207, R212): with HOST loopback, while the host's own stream is present; else while its link is in UP, the pair
that it comes from is not quiet, and the rows received there carry it. -/
def streamDelivered (s : State) (l : Nat) : Bool :=
  if (pairOf s l).xqOff then false
  else if (portOf s (l / 8)).hostLoop then !(pairOf s l).absent
  else
    let p := pairOf s (streamRxPair s l)
    isStream s l && (linkOfPair s l).any (fun m => (linkOf s m).state == .up) && !p.quiet && !p.rxAbsent

/-- An event after which a stream does not continue (R212): one BREAK goes before the next data half. That half follows at once where the
stream is delivered on an awake lane; else the BREAK is due, once whatever more comes before the half. DEDUCED: log 90. -/
def breakDue (l : Nat) (s : State) : State :=
  let n := txLaneOf l
  let x := laneOf s n
  let due := if l % 2 = 0 then x.breakA else x.breakB
  let now := laneState s n == 2 && streamDelivered s l
  let s := if now then count (hlBreak n) (1 + b2n due) s else s
  modLane n (fun x => if l % 2 = 0 then { x with breakA := !now } else { x with breakB := !now }) s

/-- A lane that is LOCKED loses lock (R219): a receive lane counts and reports it, and its streams are absent. DEDUCED: log 45. -/
def laneLoseLock (n : Nat) (s : State) : State :=
  if laneState s n ≠ 2 then s
  else
    let s := setLaneState n 1 s
    if laneIsTx n then s
    else
      let s := streamsAbsent n (modLane n (fun x => { x with descramble := false, searching := false }) s)
      raise 0x0A00 (unitLane n) [] (count (hlLockLost n) 1 s)

/-- The lanes of a tile. -/
def tileLanes (t : Nat) : List Nat := (List.range 64).map (fun i => 64 * t + i)
/-- Every Acnan lane of a tile loses lock: its host synthesizer hops, is held, or follows a restarted output. -/
def tileLanesLost (t : Nat) (s : State) : State := each (tileLanes t) laneLoseLock s
/-- The tile host synthesizer runs again: the transmit lanes that are enabled and not asleep run. -/
def tileLanesRun (t : Nat) (s : State) : State :=
  each (tileLanes t) (fun n s => if laneIsTx n && laneEnabled s n && laneState s n == 1 then setLaneState n 2 s else s) s

/-- A lane carries a present stream (R212). -/
def lanePresent (s : State) (n : Nat) : Bool :=
  laneState s n == 2 && (if laneIsTx n then (laneStreams n).any (streamDelivered s)
    else (laneOf s n).descramble && (laneStreams n).any (fun l => !(pairOf s l).absent))

/-- The tile host synthesizer of a lane's tile is LOCKED. -/
def hostSynLocked (s : State) (t : Nat) : Bool := rdF s (synBase (64 + t) + 4) 2 0 == 2

/-- A lane is started by its ENABLE: a receive lane acquires, a transmit lane runs on a locked synthesizer. DEDUCED: log 44.
DEDUCED: log 89. -/
def laneStart (n : Nat) (s : State) : State :=
  setLaneState n (if laneIsTx n && hostSynLocked s (n / 64) then 2 else 1) s

/-- A lane is stopped: OFF, its state gone and its streams absent. -/
def laneStop (n : Nat) (s : State) : State :=
  let s := modLane n (fun x => { x with descramble := false, searching := false, sleepMark := false }) (setLaneState n 0 s)
  if laneIsTx n then s else streamsAbsent n s

end Sys2Proof.Machine
end

