-- ==== Sys2Proof/Machine/SynOps.lean ====
section
/-! DEFINITION. The port and tile host synthesizers: hops, small steps, steering and loss of lock (R235 to R258). A
synthesizer is named by its PLL index, 0 to 63 port, 64 to 71 tile host. -/
namespace Sys2Proof.Machine

def synCtl (i : Nat) : Nat := synBase i
def synStatusR (i : Nat) : Nat := synBase i + 4
def synSteerR (i : Nat) : Nat := synBase i + 8
def synOffsetR (i : Nat) : Nat := synBase i + 0xC
def synCfgR (i : Nat) : Nat := synBase i + 0x10
def synRefR (i : Nat) : Nat := synBase i + 0x14
def synSlotR (i k : Nat) : Nat := synBase i + 0x20 + 8 * k
def synUnlockR (i : Nat) : Nat := synBase i + 0x40
def synHopR (i : Nat) : Nat := synBase i + 0x44
def synClampR (i : Nat) : Nat := synBase i + 0x48
def synResearchR (i : Nat) : Nat := synBase i + 0x4C

/-- STATE: 0 OFF, 1 SEARCH, 2 LOCKED, 3 HOPPING, 4 HELD. -/
def synState (s : State) (i : Nat) : Nat := rdF s (synStatusR i) 2 0
def synActive (s : State) (i : Nat) : Nat := rdF s (synStatusR i) 4 3
def synBusy (s : State) (i : Nat) : Bool := synState s i == 1 || synState s i == 3
def synSteer (s : State) (i : Nat) : Int := (rd s (synSteerR i)).toInt
/-- The word of a slot: N_INT × 2^32 + N_FRAC. -/
def slotWord (s : State) (i k : Nat) : Nat := rdF s (synSlotR i k) 7 0 * 2 ^ 32 + (rd s (synSlotR i k + 4)).toNat
/-- The running word W (R237). -/
def runWord (s : State) (i : Nat) : Int := slotWord s i (synActive s i) + synSteer s i

/-- A word stays within R236: N_INT from 60 to 250, PREDIV from 1 to 16. -/
def wordInRange (nint : Nat) : Bool := decide (60 ≤ nint ∧ nint ≤ 250)

/-- The default words of an enable, for the PREDIV in force (R237, R239). -/
def defaultWord (i k prediv : Nat) : Nat :=
  prediv * slotDefault (!decide (i < 64)) k
def defaultSlots (i : Nat) : List Nat := if i < 64 then [0, 1] else [0]

/-- Temperature that a band search records: the port's sensor, or the tile's first one, in whole degrees (R239, R475). -/
def searchTemp (s : State) (i : Nat) : Nat :=
  twos 8 ((tabGet 0 s.temps (if i < 64 then i else 64 + 4 * (i - 64))).toInt / 16)

/-- A steering offset within its range (R243). -/
def steerClip (z : Int) : Int := max (-(2 ^ 27)) (min (2 ^ 27) z)
/-- FROZEN of a port's line domain (R240, R256, R291). -/
def setFrozen (p : Nat) (b : Bool) (s : State) : State := wrB (tileClkStatusR (p / 8)) (8 + p % 8) b s
/-- A clock mux holds a line domain of a port frozen (R291). -/
def muxHolds (s : State) (p : Nat) : Bool := s.muxFrozen.any (fun f => f.1 == 3 && f.2 / 8 == p)

/-- The synthesizer's output stops: its port freezes, or its tile's lanes lose lock. -/
def outputStops (i : Nat) (s : State) : State :=
  if i < 64 then setFrozen i true s else tileLanesLost (i - 64) s

/-- A synthesizer leaves its lock for a slot, with a fresh band search where it is asked for or the slot has no band: STATE shows a
hop or a relock; `tag` is the command that waits for its end. DEDUCED: log 137. -/
def synLeave (st i k : Nat) (search : Bool) (tag : Option Nat) (s : State) : State :=
  let srch := search || !rdB s (synSlotR i k) 14
  let s := wrF (synStatusR i) 2 0 st (wrF (synCtl i) 5 4 k s)
  outputStops i (modSyn i (fun x => { x with target := k, search := srch, hopTag := tag, acquire := none }) s)

/-- A hop to a slot begins (R240). DEDUCED: log 137. -/
def synHop (i k : Nat) (search : Bool) (tag : Option Nat) (s : State) : State := synLeave 3 i k search tag s
/-- A relock on a slot begins (R241, R258, R477). DEDUCED: log 137. -/
def synAgain (i k : Nat) (search : Bool) (tag : Option Nat) (s : State) : State := synLeave 1 i k search tag s

/-- The synthesizers of a tile or port are enabled from OFF: default words, then a band search of each (R239). -/
def synEnable (i : Nat) (s : State) : State :=
  let prediv := rdF s (synCtl i) 3 0 + 1
  let s := each (List.range 4) (fun k s =>
    let w := defaultWord i k prediv
    wr (synSlotR i k + 4) (BitVec.ofNat 32 w) (wr (synSlotR i k) (BitVec.ofNat 32 (w / 2 ^ 32 % 256)) s)) s
  let s := wr (synStatusR i) (BitVec.ofNat 32 (1 + 0xFF0000)) (wrF (synCtl i) 5 4 0 s)
  outputStops i (modSyn i (fun _ => { search := true, enabling := true }) s)

/-- A band has been found for a slot. -/
def bandFound (i k band : Nat) (s : State) : State :=
  wrF (synSlotR i k) 23 16 (searchTemp s i) (wrB (synSlotR i k) 14 true (wrF (synSlotR i k) 13 8 band s))

/-- The command that waits for a hop completes: CLK_HOP says whether a search ran, CLK_PLL_PROGRAM has no result (R360). -/
def hopEnd (tag : Option Nat) (fresh : Bool) (s : State) : State :=
  match tag with
  | none => s
  | some e =>
    let hop := (s.cmd.inflight.find? (fun f => f.etag == e)).any (fun f => f.opcode == 0x0603)
    complete e stOk (if hop then leBytes 1 (b2n fresh) ++ zeros 3 else []) s

/-- A hop that a command waits for is cut short: of the statuses the command may have, REFUSED. DEDUCED: log 74. -/
def hopCut (tag : Option Nat) (s : State) : State :=
  match tag with
  | none => s
  | some e => complete e stRefused [] s

/-- A hop, relock or band search ends: LOCKED on the target slot, SYN_STEER 0, the output restarts (R240). Hops are counted. -/
def synHopDone (i band other : Nat) (fresh : Bool) (s : State) : State :=
  if !synBusy s i then s
  else
    let x := synOf s i
    let hop := synState s i == 3
    let srch := x.search || fresh
    let s := if srch then bandFound i x.target band s else s
    let s := if x.enabling then each ((defaultSlots i).filter (fun k => k != x.target)) (fun k => bandFound i k other) s else s
    let s := wrB (synStatusR i) 8 false (wrF (synStatusR i) 4 3 x.target (wrF (synStatusR i) 2 0 2 s))
    let s := wr (synSteerR i) 0 s
    let s := if hop then count (synHopR i) 1 s else s
    let s := if srch && hop then count (synResearchR i) 1 s else s
    let s := modSyn i (fun y => { y with search := false, enabling := false, hopTag := none, limited := false }) s
    let s := if i < 64 then setFrozen i (muxHolds s i) s else tileLanesRun (i - 64) s
    hopEnd x.hopTag srch s

/-- A synthesizer is held: its output stops, the loss is counted and reported (R256). DEDUCED: log 45. DEDUCED: log 75.
DEDUCED: log 77. -/
def synHold (i : Nat) (s : State) : State :=
  if synState s i = 0 ∨ synState s i = 4 then s
  else
    let s := wrF (synStatusR i) 2 0 4 s
    let tag := (synOf s i).hopTag
    let s := modSyn i (fun x => { x with hopTag := none, enabling := false, acquire := none, auto := false }) s
    let s := raise 0x0200 (unitPll i) [] (count (synUnlockR i) 1 (outputStops i s))
    hopCut tag s

/-- One small step of SYN_STEER, stopped at ±2^27 (R242). -/
def smallStep (i : Nat) (d : Int) (s : State) : State :=
  let z := synSteer s i + d
  let beyond := decide (2 ^ 27 < z.natAbs)
  let z := steerClip z
  let was := (synOf s i).limited
  let s := wrB (synStatusR i) 8 (decide (z.natAbs = 2 ^ 27)) (wr (synSteerR i) (BitVec.ofInt 32 z) s)
  let s := modSyn i (fun x => { x with limited := beyond || (x.limited && decide (z.natAbs = 2 ^ 27)) }) s
  if beyond && !was then raise 0x0202 (unitPll i) [] s else s

/-- A write of SYN_CTL (R258). A field that keeps its value is not written. A synthesizer that is OFF or HELD takes
the fields and does not hop: a hop by register does not release HELD (R256). DEDUCED: log 46. -/
def synCtlWrite (i : Nat) (w : Word) (s : State) : State :=
  let old := rd s (synCtl i)
  let s := wr (synCtl i) (fieldPut old 7 0 (fieldGet w 7 0)) s
  let pre := fieldGet w 3 0 != fieldGet old 3 0
  let slot := fieldGet w 5 4
  let s := if pre then each (List.range 4) (fun k => wrB (synSlotR i k) 14 false) s else s
  if synState s i = 0 ∨ synState s i = 4 then s
  else if pre && slot == fieldGet old 5 4 then synAgain i (synActive s i) true (synOf s i).hopTag s
  else if slot != fieldGet old 5 4 then synHop i slot false (synOf s i).hopTag s
  else if fieldGet w 7 6 != fieldGet old 7 6 then synHop i (synActive s i) false (synOf s i).hopTag s
  else s

/-- A write of a hop slot word: register 0 takes N_INT, register 1 N_FRAC; the word of a slot that is not active loses
VALID, and the active slot's word moves the VCO within its band (R239). -/
def synWordWrite (i k : Nat) (frac : Bool) (w : Word) (s : State) : State :=
  let s := if frac then wr (synSlotR i k + 4) w s else wrF (synSlotR i k) 7 0 (fieldGet w 7 0) s
  if k = synActive s i ∧ synState s i ≠ 0 then s else wrB (synSlotR i k) 14 false s

/-- EVT_SYNTH_MARGIN (R257): once below 32, again only after the margin has risen above 64. -/
def synMargin (i m : Nat) (s : State) : State :=
  let s := wrF (synStatusR i) 23 16 m s
  if m < 32 then
    if (synOf s i).marginLow then s else raise 0x0201 (unitPll i) [] (modSyn i (fun x => { x with marginLow := true }) s)
  else if 64 < m then modSyn i (fun x => { x with marginLow := false }) s
  else s

/-! ### Steering -/

/-- The role of a port: slave (R156). -/
def portSlave (s : State) (p : Nat) : Bool := (portOf s p).fixedRole == some true

/-- Pairs of a port whose link is in TRAIN or UP. -/
def livePairs (s : State) (p : Nat) : List Nat :=
  (eight (8 * p)).filter (fun l => (linkOfPair s l).any (fun m =>
    trainOrUp (linkOf s m).state && (activePairs s m).contains l))

/-- The timing pair of a port: the lowest one that is not quiet, else the lowest (R157). -/
def timingPair (s : State) (p : Nat) : Option Nat :=
  let l := livePairs s p
  match l.find? (fun k => !(pairOf s k).quiet) with
  | some k => some k
  | none => l.head?

/-- Some COMPAT link of a port is in TRAIN or UP, or also in LEAVING. -/
def compatIn (s : State) (p : Nat) (f : LState → Bool) : Bool :=
  (portLinks s p).any (fun m => isCompat (modeOf s m) && f (linkOf s m).state)

/-- The steering mode of a port synthesizer (R244). -/
def steerMode (s : State) (p : Nat) : Nat :=
  if (portOf s p).ramp then 5
  else if compatIn s p trainOrUp then 4
  else if !portSlave s p then 0
  else if (livePairs s p).any (fun l => (pairOf s l).adopted) then (if (portOf s p).locked then 3 else 2)
  else if (portLinks s p).any (fun m => (linkOf s m).state == .train) || (synOf s p).acquire.isSome || (synOf s p).remeasure then 1
  else 0

/-- SYN_STATUS as it reads. -/
def synStatusWord (s : State) (i : Nat) : Word :=
  if i < 64 then fieldPut (rd s (synStatusR i)) 7 5 (steerMode s i) else rd s (synStatusR i)

/-- The timing of a port changes for every FDX link of it, and each link in UP reports it (R159). -/
def setTiming (p : Nat) (locked : Bool) (s : State) : State :=
  if (portOf s p).locked = locked then s
  else
    let s := modSyn p (fun x => { x with held := synSteer s p }) (modPort p (fun x => { x with locked := locked }) s)
    each ((portLinks s p).filter (fun m => isFdx (modeOf s m) && trainOrUp (linkOf s m).state)) (fun m s =>
      let s := modLink m (fun x => { x with locked := locked, lockRun := 0, unlockRun := 0 }) s
      if (linkOf s m).state = .up then raise 0x0505 (unitLink m) [] s else s) s

/-- The frequency offset of R247, a fraction, from a steering offset and the mean integrator. DEDUCED: log 72. -/
def steerOffset (s : State) (i : Nat) (steer : Int) (im : Rat) : Rat :=
  (steer : Rat) / (max 1 (slotWord s i (synActive s i)) : Nat) + im / 1024

/-- A clamped step (R246): beyond 2^20 it is 2^20 with the same sign, and the clamp is counted. -/
def clampStep (i : Nat) (d : Int) (s : State) : Int × State :=
  if 2 ^ 20 < d.natAbs then ((if d < 0 then -(2 ^ 20) else 2 ^ 20), count (synClampR i) 1 s) else (d, s)

end Sys2Proof.Machine
end

