-- ==== Sys2Proof/Machine/Store.lean ====
section
/-! DEFINITION. The MRAM stores of calibration and continuity records, and the takes built from them (R136 to R142,
R160), and the state of the chain lock (R254). -/
namespace Sys2Proof.Machine

/-! ### Calibration records -/

/-- The record of a pair and band. DESIGN CHOICE: log 8. -/
def calRecord (l band : Nat) : List Byte := (List.range 320).map (Config.calRecordByte (4 * l + band))
/-- CRC, MAGIC and PAIR check (R137). -/
def calValid (l : Nat) (r : List Byte) : Bool :=
  leAt r 0 4 == 0x524C4143 && leAt r 6 2 % 512 == l && crc32 (r.take 0x13C ++ zeros 4) == leAt r 0x13C 4
/-- The band of a temperature in 1/16 °C (R136). -/
def bandOf (t : Int) : Nat := if t < 480 then 0 else if t < 880 then 1 else if t < 1280 then 2 else 3
/-- Bands by their distance from one, the lower first. -/
def nearBands (b : Nat) : List Nat :=
  ((List.range 4).map (fun d => ((if d ≤ b then [b - d] else []) ++ (if d = 0 ∨ 3 < b + d then [] else [b + d])))).flatten

/-- Read the calibration record of a pair for a band: a bad one is reported (R137). DEDUCED: log 64. -/
def calRead (l band : Nat) (s : State) : Option (List Byte) × State :=
  let r := calRecord l band
  if !mramReady s then (none, s)
  else if calValid l r then (some r, s)
  else (none, raise 0x0800 (pairUnit l) (leBytes 1 band) s)

/-- Slice trims that leave samples as they are: SKEW 0, OFFSET 0, GAIN 2048 (R92). DEDUCED: log 43. -/
def neutralTrims : List Byte := (List.range 64).flatMap (fun _ => leBytes 4 (2048 * 2 ^ 20))

/-- The slice trims that a run starts from: those of the band's record, else of the nearest valid one (R137). DEDUCED: log 43. -/
def startTrims (l band : Nat) (s : State) : List Byte × State :=
  (nearBands band).foldl (fun (x : Option (List Byte) × State) b =>
    match x.1 with
    | some _ => x
    | none => let (r, s) := calRead l b x.2; (r.map (fun r => (r.drop 0x10).take 256), s)) (none, s)
  |> fun x => (x.1.getD neutralTrims, x.2)

/-! ### Takes that the device builds -/

/-- `n` bytes that the manual leaves open. DEDUCED: log 178. -/
def drawBytes (kind : Nat) : Nat → State → List Byte × State
  | 0, s => ([], s)
  | n + 1, s =>
    let (v, s) := draw kind s
    let (r, s) := drawBytes kind n s
    (v.setWidth 8 :: r, s)

/-- A take header without its CRC (R88). -/
def takeHeader (src l mode rate dir band temp sf id time serial port : Nat) : List Byte :=
  leBytes 4 0x454B4154 ++ leBytes 2 0x100 ++ leBytes 1 src ++ zeros 1 ++ leBytes 2 l ++ leBytes 1 mode ++ leBytes 1 rate
    ++ leBytes 1 dir ++ leBytes 1 band ++ leBytes 2 temp ++ leBytes 4 sf ++ leBytes 4 id ++ leBytes 8 time
    ++ leBytes 8 serial ++ leBytes 1 port ++ zeros 19
/-- A take from its header and its 4,032 other bytes, with its CRC (R87). -/
def sealTake (hdr body : List Byte) : List Byte :=
  let b := (body ++ zeros 4032).take 4032
  hdr ++ leBytes 4 (crc32 (hdr ++ zeros 4 ++ b)) ++ b

/-- Port temperature, in 1/16 °C. -/
def portTemp (s : State) (p : Nat) : Int := (tabGet 0 s.temps p).toInt

/-- The header of a take that the device makes for a pair of a link (R131, R160). TAKE_ID is open. DESIGN CHOICE: log 41. -/
def ownHeader (src l m dir : Nat) (s : State) : List Byte × State :=
  let x := linkOf s m
  let t := portTemp s (l / 8)
  let md := modeOf s m
  let (id, s) := draw 1 s
  (takeHeader src l md (if isFdx md then 1 else 2) dir (bandOf t) (twos 16 t) (curSf s l).toNat id.toNat s.time.toNat
    (if isFdx md then x.serial else 0) (if isFdx md then x.port else 0), s)

/-- The transmit, hybrid and receive control blocks of an entry take (R160). -/
def entryControl : List Byte :=
  leBytes 2 0 ++ leBytes 2 0 ++ leBytes 2 12288 ++ zeros 6 ++ leBytes 2 1024 ++ zeros 2
    ++ [128, 128, 128, 32, 128] ++ zeros 11
    ++ leBytes 2 128 ++ leBytes 2 32 ++ leBytes 2 (twos 16 (-4096)) ++ leBytes 2 0 ++ leBytes 2 4096 ++ leBytes 2 0
    ++ [8, 0] ++ leBytes 2 0x84 ++ leBytes 2 0x84 ++ zeros 14

/-- A take from its header and its other bytes: the bounds words, which the manual leaves to the producer, are free as far as R98 allows.
DESIGN CHOICE: log 41. -/
def boundedTake (hdr body : List Byte) (s : State) : List Byte × State :=
  let b := (body ++ zeros 4032).take 4032
  let t := hdr ++ zeros 4 ++ b
  let (w, s) := (List.range 13).foldl (fun (x : List Byte × State) k =>
    let (v, s) := draw 2 x.2
    (x.1 ++ boundWord t k v.toNat, s)) ([], s)
  (sealTake hdr (b.take 0x7E0 ++ w ++ zeros 12 ++ b.drop 0x820), s)
/-- Notes fields that the manual leaves to the producer; the producer area is 0 (R100). DESIGN CHOICE: log 41. -/
def openNotes (s : State) : List Byte × State :=
  let (n, s) := drawBytes 3 7 s
  (zeros 64 ++ n ++ zeros 1945, s)

/-- The entry take of a pair (R160). DESIGN CHOICE: log 41. -/
def entryTake (l m : Nat) (s : State) : List Byte × State :=
  let (trims, s) := startTrims l (bandOf (portTemp s (l / 8))) s
  let (hdr, s) := ownHeader 0 l m 0 s
  let (tail, s) := openNotes s
  let ffe := zeros 16 ++ leBytes 2 8192 ++ zeros 46
  boundedTake hdr (entryControl ++ trims ++ zeros 832 ++ zeros 128 ++ zeros 512 ++ zeros 160 ++ ffe ++ tail) s

/-- A device-made take is written by the rule of "any slot"; it is VERIFIED when it passes R101 and else stays LOADED. None where it
has no slot, which is counted, or does not pass (R106, R108, R160). DEDUCED: log 42. -/
def placeTake (l : Nat) (t : List Byte) (s : State) : Option Nat × State :=
  match anySlot s l with
  | none => (none, count (takeStoreFullR l) 1 s)
  | some k =>
    let s := takeWords 0x22 0 l k 4096 (writeTake l k t s)
    if (verifyTake (takeContext s l) (takeAt s l k)).1 = 0 then (some k, setSlot l k slVerified false s) else (none, s)

/-! ### Continuity records (R138 to R142) -/

def contBytes (s : State) (i : Nat) : List Byte := tabGet [] s.contRecs i
def contPresent (s : State) (i : Nat) : Bool := !(contBytes s i).isEmpty
def contValid (r : List Byte) : Bool :=
  leAt r 0 4 == 0x544E4F43 && leAt r 4 2 == 0x0100 && crc32 (r.take 0x3C ++ zeros 4 ++ r.drop 0x40) == leAt r 0x3C 4
    && r.length == 512
def contHasKey (r : List Byte) (serial port own : Nat) : Bool :=
  leAt r 8 8 == serial && leAt r 7 1 % 64 == port && leAt r 6 1 % 64 == own
/-- The place that holds a key. -/
def contFind (s : State) (serial port own : Nat) : Option Nat :=
  (s.contRecs.find? (fun e => contHasKey e.2 serial port own)).map Prod.fst

/-- EVT_CONT_RECORD_BAD and CONT_BAD (R142). DEDUCED: log 64. -/
def contBadRead (s : State) : State := raise 0x0802 unitDev [] { s with contBad := s.contBad + 1 }

/-- The lookup of R139: a hit, by the place of its record. -/
def contLookup (m serial port : Nat) (s : State) : Option Nat × State :=
  if !mramReady s then (none, s)
  else match contFind s serial port (m / 8) with
  | none => (none, s)
  | some i =>
    let r := contBytes s i
    if !contValid r then (none, contBadRead s)
    else
      let covers := (linkOf s m).mask &&& ~~~(BitVec.ofNat 8 (leAt r 0x10 1)) == 0
      (if covers && isFdx (linkOf s m).mode then some i else none, s)

/-- A record with USE_STAMP and its CRC (R141). -/
def contStamp (r : List Byte) (stamp : Word) : List Byte :=
  let r1 := r.take 0x14 ++ leBytes 4 stamp.toNat ++ (r.drop 0x18).take 0x24
  r1 ++ leBytes 4 (crc32 (r1 ++ zeros 4 ++ r.drop 0x40)) ++ r.drop 0x40

/-- A hit advances the use counter and sets USE_STAMP (R139, R141). -/
def contHit (i : Nat) (s : State) : State :=
  let u := s.contUse + 1
  { s with contUse := u, contRecs := tabInsert s.contRecs i (contStamp (contBytes s i) u) }

/-- The calibration records of a pair, band after band. -/
def calRecords (l : Nat) : List Byte := (List.range 4).flatMap (calRecord l)
/-- Byte o of the take that a record's model of a pair expands to: the same record and calibration records always give the same take;
reserved bits and the producer area are 0 (R100, R101, R139). -/
def expandedByte (r : List Byte) (l o : Nat) : Byte :=
  if 0x867 ≤ o then 0
  else Config.continuityTakeByte r (calRecords l) l o &&& ~~~(BitVec.ofNat 8 (reservedMask o))
/-- The take that a record's model of a pair expands to (R139): what R88 does not fix of its header comes from the expansion too.
DESIGN CHOICE: log 8. -/
def expandedTake (r : List Byte) (l mode : Nat) : List Byte :=
  let open' (o n : Nat) : Nat := leAt ((List.range n).map (fun i => expandedByte r l (o + i))) 0 n
  sealTake (takeHeader 1 l mode 1 0 (open' 0xD 1 % 4) (open' 0xE 2) (open' 0x10 4) (open' 0x14 4) (open' 0x18 8)
      (leAt r 8 8) (leAt r 7 1 % 64))
    ((List.range 4032).map (fun o => expandedByte r l (o + 0x40)))

/-- The place that a write of a key takes: the record of the key, else a bad one, else a free place, else the one of
largest age, which is evicted (R138, R141, R142). -/
def contPlace (s : State) (serial port own : Nat) : Nat × Bool :=
  match contFind s serial port own with
  | some i => (i, false)
  | none => match s.contRecs.find? (fun e => !contValid e.2) with
    | some e => (e.1, false)
    | none => match (List.range 8192).find? (fun i => !contPresent s i) with
      | some i => (i, false)
      | none =>
        let age (r : List Byte) : Nat := (s.contUse - BitVec.ofNat 32 (leAt r 0x14 4)).toNat
        ((s.contRecs.foldl (fun b e => if age (contBytes s b) < age e.2 then e.1 else b) 0), true)

/-- The record of a link as it stands (R138). The pair models, the insertion-loss estimate and reserved notes come
from the takes; what the manual leaves open is drawn. DESIGN CHOICE: log 8. DESIGN CHOICE: log 135. -/
def contRecord (m : Nat) (stamp : Word) (s : State) : List Byte × State :=
  let x := linkOf s m
  let ps := activePairs s m
  let clusters := (ps.map (fun l => ((activeTake s l).map tkClusters).getD 0)).foldl max 0
  let snr := (ps.map (fun l => rdF s (snrR l) 15 0)).foldl min 0xFFFF
  let (il, s) := draw 4 s
  let h := leBytes 4 0x544E4F43 ++ leBytes 2 0x100 ++ leBytes 1 (m / 8) ++ leBytes 1 x.port ++ leBytes 8 x.serial
    ++ leBytes 1 x.runMask.toNat ++ leBytes 1 x.runMode ++ leBytes 1 (b2n x.slave) ++ leBytes 1 clusters
    ++ leBytes 4 stamp.toNat ++ leBytes 8 s.time.toNat ++ leBytes 2 (twos 16 (portTemp s (m / 8)))
    ++ leBytes 2 il.toNat ++ leBytes 2 snr ++ zeros 22
  let models := (List.range 8).flatMap (fun k =>
    let l := m / 8 * 8 + k
    if ps.contains l then (List.range 56).map (Config.pairModelByte ((activeTake s l).getD [])) else zeros 56)
  (h ++ leBytes 4 (crc32 (h ++ zeros 4 ++ models)) ++ models, s)

/-- The record of a link's key is to be written: a newer one due replaces one that still waits (R140). -/
def contWriteDue (m : Nat) (s : State) : State :=
  if (linkOf s m).pol.flags.getLsbD 4 && (linkOf s m).serial != 0 then
    { s with contDue := s.contDue.filter (fun x => x != m) ++ [m] }
  else s

/-! ### The chain lock of this device (R254, R280) -/

def rackState (s : State) (i : Nat) : Nat := rdF s (rackBase i + 4) 2 0
def rackActive (s : State) (i : Nat) : Nat := rdF s (rackBase i + 4) 7 4
def rackSlotR (i k : Nat) : Nat := rackBase i + 0x100 + 0x10 * k
/-- Reference mode of the active slot: 0 FREE, 1 REFA, 2 REFB, 3 SELECTED. -/
def rackMode (s : State) (i : Nat) : Nat := rdF s (rackSlotR i (rackActive s i)) 1 0
def outState (s : State) (n : Nat) : Nat := rdF s (outBase n + 0x10) 2 0
def outSrc (s : State) (n : Nat) : Nat := 72 + rdF s (outBase n) 0 0
def fabPll (s : State) : Nat := 72 + rdF s rackCtlR 0 0
def refActive (s : State) : Nat := rdF s refSelR 2 2

/-- The fabric PLL is in bypass (R280). -/
def fabBypass (s : State) : Bool :=
  (List.range 16).any (fun n => rdB s (outBase n) 3 && outSrc s n == fabPll s && (outState s n == 2 || outState s n == 3))

/-- The manager's part of R254: its fabric PLL is locked, not in bypass, and cleans from its own active reference, or
runs free. Whether a free-running PLL is looped back is the board's wiring, which FAB_REF states. DEDUCED: log 113. -/
def managerFabric (s : State) : Bool :=
  rackState s (fabPll s) == 3 && !fabBypass s
    && (rackMode s (fabPll s) == 3 || rackMode s (fabPll s) == refActive s + 1
        || (rackMode s (fabPll s) == 0 && rdF s refSelR 7 6 != 0))

/-- CHAIN_LOCKED as this device sends it (R254). -/
def chainLocked (s : State) : Bool :=
  rdB s refSelR (6 + refActive s) && !rdB s refSelR 5
    && (if rdB s chainStateR 0 then managerFabric s else rdB s chainStateR 1 && s.chain.fabricOk)

end Sys2Proof.Machine
end

