-- ==== Sys2Proof/Machine/Links.lean ====
section
/-! DEFINITION. What happens to a link and its pairs as the link changes state: slates, listening, roles, leaving,
departures and the entry into UP (R34, R47, R143 to R173), and the end of grading runs and captures that go with it. -/
namespace Sys2Proof.Machine

/-! ### Captures of a port's area (R196) -/

def capsOf (s : State) (p : Nat) : List Capture := tabGet [] s.captures p
def putCaps (p : Nat) (l : List Capture) (s : State) : State := { s with captures := tabPut [] s.captures p l }
/-- The first capture of the list holds the area: one that waited becomes ARMED. -/
def grantArea (l : List Capture) : List Capture :=
  match l with
  | [] => []
  | c :: t => (if c.state = 0 then { c with state := 1 } else c) :: t
/-- A capture asks for the area, in arrival order. -/
def capAsk (p : Nat) (c : Capture) (s : State) : State := putCaps p (grantArea (capsOf s p ++ [c])) s
/-- Captures leave the area or its queue. -/
def capDrop (p : Nat) (f : Capture → Bool) (s : State) : State := putCaps p (grantArea ((capsOf s p).filter (fun c => !f c))) s
/-- A host capture is armed or held on the port (R204). -/
def hostCapture (s : State) (p : Nat) : Option Capture := (capsOf s p).find? (fun c => c.owner == 0)

/-! ### Grading runs (R126 to R132) -/

def runsOf (s : State) (g : Nat) : List Run := tabGet [] s.runs g
def putRuns (g : Nat) (l : List Run) (s : State) : State := { s with runs := tabPut [] s.runs g l }
def groupOf (l : Nat) : Nat := l / 32
/-- A run is in progress: its first pass has begun. -/
def runBegun (r : Run) : Bool := r.started || r.retake || r.fails != 0
/-- A grading run of a pair is in progress (R133). -/
def runInProgress (s : State) (l : Nat) : Bool := (runsOf s (groupOf l)).any (fun r => r.pair == l && !r.profile && runBegun r)
/-- A run's next pass waits behind those that were queued before it (R132). -/
def requeue (l : Nat) (f : Run → Run) (s : State) : State :=
  let q := runsOf s (groupOf l)
  let mine (r : Run) : Bool := r.pair == l && !r.profile
  putRuns (groupOf l) (q.filter (fun r => !mine r) ++ (q.filter mine).map f) s
/-- A grading run of a pair is queued or running. -/
def hasRun (s : State) (l : Nat) : Bool := (runsOf s (groupOf l)).any (fun r => r.pair == l && !r.profile)
def findRun (s : State) (l : Nat) : Option Run := (runsOf s (groupOf l)).find? (fun r => r.pair == l && !r.profile)
def modRun (l : Nat) (f : Run → Run) (s : State) : State :=
  putRuns (groupOf l) ((runsOf s (groupOf l)).map (fun r => if r.pair == l && !r.profile then f r else r)) s
def dropRun (l : Nat) (s : State) : State :=
  capDrop (l / 8) (fun c => c.owner == 1 && c.pair == l)
    (putRuns (groupOf l) ((runsOf s (groupOf l)).filter (fun r => r.pair != l || r.profile)) s)
/-- Queue a run, unless the pair has one: a trigger joins it (R132). DEDUCED: log 68. -/
def queueRun (l cls etag : Nat) (cut : Bool) (s : State) : State :=
  if hasRun s l then s
  else
    let x := linkOf s ((linkOfPair s l).getD l)
    let pol := if x.state = .train then x.trainPol else x.pol
    putRuns (groupOf l) (runsOf s (groupOf l) ++
      [{ pair := l, cls := cls, etag := etag, cut := cut, tol := pol.retakeTol, auto := pol.flags.getLsbD 2 }]) s

/-- The result of TAKE_GRADE (R354). -/
def gradeResult (slot check : Nat) (err : Int) (snr : Nat) : List Byte :=
  leBytes 1 slot ++ leBytes 1 check ++ leBytes 2 (twos 16 err) ++ leBytes 2 snr

/-- A run ends without a take; a TAKE_GRADE that asked for it completes. -/
def endRun (l status : Nat) (result : List Byte) (s : State) : State :=
  match findRun s l with
  | none => s
  | some r =>
    let s := dropRun l s
    if r.cls = 1 then complete r.etag status result s else s
/-- A run ends as its link leaves UP or its unit is reset: a verification of its take that waits is not made, and the
slot stays LOADED (R131, R356). -/
def abortRun (l : Nat) (s : State) : State :=
  let slot := ((findRun s l).bind Run.slot).getD 0xFF
  let s := modTile (l / 64) (fun x => { x with loader := x.loader.filter (fun r => r.fill || r.pair != l || r.purpose < 2) }) s
  endRun l stAborted (gradeResult slot 0 0 0) s

/-- DIGITAL_PAIR is in effect (R207): the framers of the link's pairs feed their own deframers, and the line transmits nothing.
DESIGN CHOICE: log 171. -/
def digitalLoop (s : State) (m : Nat) : Bool := (linkOf s m).loopback == 3 && (linkOf s m).state == .down && isFdx (linkOf s m).mode
/-- REMOTE is in effect: the streams received go back to the partner in place of the host's. -/
def remoteLoop (s : State) (m : Nat) : Bool := (linkOf s m).loopback == 2

/-! ### Slates (R34, R46, R47, R71, R133) -/

/-- STATE of a pair's COUNT (R46, R165, R177). -/
def slateState (s : State) (l : Nat) : Nat :=
  match linkOfPair s l with
  | none => 0
  | some m =>
    let x := (linkOf s m).state
    if x = .leaving then 3 else if (pairOf s l).quiet then 2
    else if x = .up ∨ (pairOf s l).qualified then 1 else 0

/-- A notice is to be sent in the slate of the pair's current superframe (R114, R120). -/
def noticePending (s : State) (l : Nat) : Bool :=
  match (pairOf s l).cut with
  | some c => c.coord && !c.acked && !sfFuture c.notice (pairOf s l).sf && sfFuture c.sf (pairOf s l).sf
      && !pairMismatchInForce s l
  | none => false
/-- An answer goes into the first own odd slate after the decode, and into every later one before S (R115). -/
def ackPending (s : State) (l : Nat) : Bool := (pairOf s l).answer.any (fun a => !a.sent || sfFuture a.sf (pairOf s l).sf)
/-- The answer as it is sent: while a count mismatch is in force, every notice is answered with ACCEPT = 0 (R120). -/
def ackNow (s : State) (l : Nat) (a : Answer) : BitVec 64 := ackMsg { a with accept := a.accept && !pairMismatchInForce s l }

/-- The QUIET message that a pair has to send: the answer to a request decoded since the last one, or its own request before
ENTRY_SF (R176). -/
def quietPending (s : State) (l : Nat) : Option (BitVec 64) :=
  let p := pairOf s l
  match p.quietAnsDue, p.quietAns, p.quietReq with
  | true, some (g, sf, r), _ => some (quietMsg (if g then 2 else 3) sf r)
  | _, _, some q => if q.mine && sfFuture q.sf p.sf then some (quietMsg 1 q.sf q.refresh) else none
  | _, _, none => none

/-- The message of a pair's slate (R47). -/
def slateChoice (s : State) (l : Nat) : BitVec 64 :=
  let p := pairOf s l
  if !bitGet p.sf 0 then
    let x := linkOf s ((linkOfPair s l).getD l)
    countMsg p.sf x.slave x.locked (chainLocked s) (l % 8) (slateState s l) (modeOf s ((linkOfPair s l).getD l))
      ((activeSlot s l).getD 0)
  else match ackPending s l, p.answer, noticePending s l, p.cut with
  | true, some a, _, _ => ackNow s l a
  | _, _, true, some c => noticeMsg c
  | _, _, _, _ => match quietPending s l with
    | some m => m
    | none => identMsg (bitGet p.sf 1) (l / 8)

/-- The own quiet interval falls into this superframe: even for the master, odd for the slave (R34). -/
def ownInterval (s : State) (l : Nat) : Bool := bitGet (pairOf s l).sf 0 == (linkOf s ((linkOfPair s l).getD l)).slave
/-- A pair of the end has a cut at this superframe: no injection (R71). -/
def cutNow (s : State) (m : Nat) (sf : Word) : Bool :=
  (linkPairs s m).any (fun l => (pairOf s l).cut.any (fun c => !c.await && c.sf == sf) || (pairOf s l).exch.any (fun e => e.sf == sf))
/-- Phase 2 of training, whose own quiet intervals give the initial grading its slice trims (R163). -/
def trimPhase (x : LinkSt) : Bool := x.state == .train && x.phase == 2 && x.road != 2
/-- What the pair transmits in the quiet interval: 0 zero output, 1 ZERO, 2 TONE (R34, R71, R133, R163). -/
def injection (s : State) (l : Nat) : Nat :=
  let m := (linkOfPair s l).getD l
  let x := linkOf s m
  if !ownInterval s l || cutNow s m (pairOf s l).sf then 0
  else if (x.state == .up && x.pol.flags.getLsbD 1) || trimPhase x || runInProgress s l then (if (pairOf s l).nextTone then 2 else 1)
  else 0

/-- The slate of the pair's current superframe is sent, and its rows begin at row 0 with a fresh scrambler (R41). -/
def sendSlate (l : Nat) (s : State) : State :=
  let m := slateChoice s l
  let j := injection s l
  modPair l (fun p => { p with
    slate := m
    cut := p.cut.map (fun c => if slateType m = 2 then { c with sent := true } else c)
    answer := p.answer.map (fun a => if slateType m = 3 then { a with sent := true } else a)
    quietAnsDue := p.quietAnsDue && slateType m != 6
    inject := j
    nextTone := if j = 0 then p.nextTone else !p.nextTone
    row := 0
    scr := scramblerSeed (l % 8) p.sf }) s

/-! ### Framing state of pairs -/

/-- A pair forgets the acquisition it was in. -/
def framingOff (p : PairSt) : PairSt :=
  { p with
    txOn := false, adopted := false, sfLock := false, found := none, missed := 0, disagree := 0, agree := 0
    mismatch := false, farBodies := 0, rowLost := false, cutDone := false, qualified := false, partnerUp := false
    quiet := false, refreshing := false, quietReq := none, quietAns := none, quietAnsDue := false, answer := none, div := none
    exch := none, trainSlot := none, beaconOk := false, trained := false, rxReady := false, asked := none, queue := 0, identLo := none, identHi := none, inject := 0, rxAbsent := false, rxLpi := false, rxUnderrun := false
    partnerTx := none, lowRun := 0, highRun := 0, rotation := 0, rotRate := 0, rotPos := 0 }

/-- A pair that leaves TRAIN and UP was not live throughout a capture that runs (R194). -/
def captureLeft (l : Nat) (s : State) : State :=
  if (capsOf s (l / 8)).isEmpty then s
  else putCaps (l / 8) ((capsOf s (l / 8)).map (fun c => { c with live := c.live &&& ~~~(BitVec.ofNat 8 (2 ^ (l % 8))) })) s
/-- What ends when a link leaves TRAIN or UP: cuts, runs, quiet, the count mismatch (R49, R122, R130, R178). -/
def activityOff (m : Nat) (s : State) : State :=
  each (linkPairs s m) (fun l s =>
    let s := captureLeft l (abortRun l (cutAbort l 0x0B s))
    modPair l (fun p => { p with
      mismatch := false, disagree := 0, agree := 0, quiet := false, refreshing := false, quietReq := none, quietAns := none
      quietAnsDue := false, answer := none, div := none, partnerTx := none, qualified := false, nextTone := false }) s) s

/-- A decided exchange is made before the pair falls silent: nothing cancels it (R82). DEDUCED: log 51. -/
def finishExchanges (m : Nat) (s : State) : State := each (linkPairs s m) (fun l s => modPair l exchangeAll s) s

/-- DEDUCED: log 51. -/
def linkSilent (m : Nat) (s : State) : State := each (linkPairs s m) (fun l s => modPair l framingOff s) (finishExchanges m s)

/-! ### Ports -/

def fdxOut (s : State) (p : Nat) : List Nat :=
  (portLinks s p).filter (fun m => isFdx (modeOf s m) && (linkOf s m).state != .down)

/-- A port synthesizer on slot 1 hops back to slot 0 when no COMPAT link needs it (R241). -/
def hopBack (p : Nat) (s : State) : State :=
  if !compatIn s p (fun x => x == .train || x == .up || x == .leaving) && synState s p == 2 && synActive s p == 1
      && rdF s (synCtl p) 5 4 == 1 then synHop p 0 false none (modSyn p (fun x => { x with auto := false }) s)
  else s
/-- What a port does once a link has left the line: the role and timing are free when every FDX link is DOWN (R156),
SYN_STEER ramps to 0 (R243), and the synthesizer hops back to slot 0 when no COMPAT link needs it (R241). -/
def portSettle (p : Nat) (s : State) : State :=
  let s := if (fdxOut s p).isEmpty && (portOf s p).fixedRole.isSome then
      modPort p (fun x => { x with fixedRole := none, locked := false, ramp := x.ramp || synSteer s p != 0 }) s
    else s
  let busy := compatIn s p (fun x => x == .train || x == .up || x == .leaving)
  let s := if busy then s else modPort p (fun x => { x with periodOn := false }) s
  hopBack p s

/-! ### Roles (R155) -/

/-- The preference and FORCED that an end offers. DEDUCED: log 50. -/
def ownPref (s : State) (m : Nat) : Nat × Bool :=
  match (portOf s (m / 8)).force with
  | some f => f
  | none => ((linkOf s m).pol.rolePref, false)

/-- The role of this end: none for a conflict, else whether it is slave. -/
def resolveRole (pref : Nat) (forced lock : Bool) (serial port : Nat) (o : Offer) : Option Bool :=
  let mine := forced && pref != 0
  let his := o.forced && o.pref != 0
  if mine && his && pref == o.pref then none
  else if mine then some (pref == 2)
  else if his then some (o.pref == 1)
  else if (pref == 1) != (o.pref == 1) then some (o.pref == 1)
  else if (pref == 2) != (o.pref == 2) then some (pref == 2)
  else if lock != o.chainLocked then some o.chainLocked
  else if serial ≠ o.serial then some (decide (serial < o.serial))
  else some (decide (port < o.port))

def roleOf (s : State) (m : Nat) : Option Bool :=
  let f := ownPref s m
  resolveRole f.1 f.2 (chainLocked s) Config.serial.toNat (m / 8) (linkOf s m).offer

/-- Another FDX link of the port is out of DOWN. -/
def otherFdxOut (s : State) (m : Nat) : Bool := (fdxOut s (m / 8)).any (fun x => x != m)
/-- The role that a resolution gives: the port's own while another FDX link is out of DOWN (R156). -/
def portRole (s : State) (m : Nat) (slave : Bool) : Bool :=
  if otherFdxOut s m then (portOf s (m / 8)).fixedRole.getD slave else slave
/-- The port's role is fixed by its first FDX link; the forced preference has served its acquisition (R156, R181). -/
def fixRole (m : Nat) (slave : Bool) (s : State) : State :=
  modLink m (fun x => { x with slave := slave, serial := x.offer.serial, port := x.offer.port })
    (modPort (m / 8) (fun x => { x with fixedRole := some slave, force := none }) s)

/-! ### Listening (R145 to R149) -/

/-- The link takes the join road: the port's partner and role are fixed (R149). -/
def joins (s : State) (m : Nat) : Bool :=
  isFdx (linkOf s m).mode && otherFdxOut s m && (portOf s (m / 8)).fixedRole.isSome

/-- Entry takes are written and verified on every pair of a link: `trainSlot` names the slot of each (R160). False where
a pair had no slot for its take. DEDUCED: log 42. -/
def writeEntry (m : Nat) (s : State) : Bool × State :=
  (activePairs s m).foldl (fun (x : Bool × State) l =>
    let (t, s) := entryTake l m x.2
    match placeTake l t s with
    | (none, s) => (false, s)
    | (some k, s) => (x.1, modPair l (fun p => { p with trainSlot := some k }) s)) (true, s)

/-- The entry cut of a pair, which begins to transmit (R160); a pair that is not on its synthesizer's clock makes none (R20). -/
def cutEntry (l : Nat) (s : State) : State :=
  match (pairOf s l).trainSlot with
  | none => s
  | some k =>
    if !lineOn s l then s
    else
      let s := entryCut l k s
      if slotCode s l k = slActive then modPair l (fun p => { p with txOn := true, trainSlot := none }) s else s

/-- The entry cuts of every pair of a link, whose superframes begin at a number. -/
def startPairs (m : Nat) (sf : Word) (s : State) : State :=
  each (activePairs s m) (fun l s =>
    if (pairOf s l).trainSlot.isNone then s
    else
      let s := cutEntry l (modPair l (fun p => { p with sf := sf }) s)
      if (pairOf s l).txOn then sendSlate l s else s) s

/-- The superframe number that the port's live pairs run. -/
def portSf (s : State) (p : Nat) : Word :=
  match (eight (8 * p)).find? (fun l => (pairOf s l).txOn) with
  | some l => (pairOf s l).sf
  | none => 0

/-- A pair that leaves DOWN has latched no level and measured no SNR (R151, R186). -/
def leftDown (l : Nat) (s : State) : State := wrF (snrR l) 15 0 0xFFFF (wrF (sigLevelR l) 13 0 0x7FF s)
/-- A listening FDX link takes the join road (R149): role, partner and timing are the port's, and a master transmits at once. -/
def joinRoad (m : Nat) (s : State) : State :=
  let p := m / 8
  let role := (portOf s p).fixedRole == some true
  let others := (fdxOut s p).filter (fun y => y != m)
  let o := linkOf s ((others.find? (fun y => (linkOf s y).serial != 0)).getD (others.headD m))
  let s := modLink m (fun y => { y with
    state := .listen, road := 3, beacons := false, phase := 0, offer := {}
    slave := role, serial := o.serial, port := o.port, runMode := y.mode, runMask := y.mask, locked := (portOf s p).locked }) s
  if role then s else let sf := portSf s p; startPairs m sf (writeEntry m s).2
/-- The other FDX links of a port that still listen or negotiate join when its role is fixed (R149). -/
def joinOthers (m : Nat) (s : State) : State :=
  each ((fdxOut s (m / 8)).filter (fun y => y != m && isFdx (linkOf s y).mode && (linkOf s y).road != 3
    && ((linkOf s y).state == .listen || (linkOf s y).state == .negotiate))) joinRoad s

/-- A link enters LISTEN. Beacons go out only under R148; the first link of the port ramps SYN_STEER to 0 (R243). DEDUCED: log 47. -/
def enterListen (m : Nat) (suppress : Bool) (s : State) : State :=
  let p := m / 8
  let s := if (linkOf s m).state = .down then each (linkPairs s m) leftDown s else s
  let first := (portLinks s p).all (fun x => x == m || (linkOf s x).state == .down)
  let x := linkOf s m
  let s := if first then modPort p (fun y => { y with refMoved := false, ramp := y.ramp || synSteer s p != 0 }) s else s
  let want := !suppress && !x.noCont && x.pol.flags.getLsbD 4 && x.pol.expSerial != 0 && isFdx x.mode && !otherFdxOut s m
  let (hit, s) := if want then contLookup m x.pol.expSerial x.pol.expPort s else (none, s)
  let join := joins s m
  let s := modLink m (fun y => { y with
    state := .listen, listenTime := s.time, runMode := 0, runMask := 0, phase := 0, offer := {}, noCont := false
    relisten := false, synthWait := false, attempts := 0, counts := 0, countsUnlocked := 0, firedAs := none
    road := 0, beacons := want && hit.isSome }) s
  let s := each (linkPairs s m) (fun l s => modPair l (fun q => { framingOff q with detect := 0 }) s) s
  if join then joinRoad m s else s

/-! ### Results -/

/-- The result of LINK_UP and the data of EVT_LINK_UP (R350, R518). DEDUCED: log 57. -/
def upResult (s : State) (m reason : Nat) : List Byte :=
  let x := linkOf s m
  leBytes 1 x.road ++ leBytes 1 (if modeOf s m = 0x80 then 0 else modeOf s m) ++ leBytes 1 (b2n x.slave + 2 * b2n x.locked) ++ leBytes 1 reason
    ++ leBytes 4 (if reason = 0 then (x.upTime.toNat - x.listenTime.toNat) / 1000 else 0)

def opcLinkUp := 0x0202
def opcLinkDown := 0x0203
def opcTrainStep := 0x0208

/-- A link reaches DOWN: LINK_DOWN completes OK, a LINK_UP still pending ABORTED (R144). -/
def enterDown (m : Nat) (s : State) : State :=
  let s := modLink m (fun x => { x with state := .down, phase := 0, hold := false, heldAt := false, relisten := false, synthWait := false }) s
  let s := portSettle (m / 8) (linkSilent m s)
  let s := completeAll opcLinkUp 4 m stAborted (upResult s m (linkOf s m).lastReason) s
  completeAll opcLinkDown 4 m stOk [] s

/-- EVT_LINK_DOWN (R172). DEDUCED: log 40. -/
def linkDownEvent (m reason cause : Nat) (s : State) : State :=
  let l := ((activePairs s m).head?).getD m
  let runs := if isCompat (modeOf s m) then (portOf s (m / 8)).periodOn else (pairOf s l).txOn
  raise 0x0501 (unitLink m) (leBytes 1 reason ++ leBytes 1 (linkOf s m).phase ++ leBytes 1 cause ++ zeros 1
    ++ leBytes 4 (if runs then (curSf s l).toNat else 0)) s

/-- What every departure does first: the event, the end of cuts and runs, of holding and of a REMOTE loopback. DEDUCED: log 57. -/
def departStart (m reason cause : Nat) (s : State) : State :=
  let s := activityOff m (linkDownEvent m reason cause s)
  let s := modLink m (fun x => { x with
    lastReason := reason, lastCause := cause, hold := false, heldAt := false, phase := 0
    loopback := if x.loopback = 2 then 0 else x.loopback }) s
  completeAll opcTrainStep 4 m stAborted (leBytes 1 0 ++ zeros 3) s

/-- A departure other than by command (R172, R173). -/
def depart (m reason cause : Nat) (s : State) : State :=
  let x := linkOf s m
  let pol := if x.state = .train then x.trainPol else x.pol
  let s := departStart m reason cause s
  let auto := pol.flags.getLsbD 0
  if auto && (pol.relinkLimit == 255 || decide (x.relinks < pol.relinkLimit)) then
    let s := modLink m (fun y => { y with state := .holdoff, synthWait := reason == 5 }) s
    portSettle (m / 8) (linkSilent m s)
  else
    let s := if auto then raise 0x0506 (unitLink m) (leBytes 1 pol.relinkLimit ++ leBytes 1 reason ++ leBytes 1 cause) s else s
    enterDown m s

/-- The fast road fails: the record is stale, and the link goes through LEAVING to LISTEN without beacons (R169). DEDUCED: log 40. -/
def fastFail (m reason cause : Nat) (s : State) : State :=
  let s := departStart m reason cause s
  let s := raise 0x0507 (unitLink m) [] { s with contStale := s.contStale + 1 }
  modLink m (fun x => { x with state := .leaving, relisten := true, evenCounts := 0 }) s

/-- Training ends with TRAIN_FAIL (R161 to R164), on the fast road under R169. -/
def trainFail (m cause : Nat) (s : State) : State :=
  let x := linkOf s m
  if x.road = 2 ∧ (x.phase = 3 ∨ x.phase = 6) then fastFail m 0x08 cause s else depart m 0x08 cause s

/-- LINK_DOWN of a link in TRAIN or UP (R144): LEAVING, with a write of its continuity record (R140). -/
def leaveByCommand (m : Nat) (s : State) : State :=
  let s := departStart m 0x01 0 (contWriteDue m s)
  modLink m (fun x => { x with state := .leaving, relisten := false, evenCounts := 0 }) s

/-- LEAVING ends (R143, R144). -/
def leavingEnd (m : Nat) (s : State) : State :=
  if (linkOf s m).state ≠ .leaving then s
  else if (linkOf s m).relisten then
    portSettle (m / 8) (enterListen m true (linkSilent m s))
  else enterDown m s

/-- A link enters TRAIN: it keeps the policies in force (R181). -/
def enterTrain (m phase : Nat) (s : State) : State :=
  let s := modLink m (fun x => { x with
    state := .train, phase := phase, trainPol := x.pol, beacons := false, attempts := 0, counts := 0, countsUnlocked := 0
    locked := (portOf s (m / 8)).locked }) s
  each (linkPairs s m) (fun l s => modPair l (fun p => { p with
    trainSlot := none, pairMismatch := false, cutDone := false, rowLost := false, qualified := false, partnerUp := false, trained := false }) s) s

/-- SNR statistics begin afresh (R186). -/
def snrRestart (l : Nat) (s : State) : State :=
  wr (snrMeanR l) 0xFFFF (wrF (snrR l) 31 16 0xFFFF (modPair l (fun p => { p with snrSum := 0, snrN := 0 }) s))

/-- A link enters UP (R144, R165, R170, R173, R212, R518); one that came up on expanded takes is graded (R126). DEDUCED: log 148. -/
def enterUp (m : Nat) (s : State) : State :=
  let road := (linkOf s m).road
  let s := modLink m (fun x => { x with
    state := .up, phase := 0, upTime := s.time, relinks := 0, hold := false, heldAt := false
    lockRun := 0, unlockRun := 0 }) s
  let s := each (activePairs s m) (fun l s =>
    snrRestart l (modPair l (fun p => { p with nextTone := false, lowRun := 0, highRun := 0 }) s)) s
  let s := each (linkStreams s m) breakDue s
  let s := if road = 2 ∧ (linkOf s m).pol.flags.getLsbD 1 = true then each (activePairs s m) (fun l s => queueRun l 2 0 false s) s else s
  let r := upResult s m 0
  let s := completeAll opcTrainStep 4 m stOk (zeros 4) (raise 0x0500 (unitLink m) r s)
  completeAll opcLinkUp 4 m stOk r s

/-- A link in NEGOTIATE or LISTEN fails its resolution: a departure of R172. -/
def negotiateFail (m reason : Nat) (s : State) : State := depart m reason 0 s

/-- The banks of the pairs of a port's links are lost: their links in TRAIN or UP depart with BANKS_INVALID (R85, R172). -/
def linksLoseBanks (ms : List Nat) (s : State) : State :=
  each ms (fun m s => if trainOrUp (linkOf s m).state then depart m 0x04 0 s else s) s

/-- A port synthesizer is held: its links in NEGOTIATE, TRAIN and UP depart with SYNTH_UNLOCK (R172, R256). -/
def portHeld (p : Nat) (s : State) : State :=
  each (portLinks s p) (fun m s =>
    if trainOrUp (linkOf s m).state || (linkOf s m).state == .negotiate then depart m 0x05 0 s else s) s

end Sys2Proof.Machine
end

