-- ==== Sys2Proof/Machine/Superframe.lean ====
section
/-! DEFINITION. The transmit side of a pair: superframes, bank exchanges, COMPAT periods, rows (R31 to R44, R81 to R84,
R113 to R117, R124, R163, R174 to R177). -/
namespace Sys2Proof.Machine

/-! ### Training at a superframe's start (R163) -/

/-- A far body ended with the last superframe: the far end transmits in odd superframes to a master, in even ones to a
slave, in phase 1. -/
def farBody (s : State) (l m : Nat) : Bool :=
  let p := pairOf s l
  (linkOf s m).phase == 1 && p.sfLock && p.adopted && (bitGet (p.sf - 1) 0 != (linkOf s m).slave)

/-- Four far bodies have been received on every pair of the link. -/
def bodiesReady (s : State) (l m : Nat) : Bool :=
  (activePairs s m).all (fun x => decide (4 ≤ (pairOf s x).farBodies + b2n ((pairOf s x).sf != (pairOf s l).sf)))

/-- Replace bytes of a take. -/
def patchBytes (t : List Byte) (o : Nat) (b : List Byte) : List Byte := t.take o ++ b ++ t.drop (o + b.length)
/-- Taps whose absolute values sum to 2^14 at most, as R63 asks, from any values. -/
def limitTaps : Nat → List Int → List Int
  | _, [] => []
  | room, c :: t =>
    let a := c.natAbs % (room + 1)
    (if c < 0 then -(a : Int) else (a : Int)) :: limitTaps (room - a) t

/-- The take of S1: the entry take with the TX_FIR and the ADC_PHASE that the receiving end chose (R163). DESIGN CHOICE: log 134. -/
def s1Take (l m : Nat) (s : State) : List Byte × State :=
  let (t, s) := entryTake l m s
  let (fir, s) := drawBytes 5 12 s
  let (ph, s) := drawBytes 6 1 s
  let taps := (limitTaps 16384 (s16s fir 0 6)).flatMap (fun c => leBytes 2 (twos 16 c))
  let u := patchBytes (patchBytes t 0x40 taps) 0x60 ph
  boundedTake (u.take 0x3C) (u.drop 0x40) s

/-- The take of the next joined cut is cut in by notice: the slave's slot waits, the master sends the notice, with a
lead of 4 superframes; a declined or unanswered notice is sent again (R163). DEDUCED: log 42. -/
def trainCut (l m : Nat) (s : State) : State :=
  let p := pairOf s l
  let purpose := if (linkOf s m).phase = 1 then 1 else 4
  match p.trainSlot with
  | none => s
  | some k =>
    if p.cutDone || p.cut.isSome || slotCode s l k != slVerified then s
    else if (linkOf s m).slave then setCut l { slot := k, await := true, purpose := purpose } s
    else if pairMismatchInForce s l then s
    else coordCut l k purpose (nextOdd p.sf + 4) true none s

/-- What training does at the start of a pair's superframe. -/
def trainStart (l m : Nat) (s : State) : State :=
  let s := if farBody s l m then modPair l (fun p => { p with farBodies := p.farBodies + 1 }) s else s
  let x := linkOf s m
  if x.state ≠ .train then s
  else
    let s :=
      if x.phase = 1 ∧ (pairOf s l).trainSlot = none ∧ bodiesReady s l m = true then
        let (t, s) := s1Take l m s
        let (k, s) := placeTake l t s
        modPair l (fun p => { p with trainSlot := k }) s
      else s
    let s := if x.phase = 1 ∨ x.phase = 3 then trainCut l m s else s
    if x.phase = 4 ∧ x.road ≠ 2 ∧ x.slave = true ∧ (pairOf s l).sf = x.phaseSf + 2
        ∧ (activePairs s m).any (fun k => (pairOf s k).rowLost) = true then
      trainFail m 0x04 s
    else s

/-! ### Quiet (R174, R176, R177) -/

/-- The conditions of R174, and R207: no loopback. The last superframe is the one that ended as the running one began. -/
def quietMeets (s : State) (l m : Nat) : Bool :=
  let x := linkOf s m
  let p := pairOf s l
  x.state == .up && isFdx (modeOf s m) && x.pol.flags.getLsbD 5 && x.pcs != 0 && p.ownLpi && p.farLpiLast && p.cut.isNone
    && !runInProgress s l && x.loopback == 0 && !(portOf s (l / 8)).hostLoop && !p.quiet

/-- Entry into quiet at ENTRY_SF, the refresh superframes, and the request for quiet. -/
def quietStart (l m : Nat) (s : State) : State :=
  let p := pairOf s l
  let looped := (linkOf s m).loopback != 0 || (portOf s (l / 8)).hostLoop
  let s := match p.quietReq with
    | some q =>
      if q.sf = p.sf then
        let s := modPair l (fun p => { p with quietReq := none, quietAns := none, quietAnsDue := false }) s
        if q.granted && !looped then count (quietEnterR l) 1 (modPair l (fun p => { p with
          quiet := true, quietSf := q.sf, quietRefresh := q.refresh, queue := 0 }) s)
        else s
      else s
    | none => s
  let p := pairOf s l
  let s := modPair l (fun p => { p with
    refreshing := p.quiet && p.sf != p.quietSf && (p.sf - p.quietSf).toNat % (8 * max 1 p.quietRefresh) == 0 }) s
  let n := if bitGet p.sf 0 then p.sf else p.sf + 1
  if quietMeets s l m && p.quietReq.isNone then
    modPair l (fun p => { p with
      quietReq := some { sf := n + 6, refresh := (linkOf s m).pol.quietRefresh, mine := true } }) s
  else s

/-! ### The superframe (R31) -/

/-- The audit of the active bank (R84). `hit`: an upset has struck it since the last one. -/
def bankAudit (l : Nat) (hit : Bool) (s : State) : State :=
  let s := if hit then modPair l (fun p => { p with active := damagedBank true p.active }) s else s
  if !(pairOf s l).banksValid || !bankBad (pairOf s l).active then s
  else
    let s := count (bankAuditErrR l) 1 s
    if (pairOf s l).bankReported then s
    else raise 0x0702 (pairUnit l) [] (modPair l (fun p => { p with bankReported := true }) s)

/-- The fill of a cut at S is asked for at the start of S − 1 (R113). -/
def fillRequest (l : Nat) (s : State) : State :=
  match (pairOf s l).cut with
  | some c => if !c.await && c.sf == curSf s l + 1 && !(c.coord && linkMismatch s ((linkOfPair s l).getD l)) then askFill l c.slot s else s
  | none => s

/-- A run that a partner's transmit change asked for starts at S + 1 (R117, R126). -/
def partnerTxStart (l m : Nat) (s : State) : State :=
  match (pairOf s l).partnerTx with
  | some n =>
    if n = (pairOf s l).sf then
      let s := modPair l (fun p => { p with partnerTx := none }) s
      if (linkOf s m).pol.flags.getLsbD 1 && (linkOf s m).state == .up then queueRun l 2 0 false s else s
    else s
  | none => s

/-- SUPERFRAME_START: `bad` says that an upset has struck the active (bit 0) or the standby bank (bit 1) since the last one;
`lpi` that every block of the own host stream in the last superframe was LPI. DESIGN CHOICE, log 153: the cut is decided first, so a
cut that is missed no longer keeps the injection out of the quiet interval of S (R71). -/
def superframeStart (l : Nat) (bad : BitVec 2) (lpi : Bool) (s : State) : State :=
  if s.mode ≠ .running ∨ (pairOf s l).txOn = false ∨ lineFrozen s l = true then s
  else
    let m := (linkOfPair s l).getD l
    let s := modPair l (fun p => { p with sf := p.sf + 1, ownLpi := lpi, farLpiLast := p.farLpi }) s
    let s := trainStart l m s
    if (pairOf s l).txOn = false then s
    else
      let s := cutDecide l (bad.getLsbD 1) s
      let s := partnerTxStart l m s
      let s := quietStart l m s
      let s := sendSlate l s
      let s := modPair l (fun p => { p with farLpi := p.sfLock }) s
      let s := if (linkOf s m).state = .leaving ∧ bitGet (pairOf s l).sf 0 = false ∧ (activePairs s m).head? = some l then
          modLink m (fun x => { x with evenCounts := x.evenCounts + 1 }) s
        else s
      bankAudit l (bad.getLsbD 0) (fillRequest l s)
def execSuperframeStart (l : Pair) (bad : BitVec 2) (lpi : Bool) (s : State) : Out State :=
  .next (superframeStart l.toNat bad lpi s)

/-! ### Exchanges (R81, R75) -/

def exchangeRow (f : PairSt → PairSt) (l : Nat) (s : State) : State :=
  if s.mode ≠ .running ∨ (pairOf s l).exch.isNone ∨ lineFrozen s l = true then s else modPair l f s
def execTxBankExchange (l : Pair) (s : State) : Out State := .next (exchangeRow exchangeTx l.toNat s)
def execRxAnalogExchange (l : Pair) (s : State) : Out State := .next (exchangeRow exchangeAna l.toNat s)
def execRxDigitalExchange (l : Pair) (s : State) : Out State := .next (exchangeRow exchangeDig l.toNat s)

/-! ### COMPAT periods (R124) -/

/-- The pairs of a port's COMPAT links that are UP. -/
def compatPairs (s : State) (p : Nat) : List Nat :=
  ((portLinks s p).filter (fun m => isCompat (modeOf s m) && (linkOf s m).state == .up)).flatMap (activePairs s)

/-- COMPAT_PERIOD_BOUNDARY: cuts of this period are decided and exchanged at once, fills of the next are asked for,
and the active banks audited. Bit k of the two masks: an upset has struck pair k's active, or standby, bank. -/
def periodBoundary (p : Nat) (bad badNext : BitVec 8) (s : State) : State :=
  if s.mode ≠ .running ∨ (portOf s p).periodOn = false ∨ lineFrozen s (8 * p) = true then s
  else
    let s := modPort p (fun x => { x with period := x.period + 1 }) s
    each (compatPairs s p) (fun l s =>
      let s := modPair l exchangeAll (cutDecide l (badNext.getLsbD (l % 8)) s)
      bankAudit l (bad.getLsbD (l % 8)) (fillRequest l s)) s
def execCompatPeriodBoundary (p : Port) (bad badNext : BitVec 8) (s : State) : Out State :=
  .next (periodBoundary p.toNat bad badNext s)

/-! ### Rows (R37 to R44) -/

/-- A pair transmits a body in this superframe (R34, R143, R162, R163, R177). -/
def sendsBody (s : State) (l m : Nat) : Bool :=
  let x := linkOf s m
  let p := pairOf s l
  let own := bitGet p.sf 0 == x.slave
  if digitalLoop s m then true
  else if x.state = .up then !p.quiet || p.refreshing
  else if x.state = .listen then own
  else if x.state = .train then
    if x.road = 2 ∨ 5 ≤ x.phase then true
    else if x.phase = 4 then
      if sfFuture x.phaseSf p.sf then own else !x.slave || !sfFuture (x.phaseSf + 2) p.sf
    else own
  else false

/-- Bits that the gearbox queue of a stream holds (R40). -/
def queueRoom : Nat := 16384
/-- The fill count of a row that carries the stream, and the queue's level at its end, from the level at its start, the bits that arrive
while the row is sent, and the control's choice `x` (R40): every data codeword is complete when its turn comes, and the queue does not
overflow where fewer fill codewords prevent it. DESIGN CHOICE: log 48. -/
def rowFill (level arrive x : Nat) : Nat × Nat :=
  let bits := level + arrive
  let lo := 254 - min 254 (bits / 120)
  let hi := max lo (254 - min 254 ((bits - queueRoom + 119) / 120))
  let f := lo + x % (hi + 1 - lo)
  (f, min queueRoom (bits - 120 * (254 - f)))

/-- ROW_START: `lpi` says that the host stream is in 802.3 LPI; with REMOTE loopback the row carries the stream received instead (R207). The rows of a superframe count whether a body is sent or not (R37, R178).
The bits that arrive during a row, and the queue control's choice among the fill counts that fit, are free values (R40). Its data codewords count as event 0x29 (R414, R415).
DESIGN CHOICE: log 48. -/
def rowStart (l : Nat) (lpi : Bool) (s : State) : State :=
  let m := (linkOfPair s l).getD l
  if s.mode ≠ .running ∨ (pairOf s l).txOn = false ∨ lineFrozen s l = true then s
  else if !sendsBody s l m then modPair l (fun p => { p with row := (p.row + 1) % 8224, queue := 0 }) s
  else
    let p := pairOf s l
    let up := (linkOf s m).state == .up || digitalLoop s m
    let absent := if p.quiet then false else !up || (if remoteLoop s m then p.rxAbsent else p.absent || p.xqOff)
    let lpi := if remoteLoop s m then p.rxLpi else lpi
    let (v, s) := if absent || p.quiet then ((254, 0), s)
      else let (v, s) := draw 7 s; (rowFill p.queue (v.toNat % 32768) (v.toNat / 32768), s)
    let h := rowHeader v.1 p.row (l % 8) absent (p.quiet || (up && lpi)) p.underrun
    perfTally (l / 64) 0x29 (pairUnit l) (254 - v.1)
      (modPair l (fun p => { p with row := (p.row + 1) % 8224, fill := v.1, queue := v.2, underrun := false, header := h }) s)
def execRowStart (l : Pair) (lpi : Bool) (s : State) : Out State := .next (rowStart l.toNat lpi s)

/-- TX_UNDERRUN: the queue has run empty (R43). -/
def txUnderrun (l : Nat) (s : State) : State :=
  if s.mode ≠ .running then s else count (txUnderrunR l) 1 (modPair l (fun p => { p with underrun := true, queue := 0 }) s)
def execTxUnderrun (l : Pair) (s : State) : Out State := .next (txUnderrun l.toNat s)

/-- GBX_OVERFLOW (R44): `n` words are dropped as the queue stands full; a quiet pair holds its queue empty (R177). -/
def gbxOverflow (l n : Nat) (s : State) : State :=
  if s.mode ≠ .running ∨ (pairOf s l).quiet = true ∨ (pairOf s l).xqOff = true then s
  else
    let s := modPair l (fun p => { p with queue := queueRoom }) s
    raise 0x0602 (pairUnit l) [] (count (gbxOverflowR l) n s)
def execGbxOverflow (l : Pair) (n : BitVec 16) (s : State) : Out State := .next (gbxOverflow l.toNat n.toNat s)

end Sys2Proof.Machine
end

