-- ==== Sys2Proof/Machine/Receive.lean ====
section
/-! DEFINITION. The receive side of a pair: sync words, row headers, slate messages, SNR, the interpolator's limit and
the wake of a quiet pair (R36, R42, R46 to R49, R74, R114 to R120, R150, R158, R159, R165, R176, R178, R185 to R187). -/
namespace Sys2Proof.Machine

/-- A link of the join road that still listens (R149). -/
def joinListen (x : LinkSt) : Bool := x.state == .listen && x.road == 3

/-- A pair looks at slates: it runs on its synthesizer's clock, which is not stopped (R20, R240), and its link is in TRAIN, UP or LEAVING, or it listens on the join road, or its
own framer feeds it (R207). -/
def hears (s : State) (l : Nat) : Option Nat :=
  match linkOfPair s l with
  | some m =>
    let x := linkOf s m
    if s.mode = .running ∧ lineRuns s l = true ∧ (activePairs s m).contains l ∧ isFdx (modeOf s m)
        ∧ (trainOrUp x.state || x.state == .leaving || joinListen x || digitalLoop s m) then some m else none
  | none => none

/-! ### Superframe lock (R36) -/

/-- Superframe lock is lost: in TRAIN or UP the event, and the link departs with SF_LOCK_LOST (R172). -/
def sfLoss (l m : Nat) (s : State) : State :=
  let s := modPair l (fun p => { p with sfLock := false, found := none, missed := 0 }) s
  if trainOrUp (linkOf s m).state then depart m 0x03 0 (raise 0x0600 (pairUnit l) [] s) else s

/-- The level of R150, from a mean square in units of 1/1,024 LSB². DEDUCED: log 49. -/
def levelOf (ms : Nat) : Nat := (max 0 (min 0x7FE (-(roundLog 80 ms (1024 * 16384))))).toNat
/-- A level is latched from a source (R151). -/
def latchLevel (l src ms : Nat) (stamp : Word) (s : State) : State :=
  let q := (rdF s (sigLevelR l) 31 16 + 1) % 65536
  wr (sigStampR l) stamp (wr (sigLevelR l) (BitVec.ofNat 32 (levelOf ms + src * 2 ^ 11 + q * 2 ^ 16)) s)
/-- The stamp of sources 2 and 3: device time [41:10]. -/
def timeStamp (s : State) : Word := BitVec.ofNat 32 (s.time.toNat / 1024)

/-- Superframe lock is gained. The master numbers its superframes itself; the body before this sync word counts. -/
def sfGain (l m : Nat) (inv : Bool) (s : State) : State :=
  let master := !(linkOf s m).slave
  let s := modPair l (fun p => { p with sfLock := true, inverted := inv, missed := 0, adopted := p.adopted || master }) s
  modPair l (fun p => { p with farBodies := if master then b2n (farBody s l m) else p.farBodies }) s

/-- SYNC_WORD_RECEIVED: `n` of the 64 signs match; `spaced` says that this position lies exactly 2^27 symbols after
the last sync word found; `ms` is the mean square of the residual samples. A sync word that is missed is not received, and latches no
level (R150). -/
def syncWord1 (l n : Nat) (spaced : Bool) (ms : Nat) (s : State) : State :=
  match hears s l with
  | none => lineWake l s
  | some m =>
    let p := pairOf s l
    let pol : Option Bool := if 56 ≤ n then some false else if n ≤ 8 then some true else none
    if p.sfLock then
      let s := if trainOrUp (linkOf s m).state && pol == some p.inverted then latchLevel l 1 ms p.sf s else s
      if pol = some p.inverted then modPair l (fun p => { p with missed := 0 }) s
      else if p.missed < 2 then modPair l (fun p => { p with missed := p.missed + 1 }) s
      else sfLoss l m s
    else match pol with
    | none => s
    | some inv =>
      let s := if p.found = some inv ∧ spaced = true then sfGain l m inv s
        else modPair l (fun p => { p with found := some inv }) s
      if trainOrUp (linkOf s m).state then latchLevel l 1 ms p.sf s else s
def execSyncWordReceived (l : Pair) (n : BitVec 7) (spaced : Bool) (ms : Word) (s : State) : Out State :=
  .next (syncWord1 l.toNat n.toNat spaced ms.toNat s)

/-- SF_LOCK_LOSS: the third consecutive miss. -/
def sfLockLoss (l : Nat) (s : State) : State :=
  match hears s l with
  | some m => if (pairOf s l).sfLock then sfLoss l m s else s
  | none => s
def execSfLockLoss (l : Pair) (s : State) : Out State := .next (sfLockLoss l.toNat s)

/-! ### Wake of a quiet pair (R178) -/

def quietWake (l : Nat) (s : State) : State :=
  if (pairOf s l).quiet then
    count (quietWakeR l) 1 (breakDue l (modPair l (fun p => { p with
      quiet := false, rsOpen := true, refreshing := false, quietReq := none, quietAns := none, quietAnsDue := false }) s))
  else s
def execQuietWake (l : Pair) (s : State) : Out State := .next (if s.mode ≠ .running then s else quietWake l.toNat s)

/-! ### Row headers (R42) -/

/-- The flags of a row; UNDERRUN makes a BREAK due on the stream (R212). -/
def rxFlags (l : Nat) (a i u : Bool) (s : State) : State :=
  let s := modPair l (fun p => { p with rxAbsent := a, rxLpi := i, rxUnderrun := u }) s
  if u then breakDue l s else s

/-- The 255 body codewords of a row are decoded and counted (R31, R79, R184): each by what the decoder makes of its samples, which are
free, under the pair's active bank. They are counted as the row's header is received. DESIGN CHOICE: log 136. -/
def innerRow (l : Nat) (s : State) : State :=
  let (n, s) := draw 21 s
  let r := rowResults (pairOf s l).active.dig n.toNat
  countWide (innerUncorrR l) 48 (resultCount .uncorrectable r) (countWide (innerChaseR l) 48 (resultCount .searched r)
    (countWide (innerCorrR l) 48 (resultCount .corrected r) (countWide (innerCwR l) 64 255 s)))

/-- ROW_HEADER_RECEIVED: `r` is the number of the row that the receiver expects; at row 0 the descrambler is loaded from the own
superframe count and the partner's pair index (R41). Its data codewords count as event 0x2A (R414, R415). DESIGN CHOICE: log 136. -/
def rowHeaderIn (l r : Nat) (h : BitVec 120) (s : State) : State :=
  match hears s l with
  | none => s
  | some m =>
    if !(pairOf s l).sfLock || !(trainOrUp (linkOf s m).state || digitalLoop s m) then s
    else
      let got := headerRead h
      let s := if digitalLoop s m then countWide (innerCwR l) 64 255 s else innerRow l s
      let s := if r = 0 then modPair l (fun p => { p with rxScr := scramblerSeed p.farPair p.sf }) s else s
      let s := match got with
        | some (f, _) => modPair l (fun p => { p with rxFill := f, rxRow := r }) s
        | none => count (rowHdrLostR l) 1 (modPair l (fun p => { p with rxRow := r, rowLost := p.rowLost || ((linkOf s m).phase == 4 && !sfFuture (linkOf s m).phaseSf p.sf) }) s)
      let s := perfTally (l / 64) 0x2A (pairUnit l) (254 - (pairOf s l).rxFill) s
      let s := match headerFlags h with
        | some (a, i, u) => rxFlags l a i u s
        | none => s
      let s := modPair l (fun p => { p with farLpi := p.farLpi && p.rxLpi }) s
      let p := pairOf s l
      if p.quiet && got.any (fun g => g.2 == r) && !(p.refreshing && p.rxLpi) then quietWake l s else s
def execRowHeaderReceived (l : Pair) (r : BitVec 14) (h : BitVec 120) (s : State) : Out State :=
  .next (rowHeaderIn l.toNat r.toNat h s)

/-! ### Slate messages (R46, R48) -/

/-- A message of a pair in superframe lock, of the row's type: a failed CRC and a reserved type are counted. -/
def slateIn (ty l : Nat) (msg : BitVec 64) (act : Nat → State → State) (s : State) : State :=
  match hears s l with
  | none => s
  | some m =>
    if !(pairOf s l).sfLock then s
    else if !slateCrcOk msg then count (slateMsgErrR l) 1 s
    else if slateType msg = 0 ∨ 7 ≤ slateType msg then count (slateMsgUnknownR l) 1 s
    else if ty.testBit (slateType msg) then act m s
    else s

/-! ### COUNT (R49, R119, R158, R159, R162, R165) -/

/-- A held link stays at the end of its phase (R353); one that is stepped completes the step. -/
def holdHere (m : Nat) (s : State) : State :=
  let s := modLink m (fun x => { x with heldAt := true }) s
  completeAll opcTrainStep 4 m stOk (leBytes 1 (linkOf s m).phase ++ zeros 3) s

/-- The end condition of phase 6: every pair has qualified and has received STATE UP. -/
def upReady (s : State) (m : Nat) : Bool :=
  (linkOf s m).state == .train && (linkOf s m).phase == 6
    && (activePairs s m).all (fun l => (pairOf s l).qualified && (pairOf s l).partnerUp)
def upCheck (m : Nat) (s : State) : State :=
  if !upReady s m || (linkOf s m).heldAt then s
  else if (linkOf s m).hold then holdHere m s else enterUp m s

/-- EVT_SF_COUNT_MISMATCH (R49). DEDUCED: log 39. -/
def countMismatch (l on : Nat) (sf : Word) (s : State) : State :=
  raise 0x0601 (pairUnit l) (leBytes 1 on ++ zeros 3 ++ leBytes 4 sf.toNat) s

/-- The comparison of SF_NUM with the own number; a mismatch cancels the link's coordinated cuts (R49, R120). -/
def countCompare (l m : Nat) (n : Word) (s : State) : State :=
  let p := pairOf s l
  if n = p.sf then
    let s := modPair l (fun p => { p with disagree := 0, agree := min 4 (p.agree + 1) }) s
    if p.mismatch ∧ 4 ≤ p.agree + 1 then countMismatch l 0 p.sf (modPair l (fun p => { p with mismatch := false }) s) else s
  else
    let s := modPair l (fun p => { p with agree := 0, disagree := min 2 (p.disagree + 1) }) s
    if p.disagree = 1 ∧ p.mismatch = false then
      each (linkPairs s m) (fun k s => if (pairOf s k).cut.any (fun c => c.coord) then cutAbort k 0x07 s else s)
        (countMismatch l 1 n (modPair l (fun p => { p with mismatch := true }) s))
    else s

/-- The recovery cut of R119. -/
def recover (l : Nat) (d : Diverge) (s : State) : State :=
  if d.took then
    if d.slot < 8 ∧ slotCode s l d.slot = slRetired then askVerify l d.slot 5 0 0 s else s
  else if slotCode s l d.slot = slVerified ∧ (pairOf s l).cut.isNone then localCut l d.slot 6 none s
  else s

/-- The divergence test of a COUNT with a number and an ACTIVE_SLOT (R119). -/
def divergence (l m : Nat) (n : Word) (slot : Nat) (s : State) : State :=
  match (pairOf s l).div with
  | none => s
  | some d =>
    if sfFuture d.sf n then modPair l (fun p => { p with div := some { d with partner := slot } }) s
    else if sfFuture d.final n then s
    else
      let s := modPair l (fun p => { p with div := none }) s
      let changed := slot != d.partner
      if d.took = changed then s
      else
        let s := raise 0x0701 (pairUnit l) (leBytes 1 (if d.took then 1 else 2) ++ leBytes 1 ((activeSlot s l).getD 0xFF)
          ++ leBytes 1 d.partner ++ leBytes 1 slot ++ leBytes 4 d.sf.toNat) s
        if (linkOf s m).pol.flags.getLsbD 3 then recover l d s else s

/-- What COUNT's CHAIN_LOCKED says about the timing of a link in UP, at the slave (R159). DESIGN CHOICE, log 154: the consecutive COUNT
messages are those of the port's timing pair. -/
def timingCount (l m : Nat) (chain : Bool) (s : State) : State :=
  let x := linkOf s m
  if x.state ≠ .up ∨ x.slave = false ∨ timingPair s (m / 8) ≠ some l then s
  else
    let own := chainLocked s
    let x := if chain && own then { x with lockRun := min 64 (x.lockRun + 1), unlockRun := 0 }
      else { x with lockRun := 0, unlockRun := if chain then 0 else min 2 (x.unlockRun + 1) }
    let s := putLink m x s
    if x.locked && (x.unlockRun == 2 || !own) then setTiming (m / 8) false s
    else if !x.locked && x.lockRun == 64 then setTiming (m / 8) true s
    else s

/-- The adoption of the master's number, and the entry cut (R162). DEDUCED: log 52. -/
def adopt (l : Nat) (n : Word) (off : Nat) (s : State) : State :=
  if (pairOf s l).trainSlot.isNone then s
  else cutEntry l (modPair l (fun p => { p with sf := n, adopted := true, sfOffset := min 64 off, agree := 0, disagree := 0 }) s)

/-- The partner's ACTIVE_SLOT to record from a COUNT: from S of a cut that will be tested on, the one from before S stays (R119). -/
def slotRecord (p : PairSt) (n : Word) (slot : Nat) : Nat :=
  match p.cut with
  | some c => if (c.joined || c.join) && !sfFuture (if c.joined then c.notice else c.sf) n then p.partnerSlot else slot
  | none => slot
/-- COUNT on a link in TRAIN or UP. Every COUNT is compared first, also one that makes the link depart (R49). -/
def countActive (l m : Nat) (msg : BitVec 64) (off : Nat) (s : State) : State :=
  let k := slateField msg 41 39
  let st := slateField msg 43 42
  let chain := msg.getLsbD 38
  let n := slateSf msg
  let x := linkOf s m
  let s := if (pairOf s l).adopted then countCompare l m n s else s
  if x.state = .train ∧ k ≠ l % 8 then
    depart m 0x06 0 (raise 0x0504 (pairUnit l) (leBytes 1 (l % 8) ++ leBytes 1 k)
      (modPair l (fun p => { p with pairMismatch := true }) s))
  else if st = 3 then
    (if x.state = .train ∧ x.road = 2 then fastFail m 0x02 0 s else depart m 0x02 0 s)
  else
    let s := if (pairOf s l).adopted then s else adopt l n off s
    let s := modPair l (fun p => { p with
      farPair := k, partnerSlot := slotRecord p n (slateField msg 50 48), partnerUp := p.partnerUp || st == 1 }) s
    let s := modLink m (fun x => { x with
      partnerLocked := chain, counts := x.counts + b2n (x.state == .train), countsUnlocked := x.countsUnlocked + b2n (x.state == .train && !chain) }) s
    let s := if !x.slave && msg.getLsbD 36 then setTiming (m / 8) (msg.getLsbD 37) s else s
    upCheck m (divergence l m n (slateField msg 50 48) (timingCount l m chain s))

/-- COUNT_RECEIVED: `off` is the offset of R35 that the pair trains to when it adopts the number. -/
def countIn (l : Nat) (msg : BitVec 64) (off : Nat) (s : State) : State :=
  slateIn 0b10 l msg (fun m s =>
    let x := linkOf s m
    if trainOrUp x.state then countActive l m msg off s
    else if joinListen x && !x.slave then
      countActive l m msg off (enterTrain m 1 (modPair l (fun p => { p with detect := 4 }) s))
    else s) s
def execCountReceived (l : Pair) (msg : BitVec 64) (off : BitVec 7) (s : State) : Out State :=
  .next (countIn l.toNat msg off.toNat s)

/-! ### CUT_NOTICE and CUT_ACK (R115 to R118) -/

/-- A notice is accepted by this end: no mismatch, time enough, no other scheduled slot, and with JOIN one that waits. -/
def noticeOk (s : State) (l m : Nat) (sf : Word) (join : Bool) : Bool :=
  let p := pairOf s l
  sfFuture sf p.sf && decide (2 ≤ sfDiff sf p.sf) && !linkMismatch s m
    && (match p.cut with
        | some c => c.await
        | none => !join)

/-- The acceptance of an earlier notice is cancelled: its slot waits again. -/
def unaccept (l : Nat) (s : State) : State :=
  let s := modPair l (fun p => { p with partnerTx := none }) s
  match (pairOf s l).cut with
  | some c => if c.joined then dropFills l (setCut l { slot := c.slot, await := true, purpose := c.purpose, etag := c.etag } s) else s
  | none => s

/-- A notice is evaluated and its answer prepared. -/
def noticeEval (l m : Nat) (sf : Word) (seq : Nat) (tx join : Bool) (s : State) : State :=
  let s := unaccept l s
  let ok := noticeOk s l m sf join
  let s := modPair l (fun p => { p with answer := some { sf := sf, seq := seq, accept := ok } }) s
  if !ok then s
  else if join then
    match (pairOf s l).cut with
    | some c => setCut l { c with await := false, sf := sf, joined := true, notice := sf } s
    | none => s
  else if tx then modPair l (fun p => { p with partnerTx := some (sf + 1) }) s
  else s

/-- A CUT_NOTICE on a link in TRAIN or UP: repeats get the same answer, and crossing notices go by role. -/
def noticeActive (l m : Nat) (msg : BitVec 64) (s : State) : State :=
  let sf := slateSf msg
  let seq := slateField msg 39 36
  let p := pairOf s l
  if p.answer.any (fun a => a.sf == sf && a.seq == seq) then
    modPair l (fun p => { p with answer := p.answer.map (fun a => { a with sent := false }) }) s
  else if p.cut.any (fun c => c.coord && c.sent && !c.acked) then
    if (linkOf s m).slave then noticeEval l m sf seq (msg.getLsbD 40) (msg.getLsbD 41) (cutAbort l 0x06 s)
    else modPair l (fun p => { p with answer := some { sf := sf, seq := seq, accept := false } }) s
  else noticeEval l m sf seq (msg.getLsbD 40) (msg.getLsbD 41) s
def noticeIn (l : Nat) (msg : BitVec 64) (s : State) : State :=
  slateIn 0b100 l msg (fun m s => if trainOrUp (linkOf s m).state then noticeActive l m msg s else s) s
def execCutNoticeReceived (l : Pair) (msg : BitVec 64) (s : State) : Out State := .next (noticeIn l.toNat msg s)

/-- A matching CUT_ACK stops the notices, or declines the cut. -/
def ackActive (l : Nat) (msg : BitVec 64) (s : State) : State :=
  match (pairOf s l).cut with
  | none => s
  | some c =>
    if !c.coord || c.sf != slateSf msg || c.seq != slateField msg 39 36 then s
    else if msg.getLsbD 40 then modPair l (fun p => { p with cut := some { c with acked := true } }) s
    else cutMiss l 0x05 0 slVerified stDisagree s
/-- DEDUCED: log 53. -/
def ackIn (l : Nat) (msg : BitVec 64) (s : State) : State :=
  slateIn 0b1000 l msg (fun m s => if trainOrUp (linkOf s m).state then ackActive l msg s else s) s
def execCutAckReceived (l : Pair) (msg : BitVec 64) (s : State) : Out State := .next (ackIn l.toNat msg s)

/-! ### IDENTITY (R46) -/

/-- DEDUCED: log 52. -/
def identityIn (l : Nat) (msg : BitVec 64) (s : State) : State :=
  slateIn 0b110000 l msg (fun _ s => modPair l (fun p =>
    if slateType msg = 4 then { p with identLo := some (BitVec.ofNat 52 (slateField msg 55 4)) }
    else { p with identHi := some (BitVec.ofNat 52 (slateField msg 55 4)) }) s) s
def execIdentityReceived (l : Pair) (msg : BitVec 64) (s : State) : Out State := .next (identityIn l.toNat msg s)

/-! ### QUIET (R176) -/

def quietRequest (l m : Nat) (sf : Word) (r : Nat) (s : State) : State :=
  let p := pairOf s l
  if p.quietAns.any (fun a => a.2 == (sf, r)) then modPair l (fun p => { p with quietAnsDue := true }) s
  else
    let cross := p.quietReq.any (fun q => q.mine && sfFuture q.sf p.sf)
    if cross && !(linkOf s m).slave then s
    else
      let ok := quietMeets s l m && sfFuture sf p.sf
      modPair l (fun p => { p with
        quietAns := some (ok, sf, r), quietAnsDue := true, quietReq := if ok then some { sf := sf, refresh := r, mine := false, granted := true } else none }) s
def quietActive (l m : Nat) (msg : BitVec 64) (s : State) : State :=
  let kind := slateField msg 5 4
  let sf := BitVec.ofNat 32 (slateField msg 37 6)
  let r := slateField msg 44 38
  if kind = 1 then quietRequest l m sf r s
  else match (pairOf s l).quietReq with
  | some q =>
    if !q.mine || q.sf != sf || q.refresh != r then s
    else if kind = 2 then modPair l (fun p => { p with quietReq := some { q with granted := true } }) s
    else if kind = 3 then modPair l (fun p => { p with quietReq := none }) s
    else s
  | none => s
def quietIn (l : Nat) (msg : BitVec 64) (s : State) : State :=
  slateIn 0b1000000 l msg (fun m s => if (linkOf s m).state = .up then quietActive l m msg s else s) s
def execQuietMessageReceived (l : Pair) (msg : BitVec 64) (s : State) : Out State := .next (quietIn l.toNat msg s)

/-! ### Slicer SNR (R185 to R187) -/

/-- SNR in 0.01 dB of `n` mean error powers whose sum is `p`, in units of 2^-32 level². DEDUCED: log 49. -/
def snrOf (n p : Nat) : Nat := (max 0 (min 65534 (roundLog 1000 (5 * 2 ^ 32 * n) p))).toNat

/-- EVT_SNR_LOW after 4 low measurements, EVT_SNR_RECOVERED after 64 at least 1 dB above the limit (R187). -/
def snrEvents (l m cur : Nat) (s : State) : State :=
  if (linkOf s m).state ≠ .up then s
  else
    let lim := 50 * (linkOf s m).pol.snrMin
    let s := modPair l (fun p => { p with
      lowRun := if cur < lim then min 4 (p.lowRun + 1) else 0
      highRun := if lim + 100 ≤ cur then min 64 (p.highRun + 1) else 0 }) s
    let p := pairOf s l
    let data := leBytes 2 cur ++ leBytes 2 (rdF s (snrR l) 31 16)
    if !p.snrLow && p.lowRun == 4 then raise 0x0900 (pairUnit l) data (modPair l (fun p => { p with snrLow := true }) s)
    else if p.snrLow && p.highRun == 64 then raise 0x0901 (pairUnit l) data (modPair l (fun p => { p with snrLow := false }) s)
    else s

/-- A measurement counts. -/
def snrTake (l m e : Nat) (s : State) : State :=
  let cur := snrOf 1 e
  let s := modPair l (fun p => { p with snrSum := p.snrSum + e, snrN := p.snrN + 1 }) s
  let p := pairOf s l
  let low := rdF s (snrR l) 31 16
  let s := wr (snrR l) (BitVec.ofNat 32 (cur + min low cur * 65536)) s
  let s := wr (snrMeanR l) (BitVec.ofNat 32 (snrOf p.snrN p.snrSum + min 65535 p.snrN * 65536)) s
  snrEvents l m cur s

/-- SNR_MEASUREMENT: `e` is the mean of e[m]² in units of 2^-32 level²; `held` that COMPAT signal detect, or superframe lock,
held throughout. -/
def snrMeasure (l e : Nat) (held : Bool) (s : State) : State :=
  match linkOfPair s l with
  | none => s
  | some m =>
    let p := pairOf s l
    if s.mode ≠ .running ∨ held = false ∨ !lineRuns s l ∨ !(activePairs s m).contains l ∨ !trainOrUp (linkOf s m).state then s
    else if isFdx (modeOf s m) && (!p.sfLock || (p.quiet && !p.refreshing)) then s
    else if isCompat (modeOf s m) && txPair s l then s
    else snrTake l m e s
/-- DEDUCED: log 9. -/
def execSnrMeasurement (l : Pair) (e : BitVec 48) (held : Bool) (s : State) : Out State :=
  .next (snrMeasure l.toNat e.toNat held s)

/-! ### The interpolator's limit (R74) -/

/-- INTERP_LIMIT: φ is held at a limit for `n` symbols; `first` says that an excursion begins. -/
def interpHit (l : Nat) (high : Bool) (n : Nat) (first : Bool) (s : State) : State :=
  if s.mode ≠ .running then s
  else
    let s := count (interpLimitR l) n (modPair l (fun p => { p with phi := if high then 8191 else -8192 }) s)
    if first then raise 0x0603 (pairUnit l) [] s else s
def execInterpLimit (l : Pair) (high : Bool) (n : Word) (first : Bool) (s : State) : Out State :=
  .next (interpHit l.toNat high n.toNat first s)

end Sys2Proof.Machine
end

