-- ==== Sys2Proof/Machine/Acquire.lean ====
section
/-! DEFINITION. Acquisition: negotiation, beacons, the four roads, the training phases and COMPAT training, the end of
LEAVING and HOLDOFF (R144 to R149, R152 to R173). -/
namespace Sys2Proof.Machine

/-! ### Negotiation (R146, R152 to R155) -/

/-- The pair on which a link sends DME: the lowest pair, or the transmit pair of the lowest stream (R146). -/
def dmePair (s : State) (m : Nat) : Nat :=
  if isFdx (linkOf s m).mode then m % 8 else if pairSwap s (m / 8) then m % 8 + 4 else m % 8
/-- A link listens for DME on a pair. -/
def dmeHears (s : State) (m k : Nat) : Bool :=
  let x := linkOf s m
  if isFdx x.mode then k == m % 8
  else if isCompat x.mode then k == (if pairSwap s (m / 8) then m % 8 else m % 8 + 4)
  else k == 0 || k == 4
/-- The link that a DME page on a pair belongs to; the pair runs on its synthesizer's clock (R20). -/
def dmeLink (s : State) (l : Nat) : Option Nat :=
  (portLinks s (l / 8)).find? (fun m => lineRuns s l && dmeHears s m (l % 8) && ((linkOf s m).state == .listen || (linkOf s m).state == .negotiate))

/-- FDX modes that a link offers, as the beacon MODES map: an FDX-n link its own, an AUTO link all. DEDUCED: log 50. -/
def fdxOffer (mode : Nat) : BitVec 4 :=
  if mode = 1 then 1 else if mode = 2 then 2 else if mode = 4 then 4 else if mode = 8 then 8 else if mode = 0x80 then 15 else 0
/-- COMPAT technologies that a link advertises: bit 0 COMPAT-1, bit 1 COMPAT-2, bit 2 COMPAT-4. DEDUCED: log 50. -/
def compatOffer (mode : Nat) : BitVec 3 :=
  if mode = 0x11 then 1 else if mode = 0x12 then 2 else if mode = 0x14 then 4 else if mode = 0x80 then 7 else 0

/-- The base page that a link sends: its COMPAT technologies, and NP when it offers any FDX mode (R152). The FEC abilities are those that
Clause 73 ties to the technologies. -/
def ownBase (s : State) (m : Nat) : Page := .base (compatOffer (linkOf s m).mode) (fdxOffer (linkOf s m).mode != 0)
/-- The preference and FORCED that an end offers, as bits [2:0]. -/
def ownRoleBits (s : State) (m : Nat) : Nat := (ownPref s m).1 + 4 * b2n (ownPref s m).2
/-- The three next pages of a link's FDX offer (R152). -/
def ownOffer (s : State) (m : Nat) : List Page :=
  let x := linkOf s m
  if fdxOffer x.mode = 0 then []
  else
    [ .message (BitVec.ofNat 48 (5 + Config.oui.toNat * 2 ^ 16 + 1 * 2 ^ 40)),
      .unformatted (BitVec.ofNat 48 ((fdxOffer x.mode).toNat + ownRoleBits s m * 2 ^ 4 + b2n (chainLocked s) * 2 ^ 7 + m % 8 * 2 ^ 8
        + Config.serial.toNat % 2 ^ 32 * 2 ^ 16)),
      .unformatted (BitVec.ofNat 48 (m / 8 + Config.serial.toNat / 2 ^ 32 * 2 ^ 16)) ]
/-- The null message page of Clause 73. PRESUMED: log 161, its message code is 1. -/
def nullPage : Page := .message 1
/-- The n-th page that a link sends in LISTEN and NEGOTIATE: its base page, its offer, and then null message pages (R152). -/
def pageOut (s : State) (m n : Nat) : Page := if n = 0 then ownBase s m else (ownOffer s m).getD (n - 1) nullPage

/-- What a page adds to the offer heard (R152). -/
def offerPage (o : Offer) (k : Nat) (page : Page) : Offer :=
  match page with
  | .base c _ => { o with base := true, compat := c, onPair := k }
  | .message d =>
    let n := d.toNat
    if bitsOf n 10 0 = 5 ∧ bitsOf n 39 16 = Config.oui.toNat ∧ bitsOf n 47 40 = 1 then { o with pages := 1 } else o
  | .unformatted d =>
    let n := d.toNat
    if o.pages = 1 then { o with
      pages := 2, modes := BitVec.ofNat 4 (bitsOf n 3 0), pref := bitsOf n 5 4, forced := n.testBit 6, chainLocked := n.testBit 7
      lowest := bitsOf n 10 8, serial := bitsOf n 47 16 }
    else if o.pages = 2 then { o with pages := 3, port := bitsOf n 5 0, serial := o.serial % 2 ^ 32 + bitsOf n 47 16 * 2 ^ 32 }
    else o

/-- CLAUSE73_PAGE: `ms` is the mean square over the page delimiter, in 1/1,024 LSB². The detector fires: beacons end,
and a listening link negotiates; while an activation is pending it holds the result (R385). -/
def pageIn (l : Nat) (page : Page) (ms : Nat) (s : State) : State :=
  if s.mode ≠ .running then s
  else match dmeLink s l with
  | none => lineWake l s
  | some m =>
    let s := modPair l (fun p => { p with detect := 1 }) (latchLevel l 2 ms (timeStamp s) s)
    let s := modLink m (fun x => { x with beacons := false, offer := offerPage x.offer (l % 8) page }) s
    if activationPending s && (linkOf s m).state == .listen then modLink m (fun x => { x with firedAs := some 0 }) s
    else modLink m (fun x => { x with state := .negotiate }) s
def execClause73Page (l : Pair) (page : Page) (ms : Word) (s : State) : Out State := .next (pageIn l.toNat page ms.toNat s)

/-- The largest mode of a set of FDX modes. -/
def largestMode (b : BitVec 4) : Nat :=
  if b.getLsbD 3 then 8 else if b.getLsbD 2 then 4 else if b.getLsbD 1 then 2 else if b.getLsbD 0 then 1 else 0
/-- n pairs from pair k. -/
def pairsFrom (k n : Nat) : BitVec 8 := BitVec.ofNat 8 ((2 ^ n - 1) * 2 ^ k)
/-- Pairs of n COMPAT streams from stream k. -/
def streamPairs (k n : Nat) : BitVec 8 := pairsFrom k n ||| pairsFrom (k + 4) n

/-- The FDX mode of R153, 0 for none. -/
def fdxChoice (s : State) (m : Nat) : Nat :=
  let o := (linkOf s m).offer
  if o.pages = 3 ∧ o.lowest = m % 8 ∧ o.onPair = dmePair s m then largestMode (o.modes &&& fdxOffer (linkOf s m).mode) else 0
/-- The COMPAT technology of R153: the highest common one. -/
def compatChoice (s : State) (m : Nat) : Nat :=
  let o := (linkOf s m).offer
  let c := o.compat &&& compatOffer (linkOf s m).mode
  if !o.base then 0 else if c.getLsbD 2 then 4 else if c.getLsbD 1 then 2 else if c.getLsbD 0 then 1 else 0

/-- The partner is not the expected one (R154). -/
def unexpected (x : LinkSt) : Bool :=
  x.pol.expSerial != 0 && (x.offer.serial != x.pol.expSerial || x.offer.port != x.pol.expPort)

/-- Phase 1 or the fast road begins with roles resolved: the port's role is fixed, and a slave ramps to the offset
measured, in units of SYN_STEER (R156, R160, R245); a reference switch in the measurement window restarts it. Links of the port that still listen take the join road (R149). -/
def fdxStart (m phase : Nat) (slave : Bool) (off : Int) (s : State) : State :=
  let slave := portRole s m slave
  let s := joinOthers m (enterTrain m phase (fixRole m slave s))
  let moved := (portOf s (m / 8)).refMoved
  let s := modPort (m / 8) (fun y => { y with refMoved := false }) s
  if slave then modSyn (m / 8) (fun y => { y with
    remeasure := moved, acquire := if moved then none else some (steerClip off) }) s else s

/-- A role conflict (R155). -/
def roleConflict (m found : Nat) (s : State) : State :=
  depart m 0x09 0 (raise 0x0503 (unitLink m) (leBytes 1 (ownPref s m).1 ++ leBytes 1 found) s)

/-- Entry takes are written; a pair with no slot ends the training (R160). -/
def entryPhase (m : Nat) (s : State) : State :=
  let (ok, s) := writeEntry m s
  if ok then s else trainFail m 0x03 s

/-- COMPAT training begins (R170): the synthesizer hops to slot 1 if it runs on slot 0 (R241), and the receive pairs are
to be graded. A held synthesizer is not released by it: the link fails with SYNTH_UNLOCK (R256). -/
def compatStart (m road n : Nat) (s : State) : State :=
  if synState s (m / 8) = 4 then negotiateFail m 0x05 s
  else
  let x := linkOf s m
  let mask := if x.mode = 0x80 then streamPairs 0 n else x.mask
  let s := modLink m (fun x => { x with road := road, runMode := 0x10 + n, runMask := mask, serial := 0, port := 0 }) s
  let s := enterTrain m 0 s
  let p := m / 8
  let s := if rdF s (synCtl p) 5 4 = 0 then synHop p 1 false none (modSyn p (fun y => { y with auto := true }) s) else s
  each ((activePairs s m).filter (fun l => !txPair s l)) (fun l s => queueRun l 0 0 true s) s

/-- NEGOTIATION_RESOLUTION: `off` is the offset that the port measured. -/
def resolution (m : Nat) (off : Int) (s : State) : State :=
  if s.mode ≠ .running ∨ (linkOf s m).state ≠ .negotiate then s
  else
    let n := fdxChoice s m
    if n ≠ 0 then
      if unexpected (linkOf s m) then
        negotiateFail m 0x07 (raise 0x0502 (unitLink m) (leBytes 8 (linkOf s m).offer.serial) s)
      else match roleOf s m with
      | none => roleConflict m 1 s
      | some pref =>
        let slave := portRole s m pref
        let s := modLink m (fun x => { x with road := 1, runMode := n, runMask := pairsFrom (m % 8) n }) s
        entryPhase m (fdxStart m 1 slave off s)
    else
      let c := compatChoice s m
      if c ≠ 0 then compatStart m 4 c s else negotiateFail m 0x0A s
def execNegotiationResolution (m : Pair) (off : Word) (s : State) : Out State := .next (resolution m.toNat off.toInt s)

/-! ### Beacons and the fast road (R147, R148, R168, R169) -/

/-- The beacon frame that a pair of a link sends (R147). -/
def beaconOut (s : State) (m l : Nat) : BitVec 128 :=
  let b := (0xF2C5 * 2 ^ 112 + Config.serial.toNat * 2 ^ 48 + l / 8 * 2 ^ 42 + l % 8 * 2 ^ 39 + (fdxOffer (linkOf s m).mode).toNat * 2 ^ 35
    + ownRoleBits s m * 2 ^ 32 + b2n (chainLocked s) * 2 ^ 31)
  BitVec.ofNat 128 (b + beaconCrc b)
/-- The symbols of a beacon frame: 64 at +3 for a one, 64 at −3 for a zero, b[127] first (R147). -/
def beaconSymbols (b : BitVec 128) : List Int := (bitsDown b).flatMap (fun x => List.replicate 64 (if x then 3 else -3))
/-- A listening link sends beacons on this pair (R148): it then sends no DME. -/
def sendsBeacon (s : State) (m l : Nat) : Bool :=
  (linkOf s m).beacons && !(portOf s (m / 8)).ramp && ((linkOf s m).state == .listen || (linkOf s m).state == .train) && (linkPairs s m).contains l && !(pairOf s l).txOn
/-- A link sends DME on this pair (R146, R148), not before the port's ramp has ended (R243). -/
def sendsDme (s : State) (m l : Nat) : Bool :=
  (((linkOf s m).state == .listen && !(linkOf s m).beacons && (linkOf s m).road != 3) || (linkOf s m).state == .negotiate)
    && l % 8 == dmePair s m && l / 8 == m / 8 && !(portOf s (m / 8)).ramp

/-- The FDX beacon detector of a listening link runs: on slot 0, every pair has it; on slot 1 it is off (R145). -/
def beaconOn (s : State) (m : Nat) : Bool := synActive s (m / 8) == 0
/-- BEACON_DETECT: the frame is the last of four valid ones; `ms` is the mean square over its preamble bits. -/
def beaconIn (l : Nat) (b : BitVec 128) (ms : Nat) (s : State) : State :=
  match linkOfPair s l with
  | none => s
  | some m =>
    let x := linkOf s m
    if s.mode ≠ .running ∨ x.state ≠ .listen ∨ !lineRuns s l ∨ !beaconOn s m ∨ !beaconOk b then lineWake l s
    else
      let n := b.toNat
      let s := modPair l (fun p => { p with detect := 2 }) (latchLevel l 3 ms (timeStamp s) s)
      if !x.beacons then s
      else if bitsOf n 111 48 ≠ x.pol.expSerial ∨ bitsOf n 47 42 ≠ x.pol.expPort then modLink m (fun x => { x with beacons := false }) s
      else
        let s := modLink m (fun x => { x with offer := { x.offer with
          modes := BitVec.ofNat 4 (bitsOf n 38 35), pref := bitsOf n 33 32, forced := n.testBit 34, chainLocked := n.testBit 31
          serial := bitsOf n 111 48, port := bitsOf n 47 42 } }) s
        modPair l (fun p => { p with beaconOk := bitsOf n 41 39 == l % 8 }) s
def execBeaconDetect (l : Pair) (b : BitVec 128) (ms : Word) (s : State) : Out State := .next (beaconIn l.toNat b ms.toNat s)

/-- BEACON_WINDOW_EXPIRY: the link sends DME from now on. -/
def beaconWindow (m : Nat) (s : State) : State :=
  if s.mode = .running ∧ (linkOf s m).state = .listen then modLink m (fun x => { x with beacons := false }) s else s
def execBeaconWindowExpiry (m : Pair) (s : State) : Out State := .next (beaconWindow m.toNat s)

/-- One pair's model is expanded into a take, written by R108 and given to the loader (R139). -/
def expandPair (l m i : Nat) (x : Bool × State) : Bool × State :=
  let s := x.2
  let t := expandedTake (contBytes s i) l (modeOf s m)
  match anySlot s l with
  | none => (false, count (takeStoreFullR l) 1 s)
  | some k => (x.1, askVerify l k 4 0 0 (modPair l (fun p => { p with trainSlot := some k })
      (takeWords 0x22 0 l k 4096 (writeTake l k t s))))

/-- Phase 3 of the fast road: the record is expanded into the link's takes. -/
def fastExpand (m : Nat) (s : State) : State :=
  let x := linkOf s m
  let (hit, s) := contLookup m x.serial x.port s
  match hit with
  | none => trainFail m 0x03 s
  | some i =>
    let (ok, s) := (activePairs s m).foldl (fun y l => expandPair l m i y) (true, contHit i s)
    if ok then s else trainFail m 0x03 s

/-- FAST_ROAD_ENTRY: while an activation is pending the beacon detectors hold their result (R385). -/
def fastEntry (m : Nat) (off : Int) (s : State) : State :=
  let x := linkOf s m
  if s.mode ≠ .running ∨ activationPending s = true ∨ x.state ≠ .listen ∨ x.beacons = false ∨ !((linkPairs s m).all (fun l => (pairOf s l).beaconOk)) then s
  else match roleOf s m with
  | none => roleConflict m 2 s
  | some pref =>
    let slave := portRole s m pref
    let s := modLink m (fun x => { x with road := 2, runMode := x.mode, runMask := x.mask }) s
    let s := fdxStart m 3 slave off s
    let s := if slave then modLink m (fun x => { x with beacons := true }) s else s
    fastExpand m s
def execFastRoadEntry (m : Pair) (off : Word) (s : State) : Out State := .next (fastEntry m.toNat off.toInt s)

/-! ### Parallel detection (R171) -/

/-- The receive pairs on which the detector fires, from the lowest one on, without a break. DEDUCED: log 59. -/
def firedRun (s : State) (m : Nat) (fired : BitVec 8) : Nat :=
  let base := if pairSwap s (m / 8) then 0 else 4
  ((List.range 4).takeWhile (fun k => fired.getLsbD (base + k))).length

/-- COMPAT_PARALLEL_DETECT: `fired` are the pairs of the port on which the COMPAT detector fires: it runs on every listening pair, and
an FDX-n link takes no mode from it (R145, R171). DEDUCED: log 59. -/
def parallelDetect (m : Nat) (fired : BitVec 8) (s : State) : State :=
  let x := linkOf s m
  if s.mode ≠ .running ∨ x.state ≠ .listen ∨ fired = 0 then s
  else
    let s := each ((linkPairs s m).filter (fun l => fired.getLsbD (l % 8) && lineRuns s l))
      (fun l s => modPair l (fun p => { p with detect := 3 }) s) s
    if !(isCompat x.mode || x.mode == 0x80) then s
    else
    let c := firedRun s m fired
    let here := (linkPairs s m).any (fun l => !txPair s l && fired.getLsbD (l % 8))
    let n := if x.mode ≠ 0x80 then (if here then x.mode - 0x10 else 0) else if c = 4 then 4 else if 2 ≤ c then 2 else c
    if n = 0 then s
    else if activationPending s then modLink m (fun x => { x with firedAs := some n }) s
    else compatStart m 5 n s
def execCompatParallelDetect (m : Pair) (fired : BitVec 8) (s : State) : Out State := .next (parallelDetect m.toNat fired s)

/-- What a link's detectors held takes effect (R385). DEDUCED: log 177. -/
def releaseDetector (m : Nat) (s : State) : State :=
  match (linkOf s m).state, (linkOf s m).firedAs with
  | .listen, some n =>
    let s := modLink m (fun x => { x with firedAs := none }) s
    if n = 0 then modLink m (fun x => { x with state := .negotiate }) s else compatStart m 5 n s
  | _, _ => s
/-- The pending state of an activation ends (R385): what the detectors held takes effect. DEDUCED: log 177. -/
def activationEnds (s : State) : State := each (List.range 512) releaseDetector (wrB fwStateR 3 false s)

/-! ### FDX training (R149, R158 to R165) -/

/-- MASTER_SUPERFRAME_ZERO: entry cuts on every pair, superframe 0 (R160, R168). -/
def masterZero (m : Nat) (s : State) : State :=
  let x := linkOf s m
  if s.mode = .running ∧ x.state = .train ∧ x.slave = false ∧ isFdx (modeOf s m)
      ∧ ((x.road = 1 ∧ x.phase = 1) ∨ (x.road = 2 ∧ x.phase = 4)) then startPairs m 0 s else s
def execMasterSuperframeZero (m : Pair) (s : State) : Out State := .next (masterZero m.toNat s)

/-- JOIN_ROAD_LOCK. -/
def joinLock (m : Nat) (s : State) : State :=
  let x := linkOf s m
  if s.mode = .running ∧ joinListen x = true ∧ x.slave = true ∧ (activePairs s m).all (fun l => (pairOf s l).sfLock) = true then
    let s := each (activePairs s m) (fun l s => modPair l (fun p => { p with detect := 4 }) s) s
    entryPhase m (enterTrain m 1 s)
  else s
def execJoinRoadLock (m : Pair) (s : State) : Out State := .next (joinLock m.toNat s)

/-- The measured offset is below 0.05 ppm; SYN_OFFSET is in units of 0.001 ppm (R258). -/
def offsetSmall (s : State) (p : Nat) : Bool := decide ((rd s (synOffsetR p)).toInt.natAbs < 50)

def allCut (s : State) (m : Nat) : Bool := (activePairs s m).all (fun l => (pairOf s l).cutDone)

/-- TIMING_DECISION (R158): at the end of phase 1 on the cold road, of the first qualification window on the fast one. DEDUCED: log 55. -/
def timingDecision (m : Nat) (s : State) : State :=
  let x := linkOf s m
  if s.mode = .running ∧ x.state = .train ∧ x.slave = true
      ∧ ((x.road = 1 ∧ x.phase = 1 ∧ allCut s m = true) ∨ (x.road = 2 ∧ x.phase = 6)) then
    setTiming (m / 8) (x.countsUnlocked == 0 && chainLocked s && offsetSmall s (m / 8)) s
  else s
def execTimingDecision (m : Pair) (s : State) : Out State := .next (timingDecision m.toNat s)

/-- The cut superframe of the link's first pair. -/
def linkCutSf (s : State) (m : Nat) : Word := rd s (cutSfR ((activePairs s m).headD m))
/-- The superframe number of the link's first pair. -/
def linkSf (s : State) (m : Nat) : Word := (pairOf s ((activePairs s m).headD m)).sf

/-- The end condition of the phase that a link is in (R161, R168). -/
def phaseDone (s : State) (m : Nat) : Bool :=
  let x := linkOf s m
  let ps := activePairs s m
  if x.phase = 1 then allCut s m
  else if x.phase = 2 then sfReached (x.phaseSf + 16) (linkSf s m)
  else if x.phase = 3 then
    if x.road = 2 then ps.all (fun l => (pairOf s l).trainSlot.any (fun k => slotCode s l k == slVerified))
    else ps.all (fun l => (pairOf s l).cutDone || (pairOf s l).cut.any (fun c => c.purpose == 4 && (c.acked || c.joined)))
  else if x.phase = 4 then
    if x.road = 2 then ps.all (fun l => (pairOf s l).txOn && (x.slave || (pairOf s l).sfLock))
    else allCut s m && sfReached (x.phaseSf + 2) (linkSf s m)
  else if x.phase = 5 then allCut s m
  else upReady s m

def setPhase (m n : Nat) (sf : Word) (s : State) : State := modLink m (fun x => { x with phase := n, phaseSf := sf, heldAt := false }) s
/-- Each pair forgets the take and the cut of the phase that ended. -/
def phaseFresh (m : Nat) (s : State) : State :=
  each (activePairs s m) (fun l s => modPair l (fun p => { p with trainSlot := none, cutDone := false }) s) s
/-- A qualification window begins (R165). -/
def windowStart (l : Nat) (s : State) : State :=
  modPair l (fun p => { p with qHdr := rd s (rowHdrLostR l), qLim := rd s (interpLimitR l) }) s
def windows (m : Nat) (s : State) : State := each (activePairs s m) windowStart s

/-- The phase after the one that ended begins. Phases 3 and 5 queue their grading. DEDUCED: log 53. -/
def phaseNext (m : Nat) (s : State) : State :=
  let x := linkOf s m
  let ps := activePairs s m
  if x.phase = 1 then let sf := linkCutSf s m; setPhase m 2 sf (phaseFresh m s)
  else if x.phase = 2 then each ps (fun l s => queueRun l 0 0 false s) (setPhase m 3 x.phaseSf s)
  else if x.phase = 3 then
    if x.road = 2 then setPhase m 4 0 s
    else let sf := linkCutSf s m; setPhase m 4 sf (each ps (fun l s => modPair l (fun p => { p with rowLost := false }) s) s)
  else if x.phase = 4 then
    if x.road = 2 then windows m (modLink m (fun x => { x with beacons := false }) (setPhase m 6 0 s))
    else each ps (fun l s => queueRun l 0 0 true s) (setPhase m 5 0 (phaseFresh m s))
  else if x.phase = 5 then windows m (setPhase m 6 0 s)
  else if x.phase = 6 then enterUp m (modLink m (fun x => { x with heldAt := false }) s)
  else s

/-- TRAINING_PHASE_END: the phase's end condition holds; a link that holds stays at its end (R353). -/
def phaseEnd (m : Nat) (s : State) : State :=
  let x := linkOf s m
  if s.mode ≠ .running ∨ x.state ≠ .train ∨ x.phase = 0 ∨ x.heldAt = true ∨ phaseDone s m = false then s
  else if x.hold then holdHere m s
  else phaseNext m s
def execTrainingPhaseEnd (m : Pair) (s : State) : Out State := .next (phaseEnd m.toNat s)

/-- TRAINING_PHASE_LIMIT: the limit of the phase has passed. Phase 2 is fixed and has none; a held link has none. DEDUCED: log 54. -/
def phaseLimit (m : Nat) (s : State) : State :=
  let x := linkOf s m
  if s.mode ≠ .running ∨ x.state ≠ .train ∨ x.phase = 0 ∨ x.phase = 2 ∨ x.heldAt = true then s
  else trainFail m (if x.phase = 6 then 0x05 else 0x01) s
/-- DEDUCED: log 54. -/
def execTrainingPhaseLimit (m : Pair) (s : State) : Out State := .next (phaseLimit m.toNat s)

/-- QUALIFICATION_WINDOW: 4 superframes have passed; `e` is the mean of e[m]² over them in units of 2^-32 level². -/
def qualWindow (l e : Nat) (s : State) : State :=
  match linkOfPair s l with
  | none => s
  | some m =>
    let x := linkOf s m
    let p := pairOf s l
    if s.mode ≠ .running ∨ x.state ≠ .train ∨ x.phase ≠ 6 ∨ !(activePairs s m).contains l then s
    else
      let ok := decide (50 * x.trainPol.snrMin ≤ snrOf 1 e) && rd s (rowHdrLostR l) == p.qHdr && rd s (interpLimitR l) == p.qLim
        && p.sfLock
      let s := windowStart l s
      if ok then upCheck m (modPair l (fun p => { p with qualified := true }) s) else s
def execQualificationWindow (l : Pair) (e : BitVec 48) (s : State) : Out State := .next (qualWindow l.toNat e.toNat s)

/-! ### COMPAT training (R125, R170) -/

/-- A transmit-only take with the transmit block that the partner asked for. DESIGN CHOICE: log 134. -/
def requestTake (l m : Nat) (tx : List Byte) (s : State) : List Byte × State :=
  let (hdr, s) := ownHeader 0 l m 1 s
  boundedTake hdr tx s

/-- COMPAT_TRAINING_REQUEST: `tx` is the transmit block, lowest byte first. The take is verified and cut in, and the new coefficient
status goes to the partner (R125); one that fails verification stays LOADED. DESIGN CHOICE: log 134. -/
def trainRequest (l : Nat) (tx : BitVec 128) (s : State) : State :=
  match linkOfPair s l with
  | none => s
  | some m =>
    if s.mode ≠ .running ∨ (linkOf s m).state ≠ .train ∨ !isCompat (modeOf s m) ∨ !(activePairs s m).contains l ∨ !txPair s l then s
    else
      let (t, s) := requestTake l m (leBytes 16 tx.toNat) s
      match anySlot s l with
      | none => count (takeStoreFullR l) 1 s
      | some k =>
        let s := takeWords 0x22 0 l k 4096 (writeTake l k t s)
        if (verifyTake (takeContext s l) (takeAt s l k)).1 = 0 then
          let s := entryCut l k (setSlot l k slVerified false s)
          if slotCode s l k = slActive then emit (.coefStatus l ((pairOf s l).active.tx.drop 0x40 |>.take 16)) s else s
        else s
def execCompatTrainingRequest (l : Pair) (tx : BitVec 128) (s : State) : Out State := .next (trainRequest l.toNat tx s)

/-- A COMPAT link in TRAIN. -/
def compatTrains (s : State) (m : Nat) : Bool := s.mode == .running && (linkOf s m).state == .train && isCompat (modeOf s m)

/-- A lane of a COMPAT link may complete its training: its receive pair signals receiver ready (R170) and runs on its synthesizer's
clock (R20). -/
def laneTrained (s : State) (l : Nat) : Bool := lineRuns s l && (txPair s l || (pairOf s l).rxReady)
/-- COMPAT_TRAINING_COMPLETE: the link enters UP, and the port's period 0 begins unless its periods run already. -/
def trainComplete (m : Nat) (s : State) : State :=
  if compatTrains s m && (activePairs s m).all (laneTrained s) then
    let s := each (activePairs s m) (fun l s => modPair l (fun p => { p with trained := true }) s) s
    let s := modPort (m / 8) (fun x => if x.periodOn then x else { x with periodOn := true, period := 0 }) s
    enterUp m s
  else s
def execCompatTrainingComplete (m : Pair) (s : State) : Out State := .next (trainComplete m.toNat s)

/-- COMPAT_TRAINING_TIMEOUT. -/
def trainTimeout (m : Nat) (s : State) : State := if compatTrains s m then trainFail m 0x01 s else s
def execCompatTrainingTimeout (m : Pair) (s : State) : Out State := .next (trainTimeout m.toNat s)

/-- COMPAT_SIGNAL_LOST (R172). -/
def signalLost (l : Nat) (s : State) : State :=
  match linkOfPair s l with
  | none => s
  | some m =>
    if s.mode = .running ∧ trainOrUp (linkOf s m).state = true ∧ isCompat (modeOf s m) = true
        ∧ (activePairs s m).contains l = true ∧ txPair s l = false then depart m 0x0B 0 s else s
def execCompatSignalLost (l : Pair) (s : State) : Out State := .next (signalLost l.toNat s)

/-! ### LEAVING and HOLDOFF (R143, R173) -/

/-- LEAVING_END: an FDX link has sent two even COUNTs, if its pairs send any. -/
def leaveDone (m : Nat) (s : State) : State :=
  let x := linkOf s m
  if s.mode ≠ .running then s
  else if isFdx (modeOf s m) && decide (x.evenCounts < 2) && (activePairs s m).any (fun l => (pairOf s l).txOn) then s
  else leavingEnd m s
def execLeavingEnd (m : Pair) (s : State) : Out State := .next (leaveDone m.toNat s)

/-- HOLDOFF_EXPIRY: after SYNTH_UNLOCK the synthesizer has to be LOCKED first. An attempt is counted. DEDUCED: log 47. -/
def holdoffEnd (m : Nat) (s : State) : State :=
  let x := linkOf s m
  if s.mode ≠ .running ∨ x.state ≠ .holdoff ∨ (x.synthWait = true ∧ synState s (m / 8) ≠ 2) then s
  else enterListen m false (modLink m (fun x => { x with relinks := x.relinks + 1 }) (timerWake s))
def execHoldoffExpiry (m : Pair) (s : State) : Out State := .next (holdoffEnd m.toNat s)

end Sys2Proof.Machine
end

