-- ==== Sys2Proof/Machine/Mux.lean ====
section
/-! DEFINITION. The glitch-free muxes and the clock of a pair's line domain (R290, R291, R301). -/
namespace Sys2Proof.Machine

/-- Set what a mux selects. The grader divider and the rack bypass keep their choice in the registers of their blocks. -/
def muxSet (mux inst v : Nat) (s : State) : State :=
  match mux with
  | 0 => wrF clkRootSrcR 4 3 v s
  | 1 => wrF clkRootSrcR 5 5 v s
  | 2 => wrB (tileClkStatusR inst) 0 (v == 1) s
  | 3 => modPair inst (fun p => { p with onSyn := v == 1 }) s
  | 5 => if v = 1 then s else wrF (outBase inst + 0x10) 2 0 v s
  | _ => s

/-- Request a switch: a mux that is switching takes the last request when its switch has ended (R291). DEDUCED: log 78. -/
def muxSwitch (mux inst old new : Nat) (s : State) : State :=
  if s.muxes.any (fun m => m.mux == mux && m.inst == inst) then
    { s with muxes := s.muxes.map (fun m => if m.mux == mux && m.inst == inst then { m with next := some new } else m) }
  else
    muxSet mux inst new { s with
      muxes := s.muxes ++ [{ mux := mux, inst := inst, old := old, new := new }] }

/-- The tile that a mux instance lies on; the hub's muxes are 0, 1 and 5 (R517). -/
def muxTile (mux inst : Nat) : Option Nat :=
  match mux with
  | 2 => some inst
  | 3 => some (inst / 64)
  | 4 => some (inst / 2)
  | _ => none
/-- Data byte 2 of EVT_CLKMUX_FORCED: the port of the pair, the group or the output. -/
def muxByte (mux inst : Nat) : Nat :=
  match mux with
  | 3 => inst / 8 % 8
  | 4 => inst % 2
  | 5 => inst
  | _ => 0

/-- A forced or abandoned switch is counted in its die and reported. -/
def muxForced (mux inst cause : Nat) (s : State) : State :=
  let a := match muxTile mux inst with
    | some t => tileMuxForcedR t
    | none => hubMuxForcedR
  let u := match muxTile mux inst with
    | some t => unitTile t
    | none => unitDev
  raise 0x0102 u (leBytes 1 mux ++ leBytes 1 cause ++ leBytes 1 (muxByte mux inst)) (count a 1 s)

/-- A switch has found a live clock: a domain that was held frozen runs again (R291). -/
def muxThaw (mux inst : Nat) (s : State) : State :=
  if s.muxFrozen.contains (mux, inst) then
    let s := { s with muxFrozen := s.muxFrozen.filter (fun f => f != (mux, inst)) }
    if mux = 3 ∧ synState s (inst / 8) = 2 then setFrozen (inst / 8) (muxHolds s (inst / 8)) s else s
  else s
/-- A switch ends; the last request that waited is then made. -/
def muxEnd (m : MuxSwitch) (now : Nat) (s : State) : State :=
  let s := { s with muxes := s.muxes.filter (fun x => !(x.mux == m.mux && x.inst == m.inst)) }
  match m.next with
  | some v => if v = now then s else muxSwitch m.mux m.inst now v s
  | none => s

def muxFind (s : State) (mux inst : Nat) : Option MuxSwitch := s.muxes.find? (fun m => m.mux == mux && m.inst == inst)

/-- MUX_WATCHDOG_FORCE (R290): the old clock is dead. -/
def muxForce (mux inst : Nat) (s : State) : State :=
  match muxFind s mux inst with
  | none => s
  | some m => muxEnd m m.new (muxThaw mux inst (muxForced mux inst 1 s))
def execMuxWatchdogForce (mux : Fin 6) (inst : Pair) (s : State) : Out State := .next (muxForce mux.val inst.toNat s)

/-- MUX_NEW_DEAD (R291): back to the old clock if that one is alive, otherwise the domain is held frozen. A rack output
has no domain to freeze: it stops. DEDUCED: log 78. -/
def muxNewDead (mux inst : Nat) (oldAlive : Bool) (s : State) : State :=
  match muxFind s mux inst with
  | none => s
  | some m =>
    let s := muxForced mux inst 2 s
    let s := if oldAlive then muxThaw mux inst (muxSet mux inst m.old s)
      else if mux = 5 then muxSet mux inst 3 s
      else
        let s := { s with muxFrozen := (mux, inst) :: s.muxFrozen.filter (fun f => f != (mux, inst)) }
        if mux = 3 then setFrozen (inst / 8) true s else s
    muxEnd m (if oldAlive then m.old else m.new) s
def execMuxNewDead (mux : Fin 6) (inst : Pair) (oldAlive : Bool) (s : State) : Out State :=
  .next (muxNewDead mux.val inst.toNat oldAlive s)

/-- MUX_SWITCH_DONE (R290). DEDUCED: log 78. -/
def muxDone (mux inst : Nat) (s : State) : State :=
  match muxFind s mux inst with
  | none => s
  | some m => muxEnd m m.new (muxThaw mux inst s)
def execMuxSwitchDone (mux : Fin 6) (inst : Pair) (s : State) : Out State := .next (muxDone mux.val inst.toNat s)

/-- CLK_SYN of a pair, and the switch of its line domain: to the port synthesizer only while that is LOCKED, until which
the request waits (R291, R301). -/
def clkSyn (s : State) (l : Nat) : Bool := rdB s (pairBase l) 2
def lineMux (l : Nat) (s : State) : State :=
  if clkSyn s l && !(pairOf s l).onSyn && synState s (l / 8) == 2 then muxSwitch 3 l 0 1 s
  else if !clkSyn s l && (pairOf s l).onSyn then muxSwitch 3 l 1 0 s
  else s
def lineMuxes (p : Nat) (s : State) : State := each (eight (8 * p)) lineMux s

end Sys2Proof.Machine
end

