-- ==== Sys2Proof/Machine/Synth.lean ====
section
/-! DEFINITION. What the port and tile host synthesizers do by themselves: loss of lock, margin, the end of a hop, the
steering period, paced small steps and the two ramps (R240 to R257). -/
namespace Sys2Proof.Machine

/-! ### Loss of lock, margin, the end of a hop -/

/-- SYNTH_LOSS_OF_LOCK (R256): a held port synthesizer takes its links down. A tile host synthesizer that rides
through a clapper restart has its detector masked (R274). -/
def synthLoss (i : Nat) (s : State) : State :=
  if s.mode ≠ .running ∨ 72 ≤ i ∨ (synOf s i).masked = true then s
  else
    let was := synState s i
    let s := synHold i s
    if i < 64 ∧ was ≠ 0 ∧ was ≠ 4 then portHeld i s else s
def execSynthLossOfLock (i : Pll) (s : State) : Out State := .next (synthLoss i.val s)

/-- SYNTH_MARGIN_LOW (R257): a measured margin. A rack PLL shows its margin and raises no event (R282). DEDUCED: log 73. -/
def marginIn (i m : Nat) (s : State) : State :=
  if s.mode ≠ .running then s
  else if i < 72 then (if synState s i = 0 then s else synMargin i m s)
  else wrF (rackBase i + 4) 15 8 m s
def execSynthMarginLow (i : Pll) (m : Byte) (s : State) : Out State := .next (marginIn i.val m.toNat s)

/-- SYNTH_HOP_DONE (R239, R240): the line domains that wait for the synthesizer switch to it (R301). With the band found where one was searched, the band of the other default slot at an
enable, and whether a stored band did not lock. A port that acquisition hopped to slot 1 hops back if its COMPAT links have left meanwhile (R241). -/
def synthHopEnd (i band other : Nat) (fresh : Bool) (s : State) : State :=
  if s.mode ≠ .running ∨ 72 ≤ i then s
  else
    let s := synHopDone i band other fresh s
    if i < 64 then lineMuxes i (if (synOf s i).auto then hopBack i s else s) else s
/-- DEDUCED: log 75. -/
def execSynthHopDone (i : Pll) (band other : BitVec 6) (fresh : Bool) (s : State) : Out State :=
  .next (synthHopEnd i.val band.toNat other.toNat fresh s)

/-! ### The steering period -/

/-- ST_PERIOD in 10 µs, ST_KF and ST_KP. A period of 0 is out of its range and counts as 1. DEDUCED: log 73. -/
def stPeriod (s : State) (p : Nat) : Nat := max 1 (rdF s (synCfgR p) 6 0)
def stKf (s : State) (p : Nat) : Nat := rdF s (synCfgR p) 10 8
def stKp (s : State) (p : Nat) : Nat := rdF s (synCfgR p) 14 12

/-- The relative step of R246 from the mean integrator and the mean phase, with `n` symbols in a steering period.
DESIGN CHOICE: log 71. -/
def loopLaw (s : State) (p n : Nat) (im phim : Rat) : Rat :=
  im / 1024 / (2 ^ stKf s p : Nat) + phim / 1024 / n / (2 ^ stKp s p : Nat)
/-- ΔW of R246; 10 µs hold 1,140,625 symbols of an FDX line. -/
def trackStep (s : State) (p : Nat) (im phim : Rat) : Int :=
  roundRat (runWord s p * loopLaw s p (1140625 * stPeriod s p) im phim)

/-- ΔW of R248, from the mean fill in bits. DEDUCED: log 72. -/
def compatStep (s : State) (p : Nat) (q : Int) : Int := roundDiv (runWord s p * (q - 4096)) (2 ^ (30 + stKf s p))

def steerBy (p : Nat) (d : Int) (s : State) : State := let (z, s) := clampStep p d s; smallStep p z s

/-- SYN_OFFSET, in 0.001 ppm, from an offset. DEDUCED: log 72. -/
def setOffset (p : Nat) (off : Rat) (s : State) : State := wr (synOffsetR p) (BitVec.ofInt 32 (roundRat (off * 1000000000))) s

/-- What the measured offset says of the timing (R159, R247): relative to the held word in HOLD. The links of the port
count their run of 64 afresh while it is 0.05 ppm or more. -/
def offsetTiming (p : Nat) (im : Rat) (s : State) : State :=
  if (portOf s p).locked then
    if decide (1 < absRat (steerOffset s p (synSteer s p - (synOf s p).held) im * 20000000)) || !chainLocked s then setTiming p false s else s
  else if 1 ≤ absRat (steerOffset s p (synSteer s p) im * 20000000) then
    each (portLinks s p) (fun m s => modLink m (fun x => { x with lockRun := 0 }) s) s
  else s

/-- The means of a pair's integrator and phase over the steering period; a loop that has not moved stands where it is. -/
def loopMeans (x : PairSt) : Rat × Rat :=
  if x.loopN = 0 then (x.integ, x.phi) else (x.loopI / x.loopN, (x.loopPhi : Rat) / x.loopN)
/-- The sums of a pair begin afresh. -/
def loopClear (x : PairSt) : PairSt := { x with loopI := 0, loopPhi := 0, loopN := 0 }

/-- The sampling clock of a COMPAT receive pair turns (R249): the law of R246, with the pair's own loop, steers the rate of the rotation in
place of the word; 10 µs hold 1,062,500 symbols of a COMPAT line. DESIGN CHOICE: log 71. -/
def rotatePair (p l : Nat) (s : State) : State :=
  let s := loopRun l s
  let n := 1062500 * stPeriod s p
  let (im, phim) := loopMeans (pairOf s l)
  let rate := (pairOf s l).rotRate + loopLaw s p n im phim
  let pos := (pairOf s l).rotPos + rate * n
  modPair l (fun x => { loopClear x with rotRate := rate, rotPos := pos, rotation := BitVec.ofInt 8 (pos * 256).floor }) s
/-- The receive pairs of a port's COMPAT links in TRAIN or UP turn. -/
def rotatePairs (p : Nat) (s : State) : State :=
  each ((portLinks s p).filter (fun m => isCompat (modeOf s m) && trainOrUp (linkOf s m).state)) (fun m s =>
    each ((activePairs s m).filter (fun l => !txPair s l)) (rotatePair p) s) s

/-- The pair whose loop supplies the means of the period that ends: the timing pair of its start (R157, R246). -/
def meansPair (s : State) (p : Nat) : Option Nat :=
  match (synOf s p).loopPair with
  | some l => some l
  | none => timingPair s p
/-- The loop of the period's pair has run; its means. -/
def periodMeans (p : Nat) (s : State) : (Rat × Rat) × State :=
  match meansPair s p with
  | none => ((0, 0), s)
  | some l => let s := loopRun l s; (loopMeans (pairOf s l), s)
/-- The next period begins: its means come from the timing pair as it now is. -/
def periodBegin (p : Nat) (s : State) : State :=
  let s := modSyn p (fun x => { x with loopPair := timingPair s p }) s
  match timingPair s p with
  | some l => modPair l loopClear s
  | none => s

/-- STEERING_PERIOD (R246 to R249), with the mean fill of the port's gearbox queues. -/
def steeringPeriod (p : Nat) (q : Nat) (s : State) : State :=
  if s.mode ≠ .running ∨ synState s p ≠ 2 then s
  else
    let s := rotatePairs p s
    let ((im, phim), s) := periodMeans p s
    let s := periodBegin p s
    match steerMode s p with
    | 2 =>
      let d := trackStep s p im phim
      steerBy p d (offsetTiming p im (setOffset p (steerOffset s p (synSteer s p) im) s))
    | 3 => offsetTiming p im (setOffset p (steerOffset s p (synSteer s p) im) s)
    | 4 =>
      let s := steerBy p (compatStep s p q) s
      setOffset p (steerOffset s p (synSteer s p) 0) s
    | _ => s
def execSteeringPeriod (p : Port) (q : BitVec 15) (s : State) : Out State := .next (steeringPeriod p.toNat q.toNat s)

/-! ### Paced steps -/

def rackStepOfs (i : Nat) : Nat := rackBase i + 8

/-- One step of RC_STEP_OFS, stopped at ±2^27 (R266). -/
def rackStep (i : Nat) (d : Int) (s : State) : State :=
  wr (rackStepOfs i) (BitVec.ofInt 32 (max (-(2 ^ 27)) (min (2 ^ 27) ((rd s (rackStepOfs i)).toInt + d)))) s

/-- A step is refused (R242, R266): a tile host synthesizer, one that is OFF, a port with a link out of DOWN, a rack PLL
that does not run in FREE mode. DEDUCED: log 74. -/
def stepRefused (s : State) (i : Nat) : Bool :=
  if i < 64 then synState s i == 0 || (portLinks s i).any (fun m => (linkOf s m).state != .down)
  else if i < 72 then true else rackMode s i != 0

/-- SMALL_STEP_APPLIED (R242, R266): the oldest CLK_STEP that waits on a PLL is applied and completes; one that its turn
finds refused completes so. -/
def smallStepDone (i : Nat) (s : State) : State :=
  if s.mode ≠ .running then s
  else match (synOf s i).steps with
  | [] => s
  | (e, d) :: t =>
    let s := modSyn i (fun x => { x with steps := t }) s
    if stepRefused s i then complete e stRefused [] s
    else
    let s := if i < 72 then smallStep i d s else rackStep i d s
    complete e stOk (leBytes 4 (rd s (if i < 72 then synSteerR i else rackStepOfs i)).toNat) s
def execSmallStepApplied (i : Pll) (s : State) : Out State := .next (smallStepDone i.val s)

/-- A value moved toward 0 by a full step. -/
def towardZero (z : Int) : Int := if z < -(2 ^ 20) then 2 ^ 20 else if 2 ^ 20 < z then -(2 ^ 20) else -z

/-- STEER_RAMP (R243): one step of a port's ramp; the ramp ends at 0. -/
def steerRamp (p : Nat) (s : State) : State :=
  if s.mode ≠ .running ∨ (portOf s p).ramp = false then s
  else
    let s := smallStep p (towardZero (synSteer s p)) s
    if synSteer s p = 0 then modPort p (fun x => { x with ramp := false }) s else s
def execSteerRamp (p : Port) (s : State) : Out State := .next (steerRamp p.toNat s)

/-- The slave's measurement window that a reference switch restarted has ended, after the switch's slew: what it measured is not
known (R245). DESIGN CHOICE: log 160. -/
def remeasured (p : Nat) (s : State) : State :=
  if (synOf s p).remeasure && !rdB s refSelR 5 then
    let (v, s) := draw 27 s
    modSyn p (fun x => { x with remeasure := false, acquire := some (steerClip v.toInt) }) s
  else s
/-- ACQUIRE_RAMP (R245): one step of the slave's ramp, full steps and then the remainder. -/
def acquireRamp (p : Nat) (s : State) : State :=
  if s.mode ≠ .running then s
  else
  let s := remeasured p s
  match (synOf s p).acquire with
  | none => s
  | some z =>
    let d := -(towardZero z)
    let s := smallStep p d s
    modSyn p (fun x => { x with acquire := if z - d = 0 then none else some (z - d) }) s
def execAcquireRamp (p : Port) (s : State) : Out State := .next (acquireRamp p.toNat s)

end Sys2Proof.Machine
end

