-- ==== Sys2Proof/Machine/Clocks.lean ====
section
/-! DEFINITION. The reference selector, the clock monitors, the roots and their failover, and the glitch-free muxes
(R250 to R254, R283 to R291, R505, R517). -/
namespace Sys2Proof.Machine

/-! ### Monitors (R283, R284) -/

/-- A source of a monitor: 0 REFA, 1 REFB, 2 XTAL, 3 and 4 the internal oscillator cores, 8 + t the tile lines. -/
def monOk (s : State) (src : Nat) : Bool :=
  if src < 5 then rdB s clkMonStatusR src else rdB s (tileClkStatusR (src - 8)) 1
def monSource (src : Nat) : Bool := decide (src < 5 ∨ (8 ≤ src ∧ src < 16))

/-- The pass state of a monitor changes: the status registers follow, and the change is reported. -/
def setMon (src detector : Nat) (dev : Word) (s : State) : State :=
  let ok := detector == 0
  let s := if src < 5 then
      let s := wrB clkMonStatusR src ok s
      if src < 2 then wrB refSelR (3 + src) ok s else s
    else wrB (tileClkStatusR (src - 8)) 1 ok s
  raise 0x0100 (if src < 5 then unitDev else unitTile (src - 8))
    (leBytes 1 src ++ leBytes 1 detector ++ zeros 2 ++ leBytes 4 dev.toNat) s

/-- The FAILOVER copies of every view (R400), and EVT_CLK_FAILOVER (R517). -/
def failoverEvent (elem cause input : Nat) (dev : Word) (unit : BitVec 16) (s : State) : State :=
  raise 0x0101 unit (leBytes 1 elem ++ leBytes 1 cause ++ leBytes 1 input ++ zeros 1 ++ leBytes 4 dev.toNat) s
def failoverMark (s : State) : State := orViews clkMonStatusR 0x20 s

/-! ### The reference selector (R250, R251) -/

def refOk (s : State) (r : Nat) : Bool := monOk s r
/-- The selector has a valid reference. -/
def selectorOk (s : State) : Bool := refOk s (refActive s)

/-- A port measures the rate of its partner: a DME page or beacon has been decoded, and roles are not resolved (R245). DEDUCED: log 76. -/
def windowOpen (s : State) (p : Nat) : Bool :=
  (portLinks s p).any (fun m => (linkOf s m).state == .negotiate
    || ((linkOf s m).state == .listen && (linkPairs s m).any (fun l => (pairOf s l).detect != 0)))
/-- A switch of the selector to a reference, with the phase step in ps and the frequency difference in 0.001 ppm that are
measured. It falls into the measurement window of every port that has one open (R245). DEDUCED: log 76. -/
def refSwitch (new cause : Nat) (step : BitVec 16) (diff : Word) (s : State) : State :=
  let s := wrB refSelR 5 true (wrF refSelR 2 2 new (wrF refSelR 0 0 new s))
  let s := each ((List.range 64).filter (windowOpen s)) (fun p s => modPort p (fun y => { y with refMoved := true }) s) s
  raise 0x0103 unitDev (leBytes 1 new ++ leBytes 1 cause ++ leBytes 2 step.toNat ++ leBytes 4 diff.toNat) s

/-- The selected reference has failed (R250). DEDUCED: log 76. -/
def refFailed (cause : Nat) (step : BitVec 16) (diff : Word) (s : State) : State :=
  let other := 1 - refActive s
  if rdB s refSelR 1 && refOk s other then refSwitch other cause step diff s
  else raise 0x0104 unitDev [] s

/-- REF_SLEW_END. -/
def refSlewEnd (s : State) : State := if s.mode = .running then wrB refSelR 5 false s else s
def execRefSlewEnd (s : State) : Out State := .next (refSlewEnd s)

/-! ### Roots and failover (R285 to R288) -/

def rootInput (s : State) : Nat := rdF s clkRootSrcR 4 3
/-- A source of the hub root passes: INTOSC always. -/
def rootSrcOk (s : State) (src : Nat) : Bool := src == 0 || (src == 1 && monOk s 2) || (src == 2 && selectorOk s)

/-- The feedback word that the root applies with a source: INTOSC's is fixed at 25, the other stands in its registers (R285). -/
def sourceWord (src : Nat) (s : State) : BitVec 64 := if src = 0 then 0x1900000000 else (rd s rootNIntR) ++ (rd s rootNFracR)
/-- The supervisor firmware stores the word of a source, where board setup gives one (R285). DEDUCED: log 126. -/
def storeRootWord (src : Nat) (s : State) : State :=
  match s.rootWords.find? (fun e => e.1 == src) with
  | some (_, w) => wr rootNFracR (w.setWidth 32) (wr rootNIntR ((w >>> 32).setWidth 32) s)
  | none => s
/-- HUB_ROOT_FAILOVER (R286). -/
def rootFailover (cause : Nat) (dev : Word) (s : State) : State :=
  if rootInput s = 0 ∨ rootSrcOk s (rootInput s) = true then s
  else failoverEvent 0 cause 0 dev unitDev (failoverMark (wrB clkRootSrcR 2 true
    (muxSwitch 0 0 (rootInput s) 0 { s with rootWord := sourceWord 0 s })))

/-- SEL is rewritten: the root switches and applies the source's word, and FAILED clears (R285, R286). DEDUCED: log 95. -/
def rootSelect (src : Nat) (s : State) : State :=
  let s := if rootInput s = src then s else muxSwitch 0 0 (rootInput s) src s
  let s := { s with rootWord := sourceWord src s }
  { wrB clkRootSrcR 2 false (wrF clkRootSrcR 1 0 src s) with rootPending := none }

/-- TILE_ROOT_FAILOVER (R287): the tile root runs on the tile fast oscillator, and the port synthesizers of the tile lose
their reference and are held. DEDUCED: log 77. -/
def tileRootFailover (t cause : Nat) (dev : Word) (s : State) : State :=
  let s := if rdB s (tileClkStatusR t) 0 then s
    else failoverEvent 2 cause 1 dev (unitTile t) (failoverMark (muxSwitch 2 t 0 1 s))
  each (eight (8 * t)) synthLoss s

/-- The other core takes PD_AON over (R288): a core that has failed since the COLD reset is not used again. -/
def coreFailover (dev : Word) (s : State) : State :=
  let c := rdF s clkRootSrcR 5 5
  if s.badCores.contains c || s.badCores.contains (1 - c) || !monOk s (4 - c) then
    { s with badCores := if s.badCores.contains c then s.badCores else s.badCores ++ [c] }
  else failoverEvent 1 1 (1 - c) dev unitDev (failoverMark (muxSwitch 1 0 c (1 - c) { s with badCores := s.badCores ++ [c] }))

/-- What follows the failure of a source; a core that has failed is not used again until a COLD reset, also one that was not in use (R288). -/
def sourceFailed (src detector : Nat) (dev : Word) (step : BitVec 16) (diff : Word) (s : State) : State :=
  let s := if src < 2 ∧ src = refActive s then refFailed detector step diff s else s
  let s := if src < 3 then rootFailover detector dev s else s
  if 8 ≤ src then tileRootFailover (src - 8) detector dev s
  else if detector = 1 ∧ src = 3 + rdF s clkRootSrcR 5 5 then coreFailover dev s
  else if detector = 1 ∧ (src = 3 ∨ src = 4) then { s with badCores := if s.badCores.contains (src - 3) then s.badCores else s.badCores ++ [src - 3] }
  else s

/-- The limit of a monitor's frequency detector, in 0.001 ppm, as its judge sets it (R283). -/
def monLimit (s : State) (src : Nat) : Nat :=
  let own := rdF s clkMonCfgR 6 0 * 100000
  if src < 2 then (if rdB s clkMonCfgR 7 && monOk s 2 then own else 50000000)
  else if src = 2 then (if selectorOk s then own else 50000000)
  else if src < 5 then 50000000 else 80000000
/-- A measured deviation lies beyond the limit. -/
def monBeyond (s : State) (src : Nat) (dev : Word) : Bool := decide (monLimit s src < dev.toInt.natAbs)
/-- A detector of a monitor fires: no edges, or a deviation beyond the limit. -/
def monFires (src detector : Nat) (dev : Word) (step : BitVec 16) (diff : Word) (s : State) : State :=
  if s.mode ≠ .running ∨ monSource src = false ∨ monOk s src = false ∨ (detector = 2 ∧ monBeyond s src dev = false) then s
  else sourceFailed src detector dev step diff (setMon src detector dev s)

/-- REF_NO_EDGES: the measured deviation, and the phase step and frequency difference of a switch that follows. -/
def execRefNoEdges (src : BitVec 4) (dev : Word) (step : BitVec 16) (diff : Word) (s : State) : Out State :=
  .next (monFires src.toNat 1 dev step diff s)
/-- REF_FREQUENCY_FAULT. -/
def execRefFrequencyFault (src : BitVec 4) (dev : Word) (step : BitVec 16) (diff : Word) (s : State) : Out State :=
  .next (monFires src.toNat 2 dev step diff s)

/-- MONITOR_PASS, after 16 clean windows: the pass state is reported; what waits for it has rows of its own. DEDUCED: log 140. -/
def monPass (src : Nat) (dev : Word) (s : State) : State :=
  if s.mode ≠ .running ∨ monSource src = false ∨ monOk s src = true ∨ monBeyond s src dev = true then s else setMon src 0 dev s
def execMonitorPass (src : BitVec 4) (dev : Word) (s : State) : Out State := .next (monPass src.toNat dev s)

/-- DEVICE_TIME_CORRECTION (R286): with the root on INTOSC, off a chain and with a passing reference, device time keeps
the reference's rate: it is trimmed by the drift measured over the last millisecond, in ns. -/
def timeCorrection (d : Int) (s : State) : State :=
  if s.mode = .running ∧ rootInput s = 0 ∧ selectorOk s = true ∧ chainAddr s = none then
    setTime (BitVec.ofInt 64 (s.time.toNat + d)) s
  else s
def execDeviceTimeCorrection (d : BitVec 16) (s : State) : Out State := .next (timeCorrection d.toInt s)

/-- TILE_ROOT_RETURN (R287): the line passes again. The port synthesizers stay HELD. -/
def tileRootReturn (t : Nat) (s : State) : State :=
  if s.mode = .running ∧ rdB s (tileClkStatusR t) 0 = true ∧ monOk s (8 + t) = true then
    failoverEvent 2 0 0 0 (unitTile t) (muxSwitch 2 t 1 0 s)
  else s
def execTileRootReturn (t : Tile) (s : State) : Out State := .next (tileRootReturn t.toNat s)

/-- AON_CORE_FAILOVER (R288): the no-edges detector fires on the active core. -/
def aonFailover (dev : Word) (s : State) : State :=
  let c := rdF s clkRootSrcR 5 5
  if s.mode ≠ .running then s
  else if monOk s (3 + c) then sourceFailed (3 + c) 1 dev 0 0 (setMon (3 + c) 1 dev s)
  else coreFailover dev s
def execAonCoreFailover (dev : Word) (s : State) : Out State := .next (aonFailover dev s)

/-! ### Boot's root switch and REF_SEL -/

/-- PENDING_ROOT_SWITCH (R505). -/
def pendingRootSwitch (s : State) : State :=
  match s.rootPending with
  | some src => if s.mode = .running ∧ rootSrcOk s src = true then rootSelect src (storeRootWord src s) else s
  | none => s
/-- DEDUCED: log 126. -/
def execPendingRootSwitch (s : State) : Out State := .next (pendingRootSwitch s)

/-- REF_WAIT_EXPIRY (R505). It is no failover of R286 to R288: the FAILOVER copies are not set. -/
def refWaitExpiry (s : State) : State :=
  if s.mode = .running ∧ s.rootPending.isSome = true then
    failoverEvent 0 3 0 0 unitDev (wrB clkRootSrcR 2 true { s with rootPending := none })
  else s
def execRefWaitExpiry (s : State) : Out State := .next (refWaitExpiry s)

/-- A write of REF_SEL whose word has its locked fields already settled: SEL switches when the named reference passes,
otherwise it keeps its value; the other fields take effect (R250, R259). DEDUCED: log 83. DEDUCED: log 95. -/
def refSelWrite (w : Word) (step : BitVec 16) (diff : Word) (s : State) : State :=
  let sel := fieldGet w 0 0
  let was := rdF s refSelR 0 0
  let s := wrF refSelR 7 6 (fieldGet w 7 6) (wrF refSelR 1 1 (fieldGet w 1 1) s)
  if sel ≠ was ∧ refOk s sel = true then refSwitch sel 0 step diff s else s

end Sys2Proof.Machine
end

