-- ==== Sys2Proof/Machine/Grading.lean ====
section
/-! DEFINITION. The take loader's work, the grading runs and the continuity writes (R101 to R104, R113, R119, R126 to
R133, R140, R141, R163, R164, R203). -/
namespace Sys2Proof.Machine

/-! ### The take loader -/

/-- The span of TEMP_GRADE once a value joins it (R200). -/
def spanWith (g : Option (Int × Int)) (t : Int) : Int × Int :=
  match g with
  | some (a, b) => (min a t, max b t)
  | none => (t, t)
/-- A take that a grader made has passed: the counts of R131, and the span of R200. DEDUCED: log 56. DEDUCED: log 163. -/
def calCounts (l : Nat) (t : List Byte) (s : State) : State :=
  let s := modPair l (fun p => { p with gradeSpan := some (spanWith p.gradeSpan (tkTempGrade t)) }) s
  wr64 (calTimeLoR l) (BitVec.ofNat 64 (tkTime t)) (wr (calSfR l) (BitVec.ofNat 32 (tkSfCreated t)) (count (calCountR l) 1 s))

/-- The continuity writes of R140 after an accepted take: the first that follows the LINK_UP command, then at most one per port
and 60 s. DEDUCED: log 148. -/
def contAfterTake (m : Nat) (s : State) : State :=
  let x := linkOf s m
  let recent := (portLinks s (m / 8)).any (fun k => match (linkOf s k).contWritten with
    | some t => decide (s.time.toNat < t.toNat + 60000000000)
    | none => false)
  if !trainOrUp x.state || (x.graded && recent) then s
  else contWriteDue m (modLink m (fun x => { x with graded := true, contWritten := some s.time }) s)

/-- The accepted take of a run has passed verification: it may be cut (R131). DEDUCED: log 56. -/
def takeAccepted (l k : Nat) (s : State) : State :=
  match findRun s l, linkOfPair s l with
  | some r, some m =>
    let t := takeAt s l k
    let s := contAfterTake m (calCounts l t s)
    let x := linkOf s m
    let train := x.state == .train
    let cut := if r.cls = 2 then r.auto else r.cut
    let s := if cut && (pairOf s l).cut.isNone && slotCode s l k == slVerified then localCut l k (if train then 5 else 0) none s
      else if train then modPair l (fun p => { p with cutDone := true }) s else s
    endRun l stOk (gradeResult k 0 (signed 16 (tkRetakeErr t)) (tkSnrPred t)) s
  | _, _ => s

/-- The accepted take of a run has failed verification: the run ends without a take, its slot stays LOADED. -/
def takeRejected (l k code : Nat) (s : State) : State :=
  let s := if pairLinkIn s l (fun x => x == .train) then modPair l (fun p => { p with cutDone := true }) s else s
  endRun l stAborted (gradeResult k code 0 0) s

/-- A request for the partner's transmit settings: what the receiver asks for is open within R63 (R170). DESIGN CHOICE: log 134. -/
def askPartner (l : Nat) (s : State) : State :=
  let (fir, s) := drawBytes 5 12 s
  let tx := (limitTaps 16384 (s16s fir 0 6)).flatMap (fun c => leBytes 2 (twos 16 c)) ++ leBytes 2 1024 ++ zeros 2
  emit (.coefRequest l tx) (modPair l (fun p => { p with asked := some tx }) s)
/-- The graded take of a COMPAT receive pair in training is cut in; the pair is ready when SNR_PRED reaches LINK_SNR_MIN, and else asks
for other settings and is graded again (R170). -/
def compatGraded (l m k : Nat) (s : State) : State :=
  let s := entryCut l k s
  if 50 * (linkOf s m).trainPol.snrMin ≤ tkSnrPred (takeAt s l k) then modPair l (fun p => { p with rxReady := true, asked := none }) s
  else queueRun l 0 0 true (askPartner l s)

/-- What follows a verification (R102), by what asked for it: a take that passes is VERIFIED, unless its slot has gone on meanwhile
(R106). -/
def verified (r : LoadReq) (res : Nat × Nat) (s : State) : State :=
  let (code, block, off) := checkInfo res
  let ok := code = 0
  let st := if code = 0 then stOk else if code = 3 then stChecksum else stBadParam
  let m := (linkOfPair s r.pair).getD r.pair
  let was := slotCode s r.pair r.slot
  let s := if ok && (was == slLoaded || was == slRetired) then setSlot r.pair r.slot slVerified false s else s
  if r.purpose = 0 then complete r.etag st (leBytes 1 code ++ leBytes 1 block ++ leBytes 2 off) s
  else if r.purpose = 1 then
    complete r.etag st (leBytes 1 r.slot ++ leBytes 1 r.prev ++ leBytes 1 code
      ++ leBytes 1 (if code = 0x0B ∨ code = 0x0C then block else off / 16)) s
  else if r.purpose = 2 then (if ok then takeAccepted r.pair r.slot s else takeRejected r.pair r.slot code s)
  else if r.purpose = 3 then
    if !ok then trainFail m 0x03 s
    else
      let s := contAfterTake m (calCounts r.pair (takeAt s r.pair r.slot) s)
      if isCompat (modeOf s m) then compatGraded r.pair m r.slot s else s
  else if r.purpose = 4 then (if ok then s else trainFail m 0x03 s)
  else if ok && (pairOf s r.pair).cut.isNone && slotCode s r.pair r.slot == slVerified then localCut r.pair r.slot 6 none s
  else s

/-- TAKE_VERIFICATION: the loader of a tile completes the verification at the head of its queue. -/
def loaderVerify (t : Nat) (s : State) : State :=
  if s.mode ≠ .running ∨ (tileOf s t).resetting then s
  else match (tileOf s t).loader with
  | [] => s
  | r :: _ =>
    if r.fill then s
    else verified r (verifyTake (takeContext s r.pair) (takeAt s r.pair r.slot)) (takeWords 0x21 0xF r.pair r.slot 4096 (loaderDrop t s))
def execTakeVerification (t : Tile) (s : State) : Out State := .next (loaderVerify t.toNat s)

/-- BANK_FILL: the loader makes the fill at the head of its queue, unless an exchange of the pair (R83) or a supply dip
(R121) holds it. -/
def loaderFill (t : Nat) (s : State) : State :=
  if s.mode ≠ .running ∨ (tileOf s t).resetting ∨ mramHold s then s
  else match (tileOf s t).loader with
  | [] => s
  | r :: _ =>
    if !r.fill || (pairOf s r.pair).exch.isSome then s
    else fillStandby r.pair r.slot (takeWords 0x21 0xF r.pair r.slot 4096 (loaderDrop t s))
def execBankFill (t : Tile) (s : State) : Out State := .next (loaderFill t.toNat s)

/-! ### Triggers (R126) -/

/-- A policy trigger of a pair whose link is UP and armed with AUTO_CAL. -/
def policyTrigger (l : Nat) (f : State → LinkSt → List Byte → Bool) (s : State) : State :=
  match linkOfPair s l, activeTake s l with
  | some m, some t =>
    let x := linkOf s m
    if s.mode = .running ∧ x.state = .up ∧ x.pol.flags.getLsbD 1 = true ∧ f s x t = true then
      queueRun l 2 0 false s
    else s
  | _, _ => s

/-- Temperatures in 1/16 °C that differ by more than CAL_DELTA, in 0.5 °C. -/
def tempDiffers (x : LinkSt) (a b : Int) : Bool := decide (8 * x.pol.calDelta < (a - b).natAbs)
/-- The suppression that EVT_TAKE_UNSTABLE began ends once the temperature has left that of the failed run by CAL_DELTA. -/
def holdEnds (l : Nat) (s : State) : State :=
  let x := linkOf s ((linkOfPair s l).getD l)
  let now := portTemp s (l / 8)
  modPair l (fun p => { p with tempHold := p.tempHold.filter (fun h => !tempDiffers x now h) }) s
/-- GRADING_TEMPERATURE_EVAL: with the reading of the port's sensor. -/
def tempEval (l : Nat) (t : BitVec 16) (s : State) : State :=
  let s := timerWake (holdEnds l { s with temps := tabPut 0 s.temps (l / 8) t })
  policyTrigger l (fun s x t => tempDiffers x (portTemp s (l / 8)) (tkTempGrade t) && (pairOf s l).tempHold.isNone) s
def execGradingTemperatureEval (l : Pair) (t : BitVec 16) (s : State) : Out State := .next (tempEval l.toNat t s)

/-- GRADING_TIMER_EXPIRY: CAL_PERIOD has passed since TIME_CREATED of the active take. -/
def gradeTimer (l : Nat) (s : State) : State := policyTrigger l (fun _ x _ => x.pol.calPeriod != 0) (timerWake s)
def execGradingTimerExpiry (l : Pair) (s : State) : Out State := .next (gradeTimer l.toNat s)

/-! ### Passes (R128, R132) -/

/-- Order in which a grader takes what waits: classes 0, 1, 2, then cable profiles. -/
def runRank (r : Run) : Nat := if r.profile then 3 else r.cls
/-- A queued run whose turn may come: its pair is not quiet, and no activation is pending (R385). DEDUCED: log 68. -/
def runReady (s : State) (r : Run) : Bool := r.profile || (!(pairOf s r.pair).quiet && !activationPending s)
/-- The next pass: the lowest rank, in order of arrival. -/
def nextRun (s : State) (g : Nat) : Option Run :=
  (List.range 4).findSome? (fun k => (runsOf s g).find? (fun r => runRank r == k && !r.started && r.slot.isNone && runReady s r))

/-- The grader of a group is enabled (R292), and its clock runs (R291). -/
def graderOn (s : State) (g : Nat) : Bool := rdB s (tileClkEnR (g / 2)) (2 + g % 2) && !s.muxFrozen.contains (4, g)

/-- A run's training: phase 3, or COMPAT training. Its captures exist already (R163). -/
def initialSolve (s : State) (l : Nat) : Bool :=
  (linkOfPair s l).any (fun m => (linkOf s m).state == .train && (linkOf s m).phase != 5)

/-- A run's first pass begins from the slice trims of the band of the current temperature (R137). -/
def runStart (r : Run) (s : State) : (Run → Run) × State :=
  if r.profile || runBegun r then (id, s)
  else
    let b := bandOf (portTemp s (r.pair / 8))
    let (trims, s) := startTrims r.pair b s
    (fun q => { q with band := b, trims := trims }, s)
/-- The retake is made: its temperature, superframe and time go into the take's header (R131). -/
def retakeStamp (s : State) (r : Run) : Run :=
  { r with temp := portTemp s (r.pair / 8), sf := curSf s r.pair, time := s.time }
/-- The grader asks for the capture of a segment. -/
def segAsk (l : Nat) (s : State) : State := capAsk (l / 8) { owner := 1, state := 0, trigger := 1, pair := l } s

/-- GRADING_PASS_START. -/
def passStart (g : Nat) (s : State) : State :=
  if s.mode ≠ .running ∨ !graderOn s g ∨ (runsOf s g).any (fun r => r.started) then s
  else match nextRun s g with
  | none => s
  | some r =>
    let (init, s) := runStart r s
    let start (f : Run → Run) (s : State) : State :=
      putRuns g ((runsOf s g).map (fun q => if q == r then f (init q) else q)) s
    if r.profile then
      capAsk (r.pair / 8) { owner := 2, state := 0, trigger := 1, pair := r.pair } (start (fun q => { q with started := true }) s)
    else if initialSolve s r.pair then start (fun q => retakeStamp s { q with started := true, retake := true, segs := 8 }) s
    else segAsk r.pair (start (fun q => { q with started := true, segs := 0 }) s)
def execGradingPassStart (g : Group) (s : State) : Out State := .next (passStart g.toNat s)

/-- Where a segment starts, in symbols from the start of superframe 0. -/
def segPlace (c : Capture) : Nat := c.sfStart * 2 ^ 27 + c.posStart
/-- The grader's workspace takes what the fold makes of it (R10, R128): its contents are open. -/
def foldInto (g : Nat) (s : State) : State :=
  let (v, s) := draw 24 s
  { s with work := tabPut 0 s.work g v }
/-- GRADING_SEGMENT_FOLD: a captured segment is folded and its area released; after 8 the pass ends, and after the take
pass the retake pass waits its turn. DEDUCED: log 66. -/
def segFold (g : Nat) (s : State) : State :=
  if s.mode ≠ .running ∨ !graderOn s g then s
  else match (runsOf s g).find? (fun r => r.started && !r.profile) with
  | none => s
  | some r =>
    let p := r.pair / 8
    match (capsOf s p).find? (fun c => c.owner == 1 && c.pair == r.pair && c.state == 3) with
    | none => s
    | some cap =>
      let s := areaWords 0x21 (0xB + g % 2) p 0 recordLen s
      let s := foldInto g (capDrop p (fun c => c.owner == 1 && c.pair == r.pair) s)
      let r := { r with segAt := segPlace cap }
      let n := r.segs + 1
      if n < 8 then segAsk r.pair (modRun r.pair (fun q => { q with segs := n }) s)
      else if r.retake then modRun r.pair (fun q => retakeStamp s { q with segs := 8 }) s
      else requeue r.pair (fun q => { q with segs := 0, retake := true, started := false, segAt := r.segAt }) s
def execGradingSegmentFold (g : Group) (s : State) : Out State := .next (segFold g.toNat s)

/-! ### Agreement (R129, R130) -/

/-- Σ(a − b)² and Σa². -/
def errPower (a b : List Int) : Nat × Nat :=
  ((((a.zip b).map (fun x => ((x.1 - x.2) * (x.1 - x.2)).toNat)).sum), ((a.map (fun x => (x * x).toNat)).sum))
/-- E of a block in 0.01 dB, within a signed 16-bit word. -/
def errDb (e : Nat × Nat) : Int := max (-32768) (min 32767 (if e.1 = 0 then -32768 else roundLog 1000 e.1 e.2))
/-- E is at most a limit in dB: exact. -/
def errWithin (e : Nat × Nat) (tol : Int) : Bool :=
  if 0 ≤ tol then decide (e.1 ^ 10 ≤ e.2 ^ 10 * 10 ^ tol.toNat) else decide (e.1 ^ 10 * 10 ^ (-tol).toNat ≤ e.2 ^ 10)
/-- The four agreement blocks, in table order. -/
def errBlocks (a b : List Byte) : List (Nat × Nat) :=
  let v (t : List Byte) (x y : Nat) : List Int := boundsValues t x ++ boundsValues t y
  [errPower (v a 6 7) (v b 6 7), errPower (boundsValues a 8) (boundsValues b 8), errPower (boundsValues a 9) (boundsValues b 9),
   errPower (v a 10 11) (v b 10 11)]
/-- The structure that take and retake must share. -/
def takeShape (t : List Byte) : List Nat :=
  ((List.range 8).filter (winOn t)).map (winStart t) ++ [0x10000]
    ++ (List.range 7).map (fun a => leAt t (0x540 + 0x44 * a) 1) ++ (List.range 7).map (fun a => leAt t (0x740 + 0x14 * a) 1)
    ++ [leAt t 0x6C 1 % 32, leAt t 0x6D 1 % 8]
/-- The first trim field beyond its tolerance: 4 SKEW, 5 OFFSET, 6 GAIN. -/
def trimFault (a b : List Byte) : Option Nat :=
  let far (x tol : Nat) : Bool := ((boundsValues a x).zip (boundsValues b x)).any (fun y => decide (tol < (y.1 - y.2).natAbs))
  if far 3 8 then some 4 else if far 4 4 then some 5 else if far 5 16 then some 6 else none

/-- The outcome of an attempt: the condition of R129 that fails first (0 none), the block or field, the largest E. -/
def attempt (a b : List Byte) (tol : Int) : Nat × Nat × Int :=
  let es := errBlocks a b
  let worst := (es.map errDb).foldl max (-32768)
  let at' := ((List.range 4).find? (fun i => errDb (es.getD i (0, 0)) == worst)).getD 0
  if takeShape a ≠ takeShape b then (1, 0xFF, 32767)
  else if !(es.all (fun e => errWithin e tol)) then (2, at', worst)
  else match trimFault a b with
  | some f => (3, f, worst)
  | none => (0, 0, worst)

/-! ### The end of a run -/

/-- Bytes o to o + n − 1 of one image in another. -/
def graft (dst src : List Byte) (o n : Nat) : List Byte := dst.take o ++ (src.drop o).take n ++ dst.drop (o + n)

/-- A take whose slices keep the SKEW of 64 slice trim words. -/
def keepSkew (trims t : List Byte) : List Byte :=
  (List.range 64).foldl (fun t i =>
    let o := 0x80 + 4 * i
    let w := leAt t o 4 / 1024 * 1024 + leAt trims (4 * i) 4 % 1024
    t.take o ++ leBytes 4 w ++ t.drop (o + 4)) t
/-- What a run other than the initial grading keeps of the active take (R127): the transmit part and the hybrid trims,
ADC_PHASE and RX_PGA, TIMING and DEC_CFG, and in COMPAT the SKEW of every slice trim. -/
def keepActive (active t : List Byte) (compat : Bool) : List Byte :=
  let t := graft (graft (graft t active 0x40 0x20) active 0x60 4) active 0x6E 4
  if compat then keepSkew ((active.drop 0x80).take 256) t else t

/-- The header of an accepted take (R131): the retake's temperature, superframe and time, and the band that the run started from (R137).
TAKE_ID is open. -/
def gradedHeader (r : Run) (m : Nat) (s : State) : List Byte × State :=
  let x := linkOf s m
  let md := modeOf s m
  let fdx := isFdx md
  let (id, s) := draw 1 s
  (takeHeader 0 r.pair md (if fdx then 1 else 2) (if isCompat md then 2 else 0) r.band (twos 16 r.temp) r.sf.toNat id.toNat r.time.toNat
    (if fdx then x.serial else 0) (if fdx then x.port else 0), s)
/-- The accepted take: the retake's fields under a header of the device's own, with RETAKE_ERR and the number of clusters found
in its notes and the producer area 0 (R100, R131, R203). The initial grading of a COMPAT pair keeps SKEW from the record used at training (R137). -/
def acceptedTake (r : Run) (m : Nat) (retake : List Byte) (err : Int) (found : Nat) (initial : Bool) (s : State) : List Byte × State :=
  let compat := isCompat (modeOf s m)
  let (hdr, s) := gradedHeader r m s
  let img := (hdr ++ zeros 4 ++ (retake ++ zeros 4096).drop 0x40).take 4096
  let img := if initial && compat then keepSkew r.trims img else img
  let img := match activeTake s r.pair with
    | some a => if initial then img else keepActive a img compat
    | none => img
  let img := img.take 0x864 ++ leBytes 2 (twos 16 err) ++ leBytes 1 found ++ zeros 1945
  (sealTake hdr (img.drop 0x40), s)

/-! ### Reflection clusters (R69, R199, R203) -/

/-- The cluster's peak lies within the near-echo block, echo delays 0 to 63 (R69). -/
def clusterNear (c : Cluster) : Bool := decide (c.delay.toNat < 64 * 16)
/-- An enabled echo window of a take, 48 delays from WSTART, covers the cluster's peak (R69, R199). -/
def clusterCovered (t : List Byte) (c : Cluster) : Bool :=
  (List.range 8).any (fun w => winOn t w && decide (16 * winStart t w ≤ c.delay.toNat ∧ c.delay.toNat < 16 * (winStart t w + 48)))
/-- Clusters in order of strength: the lowest LEVEL below launch first, and equals as found. -/
def strongInsert (c : Cluster) : List Cluster → List Cluster
  | [] => [c]
  | a :: t => if c.level.toNat ≤ a.level.toNat then c :: a :: t else a :: strongInsert c t
def strongFirst (l : List Cluster) : List Cluster := l.foldr strongInsert []
/-- DIST (R199), in mm: T is 8.76712 ps and c 299.792458 mm/ns; a half is rounded away from 0. -/
def clusterDist (board vp : Nat) (c : Cluster) : Int :=
  roundDiv (((c.delay.toNat * 876712 : Nat) - (2 * board * 1600000 : Nat) : Int) * (vp * 299792458 : Nat)) (16 * 100000 * 2 * 100 * 1000000000)
/-- A reflection map entry (R199), with the take whose windows cover it. -/
def clusterEntry (board vp : Nat) (t : List Byte) (c : Cluster) : List Byte :=
  leBytes 2 c.delay.toNat ++ leBytes 2 (twos 16 (clusterDist board vp c)) ++ leBytes 2 c.level.toNat ++ leBytes 1 c.width.toNat
    ++ leBytes 1 (b2n c.positive + 2 * b2n (clusterCovered t c) + 4 * b2n (clusterNear c))
/-- The clusters above −55 dB outside the near-echo block, strongest first (R203). -/
def windowClusters (l : List Cluster) : List Cluster := strongFirst (l.filter (fun c => !clusterNear c && decide (c.level.toNat < 550)))

/-- EVT_EC_WINDOWS_EXHAUSTED (R203). DESIGN CHOICE, log 156: with no active take to replace, CLUSTERS is compared with 0. -/
def windowsExhausted (l : Nat) (t : List Byte) (clusters : List Cluster) (s : State) : State :=
  let bare := (windowClusters clusters).find? (fun c => !clusterCovered t c)
  let level := (bare.map (fun c => c.level.toNat)).getD 0
  let dist := (bare.map (fun c => twos 16 (clusterDist 0 70 c))).getD 0
  let was := ((activeTake s l).map tkClusters).getD 0
  if 8 < tkClusters t ∧ tkClusters t ≠ was then
    raise 0x0704 (pairUnit l) (leBytes 1 (tkClusters t) ++ zeros 1 ++ leBytes 2 level ++ leBytes 2 dist ++ leBytes 2 (leAt t 0x862 2)) s
  else s

/-- A run finds no slot for its take (R108, R356). DEDUCED: log 63. -/
def runNoSlot (l m : Nat) (s : State) : State :=
  let s := count (takeStoreFullR l) 1 s
  if initialSolve s l then trainFail m 0x03 s
  else
    let s := if (linkOf s m).state = .train then modPair l (fun p => { p with cutDone := true }) s else s
    endRun l stStoreFull (gradeResult 0xFF 0 0 0) s

/-- Take and retake agree: the retake is written and goes to verification. The take of the initial grading is the one
that the next joined cut of training brings in. -/
def runAgrees (l m : Nat) (r : Run) (retake : List Byte) (err : Int) (clusters : List Cluster) (s : State) : State :=
  let first := initialSolve s l
  let (t, s) := acceptedTake r m retake err (min 255 (windowClusters clusters).length) first s
  match anySlot s l with
  | none => runNoSlot l m s
  | some k =>
    let s := windowsExhausted l t clusters s
    let s := askVerify l k (if first then 3 else 2) 0 0 (takeWords 0x22 (0xB + l / 32 % 2) l k 4096 (writeTake l k t s))
    if first then dropRun l (modPair l (fun p => { p with trainSlot := some k }) s)
    else modRun l (fun q => { q with slot := some k, started := false }) s

/-- A disagreement of phase 3 counts for the training: phases 2 and 3 run again, up to three attempts (R164). -/
def trainDisagrees (m : Nat) (s : State) : State :=
  let n := (linkOf s m).attempts + 1
  if 3 ≤ n then trainFail m 0x02 s
  else
    let s := each (activePairs s m) (fun l s => modPair l (fun p => { p with trainSlot := none }) (dropRun l s)) s
    let sf := linkSf s m
    setPhase m 2 sf (modLink m (fun x => { x with attempts := n }) s)

/-- An attempt fails: a fresh take pass, or after the third the end of the run with EVT_TAKE_UNSTABLE (R130). -/
def runDisagrees (l m : Nat) (r : Run) (c : Nat × Nat × Int) (s : State) : State :=
  let s := count (retakeFailR l) 1 s
  if initialSolve s l then (if isFdx (modeOf s m) then trainDisagrees m s
    else requeue l (fun q => { q with started := false, retake := false, segs := 0 }) s)
  else
    let worse := match r.worst with
      | some w => decide (w ≤ c.2.2)
      | none => true
    let r := { r with fails := r.fails + 1, started := false, retake := false, segs := 0,
                      worst := if worse then some c.2.2 else r.worst, worstCond := if worse then c.1 else r.worstCond,
                      worstIdx := if worse then c.2.1 else r.worstIdx }
    if r.fails < 3 then requeue l (fun _ => r) s
    else
      let s := raise 0x0703 (pairUnit l) (leBytes 2 (twos 16 (r.worst.getD 0)) ++ leBytes 1 r.worstCond ++ leBytes 1 r.worstIdx
        ++ leBytes 4 (curSf s l).toNat) s
      let s := modPair l (fun p => { p with
        tempHold := some (portTemp s (l / 8)), cutDone := p.cutDone || (linkOf s m).state == .train }) s
      endRun l stDisagree (gradeResult 0xFF 0 0 0) s

/-- GRADING_RUN_END: the images that the solves of the two passes give, and the reflection clusters found. Their headers are not used. -/
def runEnd (l : Nat) (take retake : List Byte) (clusters : List Cluster) (s : State) : State :=
  match findRun s l, linkOfPair s l with
  | some r, some m =>
    if s.mode ≠ .running ∨ r.started = false ∨ r.retake = false ∨ r.segs ≠ 8 then s
    else
      let c := attempt take retake r.tol
      if c.1 = 0 then runAgrees l m r retake c.2.2 clusters s else runDisagrees l m r c s
  | _, _ => s
/-- DEDUCED: log 9. -/
def execGradingRunEnd (l : Pair) (take retake : List Byte) (clusters : List Cluster) (s : State) : Out State :=
  .next (runEnd l.toNat take retake clusters s)

/-! ### Continuity writes (R138, R140, R141) -/

/-- The write of a link's record is no longer due. -/
def contWritten (m : Nat) (s : State) : State := { s with contDue := s.contDue.filter (fun x => x != m) }
/-- The record that stood in the place is gone. DEDUCED: log 64. -/
def contEvicted (evict : Bool) (i : Nat) (s : State) : State :=
  let old := contBytes s i
  if evict then raise 0x0801 (unitPort (leAt old 6 1 % 64)) (leBytes 8 (leAt old 8 8)) { s with contEvict := s.contEvict + 1 }
  else s
/-- A record takes its place in the store, with the count of its use. -/
def contPut (i : Nat) (u : Word) (r : List Byte) (s : State) : State := { s with contUse := u, contRecs := tabInsert s.contRecs i r }
/-- CONTINUITY_RECORD_WRITE: a write that is due is made; it waits in a brown-out, and is dropped and counted while the
MRAM is not available. -/
def contWrite (m : Nat) (s : State) : State :=
  if s.mode ≠ .running ∨ !s.contDue.contains m then s
  else if !mramReady s then contWritten m { s with contDrop := s.contDrop + 1 }
  else if mramHold s || supHalted s then s
  else
    let x := linkOf s m
    let u := s.contUse + 1
    let (i, evict) := contPlace s x.serial x.port (m / 8)
    let (r, s) := contRecord m u (contEvicted evict i s)
    contWritten m (contPut i u r s)
def execContinuityRecordWrite (m : Pair) (s : State) : Out State := .next (contWrite m.toNat s)

end Sys2Proof.Machine
end

