-- ==== Sys2Proof/Machine/Capture.lean ====
section
/-! DEFINITION. Rushes captures, cable diagnostics, loopbacks, eye scans and the utilization meters (R186, R191 to R207,
R231, R357 to R359). -/
namespace Sys2Proof.Machine

/-! ### Rushes (R193 to R197) -/

/-- The first failing test of a list: a status for each condition that ends the command. -/
def firstBad : List (Bool × Nat) → Option Nat
  | [] => none
  | (b, st) :: t => if b then some st else firstBad t

/-- The rushes engines of a port's tile are enabled (R292). -/
def rushesOn (s : State) (p : Nat) : Bool := rdB s (tileClkEnR (p / 8)) 1
/-- A CABLE_TEST runs on a port. -/
def cableBusy (s : State) (p : Nat) : Bool := (portOf s p).cableTest.isSome

/-- A host capture leaves; one that waited for DONE ends ABORTED (R357). DEDUCED: log 107. -/
def dropHostCapture (p : Nat) (s : State) : State :=
  match hostCapture s p with
  | none => s
  | some c =>
    let s := capDrop p (fun c => c.owner == 0) s
    match c.etag with
    | some e => complete e stAborted (leBytes 1 4 ++ zeros 3) s
    | none => s

/-- RUSHES_ARM. -/
def opRushesArm : OpSpec := { opcode := 0x0401, classes := [3], lens := [20], maxResult := 4 }
def armBad (c : Cmd) (p : Nat) (s : State) : Option Nat :=
  let kind := leAt c.params 0 1
  let n := leAt c.params 2 1 + 1
  firstBad [
    (leAt c.params 1 1 / 8 % 2 ≠ 0 ∨ 32 ≤ leAt c.params 1 1 ∨ (kind = 4 ∧ leAt c.params 6 2 ≠ 0), stBadParam),
    (kind = 0 ∨ 4 < kind ∨ 16 < n ∨ n < leAt c.params 3 1 ∨ 2 ^ 27 ≤ leAt c.params 8 4, stRange),
    (!rushesOn s p, stNotReady), (cableBusy s p, stBusy)]
/-- DEDUCED: log 62. -/
def actRushesArm (c : Cmd) (e : Nat) (s : State) : State :=
  let p := c.idx.toNat
  match armBad c p s with
  | some st => complete e st [] s
  | none =>
    let wait := (leAt c.params 1 1).testBit 4
    let cap : Capture := {
      owner := 0, state := 0, trigger := leAt c.params 0 1, content := leAt c.params 1 1 % 8, n := 1024 * (leAt c.params 2 1 + 1)
      post := 1024 * leAt c.params 3 1, s := leAt c.params 4 4, pos := leAt c.params 8 4, t := leAt c.params 12 8
      etag := if wait then some e else none, armSeq := s.evt.seq }
    let s := capAsk p cap (dropHostCapture p s)
    if wait then keepRunning e p s
    else complete e stOk (leBytes 1 ((hostCapture s p).map Capture.state |>.getD 0) ++ zeros 3) s
def execRushesArm (c : Cmd) (s : State) : Out State := .next (command opRushesArm c (actRushesArm c) s)

/-- RUSHES_STATUS: what a port's area shows. The number of symbols that a capture in progress has written is open. -/
def opRushesStatus : OpSpec := { opcode := 0x0402, classes := [2], lens := [0], maxResult := 64 }
/-- DESIGN CHOICE: log 135. -/
def rushesPort (p : Nat) (s : State) : List Byte × State :=
  let waiting := ((capsOf s p).drop 1).filter (fun c => c.owner == 1)
  match (capsOf s p).head? with
  | none => (leBytes 1 0xFF ++ leBytes 1 4 ++ zeros 14, s)
  | some c =>
    let (v, s) := draw 9 s
    let n := if c.state = 3 then c.n else if c.state = 2 then v.toNat % (c.n + 1) else 0
    (leBytes 1 c.owner ++ leBytes 1 c.state ++ leBytes 1 waiting.length ++ zeros 1 ++ leBytes 4 c.sfStart ++ leBytes 4 n ++ zeros 4, s)
def actRushesStatus (c : Cmd) (e : Nat) (s : State) : State :=
  let x := (List.range 4).foldl (fun (x : List Byte × State) k =>
    let (b, s) := rushesPort (4 * c.idx.toNat + k) x.2
    (x.1 ++ b, s)) ([], s)
  complete e stOk x.1 x.2
def execRushesStatus (c : Cmd) (s : State) : Out State := .next (command opRushesStatus c (actRushesStatus c) s)

/-- A DONE segment of a host capture. -/
def doneCapture (s : State) (p : Nat) : Option Capture := (capsOf s p).find? (fun c => c.owner == 0 && c.state == 3)

/-- A port's capture area (R193): 384 KB; a byte that nothing has defined is none. -/
def areaLen := 0x60000
def areaOf (s : State) (p : Nat) : List (Option Byte) := (tabGet [] s.areas p ++ List.replicate areaLen none).take areaLen
/-- Bytes of an area from an offset are replaced. DEDUCED: log 98. DESIGN CHOICE: log 165. -/
def areaPut (p o : Nat) (b : List (Option Byte)) (s : State) : State :=
  { s with areas := tabPut [] s.areas p ((areaOf s p).take o ++ b ++ (areaOf s p).drop (o + b.length)) }
/-- Bytes as a DMA reads them: one that has no defined value is open. DESIGN CHOICE: log 165. -/
def areaRead (p o n : Nat) (s : State) : List Byte × State :=
  let (v, s) := draw 25 s
  ((((areaOf s p).drop o).take n).zipIdx.map (fun x => x.1.getD (Config.openByte v x.2)), s)

/-- A field of a pair section: `n` bytes of it are defined, if the content mask includes it (R194). -/
def segField (sec : List Byte) (o size n : Nat) (on : Bool) : List (Option Byte) :=
  ((if on then ((sec.drop o).take n).map some else []) ++ List.replicate size none).take size
/-- A segment record (R194): its header, and the eight pair sections as captured, samples, DAC codes and decisions. -/
def segRecord (c : Capture) (data : List Byte) : List (Option Byte) :=
  ((c.header ++ zeros 256).take 256).map some ++ (List.range 8).flatMap (fun k =>
    let sec := (data.drop (0x9000 * k)).take 0x9000
    segField sec 0 0x4000 c.n (c.content.testBit 0) ++ segField sec 0x4000 0x4000 c.n (c.content.testBit 1)
      ++ segField sec 0x8000 0x1000 (c.n / 4) (c.content.testBit 2))

/-- RUSHES_UPLOAD: the DMA runs until RUSHES_UPLOAD_DONE. -/
def opRushesUpload : OpSpec := { opcode := 0x0403, classes := [3], lens := [20], maxResult := 4 }
def actRushesUpload (c : Cmd) (e : Nat) (s : State) : State :=
  let p := c.idx.toNat
  let off := leAt c.params 8 4
  match firstBad [
    (leAt c.params 0 8 % 64 ≠ 0 ∨ 1 < leAt c.params 16 1 ∨ !zeroFrom c.params 17, stBadParam),
    (!rushesOn s p || (doneCapture s p).isNone, stNotReady), (recordLen < off + leAt c.params 12 4, stRange)] with
  | some st => complete e st [] s
  | none => keepRunning e p s
def execRushesUpload (c : Cmd) (s : State) : Out State := .next (command opRushesUpload c (actRushesUpload c) s)

/-- RUSHES_UPLOAD_DONE: the oldest upload of the port ends; with RELEASE the area is free. -/
def uploadDone (p : Nat) (s : State) : State :=
  match (running s 0x0403 3 p).head?, doneCapture s p with
  | some f, some _ =>
    if s.mode ≠ .running then s
    else
      let off := leAt f.cmd.params 8 4
      let len := if leAt f.cmd.params 12 4 = 0 then recordLen - off else leAt f.cmd.params 12 4
      let (b, s) := areaRead p off len (areaWords 0x21 0xE p off len s)
      let s := hostWriteBy 0xE (leAt f.cmd.params 0 8) b s
      let s := if leAt f.cmd.params 16 1 = 1 then dropHostCapture p s else s
      complete f.etag stOk (leBytes 4 len) s
  | some f, none => complete f.etag stNotReady [] s
  | none, _ => s
def execRushesUploadDone (p : Port) (s : State) : Out State := .next (uploadDone p.toNat s)

/-- Pairs of a port in TRAIN or UP, as a mask. -/
def liveMask (s : State) (p : Nat) : Nat := (livePairs s p).foldl (fun a l => a ||| 2 ^ (l % 8)) 0

/-- The number of the port's current superframe or COMPAT period. -/
def portNumber (s : State) (p : Nat) : Word := if (portOf s p).periodOn then (portOf s p).period else portSf s p

/-- Far superframe positions of the eight first decisions: which they are is open. DESIGN CHOICE: log 160. -/
def farFirst : Nat → State → List Byte × State
  | 0, s => ([], s)
  | n + 1, s =>
    let (v, s) := draw 8 s
    let (r, s) := farFirst n s
    (leBytes 4 (v.toNat % 2 ^ 27) ++ r, s)
/-- Time that symbols take at T = 8.76712 ps, in ns. -/
def symbolNs (n : Int) : Int := n * 876712 / 100000000
/-- The header of a segment record (R194), whose first symbol is `first` symbols from the start of the running superframe or period; `pos`
is the port's position now. -/
def segHeader (p : Nat) (c : Capture) (pos first trig : Nat) (s : State) : List Byte × State :=
  let l0 := 8 * p
  let mode := match linkOfPair s l0 with
    | some m => modeOf s m
    | none => 0
  let s := each (eight l0) loopRun s
  let (far, s) := farFirst 8 s
  (leBytes 4 0x48535552 ++ leBytes 2 0x100 ++ leBytes 1 p ++ leBytes 1 c.content ++ leBytes 2 c.n ++ leBytes 1 c.owner
    ++ leBytes 1 mode ++ leBytes 4 ((portNumber s p).toNat + first / 2 ^ 27) ++ leBytes 4 (first % 2 ^ 27) ++ zeros 4
    ++ leBytes 8 (s.time.toNat + symbolNs ((first : Int) - pos)).toNat
    ++ leBytes 2 (twos 16 (portTemp s p)) ++ zeros 2
    ++ (eight l0).flatMap (fun l => leBytes 2 (twos 16 (pairOf s l).phi)) ++ far
    ++ (eight l0).flatMap (fun l => leBytes 1 ((activeSlot s l).getD 0xFF)) ++ leBytes 1 (liveMask s p) ++ zeros 3
    ++ leBytes 4 c.trigger ++ leBytes 4 (if c.trigger = 4 then trig else 0) ++ zeros 152, s)

/-- A unit belongs to a port: the port, a link or pair, a lane, or its synthesizer. -/
def unitInPort (u p : Nat) : Bool :=
  (u / 4096 == 3 && u % 4096 == p) || ((u / 4096 == 4 || u / 4096 == 5) && u % 4096 / 8 == p) || (u / 4096 == 7 && u % 4096 == p)
/-- An event has been raised by a unit of the port since a capture was armed (R195). -/
def eventCame (s : State) (p code : Nat) (since : Word) : Bool :=
  s.evt.raised.any (fun e => e.1 / 2 ^ 16 == code && unitInPort (e.1 % 2 ^ 16) p && sfFuture e.2 since)
/-- The first segment of a retake is captured at least 2^27 symbols after the take's last one (R128). -/
def retakeSpaced (s : State) (p : Nat) (c : Capture) (at' : Nat) : Bool :=
  c.owner != 1 || (match findRun s c.pair with
    | some r => !(r.retake && r.segs == 0) || decide (r.segAt + 2 ^ 27 ≤ (portNumber s p).toNat * 2 ^ 27 + at')
    | none => true)
/-- The trigger of an armed capture has come (R195), with the port's transmit timing at `pos`. -/
def triggerCame (s : State) (p : Nat) (c : Capture) (pos : Nat) : Bool :=
  match c.trigger with
  | 1 => true
  | 2 => (portNumber s p).toNat == c.s && pos == c.pos
  | 3 => decide (c.t ≤ s.time.toNat)
  | 4 => eventCame s p (c.s % 2 ^ 16) c.armSeq
  | _ => false
/-- The row boundary at or after a position (R37). -/
def rowEdge (pos : Nat) : Nat := 2048 + (pos - 2048 + 16319) / 16320 * 16320
/-- The first symbol of a capture, counted from the start of the running superframe: on FDX pairs a start in a slate, or one whose N symbols
would reach the next slate, moves to the first body symbol after it. A circular capture begins up to POST symbols before its trigger, as far as
the ring, `ring` symbols long, and the body reach back; `index` is the trigger's place in it. DESIGN CHOICE: log 167. -/
def captureFirst (fdx : Bool) (c : Capture) (pos ring : Nat) : Nat × Nat :=
  let body := if fdx then 2048 else 0
  if c.trigger = 4 then
    let x := max pos body
    let back := min (min c.post (c.n - 1)) (min ring (x - body))
    (x - back, back)
  else
    let x := max body (if fdx && c.trigger != 2 then rowEdge pos else pos)
    (if fdx && decide (2 ^ 27 < x + c.n) then 2 ^ 27 + 2048 else x, 0)

/-- RUSHES_CAPTURE_START: the trigger of the capture that holds the area has come as the port's transmit timing is at `pos`; `ring` are the
symbols that a circular capture has written. While a capture writes the area, it holds no defined value. DEDUCED: log 66.
DESIGN CHOICE: log 167. -/
def captureStart (p pos ring : Nat) (s : State) : State :=
  match capsOf s p with
  | [] => s
  | c :: rest =>
    let fdx := (eight (8 * p)).any (fun l => (pairOf s l).txOn)
    let first := captureFirst fdx c pos ring
    if s.mode ≠ .running ∨ c.state ≠ 1 ∨ triggerCame s p c pos = false ∨ retakeSpaced s p c first.1 = false then s
    else
      let (h, s) := segHeader p c pos first.1 first.2 s
      putCaps p ({ c with
          state := 2, header := h, live := BitVec.ofNat 8 (liveMask s p), cuts := (eight (8 * p)).map (fun l => (pairOf s l).cuts)
          sfStart := leAt h 0xC 4, posStart := leAt h 0x10 4, timeStart := leAt h 0x18 8 } :: rest)
        (areaPut p 0 (List.replicate recordLen none) s)
def execRushesCaptureStart (p : Port) (pos : BitVec 27) (ring : BitVec 14) (s : State) : Out State :=
  .next (captureStart p.toNat pos.toNat ring.toNat s)

/-- RUSHES_CAPTURE_DONE: `data` are the eight pair sections as captured; the record stands at the start of the area (R193). -/
def captureDone (p : Nat) (data : List Byte) (s : State) : State :=
  match capsOf s p with
  | [] => s
  | c :: rest =>
    if s.mode ≠ .running ∨ c.state ≠ 2 then s
    else
      let c := { c with header := c.header.take 0x5C ++ leBytes 1 (c.live.toNat &&& liveMask s p) ++ c.header.drop 0x5D }
      let s := areaWords 0x22 0xD p 0 recordLen (areaPut p 0 (segRecord c data) (putCaps p ({ c with state := 3, etag := none } :: rest) s))
      match c.etag with
      | some e => complete e stOk (leBytes 1 3 ++ zeros 3) s
      | none => s
/-- DEDUCED: log 9. -/
def execRushesCaptureDone (p : Port) (data : List Byte) (s : State) : Out State := .next (captureDone p.toNat data s)

/-- RUSHES_HELD: a grader pass has waited 100 ms on an area that a host capture holds. -/
def rushesHeld (p : Nat) (s : State) : State :=
  match capsOf s p with
  | [] => s
  | c :: rest =>
    if s.mode ≠ .running ∨ c.owner ≠ 0 ∨ c.heldSent = true ∨ !rest.any (fun r => r.owner == 1) then s
    else raise 0x0902 (unitPort p) [] (putCaps p ({ c with heldSent := true } :: rest) s)
def execRushesHeld (p : Port) (s : State) : Out State := .next (rushesHeld p.toNat s)

/-! ### Cable profile (R198 to R202) -/

/-- BOARD_DELAY and VP as given. DEDUCED: log 62. -/
def cableParams (p : List Byte) (o : Nat) : Bool × Nat × Nat :=
  let d := leAt p o 2
  let vp := if leAt p (o + 2) 1 = 0 then 70 else leAt p (o + 2) 1
  (decide (2000 < d) || decide (vp < 50) || decide (99 < vp), d, vp)

/-- CABLE_PROFILE: a request runs on the grader after every queued pass. -/
def opCableProfile : OpSpec := { opcode := 0x0501, classes := [4], lens := [0, 4], maxResult := 1552 }
def actCableProfile (c : Cmd) (e : Nat) (s : State) : State :=
  let m := c.idx.toNat
  match firstBad [
    ((cableParams c.params 0).1 || leAt c.params 3 1 != 0, stBadParam),
    ((linkOf s m).state != .up || !graderOn s (groupOf m), stNotReady)] with
  | some st => complete e st [] s
  | none => keepRunning e m (putRuns (groupOf m) (runsOf s (groupOf m) ++ [{ pair := m, cls := 3, etag := e, profile := true }]) s)
def execCableProfile (c : Cmd) (s : State) : Out State := .next (command opCableProfile c (actCableProfile c) s)

/-- ILTC of a pair is learned: its accepted takes' TEMP_GRADE span at least 4 °C (R200). DEDUCED: log 163. -/
def iltcLearned (s : State) (l : Nat) : Bool := (pairOf s l).gradeSpan.any (fun g => decide (64 ≤ g.2 - g.1))
def iltc (s : State) (l : Nat) : Rat := if iltcLearned s l then Config.learnedIltc l (rd s (calCountR l)).toNat else 2 / 1000
/-- The margin forecast (R200): the SNR for the insertion loss at 57.03 GHz scaled by 1 + 10 × ILTC. -/
def marginForecast (s : State) (l : Nat) (t : List Byte) (loss : Nat) : Nat :=
  min 65534 (Config.forecastSnr t (loss * (1 + 10 * iltc s l)))

/-- A reflection map of up to `n` entries, strongest first, unused entries 0 (R198, R206). -/
def reflectionMap (n board vp : Nat) (t : List Byte) (cs : List Cluster) : Nat × List Byte :=
  let l := (strongFirst cs).take n
  (l.length, (l.flatMap (clusterEntry board vp t) ++ zeros (8 * n)).take (8 * n))
/-- The pair record (R358): a COMPAT link gives no reflection map and no forecast (R201). -/
def profileRecord (s : State) (m l board vp : Nat) (x : PairMeasure) : List Byte :=
  let t := (activeTake s l).getD []
  let fdx := !isCompat (modeOf s m)
  let map := reflectionMap 16 board vp t (if fdx then x.clusters else [])
  let bare := fdx && x.clusters.any (fun c => !clusterCovered t c && !clusterNear c)
  leBytes 1 (l % 8) ++ leBytes 1 map.1 ++ leBytes 1 (b2n (fdx && iltcLearned s l)) ++ zeros 1 ++ leBytes 2 x.skew.toNat
    ++ leBytes 2 (if fdx then marginForecast s l t (x.loss.getD 3 0).toNat else 0xFFFF)
    ++ (List.range 4).flatMap (fun i => leBytes 2 (x.loss.getD i 0).toNat)
    ++ (List.range 7).flatMap (fun a => leBytes 2 (x.next.getD a (0, 0)).1.toNat ++ leBytes 1 (x.next.getD a (0, 0)).2.toNat ++ zeros 1)
    ++ leBytes 2 (leAt t 0x862 2) ++ leBytes 2 (if bare then x.energy.toNat else 0xFFFF) ++ map.2 ++ zeros 16

/-- CABLE_PROFILE_COMPUTED: what the grader has measured of each pair. After a cut of a pair between the segment and the computation, the
profile is computed again once; after a second one it ends ABORTED (R202). DEDUCED: log 63. DEDUCED: log 66. -/
def profileDone (g : Nat) (recs : List PairMeasure) (s : State) : State :=
  match (runsOf s g).find? (fun r => r.profile && r.started) with
  | none => s
  | some r =>
    let m := r.pair
    match (capsOf s (m / 8)).find? (fun c => c.owner == 2 && c.state == 3) with
    | none => s
    | some cap =>
      let ps := activePairs s m
      let now := ps.map (fun l => (pairOf s l).cuts)
      let seen := if r.fails = 0 then ps.map (fun l => cap.cuts.getD (l % 8) 0) else r.slots
      let drop (s : State) : State :=
        capDrop (m / 8) (fun c => c.owner == 2) (putRuns g ((runsOf s g).filter (fun q => q != r)) s)
      if s.mode ≠ .running then s
      else if (linkOf s m).state ≠ .up then complete r.etag stAborted [] (drop s)
      else if now = seen then
        let f := (s.cmd.inflight.find? (fun f => f.etag == r.etag)).map (fun f => f.cmd.params) |>.getD []
        let (_, d, vp) := cableParams f 0
        let body := ((ps.zip (List.range 8)).map (fun x => profileRecord s m x.1 d vp (recs.getD x.2 ⟨[], [], [], 0, 0⟩))).flatten
        complete r.etag stOk (leBytes 1 ps.length ++ zeros 1 ++ leBytes 2 d ++ leBytes 1 vp ++ zeros 3 ++ leBytes 4 cap.sfStart
          ++ zeros 4 ++ body) (drop s)
      else if r.fails = 0 then putRuns g ((runsOf s g).map (fun q => if q == r then { q with fails := 1, slots := now } else q)) s
      else complete r.etag stAborted [] (drop s)
/-- DEDUCED: log 9. -/
def execCableProfileComputed (g : Group) (recs : List PairMeasure) (s : State) : Out State := .next (profileDone g.toNat recs s)

/-! ### Cable test (R204 to R206, R359) -/

def bitCount (m : Nat) : Nat := ((List.range 8).filter (fun k => m.testBit k)).length
/-- CABLE_TEST. -/
def opCableTest (c : Cmd) : OpSpec :=
  let n := bitCount (leAt c.params 0 1)
  { opcode := 0x0502, classes := [3], lens := [8], maxResult := 16 + 272 * n + 4 * (n * (n - 1) / 2) }
def cableHeader (c : Cmd) : List Byte := leBytes 1 (leAt c.params 0 1) ++ leBytes 1 (leAt c.params 1 1) ++ zeros 14
/-- The test signal of a pair (R205): one period of the PRBS13 generator of R33 from its all-ones seed, +3 for a one and −3 for a zero.
DESIGN CHOICE: log 135. -/
def testPeriod : List Int := (prbs13 prbs13Seed 8191).map (fun b => if b then 3 else -3)
/-- AVG of a test, and the symbols that the tested pair sends: the period AVG times. -/
def testAverages (c : Cmd) : Nat := 16 * (leAt c.params 1 1 + 1)
def testSymbols (c : Cmd) : List Int := (List.replicate (testAverages c) testPeriod).flatten
/-- The transmit block of a test: c[0] 12,288 and the other taps 0, TX_AMPL 1,024. -/
def testTransmit : List Byte := leBytes 2 12288 ++ zeros 10 ++ leBytes 2 1024 ++ zeros 2
/-- The mean of the samples of the periods, and its circular correlation with the period at a delay: over all 8,191 delays on the tested pair,
over the first 256 on the others (R205). -/
def testMean (avg : Nat) (x : List Int) : List Rat :=
  (List.range 8191).map (fun n => (((List.range avg).map (fun r => x.getD (8191 * r + n) 0)).sum : Rat) / avg)
def testCorrelation (x : List Rat) (d : Nat) : Rat :=
  ((List.range 8191).map (fun n => (testPeriod.getD n 0 : Rat) * x.getD ((n + d) % 8191) 0)).sum
def testDelays (tested : Bool) : Nat := if tested then 8191 else 256

/-- The port's synthesizer runs at its FDX frequency (R204). -/
def atFdxClock (s : State) (p : Nat) : Bool := synState s p == 2 && synActive s p == 0
/-- CABLE_TEST: the port synthesizer goes to its FDX frequency, and the pairs are tested in turn. While an activation is pending the test
does not start: the command waits (R385). DESIGN CHOICE, log 155: an
empty pair mask completes at once with the header alone. DEDUCED: log 67. -/
def actCableTest (c : Cmd) (e : Nat) (s : State) : State :=
  let p := c.idx.toNat
  let mask := leAt c.params 0 1
  match firstBad [
    ((cableParams c.params 2).1 || !zeroFrom c.params 5, stBadParam), (cableBusy s p, stBusy),
    ((portLinks s p).any (fun m => (linkOf s m).state != .down) || !(capsOf s p).isEmpty, stRefused)] with
  | some st => complete e st [] s
  | none =>
    if activationPending s then s
    else if mask = 0 then complete e stOk (cableHeader c) s
    else
      let s := keepRunning e p (modPort p (fun x => { x with
        cableTest := some e, cableMask := BitVec.ofNat 8 mask, cableOut := [], cableNext := [] }) s)
      if synState s p = 2 ∧ synActive s p ≠ 0 then synHop p 0 false none s else s
def execCableTest (c : Cmd) (s : State) : Out State := .next (command (opCableTest c) c (actCableTest c) s)

/-- A pair's record (R206, R359): `len` is the one-way electrical length in ps, which VP turns into mm. A pair whose far end is ACTIVE is
unqualified. -/
def cableRecord (s : State) (l board vp : Nat) (cs : List Cluster) (far : Nat) (len : Nat) : List Byte :=
  let map := reflectionMap 32 board vp ((activeTake s l).getD []) cs
  leBytes 1 (l % 8) ++ leBytes 1 far ++ leBytes 1 map.1 ++ leBytes 1 (if far = 3 then 3 else 0) ++ leBytes 4 len
    ++ leBytes 4 (roundDiv ((len * vp * 299792458 : Nat) : Int) (100 * 1000000000)).toNat ++ zeros 4 ++ map.2
/-- CABLE_TEST_PAIR_DONE: the pair tested next is the lowest one left. What was found: the clusters, the far end's state (0 TERMINATED, 1 OPEN,
2 SHORT, 3 ACTIVE), the electrical length in ps, and the NEXT loss on each pair of the port. DEDUCED: log 67. -/
def cablePairDone (p : Nat) (cs : List Cluster) (far len : Nat) (next : List (BitVec 16)) (s : State) : State :=
  let x := portOf s p
  match x.cableTest, (List.range 8).find? (fun k => x.cableMask.getLsbD k) with
  | some e, some k =>
    if s.mode ≠ .running ∨ atFdxClock s p = false then s
    else
      let c := (s.cmd.inflight.find? (fun f => f.etag == e)).map (fun f => f.cmd) |>.getD {}
      let mask := leAt c.params 0 1
      let (_, d, vp) := cableParams c.params 2
      let js := (List.range 8).filter (fun j => decide (k < j) && mask.testBit j)
      let out := x.cableOut ++ cableRecord s (8 * p + k) d vp cs far len
      let nx := x.cableNext ++ js.flatMap (fun j => leBytes 1 k ++ leBytes 1 j ++ leBytes 2 (next.getD j 0).toNat)
      let left := x.cableMask &&& ~~~(BitVec.ofNat 8 (2 ^ k))
      if left = 0 then
        complete e stOk (cableHeader c ++ out ++ nx) (modPort p (fun x => { x with cableTest := none, cableMask := 0, cableOut := [], cableNext := [] }) s)
      else modPort p (fun x => { x with cableMask := left, cableOut := out, cableNext := nx }) s
  | _, _ => s
/-- DEDUCED: log 9. -/
def execCableTestPairDone (p : Port) (clusters : List Cluster) (far : BitVec 2) (length : Word) (next : List (BitVec 16)) (s : State) : Out State :=
  .next (cablePairDone p.toNat clusters far.toNat length.toNat next s)

/-! ### PAIR_SNR (R186, R344) -/

def opPairSnr : OpSpec := { opcode := 0x0503, classes := [4], lens := [0], maxResult := 96, need := .pair }
def pairSnrEntry (s : State) (l : Nat) : List Byte :=
  let a := rd s (snrR l)
  let b := rd s (snrMeanR l)
  leBytes 1 (l % 8) ++ zeros 1 ++ leBytes 2 (fieldGet a 15 0) ++ leBytes 2 (fieldGet a 31 16) ++ leBytes 2 (fieldGet b 15 0)
    ++ leBytes 2 (fieldGet b 31 16) ++ leBytes 2 (((activeTake s l).map tkSnrPred).getD 0xFFFF)
def actPairSnr (c : Cmd) (e : Nat) (s : State) : State :=
  let m := (linkOfPair s c.idx.toNat).getD c.idx.toNat
  complete e stOk ((linkPairs s m).flatMap (pairSnrEntry s)) s
def execPairSnr (c : Cmd) (s : State) : Out State := .next (command opPairSnr c (actPairSnr c) s)

/-! ### Eye scan (R231) -/

/-- The grid of an eye scan: phases, thresholds, and D; none where it leaves the ranges. DEDUCED: log 61. -/
def eyeGrid (p : List Byte) : Option (List Int × List Nat × Nat) :=
  let d := if leAt p 9 1 = 0 then 20 else leAt p 9 1
  let a := signed 8 (leAt p 10 1)
  let b := signed 8 (leAt p 11 1)
  let st := leAt p 12 1
  let v := leAt p 13 1
  let w := leAt p 14 1
  let vs := leAt p 15 1
  if 2 < leAt p 8 1 ∨ d < 10 ∨ 30 < d ∨ a < -64 ∨ 63 < b ∨ b < a ∨ st = 0 ∨ w < v ∨ vs = 0 then none
  else some (((List.range (((b - a).toNat) / st + 1)).map (fun i => a + (i * st : Nat))),
    ((List.range ((w - v) / vs + 1)).map (fun i => v + i * vs)), d)
/-- DEDUCED: log 61. -/
def eyePoints (g : List Int × List Nat × Nat) : Nat := g.1.length * g.2.1.length

/-- EYE_SCAN. -/
def opEyeScan : OpSpec := { opcode := 0x0504, classes := [5], lens := [24], maxResult := 8 }
/-- DEDUCED: log 61. -/
def actEyeScan (c : Cmd) (e : Nat) (s : State) : State :=
  let n := c.idx.toNat
  match firstBad [
    (!zeroFrom c.params 16, stBadParam), (laneIsTx n, stRefused), ((eyeGrid c.params).isNone, stRange),
    ((laneOf s n).scan.isSome || (laneOf s n).auto.isSome, stBusy)] with
  | some st => complete e st [] s
  | none => keepRunning e n (modLane n (fun x => { x with scan := some e, scanPoint := 0 }) s)
def execEyeScan (c : Cmd) (s : State) : Out State := .next (command opEyeScan c (actEyeScan c) s)

/-- The end of HL_CTLE_SET with AUTO: the code of largest area is set (R230). -/
def ctleAutoEnd (n e : Nat) (s : State) : State :=
  let best := (laneOf s n).autoBest
  complete e stOk (leBytes 1 best ++ zeros 3)
    (wrF (hlCtl n) 4 0 best (modLane n (fun x => { x with auto := none, autoBest := 0, autoArea := 0, scanPoint := 0 }) s))

/-- EYE_SCAN_POINT: `k` is the count of the point. In HL_CTLE_SET with AUTO a point is a whole scan at one code, and `k` its
middle-eye area; of codes with the same largest area the lowest is kept (DESIGN CHOICE: log 157). -/
def eyePoint (n k : Nat) (s : State) : State :=
  let x := laneOf s n
  if s.mode ≠ .running then s
  else match x.scan, x.auto with
  | some e, _ =>
    let c := (s.cmd.inflight.find? (fun f => f.etag == e)).map (fun f => f.cmd) |>.getD {}
    (match eyeGrid c.params with
    | none => s
    | some g =>
      let s := hostWriteBy 5 (leAt c.params 0 8 + 4 * x.scanPoint) (leBytes 4 k) s
      if eyePoints g ≤ x.scanPoint + 1 then
        complete e stOk (leBytes 4 (eyePoints g) ++ leBytes 4 (2 ^ g.2.2 / 1024)) (modLane n (fun x => { x with scan := none, scanPoint := 0 }) s)
      else modLane n (fun x => { x with scanPoint := x.scanPoint + 1 }) s)
  | none, some e =>
    let s := if x.autoArea < k ∨ x.scanPoint = 0 then modLane n (fun y => { y with autoBest := x.scanPoint, autoArea := k }) s else s
    if 28 ≤ x.scanPoint then ctleAutoEnd n e s else modLane n (fun y => { y with scanPoint := y.scanPoint + 1 }) s
  | none, none => s
/-- DEDUCED: log 9. -/
def execEyeScanPoint (n : Lane) (k : Word) (s : State) : Out State := .next (eyePoint n.toNat k.toNat s)

/-! ### Loopbacks (R207) -/

def opLoopback : OpSpec := { opcode := 0x0505, classes := [3, 4], lens := [4] }
/-- DEDUCED: log 69. -/
def actLoopback (c : Cmd) (e : Nat) (s : State) : State :=
  let k := leAt c.params 0 1
  let u := c.idx.toNat
  let port := c.cls == 3
  let m := linkOf s u
  match firstBad [
    (3 < k || (k == 1 && !port) || (2 ≤ k && port) || !zeroFrom c.params 1, stBadParam),
    ((k == 2 && m.state != .up) || (k == 3 && (m.state != .down || !isFdx m.mode)), stRefused)] with
  | some st => complete e st [] s
  | none =>
    let was := m.loopback
    let s := if port then modPort u (fun x => { x with hostLoop := k == 1 }) s else modLink u (fun x => { x with loopback := k }) s
    let s := if k = 3 then each (linkPairs s u) (fun l s => modPair l (fun p => { framingOff p with txOn := true, sf := portSf s (u / 8) }) s) s
      else if !port && was == 3 && m.state == .down then each (linkPairs s u) (fun l s => modPair l framingOff s) s
      else s
    let ps := if port then eight (8 * u) else linkPairs s u
    complete e stOk [] (if k = 0 then s else each ps quietWake s)
def execLoopback (c : Cmd) (s : State) : Out State := .next (command opLoopback c (actLoopback c) s)

/-! ### Utilization meters (R190, R191) -/

/-- A stream's RS monitor instance has a type and is locked in a direction, 0 line, 1 host (R56, R188). DESIGN CHOICE: log 168. -/
def streamMonitored (s : State) (p k dir : Nat) : Bool :=
  (portLinks s p).any (fun m =>
    let x := linkOf s m
    let n := 2 ^ (x.pcs - 1)
    x.pcs != 0 && x.mask.getLsbD k && decide (m % 8 ≤ k) && rdB s (rsMonStatusR (m + (k - m % 8) / n * n) dir) 0)
/-- Device time stands at the end of a window of a port (R190). -/
def utilBoundary (s : State) (p : Nat) : Bool := s.time.toNat % (1000 * 2 ^ rdF s (utilR p 0) 4 0) == 0
/-- UTIL_WINDOW_END: `counts` are the blocks that the monitors classified in the window, six for each stream: data, idle and LPI host to line,
then line to host. A stream whose instance has no type or is not locked is not counted, and neither are those that `unlocked` names, which
lost lock within the window (R190). A discarded window advances SEQ only. DESIGN CHOICE: log 168. -/
def utilEnd (p : Nat) (counts : List (BitVec 48)) (unlocked : BitVec 8) (s : State) : State :=
  if s.mode ≠ .running ∨ utilBoundary s p = false then s
  else
    let a := utilR p 0
    let s := wrF a 31 16 (rdF s a 31 16 + 1) s
    if s.utilDiscard.contains p then { s with utilDiscard := s.utilDiscard.filter (fun q => q != p) }
    else
      let counted (k dir : Nat) : Bool := !unlocked.getLsbD k && streamMonitored s p k dir
      let unmon := ((List.range 8).filter (fun k => !(counted k 0 && counted k 1))).foldl (fun a k => a + 2 ^ k) 0
      let sum (i : Nat) : Nat :=
        (((List.range 8).filter (fun k => counted k (if i < 3 then 1 else 0))).map (fun k => (counts.getD (6 * k + i) 0).toNat)).sum
      each (List.range 6) (fun i s => wrWide (utilR p (8 + 8 * i)) 48 (sum i) s) (wrF a 15 8 unmon s)
/-- DEDUCED: log 9. -/
def execUtilWindowEnd (p : Port) (counts : List (BitVec 48)) (unlocked : BitVec 8) (s : State) : Out State :=
  .next (utilEnd p.toNat counts unlocked s)

end Sys2Proof.Machine
end

