-- ==== Sys2Proof/Machine/CmdLink.lean ====
section
/-! DEFINITION. The LINK commands, the LDT entry they read, and the link status area (R24, R25, R144, R302, R334 to R338,
R348 to R353). -/
namespace Sys2Proof.Machine

/-! ### The LDT entry (R334, R335) -/

def within (n lo hi : Nat) : Bool := decide (lo ≤ n ∧ n ≤ hi)
/-- A numeric policy field: 0 or within its range. -/
def fieldOk (n lo hi : Nat) : Bool := n == 0 || within n lo hi
/-- A signed byte. -/
def s8 (n : Nat) : Int := signed 8 n

/-- Reserved fields are 0 and every policy and delivery field lies within its range (R135, R181). -/
def entryRanges (b : List Byte) : Bool :=
  leAt b 2 1 < 8 && leAt b 3 1 < 64 && leAt b 4 1 ≤ 2 && leAt b 5 1 < 64 && leAt b 6 2 == 0
    && fieldOk (leAt b 0x10 1) 1 32
    && (leAt b 0x11 1 == 0 || (decide (-50 ≤ s8 (leAt b 0x11 1)) && decide (s8 (leAt b 0x11 1) ≤ -10)))
    && fieldOk (leAt b 0x12 1) 4 255 && fieldOk (leAt b 0x16 2) 1 1000 && fieldOk (leAt b 0x18 1) 20 48
    && fieldOk (leAt b 0x19 1) 1 127 && leAt b 0x1A 2 == 0 && leAt b 0x1C 4 < 2 ^ 30
    && leAt b 0x28 8 % 64 == 0 && allZero ((b.drop 0x32).take 190)

/-- A field, or its default where it is 0. -/
def orDefault (n d : Nat) : Nat := if n = 0 then d else n

/-- The policies of an entry, defaults substituted. -/
def entryPolicy (b : List Byte) : Policy :=
  { flags := BitVec.ofNat 8 (leAt b 3 1), rolePref := leAt b 4 1, expPort := leAt b 5 1, expSerial := leAt b 8 8,
    calDelta := orDefault (leAt b 0x10 1) 6, retakeTol := if leAt b 0x11 1 = 0 then -30 else s8 (leAt b 0x11 1),
    txLead := orDefault (leAt b 0x12 1) 16, relinkLimit := orDefault (leAt b 0x13 1) 255, calPeriod := leAt b 0x14 2,
    holdoff := orDefault (leAt b 0x16 2) 10, snrMin := orDefault (leAt b 0x18 1) 32, quietRefresh := orDefault (leAt b 0x19 1) 8,
    pwrTimers := leAt b 0x1C 4 }

/-- The configuration fields differ from those in force. -/
def configDiffers (x : LinkSt) (b : List Byte) : Bool :=
  leAt b 0 1 != x.mode || leAt b 1 1 != x.mask.toNat || leAt b 2 1 != x.pcs

/-- The streams of a mode. -/
def modeStreams (m : Nat) : Nat := if m = 0x80 then 8 else if m < 16 then m else m - 16
/-- A MODE code, and a type of R56 that the mode allows. -/
def modeOk (m pcs : Nat) : Bool :=
  (m == 0 || isFdx m || isCompat m || m == 0x80) && decide (pcs ≤ 4) && (m == 0 || pcs == 0 || decide (2 ^ (pcs - 1) ≤ modeStreams m))
/-- The pair set of R24 for a mode at index k; none where the index is not the lowest pair of one. -/
def pairSet (m k : Nat) : Option (BitVec 8) :=
  if isFdx m then (if k % m = 0 then some (pairsFrom k m) else none)
  else if isCompat m then
    (if k < 4 ∧ k % (m - 0x10) = 0 then some (streamPairs k (m - 0x10)) else none)
  else if m = 0x80 then (if k = 0 then some 0xFF else none)
  else none

/-! ### Power timers of a port (R302) -/

/-- The smallest nonzero value of one timer in the entries of a port's links, else what the register holds. -/
def leastTimer (s : State) (p lo : Nat) : Nat :=
  let all := ((portLinks s p).map (fun m => bitsOf (linkOf s m).pol.pwrTimers (lo + 9) lo)).filter (fun n => n != 0)
  match all with
  | [] => rdF s (domBase p + 8) (lo + 9) lo
  | n :: t => t.foldl min n
def applyTimers (p : Nat) (s : State) : State :=
  let a := domBase p + 8
  let n := leastTimer s p 0 + leastTimer s p 10 * 2 ^ 10 + leastTimer s p 20 * 2 ^ 20
  wr a (BitVec.ofNat 32 n) s

/-- The policy fields of an entry are applied (R335, R336, R352). -/
def applyPolicy (m : Nat) (b : List Byte) (s : State) : State :=
  applyTimers (m / 8) (modLink m (fun x => { x with
    pol := entryPolicy b, gen := leAt b 0xF8 4, override := false, configPending := configDiffers x b }) s)

/-- The result of LINK_REFRESH and LINK_CONFIGURE. -/
def refreshResult (s : State) (m : Nat) : List Byte := leBytes 4 (linkOf s m).gen ++ leBytes 1 (b2n (linkOf s m).configPending)

/-! ### LINK_REFRESH and LINK_CONFIGURE -/

/-- The entry as read: none for a host memory error, which counts as a failed CRC. DEDUCED: log 58. -/
def entryRead (entry : Option (List Byte)) : Option (List Byte) := entry.bind (fun b => if ldtCrcOk b then some b else none)

/-- LINK_REFRESH: the operand is what the device reads at the entry's host address. -/
def opLinkRefresh : OpSpec := { opcode := 0x0205, classes := [4], lens := [0], maxResult := 5 }
/-- DEDUCED: log 58. -/
def actLinkRefresh (c : Cmd) (entry : Option (List Byte)) (e : Nat) (s : State) : State :=
  let m := c.idx.toNat
  if !ldtEnabled s then complete e stNotReady [] s
  else
    let s := ldtInvalidate m s
    match entryRead entry with
    | none => complete e stChecksum [] (count ldtCrcErrR 1 s)
    | some b =>
      if !entryRanges b then complete e stBadParam [] s
      else
        let s := applyPolicy m b (ldtStore m b s)
        complete e stOk (refreshResult s m) s
def execLinkRefresh (c : Cmd) (entry : Option (List Byte)) (s : State) : Out State :=
  .next (command opLinkRefresh c (actLinkRefresh c entry) s)

/-- Another configured link of the port shares a pair with a mask. -/
def overlaps (s : State) (m : Nat) (mask : BitVec 8) : Bool :=
  (portLinks s (m / 8)).any (fun k => k != m && ((linkOf s k).mask &&& mask) != 0)
/-- Another link of the port is of the other family (R25). AUTO overlaps every link. -/
def mixes (s : State) (m mode : Nat) : Bool :=
  (portLinks s (m / 8)).any (fun k => k != m && (isFdx (linkOf s k).mode != isFdx mode))

/-- The source of a tile host synthesizer, and whether it is an output with a spread, and a centred one (R224, R258). -/
def hostOut (s : State) (t : Nat) : Option Nat := if rdB s (synRefR (64 + t)) 0 then some (rdF s (synRefR (64 + t)) 4 1) else none
/-- Spread mode of an output: the one in effect, or one that is to take effect at the next top (R271). -/
def spreadMode (s : State) (n : Nat) : Nat := max (rdF s (outBase n + 8) 1 0) (fieldGet (tabGet 0x3F0000 s.spread n) 1 0)
/-- DEDUCED: log 83. -/
def hostSpread (s : State) (t : Nat) : Bool := (hostOut s t).any (fun n => spreadMode s n != 0)

/-- Base of an RS monitor instance's registers: direction 0 line, 1 host. -/
def rsBase (l dir : Nat) : Nat := pairBase l + 0x200 + 0x100 * dir
/-- RS monitor type in the pair block of a stream, both directions; the counts of a stream inside a set, but for its lowest, are 0 (R188). -/
def setMonType (m ty : Nat) (mask : BitVec 8) (s : State) : State :=
  let streams := (List.range 8).filter (fun k => mask.getLsbD k)
  each streams (fun k s =>
    let l := m / 8 * 8 + k
    let low := ty != 0 && (k - m % 8) % (2 ^ (ty - 1)) == 0
    let w := BitVec.ofNat 32 (if low then 4 * ty else 0)
    let s := if ty != 0 && !low then each (List.range 36) (fun i s => wr (rsBase l 1 + 4 * i) 0 (wr (rsBase l 0 + 4 * i) 0 s)) s else s
    wr (rsMonStatusR l 1) w (wr (rsMonStatusR l 0) w s)) s
/-- The pair blocks in which the streams of a link report. -/
def streamMask (mode : Nat) (mask : BitVec 8) : BitVec 8 := if isCompat mode then mask &&& 0x0F else mask

def configRefused (s : State) (m : Nat) (c : Cmd) (b : List Byte) : Bool :=
  let mode := leAt b 0 1
  let mask := BitVec.ofNat 8 (leAt b 1 1)
  (linkOf s m).state != .down
    || (mode != 0 && (overlaps s m mask || mixes s m mode || (isCompat mode && hostSpread s (m / 64))))
    || (c.paramLen == 4 && (leAt c.params 0 1 == 1) != pairSwap s (m / 8) && (portLinks s (m / 8)).any (fun k => k != m))

/-- LINK_CONFIGURE (R349). -/
def opLinkConfigure : OpSpec := { opcode := 0x0201, classes := [4], lens := [0, 4], maxResult := 5, need := .any }
/-- DEDUCED: log 70. -/
def configure (m : Nat) (c : Cmd) (b : List Byte) (s : State) : State :=
  let mode := leAt b 0 1
  let mask := BitVec.ofNat 8 (leAt b 1 1)
  let old := linkOf s m
  let s := setMonType m 0 (streamMask old.mode old.mask) s
  let s := if c.paramLen = 4 then wrB (portBase (m / 8)) 0 (leAt c.params 0 1 == 1) s else s
  if mode = 0 then putLink m { loopback := old.loopback } s
  else
    let s := putLink m { mode := mode, mask := mask, pcs := leAt b 2 1, loopback := old.loopback } s
    applyPolicy m b (setMonType m (leAt b 2 1) (streamMask mode mask) s)
/-- DEDUCED: log 58. -/
def actLinkConfigure (c : Cmd) (entry : Option (List Byte)) (e : Nat) (s : State) : State :=
  let m := c.idx.toNat
  if !zeroFrom c.params 1 || decide (1 < leAt c.params 0 1) then complete e stBadParam [] s
  else if !ldtEnabled s then complete e stNotReady [] s
  else match entryRead entry with
  | none => complete e stChecksum [] (count ldtCrcErrR 1 s)
  | some b =>
    let mode := leAt b 0 1
    let setOk := mode == 0 || pairSet mode (m % 8) == some (BitVec.ofNat 8 (leAt b 1 1))
    if !entryRanges b || !modeOk mode (leAt b 2 1) || !setOk then complete e stBadParam [] s
    else if configRefused s m c b then complete e stRefused [] s
    else
      let s := configure m c b s
      complete e stOk (if mode = 0 then leBytes 4 (leAt b 0xF8 4) ++ zeros 1 else refreshResult s m) s
def execLinkConfigure (c : Cmd) (entry : Option (List Byte)) (s : State) : Out State :=
  .next (command opLinkConfigure c (actLinkConfigure c entry) s)

/-! ### LINK_UP and LINK_DOWN (R144, R350) -/

def opLinkUpSpec : OpSpec := { opcode := 0x0202, classes := [4], lens := [0, 4], maxResult := 8 }
/-- What LINK_UP does in each link state, its command waiting already. -/
def linkUp (m : Nat) (s : State) : State :=
  let s := modLink m (fun x => { x with relinks := 0 }) s
  match (linkOf s m).state with
  | .down => enterListen m false (modLink m (fun x => { x with graded := false }) s)
  | .holdoff => enterListen m false s
  | _ => s
def actLinkUp (c : Cmd) (e : Nat) (s : State) : State :=
  let m := c.idx.toNat
  match firstBad [
    (!zeroFrom c.params 1 || decide (1 < leAt c.params 0 1), stBadParam), (cableBusy s (m / 8), stBusy),
    (synState s (m / 8) == 4, stNotReady),
    (!(running s opcLinkUp 4 m).isEmpty || (linkOf s m).state == .leaving, stBusy)] with
  | some st => complete e st [] s
  | none =>
    if (linkOf s m).state = .up then complete e stOk (upResult s m 0) s
    else
      let s := if leAt c.params 0 1 = 1 then modLink m (fun x => { x with noCont := true }) s else s
      linkUp m (keepRunning e m s)
def execLinkUp (c : Cmd) (s : State) : Out State := .next (command opLinkUpSpec c (actLinkUp c) s)

def opLinkDownSpec : OpSpec := { opcode := 0x0203, classes := [4], lens := [0] }
/-- DEDUCED: log 57. -/
def linkDown (m : Nat) (s : State) : State :=
  match (linkOf s m).state with
  | .down => enterDown m s
  | .train => leaveByCommand m s
  | .up => leaveByCommand m s
  | .leaving => modLink m (fun x => { x with relisten := false }) s
  | _ => enterDown m (completeAll opcLinkUp 4 m stAborted (upResult s m 1) s)
def actLinkDown (c : Cmd) (e : Nat) (s : State) : State :=
  let m := c.idx.toNat
  if (linkOf s m).state = .down then complete e stOk [] s else linkDown m (keepRunning e m s)
def execLinkDown (c : Cmd) (s : State) : Out State := .next (command opLinkDownSpec c (actLinkDown c) s)

/-! ### The link status area (R350, R351) -/

def stateCode : LState → Nat
  | .down => 0 | .listen => 1 | .negotiate => 2 | .train => 3 | .up => 4 | .leaving => 5 | .holdoff => 6

/-- One value per pair of the port, 0 for pairs outside the link. -/
def perPair (m k : Nat) (mask : BitVec 8) (f : Nat → Nat) : List Byte :=
  (List.range 8).flatMap (fun i => leBytes k (if mask.getLsbD i then f (m / 8 * 8 + i) else 0))

/-- Bytes 0x010 to 0x01F of an entry as applied. -/
def policyBytes (p : Policy) : List Byte :=
  leBytes 1 p.calDelta ++ leBytes 1 (twos 8 p.retakeTol) ++ leBytes 1 p.txLead ++ leBytes 1 p.relinkLimit ++ leBytes 2 p.calPeriod
    ++ leBytes 2 p.holdoff ++ leBytes 1 p.snrMin ++ leBytes 1 p.quietRefresh ++ zeros 2 ++ leBytes 4 p.pwrTimers

/-- The RS monitor sets of a link that are locked: in both directions. DEDUCED: log 60. -/
def rsLockMask (s : State) (m : Nat) (mask : BitVec 8) : Nat :=
  (List.range 8).foldl (fun a k =>
    let l := m / 8 * 8 + k
    if mask.getLsbD k && rdB s (rsMonStatusR l 0) 0 && rdB s (rsMonStatusR l 1) 0 then a + 2 ^ k else a) 0

def pairFlags (s : State) (l : Nat) : Nat :=
  let p := pairOf s l
  b2n p.sfLock + 2 * b2n p.inverted + 4 * b2n p.quiet + 8 * b2n (timingPair s (l / 8) == some l) + 16 * b2n p.pairMismatch

/-- The MODE byte: the applied code, and for an AUTO link the mode that acquisition resolved, while it runs (R171). -/
def shownMode (x : LinkSt) : Nat :=
  if x.mode = 0x80 ∧ x.runMode ≠ 0 ∧ (trainOrUp x.state || x.state == .leaving) = true then x.runMode else x.mode
/-- The 128 bytes of the link status area. DEDUCED: log 60. -/
def statusArea (s : State) (m : Nat) : List Byte :=
  let x := linkOf s m
  let l0 := (activePairs s m).headD m
  let slots := (List.range 8).flatMap (fun k =>
    leBytes 1 (if x.mask.getLsbD k then (activeSlot s (m / 8 * 8 + k)).getD 0xFF else 0xFF))
  leBytes 1 (stateCode x.state) ++ leBytes 1 (shownMode x) ++ leBytes 1 x.mask.toNat ++ leBytes 1 x.pol.flags.toNat
    ++ leBytes 1 (b2n x.slave + 2 * b2n x.locked + 4 * b2n x.partnerLocked + 8 * b2n x.override) ++ leBytes 1 x.road
    ++ leBytes 1 x.phase ++ leBytes 1 x.lastReason ++ leBytes 8 x.serial ++ leBytes 1 x.port ++ leBytes 1 x.lastCause
    ++ leBytes 1 x.relinks ++ leBytes 1 (rsLockMask s m (streamMask x.mode x.mask)) ++ leBytes 4 (if x.mode = 0 then 0 else (curSf s l0).toNat)
    ++ leBytes 4 x.gen ++ leBytes 1 (b2n x.configPending + 2 * b2n (linkMismatch s m)) ++ zeros 3
    ++ (if x.mode = 0 then zeros 16 else policyBytes x.pol) ++ leBytes 8 x.upTime.toNat
    ++ perPair m 1 x.mask (fun l => (pairOf s l).sfOffset) ++ perPair m 2 x.mask (fun l => rdF s (snrR l) 15 0)
    ++ perPair m 2 x.mask (fun l => rdF s (sigLevelR l) 15 0) ++ perPair m 1 x.mask (pairFlags s) ++ slots ++ zeros 16

def opLinkStatus : OpSpec := { opcode := 0x0204, classes := [4], lens := [0], maxResult := 128 }
def execLinkStatus (c : Cmd) (s : State) : Out State :=
  .next (command opLinkStatus c (fun e s => complete e stOk (statusArea s c.idx.toNat) s) s)

/-! ### Policies and roles (R352, R353) -/

def opLinkQuietPolicy : OpSpec := { opcode := 0x0206, classes := [4], lens := [0, 4], maxResult := 4 }
def quietPolicyResult (s : State) (m : Nat) : List Byte :=
  leBytes 1 (b2n ((linkOf s m).pol.flags.getLsbD 5)) ++ leBytes 1 (linkOf s m).pol.quietRefresh ++ zeros 2
def actLinkQuietPolicy (c : Cmd) (e : Nat) (s : State) : State :=
  let m := c.idx.toNat
  if c.paramLen = 0 then complete e stOk (quietPolicyResult s m) s
  else if 1 < leAt c.params 0 1 ∨ 127 < leAt c.params 1 1 ∨ leAt c.params 2 2 ≠ 0 then complete e stBadParam [] s
  else
    let s := modLink m (fun x => { x with
      override := true
      pol := { x.pol with flags := (x.pol.flags &&& ~~~0x20) ||| BitVec.ofNat 8 (32 * leAt c.params 0 1), quietRefresh := orDefault (leAt c.params 1 1) 8 } }) s
    complete e stOk (quietPolicyResult s m) s
def execLinkQuietPolicy (c : Cmd) (s : State) : Out State := .next (command opLinkQuietPolicy c (actLinkQuietPolicy c) s)

def opTakePolicy : OpSpec := { opcode := 0x0307, classes := [4], lens := [0, 8], maxResult := 8, need := .pair }
def takePolicyResult (s : State) (m : Nat) : List Byte :=
  let p := (linkOf s m).pol
  leBytes 1 (p.flags.toNat / 2 % 16) ++ leBytes 1 p.calDelta ++ leBytes 1 (twos 8 p.retakeTol) ++ leBytes 1 p.txLead
    ++ leBytes 2 p.calPeriod ++ zeros 2
def takePolicyBad (p : List Byte) : Bool :=
  decide (15 < leAt p 0 1) || !fieldOk (leAt p 1 1) 1 32
    || !(leAt p 2 1 == 0 || (decide (-50 ≤ s8 (leAt p 2 1)) && decide (s8 (leAt p 2 1) ≤ -10)))
    || !fieldOk (leAt p 3 1) 4 255 || leAt p 6 2 != 0
def actTakePolicy (c : Cmd) (e : Nat) (s : State) : State :=
  let m := (linkOfPair s c.idx.toNat).getD c.idx.toNat
  let p := c.params
  if c.paramLen = 0 then complete e stOk (takePolicyResult s m) s
  else if takePolicyBad p then complete e stBadParam [] s
  else
    let s := modLink m (fun x => { x with
      override := true
      pol := { x.pol with
        flags := (x.pol.flags &&& ~~~0x1E) ||| BitVec.ofNat 8 (2 * leAt p 0 1), calDelta := orDefault (leAt p 1 1) 6
        retakeTol := if leAt p 2 1 = 0 then -30 else s8 (leAt p 2 1), txLead := orDefault (leAt p 3 1) 16, calPeriod := leAt p 4 2 } }) s
    complete e stOk (takePolicyResult s m) s
def execTakePolicy (c : Cmd) (s : State) : Out State := .next (command opTakePolicy c (actTakePolicy c) s)

def opLinkForceRole : OpSpec := { opcode := 0x0207, level := .expert, classes := [4], lens := [4] }
def actLinkForceRole (c : Cmd) (e : Nat) (s : State) : State :=
  let p := c.idx.toNat / 8
  let pref := leAt c.params 0 1
  match firstBad [
    (2 < pref || decide (1 < leAt c.params 1 1) || leAt c.params 2 2 != 0, stBadParam),
    (!(fdxOut s p).isEmpty && pref != 0 && (portOf s p).fixedRole.any (fun r => r != (pref == 2)), stRefused)] with
  | some st => complete e st [] s
  | none => complete e stOk [] (modPort p (fun x => { x with force := some (pref, leAt c.params 1 1 == 1) }) s)
def execLinkForceRole (c : Cmd) (s : State) : Out State := .next (command opLinkForceRole c (actLinkForceRole c) s)

def opLinkTrainStep : OpSpec := { opcode := 0x0208, level := .expert, classes := [4], lens := [4], maxResult := 4 }
def stepResult (s : State) (m : Nat) : List Byte := leBytes 1 (linkOf s m).phase ++ zeros 3
def actLinkTrainStep (c : Cmd) (e : Nat) (s : State) : State :=
  let m := c.idx.toNat
  let a := leAt c.params 0 1
  let x := linkOf s m
  match firstBad [
    (2 < a || !zeroFrom c.params 1, stBadParam), (a == 0 && x.state != .down && x.state != .listen, stRefused),
    (a == 1 && !x.heldAt, stNotReady)] with
  | some st => complete e st [] s
  | none =>
    if a = 0 then complete e stOk (stepResult s m) (modLink m (fun x => { x with hold := true }) s)
    else if a = 1 then phaseNext m (keepRunning e m s)
    else
      let s := modLink m (fun x => { x with hold := false, heldAt := false }) s
      complete e stOk (stepResult s m) (if x.heldAt then phaseNext m s else s)
def execLinkTrainStep (c : Cmd) (s : State) : Out State := .next (command opLinkTrainStep c (actLinkTrainStep c) s)

end Sys2Proof.Machine
end

