-- ==== Sys2Proof/Machine/Rack.lean ====
section
/-! DEFINITION. The rack clock synthesizer: PLLs, hop slots, outputs, spread and the clapper (R260 to R282, R506). PLL 72
is OSA, 73 OSB; RC_STATUS.STATE: 0 OFF, 1 SEARCH, 2 SETTLING, 3 LOCKED, 4 HOPPING, 5 HOLDOVER, 6 UNLOCKED;
OUT_STATUS.STATE: 0 DISABLED, 1 RUNNING, 2 BYPASS, 3 STOPPED, 4 HOPPING. -/
namespace Sys2Proof.Machine

def rackCtl (i : Nat) : Nat := rackBase i
def rackStatus (i : Nat) : Nat := rackBase i + 4
def setRackState (i st : Nat) (s : State) : State := wrF (rackStatus i) 2 0 st s
def rackBusy (s : State) (i : Nat) : Bool := rackState s i == 1 || rackState s i == 4
def rackValid (s : State) (i k : Nat) : Bool := rdB s (rackSlotR i k) 28
def outStatus (n : Nat) : Nat := outBase n + 0x10
def setOutState (n st : Nat) (s : State) : State := wrF (outStatus n) 2 0 st s
def outEn (s : State) (n : Nat) : Bool := rdB s (outBase n) 7
/-- The divider of an output is in use: its pins drive it, or a tile host synthesizer takes its tap (R269). -/
def outUsed (s : State) (n : Nat) : Bool := outEn s n || (List.range 8).any (fun t => hostOut s t == some n)
/-- The outputs of a PLL. -/
def pllOuts (s : State) (i : Nat) : List Nat := (List.range 16).filter (fun n => outSrc s n == i)
def rackPll (i : Nat) : Bool := i == 72 || i == 73

/-- The digital half that serves a PLL is enabled (R292). -/
def rackEnabled (s : State) (i : Nat) : Bool := rdB s clkEnR (2 + (i - 72))

/-- The input of a PLL's active mode passes (R261, R282). -/
def rackInputOk (s : State) (i : Nat) : Bool :=
  match rackMode s i with
  | 0 => monOk s 2
  | 1 => monOk s 0
  | 2 => monOk s 1
  | _ => selectorOk s

/-! ### Frequencies -/

/-- The frequency of a reference: 1 REFA, 2 REFB, 3 XTAL. -/
def srcFreq (src : Nat) : Nat := if src = 1 then Config.refaFreq else if src = 2 then Config.refbFreq else if src = 3 then Config.xtalFreq else 0
/-- The selected reference's. -/
def selFreq (s : State) : Nat := srcFreq (1 + refActive s)
def modeFreq (s : State) (mode : Nat) : Nat := if mode = 0 then srcFreq 3 else if mode = 3 then selFreq s else srcFreq mode

/-- A slot's VCO frequency as a fraction, in mHz (R260). -/
def slotVco (s : State) (w frac : Word) : Nat × Nat :=
  (modeFreq s (fieldGet w 1 0) * (fieldGet w 2 2 + 1) * (fieldGet w 21 12 * 2 ^ 32 + frac.toNat), (fieldGet w 8 3 + 1) * 2 ^ 32)
def pllVco (s : State) (i : Nat) : Nat × Nat :=
  let k := rackActive s i
  slotVco s (rd s (rackSlotR i k)) (rd s (rackSlotR i k + 4))
def outDiv (s : State) (n : Nat) : Nat := rdF s (outBase n) 19 8 + 1
def bypSrc (s : State) (n : Nat) : Nat := rdF s (outBase n) 5 4
def bypDiv (s : State) (n : Nat) : Nat := rdF s (outBase n + 4) 27 16 + 1
/-- The frequency at an output's divider as a fraction, in mHz (R267, R269, R278). -/
def outFreq (s : State) (n : Nat) : Nat × Nat :=
  if outState s n = 2 then (srcFreq (bypSrc s n), bypDiv s n)
  else if outState s n = 3 then (0, 1)
  else let f := pllVco s (outSrc s n); (f.1, f.2 * outDiv s n)
def freqEq (a b : Nat × Nat) : Bool := a.1 * b.2 == b.1 * a.2
/-- Maximum of an output format, in mHz (R267). -/
def fmtMax (fmt : Nat) : Nat := if fmt = 0 then 800000000000 else if fmt = 1 then 400000000000 else if fmt = 2 then 3200000000000 else 250000000000
def freqAtMost (a : Nat × Nat) (m : Nat) : Bool := decide (a.1 ≤ m * a.2)
def freqAtLeast (a : Nat × Nat) (m : Nat) : Bool := decide (m * a.2 ≤ a.1)

/-- The reference of a synthesizer: the tile reference, or for a tile host synthesizer the output it follows (R223, R236). -/
def synRefFreq (s : State) (i : Nat) : Nat × Nat :=
  if 64 ≤ i ∧ rdB s (synRefR i) 0 = true then outFreq s (rdF s (synRefR i) 4 1) else (selFreq s, 1)
/-- A synthesizer word is within R236 at a PREDIV. -/
def synWordOk (s : State) (i prediv nint frac : Nat) : Bool :=
  let f := synRefFreq s i
  let pfd := (2 * f.1, f.2 * prediv)
  let vco := (pfd.1 * (nint * 2 ^ 32 + frac), pfd.2 * 2 ^ 32)
  wordInRange nint && freqAtLeast pfd 120000000000 && freqAtMost pfd 400000000000
    && freqAtLeast vco 24000000000000 && freqAtMost vco 30000000000000
/-- A rack slot word is within R260. -/
def rackWordOk (s : State) (w frac : Word) : Bool :=
  let pfd := (modeFreq s (fieldGet w 1 0) * (fieldGet w 2 2 + 1), fieldGet w 8 3 + 1)
  let vco := slotVco s w frac
  decide (14 ≤ fieldGet w 21 12 ∧ fieldGet w 21 12 ≤ 660) && freqAtLeast pfd 10000000000 && freqAtMost pfd 400000000000
    && freqAtLeast vco 5600000000000 && freqAtMost vco 6600000000000

/-! ### Tile host synthesizers that follow an output -/

def tileFollows (s : State) (t n : Nat) : Bool := hostOut s t == some n
def followers (s : State) (n : Nat) : List Nat := (List.range 8).filter (fun t => tileFollows s t n)
def tileLaneLocked (s : State) (t : Nat) : Bool := (tileLanes t).any (fun l => laneState s l == 2)
def followedLocked (s : State) (n : Nat) : Bool := (followers s n).any (tileLaneLocked s)
/-- A tile carries a COMPAT link. -/
def tileCompat (s : State) (t : Nat) : Bool := (List.range 64).any (fun k => isCompat (modeOf s (64 * t + k)) && isLink s (64 * t + k))

/-! ### Spread in effect (R270, R271) -/

def spreadReset : Word := 0x3F0000
def spreadOf (s : State) (n : Nat) : Word := tabGet spreadReset s.spread n
def setSpread (n : Nat) (w : Word) (s : State) : State := { s with spread := tabPut spreadReset s.spread n w }
/-- A top of the triangle: the register's parameters take effect. -/
def spreadTop (n : Nat) (s : State) : State :=
  let w := rd s (outBase n + 8)
  wrB (outStatus n) 4 (fieldGet w 1 0 != 0) (setSpread n w s)
/-- The output's spread stops (R278). -/
def spreadStop (n : Nat) (s : State) : State := wrB (outStatus n) 4 false (setSpread n spreadReset s)

/-- SPREAD_TOP. -/
def spreadTopIn (n : Nat) (s : State) : State :=
  if s.mode ≠ .running ∨ outState s n ≠ 1 then s else spreadTop n s
def execSpreadTop (n : BitVec 4) (s : State) : Out State := .next (spreadTopIn n.toNat s)

/-! ### Hops (R264, R265) -/

/-- Outputs that run stop at low level for a hop; SYNCED clears. DEDUCED: log 79. -/
def outsHop (i : Nat) (s : State) : State :=
  each (pllOuts s i) (fun n s =>
    let s := wrB (outStatus n) 3 false s
    if outState s n = 1 then setOutState n 4 s else s) s

/-- The PLL locks: outputs in a hop restart together, and an output that has waited for its PLL runs (R506). DEDUCED: log 80. -/
def outsRun (i : Nat) (s : State) : State :=
  each (pllOuts s i) (fun n s =>
    if outState s n = 4 ∨ outState s n = 0 then setOutState n 1 s else s) s

/-- A hop to a slot begins; a slot without a band is searched. DEDUCED: log 79. -/
def rackHop (i k : Nat) (tag : Option Nat) (s : State) : State :=
  let srch := !rackValid s i k
  let s := wr (rackStepOfs i) 0 (setRackState i (if srch then 1 else 4) (wrF (rackCtl i) 3 0 k s))
  outsHop i (modSyn i (fun x => { x with target := k, search := srch, enabling := false, hopTag := tag }) s)

/-- The PLL is enabled: the band of its slot is searched (R264). DEDUCED: log 80. -/
def rackEnable (i : Nat) (tag : Option Nat) (s : State) : State :=
  let k := rdF s (rackCtl i) 3 0
  modSyn i (fun x => { x with target := k, search := true, enabling := true, hopTag := tag })
    (setRackState i 1 (wrF (rackStatus i) 7 4 k (wrB (rackCtl i) 4 true s)))

/-- The PLL is disabled: its outputs hold their static low until it locks again. DEDUCED: log 80. -/
def rackDisable (i : Nat) (s : State) : State :=
  let tag := (synOf s i).hopTag
  let s := setRackState i 0 (wrB (rackCtl i) 4 false s)
  let s := each (pllOuts s i) (fun n s =>
    let s := wrB (outStatus n) 3 false s
    if outState s n = 1 ∨ outState s n = 4 then setOutState n 0 s else s) s
  hopCut tag (modSyn i (fun x => { x with hopTag := none, enabling := false, search := false }) s)

/-- RACK_HOP_DONE: the PLL has locked on its slot, with the band found where one was searched. DEDUCED: log 79. -/
def rackHopDone (i band : Nat) (fresh : Bool) (s : State) : State :=
  if s.mode ≠ .running ∨ rackPll i = false ∨ rackBusy s i = false then s
  else
    let x := synOf s i
    let srch := x.search || fresh
    let s := if srch then wrB (rackSlotR i x.target) 28 true (wrF (rackSlotR i x.target) 27 22 band s) else s
    let s := wrF (rackStatus i) 7 4 x.target (setRackState i 3 s)
    let s := if x.enabling then s else count (rackBase i + 0x18) 1 s
    let s := if srch && !x.enabling then count (rackBase i + 0x1C) 1 s else s
    hopEnd x.hopTag srch (outsRun i (modSyn i (fun y => { y with search := false, enabling := false, hopTag := none }) s))
def execRackHopDone (i : Pll) (band : BitVec 6) (fresh : Bool) (s : State) : Out State := .next (rackHopDone i.val band.toNat fresh s)

/-! ### Loss of lock and of reference (R277, R278) -/

/-- The bypass input that an output names passes its monitor. -/
def bypassOk (s : State) (src : Nat) : Bool := src != 0 && monOk s (src - 1)

/-- Outputs with a state, as a mask. -/
def outMask (s : State) (i st : Nat) : Nat :=
  ((pllOuts s i).filter (fun n => outEn s n && outState s n == st)).foldl (fun m n => m + 2 ^ n) 0
/-- EVT_RACKCLK_BYPASS. DEDUCED: log 82. -/
def bypassEvent (i cause : Nat) (s : State) : State :=
  raise 0x0302 (unitPll i) (leBytes 1 (i - 72) ++ leBytes 1 cause ++ leBytes 2 (outMask s i 2) ++ leBytes 2 (outMask s i 3)) s

/-- OUTPUT_BYPASS: the running outputs that are enabled take their bypass clock, or stop, and so does a tap that a tile follows (R269, R278). -/
def outputBypass (i cause : Nat) (s : State) : State :=
  let s := each ((pllOuts s i).filter (fun n => outUsed s n && outState s n == 1)) (fun n s =>
    let s := spreadStop n (wrF (outStatus n) 7 6 cause (wrB (outStatus n) 3 false s))
    if bypassOk s (bypSrc s n) then muxSwitch 5 n 1 1 (setOutState n 2 s) else setOutState n 3 s) s
  bypassEvent i cause s

/-- RACK_PLL_REF_LOST: the monitor of the input fails, of a locked PLL or of one that tries to lock again (R277). -/
def rackRefLost (i : Nat) (s : State) : State :=
  if s.mode = .running ∧ rackPll i = true ∧ (rackState s i = 3 ∨ rackState s i = 6) ∧ rackInputOk s i = false then
    outputBypass i 2 (raise 0x0300 (unitPll i) [] (count (rackBase i + 0x14) 1 (setRackState i 5 s)))
  else s
def execRackPllRefLost (i : Pll) (s : State) : Out State := .next (rackRefLost i.val s)

/-- RACK_PLL_REF_RETURN. -/
def rackRefReturn (i : Nat) (s : State) : State :=
  if s.mode = .running ∧ rackPll i = true ∧ rackState s i = 5 ∧ rackInputOk s i = true then outsRun i (setRackState i 3 s) else s
def execRackPllRefReturn (i : Pll) (s : State) : Out State := .next (rackRefReturn i.val s)

/-- RACK_PLL_UNLOCK. -/
def rackUnlock (i : Nat) (s : State) : State :=
  if s.mode = .running ∧ rackPll i = true ∧ (rackState s i = 3 ∨ rackState s i = 5) then
    outputBypass i 1 (raise 0x0301 (unitPll i) [] (count (rackBase i + 0x10) 1 (setRackState i 6 s)))
  else s
def execRackPllUnlock (i : Pll) (s : State) : Out State := .next (rackUnlock i.val s)

/-- RACK_PLL_RELOCK. -/
def rackRelock (i : Nat) (s : State) : State :=
  if s.mode = .running ∧ rackPll i = true ∧ rackState s i = 6 then outsRun i (setRackState i 3 s) else s
def execRackPllRelock (i : Pll) (s : State) : Out State := .next (rackRelock i.val s)

/-- BYPASS_INPUT_FAIL: outputs in BYPASS on an input whose monitor has failed stop; one event for each PLL. -/
def bypassFail (src : Nat) (s : State) : State :=
  if s.mode ≠ .running ∨ bypassOk s src = true then s
  else each [72, 73] (fun i s =>
    let hit := (pllOuts s i).filter (fun n => outState s n == 2 && bypSrc s n == src)
    match hit with
    | [] => s
    | n :: _ => bypassEvent i (rdF s (outStatus n) 7 6) (each hit (fun n s => setOutState n 3 s) s)) s
def execBypassInputFail (src : BitVec 2) (s : State) : Out State := .next (bypassFail src.toNat s)

/-! ### Outputs (R267, R268, R279) -/

/-- The return of an output from BYPASS or STOPPED: only while the source PLL is LOCKED. DEDUCED: log 81. -/
def outReturn (n : Nat) (s : State) : State :=
  if (outState s n = 2 ∨ outState s n = 3) ∧ rackState s (outSrc s n) = 3 then
    let s := if outState s n = 2 then muxSwitch 5 n 2 1 s else s
    setOutState n 1 (wrF (outStatus n) 7 6 0 (wrB (outStatus n) 3 false s))
  else s

/-- The state of an output's divider after a write of its EN or SRC: EN gates the pins alone, so that BYPASS and STOPPED stay; from a PLL
in a hop it stops with it, and from a PLL that is not locked it holds its low until the lock (R269, R279, R506). DEDUCED: log 80. -/
def outSettle (n : Nat) (s : State) : State :=
  let st := outState s n
  let pll := rackState s (outSrc s n)
  if st = 2 ∨ st = 3 then s
  else if pll = 3 then setOutState n 1 s
  else if (pll = 1 ∨ pll = 4) ∧ st ≠ 0 then setOutState n 4 s
  else setOutState n 0 s

/-- A write of OUT_CFG with its locked fields settled: a change of DIV, FMT or SRC clears SYNCED, and a change of DIV or SRC
takes the lanes of a following tile out of lock (R268). DEDUCED: log 82. -/
def outCfgWrite (n : Nat) (w : Word) (s : State) : State :=
  let old := rd s (outBase n)
  let s := wr (outBase n) w s
  let moved := fieldGet old 19 8 != fieldGet w 19 8 || fieldGet old 0 0 != fieldGet w 0 0
  let s := if moved || fieldGet old 2 1 != fieldGet w 2 1 then wrB (outStatus n) 3 false s else s
  let s := if moved then each (followers s n) tileLanesLost s else s
  if fieldGet old 0 0 != fieldGet w 0 0 || fieldGet old 7 7 != fieldGet w 7 7 then outSettle n s else s

/-- A write of OUT_PHASE. DEDUCED: log 82. -/
def outPhaseWrite (n : Nat) (w : Word) (s : State) : State :=
  let old := rd s (outBase n + 4)
  let s := wr (outBase n + 4) w s
  if fieldGet old 11 0 != fieldGet w 11 0 then each (followers s n) tileLanesLost (wrB (outStatus n) 3 false s) else s

/-- A write of RC_CTL with its locked fields settled: SLOT hops, ENABLE enables or disables (R264, R265). -/
def rackCtlWrite (i : Nat) (w : Word) (s : State) : State :=
  let old := rd s (rackCtl i)
  let en := bitGet w 4
  let s := wrF (rackCtl i) 3 0 (fieldGet w 3 0) s
  if en && !bitGet old 4 then rackEnable i none s
  else if !en && bitGet old 4 then rackDisable i s
  else if en && fieldGet w 3 0 != fieldGet old 3 0 then rackHop i (fieldGet w 3 0) (synOf s i).hopTag s
  else s

/-- A write of a rack slot word, register 0 or N_FRAC: a slot that is not active loses VALID, the active one hops (R264). -/
def rackSlotWrite (i k : Nat) (frac : Bool) (w : Word) (s : State) : State :=
  let s := if frac then wr (rackSlotR i k + 4) w s else wrF (rackSlotR i k) 21 0 (fieldGet w 21 0) s
  if rackState s i ≠ 0 ∧ k = rdF s (rackCtl i) 3 0 then rackHop i k (synOf s i).hopTag s
  else wrB (rackSlotR i k) 28 false s

/-! ### The clapper (R272 to R276) -/

/-- CLAPPER_PULSE: a clapper edge at the present time. It wakes a PD_RACKCLK below RUN (R307). The armed outputs that run restart, as does the tap of one that a tile follows (R269); a tile host synthesizer that
follows one rides through, and its tile's lanes lose lock (R274). DEDUCED: log 86. -/
def clapper (s : State) : State :=
  if s.mode ≠ .running then s
  else if !domRuns s 78 then beginWake 78 s
  else if rdB s clapCtlR 0 = false then s
  else
    let near := s.lastClap.any (fun t => decide ((s.time - t).toNat < 1000))
    let s := { s with lastClap := some s.time }
    if near then raise 0x0304 unitDev [] (count clapRejectR 1 s)
    else
      let outs := (List.range 16).filter (fun n => rdB s (outBase n) 6 && outUsed s n && outState s n == 1)
      let s := each outs (fun n s =>
        let s := wrB (outStatus n) 3 true (wrB (outBase n) 6 false (spreadTop n s))
        each (followers s n) (fun t s =>
          if hostSynLocked s t then tileLanesLost t (modSyn (64 + t) (fun x => { x with masked := true }) s) else s) s) s
      raise 0x0303 unitDev (leBytes 2 (outs.foldl (fun m n => m + 2 ^ n) 0)) (count clapInCntR 1 s)
/-- DEDUCED: log 86. -/
def execClapperPulse (s : State) : Out State := .next (clapper s)

/-- CLAPPER_RIDE_THROUGH_END (R274): the detector is unmasked; the tile's transmit lanes run. -/
def rideEnd (t : Nat) (s : State) : State :=
  if (synOf s (64 + t)).masked then tileLanesRun t (modSyn (64 + t) (fun x => { x with masked := false }) s) else s
def execClapperRideThroughEnd (t : Tile) (s : State) : Out State := .next (rideEnd t.toNat s)

/-! ### What the status registers show -/

/-- OUT_STATUS, DISABLED while EN is 0, with TILE_FOLLOW, RC_STATUS with REF_OK (R282). DEDUCED: log 132. -/
def outStatusWord (s : State) (n : Nat) : Word :=
  let w := rd s (outStatus n)
  bitPut (if outEn s n then w else fieldPut w 2 0 0) 5 (!(followers s n).isEmpty)
/-- DEDUCED: log 132. -/
def rackStatusWord (s : State) (i : Nat) : Word := bitPut (rd s (rackStatus i)) 3 (rackState s i != 0 && rackInputOk s i)

end Sys2Proof.Machine
end

