-- ==== Sys2Proof/Machine/CmdClock.lean ====
section
/-! DEFINITION. The CLOCK commands (R360 to R362). -/
namespace Sys2Proof.Machine

/-- A lock bit of LOCK_CTL: 0 CLK_SRC, 1 OUT_EN, 2 PWR_POLICY, 3 MRAM_KEY, 4 STRAP_OVR (R401). -/
def locked (s : State) (b : Nat) : Bool := rdB s lockCtlR b

/-! ### CLK_OUTPUT_SET (R267, R268, R361) -/

/-- The whole number DIV at which a PLL gives a frequency within 10^-9, if there is one within R267. -/
def outDivFor (s : State) (i fmt f : Nat) : Option Nat :=
  let v := pllVco s i
  if f = 0 ∨ v.1 = 0 ∨ v.2 = 0 then none
  else
    let d := (2 * v.1 + v.2 * f) / (2 * (v.2 * f))
    if 1 ≤ d ∧ d ≤ 4096 ∧ ((v.1 : Int) - (v.2 * d * f : Nat)).natAbs * 10 ^ 9 ≤ v.2 * d * f
        ∧ freqAtMost (v.1, v.2 * d) (fmtMax fmt) = true then some d else none

/-- The words that CLK_OUTPUT_SET asks for: OUT_CFG with CLAP_ARM as it stands, OUT_PHASE, and RETURN; none where the
request breaks R267. -/
def outRequest (s : State) (n : Nat) (c : Cmd) : Option (Word × Word × Bool) :=
  let p := c.params
  let arm := rdF s (outBase n) 6 6
  if c.expert then
    let b := leAt p 0 1
    let div := leAt p 2 2
    let phase := leAt p 4 2
    let byp := leAt p 6 2
    if 1 ≤ div ∧ div ≤ 4096 ∧ phase < 2 * div ∧ phase ≤ 4095 ∧ 1 ≤ byp ∧ byp ≤ 4096
        ∧ freqAtMost ((pllVco s (72 + b % 2)).1, (pllVco s (72 + b % 2)).2 * div) (fmtMax (b / 2 % 4)) = true then
      some (BitVec.ofNat 32 (b + 64 * arm + 256 * (div - 1)), BitVec.ofNat 32 (phase + 65536 * (byp - 1)), leAt p 1 1 == 1)
    else none
  else
    let fmt := leAt p 8 1
    let mk (src div : Nat) : Word × Word × Bool :=
      (BitVec.ofNat 32 (src + 2 * fmt + 8 * (leAt p 9 1 % 2) + 64 * arm + 128 + 256 * (div - 1)), 0, decide (2 ≤ leAt p 9 1))
    match outDivFor s 72 fmt (leAt p 0 8) with
    | some d => some (mk 0 d)
    | none => (outDivFor s 73 fmt (leAt p 0 8)).map (mk 1)

def outParamsBad (c : Cmd) : Bool :=
  if c.expert then decide (64 ≤ leAt c.params 0 1 % 128) || decide (1 < leAt c.params 1 1) || !zeroFrom c.params 8
  else decide (3 < leAt c.params 8 1) || decide (3 < leAt c.params 9 1) || !zeroFrom c.params 10

/-- Some field under a lock would change (R402, R403). -/
def outLocked (s : State) (n : Nat) (cfg phase : Word) : Bool :=
  let old := rd s (outBase n)
  (locked s 0 && (fieldGet old 5 0 != fieldGet cfg 5 0 || rdF s (outBase n + 4) 27 16 != fieldGet phase 27 16))
    || (locked s 1 && fieldGet old 7 7 != fieldGet cfg 7 7)

/-- The frequency at the output's divider once the request is served. -/
def outFreqAfter (s : State) (n : Nat) (cfg : Word) (ret : Bool) : Nat × Nat :=
  if !ret && (outState s n == 2 || outState s n == 3) then outFreq s n
  else let v := pllVco s (72 + fieldGet cfg 0 0); (v.1, v.2 * (fieldGet cfg 19 8 + 1))

def opClkOutputSet (c : Cmd) : OpSpec :=
  { opcode := 0x0601, level := .both, classes := [6], lens := [12], maxResult := if c.expert then 0 else 12 }
def actClkOutputSet (c : Cmd) (e : Nat) (s : State) : State :=
  let n := c.idx.toNat
  if outParamsBad c then complete e stBadParam [] s
  else match outRequest s n c with
  | none => complete e stRange [] s
  | some (cfg, phase, ret) =>
    let src := 72 + fieldGet cfg 0 0
    match firstBad [
      (!rackEnabled s (outSrc s n) || !rackEnabled s src, stNotReady),
      (ret && rackState s src != 3, stNotReady),
      (outLocked s n cfg phase, stLocked),
      (followedLocked s n && !freqEq (outFreq s n) (outFreqAfter s n cfg ret), stRefused)] with
    | some st => complete e st [] s
    | none =>
      let s := outPhaseWrite n phase (outCfgWrite n cfg s)
      let s := if ret then outReturn n s else s
      let v := pllVco s src
      let div := fieldGet cfg 19 8 + 1
      complete e stOk (if c.expert then []
        else leBytes 1 (src - 72) ++ zeros 1 ++ leBytes 2 div ++ leBytes 8 ((2 * v.1 + v.2 * div) / (2 * (v.2 * div)))) s
def execClkOutputSet (c : Cmd) (s : State) : Out State := .next (command (opClkOutputSet c) c (actClkOutputSet c) s)

/-! ### CLK_PLL_PROGRAM and CLK_HOP (R241, R265, R361) -/

/-- The cases in which a synthesizer may not be disturbed (R241): a held one may. During a CABLE_TEST the port's runs at its FDX frequency
(R204). DEDUCED: log 164. -/
def synInUse (s : State) (i : Nat) : Bool :=
  synState s i != 4 && (if i < 64 then
      (portOf s i).cableTest.isSome || (portLinks s i).any (fun m => let x := (linkOf s m).state
                                    x == .negotiate || trainOrUp x || x == .leaving)
    else tileLaneLocked s (i - 64))
/-- An output of a rack PLL is followed by a tile with a LOCKED lane (R265). -/
def rackInUse (s : State) (i : Nat) : Bool := (pllOuts s i).any (followedLocked s)

def opClkPllProgram : OpSpec := { opcode := 0x0602, level := .expert, classes := [7], lens := [12] }

/-- CLK_PLL_PROGRAM of a port or tile host synthesizer. One that is OFF takes words and PREDIV and cannot be activated. -/
def programSyn (c : Cmd) (e : Nat) (s : State) : State :=
  let i := c.idx.toNat
  let k := leAt c.params 0 1
  let flags := leAt c.params 1 1
  let act := flags % 2 == 1
  let pre := decide (2 ≤ flags)
  let w := leAt c.params 4 4
  let frac := BitVec.ofNat 32 (leAt c.params 8 4)
  let prediv := if pre then bitsOf w 11 8 + 1 else rdF s (synCtl i) 3 0 + 1
  match firstBad [
    (decide (3 < k) || decide (3 < flags) || leAt c.params 2 2 != 0 || decide (4096 ≤ w), stBadParam),
    (synBusy s i, stBusy),
    (!synWordOk s i prediv (w % 256) frac.toNat, stRange),
    ((act || pre || k == synActive s i) && synInUse s i, stRefused),
    (act && synState s i == 0, stRefused)] with
  | some st => complete e st [] s
  | none =>
    let held := synState s i == 4
    let s := if pre then each (List.range 4) (fun j => wrB (synSlotR i j) 14 false) (wrF (synCtl i) 3 0 (prediv - 1) s) else s
    let s := synWordWrite i k true frac (synWordWrite i k false (BitVec.ofNat 32 w) s)
    if act then keepRunning e 0 (synHop i k held (some e) s)
    else complete e stOk [] (if pre && !held && synState s i != 0 then synAgain i (synActive s i) true none s else s)

/-- CLK_PLL_PROGRAM of a rack PLL: a write of the active slot is a hop; ACTIVATE of a disabled PLL enables it (R506). -/
def programRack (c : Cmd) (e : Nat) (s : State) : State :=
  let i := c.idx.toNat
  let k := leAt c.params 0 1
  let act := leAt c.params 1 1 == 1
  let w := BitVec.ofNat 32 (leAt c.params 4 4)
  let frac := BitVec.ofNat 32 (leAt c.params 8 4)
  let on := rackState s i != 0
  let active := on && k == rdF s (rackCtl i) 3 0
  match firstBad [
    (decide (15 < k) || decide (1 < leAt c.params 1 1) || leAt c.params 2 2 != 0 || decide (2 ^ 22 ≤ w.toNat)
      || decide (5 < fieldGet w 11 9), stBadParam),
    (!rackEnabled s i, stNotReady), (rackBusy s i, stBusy), (!rackWordOk s w frac, stRange),
    (locked s 0 && (rdF s (rackSlotR i k) 1 0 != fieldGet w 1 0 || (act && !on)), stLocked),
    ((act || active) && rackInUse s i, stRefused)] with
  | some st => complete e st [] s
  | none =>
    let s := wr (rackSlotR i k + 4) frac (wrF (rackSlotR i k) 21 0 w.toNat s)
    let s := if active then s else wrB (rackSlotR i k) 28 false s
    if act then keepRunning e 0 (if on then rackHop i k (some e) s else rackEnable i (some e) (wrF (rackCtl i) 3 0 k s))
    else complete e stOk [] (if active then rackHop i k none s else s)
def actClkPllProgram (c : Cmd) (e : Nat) (s : State) : State :=
  if c.idx.toNat < 72 then programSyn c e s else programRack c e s
def execClkPllProgram (c : Cmd) (s : State) : Out State := .next (command opClkPllProgram c (actClkPllProgram c) s)

/-- A hop of a rack PLL, or a clapper pulse, is scheduled at a chain time (R362). -/
def hopScheduled (s : State) (i : Nat) : Bool := s.hops.any (fun h => h.1 == i) || s.chain.epochs.any (fun x => x.action == 2 && x.pll == i)
def pulseScheduled (s : State) : Bool := s.pulse.isSome || s.chain.epochs.any (fun x => x.action == 1)

def opClkHop : OpSpec := { opcode := 0x0603, classes := [7], lens := [4, 12], maxResult := 4 }
/-- A chain time lies less than 100 µs ahead (R362). DEDUCED: log 85. -/
def tooSoon (s : State) (t : Nat) : Bool := decide (t < s.time.toNat + 100000)
/-- DEDUCED: log 74. DEDUCED: log 75. DEDUCED: log 85. -/
def actClkHop (c : Cmd) (e : Nat) (s : State) : State :=
  let i := c.idx.toNat
  let k := leAt c.params 0 1
  let timed := c.paramLen == 12
  let t := leAt c.params 4 8
  if i < 72 then
    match firstBad [
      (timed || leAt c.params 1 3 != 0, stBadParam), (decide (3 < k), stRange), (synBusy s i, stBusy),
      (synInUse s i, stRefused), (synState s i == 0, stNotReady)] with
    | some st => complete e st [] s
    | none => keepRunning e 0 (synHop i k (synState s i == 4) (some e) s)
  else
    match firstBad [
      (leAt c.params 1 3 != 0, stBadParam), (decide (15 < k) || (timed && tooSoon s t), stRange),
      (!rackEnabled s i || rackState s i == 0, stNotReady),
      (rackBusy s i || (timed && hopScheduled s i), stBusy), (rackInUse s i, stRefused)] with
    | some st => complete e st [] s
    | none =>
      if timed then complete e stOk (zeros 4) { s with hops := tabInsert s.hops i (k, BitVec.ofNat 64 t) }
      else keepRunning e 0 (rackHop i k (some e) s)
def execClkHop (c : Cmd) (s : State) : Out State := .next (command opClkHop c (actClkHop c) s)

/-! ### CLK_STEP, CLK_SPREAD, CLK_SYNC_ARM -/

def opClkStep : OpSpec := { opcode := 0x0604, classes := [7], lens := [4], maxResult := 4 }
/-- DEDUCED: log 74. -/
def actClkStep (c : Cmd) (e : Nat) (s : State) : State :=
  let i := c.idx.toNat
  let d := signed 32 (leAt c.params 0 4)
  match firstBad [
    (decide (2 ^ 20 < d.natAbs), stRange), (decide (72 ≤ i) && !rackEnabled s i, stNotReady), (stepRefused s i, stRefused)] with
  | some st => complete e st [] s
  | none => keepRunning e 0 (modSyn i (fun x => { x with steps := x.steps ++ [(e, d)] }) s)
def execClkStep (c : Cmd) (s : State) : Out State := .next (command opClkStep c (actClkStep c) s)

def opClkSpread : OpSpec := { opcode := 0x0605, classes := [6], lens := [4] }
/-- DEDUCED: log 83. -/
def actClkSpread (c : Cmd) (e : Nat) (s : State) : State :=
  let n := c.idx.toNat
  let mode := leAt c.params 0 1
  let amt := leAt c.params 1 1
  let rate := leAt c.params 2 1
  match firstBad [
    (decide (2 < mode) || leAt c.params 3 1 != 0, stBadParam),
    (decide ((if mode = 2 then 25 else 50) < amt) || decide (rate < 60 ∨ 126 < rate), stRange),
    (!rackEnabled s (outSrc s n), stNotReady),
    (rdB s (outBase n) 3 || (followers s n).any (tileCompat s) || (mode == 2 && !(followers s n).isEmpty), stRefused)] with
  | some st => complete e st [] s
  | none => complete e stOk [] (wr (outBase n + 8) (BitVec.ofNat 32 (mode + 256 * amt + 65536 * rate)) s)
def execClkSpread (c : Cmd) (s : State) : Out State := .next (command opClkSpread c (actClkSpread c) s)

def opClkSyncArm : OpSpec := { opcode := 0x0606, classes := [0], lens := [4, 12] }
def actClkSyncArm (c : Cmd) (e : Nat) (s : State) : State :=
  let mask := leAt c.params 0 2
  let outs := (List.range 16).filter (fun n => mask.testBit n)
  let timed := c.paramLen == 12
  let t := leAt c.params 4 8
  match firstBad [
    (leAt c.params 2 2 != 0, stBadParam),
    (timed && !rdB s chainStateR 0, stRefused), (timed && tooSoon s t, stRange),
    (outs.any (fun n => !rackEnabled s (outSrc s n)) || (timed && !rdB s clapCtlR 2), stNotReady),
    (timed && pulseScheduled s, stBusy)] with
  | some st => complete e st [] s
  | none =>
    let s := each outs (fun n => wrB (outBase n) 6 true) (wrB clapCtlR 0 true s)
    complete e stOk [] (if timed then { s with pulse := some (BitVec.ofNat 64 t) } else s)
def execClkSyncArm (c : Cmd) (s : State) : Out State := .next (command opClkSyncArm c (actClkSyncArm c) s)

/-! ### CLK_REF_SELECT and CLK_STATUS -/

def opClkRefSelect : OpSpec := { opcode := 0x0607, level := .both, classes := [0, 7], lens := [4] }
def selectSelector (c : Cmd) (e : Nat) (step : BitVec 16) (diff : Word) (s : State) : State :=
  let r := leAt c.params 1 1
  let b := leAt c.params 2 1
  match firstBad [
    (decide (1 < r) || (if c.expert then decide (7 < b) else b != 0) || leAt c.params 3 1 != 0, stBadParam),
    (!refOk s r, stNotReady),
    (locked s 0 && (r != rdF s refSelR 0 0
      || (c.expert && (b % 2 != rdF s refSelR 1 1 || b / 2 != rdF s refSelR 7 6))), stLocked)] with
  | some st => complete e st [] s
  | none =>
    let s := if c.expert then wrF refSelR 7 6 (b / 2) (wrF refSelR 1 1 (b % 2) s) else s
    complete e stOk [] (if r = refActive s then s else refSwitch r 0 step diff s)
def selectRoot (c : Cmd) (e : Nat) (s : State) : State :=
  let src := leAt c.params 1 1
  match firstBad [
    (decide (2 < src) || c.expert || leAt c.params 2 2 != 0, stBadParam),
    (!rootSrcOk s src, stNotReady), (locked s 0 && src != rdF s clkRootSrcR 1 0, stLocked)] with
  | some st => complete e st [] s
  | none => complete e stOk [] (rootSelect src (storeRootWord src s))
/-- DEDUCED: log 83. -/
def selectHost (c : Cmd) (e : Nat) (s : State) : State :=
  let i := c.idx.toNat
  let src := leAt c.params 0 1
  let out := leAt c.params 1 1
  match firstBad [
    (decide (i < 64 ∨ 71 < i), stNoUnit),
    (decide (1 < src) || decide (15 < out) || (src == 0 && out != 0) || c.expert || leAt c.params 2 2 != 0, stBadParam),
    (locked s 0 && rdF s (synRefR i) 4 0 != src + 2 * out, stLocked),
    (tileLaneLocked s (i - 64), stRefused),
    (src == 1 && (fieldGet (spreadOf s out) 1 0 == 2 || (tileCompat s (i - 64) && spreadMode s out != 0)), stRefused)] with
  | some st => complete e st [] s
  | none => complete e stOk [] (wrF (synRefR i) 4 0 (src + 2 * out) s)
def actClkRefSelect (c : Cmd) (step : BitVec 16) (diff : Word) (e : Nat) (s : State) : State :=
  if c.cls = 7 then selectHost c e s
  else match leAt c.params 0 1 with
  | 0 => selectSelector c e step diff s
  | 1 => selectRoot c e s
  | _ => complete e stBadParam [] s
/-- The operands after the command are the phase step and the frequency difference of a switch, as measured. -/
def execClkRefSelect (c : Cmd) (step : BitVec 16) (diff : Word) (s : State) : Out State :=
  .next (command opClkRefSelect c (actClkRefSelect c step diff) s)

/-- A register as a view reads it: its stored bits and the view's copy of the bits it keeps of its own (R400). -/
def rdFor (s : State) (v : View) (a : Nat) : Word := (rd s a &&& ~~~(pvMask a)) ||| (rdView s v a &&& pvMask a)

def opClkStatus (c : Cmd) : OpSpec := { opcode := 0x0608, classes := [0, 6, 7], lens := [0], maxResult := if c.cls = 0 then 12 else 16 }
def clkStatusWords (c : Cmd) (s : State) : List Word :=
  let i := c.idx.toNat
  match c.cls.toNat with
  | 0 => [rd s refSelR, rd s clkRootSrcR, rdFor s (pathView c.path) clkMonStatusR]
  | 6 => [rd s (outBase i), rd s (outBase i + 4), rd s (outBase i + 8), outStatusWord s i]
  | _ => if i < 72 then [rd s (synCtl i), synStatusWord s i, rd s (synSteerR i), rd s (synOffsetR i)]
    else [rd s (rackCtl i), rackStatusWord s i, rd s (rackStepOfs i), 0]
/-- DEDUCED: log 84. -/
def actClkStatus (c : Cmd) (e : Nat) (s : State) : State :=
  let i := c.idx.toNat
  let gated := (c.cls == 6 && !rackEnabled s (outSrc s i)) || (c.cls == 7 && decide (72 ≤ i) && !rackEnabled s i)
  if gated then complete e stNotReady [] s
  else
    let r := (clkStatusWords c s).flatMap (fun w => leBytes 4 w.toNat)
    let s := if c.cls = 0 then wrView (pathView c.path) clkMonStatusR 0 s else s
    complete e stOk r s
def execClkStatus (c : Cmd) (s : State) : Out State := .next (command (opClkStatus c) c (actClkStatus c) s)

end Sys2Proof.Machine
end

