-- ==== Sys2Proof/Machine/Acnan.lean ====
section
/-! DEFINITION. The Acnan host lanes: markers, lock, polarity and order, deskew, sleep and wake (R208 to R234), and the
HOSTLANE commands (R370). -/
namespace Sys2Proof.Machine

/-! ### Marker units (R215, R220) -/

def mkSync : Nat := 0x3C5AE1960F4BD287
/-- Copy c of the unit in a marker's payload. -/
def mkUnit (p : BitVec 512) (c : Nat) : Nat := bitsOf p.toNat (128 * c + 127) (128 * c)
/-- How many MK_SYNC bits of a unit match. DEDUCED: log 87. -/
def mkMatch (u : Nat) : Nat := ((List.range 64).filter (fun i => u.testBit i == mkSync.testBit i)).length
def mkSeed (u : Nat) : Nat := bitsOf u 118 88
def mkGood (u : Nat) : Bool :=
  decide (56 ≤ mkMatch u) && (crc8 (bitList u 64 119)).toNat == bitsOf u 127 120 && mkSeed u != 0
/-- The unit that a receiver decodes: the first good copy. -/
def mkDecode (p : BitVec 512) : Option Nat := ((List.range 4).map (mkUnit p)).find? mkGood
/-- A lane arrives inverted: at most 8 bits of some copy's MK_SYNC match; its bits are then read complemented (R221). DEDUCED: log 87. -/
def mkInverted (p : BitVec 512) : Bool := ((List.range 4).map (mkUnit p)).any (fun u => decide (mkMatch u ≤ 8))

/-- A marker unit with its CRC, as a transmitter builds it. -/
def markerUnit (lane : Nat) (device early sleep wake : Bool) (mseq : BitVec 16) (seed : BitVec 31) : BitVec 128 :=
  let low := mkSync + lane % 4 * 2 ^ 64 + b2n device * 2 ^ 66 + b2n early * 2 ^ 67 + b2n sleep * 2 ^ 68 + b2n wake * 2 ^ 69
    + mseq.toNat * 2 ^ 72 + seed.toNat * 2 ^ 88
  BitVec.ofNat 128 (low + (crc8 (bitList low 64 119)).toNat * 2 ^ 120)
/-- The payload of a marker: four copies of its unit. -/
def markerPayload (u : BitVec 128) : BitVec 512 :=
  BitVec.ofNat 512 (u.toNat + u.toNat * 2 ^ 128 + u.toNat * 2 ^ 256 + u.toNat * 2 ^ 384)

/-! ### Receiving -/

/-- The enabled receive lanes of a port. -/
def rxLanes (s : State) (p : Nat) : List Nat := ((List.range 4).map (fun i => 8 * p + 4 + i)).filter (laneEnabled s)

/-- A receive lane enters FAULT (R221): 1 ORDER, 2 DIR, 3 POLARITY_CHANGED. -/
def laneFault (n cause : Nat) (s : State) : State :=
  streamsAbsent n (wrF (hlStatus n) 9 8 cause (setLaneState n 5 (modLane n (fun x => { x with descramble := false, searching := false }) s)))

/-- The lane on the other end of the full reversal. -/
def laneMirror (n : Nat) : Nat := n / 4 * 4 + (3 - n % 4)
/-- The lanes are reordered: from here on a receive lane's number is its logical one, and what a physical lane has received is that of
its mirror. -/
def reverseLanes (ls : List Nat) (s : State) : State :=
  each ls (fun n t =>
    let m := laneMirror n
    wrB (hlStatus n) 3 (rdB s (hlStatus m) 3) (wrF (hlStatus n) 6 4 (1 + 2 * (m % 4))
      (modLane n (fun x =>
        let y := laneOf s m
        { x with lane := some (n % 4), invLevels := y.invLevels, seed := y.seed, mseq := y.mseq, marker := y.marker
                 arrived := y.arrived, descramble := y.descramble, sleepMark := y.sleepMark }) t))) s

/-- The order of a port's lanes is settled once every enabled lane has shown its LANE: identity, full reversal, or a
fault of all receive lanes. -/
def settleOrder (p : Nat) (s : State) : State :=
  let ls := rxLanes s p
  let at? (k : Nat → Nat) : Bool := ls.all (fun n => (laneOf s n).lane == some (k (n % 4)))
  if ls.any (fun n => (laneOf s n).lane.isNone) || ls.all (fun n => (laneOf s n).settled) then s
  else
    let s := each ls (fun n => modLane n (fun x => { x with settled := true })) s
    if at? (fun i => i) then each ls (fun n => wrF (hlStatus n) 6 4 (2 * (n % 4))) s
    else if at? (fun i => 3 - i) then
      raise 0x0A02 (unitPort p) [] (reverseLanes ls s)
    else raise 0x0A03 (unitPort p) [] (each ((List.range 4).map (fun i => 8 * p + 4 + i)) (fun n => laneFault n 1) s)

/-- A half of a stream says whether the host has it (R212). -/
def signPresence (x : HalfSign) (l : Nat) (s : State) : State :=
  match x with
  | .data => setAbsent false l s
  | .absent => setAbsent true l s
  | .silent => s
/-- The lane takes a decoded marker: its seed, its sequence number, SLEEP, and when it came. -/
def keepMarker (n u : Nat) (time : Word) (s : State) : State :=
  modLane n (fun x => { x with
    mseq := BitVec.ofNat 16 (bitsOf u 87 72), marker := BitVec.ofNat 128 u, arrived := time, seed := BitVec.ofNat 31 (mkSeed u)
    descramble := true, sleepMark := u.testBit 68 }) s
/-- What the halves of a lane's period say of its two streams. DEDUCED: log 88. -/
def laneSigns (n : Nat) (a b : HalfSign) (s : State) : State :=
  signPresence b (8 * (n / 8) + n % 4 * 2 + 1) (signPresence a (8 * (n / 8) + n % 4 * 2) s)

/-- The greatest skew that the receiver takes: 1.5 ns in symbols of 4.6377 ps (R222). DESIGN CHOICE: log 169. -/
def deskewBound : Nat := 323
/-- ACNAN_DESKEW (R222): once every locked receive lane of the port has its scheduled marker of one MSEQ, each is delayed to the latest. Beyond the
bound no lane is deskewed, which the lane of the marker that shows it reports, once. DEDUCED: log 88. -/
def deskew (n : Nat) (s : State) : State :=
  let ls := (rxLanes s (n / 8)).filter (fun k => laneState s k == 2)
  let x := laneOf s n
  if !ls.all (fun k => (laneOf s k).descramble && (laneOf s k).settled && (laneOf s k).mseq == x.mseq) then s
  else
    let late (k : Nat) : Nat := ls.foldl (fun d j => max d ((laneOf s j).arrived - (laneOf s k).arrived).toInt.toNat) 0
    if ls.all (fun k => decide (late k ≤ deskewBound)) then
      each ls (fun k t => modLane k (fun x => { x with deskewFail := false }) (wrF (hlStatus k) 25 16 (late k) (wrB (hlStatus k) 7 true t))) s
    else
      let s' := each ls (fun k t => modLane k (fun x => { x with deskewFail := true }) (wrF (hlStatus k) 25 16 0 (wrB (hlStatus k) 7 false t))) s
      if ls.any (fun k => (laneOf s k).deskewFail) then s' else raise 0x0A04 (unitLane n) [] s'

/-- ACNAN_FIRST_LOCK (R221). DEDUCED: log 88. -/
def firstLock (n u : Nat) (inv : Bool) (s : State) : State :=
  if u.testBit 66 then laneFault n 2 s
  else
    let s := if inv then raise 0x0A01 (unitLane n) [] (wrB (hlStatus n) 3 true s) else wrB (hlStatus n) 3 false s
    setLaneState n 2 (modLane n (fun x => { x with invLevels := inv, lane := some (bitsOf u 65 64) }) s)

/-- A later lock: the lane is checked against what was settled. -/
def laterLock (n u : Nat) (s : State) : State :=
  if (laneOf s n).lane = some (bitsOf u 65 64) then setLaneState n 2 s else laneFault n 1 s

/-- No copy of a marker decodes, or none came in time (R220). -/
def markerLost (n : Nat) (s : State) : State :=
  if laneIsTx n ∨ laneState s n ≠ 2 then s
  else streamsAbsent n (count (hlMarkerLost n) 1 (modLane n (fun x => { x with descramble := false }) s))

/-- A marker on a lane that is not LOCKED (ACQUIRE or WAKING). DEDUCED: log 87. -/
def lockMarker (n : Nat) (p : BitVec 512) (time : Word) (a b : HalfSign) (s : State) : State :=
  let x := laneOf s n
  let waking := laneState s n == 4
  let inv := if x.settled then x.invLevels else mkInverted p
  match mkDecode (if inv then ~~~p else p) with
  | none => if x.settled && (mkDecode (if inv then p else ~~~p)).isSome then laneFault n 3 s else s
  | some u =>
    let s := if x.settled then laterLock n u s else firstLock n u inv s
    if laneState s n ≠ 2 then s
    else
      let s := keepMarker n u time s
      let s := if x.settled then s else settleOrder (n / 8) s
      if !(laneOf s n).settled || laneState s n != 2 then s
      else
        let k := if !x.settled && rdB s (hlStatus n) 4 then laneMirror n else n
        let s := laneSigns k a b s
        let s := if u.testBit 69 then s else deskew k s
        if waking then count (hlWake n) 1 s else s

/-- The data halves that a receive lane brought in the period that ends, event 0x26: those of a stream that the host has, up to one a block; how
many is open (R415). DEDUCED: log 131. -/
def halvesIn (n : Nat) (x : HalfSign) (s : State) : State :=
  match x with
  | .data => let (v, s) := draw 28 s; perfTally (n / 64) 0x26 (unitLane n) (v.toNat % 16385) s
  | _ => s
/-- The halves that a transmit lane sent for a stream in a period of 16,384 blocks, events 0x27 and 0x28 (R415). -/
def halvesOut (n l fills : Nat) (s : State) : State :=
  let f := if streamDelivered s l then min 16384 fills else 16384
  perfTally (n / 64) 0x28 (unitLane n) f (perfTally (n / 64) 0x27 (unitLane n) (16384 - f) s)

/-- ACNAN_MARKER_RECEIVED on a receive lane, named by its logical number once the order is settled: the 512 payload bits, when the marker came, in
symbols, the stuff symbols at the run level since the last marker (R214), and what the halves of the period said of the two streams. -/
def markerIn (n : Nat) (p : BitVec 512) (time : Word) (errs : Nat) (a b : HalfSign) (s : State) : State :=
  if s.mode ≠ .running ∨ laneIsTx n = true ∨ laneEnabled s n = false then s
  else match laneState s n with
  | 1 => lockMarker n p time a b s
  | 4 => lockMarker n p time a b s
  | 2 =>
    let s := halvesIn n b (halvesIn n a (count (hlStuffErr n) errs s))
    (match mkDecode (if (laneOf s n).invLevels then ~~~p else p) with
    | none => markerLost n s
    | some u =>
      let s := keepMarker n u time s
      if !(laneOf s n).settled then s
      else
        let s := laneSigns n a b s
        if u.testBit 69 then s else deskew n s)
  | _ => s
def execAcnanMarkerReceived (n : Lane) (p : BitVec 512) (time : Word) (errs : BitVec 16) (a b : HalfSign) (s : State) : Out State :=
  .next (markerIn n.toNat p time errs.toNat a b s)

/-- A receive lane that is LOCKED. -/
def rxLocked (s : State) (n : Nat) : Bool := s.mode == .running && !laneIsTx n && laneState s n == 2

/-- ACNAN_INVALID_HEADER (R219): `second` says that the block before it had an invalid header too. -/
def invalidHeader (n : Nat) (second : Bool) (s : State) : State :=
  if rxLocked s n then
    let s := count (hlHdrErr n) 1 s
    if second then modLane n (fun x => { x with searching := true }) s else s
  else s
def execAcnanInvalidHeader (n : Lane) (second : Bool) (s : State) : Out State := .next (invalidHeader n.toNat second s)

/-- ACNAN_SLIP_SEARCH_END (R219): `found` says that an offset held for 4 headers. -/
def slipEnd (n : Nat) (found : Bool) (s : State) : State :=
  if rxLocked s n && (laneOf s n).searching then
    let s := modLane n (fun x => { x with searching := false }) s
    if found then count (hlSlip n) 1 s else laneLoseLock n s
  else s
def execAcnanSlipSearchEnd (n : Lane) (found : Bool) (s : State) : Out State := .next (slipEnd n.toNat found s)

/-- ACNAN_MARKER_LOST (R220). -/
def execAcnanMarkerLost (n : Lane) (s : State) : Out State := .next (if s.mode = .running then markerLost n.toNat s else s)

/-- ACNAN_ELASTIC_SLIP (R223). -/
def execAcnanElasticSlip (n : Lane) (s : State) : Out State :=
  .next (if rxLocked s n.toNat then count (hlSlip n.toNat) 1 s else s)

/-- ACNAN_RX_ASLEEP (R229): loss of signal, `blocks` blocks after the last marker. Within 64 blocks of one with SLEEP the lane sleeps; else it is a loss
of lock. -/
def rxAsleep (n blocks : Nat) (s : State) : State :=
  if rxLocked s n then
    if (laneOf s n).sleepMark && decide (blocks ≤ 64) then
      streamsAbsent n (setLaneState n 3 (modLane n (fun x => { x with sleepMark := false, descramble := false }) s))
    else laneLoseLock n s
  else s
def execAcnanRxAsleep (n : Lane) (blocks : Word) (s : State) : Out State := .next (rxAsleep n.toNat blocks.toNat s)

/-- ACNAN_SIGNAL_DETECT (R229): a level wake source of the port's domain (R307). -/
def signalDetect (n : Nat) (s : State) : State :=
  if s.mode = .running ∧ laneIsTx n = false ∧ laneState s n = 3 then beginWake (n / 8) (setLaneState n 4 s) else s
def execAcnanSignalDetect (n : Lane) (s : State) : Out State := .next (signalDetect n.toNat s)

/-! ### Transmitting -/

/-- A fresh seed: any value but 0 (R218). DESIGN CHOICE: log 91. -/
def freshSeed (s : State) : BitVec 31 × State := let (v, s) := draw 11 s; (BitVec.ofNat 31 (1 + v.toNat % (2 ^ 31 - 1)), s)
/-- The awake transmit lanes of a port. -/
def txAwake (s : State) (p : Nat) : List Nat := ((List.range 4).map (fun j => 8 * p + j)).filter (fun n => laneState s n == 2)

/-- A lane sends a marker with a fresh seed (R215, R218). DESIGN CHOICE: log 91. -/
def sendMarker (n : Nat) (early sleep wake : Bool) (mseq : BitVec 16) (s : State) : State :=
  let (v, s) := freshSeed s
  modLane n (fun x => { x with seed := v, mseq := mseq, marker := markerUnit n true early sleep wake mseq v }) s
/-- The scheduled markers of a port's awake transmit lanes, which carry the same MSEQ, one more than the last (R216). -/
def sendMarkers (p : Nat) (early : Bool) (s : State) : State :=
  if (txAwake s p).isEmpty then s
  else
    let s := modPort p (fun x => { x with mseq := x.mseq + 1 }) s
    each (txAwake s p) (fun n s => sendMarker n early false false (portOf s p).mseq s) s

/-- BREAK halves that were due have gone out before the first data half of their streams, and are counted (R212). DEDUCED: log 90. -/
def sendBreaks (n : Nat) (s : State) : State :=
  let x := laneOf s n
  let a := x.breakA && streamDelivered s (8 * (n / 8) + n % 4 * 2)
  let b := x.breakB && streamDelivered s (8 * (n / 8) + n % 4 * 2 + 1)
  if a || b then
    count (hlBreak n) (b2n a + b2n b) (modLane n (fun x => { x with breakA := x.breakA && !a, breakB := x.breakB && !b }) s)
  else s

/-- HL_FILL takes the fill halves of a full-length marker period for the streams that were present (R233). -/
def fillMin (n : Nat) (f : Word) (s : State) : State :=
  let pa := streamDelivered s (8 * (n / 8) + n % 4 * 2)
  let pb := streamDelivered s (8 * (n / 8) + n % 4 * 2 + 1)
  mapViews (hlFill n) (fun w =>
    let w := if pa then fieldPut w 15 0 (min (fieldGet w 15 0) (fieldGet f 15 0)) else w
    if pb then fieldPut w 31 16 (min (fieldGet w 31 16) (fieldGet f 31 16)) else w) s

/-- Bits that the line-to-host queue of a stream holds (R225). -/
def hostQueueRoom : Nat := 16384
/-- The level of a delivered stream's queue between the rows of the table is open. DESIGN CHOICE: log 170. -/
def queueDrift (l : Nat) (s : State) : State :=
  if streamDelivered s l then
    let (v, s) := draw 26 s
    modPair l (fun p => { p with toHost := v.toNat % (hostQueueRoom + 1) }) s
  else modPair l (fun p => { p with toHost := 0 }) s
/-- A half is sent as data when the stream's queue holds 256 bits at the start of the block (R225). DESIGN CHOICE: log 170. -/
def sendsData (s : State) (l : Nat) : Bool := decide (256 ≤ (pairOf s l).toHost)

/-- ACNAN_SCHEDULED_MARKER of a port's transmit direction: `fills` gives, for transmit lanes 0 to 3, the fill halves of the
two streams in the period that ends. DEDUCED: log 90. -/
def scheduledMarker (p : Nat) (fills : List Word) (s : State) : State :=
  if s.mode ≠ .running then s
  else
    let ls := txAwake s p
    let s := each ls (fun n s =>
      let w := fills.getD (n % 4) 0xFFFFFFFF
      let l := 8 * (n / 8) + n % 4 * 2
      let s := halvesOut n (l + 1) (fieldGet w 31 16) (halvesOut n l (fieldGet w 15 0) s)
      each (laneStreams n) queueDrift (fillMin n w (sendBreaks n s))) s
    sendMarkers p false s
def execAcnanScheduledMarker (p : Port) (fills : List Word) (s : State) : Out State := .next (scheduledMarker p.toNat fills s)

/-- ACNAN_STUFF_OVERFLOW (R217): a scheduled marker with EARLY on every awake lane of the direction. -/
def stuffOverflow (n : Nat) (s : State) : State :=
  if s.mode = .running ∧ laneIsTx n = true ∧ laneState s n = 2 then
    sendMarkers (n / 8) true (each (txAwake s (n / 8)) sendBreaks (count (hlStuffOverflow n) 1 s))
  else s
def execAcnanStuffOverflow (n : Lane) (s : State) : Out State := .next (stuffOverflow n.toNat s)

/-- HL_GBX_OVERFLOW (R225): words of a stream are dropped as its queue stands full. -/
def laneQueueOverflow (l words : Nat) (s : State) : State :=
  if s.mode ≠ .running then s
  else
    let s := modPair l (fun p => { p with toHost := hostQueueRoom }) (count (hlGbxOverflow (txLaneOf l)) words s)
    raise 0x0A05 (unitLane (txLaneOf l)) [] (breakDue l s)
def execHlGbxOverflow (l : Pair) (words : Word) (s : State) : Out State := .next (laneQueueOverflow l.toNat words.toNat s)

/-- No link uses a transmit lane: lanes of no configured link, and lanes 2 and 3 of a COMPAT port (R227). -/
def laneUnused (s : State) (n : Nat) : Bool :=
  let compat := (portLinks s (n / 8)).any (fun m => isCompat (modeOf s m))
  if compat then decide (2 ≤ n % 8) || (laneStreams n).all (fun l => (linkOfPair s l).isNone)
  else (laneStreams n).all (fun l => (linkOfPair s l).isNone)

/-- The condition on which a transmit lane sleeps (R227); the 64 blocks are the row's. -/
def laneSleeps (s : State) (n : Nat) : Bool :=
  rdB s (hlCtl n) 14 || (rdB s (hlCtl n) 13 && (laneStreams n).all (fun l => !streamDelivered s l)) || laneUnused s n

/-- The MSEQ of the next scheduled marker, which the lane that sleeps sends with SLEEP: the other awake lanes send theirs with it; where there is
none, the sequence goes on here. -/
def sleepMseq (n : Nat) (s : State) : State :=
  if (txAwake s (n / 8)).any (fun k => k != n) then s else modPort (n / 8) (fun x => { x with mseq := x.mseq + 1 }) s
/-- ACNAN_LANE_SLEEP (R227): the lane's next scheduled marker carries SLEEP, and then it sends nothing. -/
def laneSleep (n : Nat) (s : State) : State :=
  if s.mode = .running ∧ laneIsTx n = true ∧ laneState s n = 2 ∧ laneSleeps s n = true then
    let q := (portOf s (n / 8)).mseq + 1
    setLaneState n 3 (sendMarker n false true false q (sleepMseq n s))
  else s
def execAcnanLaneSleep (n : Lane) (s : State) : Out State := .next (laneSleep n.toNat s)

/-- The preamble of a wake: 65,536 symbols of alternating +3 and −3 (R228). -/
def wakePreamble : List Int := (List.range 65536).map (fun i => if i % 2 = 0 then 3 else -3)
/-- A sleeping transmit lane begins to wake: the bits that reach the queues of its streams are discarded (R227). -/
def laneWaking (n : Nat) (s : State) : State :=
  each (laneStreams n) (fun l => modPair l (fun p => { p with toHost := 0 })) (setLaneState n 4 s)
/-- ACNAN_LANE_WAKE (R227, R228): preamble, a marker with WAKE and a fresh seed, blocks; a BREAK is due on both streams. -/
def laneWake (n : Nat) (s : State) : State :=
  if s.mode = .running ∧ laneIsTx n = true ∧ (laneState s n = 3 ∨ laneState s n = 4) ∧ laneSleeps s n = false then
    let s := sendMarker n false false true (portOf s (n / 8)).mseq (laneWaking n s)
    count (hlWake n) 1 (setLaneState n 2 (modLane n (fun x => { x with breakA := true, breakB := true }) s))
  else s
def execAcnanLaneWake (n : Lane) (s : State) : Out State := .next (laneWake n.toNat s)

/-! ### HL_CTL and the HOSTLANE commands -/

/-- A write of HL_CTL: ENABLE starts or stops the lane, a cleared SLEEP begins a wake, the rest takes effect at once (R227, R230, R233). -/
def hlCtlWrite (n : Nat) (w : Word) (s : State) : State :=
  let was := laneEnabled s n
  let slept := rdB s (hlCtl n) 14
  let s := wr (hlCtl n) w s
  if bitGet w 15 && !was then laneStart n s
  else if !bitGet w 15 && was then laneStop n s
  else if laneIsTx n && slept && laneState s n == 3 && !laneSleeps s n then laneWaking n s
  else s

/-- Peaking of a receive lane's CTLE, in dB (R230). -/
def ctlePeaking (s : State) (n : Nat) : Rat := (rdF s (hlCtl n) 4 0 : Rat) / 2
/-- The three taps of a transmit lane's FIR: pre-cursor, main cursor, post-cursor (R230). -/
def laneFir (s : State) (n : Nat) : Rat × Rat × Rat :=
  let pre : Rat := (rdF s (hlCtl n) 7 5 : Rat) / 64
  let post : Rat := (rdF s (hlCtl n) 11 8 : Rat) / 64
  (-pre, 1 - pre - post, -post)
/-- What a transmit lane sends for its symbols, in level units: TX_INV inverts the levels; a lane that is not running sends zero. -/
def laneLaunched (s : State) (n : Nat) (a : Int → Int) (k : Int) : Rat :=
  let f := laneFir s n
  let y := f.1 * a (k + 1) + f.2.1 * a k + f.2.2 * a (k - 1)
  if laneState s n ≠ 2 ∧ laneState s n ≠ 4 then 0 else if rdB s (hlCtl n) 12 then -y else y

/-- The bits of HL_CTL that a lane has. -/
def hlMask (n : Nat) : Word := if laneIsTx n then 0xFFE0 else 0x801F

/-- The word and the mask of an HL_CONFIGURE. -/
def hlRequest (c : Cmd) : Word × Word :=
  if c.expert then (BitVec.ofNat 32 (leAt c.params 0 2), BitVec.ofNat 32 (leAt c.params 2 2))
  else (BitVec.ofNat 32 (leAt c.params 0 1 % 2 * 2 ^ 15 + leAt c.params 0 1 / 2 * 2 ^ 13), 0xA000)
def hlNew (s : State) (n : Nat) (q : Word × Word) : Word :=
  let m := q.2 &&& hlMask n
  (rd s (hlCtl n) &&& ~~~m) ||| (q.1 &&& m)
def cmdLanes (c : Cmd) : List Nat := if c.cls = 3 then eight (8 * c.idx.toNat) else [c.idx.toNat]

/-- HL_CONFIGURE of one lane: with ENABLE set, the next lock settles polarity and order, and a lane in FAULT acquires. DEDUCED: log 89. -/
def hlConfigure (q : Word × Word) (n : Nat) (s : State) : State :=
  let s := hlCtlWrite n (hlNew s n q) s
  if bitGet q.2 15 && bitGet q.1 15 && !laneIsTx n then
    let s := modLane n (fun x => { x with settled := false, lane := none }) s
    if laneState s n = 5 then laneStart n (wrF (hlStatus n) 9 8 0 s) else s
  else s

def opHlConfigure : OpSpec := { opcode := 0x0D01, level := .both, classes := [3, 5], lens := [4] }
def actHlConfigure (c : Cmd) (e : Nat) (s : State) : State :=
  let q := hlRequest c
  let ctleBad := (cmdLanes c).any (fun n => !laneIsTx n && decide (28 < fieldGet (hlNew s n q) 4 0))
  match firstBad [
    ((!c.expert && (decide (3 < leAt c.params 0 1) || !zeroFrom c.params 1)) || ctleBad, stBadParam),
    ((cmdLanes c).any (fun n => lanePresent s n && fieldGet (hlNew s n q) 12 0 != rdF s (hlCtl n) 12 0), stRefused)] with
  | some st => complete e st [] s
  | none => complete e stOk [] (each (cmdLanes c) (hlConfigure q) s)
def execHlConfigure (c : Cmd) (s : State) : Out State := .next (command opHlConfigure c (actHlConfigure c) s)

/-- HL_STATUS and HL_FILL as they read: SPREAD, and no fill on a receive lane (R233). -/
def hlStatusWord (s : State) (n : Nat) : Word :=
  bitPut (rd s (hlStatus n)) 10 ((hostOut s (n / 64)).any (fun o => fieldGet (spreadOf s o) 1 0 != 0))
def hlFillWord (s : State) (v : View) (n : Nat) : Word := if laneIsTx n then rdView s v (hlFill n) else 0

def opHlStatus : OpSpec := { opcode := 0x0D02, classes := [5], lens := [0], maxResult := 44 }
def actHlStatus (c : Cmd) (e : Nat) (s : State) : State :=
  let n := c.idx.toNat
  let ws := [hlStatusWord s n, hlFillWord s (pathView c.path) n] ++ (List.range 9).map (fun k => rd s (hlHdrErr n + 4 * k))
  complete e stOk (ws.flatMap (fun w => leBytes 4 w.toNat)) (wrView (pathView c.path) (hlFill n) allOnes s)
def execHlStatus (c : Cmd) (s : State) : Out State := .next (command opHlStatus c (actHlStatus c) s)

def opHlCtleSet : OpSpec := { opcode := 0x0D03, classes := [5], lens := [4], maxResult := 4 }
def actHlCtleSet (c : Cmd) (e : Nat) (s : State) : State :=
  let n := c.idx.toNat
  let code := leAt c.params 0 1
  match firstBad [
    ((decide (28 < code) && code != 0xFF) || !zeroFrom c.params 1, stBadParam), (laneIsTx n, stRefused),
    ((laneOf s n).scan.isSome || (laneOf s n).auto.isSome, stBusy), (code == 0xFF && lanePresent s n, stRefused)] with
  | some st => complete e st [] s
  | none =>
    if code = 0xFF then keepRunning e n (modLane n (fun x => { x with auto := some e, scanPoint := 0, autoBest := 0, autoArea := 0 }) s)
    else complete e stOk (leBytes 1 code ++ zeros 3) (wrF (hlCtl n) 4 0 code s)
def execHlCtleSet (c : Cmd) (s : State) : Out State := .next (command opHlCtleSet c (actHlCtleSet c) s)

end Sys2Proof.Machine
end

