-- ==== Sys2Proof/Machine/Chain.lean ====
section
/-! DEFINITION. The chain port: restart, enumeration, forwarded commands, chain time, epoch actions, events and broken
rings (R445 to R460, R254, R276). -/
namespace Sys2Proof.Machine

def modChain (f : ChainSt → ChainSt) (s : State) : State := { s with chain := f s.chain }
def isManager (s : State) : Bool := rdB s chainStateR 0
def isAddressed (s : State) : Bool := rdB s chainStateR 1
def twoManagers (s : State) : Bool := rdB s chainStateR 4
/-- The chain port runs: PD_CHAIN in RUN and CLK_EN.CHAIN at 1 (R445). -/
def chainRuns (s : State) : Bool := s.mode == .running && domRuns s 77 && rdB s clkEnR 1
/-- The workers that the last enumeration addressed. -/
def workers (s : State) : Nat := rdF s chainStateR 23 16
/-- The byte SRC of the frames of a device. -/
def srcByte (s : State) : Nat := match chainAddr s with
  | some a => a
  | none => 0x7F

/-- The header of a frame (R447). -/
def frameHeader (type dst src hops len seq : Nat) (ext : List Byte) : List Byte :=
  leBytes 1 type ++ leBytes 1 dst ++ leBytes 1 src ++ leBytes 1 hops ++ leBytes 2 len ++ leBytes 2 seq ++ (ext ++ zeros 8).take 8
/-- A frame between its start and terminate blocks: header, payload, and the CRC-32 of both (R447). -/
def sealFrame (b : List Byte) : List Byte := b ++ leBytes 4 (crc32 b)
/-- DEDUCED: log 111. -/
def frameOut (type dst src seq : Nat) (ext payload : List Byte) : List Byte :=
  sealFrame (frameHeader type dst src 0 payload.length seq ext ++ payload)
/-- The same frame as a device that changes nothing else in it passes it on: HOPS is one more. -/
def framePassed (b : List Byte) : List Byte :=
  sealFrame (b.take 3 ++ leBytes 1 (leAt b 3 1 + 1) ++ (b.drop 4).take (b.length - 8))
/-- What becomes of a frame that arrives: the CRC and the type decide first, then HOPS (R447). DEDUCED: log 111. -/
def frameFate (b : List Byte) : Fate :=
  if b.length < 20 ∨ crc32 (b.take (b.length - 4)) ≠ leAt b (b.length - 4) 4 ∨ leAt b 0 1 = 0 ∨ 8 < leAt b 0 1 then .badCrc
  else if leAt b 3 1 = 127 then .hops127 else .good
/-- The segments of a forwarded command, or of its reply: a payload holds up to 1,024 bytes. -/
def segments (b : List Byte) : List (List Byte) := (List.range ((b.length + 1023) / 1024)).map (fun k => (b.drop (1024 * k)).take 1024)

/-- Originate a frame. DEDUCED: log 111. -/
def sendFrame (type dst ext : Nat) (payload : List Byte) (s : State) : State :=
  modChain (fun c => { c with seq := c.seq + 1 }) (emit (.frame type dst s.chain.seq ext payload) s)
/-- Pass a frame on with what this device changed in it. DEDUCED: log 111. -/
def passFrame (type dst ext : Nat) (payload : List Byte) (s : State) : State := emit (.frame type dst 0 ext payload) s

/-- A frame that is dropped is counted; a good one acts (R447). DEDUCED: log 111. -/
def received (f : Fate) (act : State → State) (s : State) : State :=
  if !chainRuns s then s
  else match f with
  | .badCrc => count chainCrcErrR 1 s
  | .hops127 => count chainHopDropR 1 s
  | .good => act s

/-! ### Broken rings (R452, R458) -/

/-- Forwarded commands in flight complete with CHAIN_DOWN. DEDUCED: log 117. -/
def forwardedDown (s : State) : State :=
  (s.cmd.inflight.filter (fun f => f.stage == .forwarded || f.waitFor != 0)).foldl (fun s f => finish f stChainDown [] s) s

/-- The manager finds the ring broken. DEDUCED: log 116. -/
def ringBroken (src : Nat) (s : State) : State :=
  let s := modChain (fun c => { c with returns := 0 }) s
  if rdB s chainStateR 2 then
    forwardedDown (raise 0x0D08 unitDev (leBytes 1 src) (modChain (fun c => { c with broken := true }) (wrB chainStateR 2 false s)))
  else s

/-- RING_BROKEN_TIMEOUT. -/
def execRingBrokenTimeout (s : State) : Out State :=
  .next (if chainRuns s && isManager s then ringBroken 0xFF s else s)
/-- IN_LOSS_FRAME: SRC of the frame. A worker passes it on. -/
def inLoss (f : Fate) (src : Byte) (s : State) : State :=
  received f (fun s => if isManager s then ringBroken src.toNat s else passFrame 8 0 0 [src] s) s
def execInLossFrame (f : Fate) (src : Byte) (s : State) : Out State := .next (inLoss f src s)

/-- CHAIN_IN_LOSS. -/
def chainInLoss (s : State) : State :=
  if chainRuns s && rdB s chainStateR 3 then raise 0x0D07 unitDev [] (wrB chainStateR 3 false s) else s
def execChainInLoss (s : State) : Out State := .next (chainInLoss s)
/-- IN_LOSS_FRAME_SEND: every 100 µs. -/
def execInLossFrameSend (s : State) : Out State :=
  .next (if chainRuns s && !rdB s chainStateR 3 then sendFrame 8 0 0 (leBytes 1 (srcByte s)) s else s)
/-- CHAIN_IN_RELOCK. The signal wakes PD_CHAIN (R307). -/
def chainInRelock (s : State) : State :=
  if s.mode ≠ .running then s else if chainRuns s then wrB chainStateR 3 true s else beginWake 77 s
def execChainInRelock (s : State) : Out State := .next (chainInRelock s)

/-! ### Restart and roles (R445, R446) -/

/-- The effective MGR_SEL (DEV_STRAPS). -/
def mgrSel (s : State) : Bool := if rdB s devStrapsR 8 then rdB s devStrapsR 9 else rdB s devStrapsR 0

/-- A chain port restart: the address is cleared, the queues are emptied, CHAIN_IN locks again. A manager takes address
0. Epoch actions are no queue: they stay. DEDUCED: log 117. -/
def chainRestart (s : State) : State :=
  let m := mgrSel s
  let s := match s.chain.enum with
    | some (e, _) => complete e stChainDown [] s
    | none => s
  let s := forwardedDown s
  let s := modChain (fun c => { epochs := c.epochs, nextId := c.nextId }) s
  wr chainStateR (BitVec.ofNat 32 (b2n m * 0x23 + (if m then 0x40 * rdF s chainStateR 6 6 + workers s * 65536 else 0xFF00))) s

/-- CHAIN_RESTART by a write of CHAIN_CTL whose access is settled. -/
def chainCtlWrite (w : Word) (s : State) : State := if bitGet w 0 && chainRuns s then chainRestart s else s

/-! ### Enumeration (R448 to R450) -/

def chainOff (s : State) : Bool := !rdB s clkEnR 1
/-- CHAIN_ENUMERATE: it waits until every forwarded command in flight has completed. -/
def opChainEnumerate : OpSpec := { opcode := 0x0B01, classes := [9], lens := [0], maxResult := 4 }
def actChainEnumerate (e : Nat) (s : State) : State :=
  if chainOff s then complete e stNotReady [] s
  else if !isManager s || twoManagers s then complete e stRefused [] s
  else if s.chain.enum.isSome || s.cmd.inflight.any (fun f => f.stage == .forwarded || f.waitFor != 0) then s
  else keepRunning e 0 (sendFrame 1 63 1 [] (modChain (fun c => { c with enum := some (e, 1), token := 0 }) s))
def execChainEnumerate (c : Cmd) (s : State) : Out State := .next (command opChainEnumerate c actChainEnumerate s)

/-- TOKEN_FRAME: a worker holds a tentative address and passes the token on; the manager, whose token has returned, sends
COMMIT. -/
def tokenFrame (f : Fate) (v : Nat) (s : State) : State :=
  received f (fun s =>
    if isManager s then
      match s.chain.enum with
      | some (e, 1) => sendFrame 2 63 0 [] (modChain (fun c => { c with enum := some (e, 2), token := v }) s)
      | _ => s
    else
      passFrame 1 63 (min 255 (v + 1)) [] (modChain (fun c => { c with tentative := if v ≤ 62 then some v else none }) s)) s
def execTokenFrame (f : Fate) (v : Byte) (s : State) : Out State := .next (tokenFrame f v.toNat s)

/-- The enumeration ends on the manager. -/
def enumerationEnd (e v : Nat) (s : State) : State :=
  let n := v - 1
  let k := min n 62
  let beyond := decide (62 < n)
  let s := wrB chainStateR 6 beyond (wrF chainStateR 23 16 k (modChain (fun c => { c with enum := none, lost := 0 }) s))
  let s := if beyond then raise 0x0D00 unitDev (leBytes 2 n) s else s
  complete e stOk (leBytes 1 k ++ leBytes 1 (b2n beyond) ++ zeros 2) s

/-- COMMIT_FRAME: a worker adopts its tentative address; on the manager the command completes. -/
def commitFrame (f : Fate) (s : State) : State :=
  received f (fun s =>
    if isManager s then
      match s.chain.enum with
      | some (e, 2) => enumerationEnd e s.chain.token s
      | _ => s
    else
      let a := s.chain.tentative
      let s := wrF chainStateR 15 8 (a.getD 0xFF) (wrB chainStateR 1 a.isSome s)
      passFrame 2 63 0 [] (modChain (fun c => { c with tentative := none }) s)) s
def execCommitFrame (f : Fate) (s : State) : Out State := .next (commitFrame f s)

/-- ENUMERATION_TIMEOUT: TOKEN or COMMIT has not returned within 10 ms. -/
def enumerationTimeout (s : State) : State :=
  match s.chain.enum with
  | some (e, _) => complete e stChainDown [] (modChain (fun c => { c with enum := none }) s)
  | none => s
def execEnumerationTimeout (s : State) : Out State := .next (enumerationTimeout s)

/-- CHAIN_STATUS. Chain time is device time on the manager and on a worker that has it. -/
def opChainStatus : OpSpec := { opcode := 0x0B02, classes := [9], lens := [0], maxResult := 24 }
def chainStatusResult (s : State) : List Byte :=
  leBytes 1 (b2n (!isManager s)) ++ leBytes 1 ((chainAddr s).getD 0xFF)
    ++ leBytes 1 (b2n (rdB s chainStateR 2) + 2 * b2n (twoManagers s)) ++ leBytes 1 (workers s) ++ zeros 4
    ++ leBytes 8 s.time.toNat ++ leBytes 4 ((rd s chainRtR).toNat / 1000) ++ zeros 4
def execChainStatus (c : Cmd) (s : State) : Out State :=
  .next (command opChainStatus c (fun e s => if chainOff s then complete e stNotReady [] s else complete e stOk (chainStatusResult s) s) s)

/-! ### Forwarded commands (R452) -/

/-- CMD_FRAME: the segments of a command have arrived. It draws an engine tag and starts by its own row. -/
def cmdFrame (f : Fate) (op : Nat) (c : Cmd) (s : State) : State :=
  received f (fun s =>
    if tagsFree s = 0 then fetchPause s
    else
      let e := freeTag s
      let g : InFlight := { etag := e, opcode := op, cmd := { c with path := .chain } }
      submitted e (fetchedCount g.cmd (fetchResume (modCmd (fun x => { x with inflight := x.inflight ++ [g] }) s)))) s
def execCmdFrame (f : Fate) (op : BitVec 16) (c : Cmd) (s : State) : Out State := .next (cmdFrame f op.toNat c s)

/-- REPLY_FRAME: a worker's status slot and result. A reply that comes after its command has completed is counted. -/
def replyFrame (f : Fate) (e addr status : Nat) (result : List Byte) (s : State) : State :=
  received f (fun s =>
    match s.cmd.inflight.find? (fun g => g.etag == e) with
    | none => count chainLateReplyR 1 s
    | some g =>
      if g.waitFor.testBit addr then answer g addr status s
      else if g.stage == .forwarded && g.cmd.chainAddr.toNat == addr then finish g status result s
      else count chainLateReplyR 1 s) s
def execReplyFrame (f : Fate) (e : BitVec 12) (addr : BitVec 6) (status : BitVec 16) (result : List Byte) (s : State) : Out State :=
  .next (replyFrame f e.toNat addr.toNat status.toNat result s)

/-! ### Epoch actions (R276, R456) -/

def epochOf (s : State) (id : Word) : Option Epoch := s.chain.epochs.find? (fun x => x.id == id)
def epochDrop (id : Word) (s : State) : State := modChain (fun c => { c with epochs := c.epochs.filter (fun x => x.id != id) }) s

/-- R265 would refuse the hop of a rack PLL now, or the PLL is not enabled. -/
def hopRefused (s : State) (i : Nat) : Bool := rackState s i == 0 || rackInUse s i

/-- EVT_EPOCH_REJECTED: how its eight data bytes hold the masks is open. -/
def rejectEvent (s : State) : State :=
  let (b, s) := drawBytes 13 8 s
  raise 0x0D05 unitDev b s

/-- The manager drives a pulse on CLAP_OUT (R276). -/
def clapPulse (s : State) : State :=
  if isManager s && rdB s clapCtlR 2 then count clapOutCntR 1 (emit .clapOut s) else s

/-- An epoch's action is performed. -/
def epochAct (x : Epoch) (s : State) : State :=
  let s := epochDrop x.id s
  if x.action = 1 then clapPulse s
  else if x.action = 2 then (if hopRefused s x.pll then rejectEvent s else rackHop x.pll x.slot none s)
  else raise 0x0D06 unitDev (leBytes 4 x.id.toNat) s

/-- EPOCH_FIRE: device time has reached an epoch's chain time, or that of the pulse of CLK_SYNC_ARM (no ID). -/
def epochFire (id : Option Word) (s : State) : State :=
  if s.mode ≠ .running then s
  else match id with
  | none => match s.pulse with
    | some t => if t.toNat ≤ s.time.toNat then clapPulse { s with pulse := none } else s
    | none => s
  | some n => match epochOf s n with
    | some x => if x.time.toNat ≤ s.time.toNat then epochAct x s else s
    | none => s
def execEpochFire (id : Option Word) (s : State) : Out State := .next (epochFire id s)

/-- SCHEDULED_HOP_FIRE. -/
def scheduledHop (i : Nat) (s : State) : State :=
  match s.hops.find? (fun h => h.1 == i) with
  | some (_, k, t) =>
    if s.mode = .running ∧ t.toNat ≤ s.time.toNat then
      let s := { s with hops := tabErase s.hops i }
      if rackState s i = 0 then s else rackHop i k none s
    else s
  | none => s
def execScheduledHopFire (i : Pll) (s : State) : Out State := .next (scheduledHop i.val s)

/-- This device's answer to an action: ACK, BUSY, REJECT. -/
def epochAnswer (s : State) (action pll : Nat) : Bool × Bool × Bool :=
  let busy := decide (16 ≤ s.chain.epochs.length) || (action == 1 && pulseScheduled s) || (action == 2 && hopScheduled s pll)
  (!busy, busy, action == 2 && hopRefused s pll)

/-- DESIGN CHOICE: log 112. -/
def maskBytes (m : BitVec 64) : List Byte := leBytes 8 m.toNat
/-- The fields of an EPOCH frame as bytes: the manual gives no layout; the frame is this list to the model. DESIGN CHOICE: log 112. -/
def epochBytes (f : EpochFrame) : List Byte :=
  leBytes 1 f.kind.toNat ++ leBytes 4 f.id.toNat ++ leBytes 8 f.time.toNat ++ leBytes 1 f.action.toNat ++ leBytes 1 (b2n f.pll)
    ++ leBytes 1 f.slot.toNat ++ maskBytes f.ack ++ maskBytes f.busy ++ maskBytes f.reject
/-- Originate an EPOCH frame; a manager that has seen another one originates none (R451). -/
def sendEpoch (f : EpochFrame) (s : State) : State := if twoManagers s then s else sendFrame 7 63 0 (epochBytes f) s
def setBit (m : BitVec 64) (a : Nat) (b : Bool) : BitVec 64 := if b then m ||| BitVec.ofNat 64 (2 ^ a) else m

/-- The device takes an action that it has acknowledged. DEDUCED: log 118. -/
def epochTake (f : EpochFrame) (s : State) : State :=
  modChain (fun c => { c with epochs := c.epochs ++
    [{ id := f.id, time := f.time, action := f.action.toNat, pll := 72 + b2n f.pll, slot := f.slot.toNat }] }) s

/-- CHAIN_EPOCH (R368, R456). -/
def opChainEpoch : OpSpec := { opcode := 0x0B04, classes := [9], lens := [16], maxResult := 4 }
/-- DEDUCED: log 85. -/
def epochBad (c : Cmd) : Bool :=
  let a := leAt c.params 8 1
  decide (a = 0 ∨ 4 < a) || (a == 2 && (decide (leAt c.params 9 1 ≠ 72 ∧ leAt c.params 9 1 ≠ 73) || decide (15 < leAt c.params 10 1)))
    || leAt c.params 11 1 != 0
def actChainEpoch (c : Cmd) (e : Nat) (s : State) : State :=
  let a := leAt c.params 8 1
  let t := leAt c.params 0 8
  let id := BitVec.ofNat 32 (leAt c.params 12 4)
  let pll := leAt c.params 9 1
  match firstBad [
    (epochBad c, stBadParam), (a != 4 && decide (t < s.time.toNat + 1000000), stRange), (chainOff s, stNotReady),
    (a != 4 && (epochAnswer s a pll).2.1, stBusy), (!isManager s || twoManagers s, stRefused)] with
  | some st => complete e st [] s
  | none =>
    if a = 4 then
      let f : EpochFrame := { kind := 2, id := id, time := 0, action := 0, pll := false, slot := 0, ack := 1, busy := 0, reject := 0 }
      keepRunning e id.toNat (sendEpoch f (epochDrop id s))
    else
      let f : EpochFrame := {
        kind := 0, id := s.chain.nextId, time := BitVec.ofNat 64 t, action := BitVec.ofNat 2 a, pll := pll == 73
        slot := BitVec.ofNat 4 (leAt c.params 10 1), ack := 1, busy := 0, reject := setBit 0 0 (epochAnswer s a pll).2.2 }
      keepRunning e s.chain.nextId.toNat (sendEpoch f (epochTake f (modChain (fun c => { c with nextId := c.nextId + 1 }) s)))
def execChainEpoch (c : Cmd) (s : State) : Out State := .next (command opChainEpoch c (actChainEpoch c) s)

/-- EPOCH_FRAME on a worker: an addressed one accepts, declines or rejects; a confirmation or a cancel is followed. -/
def epochFrame (fate : Fate) (f : EpochFrame) (s : State) : State :=
  received fate (fun s =>
    match chainAddr s with
    | none => passFrame 7 63 0 (epochBytes f) s
    | some a =>
      if isManager s then s
      else if f.kind = 2 then passFrame 7 63 0 (epochBytes { f with ack := setBit f.ack a true }) (epochDrop f.id s)
      else if f.kind = 1 then
        passFrame 7 63 0 (epochBytes f) (modChain (fun c => { c with
          epochs := c.epochs.map (fun x => if x.id == f.id then { x with confirmed := true } else x) }) s)
      else
        let r := epochAnswer s f.action.toNat (72 + b2n f.pll)
        let g := { f with ack := setBit f.ack a r.1, busy := setBit f.busy a r.2.1, reject := setBit f.reject a r.2.2 }
        passFrame 7 63 0 (epochBytes g) (if r.1 then epochTake f s else s)) s
def execEpochFrame (fate : Fate) (f : EpochFrame) (s : State) : Out State := .next (epochFrame fate f s)

/-- The CHAIN_EPOCH that waits for an epoch. DEDUCED: log 118. -/
def epochCommand (s : State) (id : Word) : Option InFlight :=
  s.cmd.inflight.find? (fun f => f.opcode == 0x0B04 && f.stage == .running && f.aux == id.toNat)
def cancelFrame (id : Word) (s : State) : State :=
  sendEpoch { kind := 2, id := id, time := 0, action := 0, pll := false, slot := 0, ack := 0, busy := 0, reject := 0 } (epochDrop id s)

/-- EPOCH_FRAME_RETURN: the manager confirms or cancels. Where a device neither accepted nor declined, the command waits
for its timeout. -/
def epochReturn (fate : Fate) (f : EpochFrame) (s : State) : State :=
  received fate (fun s =>
    match epochCommand s f.id with
    | none => s
    | some g =>
      let all := BitVec.ofNat 64 (2 ^ (workers s + 1) - 1)
      let cancelling := leAt g.cmd.params 8 1 == 4
      if cancelling then
        (if f.ack &&& all = all then complete g.etag stOk (leBytes 4 f.id.toNat) s else s)
      else if f.busy ≠ 0 ∨ f.reject ≠ 0 then
        rejectEvent (complete g.etag (if f.busy ≠ 0 then stBusy else stRefused) [] (cancelFrame f.id s))
      else if f.ack &&& all = all then
        let s := modChain (fun c => { c with epochs := c.epochs.map (fun x => if x.id == f.id then { x with confirmed := true } else x) }) s
        complete g.etag stOk (leBytes 4 f.id.toNat) (sendEpoch { f with kind := 1 } s)
      else s) s
def execEpochFrameReturn (fate : Fate) (f : EpochFrame) (s : State) : Out State := .next (epochReturn fate f s)

/-- EPOCH_RETURN_TIMEOUT: 10 ms have passed. DEDUCED: log 118. -/
def epochTimeout (id : Word) (s : State) : State :=
  match epochCommand s id with
  | none => s
  | some g => complete g.etag stChainDown [] (cancelFrame id s)
def execEpochReturnTimeout (id : Word) (s : State) : Out State := .next (epochTimeout id s)

/-- EPOCH_UNCONFIRMED_DISCARD. -/
def epochDiscard (id : Word) (s : State) : State :=
  if (epochOf s id).any (fun x => !x.confirmed) && s.mode == .running then epochDrop id s else s
def execEpochUnconfirmedDiscard (id : Word) (s : State) : Out State := .next (epochDiscard id s)

/-! ### Chain time (R453 to R455) -/

def timeBytes (f : TimeFrame) : List Byte :=
  leBytes 8 f.tTx.toNat ++ leBytes 8 f.corr.toNat ++ leBytes 8 f.decl.toNat ++ leBytes 2 f.nundecl.toNat ++ leBytes 1 f.unaddr.toNat
    ++ leBytes 1 (b2n f.fabric) ++ leBytes 4 f.share.toNat ++ leBytes 8 f.present.toNat ++ leBytes 8 f.serial.toNat
def inDelay (s : State) : Nat := rdF s chainInDelayR 15 0

/-- TIME_FRAME_SEND: every 1 ms. FABRIC_OK is the manager's part of R254. DEDUCED: log 113. -/
def timeSend (s : State) : State :=
  if chainRuns s && isManager s && !twoManagers s then
    sendFrame 6 63 0 (timeBytes {
      tTx := s.time, corr := 0, decl := 0, nundecl := 0, unaddr := 0, fabric := managerFabric s, share := BitVec.ofInt 32 s.chain.share
      present := 0, serial := Config.serial }) s
  else s
def execTimeFrameSend (s : State) : Out State := .next (timeSend s)

/-- What this device adds to a TIME frame as it passes it on: `res` is its residence, ps. -/
def timePass (f : TimeFrame) (res : Nat) (s : State) : State :=
  let d := inDelay s
  let g := { f with corr := f.corr + BitVec.ofNat 64 res, decl := f.decl + BitVec.ofNat 64 d, nundecl := if d = 0 then f.nundecl + 1 else f.nundecl }
  let g := match chainAddr s with
    | some a => { g with present := setBit g.present a true }
    | none => { g with unaddr := g.unaddr + 1 }
  passFrame 6 63 0 (timeBytes g) s

/-- Chain time at arrival, in ps. -/
def chainEstimate (f : TimeFrame) (s : State) : Int :=
  let u := f.share.toInt
  (f.tTx.toNat : Int) * 1000 + f.corr.toNat + f.decl.toNat + f.nundecl.toNat * u + (if inDelay s = 0 then u else inDelay s)

/-- A step of chain time past an action's time: it fires at once, late (R455). -/
def lateEpochs (s : State) : State :=
  (s.chain.epochs.filter (fun x => decide (x.time.toNat < s.time.toNat))).foldl (fun s x =>
    raise 0x0D04 unitDev (leBytes 4 x.id.toNat) (epochAct x s)) s

/-- Device time is corrected: a step, or a slew of at most 200 ppm, 200 ns over the frame's millisecond. DEDUCED: log 115. -/
def timeCorrect (off : Int) (s : State) : State :=
  if !s.chain.timed || decide (1000000 < off.natAbs) then
    let ns := roundDiv off 1000
    let s := count chainTimeStepR 1 (setTime (BitVec.ofInt 64 (s.time.toNat + ns)) s)
    lateEpochs (raise 0x0D03 unitDev (leBytes 8 (twos 64 ns)) s)
  else setTime (BitVec.ofInt 64 (s.time.toNat + max (-200) (min 200 (roundDiv off 1000)))) s

/-- Events held for the ring go out (R457). DEDUCED: log 116. -/
def heldOut (s : State) : State :=
  if rdB s chainStateR 3 && rdB s chainStateR 5 then
    s.chain.heldEvents.foldl (fun s r => emit (.eventFrame r) s) (modChain (fun c => { c with heldEvents := [] }) s)
  else s

/-- TIME_FRAME_RECEIVED: an addressed worker follows it; a manager that sees another manager's serial stops originating
(R451); every device passes it on. -/
def timeReceived (fate : Fate) (f : TimeFrame) (res : Nat) (s : State) : State :=
  received fate (fun s =>
    if isManager s then
      if f.serial = Config.serial then s
      else timePass f res (raise 0x0D01 unitDev (leBytes 8 f.serial.toNat) (wrB chainStateR 4 true s))
    else
      let pass := timePass f res s
      if !isAddressed s then pass
      else
        let off := chainEstimate f s - s.time.toNat * 1000
        let s := wr chainTimeOfsR (BitVec.ofInt 32 off) pass
        let s := timeCorrect off s
        heldOut (wrB chainStateR 5 true (modChain (fun c => { c with timed := true, fabricOk := f.fabric }) s))) s
def execTimeFrameReceived (fate : Fate) (f : TimeFrame) (res : Word) (s : State) : Out State :=
  .next (timeReceived fate f res.toNat s)

/-- EVT_CHAIN_WORKER_LOST for each worker that PRESENT lacks, once per loss. -/
def presence (present : BitVec 64) (s : State) : State :=
  each ((List.range (workers s)).map (fun k => k + 1)) (fun a s =>
    let here := present.getLsbD a
    if here then modChain (fun c => { c with lost := c.lost - (if c.lost.testBit a then 2 ^ a else 0) }) s
    else if s.chain.lost.testBit a then s
    else raise 0x0D02 unitDev (leBytes 1 a) (modChain (fun c => { c with lost := c.lost + 2 ^ a }) s)) s

/-- U of a round trip of `rt` ps; with no undeclared link its value is open. DESIGN CHOICE: log 114. -/
def undeclared (f : TimeFrame) (rt : Nat) (s : State) : State :=
  let d := inDelay s
  let n := f.nundecl.toNat + (if d = 0 then 1 else 0)
  if n = 0 then let (v, s) := draw 12 s; modChain (fun c => { c with share := signed 32 v.toNat }) s
  else modChain (fun c => { c with share := ((rt : Int) - f.corr.toNat - f.decl.toNat - d) / (n : Int) }) s

/-- TIME_FRAME_RETURN: the round trip, U, the missing workers; two frames in a row make the ring complete (R458). DEDUCED: log 116. -/
def timeReturn (fate : Fate) (f : TimeFrame) (rt : Nat) (s : State) : State :=
  received fate (fun s =>
    if !isManager s then s
    else
      let s := presence f.present (undeclared f rt (wr chainRtR (BitVec.ofNat 32 rt) s))
      let s := modChain (fun c => { c with returns := c.returns + 1 }) s
      if decide (2 ≤ s.chain.returns) && !rdB s chainStateR 2 then
        let was := s.chain.broken
        let s := modChain (fun c => { c with broken := false }) (wrB chainStateR 2 true s)
        if was then raise 0x0D09 unitDev [] s else s
      else s) s
def execTimeFrameReturn (fate : Fate) (f : TimeFrame) (rt : Word) (s : State) : Out State := .next (timeReturn fate f rt.toNat s)

/-- CHAIN_TIME_TIMEOUT: no valid TIME frame for 10 ms. -/
def timeTimeout (s : State) : State :=
  if s.mode = .running ∧ isManager s = false ∧ rdB s chainStateR 5 = true then
    modChain (fun c => { c with fabricOk := false }) (wrB chainStateR 5 false s)
  else s
def execChainTimeTimeout (s : State) : Out State := .next (timeTimeout s)
/-- FABRIC_STATUS_TIMEOUT (R254). -/
def execFabricStatusTimeout (s : State) : Out State :=
  .next (if s.mode = .running ∧ isManager s = false then modChain (fun c => { c with fabricOk := false }) s else s)

/-! ### Events (R457) -/

/-- EVENT_FRAME: the manager delivers a worker's event to its own ring; the record keeps the worker's SEQ and TIME. -/
def eventFrame (fate : Fate) (addr : Nat) (r : EvRec) (s : State) : State :=
  received fate (fun s =>
    if isManager s then stageRec { r with origin := BitVec.ofNat 8 (addr + 0x40) } s else passFrame 5 0 addr (evBytes r false false) s) s
def execEventFrame (fate : Fate) (addr : BitVec 6) (seq : Word) (code unit : BitVec 16) (time : BitVec 64) (data : BitVec 64)
    (logged : Bool) (s : State) : Out State :=
  .next (eventFrame fate addr.toNat
    { seq := seq, code := code, unit := unit, time := time, data := leBytes 8 data.toNat, origin := 0, logged := logged } s)

end Sys2Proof.Machine
end

