-- ==== Sys2Proof/Machine/Package.lean ====
section
/-! DEFINITION. The balls of the package and the levels of the supply monitors (R486, R487, R498 to R503). -/
namespace Sys2Proof.Machine

/-! ### Supply monitors (R314, R486, R487) -/

/-- The VDD_CORE target in mV × 10 (R486). -/
def coreTarget : Nat := 6000 + 25 * Config.coreVid.toNat
/-- Warning level of a rail in mV × 10 (R487). -/
def warnLevel (rail : Nat) : Nat :=
  if rail = 0 then coreTarget - 400 else [0, 7000, 8000, 11300, 8600, 16500, 7400, 9400].getD rail 0
/-- Reset level of a rail in mV × 10 (R487). -/
def resetLevel (rail : Nat) : Nat :=
  if rail = 0 then coreTarget - 700 else [0, 6600, 7600, 10800, 8200, 15500, 7000, 9000].getD rail 0
/-- A measurement in 5 mV units lies at or below a level, within the monitor's ±10 mV (R487). DEDUCED: log 101. -/
def belowLevel (level low : Nat) : Bool := decide (50 * low ≤ level + 100)

/-! ### Balls (R498 to R503) -/

/-- The name of a row, 1 to 95 (R499). -/
def rowName (n : Nat) : String :=
  ["", "A", "B", "C", "D"].getD ((n - 1) / 19) "" ++
    ["A", "B", "C", "D", "E", "F", "G", "H", "J", "K", "L", "M", "N", "P", "T", "U", "V", "W", "Y"].getD ((n - 1) % 19) ""
/-- A ball's name: its row, then its column (R499). -/
def ballName (row col : Nat) : String := rowName row ++ toString col

/-- The signals of the hub strip (R502). -/
inductive HubSignal where
  | clkout (n : Nat) | pcieTx (l : Nat) | pcieRx (l : Nat)
  | refA | refB | xtalIn | xtalOut | pcieRefclk | chainOut | chainIn
  | resetN | perstN | wake | mgrSel | clapIn | clapOut | thermAlertN | thermCritN | irqN | sck | csN
  | sio (n : Nat)
deriving DecidableEq, Repr

/-- What a ball carries: a rail, or a signal, `neg` being its N ball. -/
inductive Ball where
  | gnd | vddCore | vddHs | vddAna | vddPll | vddHub | vddIo | vddAon | vddMram
  | pair (port k : Nat) (neg : Bool)
  | hrx (port lane : Nat) (neg : Bool)
  | htx (port lane : Nat) (neg : Bool)
  | hub (sig : HubSignal) (neg : Bool)
deriving DecidableEq, Repr

/-- A port cell's pattern (R501). -/
def cellBall (port i j : Nat) : Ball :=
  if i = 10 then (if j = 0 then .vddPll else .vddCore)
  else if i = 9 then (if j ≤ 5 then .vddHs else .vddAna)
  else if i % 2 = 0 ∨ j % 3 = 2 then .gnd
  else
    let k := j / 3
    let neg := j % 3 == 1
    if i = 1 then .pair port k neg else if i = 3 then .pair port (4 + k) neg
    else if i = 5 then .hrx port k neg else .htx port k neg

/-- The band of a row or column, and the place in it (R500). -/
def bandAt (x : Nat) : Option (Nat × Nat) :=
  if 1 ≤ x ∧ x < 23 then some (0, x - 1) else if 23 ≤ x ∧ x < 45 then some (1, x - 23)
  else if 52 ≤ x ∧ x < 74 then some (2, x - 52) else if 74 ≤ x ∧ x < 96 then some (3, x - 74) else none
/-- A pattern row or column of a mirrored or unmirrored cell (R501). -/
def mirrored (x : Nat) : Nat := if x / 11 = 1 then 10 - x % 11 else x % 11

/-- A pair of balls in a strip row from a column on. -/
def pairAt (c first : Nat) (x : HubSignal) : Option Ball :=
  if c = first then some (.hub x false) else if c = first + 1 then some (.hub x true) else none
/-- A row of pairs, three columns apart. -/
def pairRow (c first n : Nat) (x : Nat → HubSignal) : Option Ball :=
  if first ≤ c ∧ c < first + 3 * n then pairAt c (first + 3 * ((c - first) / 3)) (x ((c - first) / 3)) else none
/-- Single balls of a strip row from a column on. -/
def singleAt (c first : Nat) (xs : List HubSignal) : Option Ball :=
  if c < first then none else (xs[c - first]?).map (fun x => .hub x false)

/-- The named signals of a strip row (R502). -/
def stripSignal (row c : Nat) : Option Ball :=
  if row = 46 then (pairRow c 4 16 .clkout).orElse (fun _ => pairRow c 56 8 .pcieTx)
  else if row = 49 then pairRow c 56 8 .pcieRx
  else if row = 48 then
    (pairAt c 4 .refA).orElse fun _ => (pairAt c 7 .refB).orElse fun _ => (singleAt c 11 [.xtalIn, .xtalOut]).orElse fun _ =>
    (pairAt c 14 .pcieRefclk).orElse fun _ => (pairAt c 56 .chainOut).orElse fun _ => pairAt c 59 .chainIn
  else if row = 50 then singleAt c 60 [.resetN, .perstN, .wake, .mgrSel, .clapIn, .clapOut, .thermAlertN, .thermCritN, .irqN,
    .sck, .csN, .sio 0, .sio 1, .sio 2, .sio 3]
  else none
/-- The rail of a strip ball that carries no signal (R502). -/
def stripRail (row c : Nat) : Ball :=
  if row < 45 ∨ 51 < row then (if c % 2 = 0 then .vddCore else .gnd)
  else if row = 47 then .vddHub
  else if row = 48 then (if 20 ≤ c ∧ c ≤ 40 then .vddPll else .gnd)
  else if row = 49 then .vddCore
  else if row = 50 then (if c ≤ 20 then .vddAon else if c ≤ 40 then .vddMram else .vddIo)
  else .gnd

/-- What the ball of a row and a column carries (R500 to R502). -/
def ballAt (row c : Nat) : Ball :=
  match bandAt row, bandAt c with
  | some (br, r), some (bc, k) => cellBall (16 * br + 4 * bc + 2 * (r / 11) + k / 11) (mirrored r) (mirrored k)
  | _, _ => (stripSignal row c).getD (stripRail row c)

/-- How many balls of a row list carry what a test accepts (R503). -/
def ballCount (rows : List Nat) (f : Ball → Bool) : Nat :=
  (rows.map (fun r => ((List.range 95).filter (fun c => f (ballAt r (c + 1)))).length)).sum

end Sys2Proof.Machine
end

