-- ==== Sys2Proof/Machine/Units.lean ====
section
/-! DEFINITION. Resets of pairs, ports and tiles, what they and the lost power states leave of a unit's registers and
state, and the reset handshake of the gearbox queues (R85, R110, R294, R295, R477 to R481). -/
namespace Sys2Proof.Machine

/-! ### What the registers of a range keep (R480, R481) -/

/-- The place of an address within its tile's port blocks, pair blocks and so on. -/
def inPort (a : Nat) : Bool := let o := a % 0x1000000; decide (0x1000000 ≤ a ∧ 0x100000 ≤ o ∧ o < 0x900000)
def synthOffset (a : Nat) : Option Nat :=
  let o := a % 0x1000000
  let q := if 0x100000 ≤ o then o % 0x100000 else o
  if 0x1000 ≤ q ∧ q < 0x1100 then some (q - 0x1000) else none

/-- A status counter of a tile, port, lane or pair block. -/
def isCounter (a : Nat) : Bool :=
  let o := a % 0x1000000
  if a < 0x1000000 then false
  else match synthOffset a with
  | some k => decide (0x40 ≤ k ∧ k ≤ 0x4C)
  | none =>
    if o < 0x1000 then o == 0x208 || o == 0x210
    else if o < 0x30000 then decide (0x10000 ≤ o ∧ 0x100 ≤ o % 0x10000 ∧ o % 0x10000 < 0x1C0 ∧ o % 16 < 8)
    else
      let q := o % 0x100000
      if q < 0x1000 then q == 0x200 || q == 0x204 || q == 0x208
      else if q < 0x4000 then decide (0x2000 ≤ q ∧ 0x10 ≤ q % 0x400 ∧ q % 0x400 ≤ 0x30)
      else
        let r := q % 0x10000
        r == 0x48 || r == 0x4C || r == 0x5C || decide ((0x100 ≤ r ∧ r ≤ 0x144) ∨ (0x200 ≤ r ∧ r < 0x290) ∨ (0x300 ≤ r ∧ r < 0x390))

def atPair (a r : Nat) : Bool := inPort a && decide (0x10000 ≤ a % 0x100000) && a % 0x10000 == r
def atPort (a q : Nat) : Bool := inPort a && a % 0x100000 == q

/-- Bits that no reset of a unit touches: the slot states, which R110 governs, and what TILE_CLK_STATUS shows of the tile's
line and clocks. -/
def liveBits (a : Nat) : Word := if atPair a 0x40 || (!inPort a && a % 0x1000000 == 0x200) then allOnes else 0

/-- Configuration that comes back by itself: HL_CTL, PAIR_SWAP and the RS monitor types from the applied link and lane
configuration, SYN_REF and the tile clock enables from the shadow in PD_AON. DEDUCED: log 108. -/
def restoredBits (a : Nat) : Word :=
  if atPort a 0 then 1
  else if atPair a 0x290 || atPair a 0x390 then 0x1C
  else if inPort a ∧ 0x2000 ≤ a % 0x100000 ∧ a % 0x100000 < 0x4000 ∧ a % 0x400 = 0 then allOnes
  else if inPort a = false ∧ (a % 0x1000000 = 0x204 ∨ a % 0x1000000 = 0x1014) then allOnes
  else 0

/-- RW, RL and WM configuration; the hop slots with their bands are part of it. DEDUCED: log 108. -/
def configBits (a : Nat) : Word :=
  let own := match regInfo a with
    | some i => i.rw
    | none => 0
  let more : Word :=
    if atPair a 0 then 6 else if atPort a 0x100 then 0x1F
    else if (synthOffset a).any (fun k => decide (0x20 ≤ k ∧ k < 0x40)) then allOnes else 0
  own ||| more ||| restoredBits a

/-- What a register keeps: with `rw` its configuration, with `cnt` its count. DEDUCED: log 108. -/
def keptBits (rw cnt : Bool) (a : Nat) : Word :=
  liveBits a ||| (if rw then configBits a else restoredBits a) ||| (if cnt && isCounter a then allOnes else 0)

/-- Every register from `lo` up returns to its reset value but for the bits it keeps. -/
def scrub (lo n : Nat) (keep : Nat → Word) (s : State) : State :=
  (s.regs.filter (fun e => decide (lo ≤ e.1 ∧ e.1 < lo + n))).foldl (fun s e =>
    wr e.1 ((e.2 &&& keep e.1) ||| (regReset e.1 &&& ~~~(keep e.1))) s) s
/-- Their per-view copies return to their reset values. -/
def scrubViews (lo n : Nat) (s : State) : State :=
  { s with views := s.views.filter (fun e => !decide (lo ≤ e.1 % 2 ^ 32 ∧ e.1 % 2 ^ 32 < lo + n)) }

/-! ### Pairs, lanes, synthesizers -/

/-- A pair loses its banks and everything it was doing; its slots follow R110, `back` being where a SCHEDULED or ACTIVE
one goes. NOTICE_SEQ is kept (R114). -/
def pairLost (l back : Nat) (s : State) : State :=
  modPair l (fun p => {
      noticeSeq := p.noticeSeq, retired := p.retired, onSyn := p.onSyn, absent := p.absent, xqOff := true
      rsOpen := p.rsOpen, cuts := p.cuts, gradeSpan := p.gradeSpan })
    (banksLost l back (abortRun l s))

/-- The commands that wait for a lane end. DEDUCED: log 109. -/
def laneCommandsEnd (n : Nat) (s : State) : State :=
  let x := laneOf s n
  let s := match x.scan with
    | some e => complete e stRefused [] s
    | none => s
  match x.auto with
  | some e => complete e stRefused [] s
  | none => s
/-- A lane loses everything; its streams are absent. -/
def laneLost (n : Nat) (s : State) : State :=
  let s := modLane n (fun _ => {}) (setLaneState n 0 (laneCommandsEnd n s))
  if laneIsTx n then s else streamsAbsent n s

/-- The commands that wait for a synthesizer end: a hop and the small steps, each REFUSED. DEDUCED: log 109. -/
def synCommandsEnd (i : Nat) (s : State) : State :=
  let x := synOf s i
  let s := hopCut x.hopTag (modSyn i (fun _ => {}) s)
  x.steps.foldl (fun s st => complete st.1 stRefused [] s) s
/-- A synthesizer stops: OFF, its output stopped. -/
def synLost (i : Nat) (s : State) : State := outputStops i (wrF (synStatusR i) 2 0 0 (synCommandsEnd i s))

/-- A synthesizer is to run: its reference line passes, or for a tile host synthesizer that follows an output, that
output runs (R507). -/
def synWanted (s : State) (i : Nat) : Bool :=
  if i < 64 then monOk s (8 + i / 8)
  else match hostOut s (i - 64) with
    | some n => outState s n == 1 || outState s n == 2
    | none => monOk s (8 + (i - 64))
/-- A synthesizer whose slots were kept locks again on the slot in SYN_CTL: by a relock after a reset (R477), by a hop as its
domain wakes from DEEP (R298). -/
def synRelock (i : Nat) (s : State) : State := if synWanted s i then synAgain i (rdF s (synCtl i) 5 4) false none s else s
/-- DEDUCED: log 137. -/
def synWake (i : Nat) (s : State) : State := if synWanted s i then synHop i (rdF s (synCtl i) 5 4) false none s else s
/-- A synthesizer whose slots are lost is enabled anew (R239). -/
def synRestart (i : Nat) (s : State) : State := if synWanted s i then synEnable i s else s

/-! ### Resets (R410, R477, R479) -/

/-- A PAIR_RESTART begins: the pair's link departs, its banks are lost, RO status returns to default. A request while
the same or a wider reset runs is ignored. -/
def pairRestart (l : Nat) (s : State) : State :=
  if (pairOf s l).restarting || (portOf s (l / 8)).resetting || (tileOf s (l / 64)).resetting then s
  else
    let s := linksLoseBanks ((linkOfPair s l).toList) (banksCut l slVerified s)
    let s := modPair l (fun p => { p with restarting := true }) (pairLost l slVerified s)
    { scrub (pairBase l) 0x1000 (keptBits true true) s with discards := tabInsert s.discards (pairUnit l).toNat 0 }

/-- What a port loses in a reset or a lost power state. DEDUCED: log 107. -/
def portLost (p back : Nat) (rw cnt : Bool) (s : State) : State :=
  let s := linksLoseBanks (portLinks s p) (each (eight (8 * p)) (fun l s => banksCut l back s) s)
  let s := each (portLinks s p) (fun m s => modLink m (fun x => { x with loopback := 0 }) s) s
  let s := match (portOf s p).cableTest with
    | some e => complete e stRefused [] s
    | none => s
  let s := each (eight (8 * p)) (fun l s => pairLost l back s) s
  let s := synLost p (each (eight (8 * p)) laneLost s)
  let s := modPort p (fun x => { x with
    hostLoop := false, cableTest := none, cableMask := 0, cableOut := [], cableNext := [], periodOn := false, ramp := false }) s
  scrubViews (portBase p) 0x100000 (scrub (portBase p) 0x100000 (keptBits rw cnt) s)

/-- A PORT reset begins. -/
def portReset (p : Nat) (s : State) : State :=
  if (portOf s p).resetting || (tileOf s (p / 8)).resetting then s
  else
    let s := portLost p slVerified true true s
    { modPort p (fun x => { x with resetting := true }) s with discards := tabInsert s.discards (unitPort p).toNat 0 }

/-- The take loader, the graders and the capture areas of a tile lose their work (R110, R130, R357). -/
def tileWorkLost (t : Nat) (s : State) : State :=
  let q := (tileOf s t).loader
  let s := each ((List.range 64).map (fun k => 64 * t + k)) abortRun s
  let s := [2 * t, 2 * t + 1].foldl (fun s g =>
    (runsOf s g).foldl (fun s r => complete r.etag stAborted [] s) (putRuns g [] s)) s
  let s := each (eight (8 * t)) (fun p s => putCaps p [] (dropHostCapture p (completeAll 0x0403 3 p stNotReady [] s))) s
  let s := modTile t (fun x => { x with loader := [] }) s
  q.foldl (fun s r => if r.fill then s else if r.purpose = 0 then complete r.etag stNotReady [] s
    else if r.purpose = 1 then complete r.etag stRefused [] s else s) s

/-- VERIFIED slots of a pair are LOADED again: the loader has lost its record (R110). -/
def unverify (l : Nat) (s : State) : State :=
  each (List.range 8) (fun k s => if slotCode s l k = slVerified then setSlot l k slLoaded false s else s) s

/-- A tile's counter block whose WIN_ARM has returned to 0 holds no window, and what the tile had gathered for it is gone (R415, R417). -/
def perfLost (t : Nat) (s : State) : State :=
  let s := { s with perfAcc := s.perfAcc.filter (fun e => e.1 / 2 ^ 24 != t) }
  if rdB s (perfBase (t + 1)) 3 then s else { s with perfWins := tabErase s.perfWins (t + 1) }

/-- A TILE reset begins. DEDUCED: log 107. -/
def tileReset (t : Nat) (s : State) : State :=
  if (tileOf s t).resetting then s
  else
    let s := each (eight (8 * t)) (fun p s => portLost p slLoaded false false s) (tileWorkLost t s)
    let s := each ((List.range 64).map (fun k => 64 * t + k)) (fun l s =>
      modPair l (fun p => { p with noticeSeq := 0, onSyn := false, restarting := false }) (unverify l s)) s
    let s := each (eight (8 * t)) (fun p s => modPort p (fun x => { x with resetting := false }) s) s
    let s := perfLost t (scrubViews (tileBase t) 0x30000 (scrub (tileBase t) 0x30000 (keptBits false false) (synLost (64 + t) s)))
    { modTile t (fun x => { x with resetting := true }) s with discards := tabInsert s.discards (unitTile t).toNat 0 }

/-! ### The end of a reset -/

/-- EVT_UNIT_RESET: the kind, and the words discarded at the unit's crossings. DEDUCED: log 122. -/
def unitResetEvent (kind : Nat) (unit : BitVec 16) (s : State) : State :=
  let n := tabGet 0 s.discards unit.toNat
  raise 0x0001 unit (leBytes 1 kind ++ zeros 3 ++ leBytes 4 n) { s with discards := tabErase s.discards unit.toNat }

/-- The lanes of a port that are enabled start again (R229). -/
def lanesStart (p : Nat) (s : State) : State := each (eight (8 * p)) (fun n s => if laneEnabled s n then laneStart n s else s) s

/-- The operator firmware asks for the port synthesizer's clock on each pair of a port (R301). -/
def pairsToSyn (p : Nat) (s : State) : State := each (eight (8 * p)) (fun l s => lineMux l (wrB (pairBase l) 2 true s)) s

/-- RESET_COMPLETE (R477): a PAIR_RESTART, a PORT reset or a TILE reset ends. -/
def resetComplete (kind u : Nat) (s : State) : State :=
  if s.mode ≠ .running then s
  else if kind = 7 then
    if (pairOf s u).restarting then unitResetEvent 7 (pairUnit u) (modPair u (fun p => { p with restarting := false }) s) else s
  else if kind = 6 then
    if u < 64 ∧ (portOf s u).resetting = true then
      unitResetEvent 6 (unitPort u) (lanesStart u (synRelock u (modPort u (fun x => { x with resetting := false }) s)))
    else s
  else if kind = 5 then
    if u < 8 ∧ (tileOf s u).resetting = true then
      let s := synRestart (64 + u) (modTile u (fun x => { x with resetting := false }) s)
      let s := each (eight (8 * u)) (fun p s => pairsToSyn p (lanesStart p (synRestart p s))) s
      unitResetEvent 5 (unitTile u) s
    else s
  else s
def execResetComplete (kind : BitVec 3) (u : Pair) (s : State) : Out State := .next (resetComplete kind.toNat u.toNat s)

/-! ### The reset handshake of a queue (R294, R295) -/

/-- Words discarded at a crossing count for every unit in reset that it belongs to. -/
def discard (units : List Nat) (n : Nat) (s : State) : State :=
  { s with discards := s.discards.map (fun e => if units.contains e.1 then (e.1, e.2 + n) else e) }

/-- A half of a tile's bridge is in reset (R293). -/
def bridgeHalf (s : State) (t : Nat) : Bool := (tileOf s t).resetting || decide (3 ≤ domState s (64 + t))
/-- A half of a pair's gearbox queues is in reset. -/
def queueHalf (s : State) (l : Nat) : Bool :=
  (pairOf s l).restarting || (portOf s (l / 8)).resetting || decide (3 ≤ domState s (l / 8)) || bridgeHalf s (l / 64)

/-- GEARBOX_RESET_HANDSHAKE: while the other half is in reset, the surviving half of a queue flushes, discards the words in flight and drops
what its side offers; `n` words count. `bridge`: the bridge of tile u; else the gearbox queues of pair u, whose rows carry STREAM_ABSENT, whose
receive stream breaks, and which wait for GEARBOX_HANDSHAKE_END. -/
def queueDiscards (bridge : Bool) (u n : Nat) (s : State) : State :=
  if s.mode ≠ .running then s
  else if bridge then
    if u < 8 ∧ bridgeHalf s u = true then discard [(unitTile u).toNat] n (count (tileXqR u) n s) else s
  else if !(pairOf s u).xqOff && !queueHalf s u then s
  else
    let s := modPair u (fun p => { p with xqOff := true, queue := 0, toHost := 0 }) (count (portXqR (u / 8)) n s)
    breakDue u (discard [(pairUnit u).toNat, (unitPort (u / 8)).toNat, (unitTile (u / 64)).toNat] n s)
def execGearboxResetHandshake (bridge : Bool) (u : Pair) (n : Word) (s : State) : Out State :=
  .next (queueDiscards bridge u.toNat n.toNat s)

/-- GEARBOX_HANDSHAKE_END: both halves are ready, and the queues resume empty. While a half stays in reset, the other stays in PEER_RESET. -/
def queueResumes (l : Nat) (s : State) : State :=
  if s.mode ≠ .running ∨ (pairOf s l).xqOff = false ∨ queueHalf s l = true then s
  else
    modPair l (fun p => { p with xqOff := false, fill := 0, rxFill := 0, queue := 0, toHost := 0 }) s
def execGearboxHandshakeEnd (l : Pair) (s : State) : Out State := .next (queueResumes l.toNat s)

/-! ### Power states that lose state (R298, R308, R481) -/

/-- A PD_PORT enters DEEP or OFF: the line domains go to the tile fast oscillator at the wake (R301). -/
def portUnpowered (p : Nat) (off : Bool) (s : State) : State :=
  let s := portLost p slVerified (!off) (!off) s
  each (eight (8 * p)) (fun l s => modPair l (fun q => { q with onSyn := false }) s) s
/-- The wake of a PD_PORT from them. -/
def portPowered (p : Nat) (off : Bool) (s : State) : State :=
  pairsToSyn p (lanesStart p (if off then synRestart p s else synWake p s))

/-- The take stores of a group are lost (R110). -/
def storesLost (g : Nat) (s : State) : State :=
  each ((List.range 32).map (fun k => 32 * g + k)) (fun l s => each (List.range 8) (fun k s => clearSlot l k s) s) s

/-- A PD_TILE enters DEEP or OFF; in DEEP the stores of the groups set in RETAIN are kept (R308). -/
def tileUnpowered (t : Nat) (off : Bool) (s : State) : State :=
  let retain (g : Nat) : Bool := !off && rdB s (domBase (64 + t) + 0x14) g
  let s := [0, 1].foldl (fun s g => if retain g then s else storesLost (2 * t + g) s) s
  let s := each ((List.range 64).map (fun k => 64 * t + k)) (fun l s => modPair l (fun p => { p with noticeSeq := 0 }) s) s
  let s := synLost (64 + t) s
  perfLost t (scrubViews (tileBase t) 0x30000 (scrub (tileBase t) 0x30000 (keptBits (!off) (!off)) s))
def tilePowered (t : Nat) (off : Bool) (s : State) : State := if off then synRestart (64 + t) s else synWake (64 + t) s

end Sys2Proof.Machine
end

