-- ==== Sys2Proof/Machine/Power.lean ====
section
/-! DEFINITION. Power domains: requests and refusers, entries and wakes, timers, floors, performance levels, supply and
temperature monitors (R296 to R317, R363, R476, R515). -/
namespace Sys2Proof.Machine

/-! ### Domains -/

/-- The states that a domain accepts (R296). -/
def accepts (d st : Nat) : Bool :=
  if d = 72 then st == 0 else if d = 73 ∨ d = 74 ∨ d = 76 then decide (st ≤ 1) else decide (st ≤ 4)
def isTileDom (d : Nat) : Bool := decide (64 ≤ d ∧ d < 72)
def isPortDom (d : Nat) : Bool := decide (d < 64)
/-- The ports of a port or tile domain. -/
def domPorts (d : Nat) : List Nat := if d < 64 then [d] else if isTileDom d then eight (8 * (d - 64)) else []
def domLinks (s : State) (d : Nat) : List Nat := (domPorts d).flatMap (portLinks s)

/-- The effective floor: the shallowest hold of the four views (R305). -/
def domFloor (s : State) (d : Nat) : Nat :=
  let h := domBase d + 0x18
  min (min (rdF s h 2 0) (rdF s h 5 3)) (min (rdF s h 8 6) (rdF s h 11 9))

/-! ### Refusers (R303) -/

/-- A command to a unit of the domain is in flight on this device, or a reset of such a unit runs (R479). DEDUCED: log 106. -/
def unitBusy (s : State) (d : Nat) : Bool :=
  s.cmd.inflight.any (fun f => f.stage != .forwarded && unitDomain f.cmd.cls.toNat f.cmd.idx.toNat == some d)
    || (domPorts d).any (fun p => (portOf s p).resetting || (eight (8 * p)).any (fun l => (pairOf s l).restarting))
    || (isTileDom d && (tileOf s (d - 64)).resetting)
def tileScheduled (s : State) (t : Nat) : Bool :=
  !(tileOf s t).loader.isEmpty || (List.range 64).any (fun k => (schedSlot s (64 * t + k)).isSome)
def tileGrades (s : State) (t : Nat) : Bool := !(runsOf s (2 * t)).isEmpty || !(runsOf s (2 * t + 1)).isEmpty
def anyCapture (s : State) (d : Nat) : Bool := (domPorts d).any (fun p => !(capsOf s p).isEmpty)
/-- A write of the MRAM waits. -/
def mramWaits (s : State) : Bool :=
  !s.contDue.isEmpty || !s.evt.logBuf.isEmpty || s.cmd.inflight.any (fun f => f.opcode == 0x0A01)

/-- The refusers of an entry, by ID. -/
def refuses (s : State) (d st id : Nat) : Bool :=
  match id with
  | 1 => domBusy s d
  | 2 => decide (domFloor s d < st)
  | 3 => isTileDom d && decide (3 ≤ st) && (domPorts d).any (fun p => decide (domState s p < 3) || (st == 4 && domState s p == 3))
  | 4 => unitBusy s d
  | 5 => isTileDom d && tileScheduled s (d - 64)
  | 6 => decide (d < 72 ∧ 2 ≤ st) && anyCapture s d
  | 7 => decide (d < 72) && (domLinks s d).any (fun m => (linkOf s m).state != .down)
  | 8 => isTileDom d && tileGrades s (d - 64)
  | 9 => d == 78 && decide (2 ≤ st) && (rdB s (rackCtl 72) 4 || rdB s (rackCtl 73) 4 || (List.range 16).any (outEn s))
  | 10 => d == 77 && decide (2 ≤ st) && (isAddressed s || rdB s chainStateR 3)
  | 11 => d == 79 && decide (2 ≤ st) && mramWaits s
  | _ => false
def refuserMask (s : State) (d st : Nat) : Nat :=
  (List.range 12).foldl (fun m k => if refuses s d st (k + 1) then m + 2 ^ k else m) 0
/-- The first ID of a mask; 0 for none. -/
def firstRefuser (m : Nat) : Nat := (((List.range 12).find? (fun k => m.testBit k)).map (fun k => k + 1)).getD 0

/-! ### Requests (R303, R304, R515) -/

/-- The end of a request: PWR_STATE_SET completes. -/
def requestEnd (tag : Option Nat) (status id mask : Nat) (s : State) : State :=
  match tag with
  | some e => complete e status (stateSetResult id mask) s
  | none => s
/-- DEDUCED: log 105. -/
def refuse (d mask : Nat) (tag : Option Nat) (s : State) : State :=
  requestEnd tag stRefused (firstRefuser mask) mask (recordRefusal d (firstRefuser mask) mask s)
/-- An entry begins: the domain holds new requests and drains (R306). DEDUCED: log 104. -/
def enter (d st : Nat) (tag : Option Nat) (s : State) : State :=
  modDom d (fun _ => { going := st, tag := tag }) (wrF (domBase d + 4) 6 4 (domState s d) (wrB (domBase d + 4) 3 true s))
/-- An entry under the refusers. -/
def tryEnter (d st : Nat) (tag : Option Nat) (s : State) : State :=
  if supHalted s then s else
  let m := refuserMask s d st
  if m ≠ 0 then refuse d m tag s else enter d st tag s

/-- A request for a state, by a command or a write. A halted supervisor core makes no transition (R387). -/
def request (d st : Nat) (tag : Option Nat) (s : State) : State :=
  let cur := domState s d
  let keep (s : State) : State := wrF (domBase d) 2 0 st s
  if supHalted s then s
  else if domBusy s d then refuse d (if st ≤ cur then 1 else refuserMask s d st) tag s
  else if st = cur then requestEnd tag stOk 0 0 (keep s)
  else if cur < st then (let m := refuserMask s d st; if m ≠ 0 then refuse d m tag s else enter d st tag (keep s))
  else
    let s := modDom d (fun _ => { next := if st = 0 then none else some st, tag := tag }) (keep s)
    if cur = 4 then wrF (domBase d + 4) 6 4 4 (wrB (domBase d + 4) 3 true s) else beginWake d s

/-! ### Rows of an entry and of a wake -/

/-- What PD_CHAIN and PD_RACKCLK lose (R298, R481). -/
def hubLost (lo n : Nat) (off : Bool) (kept : Nat → Bool) (s : State) : State :=
  scrubViews lo n (scrub lo n (fun a =>
    if off then 0 else if kept a then allOnes else match regInfo a with
      | some i => i.rw
      | none => 0) s)
/-- DEDUCED: log 117. -/
def chainLost (off : Bool) (s : State) : State :=
  let s := forwardedDown (match s.chain.enum with
    | some (e, _) => complete e stChainDown [] s
    | none => s)
  let m := mgrSel s
  let s := hubLost 0x50000 0x100 off (fun a => decide (0x50040 ≤ a)) (modChain (fun c => { nextId := c.nextId }) s)
  wr chainStateR (BitVec.ofNat 32 (0xFF00 + b2n m)) s
def rackLost (off : Bool) (s : State) : State :=
  let s := each [72, 73] synCommandsEnd s
  let kept (a : Nat) : Bool := decide ((a < 0x40400 ∧ 0x100 ≤ a % 0x200) ∨ (a < 0x40400 ∧ 0x10 ≤ a % 0x200) ∨ (0x42010 ≤ a ∧ a ≤ 0x42018))
  hubLost 0x40000 0x3000 off kept { s with spread := [], lastClap := none, hops := [] }

/-- The losses of a domain that enters DEEP or OFF. -/
def domLost (d : Nat) (off : Bool) (s : State) : State :=
  if d < 64 then portUnpowered d off s
  else if d < 72 then tileUnpowered (d - 64) off s
  else if d = 77 then chainLost off s
  else if d = 78 then rackLost off s
  else s

/-- POWER_ENTRY_COMPLETE (R306): STATE shows the new state; a level wake source seen meanwhile wakes the domain at once. -/
def entryComplete (d : Nat) (s : State) : State :=
  let x := domOf s d
  if s.mode ≠ .running ∨ supHalted s = true ∨ domBusy s d = false ∨ x.going = 0 then s
  else
    let s := if 3 ≤ x.going then domLost d (x.going == 4) s else s
    let s := modDom d (fun _ => {}) (wrB (domBase d + 4) 3 false (wrF (domBase d + 4) 2 0 x.going s))
    let s := requestEnd x.tag stOk 0 0 s
    if x.wakeAt then beginWake d s else s
/-- DESIGN CHOICE: log 147. -/
def execPowerEntryComplete (d : Domain) (s : State) : Out State := .next (entryComplete d.val s)

/-- POWER_DRAIN_TIMEOUT (R306). -/
def drainTimeout (d : Nat) (s : State) : State :=
  if s.mode = .running ∧ domBusy s d = true ∧ (domOf s d).going ≠ 0 then abortEntry d 4 s else s
def execPowerDrainTimeout (d : Domain) (s : State) : Out State := .next (drainTimeout d.val s)

/-- WAKE_REQUEST (R306, R307): a source, an edge or a level, before or in step 5 of an entry in progress. DEDUCED: log 106. -/
def wakeRequest (d : Nat) (edge late : Bool) (s : State) : State :=
  if s.mode ≠ .running then s
  else if domBusy s d && (domOf s d).going != 0 && late then
    if edge then s else modDom d (fun x => { x with wakeAt := true }) s
  else beginWake d s
def execWakeRequest (d : Domain) (edge late : Bool) (s : State) : Out State := .next (wakeRequest d.val edge late s)

/-- What a domain regains as it reports ready. -/
def domPowered (d : Nat) (off : Bool) (s : State) : State :=
  if d < 64 then portPowered d off s
  else if d < 72 then tilePowered (d - 64) off s
  else if d = 77 then (if rdB s clkEnR 1 then chainRestart s else s)
  else s

/-- DOMAIN_READY (R298, R300, R515): the domain is RUN; ports that wait for their tile wake next; the state that was asked
for is entered under its refusers. -/
def domainReady (d : Nat) (s : State) : State :=
  let x := domOf s d
  let was := domState s d
  if s.mode ≠ .running ∨ supHalted s = true ∨ domBusy s d = false ∨ x.going ≠ 0 then s
  else
    let s := modDom d (fun _ => {}) (wrB (domBase d + 4) 3 false (wrF (domBase d + 4) 2 0 0 s))
    let s := if 3 ≤ was then domPowered d (was == 4) s else s
    let s := if isTileDom d then each (domPorts d) (fun p s => if (domOf s p).wakeAt then wakeOne p s else s) s else s
    match x.next with
    | some st => tryEnter d st x.tag s
    | none => requestEnd x.tag stOk 0 0 s
def execDomainReady (d : Domain) (s : State) : Out State := .next (domainReady d.val s)

/-! ### Idle timers (R302) -/

def portIdle (s : State) (p : Nat) : Bool :=
  (portLinks s p).all (fun m => (linkOf s m).state == .down)
    && (eight (8 * p)).all (fun n => laneState s n == 0 || laneState s n == 3)
    && !unitBusy s p && (capsOf s p).isEmpty
def noCommand (s : State) : Bool := s.cmd.inflight.isEmpty
/-- The idle condition. What PD_OPER's policy timers will do within IDLE_T is the row's. -/
def domIdle (s : State) (d : Nat) : Bool :=
  if d < 64 then portIdle s d
  else if d < 72 then
    (domPorts d).all (fun p => domState s p != 0 || portIdle s p) && !tileGrades s (d - 64) && (tileOf s (d - 64)).loader.isEmpty
      && (domPorts d).all (fun p => (running s 0x0403 3 p).isEmpty)
  else match d with
  | 73 => noCommand s && (List.range 64).all (fun n => !sqPending s n)
      && !s.links.any (fun e => e.2.state == .listen || e.2.state == .negotiate || e.2.state == .train || e.2.state == .leaving)
  | 74 => domState s 73 == 1 && noCommand s && s.cmd.done.isEmpty
  | 75 => noCommand s
  | 76 => s.cmd.done.isEmpty && s.cmd.inflight.all (fun f => f.stage != .fetching && f.stage != .loading)
      && (s.pcie.aspmL1 || !s.pcie.linkUp || s.pcie.d3hot)
  | 77 => !isAddressed s && !rdB s chainStateR 3
  | 78 => true
  | 79 => !mramWaits s
  | _ => false

/-- The timer field of a state: IDLE_T, SLEEP_T, DEEP_T. -/
def timerOf (w : Word) (st : Nat) : Nat := fieldGet w (10 * st - 1) (10 * (st - 1))
/-- POWER_IDLE_TIMER_EXPIRY: an entry is started; a refused one is recorded and raises no event. -/
def idleExpiry (d st : Nat) (s : State) : State :=
  if s.mode = .running ∧ 1 ≤ st ∧ rdB s (domBase d) 3 = true ∧ timerOf (rd s (domBase d + 8)) st ≠ 0 ∧ accepts d st = true
      ∧ domState s d < st ∧ domIdle s d = true then tryEnter d st none s
  else s
def execPowerIdleTimerExpiry (d : Domain) (st : BitVec 2) (s : State) : Out State := .next (idleExpiry d.val st.toNat s)

/-! ### Commands (R363) -/

def opPwrStateSet : OpSpec := { opcode := 0x0701, level := .both, classes := [8], lens := [4], maxResult := 4 }
/-- DEDUCED: log 104. -/
def actPwrStateSet (c : Cmd) (e : Nat) (s : State) : State :=
  let d := c.idx.toNat
  let st := leAt c.params 0 1
  if !zeroFrom c.params 1 || decide (4 < st) || !accepts d st then complete e stBadParam [] s
  else if c.expert then
    let n := rd s (domBase d + 0x10)
    let s := request d st none s
    if rd s (domBase d + 0x10) = n then complete e stOk (stateSetResult 0 0) s
    else complete e stRefused (stateSetResult (rdF s (domBase d + 4) 15 8) (rdF s (domBase d + 0xC) 11 0)) s
  else request d st (some e) (keepRunning e d s)
def execPwrStateSet (c : Cmd) (s : State) : Out State := .next (command opPwrStateSet c (actPwrStateSet c) s)

/-- Armed timers stand in the order IDLE_T < SLEEP_T < DEEP_T, and only for accepted states. -/
def timersOk (d : Nat) (w : Word) : Bool :=
  let i := timerOf w 1
  let sl := 100 * timerOf w 2
  let dp := 10000 * timerOf w 3
  let lt (a b : Nat) : Bool := a == 0 || b == 0 || decide (a < b)
  fieldGet w 31 30 == 0 && lt i sl && lt sl dp && lt i dp
    && (i == 0 || accepts d 1) && (sl == 0 || accepts d 2) && (dp == 0 || accepts d 3)
def retainMask (d : Nat) : Word := if isTileDom d then 3 else if d = 75 then 0xFF else 0

def opPwrPolicy : OpSpec := { opcode := 0x0702, classes := [8], lens := [12] }
def actPwrPolicy (c : Cmd) (e : Nat) (s : State) : State :=
  let d := c.idx.toNat
  let p := c.params
  let w := BitVec.ofNat 32 (leAt p 0 4)
  let auto := leAt p 4 1 == 1
  let keep := BitVec.ofNat 32 (leAt p 8 1)
  let set := leAt p 9 1 == 1
  let ret := domBase d + 0x14
  match firstBad [
    (!timersOk d w || decide (1 < leAt p 4 1 ∨ 1 < leAt p 9 1) || leAt p 5 3 != 0 || leAt p 10 2 != 0
      || (d == 72 && auto) || (set && (retainMask d == 0 || keep &&& ~~~(retainMask d) != 0)), stBadParam),
    (locked s 2 && (rd s (domBase d + 8) != w || rdB s (domBase d) 3 != auto || (set && rd s ret != keep)), stLocked)] with
  | some st => complete e st [] s
  | none =>
    let s := wrB (domBase d) 3 auto (wr (domBase d + 8) w s)
    complete e stOk [] (if set then wr ret keep s else s)
def execPwrPolicy (c : Cmd) (s : State) : Out State := .next (command opPwrPolicy c (actPwrPolicy c) s)

def opPwrStatus : OpSpec := { opcode := 0x0704, classes := [0, 8], lens := [0], maxResult := 88 }
def pwrStatusResult (s : State) (c : Cmd) : List Byte :=
  if c.cls = 8 then
    let b := domBase c.idx.toNat
    [4, 0xC, 0x10, 0x18].flatMap (fun o => leBytes 4 (rd s (b + o)).toNat)
  else (List.range 80).map (fun d => BitVec.ofNat 8 (domState s d)) ++ leBytes 4 (rd s pwrSupplyStatusR).toNat
    ++ leBytes 4 (rd s pwrBrownoutCntR).toNat
def execPwrStatus (c : Cmd) (s : State) : Out State :=
  .next (command opPwrStatus c (fun e s => complete e stOk (pwrStatusResult s c) s) s)

/-- A view's floor on a domain; 4 releases it (R305). -/
def setFloor (v : View) (d f : Nat) (s : State) : State :=
  let k := 3 * viewNum v
  let s := wrF (domBase d + 0x18) (k + 2) k f s
  wrF (domBase d + 4) 18 16 (domFloor s d) s
/-- A view's holds are released on every domain. -/
def releaseFloors (v : View) (s : State) : State := each (List.range 80) (fun d s => setFloor v d 4 s) s

def opPwrKeepAwake : OpSpec := { opcode := 0x0705, classes := [8], lens := [4] }
def actPwrKeepAwake (c : Cmd) (e : Nat) (s : State) : State :=
  if decide (4 < leAt c.params 0 1) || !zeroFrom c.params 1 then complete e stBadParam [] s
  else complete e stOk [] (setFloor (pathView c.path) c.idx.toNat (leAt c.params 0 1) s)
def execPwrKeepAwake (c : Cmd) (s : State) : Out State := .next (command opPwrKeepAwake c (actPwrKeepAwake c) s)

/-! ### Performance levels (R312, R313) -/

def plReg (u : Nat) : Nat := if u = 16 then pwrPlOperR else pwrPlGraderR
def plShift (u : Nat) : Nat := if u = 16 then 0 else 2 * u
def plLevel (s : State) (u : Nat) : Nat := rdF s (plReg u) (plShift u + 1) (plShift u)
def plBusy (s : State) (u : Nat) : Bool := s.plChanges.any (fun x => x.unit == u)
/-- A unit's domain. -/
def plDomain (u : Nat) : Nat := if u = 16 then 73 else 64 + u / 2
/-- A change of a unit's level begins; a grader's goes through its mux (R312). A domain that is not RUN keeps the setting for its wake
(R313). DEDUCED: log 110. -/
def plStart (u lv : Nat) (tag : Option Nat) (s : State) : State :=
  if domState s (plDomain u) ≠ 0 then
    let s := wrF (plReg u) (plShift u + 1) (plShift u) lv s
    match tag with
    | some e => complete e stOk [] s
    | none => s
  else
  let s := if u < 16 then muxSwitch 4 u (plLevel s u) lv s else s
  { wrF (plReg u) (plShift u + 1) (plShift u) lv s with plChanges := s.plChanges ++ [{ unit := u, tag := tag }] }

def opPwrLevelSet : OpSpec := { opcode := 0x0703, classes := [2, 8], lens := [4] }
/-- DEDUCED: log 110. -/
def actPwrLevelSet (c : Cmd) (e : Nat) (s : State) : State :=
  let u := if c.cls = 2 then c.idx.toNat else 16
  let lv := leAt c.params 0 1
  match firstBad [
    (decide (3 < lv) || !zeroFrom c.params 1 || (c.cls == 8 && c.idx != 73), stBadParam), (plBusy s u, stRefused)] with
  | some st => complete e st [] s
  | none => if plLevel s u = lv then complete e stOk [] s else plStart u lv (some e) (keepRunning e u s)
def execPwrLevelSet (c : Cmd) (s : State) : Out State := .next (command opPwrLevelSet c (actPwrLevelSet c) s)

/-- A write of PWR_PL_OPER or PWR_PL_GRADER: each field that it changes starts a change; a field whose unit is in a
change keeps its value. DEDUCED: log 110. -/
def plWrite (oper : Bool) (w : Word) (s : State) : State :=
  each (if oper then [16] else List.range 16) (fun u s =>
    let lv := fieldGet w (plShift u + 1) (plShift u)
    if plLevel s u = lv ∨ plBusy s u = true then s else plStart u lv none s) s

/-- PERF_LEVEL_CHANGE_DONE: unit 0 to 15 a grader, 16 PD_OPER. -/
def plDone (u : Nat) (s : State) : State :=
  match s.plChanges.find? (fun x => x.unit == u) with
  | none => s
  | some x =>
    let s := { s with plChanges := s.plChanges.filter (fun y => y.unit != u) }
    match x.tag with
    | some e => complete e stOk [] s
    | none => s
def execPerfLevelChangeDone (u : BitVec 5) (s : State) : Out State := .next (plDone u.toNat s)

/-! ### PWR_DOM_CTL (R317) -/

/-- A write of PWR_DOM_CTL with AUTO settled: the second answer says that the code is reserved or not accepted. DEDUCED: log 104. -/
def domCtlWrite (d : Nat) (w : Word) (s : State) : State × Bool :=
  let st := fieldGet w 2 0
  let s := wrB (domBase d) 3 (bitGet w 3) s
  if 4 < st ∨ accepts d st = false then (s, true) else (request d st none s, false)

/-! ### Supply monitors (R314, R315) -/

def dipData (rail low : Nat) (since now : BitVec 64) : List Byte :=
  leBytes 1 rail ++ zeros 1 ++ leBytes 2 low ++ leBytes 4 ((now - since).toNat / 1000)
/-- The minimum of a rail, kept for each view until it reads it. DEDUCED: log 101. -/
def railMin (rail low : Nat) (s : State) : State :=
  mapViews (pwrRailMinR rail) (fun w => if low < w.toNat then BitVec.ofNat 32 low else w) s

/-- SUPPLY_DIP_START: a rail has been below its warning level for 2 µs (R314, R487). DEDUCED: log 101. -/
def dipStart (rail low : Nat) (s : State) : State :=
  if s.mode ≠ .running ∨ rdB s pwrSupplyStatusR rail = true ∨ belowLevel (warnLevel rail) low = false then s
  else
    let s := railMin rail low { s with dips := tabInsert s.dips rail { since := s.time, low := low } }
    beginWake 73 (count pwrBrownoutCntR 1 (wrB pwrSupplyStatusR 16 true (wrB pwrSupplyStatusR rail true s)))
def execSupplyDipStart (rail : BitVec 3) (low : BitVec 9) (s : State) : Out State := .next (dipStart rail.toNat low.toNat s)

def dipFind (s : State) (rail : Nat) : Option Dip := (s.dips.find? (fun e => e.1 == rail)).map (fun e => e.2)
/-- SUPPLY_DIP_RECOVERY: the event, but for a dip that reached the reset level. DEDUCED: log 101. DEDUCED: log 102. -/
def dipRecovery (rail low : Nat) (s : State) : State :=
  match dipFind s rail with
  | none => s
  | some x =>
    let m := min x.low low
    let s := railMin rail m (wrB pwrSupplyStatusR rail false { s with dips := tabErase s.dips rail })
    if rdB s pwrSupplyStatusR (8 + rail) then s else raise 0x0400 unitDev (dipData rail m x.since s.time) s
/-- DESIGN CHOICE: log 147. -/
def execSupplyDipRecovery (rail : BitVec 3) (low : BitVec 9) (s : State) : Out State := .next (dipRecovery rail.toNat low.toNat s)

/-- MRAM_HOLD_END: 1 ms after the last dip; a rail that fell below its reset level keeps the hold in force. DEDUCED: log 102. -/
def holdEnd (s : State) : State :=
  if s.dips.isEmpty && rdF s pwrSupplyStatusR 15 8 == 0 then wrB pwrSupplyStatusR 16 false s else s
/-- DESIGN CHOICE: log 147. -/
def execMramHoldEnd (s : State) : Out State := .next (holdEnd s)

/-- SUPPLY_LOW: a rail other than VDD_AON falls below its reset level (R315, R487). -/
def supplyLow (rail low : Nat) (s : State) : State :=
  if s.mode ≠ .running ∨ rail = 6 ∨ belowLevel (resetLevel rail) low = false then s
  else match dipFind s rail with
  | none => s
  | some x =>
    let m := min x.low low
    let s := railMin rail m { s with dips := tabInsert s.dips rail { x with low := m } }
    raise 0x0401 unitDev (dipData rail m x.since s.time) (wrB pwrSupplyStatusR 16 true (wrB pwrSupplyStatusR (8 + rail) true s))
def execSupplyLow (rail : BitVec 3) (low : BitVec 9) (s : State) : Out State := .next (supplyLow rail.toNat low.toNat s)

/-! ### Temperatures (R475, R476) -/

/-- DEDUCED: log 103. -/
def setTemp (i : Nat) (t : BitVec 16) (s : State) : State := { s with temps := tabPut 0 s.temps i t }
def thermData (i : Nat) (t : BitVec 16) : List Byte := leBytes 1 i ++ zeros 1 ++ leBytes 2 t.toNat
/-- THERM_STATUS as it reads: the hottest sensor. -/
def thermWord (s : State) : Word :=
  fieldPut (fieldPut (rd s thermStatusR) 8 2 (hottest s)) 31 16 (tabGet 0 s.temps (hottest s)).toNat
def talert (s : State) : Int := 16 * (rdF s thermCfgR 7 0 : Int)

/-- THERM_ALERT: a sensor reads TALERT or more. The condition wakes PD_OPER (R307). DEDUCED: log 103. -/
def thermAlert (i : Nat) (t : BitVec 16) (s : State) : State :=
  if s.mode ≠ .running ∨ 98 ≤ i then s
  else
    let s := setTemp i t s
    if talert s ≤ t.toInt ∧ rdB s thermStatusR 0 = false then
      raise 0x0002 unitDev (thermData i t) (beginWake 73 (wrB thermStatusR 0 true s))
    else s
def execThermAlert (i : BitVec 7) (t : BitVec 16) (s : State) : Out State := .next (thermAlert i.toNat t s)

/-- THERM_CLEAR: the readings of all sensors, by number; every one is below TALERT − THYST. DEDUCED: log 103. -/
def thermClear (ts : List (BitVec 16)) (s : State) : State :=
  if s.mode ≠ .running then s
  else
    let s := each (List.range 98) (fun i s => match ts[i]? with
      | some t => setTemp i t s
      | none => s) s
    let lim := talert s - 16 * (rdF s thermCfgR 11 8 : Int)
    if rdB s thermStatusR 0 && (List.range 98).all (fun i => decide (tempOf s i < lim)) then
      raise 0x0003 unitDev (thermData (hottest s) (tabGet 0 s.temps (hottest s))) (wrB thermStatusR 0 false s)
    else s
def execThermClear (ts : List (BitVec 16)) (s : State) : Out State := .next (thermClear ts s)

/-- THERM_CRIT: a sensor reads 115 °C or more, or no sensor reads 110 °C or more any longer. DEDUCED: log 103. -/
def thermCrit (i : Nat) (t : BitVec 16) (s : State) : State :=
  if s.mode ≠ .running ∨ 98 ≤ i then s
  else
    let s := setTemp i t s
    if 1840 ≤ t.toInt ∧ rdB s thermStatusR 1 = false then raise 0x0004 unitDev (thermData i t) (wrB thermStatusR 1 true s)
    else if rdB s thermStatusR 1 && (List.range 98).all (fun k => decide (tempOf s k < 1760)) then wrB thermStatusR 1 false s
    else s
def execThermCrit (i : BitVec 7) (t : BitVec 16) (s : State) : Out State := .next (thermCrit i.toNat t s)

end Sys2Proof.Machine
end

