-- ==== Sys2Proof/Machine/Peek.lean ====
section
/-! DEFINITION. What a register or a window reads as: stored words, words computed from the state, holding copies
(R5, R10, R11, R182, R340, R389 to R391, R406, R407, R409, R410, R441). -/
namespace Sys2Proof.Machine

/-! ### Words computed from the state -/

/-- A word from its fields, each given by its lowest bit and its value. -/
def fields (l : List (Nat × Nat)) : Word := BitVec.ofNat 32 (l.foldl (fun a e => a + e.2 * 2 ^ e.1) 0)
/-- The numbers 0 to 7 with a property, as a mask. -/
def mask8 (f : Nat → Bool) : Nat := ((List.range 8).filter f).foldl (fun a k => a + 2 ^ k) 0

/-- PAIR_ACQ_STATUS (R182). -/
def acqStatusWord (s : State) (l : Nat) : Word :=
  let p := pairOf s l
  let own := [(9, b2n p.sfLock), (10, b2n p.inverted), (11, b2n p.pairMismatch), (24, p.detect % 8)]
  match linkOfPair s l with
  | none => fields ((0, 7) :: own)
  | some m =>
    let x := linkOf s m
    fields (own ++ [(0, stateCode x.state), (3, if x.state = .train then x.phase % 8 else 0), (6, b2n x.slave), (7, b2n x.locked),
      (8, b2n p.quiet), (12, b2n (timingPair s (l / 8) == some l)), (16, if x.slave then p.sfOffset % 128 else 0)])

/-- DIRECTION of PAIR_STATUS (R13): 0 no link, 1 FDX, 2 COMPAT transmit, 3 COMPAT receive. -/
def pairDirection (s : State) (l : Nat) : Nat :=
  match linkOfPair s l with
  | none => 0
  | some m => if isCompat (modeOf s m) then (if txPair s l then 2 else 3) else 1
/-- TX_DISABLE is in effect: set, on a COMPAT transmit pair. -/
def txDisabled (s : State) (l : Nat) : Bool := rdB s (pairBase l) 1 && pairDirection s l == 2

/-- PAIR_STATUS (R410). -/
def pairStatusWord (s : State) (l : Nat) : Word :=
  let p := pairOf s l
  let loop := match linkOfPair s l with
    | some m => (linkOf s m).loopback - 1
    | none => 0
  fields [(0, b2n p.banksValid), (1, (activeSlot s l).getD 0 % 8), (4, b2n p.onSyn), (5, pairDirection s l), (7, loop % 4),
    (9, b2n ((activeTake s l).any (fun t => decide (8 < tkClusters t)))), (10, b2n p.snrLow), (11, b2n p.restarting),
    (12, b2n (txDisabled s l))]

/-- PORT_STATUS (R410). -/
def portStatusWord (s : State) (p : Nat) : Word :=
  let x := portOf s p
  let ls := portLinks s p
  fields [(0, if ls.any (fun m => isCompat (modeOf s m)) then 2 else if ls.isEmpty then 0 else 1),
    (2, b2n (x.fixedRole == some true)), (3, b2n x.locked), (4, (timingPair s p).getD 0 % 8), (7, b2n (synState s p == 4)),
    (8, mask8 (fun k => isLink s (8 * p + k) && (linkOf s (8 * p + k)).state == .up)),
    (16, mask8 (fun k => (linkOfPair s (8 * p + k)).isSome)),
    (24, b2n x.cableTest.isSome), (25, b2n x.hostLoop), (26, b2n x.resetting)]

/-- Every access of the serial view has completed (R439). -/
def spReady (s : State) : Bool := s.sp.queue.isEmpty && (s.sp.hold.all (fun h => h.todo.isEmpty))
/-- The sources of IRQ_N that are active, laid out as SP_IRQ_EN (R441). -/
def irqSources (s : State) : Word :=
  fields [(0, b2n (rdB s mailboxCtlR 2 && rdB s mailboxCtlR 4)), (1, b2n (rdF s spStatusR 3 0 != 0)),
    (2, b2n (rdF s thermStatusR 1 0 != 0)), (3, b2n (bitGet (rdView s .serial clkMonStatusR) 5)),
    (4, b2n (rdF s pwrSupplyStatusR 15 0 != 0)), (5, b2n (spReady s))]
def irqAsserted (s : State) : Bool := s.mode == .running && (rd s spIrqEnR &&& irqSources s) != 0
def spStatusWord (s : State) : Word := bitPut (bitPut (rd s spStatusR) 4 (rdB s mailboxCtlR 2)) 5 (irqAsserted s)

/-- DEV_STRAPS: bit 1 is the effective MGR_SEL. DEDUCED: log 132. -/
def strapsWord (s : State) : Word :=
  bitPut (rd s devStrapsR) 1 (if rdB s devStrapsR 8 then rdB s devStrapsR 9 else rdB s devStrapsR 0)

/-- A sensor reading at a tile's sensor registers (R475): the eight port sensors, then the four of the tile. -/
def sensorWord (s : State) (t k : Nat) : Word :=
  (tabGet 0 s.temps (if k < 8 then 8 * t + k else 64 + 4 * t + (k - 8))).setWidth 32

/-! ### Windows (R10, R11, R193, R340, R389) -/

/-- BAR4 (R425): the MSI-X table and the pending-bit array. -/
def bar4 (off : Nat) : Nat := 0x10200000 + off
/-- PRESUMED: log 27. -/
def msixWord (s : State) (o : Nat) : Word :=
  if o < 0x2000 then (if o % 16 = 12 then (if s.pcie.unmasked.contains (o / 16) then 0 else 1) else rd s (bar4 o))
  else if o < 0x2040 then
    BitVec.ofNat 32 ((s.pcie.pba.filter (fun v => v / 32 == (o - 0x2000) / 4)).foldl (fun a v => a ||| 2 ^ (v % 32)) 0)
  else 0

def wordAt (b : List Byte) (o : Nat) : Word := BitVec.ofNat 32 (leAt b o 4)

/-- BAR2's mailbox buffer (R319). -/
def inMailbox (a : Nat) : Bool := decide (bar2 0xD0000 ≤ a ∧ a < bar2 0xD1000)
def inTakes (a : Nat) : Bool := decide (0x1000000 ≤ a ∧ a < 0x9000000 ∧ 0xA00000 ≤ a % 0x1000000 ∧ a % 0x1000000 < 0xC00000)
def inRushes (a : Nat) : Bool := decide (0x1000000 ≤ a ∧ a < 0x9000000 ∧ 0xC00000 ≤ a % 0x1000000 ∧ a % 0x1000000 < 0xF00000)
def inLinkAreas (a : Nat) : Bool := decide (0x800000 ≤ a ∧ a < 0x810000)
def inOperArea (a : Nat) : Bool := decide (0x810000 ≤ a ∧ a < 0x1000000)
/-- DESIGN CHOICE: log 97. -/
def inMramWindow (a : Nat) : Bool := decide (0x110000 ≤ a ∧ a < 0x120000)
def inMsix (a : Nat) : Bool := decide (bar4 0 ≤ a ∧ a < bar4 0x4000)

/-- The word of a take window. -/
def takeWord (s : State) (a : Nat) : Word :=
  let o := a % 0x1000000 - 0xA00000
  wordAt (takeAt s (64 * (a / 0x1000000 - 1) + 32 * (o / 0x100000) + o % 0x100000 / 0x8000) (o % 0x8000 / 0x1000)) (o % 0x1000)
/-- The port whose capture area an address of a rushes window lies in, and the offset in it (R193). -/
def rushPlace (a : Nat) : Nat × Nat :=
  let o := a % 0x1000000 - 0xC00000
  (8 * (a / 0x1000000 - 1) + 4 * (o / 0x180000) + o % 0x180000 / 0x60000, o % 0x60000)
/-- The word of a rushes window: none where the area holds no defined value, or holds the accumulators (R193). DEDUCED: log 98. -/
def rushWord (s : State) (a : Nat) : Option Word :=
  let (p, r) := rushPlace a
  let b := ((areaOf s p).drop r).take 4
  if 0x48100 ≤ r ∨ b.any (fun x => x.isNone) = true then none else some (BitVec.ofNat 32 (leNat (b.map (fun x => x.getD 0))))

/-- A window's word; none where the address is no window or the word has no defined value. -/
def windowWord (s : State) (a : Nat) : Option Word :=
  if inLinkAreas a then some (wordAt (statusArea s ((a - 0x800000) / 0x80)) (a % 0x80))
  else if inOperArea a then some (BitVec.ofNat 32 (leNat (getBytes s.sram a 4)))
  else if inMailbox a then some (BitVec.ofNat 32 (leNat (getBytes s.cmd.mailbox (a - bar2 0xD0000) 4)))
  else if inMsix a then some (msixWord s (a - bar4 0))
  else if inTakes a then some (takeWord s a)
  else if inRushes a then rushWord s a
  else none
/-- A window whose word has no defined value, or lies at an offset that nothing gives: a read of it is free. -/
def freeRead (s : State) (a : Nat) : Bool := inMramWindow a || (inRushes a && (windowWord s a).isNone)

/-! ### Registers -/

/-- Hub registers that are computed; the others read as stored. -/
def hubWord (s : State) (a : Nat) : Word :=
  if a = devOuiR then Config.oui.setWidth 32
  else if a = devSerialLoR then Config.serial.setWidth 32
  else if a = devSerialHiR then (Config.serial >>> 32).setWidth 32
  else if a = devStrapsR then strapsWord s
  else if a = devTimeLoR then s.time.setWidth 32
  else if a = devTimeHiR then (s.time >>> 32).setWidth 32
  else if a = pwrCoreVidR then Config.coreVid.setWidth 32
  else if a = thermStatusR then thermWord s
  else if 0x40000 ≤ a ∧ a < 0x40400 ∧ a % 0x200 = 4 then rackStatusWord s (72 + (a - 0x40000) / 0x200)
  else if 0x41000 ≤ a ∧ a < 0x41200 ∧ a % 0x20 = 0x10 then outStatusWord s ((a - 0x41000) / 0x20)
  else if a = spStatusR then spStatusWord s
  else if a = cmdTagsFreeR then BitVec.ofNat 32 (tagsFree s)
  else rd s a

/-- Registers of a port block. -/
def portWord (s : State) (p q : Nat) : Word :=
  let a := portBase p + q
  if q = 0 then rd s a &&& 1
  else if q = 4 then portStatusWord s p
  else if q < 0x1000 then rd s a
  else if q < 0x2000 then (if q = 0x1004 then synStatusWord s p else rd s a)
  else if q < 0x4000 then
    let n := 8 * p + (q - 0x2000) / 0x400
    if q % 0x400 = 4 then hlStatusWord s n else rd s a
  else if 0x10000 ≤ q ∧ q < 0x90000 then
    let l := 8 * p + (q / 0x10000 - 1)
    let r := q % 0x10000
    if r = 0 then rd s a &&& 6 else if r = 4 then pairStatusWord s l else if r = 0x68 then acqStatusWord s l else rd s a
  else rd s a

/-- A register's word but for the bits that each view has of its own. -/
def regWord (s : State) (a : Nat) : Word :=
  if a < 0x1000000 ∨ 0x9000000 ≤ a then hubWord s a
  else
    let t := a / 0x1000000 - 1
    let o := a % 0x1000000
    if 0x100000 ≤ o ∧ o < 0x900000 then portWord s (8 * t + (o / 0x100000 - 1)) (o % 0x100000)
    else if 0x4000 ≤ o ∧ o < 0x4030 then sensorWord s t ((o - 0x4000) / 4)
    else if o = 0x1004 then synStatusWord s (64 + t)
    else rd s a

/-- The register as a view sees it live: a receive lane's HL_FILL reads 0 (R233). DEDUCED: log 132. -/
def liveWord (s : State) (v : View) (a : Nat) : Word :=
  if inPort a ∧ 0x2000 ≤ a % 0x100000 ∧ a % 0x100000 < 0x4000 ∧ a % 0x400 = 8 then
    hlFillWord s v (8 * ((a / 0x1000000 - 1) * 8 + (a % 0x1000000 / 0x100000 - 1)) + (a % 0x100000 - 0x2000) / 0x400)
  else (regWord s a &&& ~~~(pvMask a)) ||| (rdView s v a &&& pvMask a)

/-! ### Snapshots (R406, R407) -/

/-- The power domain that an address lies in; none where no state of a domain bears on it (R296, R299). DEDUCED: log 92. -/
def addrDomain (a : Nat) : Option Nat :=
  if 0x1000000 ≤ a ∧ a < 0x9000000 then
    let t := a / 0x1000000 - 1
    let o := a % 0x1000000
    if 0x100000 ≤ o ∧ o < 0x900000 then some (8 * t + (o / 0x100000 - 1)) else some (64 + t)
  else if 0x40000 ≤ a ∧ a < 0x50000 then some 78
  else if 0x50000 ≤ a ∧ a < 0x60000 then some 77
  else if 0x70000 ≤ a ∧ a < 0x80000 then some 73
  else if 0x80000 ≤ a ∧ a < 0xA0000 then some 74
  else if (0xA0000 ≤ a ∧ a < 0xB0000) ∨ inMramWindow a = true then some 79
  else if 0x800000 ≤ a ∧ a < 0x1000000 then some 74
  else none

/-- The hub's registers that a snapshot covers. -/
def hubCovered (a : Nat) : Bool :=
  a == hubMuxForcedR || (decide (0x20000 ≤ a ∧ a < 0x20A00) && a % 0x20 == 0x10) || a == pwrBrownoutCntR || a == evtlogDropR
    || a == evtFullCntR || a == accErrCntR || a == tmrMismatchCntR || a == fwWallCntR
    || decide (0x40000 ≤ a ∧ a < 0x40400 ∧ 0x10 ≤ a % 0x200 ∧ a % 0x200 ≤ 0x1C)
    || a == clapInCntR || a == clapOutCntR || a == clapRejectR
    || (decide (0x81000 ≤ a ∧ a < 0x82000) && a % 0x40 == 0x10) || a == cmdFetchPauseR || a == ldtHitR || a == ldtMissR || a == ldtCrcErrR
/-- The registers that a snapshot covers (R406). -/
def covered (a : Nat) : Bool :=
  a % 4 == 0 && (if a < 0x1000000 then hubCovered a
  else if 0x9000000 ≤ a then false
  else match synthOffset a with
  | some k => k == 8 || k == 0xC || decide (0x40 ≤ k ∧ k ≤ 0x4C)
  | none =>
    if inPort a then
      let q := a % 0x100000
      if q < 0x1000 then decide (0x100 ≤ q ∧ q < 0x138) || q == 0x200
      else if q < 0x4000 then decide (0x2000 ≤ q ∧ 4 ≤ q % 0x400 ∧ q % 0x400 < 0x34 ∧ q % 0x400 ≠ 8)
      else let r := q % 0x10000; decide (0x10000 ≤ q) && decide ((0x40 ≤ r ∧ r < 0x78) ∨ (0x100 ≤ r ∧ r < 0x148) ∨ (0x200 ≤ r ∧ r < 0x398))
    else a % 0x1000000 == 0x208 || a % 0x1000000 == 0x210)

/-- Registers that a snapshot covers whose word is computed: the status words of pairs, lanes and synthesizers' lanes. -/
def computedCovered : List Nat :=
  (List.range 512).map acqStatusR ++ (List.range 512).map hlStatus

/-- Copy every covered register, at the present device time; a domain in OFF leaves 0. -/
def takeCopies (s : State) : State :=
  let plain := s.regs.filter (fun e => covered e.1)
  { s with
    held := computedCovered.foldl (fun t a => tabPut (regReset a) t a (regWord s a)) plain
    snapAt := s.time
    snapOff := (List.range 80).filter (fun d => domState s d == 4) }
/-- A holding copy. -/
def heldWord (s : State) (a : Nat) : Word :=
  if (addrDomain a).any (fun d => s.snapOff.contains d) then 0 else tabGet (regReset a) s.held a

/-- A view's reads of covered registers return holding copies: SNAP_CTL.HELD of the view. -/
def heldFor (s : State) (v : View) : Bool := bitGet (rdView s v snapCtlR) 1

/-- What a view reads at an address that can be served; a reserved address reads 0 (R391). -/
def peek (s : State) (v : View) (a : Nat) : Word :=
  match windowWord s a with
  | some w => w
  | none =>
    match regInfo a with
    | none => 0
    | some i =>
      if covered a && heldFor s v then heldWord s a &&& ~~~i.rc ||| (rdView s v a &&& i.rc)
      else if a = devTimeHiR then
        (match s.timeLatch.find? (fun e => e.1 == viewNum v) with
         | some e => e.2
         | none => liveWord s v a)
      else liveWord s v a

end Sys2Proof.Machine
end

