-- ==== Sys2Proof/Machine/Counters.lean ====
section
/-! DEFINITION. Counter snapshots, the COUNTER commands, performance counter blocks and the link counter record (R184,
R186, R191, R364, R406, R411 to R422). -/
namespace Sys2Proof.Machine

/-! ### Snapshots (R406) -/

/-- A snapshot begins: the copies are taken, and BUSY is 1 until SNAPSHOT_COMPLETE. -/
def snapStart (s : State) : State := wrB snapCtlR 2 true (takeCopies s)
/-- A write of 1 to SNAP_CTL.GO. -/
def snapGo (s : State) : State := if rdB s snapCtlR 2 then wrB snapCtlR 3 true s else snapStart s

def opCntSnapshot : OpSpec := { opcode := 0x0801, classes := [0], lens := [0], maxResult := 12 }
/-- CNT_SNAPSHOT; while a snapshot is being taken it waits and takes the next one. -/
def actCntSnapshot (e : Nat) (s : State) : State := if rdB s snapCtlR 2 then s else keepRunning e 0 (snapStart s)
def execCntSnapshot (c : Cmd) (s : State) : Out State := .next (command opCntSnapshot c actCntSnapshot s)

/-- SNAPSHOT_COMPLETE: SNAP_SEQ and SNAP_TIME, BUSY at 0, and the command that took the snapshot completes. -/
def snapComplete (s : State) : State :=
  if s.mode ≠ .running ∨ rdB s snapCtlR 2 = false then s
  else
    let s := wr64 snapTimeLoR s.snapAt (count snapSeqR 1 (wrB snapCtlR 2 false { s with snapDone := true }))
    completeAll 0x0801 0 0 stOk (leBytes 4 (rd s snapSeqR).toNat ++ leBytes 8 s.snapAt.toNat) s
def execSnapshotComplete (s : State) : Out State := .next (snapComplete s)

/-! ### CNT_READ (R364, R421) -/

/-- A counter: its address, and whether it is a pair of registers. -/
abbrev Counter := Nat × Bool

/-- DEDUCED: log 120. -/
def pairCounters (l : Nat) : List Counter :=
  [0x100, 0x108, 0x110, 0x118].map (fun o => (pairBase l + o, true))
    ++ (List.range 10).map (fun k => (pairBase l + 0x120 + 4 * k, false))
    ++ [0x200, 0x300].flatMap (fun d => (List.range 18).map (fun k => (pairBase l + d + 8 * k, true)))
/-- DEDUCED: log 120. -/
def portCounters (p : Nat) : List Counter :=
  (List.range 6).map (fun k => (utilR p (8 + 8 * k), true)) ++ [(portXqR p, false)]
def laneCounters (n : Nat) : List Counter := (List.range 9).map (fun k => (hlHdrErr n + 4 * k, false))
def pllCounters (i : Nat) : List Counter :=
  (List.range 4).map (fun k => ((if i < 72 then synBase i + 0x40 else rackBase i + 0x10) + 4 * k, false))
/-- The memory error counters of the group's twelve banks (R466). DEDUCED: log 120. -/
def groupCounters (g : Nat) : List Counter :=
  (List.range 12).flatMap (fun b => [(groupBase g + 0x100 + 16 * b, false), (groupBase g + 0x104 + 16 * b, false)])
def perfCounters (b : Nat) : List Counter := (perfBase b + 8, true) :: (List.range 8).map (fun n => (perfPc b n, true))
/-- The hub's registers that a snapshot covers, in address order. -/
def hubCounters : List Counter :=
  ([fwWallCntR, hubMuxForcedR] ++ (List.range 80).map (fun d => domBase d + 0x10)
    ++ [pwrBrownoutCntR, evtlogDropR, evtFullCntR, accErrCntR, tmrMismatchCntR]
    ++ (pllCounters 72).map Prod.fst ++ (pllCounters 73).map Prod.fst ++ [clapInCntR, clapOutCntR, clapRejectR]
    ++ (List.range 64).map (fun n => cqBase n + 0x10) ++ [cmdFetchPauseR, ldtHitR, ldtMissR, ldtCrcErrR]).map (fun a => (a, false))

def unitCounters (s : State) (c i : Nat) : List Counter :=
  match c with
  | 0 => perfCounters 0 ++ hubCounters
  | 1 => perfCounters (i + 1) ++ [(tileMuxForcedR i, false), (tileXqR i, false)]
  | 2 => groupCounters i
  | 3 => portCounters i
  | 4 => (linkPairs s i).flatMap pairCounters
  | 5 => laneCounters i
  | _ => pllCounters i

/-- The value of a counter, live or held; those that no snapshot covers are live. -/
def counterValue (s : State) (held : Bool) (k : Counter) : Nat :=
  let at1 (a : Nat) : Nat := (if held && covered a then heldWord s a else regWord s a).toNat
  if k.2 then at1 k.1 + at1 (k.1 + 4) * 2 ^ 32 else at1 k.1

/-- The blocks of a unit's counters whose clock is stopped (R292). DEDUCED: log 84. -/
def countersGated (s : State) (c i : Nat) : Bool :=
  match c with
  | 0 => !rdB s clkEnR 0
  | 1 => !rdB s (tileClkEnR i) 0
  | 7 => decide (72 ≤ i) && !rackEnabled s i
  | _ => false

def opCntRead : OpSpec := { opcode := 0x0802, classes := [0, 1, 2, 3, 4, 5, 7], lens := [4], maxResult := 16 + 8 * 400 }
/-- DEDUCED: log 84. -/
def actCntRead (c : Cmd) (e : Nat) (s : State) : State :=
  let held := leAt c.params 0 1 == 1
  match firstBad [
    (decide (1 < leAt c.params 0 1) || !zeroFrom c.params 1, stBadParam),
    ((held && !s.snapDone) || countersGated s c.cls.toNat c.idx.toNat, stNotReady)] with
  | some st => complete e st [] s
  | none =>
    let ks := unitCounters s c.cls.toNat c.idx.toNat
    complete e stOk (leBytes 4 (if held then (rd s snapSeqR).toNat else 0) ++ leBytes 4 ks.length
      ++ leBytes 8 (if held then rdWide s snapTimeLoR else s.time.toNat)
      ++ ks.flatMap (fun k => leBytes 8 (counterValue s held k))) s
def execCntRead (c : Cmd) (s : State) : Out State := .next (command opCntRead c (actCntRead c) s)

/-! ### CNT_CLEAR and UTIL_WINDOW -/

/-- The registers that satisfy a predicate are set to 0. -/
def clearRegs (f : Nat → Bool) (s : State) : State :=
  (s.regs.filter (fun e => f e.1)).foldl (fun s e => wr e.1 0 s) s
/-- What CNT_CLEAR clears in a tile's space: the counters of its blocks, without the event counts of the take registers.
DEDUCED: log 120. -/
def clearable (a : Nat) : Bool :=
  (isCounter a && !(atPair a 0x48 || atPair a 0x4C || atPair a 0x5C))
    || (inPort a && decide (0x108 ≤ a % 0x100000 ∧ a % 0x100000 < 0x138))
def clearRange (lo n : Nat) (s : State) : State := clearRegs (fun a => clearable a && decide (lo ≤ a ∧ a < lo + n)) s
/-- CLEAR of a counter block: every counter and PERF_OVF (R411). -/
def perfClear (b : Nat) (s : State) : State :=
  each (List.range 8) (fun n s => wrWide (perfPc b n) 48 0 s) (wrWide (perfBase b + 8) 48 0 (wr (perfOvf b) 0 s))
def snrRestarts (ls : List Nat) (s : State) : State := each ls snrRestart s
def tilePairs (t : Nat) : List Nat := (List.range 64).map (fun k => 64 * t + k)
/-- A tile's counters and its counter block, unless the block's clock is stopped. -/
def clearTile (t : Nat) (s : State) : State :=
  let s := snrRestarts (tilePairs t) (clearRange (tileBase t) 0x1000000 s)
  if rdB s (tileClkEnR t) 0 then perfClear (t + 1) s else s
def hubClearable (a : Nat) : Bool :=
  hubCovered a || a == chainCrcErrR || a == chainHopDropR || a == chainLateReplyR || a == chainTimeStepR
    || (decide (0x30100 ≤ a ∧ a < 0x30200) && decide (a % 16 < 8))
/-- CNT_CLEAR of a unit and the units within it. DEDUCED: log 120. -/
def clearUnit (c i : Nat) (s : State) : State :=
  match c with
  | 0 =>
    let s := each (List.range 8) clearTile (clearRegs hubClearable s)
    if rdB s clkEnR 0 then perfClear 0 s else s
  | 1 => clearTile i s
  | 2 =>
    let ps := (List.range 4).map (fun k => 4 * i + k)
    let s := clearRange (groupBase i) 0x10000 s
    each ps (fun p s => snrRestarts (eight (8 * p)) (clearRange (portBase p) 0x100000 s)) s
  | 3 => snrRestarts (eight (8 * i)) (clearRange (portBase i) 0x100000 s)
  | 4 => snrRestarts (linkPairs s i) (each (linkPairs s i) (fun l s => clearRange (pairBase l) 0x10000 s) s)
  | 5 => clearRange (laneBase i) 0x400 s
  | _ => if i < 72 then clearRange (synBase i) 0x100 s else clearRegs (fun a => (pllCounters i).any (fun k => k.1 == a)) s

def opCntClear : OpSpec := { opcode := 0x0803, classes := [0, 1, 2, 3, 4, 5, 7], lens := [0] }
def actCntClear (c : Cmd) (e : Nat) (s : State) : State := complete e stOk [] (clearUnit c.cls.toNat c.idx.toNat s)
def execCntClear (c : Cmd) (s : State) : Out State := .next (command opCntClear c (actCntClear c) s)

def opUtilWindow : OpSpec := { opcode := 0x0804, classes := [0, 3], lens := [4] }
/-- K of a port: a change discards the window in progress (R191). -/
def setUtil (k p : Nat) (s : State) : State :=
  if rdF s (utilR p 0) 4 0 = k then s
  else
    let s := wrF (utilR p 0) 4 0 k s
    if s.utilDiscard.contains p then s else { s with utilDiscard := s.utilDiscard ++ [p] }
def actUtilWindow (c : Cmd) (e : Nat) (s : State) : State :=
  let k := leAt c.params 0 1
  match firstBad [(!zeroFrom c.params 1, stBadParam), (decide (20 < k), stRange)] with
  | some st => complete e st [] s
  | none => complete e stOk [] (each (if c.cls = 0 then List.range 64 else [c.idx.toNat]) (setUtil k) s)
def execUtilWindow (c : Cmd) (s : State) : Out State := .next (command opUtilWindow c (actUtilWindow c) s)

/-! ### Counter blocks (R411 to R419) -/

def perfStart (b : Nat) : Nat := perfBase b + 0x18
def perfLen (b : Nat) : Nat := perfBase b + 0x20
/-- A window is armed or open: WIN_ARM reads 1. DEDUCED: log 119. -/
def perfArmed (s : State) (b : Nat) : Bool := rdB s (perfBase b) 3

/-- A window begins: the counters and PERF_OVF are 0 and FREEZE is 0. -/
def winOpen (b : Nat) (since : BitVec 64) (s : State) : State :=
  let s := wrB (perfBase b) 1 false (perfClear b s)
  { s with perfWins := tabInsert s.perfWins b { opened := true, since := since } }
/-- WIN_ARM: a START that is not in the future begins the window at once and sets WIN_LATE. DEDUCED: log 119. -/
def winArm (b : Nat) (s : State) : State :=
  let s := wrB (perfBase b) 3 true (wrF (perfBase b) 5 4 0 s)
  if s.time.toNat < rdWide s (perfStart b) then { s with perfWins := tabInsert s.perfWins b {} }
  else winOpen b s.time (wrB (perfBase b) 5 true s)
/-- EN at 0 ends the window without WIN_DONE. -/
def winCancel (b : Nat) (s : State) : State := wrB (perfBase b) 3 false { s with perfWins := tabErase s.perfWins b }

/-- A write of PERF_CTL. While a window is armed a change of FREEZE is dropped and logged with cause LOCKED. DEDUCED: log 119. -/
def perfCtlWrite (v : View) (b : Nat) (w : Word) (s : State) : State :=
  let a := perfBase b
  let lockedOut := perfArmed s b && bitGet w 1 != rdB s a 1
  let s := wrB a 0 (bitGet w 0) s
  let s := if lockedOut then accessError v a 6 true s else wrB a 1 (bitGet w 1) s
  let s := if bitGet w 2 then perfClear b s else s
  if !bitGet w 0 then (if perfArmed s b then winCancel b s else s)
  else if bitGet w 3 then winArm b s else s
/-- A write of START or LEN. -/
def perfWinWrite (v : View) (b a : Nat) (w : Word) (s : State) : State :=
  if perfArmed s b then (if w = rd s a then s else accessError v a 6 true s) else wr a w s
/-- A write of PERF_SEL: PRIV bit 3 of a view but the supervisor's is stored as 0, and the refusal counts and is logged (R379, R413). -/
def perfSelWrite (v : View) (b n : Nat) (w : Word) (s : State) : State :=
  let a := perfSel b n
  if bitGet w 11 && v != .supervisor then firewallRefusal v a true (wr a (w &&& 0xFF7FF) s) else wr a (w &&& 0xFFFFF) s

/-- PERF_WINDOW_START. -/
def perfWinStart (b : Nat) (s : State) : State :=
  match s.perfWins.find? (fun e => e.1 == b) with
  | some (_, x) => if s.mode = .running ∧ x.opened = false then winOpen b (BitVec.ofNat 64 (rdWide s (perfStart b))) s else s
  | none => s
def execPerfWindowStart (b : Fin 9) (s : State) : Out State := .next (perfWinStart b.val s)

/-- PERF_WINDOW_END. -/
def perfWinEnd (b : Nat) (s : State) : State :=
  match s.perfWins.find? (fun e => e.1 == b) with
  | some (_, x) =>
    if s.mode = .running ∧ x.opened = true then
      wrB (perfBase b) 1 true (wrB (perfBase b) 4 true (winCancel b s))
    else s
  | none => s
def execPerfWindowEnd (b : Fin 9) (s : State) : Out State := .next (perfWinEnd b.val s)

/-- PERF_OVERFLOW: a counter of a block that counts wraps to 0; 0 the cycle counter, n + 1 PCn. -/
def overflow (b n : Nat) (s : State) : State :=
  if s.mode ≠ .running ∨ perfCounts s b = false then s
  else if n = 0 then perfCycle b (2 ^ 48 - rdWide s (perfBase b + 8) % 2 ^ 48) s
  else
    let a := perfPc b (n - 1)
    perfIrq b (rd s (perfOvf b)) (perfAdd b 8 (n - 1) (2 ^ 48 - rdWide s a % 2 ^ 48) s)
def execPerfOverflow (b n : Fin 9) (s : State) : Out State := .next (overflow b.val n.val s)

/-! ### The link counter record (R334, R422) -/

/-- CNT_DMA_ADDR and CNT_DMA_PERIOD of an LDT entry. -/
def dmaAddrOf (b : List Byte) : Nat := leAt b 0x28 8
def dmaPeriodOf (b : List Byte) : Nat := leAt b 0x30 2

def recordEntry (s : State) (l : Nat) : List Byte :=
  let wide (o : Nat) : List Byte := leBytes 8 (rdWide s (pairBase l + o))
  let one (o : Nat) : List Byte := leBytes 4 (rd s (pairBase l + o)).toNat
  wide 0x100 ++ wide 0x108 ++ wide 0x118 ++ wide 0x288 ++ wide 0x280 ++ one 0x120 ++ one 0x128 ++ one 0x134 ++ one 0x70 ++ one 0x74
    ++ leBytes 1 (l % 8) ++ zeros 3
def recordHeader (s : State) (m : Nat) : List Byte :=
  let x := linkOf s m
  leBytes 4 0x43455243 ++ leBytes 2 0x0100 ++ leBytes 2 m ++ leBytes 4 (x.recSeq + 1).toNat ++ leBytes 1 (linkPairs s m).length
    ++ leBytes 1 (stateCode x.state) ++ zeros 2 ++ leBytes 8 s.time.toNat ++ leBytes 4 x.gen ++ zeros 4

/-- COUNTER_RECORD_PERIOD: the record goes to host memory, the entries first and the header last. Without the link's LDT
entry in the cache the entry is asked for. -/
def counterRecord (m : Nat) (s : State) : State :=
  if s.mode ≠ .running ∨ isLink s m = false then s
  else
    let s := ldtUse m s
    match ldtFind s m with
    | none => s
    | some b =>
      if dmaAddrOf b = 0 ∨ dmaPeriodOf b = 0 ∨ dmaOk s = false then s
      else
        let h := recordHeader s m
        let s := hostWriteBy 7 (dmaAddrOf b + 32) ((linkPairs s m).flatMap (recordEntry s)) s
        modLink m (fun x => { x with recSeq := x.recSeq + 1 }) (hostWriteBy 7 (dmaAddrOf b) h s)
def execCounterRecordPeriod (l : Pair) (s : State) : Out State := .next (counterRecord l.toNat s)

/-- The event of a cycle that an access stalls (R414). -/
def stallEvent (e : Nat × Nat) : PerfEvent :=
  let v := e.1 / 16
  { code := 3, view := (allViews.find? (fun w => viewNum w == v)), addr := some (e.2 / 2),
    master := some (if v = 0 then 8 else if v = 1 then 9 else if v = 2 then 0 else 4) }
/-- What the counter blocks add in the nanosecond after time `t`, of `k` root cycles (R411, R414, R415): the cycle counters, the commands in
flight, the accesses that stall, the busy graders and take loaders, and every 64 cycles what the tiles have gathered. -/
def idleCounts (t k : Nat) (s : State) : State :=
  let s := each (List.range 9) (fun b s => perfCycle b k s) s
  if k = 0 then s
  else
    let s := s.cmd.inflight.foldl (fun s f => perfCount 0 k { code := 6, unit := some (cmdUnit f.cmd) } s) s
    let s := each (List.range 16) (fun g s =>
      if (runsOf s g).any runBegun then perfCount (g / 2 + 1) k { code := 0x24, master := some (0xB + g % 2) } s else s) s
    let s := each (List.range 8) (fun b s => if (tileOf s b).loader.isEmpty then s else perfCount (b + 1) k { code := 0x25 } s) s
    let s := s.stalls.foldl (fun s e => perfCount 0 k (stallEvent e) s) s
    if 5 * (t + 1) / 4 / 64 = 5 * t / 4 / 64 then s else perfTransfer s

end Sys2Proof.Machine
end

