-- ==== Sys2Proof/Machine/Boot.lean ====
section
/-! DEFINITION. Device-level resets, device-level OFF, the boot and the board configuration record (R288, R310, R311, R315,
R374 to R377, R489, R495, R504 to R512). -/
namespace Sys2Proof.Machine

/-! ### COLD and DEVICE resets (R477 to R481) -/

/-- The SEQ of the newest valid record of the MRAM log, 0 when there is none (R469). -/
def loggedSeq (s : State) : Word :=
  match (s.evt.log.filter (fun r => !s.evt.logBad.contains r.seq)).getLast? with
  | some r => r.seq
  | none => 0

/-- The device as a reset leaves it: everything at its reset value but MRAM (its images, stores and log), host memory and
what was sent, the board's and cables' temperatures, and the failed oscillator cores; the boot record names the banks.
`cause` is LAST_RESET; device time survives but for a COLD reset and device-level OFF. DESIGN CHOICE: log 2. DEDUCED: log 121. -/
def resetDevice (mode : DevMode) (cause : Nat) (s : State) : State :=
  let t : State := {
    pending := s.pending, mode := mode, hostMem := s.hostMem, out := s.out, fresh := s.fresh
    time := if cause = 1 ∨ s.mode = .off ∨ mode = .off then 0 else s.time
    temps := s.temps, mram := s.mram, contRecs := s.contRecs, contUse := s.contUse
    badCores := if cause = 1 then [] else s.badCores
    evt := { seq := loggedSeq s, log := s.evt.log, logBad := s.evt.logBad }
    pcie := { perstN := s.pcie.perstN }
    fw := { headers := s.fw.headers, invalid := s.fw.invalid, staged := s.fw.staged, floors := s.fw.floors, revoked := s.fw.revoked } }
  wr devResetCauseR (BitVec.ofNat 32 cause) (wrF fwStateR 1 0 (rdF s fwStateR 1 0) t)

/-- DEDUCED: log 121. -/
def coldReset (s : State) : State := resetDevice .inReset 1 s
/-- A DEVICE reset; while a COLD or DEVICE reset is in progress it is ignored (R479). -/
def deviceReset (cause : Nat) (s : State) : State := if s.mode = .inReset then s else resetDevice .inReset cause s

/-- POWER_ON_RESET (R489), VDD_AON_LOW (R315, R495), BOTH_CORES_DEAD (R288): a COLD reset. -/
def execPowerOnReset (s : State) : Out State := .next (coldReset s)
def vddAonLow (s : State) : State := coldReset s
def execVddAonLow (s : State) : Out State := .next (vddAonLow s)
def bothCoresDead (s : State) : State := if s.mode = .off then s else coldReset s
def execBothCoresDead (s : State) : Out State := .next (bothCoresDead s)
/-- RESET_N_PULSE (R495). DEDUCED: log 121. -/
def execResetNPulse (s : State) : Out State := .next (deviceReset 2 s)
/-- WAKE_PIN (R311, R495): it has an effect in device-level OFF alone. -/
def wakePin (s : State) : State := if s.mode = .off then resetDevice .inReset 4 s else s
def execWakePin (s : State) : Out State := .next (wakePin s)
/-- DEVICE_OFF_ENTRY (R310). -/
def offEntry (s : State) : State := if s.mode = .running ∧ s.offPending = true then resetDevice .off 4 s else s
def execDeviceOffEntry (s : State) : Out State := .next (offEntry s)

/-! ### The board configuration record (R510, R511) -/

def recordBase : Nat := 0x882000
def storedRecord (s : State) : List Byte := getBytes s.mram recordBase 0x280
def recordOk (r : List Byte) : Bool :=
  leAt r 0 4 == 0x47464342 && leAt r 4 2 == 0x0100 && leAt r 6 2 == 0x0280 && crc32 (r.take 0x27C) == leAt r 0x27C 4

/-- A register image: the writable fields of a register. -/
def writable (a : Nat) : Word := match regInfo a with
  | some i => i.rw
  | none => 0
def putImage (a : Nat) (v : Nat) (s : State) : State :=
  wr a ((rd s a &&& ~~~(writable a)) ||| (BitVec.ofNat 32 v &&& writable a)) s

/-- Step 3 of the boot with a valid record. DEDUCED: log 126. -/
def applyBoard (r : List Byte) (s : State) : State :=
  let s := putImage clkMonCfgR (leAt r 0x20 4) s
  let s := wrF refSelR 2 2 (leAt r 0x24 1) (putImage refSelR (leAt r 0x24 4) s)
  let s := putImage cmdPathCfgR (leAt r 0x2D 1) (putImage clkEnR (leAt r 0x28 4) s)
  let s := putImage operWdtCfgR (leAt r 0x30 4) (putImage devStrapsR (leAt r 0x2E 1 % 4 * 256) s)
  let s := putImage clapCtlR (leAt r 0x38 4) (putImage chainInDelayR (leAt r 0x3C 4) s)
  let s := wr chainEvtMaskHiR (BitVec.ofNat 32 (leAt r 0x44 4)) (wr chainEvtMaskLoR (BitVec.ofNat 32 (leAt r 0x40 4)) s)
  each (List.range 8) (fun t s => putImage (synRefR (64 + t)) (leAt r (0x48 + 4 * t) 4)
    (putImage (tileClkEnR t) (leAt r 0x2C 1) s)) s

/-- Step 4 (R285, R505): the words of the sources, and the switch to the configured one, or the switch left pending. DEDUCED: log 126. -/
def bootRoot (r : List Byte) (s : State) : State :=
  let src := leAt r 0xC 1 % 4
  let word (o : Nat) : BitVec 64 := BitVec.ofNat 32 (leAt r o 4) ++ BitVec.ofNat 32 (leAt r (o + 4) 4)
  let s := { s with rootWords := [(1, word 0x10), (2, word 0x18)] }
  if src = 0 ∨ src = 3 then s
  else
    let s := storeRootWord src s
    if rootSrcOk s src then rootSelect src s else wrF clkRootSrcR 1 0 src { s with rootPending := some src }

/-- A PLL of the record: enabled now if its input passes, later by RACK_PLL_BOOT_ENABLE otherwise. DEDUCED: log 126. -/
def bootPll (i : Nat) (s : State) : State :=
  if rackInputOk s i then rackEnable i none s else { s with rackBoot := s.rackBoot ++ [i] }
/-- Step 6 (R506): the rack clock plan and the lock bits. -/
def applyRack (r : List Byte) (s : State) : State :=
  let s := putImage rackCtlR (leAt r 0x34 4) s
  let s := each [0, 1] (fun x s => each (List.range 16) (fun k s =>
    let o := 0x70 + 0x80 * x + 8 * k
    putImage (rackSlotR (72 + x) k + 4) (leAt r (o + 4) 4) (putImage (rackSlotR (72 + x) k) (leAt r o 4) s)) s) s
  let s := each (List.range 16) (fun n s =>
    let o := 0x170 + 0x10 * n
    let s := wrB (outBase n) 6 false (putImage (outBase n) (leAt r o 4) s)
    putImage (outBase n + 8) (leAt r (o + 8) 4) (putImage (outBase n + 4) (leAt r (o + 4) 4) s)) s
  let s := each [0, 1] (fun x s =>
    let v := leAt r (0x68 + 4 * x) 4
    let s := wrF (rackCtl (72 + x)) 3 0 v s
    if v.testBit 4 then bootPll (72 + x) s else s) s
  wr lockCtlR (BitVec.ofNat 32 (leAt r 0xD 1 % 32)) s

/-- What the firmware sets when the record fails its check (R511). DEDUCED: log 125. -/
def bootWithout (s : State) : State :=
  each (List.range 8) (fun t s => wr (tileClkEnR t) 0xF s) (wr cmdPathCfgR 7 (wr clkEnR 0x13 s))

/-! ### Images (R374, R376) -/

/-- A bank passes: no first chunk has marked it invalid, and every check of R374 succeeds. DEDUCED: log 125. -/
def tryBank (b crypto : Nat) (s : State) : Bool × State :=
  if s.fw.invalid.contains b then (false, s)
  else let (code, s) := verifyBank b crypto s; (code == 0, s)
/-- The active bank of a type, else the other one; the events of the failures are raised. DEDUCED: log 125. -/
def chooseBank (ty : Nat) (crypto : Nat → Nat) (s : State) : Option Nat × State :=
  let a := activeBank s ty
  let (ok, s) := tryBank a (crypto a) s
  if ok then (some a, s)
  else
    let o := stagingBank s ty
    let (ok, s) := tryBank o (crypto o) s
    if ok then (some o, wrB fwStateR ty (o % 2 == 1) s) else (none, raise 0x0C01 unitDev (leBytes 1 (ty + 1)) s)

/-- The image of a bank runs: its version, and since when (R375). -/
def imageRuns (ty b : Nat) (s : State) : State :=
  let v := BitVec.ofNat 32 (bankVersion s b)
  modFw (fun f => { f with
    operVersion := if ty = 0 then v else f.operVersion, supVersion := if ty = 1 then v else f.supVersion
    svnSince := tabInsert f.svnSince ty s.time }) s

/-! ### DEVICE_BOOT (R376, R504 to R511) -/

/-- Step 2: the supervisor patch. DEDUCED: log 125. -/
def bootPatch (crypto : Nat → Nat) (s : State) : State :=
  let (b, s) := chooseBank 1 crypto s
  match b with
  | some b => imageRuns 1 b s
  | none => let (v, s) := draw 14 s; wrB fwStateR 5 true (modFw (fun f => { f with supVersion := v.setWidth 32 }) s)

/-- Steps 8 and 9: the operator image, or recovery (R377). -/
def bootOperator (crypto : Nat → Nat) (s : State) : State :=
  let (b, s) := chooseBank 0 crypto s
  match b with
  | some b =>
    let s := each (List.range 64) pairsToSyn (imageRuns 0 b s)
    if rdB s clkEnR 1 then chainRestart s else s
  | none => wrB fwStateR 2 true s

/-- The headers that the factory gave the banks that were never staged. -/
def factoryHeaders (imgs : List (List Byte)) (s : State) : State :=
  each (List.range 4) (fun b s =>
    if (s.fw.headers.any (fun e => e.1 == b)) then s
    else modFw (fun f => { f with headers := tabInsert f.headers b (imgs.getD b []) }) s) s

/-- The index of the continuity store is built: a record that fails its check is reported (R142). -/
def contIndex (s : State) : State := s.contRecs.foldl (fun s e => if contValid e.2 then s else contBadRead s) s
/-- The boot, from the supervisor ROM's start to EVT_DEV_RESET and to the end of the reset. `mgr` is the MGR_SEL pin, `passing` the clock sources whose
monitors pass by step 4, `imgs` the banks' headers with the verdict on keys and hashes. DEDUCED: log 122. DEDUCED: log 140. -/
def deviceBoot (mgr : Bool) (passing : List (BitVec 4)) (imgs : List (List Byte × BitVec 3)) (s : State) : State :=
  if s.mode ≠ .inReset then s
  else
    let crypto (b : Nat) : Nat := ((imgs.getD b ([], 0)).2).toNat
    let s := wrB devStrapsR 0 mgr (wrB clkRootSrcR 5 (s.badCores.contains 0) { s with mode := .running })
    let s := bootPatch crypto (factoryHeaders (imgs.map Prod.fst) s)
    let r := storedRecord s
    let ok := recordOk r
    let s := wrB bcfgCtlR 19 ok (if ok then applyBoard r s else bootWithout s)
    let s := passing.foldl (fun s x => monPass x.toNat 0 s) s
    let s := if ok then applyRack r (bootRoot r s) else s
    let ids : Word := if ok then BitVec.ofNat 32 (leAt r 8 4) else Config.vendorId.setWidth 32 ||| 0x51200000
    let s := { s with pcie := { s.pcie with
      bootAt := some s.time, subsys := ids, waitFrom := if s.pcie.perstN then some s.time else none } }
    let cause := rdF s devResetCauseR 2 0
    unitResetEvent (if cause = 1 then 1 else 2) unitDev
      (raise 0x0000 unitDev (leBytes 1 cause ++ leBytes 1 (b2n (!ok))) (contIndex (bootOperator crypto s)))
/-- DEDUCED: log 5. DEDUCED: log 10. -/
def execDeviceBoot (mgr : Bool) (passing : List (BitVec 4)) (imgs : List (List Byte × BitVec 3)) (s : State) : Out State :=
  .next (deviceBoot mgr passing imgs s)

/-- RACK_PLL_BOOT_ENABLE (R506). DEDUCED: log 126. -/
def rackBootEnable (i : Nat) (s : State) : State :=
  if s.mode = .running ∧ s.rackBoot.contains i = true ∧ rackInputOk s i = true then
    rackEnable i none { s with rackBoot := s.rackBoot.filter (fun x => x != i) }
  else s
def execRackPllBootEnable (i : Pll) (s : State) : Out State := .next (rackBootEnable i.val s)

/-- TILE_SYNTH_ENABLE (R507): the synthesizers of the tile that are OFF and wanted, in domains that run. -/
def tileSynths (t : Nat) (s : State) : State :=
  if s.mode ≠ .running then s
  else each (eight (8 * t) ++ [64 + t]) (fun i s =>
    if synState s i = 0 ∧ domRuns s i = true ∧ (tileOf s t).resetting = false ∧ (i < 64 → (portOf s i).resetting = false) then
      synRestart i s else s) s
def execTileSynthEnable (t : Tile) (s : State) : Out State := .next (tileSynths t.toNat s)

/-! ### Board setup (R512) -/

def bcfgKey (w : Word) : Bool := fieldGet w 15 0 == 0x5120
/-- A bad key is logged with cause RESERVED. DEDUCED: log 38. -/
def badKey (s : State) : State := accessError .serial bcfgCtlR 8 true s

/-- BCFG_SETUP. DEDUCED: log 38. -/
def bcfgSetup (w : Word) (s : State) : State :=
  if !bcfgKey w then badKey s
  else if rdB s lockCtlR 4 then accessError .serial bcfgCtlR 6 true s
  else
    let r := storedRecord s
    wrB bcfgCtlR 18 true { s with bcfg := some (if recordOk r then r else zeros 0x280) }
/-- The write back of a staging copy waits: the array is to be woken, or the brown-out hold is in force (R309, R314). DEDUCED: log 36. -/
def commitWaits (s : State) : Bool := !domRuns s 79 || mramHold s
/-- BCFG_COMMIT: a staging copy that passes is written to MRAM; while the write back waits, the access comes again. An array
that is OFF or without a clock, or a supervisor core that is halted, takes none. DEDUCED: log 36. -/
def bcfgCommit (w : Word) (s : State) : State :=
  if !bcfgKey w then badKey s
  else match s.bcfg with
  | none => s
  | some r =>
    if recordOk r = false ∨ domState s 79 = 4 ∨ rdB s clkEnR 4 = false ∨ rdB s fwStateR 4 = true then wrB bcfgCtlR 20 true s
    else if commitWaits s then (if domRuns s 79 then s else beginWake 79 s)
    else wrF bcfgCtlR 20 18 (2 * rdF s bcfgCtlR 19 19) { s with mram := putBytes0 s.mram recordBase r, bcfg := none }
/-- A write of BCFG_CTL that asks for such a write back, and waits. -/
def bcfgPends (w : Word) (s : State) : Bool :=
  bitGet w 17 && bcfgKey w && commitWaits s && s.bcfg.any recordOk && !(domState s 79 == 4) && rdB s clkEnR 4 && !rdB s fwStateR 4

/-- DEDUCED: log 37. -/
def bcfgPtr (s : State) : Nat := rdF s bcfgPtrR 9 2 % 0xA0 * 4
/-- Each access of BCFG_DATA advances PTR. DEDUCED: log 37. -/
def bcfgAdvance (s : State) : State := wrF bcfgPtrR 9 2 ((bcfgPtr s / 4 + 1) % 0xA0) s
def bcfgRead (s : State) : Word × State :=
  match s.bcfg with
  | none => (0, bcfgAdvance s)
  | some r => (wordAt r (bcfgPtr s), bcfgAdvance s)
def bcfgWrite (w : Word) (s : State) : State :=
  match s.bcfg with
  | none => bcfgAdvance s
  | some r => bcfgAdvance { s with bcfg := some (r.take (bcfgPtr s) ++ leBytes 4 w.toNat ++ r.drop (bcfgPtr s + 4)) }
/-- A write of BCFG_CTL from the serial view. -/
def bcfgCtlWrite (w : Word) (s : State) : State :=
  let s := if bitGet w 16 then bcfgSetup w s else s
  if bitGet w 17 then bcfgCommit w s else s

end Sys2Proof.Machine
end

