-- ==== Sys2Proof/Machine/Bus.lean ====
section
/-! DEFINITION. Register and window accesses: the decoder, the firewall, the locks, what a write does, what a read does
(R4, R5, R291, R292, R295, R299, R378, R379, R389 to R410, R413, R478). -/
namespace Sys2Proof.Machine

/-! ### Who reaches what (R378, R395) -/

/-- The tile of an address in a tile's space. -/
def addrTile (a : Nat) : Option Nat := if 0x1000000 ≤ a ∧ a < 0x9000000 then some (a / 0x1000000 - 1) else none
/-- DEDUCED: log 100. -/
def supOnly (a : Nat) : Bool := decide (0x100000 ≤ a ∧ a < 0x200000)
def isBcfg (a : Nat) : Bool := a == bcfgCtlR || a == bcfgPtrR || a == bcfgDataR
/-- What the operator view may not write beside fields of the supervisor view and RL fields. DEDUCED: log 100. -/
def operRefused (a : Nat) : Bool :=
  decide (0x20000 ≤ a ∧ a < 0x30000) || a == clkRootSrcR || a == rootNIntR || a == rootNFracR || a == clkMonCfgR || a == refSelR
    || a == rackCtlR || decide (0xA0000 ≤ a ∧ a < 0xB0000)
/-- What the grader of a group reaches (R23): the registers of its group and of the group's ports, the windows of its group memory, and the
heartbeat area in hub SRAM (R380). DEDUCED: log 172. -/
def graderReaches (g a : Nat) : Bool :=
  let o := a % 0x1000000
  let h := g % 2
  inOperArea a || (addrTile a == some (g / 2) &&
    (o / 0x10000 == h + 1 || (decide (0x100000 ≤ o ∧ o < 0x900000) && (o / 0x100000 - 1) / 4 == h)
      || (inTakes a && (o - 0xA00000) / 0x100000 == h) || (inRushes a && (o - 0xC00000) / 0x180000 == h)))
/-- A grader's access to what it does not reach. DEDUCED: log 172. -/
def graderRefused (v : View) (a : Nat) : Bool :=
  match v with
  | .grader g => !graderReaches g.toNat a
  | _ => false
/-- The firewall refuses the access whole. -/
def viewRefused (v : View) (a : Nat) (write : Bool) : Bool :=
  graderRefused v a || (supOnly a && v != .supervisor) || (inOperArea a && (v == .pcie || v == .serial)) || (isBcfg a && v != .serial)
    || (write && a == devResetCtlR && (v == .pcie || v == .operator))

/-- The domains that an access needs in RUN: a port is reached through its tile's bridge, and the host's accesses come
through PD_PCIE. -/
def accessDomains (v : View) (a : Nat) : List Nat :=
  (match addrTile a with
   | some t => [64 + t]
   | none => []) ++ (addrDomain a).toList ++ (if v = .pcie then [76] else [])
/-- The pair of an address in a pair block. -/
def addrPair (a : Nat) : Option Nat :=
  if inPort a ∧ 0x10000 ≤ a % 0x100000 ∧ a % 0x100000 < 0x90000 then
    some (64 * (a / 0x1000000 - 1) + 8 * (a % 0x1000000 / 0x100000 - 1) + (a % 0x100000 / 0x10000 - 1))
  else none
def addrPort (a : Nat) : Option Nat :=
  if inPort a then some (8 * (a / 0x1000000 - 1) + (a % 0x1000000 / 0x100000 - 1)) else none

/-- The block's clock enable is 0 (R292). DEDUCED: log 92. -/
def accessGated (s : State) (a : Nat) : Bool :=
  let off (b : Nat) : Bool := !rdB s clkEnR b
  if 0x70000 ≤ a ∧ a < 0x80000 then off 0
  else if 0x50000 ≤ a ∧ a < 0x60000 then off 1
  else if 0x40000 ≤ a ∧ a < 0x40400 then off (2 + (a - 0x40000) / 0x200)
  else if 0x41000 ≤ a ∧ a < 0x41200 then off (2 + (outSrc s ((a - 0x41000) / 0x20) - 72))
  else if (0xA0000 ≤ a ∧ a < 0xB0000) ∨ inMramWindow a = true then off 4
  else match addrTile a with
  | some t => decide (0x2000 ≤ a % 0x1000000 ∧ a % 0x1000000 < 0x3000) && !rdB s (tileClkEnR t) 0
  | none => false
/-- The target's clock domain is held frozen (R291): a pair's line domain, a tile's root, the hub's root. DEDUCED: log 92. -/
def accessFrozen (s : State) (a : Nat) : Bool :=
  (addrPair a).any (fun l => s.muxFrozen.contains (3, l)) || (addrTile a).any (fun t => s.muxFrozen.contains (2, t))
    || (decide (0x60000 ≤ a ∧ a < 0x1000000) && s.muxFrozen.contains (0, 0))

/-- How an access is served. -/
inductive Verdict where
  | serve
  | stall
  | fail (cause : Nat)
deriving DecidableEq, Repr

/-- The place where the accesses of a view to a die queue: the hub is die 0, tile t die t + 1 (R393). -/
def dieKey (v : View) (a : Nat) : Nat := 16 * viewNum v + (match addrTile a with
  | some t => t + 1
  | none => 0)
def accessCode (a : Nat) (write : Bool) : Nat := 2 * a + b2n write
/-- An earlier access of the view to the same die stalls: it holds the later ones (R393). DEDUCED: log 176. -/
def heldBehind (s : State) (v : View) (a : Nat) (write : Bool) : Bool :=
  s.stalls.any (fun e => e.1 == dieKey v a && e.2 != accessCode a write)
/-- The access that stalled has completed. DEDUCED: log 176. -/
def stallOver (v : View) (a : Nat) (write : Bool) (s : State) : State :=
  { s with stalls := s.stalls.filter (fun e => !(e.1 == dieKey v a && e.2 == accessCode a write)) }

/-- R391, R393, R394, R395: the causes, and the stall of an access to a domain that is not in RUN or to a block in reset.
DEDUCED: log 92. -/
def verdict (s : State) (v : View) (a : Nat) (write : Bool) : Verdict :=
  if viewRefused v a write then .fail 5
  else if (addrTile a).any (fun t => (tileOf s t).resetting) then .fail 4
  else if (accessDomains v a).any (fun d => domState s d == 4) then .fail 2
  else if accessFrozen s a then .fail 3
  else if accessGated s a then .fail 1
  else if write && inTakes a then .fail 7
  else if write && (windowWord s a).isNone && !freeRead s a && (regInfo a).isNone then .fail 8
  else if heldBehind s v a write || (accessDomains v a).any (fun d => !domRuns s d) || (addrPort a).any (fun p => (portOf s p).resetting)
      || (addrPair a).any (fun l => (pairOf s l).restarting) then .stall
  else .serve

/-- A stalled access is a level wake source of the domains it needs (R299, R307). -/
def stalled (v : View) (a : Nat) (write : Bool) (s : State) : State :=
  if heldBehind s v a write then s
  else each (accessDomains v a) (fun d s => if domRuns s d then s else beginWake d s)
    { s with stalls := tabInsert s.stalls (dieKey v a) (accessCode a write) }

/-- DEDUCED: log 100. -/
def masterOf : View → Nat
  | .pcie => 8 | .serial => 9 | .operator => 0 | .supervisor => 4
  | .grader g => 0xB + g.toNat % 2
/-- An access has completed (R414). -/
def accessDone (v : View) (a : Nat) (error : Bool) (s : State) : State :=
  let e (code : Nat) : PerfEvent := { code := code, view := some v, master := some (masterOf v), addr := some a }
  let s := perfCount 0 1 (e 1) s
  let s := if error then perfCount 0 1 (e 2) s else s
  match addrTile a with
  | some t => perfCount (t + 1) 1 (e 0x20) s
  | none => s
/-- An access that is served: it no longer holds others behind it, and it counts. -/
def served (v : View) (a : Nat) (write : Bool) (s : State) : State := accessDone v a false (stallOver v a write s)
/-- A non-fatal uncorrectable error under AER: the header of the first is logged (R428). PRESUMED: log 27, the bits are those of PCI
Express: 12 poisoned, 15 Completer Abort, 20 Unsupported Request. -/
def aerNote (bit a : Nat) (write : Bool) (s : State) : State :=
  { s with pcie := { s.pcie with aer := s.pcie.aer ||| BitVec.ofNat 32 (2 ^ bit), aerHeader := s.pcie.aerHeader.or (some (a, write)) } }
/-- An access that cannot be served is logged (R396), a refusal by the firewall as R379 says; a read of the host is answered as Completer
Abort. DEDUCED: log 93. -/
def accessFails (v : View) (a cause : Nat) (write : Bool) (s : State) : State :=
  let s := if v = .pcie ∧ write = false then aerNote 15 a false s else s
  if cause = 5 then firewallRefusal v a write s else accessError v a cause write s

/-- The device takes the view's accesses: the host's only while Memory Space Enable is 1 and the function is in D0. -/
def reaches (s : State) (v : View) (a : Nat) : Bool :=
  s.mode == .running && (if v = .pcie then s.pcie.memSpace && !s.pcie.d3hot else decide (a < 0x10000000))

/-- A host request that the function does not take is answered as Unsupported Request (R425, R428). -/
def unreached (v : View) (s : State) : State := if v = .pcie ∧ s.mode = .running then emit .unsupported s else s
/-- The same, with its report under AER. -/
def unsupported (v : View) (a : Nat) (write : Bool) (s : State) : State :=
  unreached v (if v = .pcie ∧ s.mode = .running then aerNote 20 a write s else s)

/-! ### MSI-X table (R425, R426) -/

/-- A message that was held is sent once, when nothing holds it any more. DEDUCED: log 28. -/
def msixRelease (v : Nat) (s : State) : State :=
  if s.pcie.pba.contains v && s.pcie.msixEnable && !s.pcie.funcMask && s.pcie.unmasked.contains v && dmaOk s then
    emit (.msix v) { s with pcie := { s.pcie with pba := s.pcie.pba.filter (fun x => x != v) } }
  else s
/-- DEDUCED: log 28. -/
def msixReleaseAll (s : State) : State := s.pcie.pba.foldl (fun s v => msixRelease v s) s
/-- A vector's mask bit. -/
def msixMask (v : Nat) (masked : Bool) (s : State) : State :=
  let others := s.pcie.unmasked.filter (fun x => x != v)
  msixRelease v { s with pcie := { s.pcie with unmasked := if masked then others else others ++ [v] } }
def msixWrite (o : Nat) (w : Word) (s : State) : State :=
  if 0x2000 ≤ o then s
  else if o % 16 = 12 then msixMask (o / 16) (bitGet w 0) s
  else wr (bar4 o) w s

/-! ### Writes of registers -/

/-- The bits of a register that the view may not write (R378, R379). -/
def refusedBits (v : View) (a : Nat) (i : RegInfo) : Word :=
  match v with
  | .supervisor => 0
  | .operator | .grader _ => if operRefused a then allOnes else i.sup ||| i.rl
  | _ => i.sup
/-- The RL bits that a set lock bit holds (R402). -/
def lockedBits (s : State) (a : Nat) (i : RegInfo) : Word :=
  (List.range 32).foldl (fun m k => if bitGet i.rl k && rdB s lockCtlR (lockOfBit a i k) then bitPut m k true else m) 0
/-- The bits that a write can change. -/
def writeBits (i : RegInfo) : Word := i.rw ||| i.sup

/-- A register with no behaviour of its own: RW bits are written, a 1 clears a W1C bit. DEDUCED: log 93. -/
def plainWrite (i : RegInfo) (a : Nat) (w : Word) (s : State) : State :=
  wr a ((rd s a &&& ~~~(i.rw ||| (i.w1c &&& w))) ||| (w &&& i.rw)) s
/-- The word of a register after a write of its RW bits. DEDUCED: log 93. -/
def rwWord (s : State) (i : RegInfo) (a : Nat) (w : Word) : Word := (rd s a &&& ~~~i.rw) ||| (w &&& i.rw)

/-- The bits of a masked register that a write changes (R399). -/
def wmMask (w : Word) : Word := w >>> 16

/-- PORT_CTL (R410). DEDUCED: log 94. -/
def portCtlWrite (v : View) (p : Nat) (w : Word) (s : State) : State :=
  let a := portBase p
  let m := wmMask w
  if bitGet m 0 && bitGet w 0 != rdB s a 0 && (portLinks s p).any (fun l => (linkOf s l).state != .down) then accessError v a 6 true s
  else
    let s := if bitGet m 0 then wrB a 0 (bitGet w 0) s else s
    if bitGet m 1 && bitGet w 1 then portReset p s else s
/-- PAIR_CTL (R410); the link of a pair that leaves the port synthesizer's clock departs (R398). -/
def pairCtlWrite (l : Nat) (w : Word) (s : State) : State :=
  let a := pairBase l
  let m := wmMask w
  let s := if bitGet m 1 then wrB a 1 (bitGet w 1) s else s
  let s := if bitGet m 2 then
      let leaves := rdB s a 2 && !bitGet w 2
      let s := lineMux l (wrB a 2 (bitGet w 2) s)
      if leaves then linksLoseBanks (linkOfPair s l).toList s else s
    else s
  if bitGet m 0 && bitGet w 0 then pairRestart l s else s

/-- SNAP_CTL: HELD of the view, COLLIDE, GO. -/
def snapCtlWrite (v : View) (w : Word) (s : State) : State :=
  let s := wrView v snapCtlR (w &&& 2) s
  let s := if bitGet w 3 then wrB snapCtlR 3 false s else s
  if bitGet w 0 then snapGo s else s

/-- CLK_ROOT_SRC (supervisor): SEL, unless it is locked; 3 is reserved. DEDUCED: log 95. -/
def rootSrcWrite (v : View) (w : Word) (s : State) : State :=
  let src := fieldGet w 1 0
  if locked s 0 then s else if src = 3 then accessError v clkRootSrcR 8 true s else rootSelect src s
/-- CLK_EN: setting CHAIN restarts the chain port (R445). -/
def clkEnWrite (w : Word) (s : State) : State :=
  let was := rdB s clkEnR 1
  let s := wr clkEnR (w &&& 0x1F) s
  if !was && bitGet w 1 && domRuns s 77 then chainRestart s else s
/-- DEV_STRAPS: a change of the effective MGR_SEL restarts the chain port. -/
def strapsWrite (i : RegInfo) (w : Word) (s : State) : State :=
  let was := mgrSel s
  let s := plainWrite i devStrapsR w s
  if mgrSel s != was && chainRuns s then chainRestart s else s
/-- DEV_RESET_CTL (R478): the supervisor firmware takes the reset. DEDUCED: log 96. -/
def resetCtlWrite (v : View) (w : Word) (s : State) : State :=
  if w ≠ 0x15120 then accessError v devResetCtlR 8 true s else if supHalted s then s else deviceReset 3 s
/-- SP_FRAME_CONFIG: a reserved code leaves its field unchanged. -/
def frameConfigWrite (v : View) (w : Word) (s : State) : State :=
  let bad := [1, 3, 10].filter (fun k => fieldGet w (k + 1) k == 3)
  let old := rd s spFrameConfigR
  let new := bad.foldl (fun x k => fieldPut x (k + 1) k (fieldGet old (k + 1) k)) (w &&& 0xFFF)
  let s := wr spFrameConfigR new s
  if bad.isEmpty then s else accessError v spFrameConfigR 8 true s

/-- Registers of a domain block. -/
def domWrite (v : View) (i : RegInfo) (a : Nat) (w : Word) (s : State) : State :=
  if a % 0x20 = 0 then
    let (s, bad) := domCtlWrite ((a - 0x20000) / 0x20) w s
    if bad then accessError v a 8 true s else s
  else plainWrite i a w s
/-- Registers of the rack clock. -/
def rackWrite (i : RegInfo) (a : Nat) (w : Word) (s : State) : State :=
  if a < 0x40400 then
    let x := 72 + (a - 0x40000) / 0x200
    let o := a % 0x200
    if o = 0 then rackCtlWrite x w s
    else if 0x100 ≤ o then rackSlotWrite x ((o - 0x100) / 16) (o % 16 == 4) w s
    else s
  else if a < 0x41200 then
    let n := (a - 0x41000) / 0x20
    let o := a % 0x20
    if o = 0 then outCfgWrite n (rwWord s i a w) s
    else if o = 4 then outPhaseWrite n (rwWord s i a w) s
    else if o = 0xC then (if bitGet w 0 then outReturn n s else s)
    else plainWrite i a w s
  else plainWrite i a w s
/-- Registers of the rings. -/
def ringWrite (v : View) (i : RegInfo) (a : Nat) (w : Word) (s : State) : State :=
  let o := a % 0x40
  if a < 0x81000 then
    let n := (a - 0x80000) / 0x40
    if o = 8 then sqCfgWrite v n w s else ringBaseWrite (sqEnabled s n) v a w i.rw s
  else
    let n := (a - 0x81000) / 0x40
    if o = 8 then cqCfgWrite v n w s
    else if o = 0xC then plainWrite i a w s
    else ringBaseWrite (cqEnabled s n) v a w i.rw s
/-- Registers of a counter block. -/
def perfWrite (v : View) (i : RegInfo) (b o : Nat) (w : Word) (s : State) : State :=
  let a := perfBase b + o
  if o = 0 then perfCtlWrite v b w s
  else if o = 0x18 ∨ o = 0x1C ∨ o = 0x20 then perfWinWrite v b a w s
  else if 0x40 ≤ o ∧ o % 0x20 = 0 then perfSelWrite v b ((o - 0x40) / 0x20) w s
  else plainWrite i a w s
/-- Registers of a synthesizer. -/
def synWrite (i : RegInfo) (x o : Nat) (w : Word) (s : State) : State :=
  if o = 0 then synCtlWrite x w s
  else if 0x20 ≤ o ∧ o < 0x40 then synWordWrite x ((o - 0x20) / 8) (o % 8 == 4) w s
  else plainWrite i (synBase x + o) w s

/-- Registers of the hub. `step` and `diff` are what a reference switch measures. -/
def hubWrite (v : View) (i : RegInfo) (a : Nat) (w : Word) (step : BitVec 16) (diff : Word) (s : State) : State :=
  if a = snapCtlR then snapCtlWrite v w s
  else if a = lockCtlR then wr lockCtlR (rd s lockCtlR ||| (w &&& 0x1F)) s
  else if a = devStrapsR then strapsWrite i w s
  else if a = devResetCtlR then resetCtlWrite v w s
  else if a = clkRootSrcR then rootSrcWrite v w s
  else if a = clkEnR then clkEnWrite w s
  else if a = refSelR then refSelWrite w step diff s
  else if 0x20000 ≤ a ∧ a < 0x20A00 then domWrite v i a w s
  else if a = pwrPlOperR then plWrite true w s
  else if a = pwrPlGraderR then plWrite false w s
  else if a = evtBaseLoR ∨ a = evtBaseHiR ∨ a = evtRingCfgR then evtCfgWrite v (a - evtBaseLoR) w s
  else if 0x40000 ≤ a ∧ a < 0x42000 then rackWrite i a w s
  else if a = chainCtlR then chainCtlWrite w s
  else if a = spFrameConfigR then frameConfigWrite v w s
  else if a = bcfgCtlR then bcfgCtlWrite w s
  else if a = bcfgDataR then bcfgWrite w s
  else if 0x70000 ≤ a ∧ a < 0x80000 then perfWrite v i 0 (a - 0x70000) w s
  else if 0x80000 ≤ a ∧ a < 0x82000 then ringWrite v i a w s
  else if a = ldtBaseLoR ∨ a = ldtBaseHiR then ldtBaseWrite v a w i.rw s
  else if a = ldtCtlR then ldtCtlWrite w s
  else plainWrite i a w s
/-- Registers of a tile. -/
def tileWrite (v : View) (i : RegInfo) (a : Nat) (w : Word) (s : State) : State :=
  let t := a / 0x1000000 - 1
  let o := a % 0x1000000
  if o = 0 then (if bitGet w 0 then tileReset t s else s)
  else if 0x1000 ≤ o ∧ o < 0x2000 then synWrite i (64 + t) (o - 0x1000) w s
  else if 0x2000 ≤ o ∧ o < 0x3000 then perfWrite v i (t + 1) (o - 0x2000) w s
  else match addrPort a with
  | none => plainWrite i a w s
  | some p =>
    let q := o % 0x100000
    if q = 0 then portCtlWrite v p w s
    else if 0x1000 ≤ q ∧ q < 0x2000 then synWrite i p (q - 0x1000) w s
    else if 0x2000 ≤ q ∧ q < 0x4000 ∧ q % 0x400 = 0 then hlCtlWrite (8 * p + (q - 0x2000) / 0x400) (rwWord s i a w) s
    else match addrPair a with
      | some l => if q % 0x10000 = 0 then pairCtlWrite l w s else plainWrite i a w s
      | none => plainWrite i a w s
/-- BAR2 (R319): the doorbells and the mailbox, from the host. -/
def bar2Write (a : Nat) (w : Word) (s : State) : State :=
  let o := a - bar2 0
  if o < 0x40000 then sqTailWrite (o / 0x1000) w s
  else if o < 0x80000 then cqHeadWrite ((o - 0x40000) / 0x1000) w s
  else if o = 0x80000 then evtHeadWrite w s
  else if o = 0xC0000 then mailboxCtlWrite false w s
  else s
def regWrite (v : View) (i : RegInfo) (a : Nat) (w : Word) (step : BitVec 16) (diff : Word) (s : State) : State :=
  if a < 0x1000000 then hubWrite v i a w step diff s
  else if a < 0x10000000 then tileWrite v i a w s
  else bar2Write a w s

/-! ### Writes of windows -/

/-- A word of a capture area is overwritten. DEDUCED: log 98. -/
def rushWrite (a : Nat) (w : Word) (s : State) : State :=
  let (p, r) := rushPlace a
  areaPut p r ((leBytes 4 w.toNat).map some) s
/-- The word of a group's memory that a window access reads or writes (R414). -/
def windowWords (v : View) (a : Nat) (write : Bool) (s : State) : State :=
  let code := if write then 0x22 else 0x21
  let t := a / 0x1000000 - 1
  let o := a % 0x1000000
  if inTakes a then groupWords t code (masterOf v) ((o - 0xA00000) % 0x100000) 4 s
  else if inRushes a then groupWords t code (masterOf v) (0x100000 + (o - 0xC00000) % 0x180000) 4 s
  else s
/-- The supervisor's MRAM window: nothing gives where its aperture lies, so the word goes to a free place, which the
key-region lock may hold (R402). DESIGN CHOICE: log 97. -/
def mramWindowWrite (v : View) (a : Nat) (w : Word) (s : State) : State :=
  let (x, s) := draw 16 s
  let o := x.toNat % 256 * 0x10000 + a % 0x10000
  if 0x880000 ≤ o ∧ o < 0x881000 ∧ locked s 3 = true then accessError v a 6 true s
  else if mramHold s || supHalted s then s
  else { s with mram := putBytes0 s.mram o (leBytes 4 w.toNat) }
def windowWrite (v : View) (a : Nat) (w : Word) (s : State) : State :=
  if inOperArea a then { s with sram := putBytes0 s.sram a (leBytes 4 w.toNat) }
  else if inMailbox a then mailboxBufWrite (a - bar2 0xD0000) w s
  else if inMsix a then msixWrite (a - bar4 0) w s
  else if inMramWindow a then mramWindowWrite v a w s
  else if inRushes a then rushWrite a w (windowWords v a true s)
  else s

/-! ### The access -/

/-- Fields of a register with reserved codes: their bits and the first reserved code (R233, R261, R270). -/
def codeFields (a : Nat) : List (Nat × Nat × Nat) :=
  if 0x40000 ≤ a ∧ a < 0x40400 ∧ 0x100 ≤ a % 0x200 ∧ a % 16 = 0 then [(11, 9, 6)]
  else if 0x41000 ≤ a ∧ a < 0x41200 ∧ a % 0x20 = 8 then [(1, 0, 3)]
  else if (addrPort a).isSome ∧ 0x3000 ≤ a % 0x100000 ∧ a % 0x100000 < 0x4000 ∧ a % 0x400 = 0 then [(4, 0, 29)]
  else []
/-- A reserved code leaves its field unchanged; the write is logged with cause RESERVED (R395). -/
def keepReserved (v : View) (a : Nat) (cur w : Word) (s : State) : Word × State :=
  let bad := (codeFields a).filter (fun f => decide (f.2.2 ≤ fieldGet w f.1 f.2.1))
  (bad.foldl (fun x f => fieldPut x f.1 f.2.1 (fieldGet cur f.1 f.2.1)) w, if bad.isEmpty then s else accessError v a 8 true s)

/-- A write that is served: refused and locked fields keep their values, and the write is logged when it would have
changed one (R379, R403). -/
def serveWrite (v : View) (a : Nat) (w : Word) (step : BitVec 16) (diff : Word) (s : State) : State :=
  match regInfo a with
  | none => windowWrite v a w s
  | some i =>
    let cur := rd s a
    let refused := refusedBits v a i
    let held := lockedBits s a i
    let change := (w ^^^ cur) &&& writeBits i
    let s := if change &&& refused ≠ 0 then firewallRefusal v a true s
      else if change &&& held ≠ 0 then accessError v a 6 true s else s
    if refused = allOnes then s
    else
      let (w, s) := keepReserved v a cur ((w &&& ~~~(refused ||| held)) ||| (cur &&& (refused ||| held))) s
      regWrite v i a w step diff s

/-- A write of one word: what it does, and whether it has completed. -/
def writeWord (v : View) (a : Nat) (w : Word) (whole : Bool) (step : BitVec 16) (diff : Word) (s : State) : Bool × State :=
  if !reaches s v a then (true, unsupported v a true s)
  else if !whole || a % 4 != 0 then (true, accessDone v a false (accessFails v a 9 true s))
  else match verdict s v a true with
  | .fail c => (true, accessDone v a false (accessFails v a c true (stallOver v a true s)))
  | .stall => (false, stalled v a true s)
  | .serve => (true, serveWrite v a w step diff (served v a true s))

/-- A write from outside; a stalled one is made again when its row comes again. The measurements of a reference switch are
free where the row does not bring them. DEDUCED: log 5. -/
def busWrite (v : View) (a : Nat) (w : Word) (s : State) : State :=
  if a = refSelR then
    let (x, s) := draw 15 s
    (writeWord v a w true (x.setWidth 16) ((x >>> 16).setWidth 32) s).2
  else (writeWord v a w true 0 0 s).2

/-- What a read leaves: RC fields return to their reset value in the view's copy (R400), DEV_TIME_LO latches (R409),
BCFG_DATA advances (R512). -/
def afterRead (v : View) (a : Nat) (s : State) : State :=
  if a = devTimeLoR then { s with timeLatch := tabInsert s.timeLatch (viewNum v) ((s.time >>> 32).setWidth 32) }
  else if a = devTimeHiR then { s with timeLatch := tabErase s.timeLatch (viewNum v) }
  else if a = bcfgDataR then (bcfgRead s).2
  else match regInfo a with
  | some i => if i.rc = 0 then s else wrView v a ((rdView s v a &&& ~~~i.rc) ||| (i.reset &&& i.rc)) s
  | none => s

/-- The word of a read that is served. DESIGN CHOICE: log 97. -/
def readValue (v : View) (a : Nat) (s : State) : Word × State :=
  if a = bcfgDataR then ((bcfgRead s).1, s)
  else if freeRead s a then let (x, s) := draw 17 s; (x.setWidth 32, s)
  else (peek s v a, s)

/-- A read of one word: the word and whether it is an error response; none while it stalls. -/
def readWord (v : View) (a : Nat) (whole : Bool) (s : State) : Option (Word × Bool) × State :=
  if !whole || a % 4 != 0 then (some (allOnes, true), accessDone v a true (accessFails v a 9 false s))
  else match verdict s v a false with
  | .fail c => (some (allOnes, true), accessDone v a true (accessFails v a c false (stallOver v a false s)))
  | .stall => (none, stalled v a false s)
  | .serve => let (x, s) := readValue v a (windowWords v a false s); (some (x, false), served v a false (afterRead v a s))

def busRead (v : View) (a : Nat) (whole : Bool) (s : State) : State :=
  if !reaches s v a then unsupported v a false s
  else match readWord v a whole s with
  | (some (w, e), s) => emit (.readData v w e) s
  | (none, s) => s

/-- A write of one word of a register, as far as its decoding (R391, R394): whether it is served, and the state in which it is.
DEDUCED: log 20. -/
def servedAt (v : View) (a : Nat) (s : State) : Bool × State :=
  if !reaches s v a then (false, unsupported v a true s)
  else match verdict s v a true with
  | .fail c => (false, accessDone v a false (accessFails v a c true (stallOver v a true s)))
  | .stall => (false, stalled v a true s)
  | .serve => (true, served v a true s)

/-! ### The rows -/

/-- REGISTER_WRITE (R4): any register or window word; `whole` is false for another size or partial byte enables (R392).
Addresses from 2^28 up are BAR2's, from 2^28 + 2^21 up BAR4's. DEDUCED: log 99. -/
def execRegisterWrite (v : View) (a : BitVec 29) (w : Word) (whole : Bool) (s : State) : Out State :=
  .next (if whole then busWrite v a.toNat w s else (writeWord v a.toNat w false 0 0 s).2)
/-- CLEAR_ON_READ (R400): a read. DEDUCED: log 99. -/
def execClearOnRead (v : View) (a : BitVec 29) (whole : Bool) (s : State) : Out State := .next (busRead v a.toNat whole s)
/-- DEV_TIME_LO_READ (R409). -/
def execDevTimeLoRead (v : View) (s : State) : Out State := .next (busRead v devTimeLoR true s)
/-- SNAP_CTL_GO (R406); the view's HELD stays. -/
def execSnapCtlGo (v : View) (s : State) : Out State := .next (busWrite v snapCtlR (1 ||| (rdView s v snapCtlR &&& 2)) s)
/-- SNAP_CTL_HELD (R407). -/
def execSnapCtlHeld (v : View) (b : Bool) (s : State) : Out State := .next (busWrite v snapCtlR (if b then 2 else 0) s)
/-- SQ_TAIL_DOORBELL, CQ_HEAD_DOORBELL, EVENT_RING_HEAD_DOORBELL (R319, R320, R473): writes of BAR2 from the host. DEDUCED: log 20. -/
def execSqTailDoorbell (n : Ring) (w : Word) (s : State) : Out State :=
  .next (match servedAt .pcie (sqTailDb n.toNat) s with
    | (true, s) => sqTailWrite n.toNat w s
    | (false, s) => s)
/-- DEDUCED: log 20. -/
def execCqHeadDoorbell (n : Ring) (w : Word) (s : State) : Out State :=
  .next (match servedAt .pcie (cqHeadDb n.toNat) s with
    | (true, s) => cqHeadWrite n.toNat w s
    | (false, s) => s)
/-- DEDUCED: log 20. -/
def execEventRingHeadDoorbell (w : Word) (s : State) : Out State :=
  .next (match servedAt .pcie evtHeadDb s with
    | (true, s) => evtHeadWrite w s
    | (false, s) => s)
/-- SQ_CFG_WRITE, CQ_CFG_WRITE, LDT_CTL_WRITE, EVT_RING_CFG_WRITE (R318, R338, R471): writes of BAR0 by a view. DEDUCED: log 20. -/
def execSqCfgWrite (v : View) (n : Ring) (w : Word) (s : State) : Out State :=
  .next (match servedAt v (sqBase n.toNat + 8) s with
    | (true, s) => sqCfgWrite v n.toNat w s
    | (false, s) => s)
/-- DEDUCED: log 20. -/
def execCqCfgWrite (v : View) (n : Ring) (w : Word) (s : State) : Out State :=
  .next (match servedAt v (cqBase n.toNat + 8) s with
    | (true, s) => cqCfgWrite v n.toNat w s
    | (false, s) => s)
/-- DEDUCED: log 20. -/
def execLdtCtlWrite (v : View) (w : Word) (s : State) : Out State :=
  .next (match servedAt v ldtCtlR s with
    | (true, s) => ldtCtlWrite w s
    | (false, s) => s)
/-- DEDUCED: log 20. -/
def execEvtRingCfgWrite (v : View) (reg : Fin 3) (w : Word) (s : State) : Out State :=
  .next (match servedAt v (evtBaseLoR + 4 * reg.val) s with
    | (true, s) => evtCfgWrite v (4 * reg.val) w s
    | (false, s) => s)
/-- LOCK_CTL_WRITE (R401). -/
def execLockCtlWrite (v : View) (w : Word) (s : State) : Out State := .next (busWrite v lockCtlR w s)
/-- PORT_RESET, PAIR_SWAP_WRITE, PAIR_RESTART, TX_DISABLE_WRITE, CLK_SYN_WRITE, TILE_RESET (R301, R410, R477). -/
def execPortReset (v : View) (p : Port) (s : State) : Out State := .next (busWrite v (portBase p.toNat) 0x20002 s)
def execPairSwapWrite (v : View) (p : Port) (b : Bool) (s : State) : Out State :=
  .next (busWrite v (portBase p.toNat) (if b then 0x10001 else 0x10000) s)
def execPairRestart (v : View) (l : Pair) (s : State) : Out State := .next (busWrite v (pairBase l.toNat) 0x10001 s)
def execTxDisableWrite (v : View) (l : Pair) (b : Bool) (s : State) : Out State :=
  .next (busWrite v (pairBase l.toNat) (if b then 0x20002 else 0x20000) s)
def execClkSynWrite (v : View) (l : Pair) (b : Bool) (s : State) : Out State :=
  .next (busWrite v (pairBase l.toNat) (if b then 0x40004 else 0x40000) s)
def execTileReset (v : View) (t : Tile) (s : State) : Out State := .next (busWrite v (tileBase t.toNat) 1 s)
/-- DEV_RESET_CTL_WRITE (R478). -/
def execDevResetCtlWrite (v : View) (w : Word) (s : State) : Out State := .next (busWrite v devResetCtlR w s)
/-- CHAIN_RESTART (R445): CHAIN_CTL.RESTART; its other causes are within the rows that bring them. -/
def execChainRestart (v : View) (s : State) : Out State := .next (busWrite v chainCtlR 1 s)
/-- REF_SEL_WRITE (R250), with the phase step in ps and the frequency difference that the switch measures (R251). -/
def execRefSelWrite (v : View) (w : Word) (step : BitVec 16) (diff : Word) (s : State) : Out State :=
  .next (writeWord v refSelR w true step diff s).2
/-- SYN_SLOT_WRITE (R240), SYN_BW_WRITE, SYN_PREDIV_WRITE (R258): one field of SYN_CTL, PLL index 0 to 71; a rack PLL has none. -/
def synField (v : View) (i hi lo x : Nat) (s : State) : State :=
  if i < 72 then busWrite v (synCtl i) (fieldPut (rd s (synCtl i)) hi lo x) s else s
/-- DEDUCED: log 46. -/
def execSynSlotWrite (v : View) (i : Pll) (k : BitVec 2) (s : State) : Out State := .next (synField v i.val 5 4 k.toNat s)
/-- DEDUCED: log 46. -/
def execSynBwWrite (v : View) (i : Pll) (bw : BitVec 2) (s : State) : Out State := .next (synField v i.val 7 6 bw.toNat s)
/-- DEDUCED: log 46. -/
def execSynPredivWrite (v : View) (i : Pll) (m1 : BitVec 4) (s : State) : Out State := .next (synField v i.val 3 0 m1.toNat s)
/-- SYN_SLOT_WORD_WRITE (R239): N_INT, or N_FRAC, of a hop slot. -/
def synSlotWord (v : View) (i k : Nat) (frac : Bool) (w : Word) (s : State) : State :=
  if i < 72 then busWrite v (synSlotR i k + (if frac then 4 else 0)) w s else s
def execSynSlotWordWrite (v : View) (i : Pll) (k : BitVec 2) (frac : Bool) (w : Word) (s : State) : Out State :=
  .next (synSlotWord v i.val k.toNat frac w s)
/-- RC_SLOT_WRITE (R265): RC_CTL.SLOT, or a word of a rack slot, of OSA or OSB. -/
def execRcSlotWrite (v : View) (osb : Bool) (k : BitVec 4) (word : Option (Bool × Word)) (s : State) : Out State :=
  let i := 72 + b2n osb
  .next (match word with
    | none => busWrite v (rackCtl i) (fieldPut (rd s (rackCtl i)) 3 0 k.toNat) s
    | some (frac, w) => busWrite v (rackSlotR i k.toNat + (if frac then 4 else 0)) w s)
/-- RC_ENABLE_WRITE (R264). -/
def execRcEnableWrite (v : View) (osb b : Bool) (s : State) : Out State :=
  .next (busWrite v (rackCtl (72 + b2n osb)) (bitPut (rd s (rackCtl (72 + b2n osb))) 4 b) s)
/-- OUT_DIV_PHASE_WRITE (R268): OUT_CFG.DIV_M1, or OUT_PHASE.PHASE. -/
def execOutDivPhaseWrite (v : View) (n : BitVec 4) (phase : Bool) (x : BitVec 12) (s : State) : Out State :=
  .next (if phase then busWrite v (outBase n.toNat + 4) (fieldPut (rd s (outBase n.toNat + 4)) 11 0 x.toNat) s
    else busWrite v (outBase n.toNat) (fieldPut (rd s (outBase n.toNat)) 19 8 x.toNat) s)
/-- OUT_FMT_SRC_WRITE (R268). -/
def execOutFmtSrcWrite (v : View) (n : BitVec 4) (fmt : BitVec 2) (src : Bool) (s : State) : Out State :=
  .next (busWrite v (outBase n.toNat) (fieldPut (fieldPut (rd s (outBase n.toNat)) 2 1 fmt.toNat) 0 0 (b2n src)) s)
/-- OUT_CTL_RETURN (R279). DEDUCED: log 81. -/
def execOutCtlReturn (v : View) (n : BitVec 4) (s : State) : Out State := .next (busWrite v (outBase n.toNat + 0xC) 1 s)
/-- OUT_SPREAD_WRITE (R271). -/
def execOutSpreadWrite (v : View) (n : BitVec 4) (w : Word) (s : State) : Out State := .next (busWrite v (outBase n.toNat + 8) w s)
/-- HL_CTL_WRITE (R230). -/
def execHlCtlWrite (v : View) (n : Lane) (w : Word) (s : State) : Out State := .next (busWrite v (hlCtl n.toNat) w s)
/-- PWR_TARGET_WRITE (R317): PWR_DOM_CTL whole. -/
def execPwrTargetWrite (v : View) (d : Domain) (w : Word) (s : State) : Out State := .next (busWrite v (domBase d.val) w s)
/-- PWR_PL_WRITE (R313). -/
def execPwrPlWrite (v : View) (oper : Bool) (w : Word) (s : State) : Out State :=
  .next (busWrite v (if oper then pwrPlOperR else pwrPlGraderR) w s)
/-- PERF_CTL_CLEAR (R411), PERF_CTL_WIN_ARM (R419): the bit beside EN and FREEZE as they are. -/
def execPerfCtlClear (v : View) (b : Fin 9) (s : State) : Out State :=
  .next (busWrite v (perfBase b.val) ((rd s (perfBase b.val) &&& 3) ||| 4) s)
def execPerfCtlWinArm (v : View) (b : Fin 9) (s : State) : Out State :=
  .next (busWrite v (perfBase b.val) ((rd s (perfBase b.val) &&& 3) ||| 8) s)
/-- PERF_CTL_EN_FREEZE (R411). -/
def execPerfCtlEnFreeze (v : View) (b : Fin 9) (en freeze : Bool) (s : State) : Out State :=
  .next (busWrite v (perfBase b.val) (fields [(0, b2n en), (1, b2n freeze)]) s)
/-- PERF_SEL_WRITE (R413). -/
def execPerfSelWrite (v : View) (b : Fin 9) (n : BitVec 3) (w : Word) (s : State) : Out State :=
  .next (busWrite v (perfSel b.val n.toNat) w s)

/-- ACCESS_STALL_TIMEOUT (R394): an access that still stalls ends with an error response, or is dropped. -/
def stallTimeout (v : View) (a : Nat) (write : Bool) (s : State) : State :=
  if reaches s v a && verdict s v a write == .stall then
    let s := if v = .pcie ∧ write = false then aerNote 15 a false s else s
    let s := accessDone v a (!write) (accessError v a 0xA write (stallOver v a write s))
    if write then s else emit (.readData v allOnes true) s
  else s

end Sys2Proof.Machine
end

