-- ==== Sys2Proof/Machine/CmdEvent.lean ====
section
/-! DEFINITION. The EVENT commands (R365, R369). -/
namespace Sys2Proof.Machine

/-- EVT_SUBSCRIBE (R369): replaces the subscription and restarts the ring; LOG2SIZE 0 disables it. -/
def opEvtSubscribe : OpSpec := { opcode := 0x0C01, classes := [0], lens := [24] }
def evtSubscribeBad (c : Cmd) : Bool :=
  let n := leAt c.params 8 1
  decide (leAt c.params 0 8 % 4096 ≠ 0) || !(n == 0 || decide (4 ≤ n ∧ n ≤ 16)) || leAt c.params 9 1 != 0
    || decide (511 < leAt c.params 10 2) || leAt c.params 12 4 != 0
def actEvtSubscribe (c : Cmd) (e : Nat) (s : State) : State :=
  if evtSubscribeBad c then complete e stBadParam [] s
  else
    let n := leAt c.params 8 1
    let s := wrWide evtBaseLoR 64 (leAt c.params 0 8) (wrWide evtClassLoR 64 (leAt c.params 16 8) s)
    let s := wrF evtRingCfgR 4 0 n (wrF evtRingCfgR 16 8 (leAt c.params 10 2) s)
    complete e stOk [] (if n = 0 then s else evtRestart s)
def execEvtSubscribe (c : Cmd) (s : State) : Out State := .next (command opEvtSubscribe c (actEvtSubscribe c) s)

/-- a is at or after b, by the wrap-safe rule of R50 modulo 2^32. -/
def seqGe (a b : Word) : Bool := decide ((a - b).toNat < 2 ^ 31)

/-- The oldest and the newest SEQ that the log holds; an empty log names the next SEQ and its predecessor (R369). -/
def logOldest (s : State) : Word := match s.evt.log.head? with
  | some r => r.seq
  | none => s.evt.seq + 1
def logNewest (s : State) : Word := match s.evt.log.getLast? with
  | some r => r.seq
  | none => s.evt.seq

/-- A logged record as EVT_READ_LOG returns it (R474): one whose CRC fails carries CODE 0xFFFF. -/
def logBytes (s : State) (r : EvRec) : List Byte :=
  evBytes (if s.evt.logBad.contains r.seq then { r with code := 0xFFFF } else r) false false

/-- EVT_READ_LOG (R369). DEDUCED: log 15. DEDUCED: log 23. -/
def opEvtReadLog (c : Cmd) : OpSpec :=
  { opcode := 0x0C02, classes := [0], lens := [8], maxResult := 8 + 32 * min 2047 (leAt c.params 4 2) }
def actEvtReadLog (c : Cmd) (e : Nat) (s : State) : State :=
  let first := BitVec.ofNat 32 (leAt c.params 0 4)
  let max := leAt c.params 4 2
  if max = 0 ∨ 2047 < max ∨ leAt c.params 6 2 ≠ 0 then complete e stBadParam [] s
  else if !mramReady s then complete e stNotReady [] s
  else if !seqGe first (logOldest s) then complete e stRange [] s
  else
    let recs := (s.evt.log.filter (fun r => seqGe r.seq first)).take max
    complete e stOk (leBytes 4 (logOldest s).toNat ++ leBytes 4 (logNewest s).toNat
      ++ recs.flatMap (logBytes s)) s
def execEvtReadLog (c : Cmd) (s : State) : Out State := .next (command (opEvtReadLog c) c (actEvtReadLog c) s)

end Sys2Proof.Machine
end

