-- ==== Sys2Proof/Machine/CmdTake.lean ====
section
/-! DEFINITION. The TAKE commands other than TAKE_POLICY (R102, R106, R108, R112, R115, R120, R123, R125, R354 to R356). -/
namespace Sys2Proof.Machine

/-- The link of the pair that a command addresses. -/
def cmdLink (s : State) (c : Cmd) : Nat := (linkOfPair s c.idx.toNat).getD c.idx.toNat

/-! ### TAKE_LIST, TAKE_READ -/

/-- The summary of a slot. -/
def slotEntry (s : State) (l k : Nat) : List Byte :=
  let t := takeAt s l k
  if slotCode s l k = slEmpty then zeros 16
  else leBytes 1 (tkSource t) ++ leBytes 1 (tkMode t) ++ leBytes 1 (tkDir t) ++ zeros 1 ++ leBytes 4 (tkId t)
    ++ leBytes 4 (tkSfCreated t) ++ leBytes 2 (leAt t 0xE 2) ++ zeros 2
def listEntry (s : State) (l : Nat) : List Byte :=
  leBytes 1 (l % 8) ++ zeros 3 ++ leBytes 4 (rd s (slotStateR l)).toNat ++ (List.range 8).flatMap (slotEntry s l)
def opTakeList : OpSpec := { opcode := 0x0301, classes := [4], lens := [0], maxResult := 1096, need := .pair }
def actTakeList (c : Cmd) (e : Nat) (s : State) : State :=
  let ps := linkPairs s (cmdLink s c)
  complete e stOk (leBytes 2 ps.length ++ zeros 6 ++ ps.flatMap (listEntry s)) s
def execTakeList (c : Cmd) (s : State) : Out State := .next (command opTakeList c (actTakeList c) s)

/-- The window of TAKE_READ: its length. -/
def readLen (p : List Byte) : Nat :=
  if leAt p 2 2 = 0 then 4096 - 16 * leAt p 1 1 else 16 * leAt p 2 2
def opTakeRead (c : Cmd) : OpSpec :=
  { opcode := 0x0302, classes := [4], lens := [4], maxResult := min 4096 (readLen c.params), need := .pair }
/-- DEDUCED: log 62. -/
def actTakeRead (c : Cmd) (e : Nat) (s : State) : State :=
  let l := c.idx.toNat
  let k := leAt c.params 0 1
  let off := 16 * leAt c.params 1 1
  match firstBad [
    (7 < k, stBadParam), (4096 < off + readLen c.params, stRange), (slotCode s l k == slEmpty, stNotReady)] with
  | some st => complete e st [] s
  | none => complete e stOk (((takeAt s l k).drop off).take (readLen c.params)) (takeWords 0x21 0 l k (readLen c.params) s)
def execTakeRead (c : Cmd) (s : State) : Out State := .next (command (opTakeRead c) c (actTakeRead c) s)

/-! ### TAKE_WRITE, TAKE_VERIFY -/

def opTakeWrite (c : Cmd) : OpSpec :=
  { opcode := 0x0303, level := .expert, classes := [4], lens := [if (leAt c.params 1 1).testBit 0 then 8 else 4104],
    maxResult := 4, need := .pair }
/-- The image is written into a slot that may take it. -/
def takeStore (c : Cmd) (e k : Nat) (s : State) : State :=
  let l := c.idx.toNat
  let opt := leAt c.params 1 1
  let prev := slotCode s l k
  if opt.testBit 0 then complete e stOk (leBytes 1 k ++ leBytes 1 prev ++ zeros 2) (clearSlot l k s)
  else
    let s := takeWords 0x22 0 l k 4096 (writeTake l k (c.params.drop 8) s)
    if opt.testBit 1 then keepRunning e k (askVerify l k 1 e prev s)
    else complete e stOk (leBytes 1 k ++ leBytes 1 prev ++ zeros 2) s
/-- A slot that awaits the next joined cut of a stepped training may take the host's own take (R181): its wait ends until the take has
passed verification, and begins again with the next superframe. -/
def stepSlot (s : State) (l k m : Nat) : Bool :=
  let x := linkOf s m
  x.state == .train && x.hold && (pairOf s l).cut.any (fun c => c.await && c.slot == k && (c.purpose == 1 || c.purpose == 4))
def stepRelease (l k : Nat) (s : State) : State :=
  setSlot l k slVerified false (modPair l (fun p => { p with cut := none }) s)
def actTakeWrite (c : Cmd) (e : Nat) (s : State) : State :=
  let l := c.idx.toNat
  let k := leAt c.params 0 1
  let opt := leAt c.params 1 1
  if (7 < k ∧ k ≠ 0xFF) ∨ 3 ≤ opt ∨ leAt c.params 2 6 ≠ 0 ∨ (opt = 1 ∧ k = 0xFF) then complete e stBadParam [] s
  else if k = 0xFF then
    match anySlot s l with
    | none => complete e stStoreFull [] s
    | some j => if loaderHas s l j then complete e stBusy [] s else takeStore c e j s
  else
    let s' := if stepSlot s l k (cmdLink s c) then stepRelease l k s else s
    match firstBad [
      (loaderHas s l k, stBusy), (slotCode s' l k == slScheduled || slotCode s' l k == slActive, stRefused)] with
    | some st => complete e st [] s
    | none => takeStore c e k s'
def execTakeWrite (c : Cmd) (s : State) : Out State := .next (command (opTakeWrite c) c (actTakeWrite c) s)

def opTakeVerify : OpSpec :=
  { opcode := 0x0304, level := .expert, classes := [4], lens := [4], maxResult := 4, need := .pair }
def actTakeVerify (c : Cmd) (e : Nat) (s : State) : State :=
  let l := c.idx.toNat
  let k := leAt c.params 0 1
  match firstBad [
    (7 < k || !zeroFrom c.params 1, stBadParam), (slotCode s l k == slEmpty, stNotReady),
    (slotCode s l k == slScheduled || slotCode s l k == slActive, stRefused)] with
  | some st => complete e st [] s
  | none => keepRunning e k (askVerify l k 0 e 0 s)
def execTakeVerify (c : Cmd) (s : State) : Out State := .next (command opTakeVerify c (actTakeVerify c) s)

/-! ### TAKE_CUT (R112, R123, R356) -/

def opTakeCut : OpSpec :=
  { opcode := 0x0305, level := .expert, classes := [4], lens := [8], maxResult := 8, need := .pair }

/-- The pair's SCHEDULED slot is cancelled: its own TAKE_CUT ends ABORTED, reason CANCELLED. -/
def cancelCut (l e : Nat) (s : State) : State :=
  match (pairOf s l).cut with
  | none => complete e stNotReady [] s
  | some c => complete e stOk (cutResult c.sf 0 c.slot) (cutAbort l 0x0C s)

/-- A COMPAT take breaks R125: it changes what a cut after training must keep. -/
def breaksCompat (s : State) (l k : Nat) : Bool :=
  match activeTake s l with
  | some a => compatFixed a != compatFixed (takeAt s l k)
  | none => true

/-- The cut is set once every check has passed but that of S. -/
def cutSet (l k m : Nat) (at' join await : Bool) (want : Word) (e : Nat) (s : State) : State :=
  let now := curSf s l
  let fdx := isFdx (modeOf s m)
  let coord := fdx && (join || txDiffers s l k)
  let first := if coord then nextOdd now + BitVec.ofNat 32 (linkOf s m).pol.txLead else now + 2
  let sf := if at' then want else first
  let ahead := sfFuture sf now && decide (sfDiff first now ≤ sfDiff sf now)
  if await then keepRunning e k (setCut l { slot := k, await := true, etag := some e } s)
  else if !ahead then complete e stRange [] s
  else
    let s := keepRunning e k s
    if coord then coordCut l k 0 sf join (some e) s else setCut l { slot := k, sf := sf, etag := some e } s

def actTakeCut (c : Cmd) (e : Nat) (s : State) : State :=
  let l := c.idx.toNat
  let m := cmdLink s c
  let x := linkOf s m
  let k := leAt c.params 0 1
  let opt := leAt c.params 1 1
  let at' := opt.testBit 0
  let join := opt.testBit 1
  let await := opt.testBit 2
  let compat := isCompat (modeOf s m)
  if 16 ≤ opt ∨ leAt c.params 2 2 ≠ 0 then complete e stBadParam [] s
  else if opt.testBit 3 then cancelCut l e s
  else match firstBad [
    (7 < k || (await && (at' || join)) || (compat && (join || await)), stBadParam),
    (!(x.state == .up || x.heldAt) || slotCode s l k == slEmpty, stNotReady), ((pairOf s l).cut.isSome, stBusy),
    (slotCode s l k != slVerified, stNotReady),
    ((compat && breaksCompat s l k) || (!compat && !await && (join || txDiffers s l k) && linkMismatch s m), stRefused)] with
  | some st => complete e st [] s
  | none => cutSet l k m at' join await (BitVec.ofNat 32 (leAt c.params 4 4)) e s
def execTakeCut (c : Cmd) (s : State) : Out State := .next (command opTakeCut c (actTakeCut c) s)

/-! ### TAKE_GRADE -/

def opTakeGrade : OpSpec := { opcode := 0x0306, classes := [4], lens := [0, 4], maxResult := 6, need := .pair }
/-- DEDUCED: log 68. -/
def actTakeGrade (c : Cmd) (e : Nat) (s : State) : State :=
  let l := c.idx.toNat
  match firstBad [
    (1 < leAt c.params 0 1 || !zeroFrom c.params 1, stBadParam),
    ((linkOf s (cmdLink s c)).state != .up || !graderOn s (groupOf l), stNotReady), (hasRun s l, stBusy)] with
  | some st => complete e st [] s
  | none => queueRun l 1 e (leAt c.params 0 1 == 1) (keepRunning e l s)
def execTakeGrade (c : Cmd) (s : State) : Out State := .next (command opTakeGrade c (actTakeGrade c) s)

end Sys2Proof.Machine
end

