-- ==== Sys2Proof/Machine/CmdStore.lean ====
section
/-! DEFINITION. The STORE commands (R142, R309, R365, R366). -/
namespace Sys2Proof.Machine

/-! ### CONT_LIST -/

/-- The summary of the record at a place. -/
def contEntry (i : Nat) (r : List Byte) : List Byte :=
  leBytes 2 i ++ (r.drop 6).take 2 ++ (r.drop 8).take 8 ++ (r.drop 0x14).take 4 ++ (r.drop 0x11).take 1
    ++ leBytes 1 (b2n (!contValid r)) ++ zeros 6
def contListMax (c : Cmd) : Nat := leAt c.params 2 2
/-- DEDUCED: log 15. -/
def opContList (c : Cmd) : OpSpec :=
  { opcode := 0x0901, classes := [0], lens := [4], maxResult := 8 + 24 * contListMax c }
def contListResult (c : Cmd) (s : State) : List Byte :=
  let valid := (s.contRecs.filter (fun e => contValid e.2)).length
  let es := (s.contRecs.filter (fun e => decide (leAt c.params 0 2 ≤ e.1))).take (contListMax c)
  leBytes 2 valid ++ zeros 2 ++ leBytes 4 s.contUse.toNat ++ es.flatMap (fun e => contEntry e.1 e.2)
def actContList (c : Cmd) (e : Nat) (s : State) : State :=
  match firstBad [(contListMax c == 0 || decide (2048 < contListMax c), stBadParam), (!mramReady s, stNotReady)] with
  | some st => complete e st [] s
  | none => complete e stOk (contListResult c s) s
def execContList (c : Cmd) (s : State) : Out State := .next (command (opContList c) c (actContList c) s)

/-! ### CONT_READ, CONT_DELETE -/

/-- The layout of the two ways to name a record; a byte that the way does not use must be 0. -/
def contNameBad (p : List Byte) : Bool :=
  match leAt p 0 1 with
  | 0 => leAt p 1 1 != 0 || !zeroFrom p 4
  | 1 => leAt p 3 1 != 0
  | _ => true
/-- The place of the record that is named; none where there is none. DEDUCED: log 65. -/
def contNamed (p : List Byte) (s : State) : Option Nat :=
  if leAt p 0 1 = 0 then (if contPresent s (leAt p 2 2) then some (leAt p 2 2) else none)
  else contFind s (leAt p 4 8) (leAt p 2 1) (leAt p 1 1)

def opContRead : OpSpec := { opcode := 0x0902, classes := [0], lens := [12], maxResult := 512 }
/-- DEDUCED: log 65. -/
def actContRead (c : Cmd) (e : Nat) (s : State) : State :=
  if contNameBad c.params then complete e stBadParam [] s
  else match contNamed c.params s with
  | none => complete e (if mramReady s then stRange else stNotReady) [] s
  | some i =>
    if !mramReady s then complete e stNotReady [] s
    else if contValid (contBytes s i) then complete e stOk (contBytes s i) s
    else complete e stChecksum (contBytes s i) (contBadRead s)
def execContRead (c : Cmd) (s : State) : Out State := .next (command opContRead c (actContRead c) s)

def opContDelete : OpSpec := { opcode := 0x0903, classes := [0], lens := [12] }
/-- The deletion is a write of the MRAM: it waits while writes are held (R314). DEDUCED: log 65. -/
def actContDelete (c : Cmd) (e : Nat) (s : State) : State :=
  let all := leAt c.params 0 1 == 2
  if (if all then !zeroFrom c.params 1 else contNameBad c.params) then complete e stBadParam [] s
  else if !all && mramReady s && (contNamed c.params s).isNone then complete e stRange [] s
  else if !mramReady s then complete e stNotReady [] s
  else if mramHold s then s
  else if all then complete e stOk [] { s with contRecs := [] }
  else match contNamed c.params s with
  | none => s
  | some i => complete e stOk [] { s with contRecs := tabErase s.contRecs i }
def execContDelete (c : Cmd) (s : State) : Out State := .next (command opContDelete c (actContDelete c) s)

/-! ### CAL_RECORD_READ -/

/-- The pair is a parameter; it must belong to a configured link (R344). DEDUCED: log 129. -/
def opCalRecordRead : OpSpec := { opcode := 0x0904, classes := [0], lens := [4], maxResult := 320 }
/-- DEDUCED: log 129. -/
def actCalRecordRead (c : Cmd) (e : Nat) (s : State) : State :=
  let l := leAt c.params 0 2
  let band := leAt c.params 2 1
  if leAt c.params 3 1 ≠ 0 then complete e stBadParam [] s
  else if l < 512 ∧ (linkOfPair s l).isNone then complete e stNoUnit [] s
  else match firstBad [(511 < l || 3 < band, stRange), (!mramReady s, stNotReady)] with
  | some st => complete e st [] s
  | none =>
    let (r, s) := calRead l band s
    complete e (if r.isSome then stOk else stChecksum) (calRecord l band) s
def execCalRecordRead (c : Cmd) (s : State) : Out State := .next (command opCalRecordRead c (actCalRecordRead c) s)

end Sys2Proof.Machine
end

