-- ==== Sys2Proof/Machine/Serial.lean ====
section
/-! DEFINITION. The clocked serial port: its frames, posted writes and held reads (R394, R432 to R443), and the accesses of
board setup (R512). A frame is one command: it carries the words that crossed the lanes before it ended. -/
namespace Sys2Proof.Machine

def modSp (f : SpSt → SpSt) (s : State) : State := { s with sp := f s.sp }

/-! ### Board setup -/

/-- BCFG_SETUP and BCFG_COMMIT write BCFG_CTL, with the bit that each stands for. -/
def execBcfgSetup (w : Word) (s : State) : Out State := .next (busWrite .serial bcfgCtlR (bitPut w 16 true) s)
def execBcfgCommit (w : Word) (s : State) : Out State := .next (busWrite .serial bcfgCtlR (bitPut (bitPut w 16 false) 17 true) s)
/-- BCFG_DATA_ACCESS: a write with a word, else a read. -/
def bcfgAccess (write : Option Word) (s : State) : State :=
  match write with
  | some w => busWrite .serial bcfgDataR w s
  | none => busRead .serial bcfgDataR true s
def execBcfgDataAccess (write : Option Word) (s : State) : Out State := .next (bcfgAccess write s)

/-! ### The phases of a frame on its lanes (R432, R433) -/

/-- One, two or four lanes. -/
def lanesOf (code : Nat) : Nat := if code = 2 then 4 else if code = 1 then 2 else 1
def dataLanes (s : State) : Nat := lanesOf (rdF s spFrameConfigR 11 10)
/-- The lanes of a byte in each cycle, highest bits first: SIO_0 (from the device SIO_1) alone, SIO_1 and SIO_0, or SIO_3 to SIO_0. -/
def byteCycles (lanes : Nat) (b : Byte) : List Nat :=
  (List.range (8 / lanes)).map (fun c => bitsOf b.toNat (7 - c * lanes) (8 - (c + 1) * lanes))
/-- The command byte: [7:6] the operation, [5:0] the window index, or WRITE and the reserved bits. -/
def commandByte : SpFrame → Byte
  | .windowedRead i _ _ => i.setWidth 8
  | .windowedWrite i _ => 0x40 ||| i.setWidth 8
  | .addressedRead z _ _ _ => 0x80 ||| z.setWidth 8
  | .addressedWrite z _ _ => 0xA0 ||| z.setWidth 8
  | .status => 0xC0
/-- The address as sent: none, 16 or 32 bits, most significant byte first. -/
def addressBytes (s : State) (a : Word) : List Byte :=
  let n := rdF s spFrameConfigR 2 1
  (leBytes (if n = 0 then 0 else if n = 1 then 2 else 4) a.toNat).reverse
/-- The dummy cycles of a read: at least 2 with two or four data lanes. -/
def dummyCycles (s : State) : Nat :=
  let d := rdF s spFrameConfigR 9 5
  if 2 ≤ dataLanes s then max 2 d else d
/-- SCK cycles of the command, address, dummy and data phases of a frame. -/
def framePhases (s : State) (f : SpFrame) : List Nat :=
  let cmd := 8 / (if rdB s spFrameConfigR 0 then dataLanes s else 1)
  let addr (a : Word) : Nat := 8 * (addressBytes s a).length / lanesOf (rdF s spFrameConfigR 4 3)
  let data (n : Nat) : Nat := 32 * n / dataLanes s
  match f with
  | .windowedRead _ n _ => [cmd, 0, dummyCycles s, data n.toNat]
  | .windowedWrite _ ws => [cmd, 0, 0, data ws.length]
  | .addressedRead _ a n _ => [cmd, addr a, dummyCycles s, data n.toNat]
  | .addressedWrite _ a ws => [cmd, addr a, 0, data ws.length]
  | .status => [cmd, 0, b2n (rdB s spFrameConfigR 0), 8]

/-! ### What a frame addresses (R434 to R436) -/

/-- A word of a frame: a BAR0 address, a register of the port itself by its index, a word beyond the window, or one beyond
BAR0. -/
inductive SpItem where
  | bar (a : Nat)
  | own (i : Nat)
  | outside
  | beyond
deriving DecidableEq, Repr

/-- BASE × 4. -/
def spBase (s : State) : Nat := (rd s windowBaseR).toNat % 2 ^ 28 / 4 * 4
/-- The item of a BAR0 address: the port's registers are within the port. DESIGN CHOICE: log 32. -/
def spItem (a : Nat) : SpItem :=
  if 0x10000000 ≤ a then .beyond
  else if a = windowBaseR then .own 56 else if a = spFrameConfigR then .own 57 else if a = spStatusR then .own 58 else .bar a
/-- The items of a windowed frame's words, and of an addressed one's. DEDUCED: log 31. -/
def windowItem (s : State) (i j : Nat) : SpItem :=
  if i = 61 ∨ i = 63 then .own i
  else if 56 ≤ i then (if j = 0 then .own i else .outside)
  else if 55 < i + j then .outside else spItem (spBase s + 4 * (i + j))
def spStart (s : State) (address : Word) : Nat :=
  let k := rdF s spFrameConfigR 2 1
  (if k = 0 then spBase s else if k = 1 then spBase s + address.toNat % 0x10000 else address.toNat) / 4 * 4
def frameItems (addressed : Bool) (start n : Nat) (s : State) : List SpItem :=
  (List.range n).map (fun j => if addressed then spItem (spStart s (BitVec.ofNat 32 start) + 4 * j) else windowItem s start j)

/-- Bits of SP_STATUS. -/
def spFlag (k : Nat) (s : State) : State := wrB spStatusR k true s
def spOverrun (s : State) : State := spFlag 0 s
/-- DESIGN CHOICE: log 32. -/
def spAddrErr (s : State) : State := spFlag 1 s
def spBusErr (s : State) : State := spFlag 2 s
def spLate (s : State) : State := spFlag 3 s

/-! ### The port's own registers (R435) -/

/-- DEDUCED: log 31. -/
def ownRead (i : Nat) (s : State) : Word × State :=
  if i < 59 then (peek s .serial (windowBaseR + 4 * (i - 56)), s)
  else if i = 59 then (peek s .serial mailboxCtlR, s)
  else if i = 60 then (BitVec.ofNat 32 s.cmd.mboxWptr, s)
  else if i = 62 then (BitVec.ofNat 32 s.cmd.mboxRptr, s)
  else if i = 63 then mboxRdata s
  else (0, s)
/-- DEDUCED: log 31. -/
def ownWrite (i : Nat) (w : Word) (s : State) : State :=
  if i < 59 then serveWrite .serial (windowBaseR + 4 * (i - 56)) w 0 0 s
  else if i = 59 then mailboxCtlWrite true w s
  else if i = 60 then modCmd (fun c => { c with mboxWptr := fieldGet w 11 2 * 4 }) s
  else if i = 61 then mboxWdata w s
  else if i = 62 then modCmd (fun c => { c with mboxRptr := fieldGet w 11 2 * 4 }) s
  else s

/-! ### Write frames (R436, R440) -/

/-- A word for the hub is queued; a word that finds the queue full is discarded and sets DROP. -/
def spPost (a : Nat) (w : Word) (s : State) : State :=
  modSp (fun x => if x.queue.length < 1024 then { x with queue := x.queue ++ [(a, w)] } else { x with drop := true }) s
def writeItem (x : SpItem × Word) (s : State) : State :=
  match x.1 with
  | .bar a => spPost a x.2 s
  | .own i => ownWrite i x.2 s
  | .outside => spOverrun s
  | .beyond => spAddrErr s
def writeFrame (addressed : Bool) (start : Nat) (ws : List Word) (s : State) : State :=
  ((frameItems addressed start ws.length s).zip ws).foldl (fun s x => writeItem x s) (modSp (fun x => { x with hold := none }) s)

/-! ### Read frames (R434, R438) -/

/-- A read frame in progress: its bytes, the words that have been read, and the addresses that are late. -/
structure ReadRun where
  bytes : List Byte := []
  words : List Word := []
  todo : List Nat := []
  late : Bool := false

/-- DEDUCED: log 34. -/
def freeWord (s : State) : List Byte × State :=
  let (x, s) := draw 18 s
  (leBytes 4 x.toNat, s)
def freeWords : Nat → State → List Byte × State
  | 0, s => ([], s)
  | n + 1, s => let (b, s) := freeWord s; let (r, s) := freeWords n s; (b ++ r, s)
/-- A word of a frame whose bytes have no defined value; up to 16 late reads go on in the background. -/
def readLate (x : SpItem) (r : ReadRun) (s : State) : ReadRun × State :=
  let (b, s) := freeWord s
  match x with
  | .bar a => ({ r with bytes := r.bytes ++ b, late := true, todo := if r.todo.length < 16 then r.todo ++ [a] else r.todo }, spLate s)
  | .own _ => ({ r with bytes := r.bytes ++ b, late := true }, spLate s)
  | .outside => ({ r with bytes := r.bytes ++ b }, spOverrun s)
  | .beyond => ({ r with bytes := r.bytes ++ b }, spAddrErr s)
/-- A word that comes in time. -/
def readGive (w : Word) (r : ReadRun) : ReadRun := { r with bytes := r.bytes ++ leBytes 4 w.toNat, words := r.words ++ [w] }
/-- One word of a read frame; `slow` says that its data comes too late. A read waits for the queued writes. -/
def readItem (x : SpItem) (slow : Bool) (r : ReadRun) (s : State) : ReadRun × State :=
  if r.late then readLate x r s
  else match x with
  | .own i => let (w, s) := ownRead i s; (readGive w r, s)
  | .outside => (readGive 0 r, spOverrun s)
  | .beyond => (readGive allOnes r, spAddrErr s)
  | .bar a =>
    if slow || !s.sp.queue.isEmpty then readLate x r s
    else match readWord .serial a true s with
    | (some (w, e), s) => (readGive w r, if e then spBusErr s else s)
    | (none, s) => readLate x r s
/-- DESIGN CHOICE: log 32. -/
def readItems (late : Nat) : List SpItem → Nat → ReadRun → State → ReadRun × State
  | [], _, r, s => (r, s)
  | x :: xs, j, r, s => let (r, s) := readItem x (decide (late ≤ j)) r s; readItems late xs (j + 1) r s

/-- A retry: the held words, then the words that need no read; a word that is in neither is late again. -/
def retryItems : List SpItem → List Word → ReadRun → State → ReadRun × State
  | [], _, r, s => (r, s)
  | x :: xs, ws, r, s =>
    match x, ws with
    | .outside, _ => retryItems xs (ws.drop 1) (readGive 0 r) (spOverrun s)
    | .beyond, _ => retryItems xs (ws.drop 1) (readGive allOnes r) (spAddrErr s)
    | _, w :: ws => retryItems xs ws (readGive w r) s
    | _, [] => let (r, s) := readLate x r s; retryItems xs [] r s

/-- The frame repeats the held one: no more words, from the same place (R438). -/
def heldFrame (s : State) (addressed : Bool) (start n : Nat) : Option SpHold :=
  s.sp.hold.filter (fun h => h.addressed == addressed && h.start == start && decide (n ≤ h.n))

def putHold (h : Option SpHold) (s : State) : State := modSp (fun x => { x with hold := h }) s
/-- The frame's end: its bytes have left, and what was late is held. -/
def readEnd (addressed : Bool) (start n : Nat) (x : ReadRun × State) : State :=
  let s := emit (.serialOut x.1.bytes) x.2
  if x.1.late then putHold (some { addressed := addressed, start := start, n := n, words := x.1.words, todo := x.1.todo }) s else s

/-- A read frame. A repeat of the held frame is served from the holding buffer once its reads have completed, and before
that finds no data; any other frame discards the buffer. -/
def readFrame (addressed : Bool) (start n late : Nat) (s : State) : State :=
  let xs := frameItems addressed start n s
  match heldFrame s addressed start n with
  | some h =>
    if h.todo.isEmpty then
      let (r, s) := retryItems xs h.words {} (putHold none s)
      emit (.serialOut r.bytes) s
    else
      let (b, s) := freeWords xs.length s
      emit (.serialOut b) (spLate s)
  | none => readEnd addressed start n (readItems late xs 0 {} (putHold none s))

/-- The status read (R439); it clears DROP alone. -/
def statusRead (s : State) : State :=
  let b := BitVec.ofNat 8 (rdF s spStatusR 3 0 + 16 * b2n (rdB s mailboxCtlR 2) + 32 * b2n (irqAsserted s) + 64 * b2n (spReady s)
    + 128 * b2n s.sp.drop)
  emit (.serialOut [b]) (modSp (fun x => { x with drop := false }) s)

/-- A frame. The port does not answer during a reset and in device-level OFF (R443); an addressed frame whose command has a
reserved bit set is ignored (R433). DEDUCED: log 35. -/
def spFrame (f : SpFrame) (s : State) : State :=
  if s.mode ≠ .running then s
  else match f with
  | .windowedRead i n late => readFrame false i.toNat n.toNat ((late.map BitVec.toNat).getD 2048) s
  | .windowedWrite i ws => writeFrame false i.toNat ws s
  | .addressedRead z a n late => if z = 0 then readFrame true a.toNat n.toNat ((late.map BitVec.toNat).getD 2048) s else s
  | .addressedWrite z a ws => if z = 0 then writeFrame true a.toNat ws s else s
  | .status => statusRead s

/-! ### The rows -/

/-- DESIGN CHOICE: log 33. -/
def execSerialWindowedRead (i : BitVec 6) (n : BitVec 11) (late : Option (BitVec 11)) (s : State) : Out State :=
  .next (spFrame (.windowedRead i n late) s)
/-- DESIGN CHOICE: log 33. -/
def execSerialWindowedWrite (i : BitVec 6) (ws : List Word) (s : State) : Out State := .next (spFrame (.windowedWrite i ws) s)
/-- SERIAL_ADDRESSED_FRAME: a write with its words, else a read of `n`. DESIGN CHOICE: log 33. -/
def execSerialAddressedFrame (rsvd : BitVec 5) (a : Word) (ws : Option (List Word)) (n : BitVec 11) (late : Option (BitVec 11))
    (s : State) : Out State :=
  .next (spFrame (match ws with
    | some ws => .addressedWrite rsvd a ws
    | none => .addressedRead rsvd a n late) s)
def execSerialStatusRead (s : State) : Out State := .next (spFrame .status s)
/-- SERIAL_RETRY: the held frame is repeated, for `n` words. -/
def serialRetry (n : Nat) (s : State) : State :=
  match s.sp.hold with
  | none => s
  | some h => if s.mode = .running then readFrame h.addressed h.start n 2048 s else s
/-- DEDUCED: log 34. -/
def execSerialRetry (n : BitVec 11) (s : State) : Out State := .next (serialRetry n.toNat s)

/-- A held read has its word; an error response holds 0xFF bytes and sets BUS_ERR. -/
def holdWord (w : Word) (error : Bool) (s : State) : State :=
  let s := modSp (fun x => { x with hold := x.hold.map (fun h => { h with words := h.words ++ [w], todo := h.todo.drop 1 }) }) s
  if error then spBusErr s else s
/-- SERIAL_HELD_READ_DONE: the next late read completes, after the writes queued before it. -/
def heldReadDone (s : State) : State :=
  match s.sp.hold.bind (fun h => h.todo.head?) with
  | none => s
  | some a =>
    if s.mode ≠ .running ∨ s.sp.queue.isEmpty = false then s
    else match readWord .serial a true s with
    | (some (w, e), s) => holdWord w e s
    | (none, s) => s
def execSerialHeldReadDone (s : State) : Out State := .next (heldReadDone s)
/-- SERIAL_FRAME_IDLE_TIMEOUT (R437): the frame in progress ends as if CS_N had risen, with the words that it carries so far;
an incomplete word of a write is discarded. -/
def execSerialFrameIdleTimeout (f : SpFrame) (s : State) : Out State := .next (spFrame f s)

/-- SERIAL_WRITE_POSTED: the oldest queued write takes effect; it stays in the queue while it stalls. DEDUCED: log 36. -/
def writePosted (s : State) : State :=
  match s.sp.queue with
  | [] => s
  | (a, w) :: rest =>
    if s.mode ≠ .running then s
    else
      let held := a == bcfgCtlR && bcfgPends w s
      let (x, s) := if a = refSelR then draw 15 s else (0, s)
      let (done, s) := writeWord .serial a w true (x.setWidth 16) ((x >>> 16).setWidth 32) (modSp (fun y => { y with queue := rest }) s)
      if done && !held then s else modSp (fun y => { y with queue := (a, w) :: rest }) s
def execSerialWritePosted (s : State) : Out State := .next (writePosted s)

/-- ACCESS_STALL_TIMEOUT (R394, R438): of the serial view, the write at the front of the queue, or the held read. -/
def serialStallTimeout (a : Nat) (write : Bool) (s : State) : State :=
  if verdict s .serial a write ≠ .stall ∨ s.mode ≠ .running then s
  else
    let ends (s : State) : State := accessDone .serial a (!write) (accessError .serial a 0xA write (stallOver .serial a write s))
    if write then (if s.sp.queue.head?.any (fun e => e.1 == a) then ends (modSp (fun x => { x with queue := x.queue.drop 1 }) s) else s)
    else if (s.sp.hold.bind (fun h => h.todo.head?)) = some a then holdWord allOnes true (ends s) else s
def accessTimeout (v : View) (a : Nat) (write : Bool) (s : State) : State :=
  if v = .serial then serialStallTimeout a write s else stallTimeout v a write s
def execAccessStallTimeout (v : View) (a : BitVec 29) (write : Bool) (s : State) : Out State :=
  .next (accessTimeout v a.toNat write s)

end Sys2Proof.Machine
end

