-- ==== Sys2Proof/Machine/Pcie.lean ====
section
/-! DEFINITION. The PCIe function: its resets, D3hot, configuration requests and what it answers (R332, R423 to R431). -/
namespace Sys2Proof.Machine

def modPcie (f : PcieSt → PcieSt) (s : State) : State := { s with pcie := f s.pcie }

/-! ### FUNCTION reset and D3hot (R332, R429, R431) -/

/-- Rings, LDT and event ring are disabled; their other registers keep their values. DEDUCED: log 26. -/
def ringsStop (s : State) : State :=
  let s := each (List.range 64) (fun n s => wrB (cqBase n + 8) 15 false (wrB (sqBase n + 8) 15 false s)) s
  wrF evtRingCfgR 4 0 0 (ldtCtlWrite 0 s)
/-- The command of a ring; a command whose slot or parameters are still on their way. DEDUCED: log 18. -/
def isRing : Path → Bool
  | .ring _ => true
  | _ => false
def onItsWay (f : InFlight) : Bool := f.stage == .fetching || f.stage == .loading
/-- DMA stops: slots and parameters on their way never arrive, completions that wait are discarded, and the commands in
flight run on with their results discarded. A mailbox command of the PCIe path sends no message. -/
def dmaStop (s : State) : State :=
  modCmd (fun c => { c with
    inflight := (c.inflight.filter (fun f => !onItsWay f)).map (fun f => if isRing f.cmd.path then { f with orphan := true } else f)
    done := c.done.filter (fun d => !isRing d.cmd.path), unraised := [], mboxMute := true }) s
/-- The PCIe view's own state returns to its reset values, and its keep-awake floors are released. -/
def viewReset (s : State) : State :=
  releaseFloors .pcie { s with
    stalls := s.stalls.filter (fun e => decide (16 ≤ e.1))
    views := s.views.filter (fun e => decide (2 ^ 32 ≤ e.1)), timeLatch := tabErase s.timeLatch (viewNum .pcie) }
/-- What a FUNCTION reset and an entry of D3hot have in common. DEDUCED: log 19. -/
def functionStop (s : State) : State := viewReset (dmaStop (ringsStop s))
/-- Configuration space, MSI-X table and pending bits at their reset values. -/
def configReset (s : State) : State :=
  { s with
    regs := s.regs.filter (fun e => decide (e.1 < bar4 0))
    pcie := { s.pcie with d3hot := false, memSpace := false, busMaster := false, bars := [], msixEnable := false,
                          funcMask := false, unmasked := [], pba := [] } }

/-- FUNCTION_RESET. `kind`: 0 FLR, 1 hot reset, 2 link down, 3 PERST_N asserted. -/
def functionReset (kind : BitVec 2) (s : State) : State :=
  let s := modPcie (fun p => if kind = 3 then { p with perstN := false, ready := false, waitFrom := none } else p) s
  if s.mode ≠ .running then s
  else
    let s := configReset (functionStop s)
    let s := modPcie (fun p => if 2 ≤ kind then { p with linkUp := false, aspmL1 := false } else p) s
    unitResetEvent 3 unitDev s
def execFunctionReset (kind : BitVec 2) (s : State) : Out State := .next (functionReset kind s)

/-- D3HOT_ENTRY and D0_RETURN: neither is a reset. DEDUCED: log 26. -/
def d3hotEntry (s : State) : State :=
  if s.mode ≠ .running ∨ s.pcie.d3hot = true then s else modPcie (fun p => { p with d3hot := true }) (functionStop s)
def execD3hotEntry (s : State) : Out State := .next (d3hotEntry s)
def d0Return (s : State) : State :=
  if s.mode ≠ .running then s else msixReleaseAll (modPcie (fun p => { p with d3hot := false }) s)
def execD0Return (s : State) : Out State := .next (d0Return s)

/-! ### Bus Master Enable and masks (R426, R427) -/

/-- BUS_MASTER_ENABLE_CHANGE: what was held is sent when the enable returns. -/
def busMasterSet (b : Bool) (s : State) : State := msixReleaseAll (modPcie (fun p => { p with busMaster := b }) s)
def execBusMasterEnableChange (b : Bool) (s : State) : Out State := .next (if s.mode = .running then busMasterSet b s else s)
/-- MSIX_UNMASK: a vector, or the function. -/
def msixUnmask (v : Option (BitVec 9)) (s : State) : State :=
  match v with
  | some v => msixMask v.toNat false s
  | none => msixReleaseAll (modPcie (fun p => { p with funcMask := false }) s)
def execMsixUnmask (v : Option (BitVec 9)) (s : State) : Out State := .next (if s.mode = .running then msixUnmask v s else s)

/-! ### Requests that arrive -/

/-- PCIE_INBOUND_REQUEST (R425, R428): a write with a word, else a read; `a` is none for an address outside the BARs.
DESIGN CHOICE: log 30. -/
def inboundRequest (write : Option Word) (a : Option (BitVec 29)) (poisoned : Bool) (s : State) : State :=
  match a with
  | none => unsupported .pcie (bar4 0x4000) write.isSome s
  | some a =>
    match write with
    | none => busRead .pcie a.toNat true s
    | some w =>
      if poisoned && reaches s .pcie a.toNat then accessError .pcie a.toNat 8 true (aerNote 12 a.toNat true s)
      else busWrite .pcie a.toNat w s
/-- DESIGN CHOICE: log 30. -/
def execPcieInboundRequest (write : Option Word) (a : Option (BitVec 29)) (poisoned : Bool) (s : State) : Out State :=
  .next (inboundRequest write a poisoned s)

/-- The writable bits of a base address register, and its fixed ones: 64-bit memory, not prefetchable; 256 MB, 1 MB, 16 KB.
PRESUMED: log 27. -/
def barMask (k : Nat) : Word := if k = 0 then 0xF0000000 else if k = 2 then 0xFFF00000 else if k = 4 then 0xFFFFC000 else allOnes
def barWord (s : State) (k : Nat) : Word := tabGet 0 s.pcie.bars k ||| (if k % 2 = 0 then 4 else 0)

/-- A doubleword of the header, where the manual gives it; its other bits are free. PRESUMED: log 27. -/
def headerWord (s : State) (d : Nat) (x : Word) : Word :=
  if d = 0 then Config.vendorId.setWidth 32 ||| 0x51200000
  else if d = 1 then bitPut (bitPut x 1 s.pcie.memSpace) 2 s.pcie.busMaster
  else if d = 2 then 0x028000A1
  else if d = 3 then fieldPut x 23 16 0
  else if 4 ≤ d ∧ d < 10 then barWord s (d - 4)
  else if d = 11 then s.pcie.subsys
  else if d = 15 then fieldPut x 15 8 0
  else x

/-- A configuration request that is answered. -/
def cfgServe (r : CfgReq) (s : State) : State :=
  match r with
  | .read d => let (x, s) := draw 20 s; emit (.cfgData (headerWord s d.toNat (x.setWidth 32))) s
  | .serialNumber hi => emit (.cfgData (if hi then (Config.serial >>> 32).setWidth 32 else Config.serial.setWidth 32)) s
  | .command mem bus => busMasterSet bus (modPcie (fun p => { p with memSpace := mem }) s)
  | .msixControl enable mask =>
    let s := modPcie (fun p => { p with msixEnable := enable, funcMask := mask }) s
    msixReleaseAll s
  | .bar k w => modPcie (fun p => { p with bars := tabPut 0 p.bars k.val (w &&& barMask k.val) }) s

/-- Whether the function answers by now: at the latest 100 ms after the later of PERST_N's deassertion and the boot's enable
of PD_PCIE; before that the moment is open. DESIGN CHOICE: log 29. -/
def nowReady (s : State) : Bool × State :=
  match s.pcie.waitFrom with
  | none => (s.pcie.ready, s)
  | some t =>
    if s.pcie.ready || decide (t.toNat + 100000000 ≤ s.time.toNat) then (true, s)
    else let (x, s) := draw 19 s; (x.getLsbD 0, s)

/-- PCIE_CONFIG_REQUEST (R430). DESIGN CHOICE: log 29. -/
def configRequest (r : CfgReq) (s : State) : State :=
  if s.mode ≠ .running ∨ s.pcie.perstN = false then s
  else
    let (now, s) := nowReady (modPcie (fun p => { p with linkUp := true }) s)
    if now then cfgServe r (modPcie (fun p => { p with ready := true, waitFrom := none }) s) else emit .cfgRetry s
def execPcieConfigRequest (r : CfgReq) (s : State) : Out State := .next (configRequest r s)

/-- PERST_N_DEASSERTION (R430). -/
def perstDeassert (s : State) : State :=
  if s.pcie.perstN then s
  else modPcie (fun p => { p with perstN := true, waitFrom := if s.mode = .running ∧ p.bootAt.isSome then some s.time else none }) s
/-- DESIGN CHOICE: log 22. -/
def execPerstNDeassertion (s : State) : Out State := .next (perstDeassert s)

/-- ASPM_L1_ENTRY, ASPM_L1_EXIT (R431): an entry is of a link that is up. -/
def aspmEntry (s : State) : State :=
  if s.mode = .running ∧ s.pcie.perstN = true then modPcie (fun p => { p with linkUp := true, aspmL1 := true }) s else s
def execAspmL1Entry (s : State) : Out State := .next (aspmEntry s)
def aspmExit (s : State) : State := modPcie (fun p => { p with aspmL1 := false }) s
def execAspmL1Exit (s : State) : Out State := .next (aspmExit s)

end Sys2Proof.Machine
end

