-- ==== Sys2Proof/Machine/Firmware.lean ====
section
/-! DEFINITION. The supervisor's work without a command: scrubbing, voting, the operator watchdog and restart, activation, rollback
floors, requests of the operator firmware, and the end of a command by its timeout (R123, R326, R332, R371 to R387, R403, R404,
R463 to R466). -/
namespace Sys2Proof.Machine

/-! ### Letting go of a command's work -/

/-- An engine tag that no command holds. -/
def noTag : Nat := 4096

/-- What waits for a command no longer knows its tag; what its engines have started goes on. -/
def detach (f : InFlight) (s : State) : State :=
  let e := f.etag
  let i := f.cmd.idx.toNat
  match f.opcode with
  | 0x0303 | 0x0304 => modTile (i / 64) (fun x => { x with
      loader := x.loader.map (fun r => if r.etag == e && decide (r.purpose < 2) then { r with etag := noTag } else r) }) s
  | 0x0305 => modPair i (fun p => { p with cut := p.cut.map (fun c => if c.etag == some e then { c with etag := none } else c) }) s
  | 0x0401 => putCaps i ((capsOf s i).map (fun c => if c.etag == some e then { c with etag := none } else c)) s
  | 0x0502 => modPort i (fun x => if x.cableTest = some e then
      { x with cableTest := none, cableMask := 0, cableOut := [], cableNext := [] } else x) s
  | 0x0504 => modLane i (fun x => if x.scan = some e then { x with scan := none, scanPoint := 0 } else x) s
  | 0x0602 | 0x0603 => modSyn i (fun x => if x.hopTag = some e then { x with hopTag := none } else x) s
  | 0x0604 => modSyn i (fun x => { x with steps := x.steps.filter (fun y => y.1 != e) }) s
  | 0x0701 => modDom i (fun x => if x.tag = some e then { x with tag := none } else x) s
  | 0x0703 => { s with plChanges := s.plChanges.map (fun x => if x.tag == some e then { x with tag := none } else x) }
  | 0x0A01 => modFw (fun x => { x with verifying := x.verifying.map (fun v => if v.2 == e then (v.1, noTag) else v) }) s
  | 0x0A02 =>
    let s := if s.fw.activating = some e then activationEnds (modFw (fun x => { x with activating := none }) s) else s
    if s.fw.patching = some e then modFw (fun x => { x with patching := none }) s else s
  | 0x0B01 => if s.chain.enum.any (fun x => x.1 == e) then { s with chain := { s.chain with enum := none } } else s
  | 0x0D03 => modLane i (fun x => if x.auto = some e then { x with auto := none, autoBest := 0, autoArea := 0, scanPoint := 0 } else x) s
  | _ => s

/-- A grading run, or a cable profile, that a command asked for is given up. -/
def dropProfile (e l : Nat) (s : State) : State :=
  if (runsOf s (groupOf l)).any (fun r => r.profile && r.etag == e) then
    capDrop (l / 8) (fun c => c.owner == 2)
      (putRuns (groupOf l) ((runsOf s (groupOf l)).filter (fun r => !(r.profile && r.etag == e))) s)
  else s
/-- The steps of a command that have not started are not made (R326); TAKE_CUT cancels its cut (R123). DEDUCED: log 25. -/
def giveUp (f : InFlight) (s : State) : State :=
  let e := f.etag
  let i := f.cmd.idx.toNat
  match f.opcode with
  | 0x0303 | 0x0304 => modTile (i / 64) (fun x => { x with
      loader := x.loader.take 1 ++ (x.loader.drop 1).filter (fun r => !(r.etag == e && decide (r.purpose < 2))) }) s
  | 0x0305 => if (pairOf s i).cut.any (fun c => c.etag == some e) then cutAbort i 0x0C s else s
  | 0x0306 => if (findRun s i).any (fun r => r.cls == 1 && r.etag == e) then abortRun i s else s
  | 0x0501 => dropProfile e i s
  | 0x0701 => modDom i (fun x => if x.tag = some e then { x with next := none } else x) s
  | _ => s

/-- COMMAND_TIMEOUT_EXPIRY (R326): the command ends first, so that nothing it gives up completes it again. DEDUCED: log 25. -/
def commandTimeout (e : Nat) (s : State) : State :=
  match s.cmd.inflight.find? (fun f => f.etag == e) with
  | none => s
  | some f =>
    if s.mode ≠ .running ∨ f.cmd.timeout = 0 ∨ f.stage = .fetching then s
    else
      let r := if f.waitFor = 0 then [] else leBytes 8 (f.failMask ||| f.waitFor)
      detach f (giveUp f (finish f stTimeout r s))
def execCommandTimeoutExpiry (e : BitVec 12) (s : State) : Out State := .next (commandTimeout e.toNat s)

/-! ### Scrubbing (R463 to R466) -/

def bankRegs : MemBank → Nat
  | .hub b => hubBankR b.toNat
  | .group g b => groupBase g.toNat + 0x100 + 0x10 * b.val
  | .port p => portBase p.toNat + 0x204
def bankKey : MemBank → Nat
  | .hub b => b.toNat
  | .group g b => 16 + 12 * g.toNat + b.val
  | .port p => 208 + p.toNat
def bankUnit : MemBank → BitVec 16
  | .hub _ => unitDev
  | .group g _ => unitGroup g.toNat
  | .port p => unitPort p.toNat
/-- The die and the bank, as the events name them. -/
def bankName : MemBank → List Byte
  | .hub b => [8, BitVec.ofNat 8 b.toNat]
  | .group g b => [BitVec.ofNat 8 (g.toNat / 2), BitVec.ofNat 8 b.val]
  | .port p => [BitVec.ofNat 8 (p.toNat / 8), BitVec.ofNat 8 (0x80 + p.toNat % 8)]
/-- The word of an offset, and the offset as MEM_LAST_ADDR holds it. -/
def bankWord (b : MemBank) (off : Nat) : Nat := match b with
  | .port _ => off &&& 0x1F0F
  | _ => off / 64
def bankAddr (b : MemBank) (off : Nat) : Nat := match b with
  | .port _ => off &&& 0x1F0F
  | _ => off % 2 ^ 24
/-- A domain powers one of its banks: in DEEP one that its RETAIN mask keeps, `bit` being its bit there (R298, R308). -/
def powersBank (s : State) (d : Nat) (bit : Option Nat) : Bool :=
  decide (domState s d < 3) || (domState s d == 3 && bit.any (fun k => rdB s (domBase d + 0x14) k))
/-- A bank is powered: the scrub engine reads those alone (R464). -/
def bankPowered (s : State) : MemBank → Bool
  | .hub b => decide (b.toNat < 8) || powersBank s 75 (some (b.toNat - 8))
  | .group g b => powersBank s (64 + g.toNat / 2) (if b.val < 4 then some (g.toNat % 2) else none)
  | .port p => powersBank s p.toNat none

/-- A correctable word is written back; the event comes at most once per second and bank. -/
def memCorrected (b : MemBank) (s : State) : State :=
  let s := count (bankRegs b) 1 s
  let due := match s.corrAt.find? (fun e => e.1 == bankKey b) with
    | none => true
    | some (_, t) => decide (t.toNat + 1000000000 ≤ s.time.toNat)
  if due then
    raise 0x0005 (bankUnit b) (bankName b ++ zeros 2 ++ leBytes 4 (rd s (bankRegs b)).toNat)
      { s with corrAt := tabInsert s.corrAt (bankKey b) s.time }
  else s
/-- The failed operator firmware is stopped, and the command engine stops fetching, until OPERATOR_RESTART; in recovery no
operator runs, and a halted supervisor core restarts nothing (R377, R381, R387). -/
def restartDue (cause : Nat) (s : State) : State :=
  if s.fw.restarting.isSome || inRecovery s || supHalted s then s
  else modCmd (fun c => { c with stopped := true }) (modFw (fun f => { f with restarting := some cause }) s)
/-- What follows for the reader of an uncorrectable word. -/
def badWordRead (h : Holds) (s : State) : State :=
  match h with
  | .other => s
  | .operatorImage => restartDue 3 s
  | .ldt l => ldtInvalidate l.toNat s
/-- What the readers of an uncorrectable word get from then on is what the code decodes, which is open (R465): the bytes of a take
slot, of a capture area or of a grader workspace. DEDUCED: log 174. DEDUCED: log 178. -/
def wordDecoded (b : MemBank) (off : Nat) (s : State) : State :=
  match b with
  | .group g k =>
    let a := (k.val * 2 ^ 18 + off % 2 ^ 18) / 64 * 64
    if k.val < 4 then
      let l := 32 * g.toNat + a / 2 ^ 15
      let j := a / 2 ^ 12 % 8
      if slotCode s l j = slEmpty then s
      else
        let (x, s) := drawBytes 29 64 s
        let t := takeAt s l j
        putTake l j (t.take (a % 2 ^ 12) ++ x ++ t.drop (a % 2 ^ 12 + 64)) s
    else if k.val < 10 then
      let o := a - 2 ^ 20
      areaPut (4 * g.toNat + o / areaLen) (o % areaLen) (List.replicate 64 none) s
    else foldInto g.toNat s
  | _ => s
/-- A word found uncorrectable: counted and reported once, until it has been rewritten. -/
def memUncorrectable (b : MemBank) (off : Nat) (s : State) : State :=
  let k := (bankKey b, bankWord b off)
  if s.badWords.contains k then s
  else
    let s := wordDecoded b off { s with badWords := s.badWords ++ [k] }
    let s := wr (bankRegs b + 8) (BitVec.ofNat 32 (bankAddr b off)) (count (bankRegs b + 4) 1 s)
    raise 0x0006 (bankUnit b) (bankName b) s

/-- SCRUB_READ. `rewritten`: the word has been written since it was last read. -/
def scrubRead (b : MemBank) (off : Nat) (found : Found) (rewritten : Bool) (h : Holds) (s : State) : State :=
  if s.mode ≠ .running ∨ bankPowered s b = false then s
  else
    let k := (bankKey b, bankWord b off)
    let s := if rewritten || found != .uncorrectable then { s with badWords := s.badWords.filter (fun x => x != k) } else s
    match found with
    | .clean => s
    | .correctable => memCorrected b s
    | .uncorrectable => badWordRead h (memUncorrectable b off s)
def execScrubRead (b : MemBank) (off : BitVec 24) (found : Found) (rewritten : Bool) (h : Holds) (s : State) : Out State :=
  .next (scrubRead b off.toNat found rewritten h s)

/-! ### Triplicated fields (R404) -/

/-- The TMR bits of a register. DEDUCED: log 127. -/
def tmrBits (a : Nat) : Word :=
  if a = devStrapsR then 0x300 else if a = lockCtlR then 0x1F else if a = clkRootSrcR then 3 else if a = clkEnR then 0x1F
  else if a = refSelR then 0xC3 else if a = rackCtlR then 1 else if a = chainStateR then 0xFF00 else if a = operWdtCfgR then 0x80
  else if a = fwallCfgR then allOnes
  else if 0x20000 ≤ a ∧ a < 0x20A00 then (if a % 0x20 = 0 then 7 else 0)
  else if 0x40000 ≤ a ∧ a < 0x40400 then
    (if a % 0x200 = 0 then 0x10 else if 0x100 ≤ a % 0x200 ∧ a % 16 = 0 then 3 else 0)
  else if 0x41000 ≤ a ∧ a < 0x41200 then (if a % 0x20 = 0 then 0xB1 else 0)
  else if 0x1000000 ≤ a ∧ a < 0x9000000 then (if a % 0x1000000 = 0x204 then 0xF else if a % 0x1000000 = 0x1014 then 0x1F else 0)
  else 0
/-- TMR_MISMATCH: with a majority the odd copy is rewritten and counted; without one, copy A stands. DEDUCED: log 127. -/
def tmrMismatch (a : Nat) (majority : Bool) (copyA : Word) (s : State) : State :=
  let m := tmrBits a
  if s.mode ≠ .running ∨ m = 0 ∨ (addrDomain a).any (fun d => domState s d == 4) = true then s
  else
    let s := if majority then wr tmrLastR (BitVec.ofNat 32 a) (count tmrMismatchCntR 1 s)
      else wr a ((rd s a &&& ~~~m) ||| (copyA &&& m)) s
    raise 0x0007 unitDev (leBytes 4 a ++ leBytes 1 (b2n (!majority))) s
def execTmrMismatch (a : BitVec 28) (majority : Bool) (copyA : Word) (s : State) : Out State :=
  .next (tmrMismatch a.toNat majority copyA s)

/-! ### The operator watchdog (R132, R380) -/

/-- A stalled grader ends its runs, the cable profile among them. -/
def graderStalls (g : Nat) (s : State) : State :=
  let s := each ((List.range 32).map (fun k => 32 * g + k)) abortRun s
  let rs := runsOf s g
  let s := rs.foldl (fun s r => capDrop (r.pair / 8) (fun c => c.owner == 2) s) (putRuns g [] s)
  rs.foldl (fun s r => complete r.etag stAborted [] s) s
/-- A heartbeat word that has not advanced since the last check. -/
def stale (s : State) (k : Nat) (beats : List Word) : Bool :=
  s.fw.heartbeats.any (fun e => e.1 == k && e.2 == (beats.getD k 0).toNat)
/-- OPERATOR_WATCHDOG_CHECK: the heartbeat words of the four cores, then of the sixteen graders. A grader is checked while it
is clocked and powered. -/
def watchdog (beats : List Word) (s : State) : State :=
  if s.mode ≠ .running ∨ rdB s operWdtCfgR 7 = false ∨ inRecovery s = true ∨ supHalted s = true ∨ s.fw.restarting.isSome = true
      ∨ s.fw.patching.isSome = true then s
  else
    let core := (List.range 4).any (fun k => stale s k beats)
    let bad := (List.range 16).filter (fun g => graderOn s g && domRuns s (64 + g / 2) && stale s (4 + g) beats)
    let s := modFw (fun f => { f with heartbeats := (List.range 20).map (fun k => (k, (beats.getD k 0).toNat)) }) s
    if core then restartDue 1 s else each bad graderStalls s
def execOperatorWatchdogCheck (beats : List Word) (s : State) : Out State := .next (watchdog beats s)
/-- OPERATOR_TRAP: an unhandled trap, or a memory error in the operator image. -/
def execOperatorTrap (memory : Bool) (s : State) : Out State :=
  .next (if s.mode = .running then restartDue (if memory then 3 else 2) s else s)

/-! ### The operator restart (R305, R332, R381 to R383, R481) -/

/-- Every grading run and cable profile ends without a result; a take in verification stays LOADED. DEDUCED: log 128. -/
def runsEnd (s : State) : State :=
  let s := { s with runs := [] }
  let s := each (List.range 64) (fun p s => capDrop p (fun c => c.owner != 0) s) s
  each (List.range 8) (fun t s => modTile t (fun x => { x with loader := x.loader.filter (fun r => r.purpose != 2) }) s) s
/-- Every command in flight but one completes with RESTARTED; a slot that is still being read is not known yet. DEDUCED: log 109. -/
def commandsRestarted (keep : Nat) (s : State) : State :=
  (s.cmd.inflight.filter (fun f => f.etag != keep && f.stage != .fetching)).foldl
    (fun s f => detach f (finish f stRestarted [] s)) s
/-- The links as the operator firmware takes them up again. DEDUCED: log 128. -/
def linksRestart (s : State) : State :=
  each (List.range 512) (fun m s =>
    if (linkOf s m).state = .negotiate ∨ (linkOf s m).state = .train then depart m 0x08 0x01 s else s) s
/-- Steps 1, 2 and 4 of an operator restart, with the operator view's copies and floors, and the count of restarts. DEDUCED: log 128. -/
def operatorStops (keep : Nat) (s : State) : State :=
  let s := releaseFloors .operator (commandsRestarted keep (runsEnd s))
  let s := { s with
    views := s.views.filter (fun e => decide (e.1 / 2 ^ 32 ≠ viewNum .operator)), timeLatch := tabErase s.timeLatch (viewNum .operator) }
  let s := linksRestart s
  let n := rdF s fwStateR 15 8
  let s := modCmd (fun c => { c with stopped := false }) (wrF fwStateR 15 8 (min 255 (n + 1)) s)
  modFw (fun f => { f with restarting := none, heartbeats := [], svnSince := f.svnSince.map (fun e => (e.1, s.time)) }) s

/-- The operator restarts of the last 60 s, with this one. DEDUCED: log 123. -/
def restartsNow (s : State) : List (BitVec 64) :=
  s.fw.restartTimes.filter (fun t => decide (s.time.toNat < t.toNat + 60000000000)) ++ [s.time]
/-- The device is left in recovery. DEDUCED: log 123. -/
def enterRecovery (s : State) : State := wrB fwStateR 2 true s
/-- The active image is verified again and started; an image that fails leaves the device in recovery. -/
def restartImage (cause crypto : Nat) (s : State) : State :=
  let b := activeBank s 0
  let (code, s) := if domState s 79 = 4 ∨ rdB s clkEnR 4 = false then (1, s) else verifyBank b crypto s
  if code = 0 then unitResetEvent 4 unitDev (raise 0x0C03 unitDev (leBytes 1 cause) (imageRuns 0 b s)) else enterRecovery s
/-- The restart is carried out: the fourth within 60 s halts the operator. DEDUCED: log 123. -/
def restartGo (cause crypto : Nat) (s : State) : State :=
  let times := restartsNow s
  let s := operatorStops noTag (modFw (fun f => { f with restartTimes := times }) s)
  if 4 ≤ times.length then
    raise 0x0C04 unitDev (leBytes 1 cause ++ leBytes 1 times.length) (enterRecovery s)
  else restartImage cause crypto s
/-- OPERATOR_RESTART: it wakes PD_MRAM to read the image (R309). `crypto` is the verdict on the image's key and hashes. -/
def operatorRestart (crypto : Nat) (s : State) : State :=
  match s.fw.restarting with
  | none => s
  | some cause =>
    if s.mode ≠ .running ∨ supHalted s = true then s
    else if domState s 79 ≠ 4 ∧ rdB s clkEnR 4 = true ∧ domRuns s 79 = false then beginWake 79 s
    else restartGo cause crypto s
/-- DEDUCED: log 10. -/
def execOperatorRestart (crypto : BitVec 3) (s : State) : Out State := .next (operatorRestart crypto.toNat s)

/-! ### Activation (R385, R386) -/

/-- No link is in NEGOTIATE or TRAIN, no grader pass runs, no CABLE_TEST runs. -/
def quiescent (s : State) : Bool :=
  s.links.all (fun e => e.2.state != .negotiate && e.2.state != .train)
    && s.runs.all (fun e => e.2.all (fun r => !r.started)) && s.ports.all (fun e => e.2.cableTest.isNone)
/-- QUIESCENT_POINT: the staged bank is verified, made active and started. An image that fails leaves the old one running.
DESIGN CHOICE: log 124. -/
def quiescentPoint (crypto : Nat) (s : State) : State :=
  match s.fw.activating with
  | none => s
  | some e =>
    if s.mode ≠ .running ∨ supHalted s = true ∨ s.fw.restarting.isSome = true ∨ quiescent s = false then s
    else if domState s 79 ≠ 4 ∧ rdB s clkEnR 4 = true ∧ domRuns s 79 = false then beginWake 79 s
    else
      let b := stagingBank s 0
      let (code, s) := if domState s 79 = 4 ∨ rdB s clkEnR 4 = false then (1, s) else verifyBank b crypto s
      let s := modFw (fun f => { f with activating := none, verified := f.verified.filter (fun x => x != b) }) s
      if code ≠ 0 then complete e stAborted [] (activationEnds s)
      else
        let was := inRecovery s
        let s := operatorStops e (wrB fwStateR 2 false (wrB fwStateR 0 (b == 1) s))
        let s := if was then each (List.range 64) pairsToSyn s else s
        unitResetEvent 4 unitDev (raise 0x0C02 unitDev [] (complete e stOk [] (imageRuns 0 b (activationEnds s))))
/-- DEDUCED: log 10. -/
def execQuiescentPoint (crypto : BitVec 3) (s : State) : Out State := .next (quiescentPoint crypto.toNat s)

/-- PATCH_ACTIVATION: the supervisor firmware runs on the staged patch. -/
def patchActivation (s : State) : State :=
  match s.fw.patching with
  | none => s
  | some e =>
    if s.mode ≠ .running ∨ supHalted s = true then s
    else
      let b := stagingBank s 1
      let s := modFw (fun f => { f with patching := none, verified := f.verified.filter (fun x => x != b) }) s
      complete e stOk [] (imageRuns 1 b (wrB fwStateR 5 false (wrB fwStateR 1 (b == 3) s)))
def execPatchActivation (s : State) : Out State := .next (patchActivation s)

/-- ROLLBACK_FLOOR_TIMER (R375): the boot record lies in MRAM, so its write waits under the hold (R314). DEDUCED: log 123. -/
def rollbackTimer (ty : Nat) (s : State) : State :=
  let svn := leAt (tabGet [] s.fw.headers (activeBank s ty)) 0xC 2
  let due := match s.fw.svnSince.find? (fun e => e.1 == ty) with
    | some (_, t) => decide (t.toNat + 600000000000 ≤ s.time.toNat)
    | none => false
  let runs := if ty = 0 then !inRecovery s else !rdB s fwStateR 5
  if s.mode = .running ∧ due = true ∧ runs = true ∧ tabGet 0 s.fw.floors ty < svn ∧ mramReady s = true ∧ mramHold s = false
      ∧ supHalted s = false then
    modFw (fun f => { f with floors := tabInsert f.floors ty svn }) s
  else s
def execRollbackFloorTimer (patch : Bool) (s : State) : Out State := .next (rollbackTimer (b2n patch) s)

/-! ### Requests and faults of the supervisor (R371, R387, R403) -/

/-- A write that would change a locked field. -/
def changesLocked (a : Nat) (w : Word) (s : State) : Bool :=
  match regInfo a with
  | none => false
  | some i => ((w ^^^ rd s a) &&& writeBits i &&& lockedBits s a i) != 0
/-- A write that the path's own view may not make. Requests of the operator's own work carry no path to check. -/
def pathRefused (v : View) (a : Nat) (w : Word) (s : State) : Bool :=
  (v == .pcie || v == .serial) && (viewRefused v a true || (match regInfo a with
    | none => false
    | some i => ((w ^^^ rd s a) &&& writeBits i &&& refusedBits v a i) != 0))
/-- SUPERVISOR_REQUEST: a register write on behalf of the operator firmware, checked against the view of the command's path and the
lock bits, and made with the supervisor view. -/
def supervisorRequest (v : View) (a : Nat) (w : Word) (s : State) : State :=
  if s.mode ≠ .running ∨ supHalted s = true then s
  else if pathRefused v a w s then firewallRefusal v a true s
  else if changesLocked a w s then s
  else busWrite .supervisor a w s
def execSupervisorRequest (v : View) (a : BitVec 28) (w : Word) (s : State) : Out State := .next (supervisorRequest v a.toNat w s)
/-- A command whose request still waits for the supervisor firmware: a verification, an activation, a power transition. -/
def awaitsSupervisor (f : InFlight) : Bool :=
  f.stage == .running && (f.opcode == 0x0A01 || f.opcode == 0x0A02 || f.opcode == 0x0701 || f.opcode == 0x0703)
/-- LOCKSTEP_MISMATCH: the supervisor core halts, and the requests in its queue complete with NOT_READY. -/
def lockstepMismatch (s : State) : State :=
  if s.mode ≠ .running then s
  else (s.cmd.inflight.filter awaitsSupervisor).foldl (fun s f => detach f (complete f.etag stNotReady [] s)) (wrB fwStateR 4 true s)
def execLockstepMismatch (s : State) : Out State := .next (lockstepMismatch s)

end Sys2Proof.Machine
end

