-- ==== Sys2Proof/Machine/RsMonitor.lean ====
section
/-! DEFINITION. Lock, loss of lock and counts of the RS monitor instances (R56, R57, R188, R189). -/
namespace Sys2Proof.Machine

/-- An instance reports in this pair block, and its port runs. -/
def rsInstance (s : State) (l dir : Nat) : Bool :=
  s.mode == .running && domRuns s (l / 8) && rdF s (rsMonStatusR l dir) 4 2 != 0

/-- The streams of the set that reports in this pair block (R56). -/
def rsSet (s : State) (l dir : Nat) : List Nat := (List.range (2 ^ (rdF s (rsMonStatusR l dir) 4 2 - 1))).map (fun k => l + k)
/-- Codewords counted: by number of symbol errors, 0 to 15, then uncorrectable ones. The host direction counts nothing for a set of which a
pair has discarded its host stream since the last row (R189). DEDUCED: log 130. -/
def rsCount (l dir : Nat) (n : List (BitVec 32)) (s : State) : State :=
  let set := rsSet s l dir
  if dir = 1 ∧ set.any (fun k => !(pairOf s k).rsOpen) = true then s
  else
    let s := if dir = 1 then each set (fun k s => modPair k (fun p => { p with rsOpen := !p.quiet }) s) s else s
    let s := each (List.range 17) (fun i s => countWide (rsBase l dir + 8 * i) 48 (n.getD i 0).toNat s) s
    countWide (rsBase l dir + 0x88) 64 (((List.range 17).map (fun i => (n.getD i 0).toNat)).sum) s

/-- RS_MONITOR_LOCK: LOCK is set and the counts begin. `n` are the codewords decoded in lock up to this moment since the
instance's last row. DEDUCED: log 130. -/
def rsLock (l dir : Nat) (n : List (BitVec 32)) (s : State) : State :=
  if rsInstance s l dir then rsCount l dir n (wrB (rsMonStatusR l dir) 0 true s) else s
def execRsMonitorLock (l : Pair) (host : Bool) (n : List (BitVec 32)) (s : State) : Out State := .next (rsLock l.toNat (b2n host) n s)

/-- RS_MONITOR_LOCK_LOSS: the codewords decoded before it are counted, LOCK clears and every view's LOST is set. DEDUCED: log 130. -/
def rsLoss (l dir : Nat) (n : List (BitVec 32)) (s : State) : State :=
  if rsInstance s l dir && rdB s (rsMonStatusR l dir) 0 then
    orViews (rsMonStatusR l dir) 2 (wrB (rsMonStatusR l dir) 0 false (rsCount l dir n s))
  else s
def execRsMonitorLockLoss (l : Pair) (host : Bool) (n : List (BitVec 32)) (s : State) : Out State := .next (rsLoss l.toNat (b2n host) n s)

end Sys2Proof.Machine
end

