-- ==== Sys2Proof/Machine/Dispatch.lean ====
section
/-! DEFINITION. What each command does: one arm per constructor, one call of its meaning. -/
namespace Sys2Proof.Machine

def exec (i : Instr) (s : State) : Host.Outcome State Fault Refusal :=
  match i with
  | .devIdentify c => Sys2Proof.Machine.execDevIdentify c s
  | .devStatus c => Sys2Proof.Machine.execDevStatus c s
  | .devOff c => Sys2Proof.Machine.execDevOff c s
  | .devTimeSet c => Sys2Proof.Machine.execDevTimeSet c s
  | .devLockQuery c => Sys2Proof.Machine.execDevLockQuery c s
  | .linkConfigure c entry => Sys2Proof.Machine.execLinkConfigure c entry s
  | .linkUp c => Sys2Proof.Machine.execLinkUp c s
  | .linkDown c => Sys2Proof.Machine.execLinkDown c s
  | .linkStatus c => Sys2Proof.Machine.execLinkStatus c s
  | .linkRefresh c entry => Sys2Proof.Machine.execLinkRefresh c entry s
  | .linkQuietPolicy c => Sys2Proof.Machine.execLinkQuietPolicy c s
  | .linkForceRole c => Sys2Proof.Machine.execLinkForceRole c s
  | .linkTrainStep c => Sys2Proof.Machine.execLinkTrainStep c s
  | .takeList c => Sys2Proof.Machine.execTakeList c s
  | .takeRead c => Sys2Proof.Machine.execTakeRead c s
  | .takeWrite c => Sys2Proof.Machine.execTakeWrite c s
  | .takeVerify c => Sys2Proof.Machine.execTakeVerify c s
  | .takeCut c => Sys2Proof.Machine.execTakeCut c s
  | .takeGrade c => Sys2Proof.Machine.execTakeGrade c s
  | .takePolicy c => Sys2Proof.Machine.execTakePolicy c s
  | .rushesArm c => Sys2Proof.Machine.execRushesArm c s
  | .rushesStatus c => Sys2Proof.Machine.execRushesStatus c s
  | .rushesUpload c => Sys2Proof.Machine.execRushesUpload c s
  | .cableProfile c => Sys2Proof.Machine.execCableProfile c s
  | .cableTest c => Sys2Proof.Machine.execCableTest c s
  | .pairSnr c => Sys2Proof.Machine.execPairSnr c s
  | .eyeScan c => Sys2Proof.Machine.execEyeScan c s
  | .loopback c => Sys2Proof.Machine.execLoopback c s
  | .clkOutputSet c => Sys2Proof.Machine.execClkOutputSet c s
  | .clkPllProgram c => Sys2Proof.Machine.execClkPllProgram c s
  | .clkHop c => Sys2Proof.Machine.execClkHop c s
  | .clkStep c => Sys2Proof.Machine.execClkStep c s
  | .clkSpread c => Sys2Proof.Machine.execClkSpread c s
  | .clkSyncArm c => Sys2Proof.Machine.execClkSyncArm c s
  | .clkRefSelect c step diff => Sys2Proof.Machine.execClkRefSelect c step diff s
  | .clkStatus c => Sys2Proof.Machine.execClkStatus c s
  | .pwrStateSet c => Sys2Proof.Machine.execPwrStateSet c s
  | .pwrPolicy c => Sys2Proof.Machine.execPwrPolicy c s
  | .pwrLevelSet c => Sys2Proof.Machine.execPwrLevelSet c s
  | .pwrStatus c => Sys2Proof.Machine.execPwrStatus c s
  | .pwrKeepAwake c => Sys2Proof.Machine.execPwrKeepAwake c s
  | .cntSnapshot c => Sys2Proof.Machine.execCntSnapshot c s
  | .cntRead c => Sys2Proof.Machine.execCntRead c s
  | .cntClear c => Sys2Proof.Machine.execCntClear c s
  | .utilWindow c => Sys2Proof.Machine.execUtilWindow c s
  | .contList c => Sys2Proof.Machine.execContList c s
  | .contRead c => Sys2Proof.Machine.execContRead c s
  | .contDelete c => Sys2Proof.Machine.execContDelete c s
  | .calRecordRead c => Sys2Proof.Machine.execCalRecordRead c s
  | .fwStage c chunk => Sys2Proof.Machine.execFwStage c chunk s
  | .fwActivate c => Sys2Proof.Machine.execFwActivate c s
  | .fwStatus c => Sys2Proof.Machine.execFwStatus c s
  | .chainEnumerate c => Sys2Proof.Machine.execChainEnumerate c s
  | .chainStatus c => Sys2Proof.Machine.execChainStatus c s
  | .chainEpoch c => Sys2Proof.Machine.execChainEpoch c s
  | .evtSubscribe c => Sys2Proof.Machine.execEvtSubscribe c s
  | .evtReadLog c => Sys2Proof.Machine.execEvtReadLog c s
  | .hlConfigure c => Sys2Proof.Machine.execHlConfigure c s
  | .hlStatus c => Sys2Proof.Machine.execHlStatus c s
  | .hlCtleSet c => Sys2Proof.Machine.execHlCtleSet c s
  | .commandTimeoutExpiry e => Sys2Proof.Machine.execCommandTimeoutExpiry e s
  | .sqTailDoorbell n v => Sys2Proof.Machine.execSqTailDoorbell n v s
  | .slotFetch => Sys2Proof.Machine.execSlotFetch s
  | .slotFetchDone r data => Sys2Proof.Machine.execSlotFetchDone r data s
  | .hostReadCompletionTimeout r => Sys2Proof.Machine.execHostReadCompletionTimeout r s
  | .statusSlotWrite n => Sys2Proof.Machine.execStatusSlotWrite n s
  | .cqHeadDoorbell n v => Sys2Proof.Machine.execCqHeadDoorbell n v s
  | .cqCoalesceExpiry n => Sys2Proof.Machine.execCqCoalesceExpiry n s
  | .sqCfgWrite v n w => Sys2Proof.Machine.execSqCfgWrite v n w s
  | .cqCfgWrite v n w => Sys2Proof.Machine.execCqCfgWrite v n w s
  | .ldtCtlWrite v w => Sys2Proof.Machine.execLdtCtlWrite v w s
  | .ldtCacheFill l data => Sys2Proof.Machine.execLdtCacheFill l data s
  | .mailboxGo serial w => Sys2Proof.Machine.execMailboxGo serial w s
  | .mailboxBufferWrite word w => Sys2Proof.Machine.execMailboxBufferWrite word w s
  | .mboxWdata w => Sys2Proof.Machine.execMboxWdata w s
  | .mboxRdata => Sys2Proof.Machine.execMboxRdata s
  | .eventRingHeadDoorbell w => Sys2Proof.Machine.execEventRingHeadDoorbell w s
  | .evtRingCfgWrite v reg w => Sys2Proof.Machine.execEvtRingCfgWrite v reg w s
  | .eventRecordDelivery => Sys2Proof.Machine.execEventRecordDelivery s
  | .eventLogWrite => Sys2Proof.Machine.execEventLogWrite s
  | .counterRecordPeriod l => Sys2Proof.Machine.execCounterRecordPeriod l s
  | .registerWrite v a w whole => Sys2Proof.Machine.execRegisterWrite v a w whole s
  | .clearOnRead v a whole => Sys2Proof.Machine.execClearOnRead v a whole s
  | .devTimeLoRead v => Sys2Proof.Machine.execDevTimeLoRead v s
  | .snapCtlGo v => Sys2Proof.Machine.execSnapCtlGo v s
  | .snapCtlHeld v b => Sys2Proof.Machine.execSnapCtlHeld v b s
  | .snapshotComplete => Sys2Proof.Machine.execSnapshotComplete s
  | .lockCtlWrite v w => Sys2Proof.Machine.execLockCtlWrite v w s
  | .portReset v p => Sys2Proof.Machine.execPortReset v p s
  | .pairSwapWrite v p b => Sys2Proof.Machine.execPairSwapWrite v p b s
  | .pairRestart v l => Sys2Proof.Machine.execPairRestart v l s
  | .txDisableWrite v l b => Sys2Proof.Machine.execTxDisableWrite v l b s
  | .clkSynWrite v l b => Sys2Proof.Machine.execClkSynWrite v l b s
  | .tileReset v t => Sys2Proof.Machine.execTileReset v t s
  | .devResetCtlWrite v w => Sys2Proof.Machine.execDevResetCtlWrite v w s
  | .chainRestart v => Sys2Proof.Machine.execChainRestart v s
  | .refSelWrite v w step diff => Sys2Proof.Machine.execRefSelWrite v w step diff s
  | .synSlotWrite v ix k => Sys2Proof.Machine.execSynSlotWrite v ix k s
  | .synBwWrite v ix bw => Sys2Proof.Machine.execSynBwWrite v ix bw s
  | .synPredivWrite v ix m1 => Sys2Proof.Machine.execSynPredivWrite v ix m1 s
  | .synSlotWordWrite v ix k frac w => Sys2Proof.Machine.execSynSlotWordWrite v ix k frac w s
  | .rcSlotWrite v osb k word => Sys2Proof.Machine.execRcSlotWrite v osb k word s
  | .rcEnableWrite v osb b => Sys2Proof.Machine.execRcEnableWrite v osb b s
  | .outDivPhaseWrite v n phase x => Sys2Proof.Machine.execOutDivPhaseWrite v n phase x s
  | .outFmtSrcWrite v n fmt src => Sys2Proof.Machine.execOutFmtSrcWrite v n fmt src s
  | .outCtlReturn v n => Sys2Proof.Machine.execOutCtlReturn v n s
  | .outSpreadWrite v n w => Sys2Proof.Machine.execOutSpreadWrite v n w s
  | .spreadTop n => Sys2Proof.Machine.execSpreadTop n s
  | .hlCtlWrite v n w => Sys2Proof.Machine.execHlCtlWrite v n w s
  | .pwrTargetWrite v d w => Sys2Proof.Machine.execPwrTargetWrite v d w s
  | .pwrPlWrite v oper w => Sys2Proof.Machine.execPwrPlWrite v oper w s
  | .perfCtlClear v b => Sys2Proof.Machine.execPerfCtlClear v b s
  | .perfCtlWinArm v b => Sys2Proof.Machine.execPerfCtlWinArm v b s
  | .perfCtlEnFreeze v b en freeze => Sys2Proof.Machine.execPerfCtlEnFreeze v b en freeze s
  | .perfSelWrite v b n w => Sys2Proof.Machine.execPerfSelWrite v b n w s
  | .perfWindowStart b => Sys2Proof.Machine.execPerfWindowStart b s
  | .perfWindowEnd b => Sys2Proof.Machine.execPerfWindowEnd b s
  | .perfOverflow b n => Sys2Proof.Machine.execPerfOverflow b n s
  | .bcfgSetup w => Sys2Proof.Machine.execBcfgSetup w s
  | .bcfgCommit w => Sys2Proof.Machine.execBcfgCommit w s
  | .bcfgDataAccess write => Sys2Proof.Machine.execBcfgDataAccess write s
  | .serialWindowedRead ix n late => Sys2Proof.Machine.execSerialWindowedRead ix n late s
  | .serialWindowedWrite ix ws => Sys2Proof.Machine.execSerialWindowedWrite ix ws s
  | .serialAddressedFrame rsvd a ws n late => Sys2Proof.Machine.execSerialAddressedFrame rsvd a ws n late s
  | .serialStatusRead => Sys2Proof.Machine.execSerialStatusRead s
  | .serialRetry n => Sys2Proof.Machine.execSerialRetry n s
  | .serialHeldReadDone => Sys2Proof.Machine.execSerialHeldReadDone s
  | .serialFrameIdleTimeout f => Sys2Proof.Machine.execSerialFrameIdleTimeout f s
  | .serialWritePosted => Sys2Proof.Machine.execSerialWritePosted s
  | .accessStallTimeout v a write => Sys2Proof.Machine.execAccessStallTimeout v a write s
  | .functionReset kind => Sys2Proof.Machine.execFunctionReset kind s
  | .d3hotEntry => Sys2Proof.Machine.execD3hotEntry s
  | .d0Return => Sys2Proof.Machine.execD0Return s
  | .busMasterEnableChange b => Sys2Proof.Machine.execBusMasterEnableChange b s
  | .msixUnmask v => Sys2Proof.Machine.execMsixUnmask v s
  | .pcieInboundRequest write a poisoned => Sys2Proof.Machine.execPcieInboundRequest write a poisoned s
  | .pcieConfigRequest r => Sys2Proof.Machine.execPcieConfigRequest r s
  | .powerOnReset => Sys2Proof.Machine.execPowerOnReset s
  | .resetNPulse => Sys2Proof.Machine.execResetNPulse s
  | .wakePin => Sys2Proof.Machine.execWakePin s
  | .deviceBoot mgr passing imgs => Sys2Proof.Machine.execDeviceBoot mgr passing imgs s
  | .refWaitExpiry => Sys2Proof.Machine.execRefWaitExpiry s
  | .pendingRootSwitch => Sys2Proof.Machine.execPendingRootSwitch s
  | .rackPllBootEnable ix => Sys2Proof.Machine.execRackPllBootEnable ix s
  | .tileSynthEnable t => Sys2Proof.Machine.execTileSynthEnable t s
  | .supplyDipStart rail low => Sys2Proof.Machine.execSupplyDipStart rail low s
  | .supplyDipRecovery rail low => Sys2Proof.Machine.execSupplyDipRecovery rail low s
  | .mramHoldEnd => Sys2Proof.Machine.execMramHoldEnd s
  | .supplyLow rail low => Sys2Proof.Machine.execSupplyLow rail low s
  | .vddAonLow => Sys2Proof.Machine.execVddAonLow s
  | .thermAlert ix t => Sys2Proof.Machine.execThermAlert ix t s
  | .thermClear ts => Sys2Proof.Machine.execThermClear ts s
  | .thermCrit ix t => Sys2Proof.Machine.execThermCrit ix t s
  | .powerIdleTimerExpiry d st => Sys2Proof.Machine.execPowerIdleTimerExpiry d st s
  | .powerDrainTimeout d => Sys2Proof.Machine.execPowerDrainTimeout d s
  | .powerEntryComplete d => Sys2Proof.Machine.execPowerEntryComplete d s
  | .wakeRequest d edge late => Sys2Proof.Machine.execWakeRequest d edge late s
  | .domainReady d => Sys2Proof.Machine.execDomainReady d s
  | .perfLevelChangeDone u => Sys2Proof.Machine.execPerfLevelChangeDone u s
  | .deviceOffEntry => Sys2Proof.Machine.execDeviceOffEntry s
  | .refNoEdges src dev step diff => Sys2Proof.Machine.execRefNoEdges src dev step diff s
  | .refFrequencyFault src dev step diff => Sys2Proof.Machine.execRefFrequencyFault src dev step diff s
  | .monitorPass src dev => Sys2Proof.Machine.execMonitorPass src dev s
  | .refSlewEnd => Sys2Proof.Machine.execRefSlewEnd s
  | .deviceTimeCorrection d => Sys2Proof.Machine.execDeviceTimeCorrection d s
  | .tileRootReturn t => Sys2Proof.Machine.execTileRootReturn t s
  | .aonCoreFailover dev => Sys2Proof.Machine.execAonCoreFailover dev s
  | .bothCoresDead => Sys2Proof.Machine.execBothCoresDead s
  | .muxWatchdogForce mux inst => Sys2Proof.Machine.execMuxWatchdogForce mux inst s
  | .muxNewDead mux inst oldAlive => Sys2Proof.Machine.execMuxNewDead mux inst oldAlive s
  | .muxSwitchDone mux inst => Sys2Proof.Machine.execMuxSwitchDone mux inst s
  | .synthLossOfLock ix => Sys2Proof.Machine.execSynthLossOfLock ix s
  | .synthMarginLow ix m => Sys2Proof.Machine.execSynthMarginLow ix m s
  | .synthHopDone ix band other fresh => Sys2Proof.Machine.execSynthHopDone ix band other fresh s
  | .steeringPeriod p q => Sys2Proof.Machine.execSteeringPeriod p q s
  | .smallStepApplied ix => Sys2Proof.Machine.execSmallStepApplied ix s
  | .steerRamp p => Sys2Proof.Machine.execSteerRamp p s
  | .acquireRamp p => Sys2Proof.Machine.execAcquireRamp p s
  | .rackPllRefLost ix => Sys2Proof.Machine.execRackPllRefLost ix s
  | .rackPllRefReturn ix => Sys2Proof.Machine.execRackPllRefReturn ix s
  | .rackPllUnlock ix => Sys2Proof.Machine.execRackPllUnlock ix s
  | .rackPllRelock ix => Sys2Proof.Machine.execRackPllRelock ix s
  | .bypassInputFail src => Sys2Proof.Machine.execBypassInputFail src s
  | .rackHopDone ix band fresh => Sys2Proof.Machine.execRackHopDone ix band fresh s
  | .clapperPulse => Sys2Proof.Machine.execClapperPulse s
  | .clapperRideThroughEnd t => Sys2Proof.Machine.execClapperRideThroughEnd t s
  | .superframeStart l bad lpi => Sys2Proof.Machine.execSuperframeStart l bad lpi s
  | .txBankExchange l => Sys2Proof.Machine.execTxBankExchange l s
  | .rxAnalogExchange l => Sys2Proof.Machine.execRxAnalogExchange l s
  | .rxDigitalExchange l => Sys2Proof.Machine.execRxDigitalExchange l s
  | .compatPeriodBoundary p bad badNext => Sys2Proof.Machine.execCompatPeriodBoundary p bad badNext s
  | .rowStart l lpi => Sys2Proof.Machine.execRowStart l lpi s
  | .txUnderrun l => Sys2Proof.Machine.execTxUnderrun l s
  | .gbxOverflow l n => Sys2Proof.Machine.execGbxOverflow l n s
  | .syncWordReceived l n spaced ms => Sys2Proof.Machine.execSyncWordReceived l n spaced ms s
  | .sfLockLoss l => Sys2Proof.Machine.execSfLockLoss l s
  | .rowHeaderReceived l r h => Sys2Proof.Machine.execRowHeaderReceived l r h s
  | .countReceived l msg off => Sys2Proof.Machine.execCountReceived l msg off s
  | .cutNoticeReceived l msg => Sys2Proof.Machine.execCutNoticeReceived l msg s
  | .cutAckReceived l msg => Sys2Proof.Machine.execCutAckReceived l msg s
  | .identityReceived l msg => Sys2Proof.Machine.execIdentityReceived l msg s
  | .quietMessageReceived l msg => Sys2Proof.Machine.execQuietMessageReceived l msg s
  | .snrMeasurement l e held => Sys2Proof.Machine.execSnrMeasurement l e held s
  | .interpLimit l high n first => Sys2Proof.Machine.execInterpLimit l high n first s
  | .quietWake l => Sys2Proof.Machine.execQuietWake l s
  | .clause73Page l page ms => Sys2Proof.Machine.execClause73Page l page ms s
  | .negotiationResolution m off => Sys2Proof.Machine.execNegotiationResolution m off s
  | .beaconDetect l b ms => Sys2Proof.Machine.execBeaconDetect l b ms s
  | .beaconWindowExpiry m => Sys2Proof.Machine.execBeaconWindowExpiry m s
  | .fastRoadEntry m off => Sys2Proof.Machine.execFastRoadEntry m off s
  | .compatParallelDetect m fired => Sys2Proof.Machine.execCompatParallelDetect m fired s
  | .masterSuperframeZero m => Sys2Proof.Machine.execMasterSuperframeZero m s
  | .joinRoadLock m => Sys2Proof.Machine.execJoinRoadLock m s
  | .timingDecision m => Sys2Proof.Machine.execTimingDecision m s
  | .trainingPhaseEnd m => Sys2Proof.Machine.execTrainingPhaseEnd m s
  | .trainingPhaseLimit m => Sys2Proof.Machine.execTrainingPhaseLimit m s
  | .qualificationWindow l e => Sys2Proof.Machine.execQualificationWindow l e s
  | .compatTrainingRequest l tx => Sys2Proof.Machine.execCompatTrainingRequest l tx s
  | .compatTrainingComplete m => Sys2Proof.Machine.execCompatTrainingComplete m s
  | .compatTrainingTimeout m => Sys2Proof.Machine.execCompatTrainingTimeout m s
  | .compatSignalLost l => Sys2Proof.Machine.execCompatSignalLost l s
  | .leavingEnd m => Sys2Proof.Machine.execLeavingEnd m s
  | .holdoffExpiry m => Sys2Proof.Machine.execHoldoffExpiry m s
  | .takeVerification t => Sys2Proof.Machine.execTakeVerification t s
  | .bankFill t => Sys2Proof.Machine.execBankFill t s
  | .gradingTemperatureEval l t => Sys2Proof.Machine.execGradingTemperatureEval l t s
  | .gradingTimerExpiry l => Sys2Proof.Machine.execGradingTimerExpiry l s
  | .gradingPassStart g => Sys2Proof.Machine.execGradingPassStart g s
  | .gradingSegmentFold g => Sys2Proof.Machine.execGradingSegmentFold g s
  | .gradingRunEnd l take retake clusters => Sys2Proof.Machine.execGradingRunEnd l take retake clusters s
  | .continuityRecordWrite m => Sys2Proof.Machine.execContinuityRecordWrite m s
  | .rushesCaptureStart p pos trig => Sys2Proof.Machine.execRushesCaptureStart p pos trig s
  | .rushesCaptureDone p data => Sys2Proof.Machine.execRushesCaptureDone p data s
  | .rushesHeld p => Sys2Proof.Machine.execRushesHeld p s
  | .rushesUploadDone p => Sys2Proof.Machine.execRushesUploadDone p s
  | .cableTestPairDone p clusters far length next => Sys2Proof.Machine.execCableTestPairDone p clusters far length next s
  | .eyeScanPoint n k => Sys2Proof.Machine.execEyeScanPoint n k s
  | .utilWindowEnd p counts unmon => Sys2Proof.Machine.execUtilWindowEnd p counts unmon s
  | .acnanMarkerReceived n p t errs a b => Sys2Proof.Machine.execAcnanMarkerReceived n p t errs a b s
  | .acnanInvalidHeader n second => Sys2Proof.Machine.execAcnanInvalidHeader n second s
  | .acnanSlipSearchEnd n found => Sys2Proof.Machine.execAcnanSlipSearchEnd n found s
  | .acnanMarkerLost n => Sys2Proof.Machine.execAcnanMarkerLost n s
  | .acnanElasticSlip n => Sys2Proof.Machine.execAcnanElasticSlip n s
  | .acnanScheduledMarker p fills => Sys2Proof.Machine.execAcnanScheduledMarker p fills s
  | .acnanStuffOverflow n => Sys2Proof.Machine.execAcnanStuffOverflow n s
  | .hlGbxOverflow l words => Sys2Proof.Machine.execHlGbxOverflow l words s
  | .acnanLaneSleep n => Sys2Proof.Machine.execAcnanLaneSleep n s
  | .acnanLaneWake n => Sys2Proof.Machine.execAcnanLaneWake n s
  | .acnanRxAsleep n blocks => Sys2Proof.Machine.execAcnanRxAsleep n blocks s
  | .acnanSignalDetect n => Sys2Proof.Machine.execAcnanSignalDetect n s
  | .gearboxResetHandshake bridge u n => Sys2Proof.Machine.execGearboxResetHandshake bridge u n s
  | .gearboxHandshakeEnd l => Sys2Proof.Machine.execGearboxHandshakeEnd l s
  | .resetComplete kind u => Sys2Proof.Machine.execResetComplete kind u s
  | .scrubRead b off found rewritten h => Sys2Proof.Machine.execScrubRead b off found rewritten h s
  | .tmrMismatch a majority copyA => Sys2Proof.Machine.execTmrMismatch a majority copyA s
  | .operatorWatchdogCheck beats => Sys2Proof.Machine.execOperatorWatchdogCheck beats s
  | .operatorTrap memory => Sys2Proof.Machine.execOperatorTrap memory s
  | .operatorRestart crypto => Sys2Proof.Machine.execOperatorRestart crypto s
  | .rollbackFloorTimer patch => Sys2Proof.Machine.execRollbackFloorTimer patch s
  | .quiescentPoint crypto => Sys2Proof.Machine.execQuiescentPoint crypto s
  | .patchActivation => Sys2Proof.Machine.execPatchActivation s
  | .supervisorRequest v a w => Sys2Proof.Machine.execSupervisorRequest v a w s
  | .lockstepMismatch => Sys2Proof.Machine.execLockstepMismatch s
  | .tokenFrame f v => Sys2Proof.Machine.execTokenFrame f v s
  | .commitFrame f => Sys2Proof.Machine.execCommitFrame f s
  | .enumerationTimeout => Sys2Proof.Machine.execEnumerationTimeout s
  | .cmdFrame f op c => Sys2Proof.Machine.execCmdFrame f op c s
  | .replyFrame f e addr status result => Sys2Proof.Machine.execReplyFrame f e addr status result s
  | .eventFrame fate addr seq code unit time data logged => Sys2Proof.Machine.execEventFrame fate addr seq code unit time data logged s
  | .timeFrameSend => Sys2Proof.Machine.execTimeFrameSend s
  | .timeFrameReceived fate f res => Sys2Proof.Machine.execTimeFrameReceived fate f res s
  | .timeFrameReturn fate f rt => Sys2Proof.Machine.execTimeFrameReturn fate f rt s
  | .chainTimeTimeout => Sys2Proof.Machine.execChainTimeTimeout s
  | .epochFrame fate f => Sys2Proof.Machine.execEpochFrame fate f s
  | .epochFrameReturn fate f => Sys2Proof.Machine.execEpochFrameReturn fate f s
  | .epochReturnTimeout id => Sys2Proof.Machine.execEpochReturnTimeout id s
  | .epochUnconfirmedDiscard id => Sys2Proof.Machine.execEpochUnconfirmedDiscard id s
  | .epochFire id => Sys2Proof.Machine.execEpochFire id s
  | .scheduledHopFire ix => Sys2Proof.Machine.execScheduledHopFire ix s
  | .chainInLoss => Sys2Proof.Machine.execChainInLoss s
  | .inLossFrameSend => Sys2Proof.Machine.execInLossFrameSend s
  | .inLossFrame f src => Sys2Proof.Machine.execInLossFrame f src s
  | .ringBrokenTimeout => Sys2Proof.Machine.execRingBrokenTimeout s
  | .chainInRelock => Sys2Proof.Machine.execChainInRelock s
  | .fabricStatusTimeout => Sys2Proof.Machine.execFabricStatusTimeout s
  | .rsMonitorLock l host n => Sys2Proof.Machine.execRsMonitorLock l host n s
  | .rsMonitorLockLoss l host n => Sys2Proof.Machine.execRsMonitorLockLoss l host n s
  | .perstNDeassertion => Sys2Proof.Machine.execPerstNDeassertion s
  | .aspmL1Entry => Sys2Proof.Machine.execAspmL1Entry s
  | .aspmL1Exit => Sys2Proof.Machine.execAspmL1Exit s
  | .cableProfileComputed g recs => Sys2Proof.Machine.execCableProfileComputed g recs s
  | .finalChunkVerified crypto => Sys2Proof.Machine.execFinalChunkVerified crypto s

end Sys2Proof.Machine
end

