-- ==== Sys2Proof/Machine/Step.lean ====
section
/-! DEFINITION. One step: the command at the front of the queue, or a nanosecond of device time when none waits. -/
namespace Sys2Proof.Machine

/-- Cycles of the 1.25 GHz root clock that end in the nanosecond after time `t` (R411). -/
def rootCycles (t : Nat) : Nat := 5 * (t + 1) / 4 - 5 * t / 4

/-- Nothing is commanded: device time advances by 1 ns, and the cycle counters with it. DESIGN CHOICE: log 3. DEDUCED: log 5. -/
def idle (s : State) : State :=
  if s.mode ≠ .running then s
  else idleCounts s.time.toNat (rootCycles s.time.toNat) { s with time := s.time + 1 }

/-- DESIGN CHOICE: log 3. -/
def step (s : State) : Host.Outcome State Fault Refusal :=
  match s.pending with
  | [] => .next (idle s)
  | c :: rest => exec c { s with pending := rest }

/-- The state with the command that a word spells at the front of the queue. DESIGN CHOICE: log 4. -/
def State.withFetchWord (s : State) (nbits w : Nat) : State :=
  match decodeTableWord nbits w with
  | some c => { s with pending := c :: s.pending }
  | none => s

end Sys2Proof.Machine
end

