-- ==== Sys2Proof/Machine/DataPath.lean ====
section
/-! DEFINITION. What runs on the wires between the rows of the table: the line's codewords, slates and bodies, the arithmetic of the
transmit and receive paths under a pair's active bank, and the blocks of the host lanes (chapters 02, 03, 07). No row brings
single symbols or samples; these functions say what the state makes of them. -/
namespace Sys2Proof.Machine

/-! ### Symbols, rows and superframes (R30 to R34, R37 to R41) -/

/-- The levels of a list of bits, two a symbol, the first the more significant (R30). -/
def symbolsOf : List Bool → List Int
  | m :: l :: t => pam4 m l :: symbolsOf t
  | _ => []
/-- The training pattern's base symbols T[0] to T[1,535] (R33). -/
def trainingBase : List Int := symbolsOf (prbs13 prbs13Seed 3072)
/-- The sync word's symbols (R32). -/
def syncSymbols : List Int := (bitsDown syncWord).map (fun b => if b then 3 else -3)
/-- Symbols 64 to 1,599 of a slate: message bit b signs sub-block b (R33). -/
def trainingSymbols (m : BitVec 64) : List Int :=
  trainingBase.mapIdx (fun i t => if m.getLsbD (i / 24) then -t else t)
/-- Symbols 0 to 1,599 of the slate that a pair sends. The 448 symbols that follow are the quiet interval (R31, R34).
DESIGN CHOICE: log 141. -/
def slateSymbols (p : PairSt) : List Int := syncSymbols ++ trainingSymbols p.slate
/-- Symbols 1,600 to 2,047: zero output, or the TONE sequence +3, +3, −3, −3 (R34, R133). -/
def injectionSymbols (kind : Nat) : List Int :=
  if kind = 2 then (List.replicate 112 [3, 3, -3, -3]).flatten else List.replicate 448 0
/-- A superframe's quiet interval is this end's (R34). -/
def ownQuiet (slave : Bool) (sf : Word) : Bool := bitGet sf 0 == slave

/-- Where codeword j of row r starts (R37). -/
def codewordStart (r j : Nat) : Nat := 2048 + (255 * r + j) * 64

/-- Bits from the scrambler, and the state after them (R41). The bit sent out is the one shifted in, as R33 says of its generator.
DEDUCED: log 142. -/
def scrambleBits (x : BitVec 23) : List Bool → List Bool × BitVec 23
  | [] => ([], x)
  | b :: t =>
    let (k, y) := scramblerStep x
    let (r, z) := scrambleBits y t
    ((b ^^ k) :: r, z)

/-- The next 120 stream bits and the rest; a codeword that runs short is completed with zeros (R43). -/
def nextData (bits : List Bool) : List Bool × List Bool :=
  (bits.take 120 ++ List.replicate (120 - bits.length) false, bits.drop 120)
/-- `n` data codewords' information bits from a stream, and the rest of the stream. -/
def dataWords : Nat → List Bool → List (List Bool) × List Bool
  | 0, bits => ([], bits)
  | n + 1, bits =>
    let (w, bits) := nextData bits
    let (ws, bits) := dataWords n bits
    (w :: ws, bits)
/-- The information bits of a row's 255 codewords before scrambling: the header, 254 − f of data, f of fill (R38, R39). -/
def rowInfo (h : BitVec 120) (f : Nat) (bits : List Bool) : List (List Bool) × List Bool :=
  let (ws, bits) := dataWords (254 - f) bits
  (((List.range 120).map (fun i => h.getLsbD i) :: ws) ++ List.replicate f (List.replicate 120 false), bits)
/-- Codewords scrambled and coded one after another. -/
def bodyWords (x : BitVec 23) : List (List Bool) → List (List Bool) × BitVec 23
  | [] => ([], x)
  | w :: t =>
    let (c, y) := scrambleBits x w
    let (r, z) := bodyWords y t
    (innerEncode c :: r, z)
/-- The scrambler after `n` more bits. -/
def scramblerAfter : Nat → BitVec 23 → BitVec 23
  | 0, x => x
  | n + 1, x => scramblerAfter n (scramblerStep x).2
/-- The scrambler at the start of row r: it runs on from row 0 over the 255 · 120 information bits of each row (R41). -/
def rowScrambler (seed : BitVec 23) (r : Nat) : BitVec 23 := scramblerAfter (30600 * r) seed
/-- The number of the row whose header a pair sent last. -/
def sentRow (p : PairSt) : Nat := (p.row + 8223) % 8224
/-- The symbols of the row whose header a pair sent last, from the stream's bits (R29, R30, R39, R41). DESIGN CHOICE: log 141. -/
def rowSymbols (p : PairSt) (bits : List Bool) : List Int :=
  ((bodyWords (rowScrambler p.scr (sentRow p)) (rowInfo p.header p.fill bits).1).1.map symbolsOf).flatten
/-- The information bits of codewords, descrambled one after another. -/
def clearWords (x : BitVec 23) : List (List Bool) → List (List Bool)
  | [] => []
  | w :: t => let (c, y) := scrambleBits x w; c :: clearWords y t
/-- The stream's bits of the row received last, from its 255 decoded codewords: the data codewords behind the header, without the fill
(R38 to R41). -/
def receivedData (p : PairSt) (words : List (List Bool)) : List Bool :=
  ((clearWords (rowScrambler p.rxScr p.rxRow) (words.map (fun c => c.take 120))).drop 1 |>.take (254 - p.rxFill)).flatten

/-! ### The transmit path (R62, R65) -/

def txTap (t : List Byte) (i : Nat) : Int := tap t 0x40 i
def txAmpl (t : List Byte) : Nat := leAt t 0x4C 2 % 2048
/-- Σ c[j] · a[n − j], j from −2 to 3. -/
def txSum (t : List Byte) (a : Int → Int) (n : Int) : Int :=
  ((List.range 6).map (fun (i : Nat) => txTap t i * a (n + 2 - (i : Int)))).sum
/-- The DAC code of symbol n. DESIGN CHOICE: log 141. -/
def dacCode (t : List Byte) (a : Int → Int) (n : Int) : Int := roundDiv ((txAmpl t : Int) * 127 * txSum t a n) (3 * 2 ^ 24)

/-- The 1/(1 + D) mod 4 precoder on symbol values 0 to 3, from the value before (R65). PRESUMED: log 145. -/
def precode (on : Bool) : Nat → List Nat → List Nat
  | _, [] => []
  | last, g :: t => let v := if on then (g + 4 - last % 4) % 4 else g; v :: precode on v t
/-- TX_PRECODE of TX_CTL. -/
def txPrecode (t : List Byte) : Bool := (leAt t 0x4E 2).testBit 0
/-- The levels that enter the TX FIR: the precoder stands ahead of it where the take sets TX_PRECODE (R65). Symbol value v has level 2v − 3.
PRESUMED: log 145. -/
def precodedLevels (t : List Byte) (a : List Int) : List Int :=
  if txPrecode t then (precode true 0 (a.map (fun x => ((x + 3) / 2).toNat))).map (fun (v : Nat) => 2 * (v : Int) - 3) else a
/-- The level of symbol n of a list; nothing was sent before it. -/
def levelAt (a : List Int) (n : Int) : Int := if n < 0 then 0 else a.getD n.toNat 0

/-! ### The receive path on ADC time (R61, R67, R69, R70, R95, R96) -/

def trimOffset (t : List Byte) (k : Nat) : Int := signed 10 (leAt t (0x80 + 4 * k) 4 / 1024)
def trimGain (t : List Byte) (k : Nat) : Nat := leAt t (0x80 + 4 * k) 4 / 1048576 % 4096
/-- Stage 3: the sample at position j of the pair's own superframe, which slice j mod 64 takes. -/
def trimmed (t : List Byte) (j : Nat) (x : Int) : Rat :=
  ((x : Rat) - trimOffset t (j % 64) / 16) * (1 + ((trimGain t (j % 64) : Int) - 2048 : Int) / 16384)

/-- Σ over `k` taps from an offset of coefficient · code, the first tap at a delay. -/
def tapSum (t : List Byte) (o k : Nat) (u : Int → Int) (n delay : Int) : Int :=
  ((List.range k).map (fun (i : Nat) => tap t o i * u (n - delay - (i : Int)))).sum
/-- Stage 4: the near-echo block and the enabled windows, on the pair's own DAC codes. -/
def echoSum (t : List Byte) (u : Int → Int) (n : Int) : Int :=
  tapSum t 0x4C0 64 u n 0
    + (((List.range 8).filter (winOn t)).map (fun w => tapSum t (0x188 + 0x68 * w) 48 u n (winStart t w))).sum
/-- The aggressor of entry a of pair k (R70, R77). -/
def aggressor (k a : Nat) : Nat := if a < k then a else a + 1
def nextOn (t : List Byte) (a : Nat) : Bool := (leAt t (0x540 + 0x44 * a) 2).testBit 15
/-- Stage 5: the enabled NEXT entries, on the DAC codes of the port's other pairs. -/
def nextSum (t : List Byte) (k : Nat) (uq : Nat → Int → Rat) (n : Int) : Rat :=
  (((List.range 7).filter (nextOn t)).map (fun a =>
    ((List.range 32).map (fun (i : Nat) =>
      (tap t (0x544 + 0x44 * a) i : Rat) * uq (aggressor k a) (n - (leAt t (0x540 + 0x44 * a) 1 : Nat) - (i : Int)))).sum)).sum
/-- The residual r of a sample, in ADC LSB, from the own DAC codes and those of the port's other pairs. DESIGN CHOICE: log 141. -/
def residual (t : List Byte) (k j : Nat) (x : Int) (u : Int → Int) (uq : Nat → Int → Rat) (n : Int) : Rat :=
  trimmed t j x - ((echoSum t u n : Rat) + nextSum t k uq n) / 65536

/-! ### The receive path on far time (R72, R76 to R78) -/

/-- Four-point cubic Lagrange interpolation at n + φ / 1,024. DEDUCED: log 143. -/
def interpolate (r : Int → Rat) (phi n : Int) : Rat :=
  let i := n + phi / 1024
  let u : Rat := ((phi % 1024 : Int) : Rat) / 1024
  r (i - 1) * (-(u * (u - 1) * (u - 2)) / 6) + r i * ((u + 1) * (u - 1) * (u - 2) / 2)
    + r (i + 1) * (-((u + 1) * u * (u - 2)) / 2) + r (i + 2) * ((u + 1) * u * (u - 1) / 6)

/-- Stage 7, in level units: tap FFE_MAIN meets the sample aligned with the decision. DEDUCED: log 143. -/
def equalized (t : List Byte) (y : Int → Rat) (m : Int) : Rat :=
  (((List.range 32).map (fun (i : Nat) => (tap t 0x7E0 i : Rat) * y (m + (leAt t 0x6C 1 % 32 : Nat) - (i : Int)))).sum)
    / 8192 / (2 ^ (leAt t 0x6D 1 % 8) : Nat)
def fextOn (t : List Byte) (a : Nat) : Bool := (leAt t (0x741 + 0x14 * a) 1).testBit 0
def fextDelay (t : List Byte) (a : Nat) : Int := signed 8 (leAt t (0x740 + 0x14 * a) 1)
/-- Stage 9's FEXT estimate: the enabled entries on the decisions of the port's other pairs, in 2^-14 level. -/
def fextSum (t : List Byte) (k : Nat) (bq : Nat → Int → Int) (m : Int) : Int :=
  (((List.range 7).filter (fextOn t)).map (fun a => tapSum t (0x744 + 0x14 * a) 8 (bq (aggressor k a)) m (fextDelay t a))).sum
/-- The slicer's input: the equalized sample of 128 symbols ago less FEXT and the feedback of the last decision.
DESIGN CHOICE: log 141. -/
def slicerIn (t : List Byte) (k : Nat) (z : Int → Rat) (bq : Nat → Int → Int) (m : Int) : Rat :=
  z (m - 128) - (fextSum t k bq m + tap t 0x6A 0 * bq k (m - 1) : Int) / 16384

/-! ### Host lanes (R210 to R214) -/

/-- The header of a block from what its halves carry. -/
def blockHeader (dataA dataB : Bool) : Nat :=
  if dataA then (if dataB then 0b0110 else 0b0101) else (if dataB then 0b1010 else 0b1001)
/-- What a header says of the halves: data or fill; none for a marker or an invalid header. DEDUCED: log 146. -/
def headerHalves (h : Nat) : Option (Bool × Bool) :=
  if h = 0b0110 then some (true, true) else if h = 0b0101 then some (true, false)
  else if h = 0b1010 then some (false, true) else if h = 0b1001 then some (false, false) else none
def headerValid (h : Nat) : Bool := (headerHalves h).isSome || h == 0b1111
/-- A half under an invalid header is fill when its last 248 descrambled bits hold at most 8 ones (R219). -/
def halfIsFill (bits : List Bool) : Bool := decide (((bits.drop 8).filter id).length ≤ 8)
/-- The 256 bits of a fill half: its status code, highest bit first, and zeros (R211). -/
def fillHalf (code : BitVec 8) : List Bool := bitsDown code ++ List.replicate 248 false
/-- The status of a fill half that the device sends for a stream (R207, R212): ABSENT, QUIET, BREAK or FILL. DEDUCED: log 146. -/
def fillStatus (s : State) (l : Nat) : BitVec 8 :=
  let x := laneOf s (txLaneOf l)
  let p := pairOf s (streamRxPair s l)
  let due : BitVec 8 := if (if l % 2 = 0 then x.breakA else x.breakB) then 3 else 0
  if (portOf s (l / 8)).hostLoop then (if (pairOf s l).absent then 1 else due)
  else if !isStream s l || !pairLinkIn s l (fun z => z == .up) then 1
  else if p.quiet then 2
  else if p.rxAbsent then 1
  else due

/-- A half of a block before scrambling: the next 256 bits of its stream where it is sent as data, else a fill half; with what is left of the
stream, which runs on into its next data half (R211, R225). -/
def nextHalf (status : BitVec 8) (queue : List Bool) : Bool × List Bool × List Bool :=
  if 256 ≤ queue.length then (true, queue.take 256, queue.drop 256) else (false, fillHalf status, queue)
/-- Bits d[0] to d[511] of a block and its header, from the two streams' queues (R210, R211). -/
def nextBlock (sa sb : BitVec 8) (qa qb : List Bool) : Nat × List Bool × List Bool × List Bool :=
  let a := nextHalf sa qa
  let b := nextHalf sb qb
  (blockHeader a.1 b.1, a.2.1 ++ b.2.1, a.2.2, b.2.2)
/-- The 258 symbols of a block: h[3:2], h[1:0], then 256 payload symbols, of which half A is the first 128 (R210). -/
def blockSymbols (h : Nat) (d : List Bool) : List Int := symbolsOf (bitsDown (BitVec.ofNat 4 h)) ++ symbolsOf d
/-- A marker block of a unit: its payload is not scrambled (R213, R215). -/
def markerSymbols (u : BitVec 128) : List Int :=
  blockSymbols 0b1111 ((List.range 512).map (fun i => (markerPayload u).getLsbD i))
/-- The header and the halves A and B of a received block. -/
def splitBlock (a : List Int) : Nat × List Bool × List Bool :=
  let bits := a.flatMap levelBits
  ((bits.take 4).foldl (fun n b => 2 * n + b2n b) 0, (bits.drop 4).take 256, (bits.drop 260).take 256)

/-- One step of the PRBS31 scrambler x^31 + x^28 + 1 (R213). -/
def laneScramblerStep (x : BitVec 31) : Bool × BitVec 31 :=
  let b := x.getLsbD 30 ^^ x.getLsbD 27
  (b, (x <<< 1) ||| BitVec.ofNat 31 (b2n b))
/-- DEDUCED: log 142. -/
def laneScramble (x : BitVec 31) : List Bool → List Bool × BitVec 31
  | [] => ([], x)
  | b :: t =>
    let (k, y) := laneScramblerStep x
    let (r, z) := laneScramble y t
    ((b ^^ k) :: r, z)

/-- `n` blocks after a marker: the scrambler, loaded with the marker's seed, runs over their payloads and over nothing else (R213). -/
def scrambledBlocks (sa sb : BitVec 8) : Nat → BitVec 31 → List Bool → List Bool → List Int
  | 0, _, _, _ => []
  | n + 1, x, qa, qb =>
    let k := nextBlock sa sb qa qb
    let y := laneScramble x k.2.1
    blockSymbols k.1 y.1 ++ scrambledBlocks sa sb n y.2 k.2.2.1 k.2.2.2
/-- What a transmit lane sends of a marker period, from the marker that it sent last, before stuffing (R210 to R216). -/
def lanePeriod (s : State) (n blocks : Nat) (qa qb : List Bool) : List Int :=
  let x := laneOf s n
  let l := 8 * (n / 8) + n % 4 * 2
  markerSymbols x.marker ++ scrambledBlocks (fillStatus s l) (fillStatus s (l + 1)) blocks x.seed qa qb
/-- The halves of a received lane's block, descrambled from a scrambler state, with what each is: data or fill (R213, R219). -/
def receivedBlock (x : BitVec 31) (a : List Int) : (Bool × List Bool) × (Bool × List Bool) × BitVec 31 :=
  let k := splitBlock a
  let y := laneScramble x (k.2.1 ++ k.2.2)
  let ha := y.1.take 256
  let hb := y.1.drop 256
  let kind := (headerHalves k.1).getD (!halfIsFill ha, !halfIsFill hb)
  ((kind.1, ha), (kind.2, hb), y.2)

/-- The symbols of a lane with a stuff symbol after each run of 8 (R214): `run` symbols of level `last` have gone out. -/
def stuffed (last : Int) (run : Nat) : List Int → List Int
  | [] => []
  | a :: t =>
    let n := if a = last then run + 1 else 1
    if n = 8 then
      let k : Int := if 0 < a then -3 else 3
      a :: k :: stuffed k 1 t
    else a :: stuffed a n t
/-- The symbols of a received lane without the symbol after each 8 identical ones, and how many of those dropped have the run's level, which
HL_STUFF_ERR counts. -/
def unstuffed (last : Int) (run : Nat) : List Int → List Int × Nat
  | [] => ([], 0)
  | a :: t =>
    if run = 8 then
      let r := unstuffed a 1 t
      (r.1, r.2 + b2n (a == last))
    else
      let r := unstuffed a (if a = last then run + 1 else 1) t
      (a :: r.1, r.2)

end Sys2Proof.Machine
end

