-- ==== Sys2Proof/WellFormed.lean ====
section
/-! DEFINITION. What a sender must keep to: lists of the lengths that the manual gives, indices within their ranges. -/
namespace Sys2Proof

/-- Bytes of parameters that a path carries (R322, R333, R452). -/
def Cmd.room (c : Cmd) : Nat :=
  if c.inl then 40 else match c.path with
  | .ring _ => 16384
  | .chain => 8192
  | _ => 4032
/-- The parameters of a command are the PARAM_LEN bytes, as far as its path carries them. -/
def Cmd.wf (c : Cmd) : Bool := c.params.length == min c.paramLen.toNat c.room
/-- The bytes that a read of host memory brings. -/
def readWf (r : HostRead) (data : Option (List Byte)) : Bool :=
  data.all (fun b => match r with
    | .slot _ => b.length == 64
    | .params _ => decide (b.length ≤ 16384)
    | .ldt _ => b.length == 256)
/-- A write frame counts its words in 11 bits, as a read frame does. -/
def SpFrame.wf : SpFrame → Bool
  | .windowedRead _ _ _ => true
  | .windowedWrite _ ws => decide (ws.length < 2048)
  | .addressedRead _ _ _ _ => true
  | .addressedWrite _ _ ws => decide (ws.length < 2048)
  | .status => true

/-- A well-formed command. -/
def Instr.wellFormed : Instr → Bool
  | .devIdentify c => c.wf
  | .devStatus c => c.wf
  | .devOff c => c.wf
  | .devTimeSet c => c.wf
  | .devLockQuery c => c.wf
  | .linkConfigure c entry => c.wf && entry.all (fun b => b.length == 256)
  | .linkUp c => c.wf
  | .linkDown c => c.wf
  | .linkStatus c => c.wf
  | .linkRefresh c entry => c.wf && entry.all (fun b => b.length == 256)
  | .linkQuietPolicy c => c.wf
  | .linkForceRole c => c.wf
  | .linkTrainStep c => c.wf
  | .takeList c => c.wf
  | .takeRead c => c.wf
  | .takeWrite c => c.wf
  | .takeVerify c => c.wf
  | .takeCut c => c.wf
  | .takeGrade c => c.wf
  | .takePolicy c => c.wf
  | .rushesArm c => c.wf
  | .rushesStatus c => c.wf
  | .rushesUpload c => c.wf
  | .cableProfile c => c.wf
  | .cableTest c => c.wf
  | .pairSnr c => c.wf
  | .eyeScan c => c.wf
  | .loopback c => c.wf
  | .clkOutputSet c => c.wf
  | .clkPllProgram c => c.wf
  | .clkHop c => c.wf
  | .clkStep c => c.wf
  | .clkSpread c => c.wf
  | .clkSyncArm c => c.wf
  | .clkRefSelect c _ _ => c.wf
  | .clkStatus c => c.wf
  | .pwrStateSet c => c.wf
  | .pwrPolicy c => c.wf
  | .pwrLevelSet c => c.wf
  | .pwrStatus c => c.wf
  | .pwrKeepAwake c => c.wf
  | .cntSnapshot c => c.wf
  | .cntRead c => c.wf
  | .cntClear c => c.wf
  | .utilWindow c => c.wf
  | .contList c => c.wf
  | .contRead c => c.wf
  | .contDelete c => c.wf
  | .calRecordRead c => c.wf
  | .fwStage c _ => c.wf
  | .fwActivate c => c.wf
  | .fwStatus c => c.wf
  | .chainEnumerate c => c.wf
  | .chainStatus c => c.wf
  | .chainEpoch c => c.wf
  | .evtSubscribe c => c.wf
  | .evtReadLog c => c.wf
  | .hlConfigure c => c.wf
  | .hlStatus c => c.wf
  | .hlCtleSet c => c.wf
  | .commandTimeoutExpiry _ => true
  | .sqTailDoorbell _ _ => true
  | .slotFetch => true
  | .slotFetchDone r data => readWf r data
  | .hostReadCompletionTimeout _ => true
  | .statusSlotWrite _ => true
  | .cqHeadDoorbell _ _ => true
  | .cqCoalesceExpiry _ => true
  | .sqCfgWrite _ _ _ => true
  | .cqCfgWrite _ _ _ => true
  | .ldtCtlWrite _ _ => true
  | .ldtCacheFill _ data => data.all (fun b => b.length == 256)
  | .mailboxGo _ _ => true
  | .mailboxBufferWrite _ _ => true
  | .mboxWdata _ => true
  | .mboxRdata => true
  | .eventRingHeadDoorbell _ => true
  | .evtRingCfgWrite _ _ _ => true
  | .eventRecordDelivery => true
  | .eventLogWrite => true
  | .counterRecordPeriod _ => true
  | .registerWrite _ _ _ _ => true
  | .clearOnRead _ _ _ => true
  | .devTimeLoRead _ => true
  | .snapCtlGo _ => true
  | .snapCtlHeld _ _ => true
  | .snapshotComplete => true
  | .lockCtlWrite _ _ => true
  | .portReset _ _ => true
  | .pairSwapWrite _ _ _ => true
  | .pairRestart _ _ => true
  | .txDisableWrite _ _ _ => true
  | .clkSynWrite _ _ _ => true
  | .tileReset _ _ => true
  | .devResetCtlWrite _ _ => true
  | .chainRestart _ => true
  | .refSelWrite _ _ _ _ => true
  | .synSlotWrite _ _ _ => true
  | .synBwWrite _ _ _ => true
  | .synPredivWrite _ _ _ => true
  | .synSlotWordWrite _ _ _ _ _ => true
  | .rcSlotWrite _ _ _ _ => true
  | .rcEnableWrite _ _ _ => true
  | .outDivPhaseWrite _ _ _ _ => true
  | .outFmtSrcWrite _ _ _ _ => true
  | .outCtlReturn _ _ => true
  | .outSpreadWrite _ _ _ => true
  | .spreadTop _ => true
  | .hlCtlWrite _ _ _ => true
  | .pwrTargetWrite _ _ _ => true
  | .pwrPlWrite _ _ _ => true
  | .perfCtlClear _ _ => true
  | .perfCtlWinArm _ _ => true
  | .perfCtlEnFreeze _ _ _ _ => true
  | .perfSelWrite _ _ _ _ => true
  | .perfWindowStart _ => true
  | .perfWindowEnd _ => true
  | .perfOverflow _ _ => true
  | .bcfgSetup _ => true
  | .bcfgCommit _ => true
  | .bcfgDataAccess _ => true
  | .serialWindowedRead _ _ _ => true
  | .serialWindowedWrite _ ws => decide (ws.length < 2048)
  | .serialAddressedFrame _ _ ws _ _ => ws.all (fun w => decide (w.length < 2048))
  | .serialStatusRead => true
  | .serialRetry _ => true
  | .serialHeldReadDone => true
  | .serialFrameIdleTimeout f => f.wf
  | .serialWritePosted => true
  | .accessStallTimeout _ _ _ => true
  | .functionReset _ => true
  | .d3hotEntry => true
  | .d0Return => true
  | .busMasterEnableChange _ => true
  | .msixUnmask _ => true
  | .pcieInboundRequest _ _ _ => true
  | .pcieConfigRequest _ => true
  | .powerOnReset => true
  | .resetNPulse => true
  | .wakePin => true
  | .deviceBoot _ _ imgs => imgs.length == 4 && imgs.all (fun x => x.1.length == 512)
  | .refWaitExpiry => true
  | .pendingRootSwitch => true
  | .rackPllBootEnable _ => true
  | .tileSynthEnable _ => true
  | .supplyDipStart _ _ => true
  | .supplyDipRecovery _ _ => true
  | .mramHoldEnd => true
  | .supplyLow _ _ => true
  | .vddAonLow => true
  | .thermAlert ix _ => decide (ix.toNat < 98)
  | .thermClear ts => ts.length == 98
  | .thermCrit ix _ => decide (ix.toNat < 98)
  | .powerIdleTimerExpiry _ _ => true
  | .powerDrainTimeout _ => true
  | .powerEntryComplete _ => true
  | .wakeRequest _ _ _ => true
  | .domainReady _ => true
  | .perfLevelChangeDone u => decide (u.toNat ≤ 16)
  | .deviceOffEntry => true
  | .refNoEdges _ _ _ _ => true
  | .refFrequencyFault _ _ _ _ => true
  | .monitorPass _ _ => true
  | .refSlewEnd => true
  | .deviceTimeCorrection _ => true
  | .tileRootReturn _ => true
  | .aonCoreFailover _ => true
  | .bothCoresDead => true
  | .muxWatchdogForce _ _ => true
  | .muxNewDead _ _ _ => true
  | .muxSwitchDone _ _ => true
  | .synthLossOfLock _ => true
  | .synthMarginLow _ _ => true
  | .synthHopDone _ _ _ _ => true
  | .steeringPeriod _ _ => true
  | .smallStepApplied _ => true
  | .steerRamp _ => true
  | .acquireRamp _ => true
  | .rackPllRefLost _ => true
  | .rackPllRefReturn _ => true
  | .rackPllUnlock _ => true
  | .rackPllRelock _ => true
  | .bypassInputFail _ => true
  | .rackHopDone _ _ _ => true
  | .clapperPulse => true
  | .clapperRideThroughEnd _ => true
  | .superframeStart _ _ _ => true
  | .txBankExchange _ => true
  | .rxAnalogExchange _ => true
  | .rxDigitalExchange _ => true
  | .compatPeriodBoundary _ _ _ => true
  | .rowStart _ _ => true
  | .txUnderrun _ => true
  | .gbxOverflow _ _ => true
  | .syncWordReceived _ _ _ _ => true
  | .sfLockLoss _ => true
  | .rowHeaderReceived _ _ _ => true
  | .countReceived _ _ _ => true
  | .cutNoticeReceived _ _ => true
  | .cutAckReceived _ _ => true
  | .identityReceived _ _ => true
  | .quietMessageReceived _ _ => true
  | .snrMeasurement _ _ _ => true
  | .interpLimit _ _ _ _ => true
  | .quietWake _ => true
  | .clause73Page _ _ _ => true
  | .negotiationResolution _ _ => true
  | .beaconDetect _ _ _ => true
  | .beaconWindowExpiry _ => true
  | .fastRoadEntry _ _ => true
  | .compatParallelDetect _ _ => true
  | .masterSuperframeZero _ => true
  | .joinRoadLock _ => true
  | .timingDecision _ => true
  | .trainingPhaseEnd _ => true
  | .trainingPhaseLimit _ => true
  | .qualificationWindow _ _ => true
  | .compatTrainingRequest _ _ => true
  | .compatTrainingComplete _ => true
  | .compatTrainingTimeout _ => true
  | .compatSignalLost _ => true
  | .leavingEnd _ => true
  | .holdoffExpiry _ => true
  | .takeVerification _ => true
  | .bankFill _ => true
  | .gradingTemperatureEval _ _ => true
  | .gradingTimerExpiry _ => true
  | .gradingPassStart _ => true
  | .gradingSegmentFold _ => true
  | .gradingRunEnd _ take retake _ => take.length == 4096 && retake.length == 4096
  | .continuityRecordWrite _ => true
  | .rushesCaptureStart _ _ _ => true
  | .rushesCaptureDone _ data => data.length == 0x48000
  | .rushesHeld _ => true
  | .rushesUploadDone _ => true
  | .cableTestPairDone _ _ _ _ next => next.length == 8
  | .eyeScanPoint _ _ => true
  | .utilWindowEnd _ counts _ => counts.length == 48
  | .acnanMarkerReceived _ _ _ _ _ _ => true
  | .acnanInvalidHeader _ _ => true
  | .acnanSlipSearchEnd _ _ => true
  | .acnanMarkerLost _ => true
  | .acnanElasticSlip _ => true
  | .acnanScheduledMarker _ fills => fills.length == 4
  | .acnanStuffOverflow _ => true
  | .hlGbxOverflow _ _ => true
  | .acnanLaneSleep _ => true
  | .acnanLaneWake _ => true
  | .acnanRxAsleep _ _ => true
  | .acnanSignalDetect _ => true
  | .gearboxResetHandshake _ _ _ => true
  | .gearboxHandshakeEnd _ => true
  | .resetComplete kind _ => decide (5 ≤ kind.toNat)
  | .scrubRead _ _ _ _ _ => true
  | .tmrMismatch _ _ _ => true
  | .operatorWatchdogCheck beats => beats.length == 20
  | .operatorTrap _ => true
  | .operatorRestart _ => true
  | .rollbackFloorTimer _ => true
  | .quiescentPoint _ => true
  | .patchActivation => true
  | .supervisorRequest _ _ _ => true
  | .lockstepMismatch => true
  | .tokenFrame _ _ => true
  | .commitFrame _ => true
  | .enumerationTimeout => true
  | .cmdFrame _ _ c => c.wf
  | .replyFrame _ _ _ _ result => decide (result.length ≤ 8192)
  | .eventFrame _ _ _ _ _ _ _ _ => true
  | .timeFrameSend => true
  | .timeFrameReceived _ _ _ => true
  | .timeFrameReturn _ _ _ => true
  | .chainTimeTimeout => true
  | .epochFrame _ _ => true
  | .epochFrameReturn _ _ => true
  | .epochReturnTimeout _ => true
  | .epochUnconfirmedDiscard _ => true
  | .epochFire _ => true
  | .scheduledHopFire _ => true
  | .chainInLoss => true
  | .inLossFrameSend => true
  | .inLossFrame _ _ => true
  | .ringBrokenTimeout => true
  | .chainInRelock => true
  | .fabricStatusTimeout => true
  | .rsMonitorLock _ _ n => n.length == 17
  | .rsMonitorLockLoss _ _ n => n.length == 17
  | .perstNDeassertion => true
  | .aspmL1Entry => true
  | .aspmL1Exit => true
  | .cableProfileComputed _ recs => decide (recs.length ≤ 8) && recs.all (fun r => r.loss.length == 4 && r.next.length == 7)
  | .finalChunkVerified _ => true

end Sys2Proof
end

