-- ==== Sys2Proof/Safety.lean ====
section
/-! DEFINITION. The terms that statements are made in: well-formed memories, and a Cerop command that passes every check. -/
namespace Sys2Proof.Machine

/-! ### Memories and tables in canonical form -/

/-- A byte memory whose unlisted bytes read 0. -/
def bytesWf (m : Tab Byte) : Bool := tabCanon (fun _ => (0 : Byte)) m
/-- The memories of the device: MRAM, the operator area of hub SRAM and the mailbox buffer in canonical form, and the bytes written
to host memory in address order. -/
def Memory.wf (s : State) : Bool := bytesWf s.mram && bytesWf s.sram && bytesWf s.cmd.mailbox && tabSorted s.hostMem
/-- The registers in canonical form: no entry repeats a reset value. -/
def regsWf (s : State) : Bool := tabCanon regReset s.regs

/-- The engine tags that are held: by the commands in flight and by the completions that wait for their status slot (R323). -/
def tagsHeld (c : CmdSt) : List Nat := c.inflight.map (fun f => f.etag) ++ c.done.map (fun d => d.etag)
/-- The pool has 4,096 engine tags, and no two commands hold the same one (R323). -/
def tagsOk (c : CmdSt) : Bool := decide (tagsHeld c).Nodup && (tagsHeld c).all (fun e => decide (e < 4096))
/-- What every step keeps: memories and registers in canonical form, and the pool of engine tags. -/
def State.wf (s : State) : Bool := Memory.wf s && regsWf s && tagsOk s.cmd

/-! ### A command that starts (R327) -/

/-- The engine tag of a command that passes every check at once, and the state in which its action runs; none for a command that
fails a check, waits, or is not for this device. -/
def startOf (o : OpSpec) (c : Cmd) (s : State) : Option (Nat × State) :=
  if s.mode ≠ .running || s.cmd.stopped then none
  else match claimTag s o.opcode c with
  | none => none
  | some (f, u) =>
    if blocked u f || placeOf u c != .here || (firstFailure u o c).isSome then none
    else if (commandDomains o.opcode (inRecovery u) (decide (domState u 79 < 3)) c).all (domRuns u) then some (f.etag, checkLink o c u) else none

/-! ### Commands -/

/-- What the command reference says of a row that is a Cerop command, and the command it brings; none for any other row. -/
def commandOf : Instr → Option (OpSpec × Cmd)
  | .devIdentify c => some (opDevIdentify, c)
  | .devStatus c => some (opDevStatus, c)
  | .devOff c => some (opDevOff, c)
  | .devTimeSet c => some (opDevTimeSet, c)
  | .devLockQuery c => some (opDevLockQuery, c)
  | .fwStage c _ => some (opFwStage, c)
  | .linkRefresh c _ => some (opLinkRefresh, c)
  | .linkConfigure c _ => some (opLinkConfigure, c)
  | .linkUp c => some (opLinkUpSpec, c)
  | .linkDown c => some (opLinkDownSpec, c)
  | .linkStatus c => some (opLinkStatus, c)
  | .linkQuietPolicy c => some (opLinkQuietPolicy, c)
  | .linkForceRole c => some (opLinkForceRole, c)
  | .linkTrainStep c => some (opLinkTrainStep, c)
  | .takeList c => some (opTakeList, c)
  | .takeRead c => some (opTakeRead c, c)
  | .takeWrite c => some (opTakeWrite c, c)
  | .takeVerify c => some (opTakeVerify, c)
  | .takeCut c => some (opTakeCut, c)
  | .takeGrade c => some (opTakeGrade, c)
  | .takePolicy c => some (opTakePolicy, c)
  | .rushesArm c => some (opRushesArm, c)
  | .rushesStatus c => some (opRushesStatus, c)
  | .rushesUpload c => some (opRushesUpload, c)
  | .cableProfile c => some (opCableProfile, c)
  | .cableTest c => some (opCableTest c, c)
  | .pairSnr c => some (opPairSnr, c)
  | .eyeScan c => some (opEyeScan, c)
  | .loopback c => some (opLoopback, c)
  | .clkOutputSet c => some (opClkOutputSet c, c)
  | .clkPllProgram c => some (opClkPllProgram, c)
  | .clkHop c => some (opClkHop, c)
  | .clkStep c => some (opClkStep, c)
  | .clkSpread c => some (opClkSpread, c)
  | .clkSyncArm c => some (opClkSyncArm, c)
  | .clkRefSelect c _ _ => some (opClkRefSelect, c)
  | .clkStatus c => some (opClkStatus c, c)
  | .pwrStateSet c => some (opPwrStateSet, c)
  | .pwrPolicy c => some (opPwrPolicy, c)
  | .pwrLevelSet c => some (opPwrLevelSet, c)
  | .pwrStatus c => some (opPwrStatus, c)
  | .pwrKeepAwake c => some (opPwrKeepAwake, c)
  | .cntSnapshot c => some (opCntSnapshot, c)
  | .cntRead c => some (opCntRead, c)
  | .cntClear c => some (opCntClear, c)
  | .utilWindow c => some (opUtilWindow, c)
  | .contList c => some (opContList c, c)
  | .contRead c => some (opContRead, c)
  | .contDelete c => some (opContDelete, c)
  | .calRecordRead c => some (opCalRecordRead, c)
  | .fwActivate c => some (opFwActivate, c)
  | .fwStatus c => some (opFwStatus, c)
  | .chainEnumerate c => some (opChainEnumerate, c)
  | .chainStatus c => some (opChainStatus, c)
  | .chainEpoch c => some (opChainEpoch, c)
  | .evtSubscribe c => some (opEvtSubscribe, c)
  | .evtReadLog c => some (opEvtReadLog c, c)
  | .hlConfigure c => some (opHlConfigure, c)
  | .hlStatus c => some (opHlStatus, c)
  | .hlCtleSet c => some (opHlCtleSet, c)
  | _ => none

/-- A cut to a slot needs no agreement of the partner: on an FDX link one that keeps the transmit filter, on a COMPAT link one that R125 allows. -/
def cutsLocal (s : State) (l k m : Nat) : Bool :=
  (isFdx (modeOf s m) && !txDiffers s l k) || (isCompat (modeOf s m) && !breaksCompat s l k)

/-! ### Accesses that are served (R378, R379, R391 to R395, R403) -/

/-- A view's write of the register at an address is served, and no bit of it is refused or locked. -/
def writes (v : View) (a : Nat) (i : RegInfo) (s : State) : Bool :=
  reaches s v a && verdict s v a true == .serve && a % 4 == 0 && regInfo a == some i && refusedBits v a i == 0
    && lockedBits (served v a true s) a i == 0
/-- A view's read of a word is served. -/
def reads (v : View) (a : Nat) (s : State) : Bool := reaches s v a && verdict s v a false == .serve && a % 4 == 0

/-! ### What a command may write -/

/-- Rows that bring a register or window access whose address can be any. -/
def carriesAccess : Instr → Bool
  | .registerWrite .. | .snapCtlGo .. | .snapCtlHeld .. | .lockCtlWrite .. | .portReset .. | .pairSwapWrite .. | .pairRestart ..
  | .txDisableWrite .. | .clkSynWrite .. | .tileReset .. | .devResetCtlWrite .. | .chainRestart .. | .refSelWrite .. | .synSlotWrite ..
  | .synBwWrite .. | .synPredivWrite .. | .synSlotWordWrite .. | .rcSlotWrite .. | .rcEnableWrite .. | .outDivPhaseWrite ..
  | .outFmtSrcWrite .. | .outCtlReturn .. | .outSpreadWrite .. | .hlCtlWrite .. | .pwrTargetWrite .. | .pwrPlWrite .. | .perfCtlClear ..
  | .perfCtlWinArm .. | .perfCtlEnFreeze .. | .perfSelWrite .. | .bcfgSetup .. | .bcfgCommit .. | .bcfgDataAccess ..
  | .serialWindowedRead .. | .serialWindowedWrite .. | .serialAddressedFrame .. | .serialStatusRead .. | .serialFrameIdleTimeout ..
  | .serialWritePosted .. | .pcieInboundRequest .. | .supervisorRequest .. => true
  | _ => false
/-- Rows of a COLD or DEVICE reset, of device-level OFF and of its end. -/
def resetsDevice : Instr → Bool
  | .powerOnReset .. | .resetNPulse .. | .wakePin .. | .vddAonLow .. | .deviceOffEntry .. | .bothCoresDead .. => true
  | _ => false
/-- A kind of state. -/
inductive Kind where
  | host    -- bytes of host memory that the device has written
  | mram    -- MRAM (R372)
  | sram    -- the operator area of hub SRAM (R389)
  | takes    -- the contents of the take slots (R10)
  | recs    -- the continuity records (R138)
  | mode    -- where the device stands (R376)
  | time    -- device time
  | links    -- links
  | pairs    -- pairs
  | ports    -- ports
  | tiles    -- take loaders of the tiles
  | runs    -- grading runs
  | captures    -- rushes captures
  | syns    -- synthesizers
  | lanes    -- Acnan lanes
  | fw    -- firmware images and what the supervisor does
deriving DecidableEq, Repr

/-- The state of a kind is the same in both states. -/
def sameKind : Kind → State → State → Prop
  | .host, s, t => t.hostMem = s.hostMem
  | .mram, s, t => t.mram = s.mram
  | .sram, s, t => t.sram = s.sram
  | .takes, s, t => t.takes = s.takes
  | .recs, s, t => t.contRecs = s.contRecs
  | .mode, s, t => t.mode = s.mode
  | .time, s, t => t.time = s.time
  | .links, s, t => t.links = s.links
  | .pairs, s, t => t.pairs = s.pairs
  | .ports, s, t => t.ports = s.ports
  | .tiles, s, t => t.tiles = s.tiles
  | .runs, s, t => t.runs = s.runs
  | .captures, s, t => t.captures = s.captures
  | .syns, s, t => t.syns = s.syns
  | .lanes, s, t => t.lanes = s.lanes
  | .fw, s, t => t.fw = s.fw
/-- The rows, beside accesses, that may write MRAM (R372). -/
def writesMram : Instr → Bool
  | .fwStage .. => true
  | _ => false
/-- The rows, beside accesses and device resets, that may write the contents of the take slots (R10). -/
def writesTakes : Instr → Bool
  | .linkUp .. | .takeWrite .. | .powerEntryComplete .. | .superframeStart .. | .negotiationResolution .. | .fastRoadEntry ..
  | .joinRoadLock .. | .compatTrainingRequest .. | .leavingEnd .. | .holdoffExpiry .. | .gradingRunEnd .. | .scrubRead .. => true
  | _ => false
/-- The rows, beside accesses and device resets, that may write where the device stands (R376). -/
def writesMode : Instr → Bool
  | .deviceBoot .. => true
  | _ => false
/-- The rows, beside accesses and device resets, that may write device time. -/
def writesTime : Instr → Bool
  | .devTimeSet .. | .deviceTimeCorrection .. | .timeFrameReceived .. => true
  | _ => false
/-- The rows, beside accesses and device resets, that may write links. -/
def writesLinks : Instr → Bool
  | .linkConfigure .. | .linkUp .. | .linkDown .. | .linkRefresh .. | .linkQuietPolicy .. | .linkTrainStep .. | .takePolicy ..
  | .loopback .. | .commandTimeoutExpiry .. | .counterRecordPeriod .. | .powerEntryComplete .. | .refNoEdges .. | .refFrequencyFault ..
  | .aonCoreFailover .. | .synthLossOfLock .. | .steeringPeriod .. | .superframeStart .. | .syncWordReceived .. | .sfLockLoss ..
  | .countReceived .. | .clause73Page .. | .negotiationResolution .. | .beaconDetect .. | .beaconWindowExpiry .. | .fastRoadEntry ..
  | .compatParallelDetect .. | .joinRoadLock .. | .timingDecision .. | .trainingPhaseEnd .. | .trainingPhaseLimit ..
  | .qualificationWindow .. | .compatTrainingComplete .. | .compatTrainingTimeout .. | .compatSignalLost .. | .leavingEnd ..
  | .holdoffExpiry .. | .takeVerification .. | .gradingRunEnd .. | .operatorRestart .. | .quiescentPoint .. | .lockstepMismatch .. => true
  | _ => false
/-- The rows, beside accesses and device resets, that may write pairs. -/
def writesPairs : Instr → Bool
  | .linkUp .. | .linkDown .. | .linkTrainStep .. | .takeWrite .. | .takeCut .. | .cableTest .. | .loopback .. | .clkOutputSet ..
  | .clkPllProgram .. | .clkHop .. | .clkRefSelect .. | .pwrLevelSet .. | .cntClear .. | .hlConfigure .. | .commandTimeoutExpiry ..
  | .deviceBoot .. | .pendingRootSwitch .. | .tileSynthEnable .. | .powerEntryComplete .. | .domainReady .. | .refNoEdges ..
  | .refFrequencyFault .. | .tileRootReturn .. | .aonCoreFailover .. | .muxWatchdogForce .. | .muxNewDead .. | .muxSwitchDone ..
  | .synthLossOfLock .. | .synthHopDone .. | .steeringPeriod .. | .rackPllRefLost .. | .rackPllUnlock .. | .clapperPulse ..
  | .superframeStart .. | .txBankExchange .. | .rxAnalogExchange .. | .rxDigitalExchange .. | .compatPeriodBoundary .. | .rowStart ..
  | .txUnderrun .. | .gbxOverflow .. | .syncWordReceived .. | .sfLockLoss .. | .rowHeaderReceived .. | .countReceived ..
  | .cutNoticeReceived .. | .cutAckReceived .. | .identityReceived .. | .quietMessageReceived .. | .snrMeasurement .. | .interpLimit ..
  | .quietWake .. | .clause73Page .. | .negotiationResolution .. | .beaconDetect .. | .fastRoadEntry .. | .compatParallelDetect ..
  | .masterSuperframeZero .. | .joinRoadLock .. | .trainingPhaseEnd .. | .trainingPhaseLimit .. | .qualificationWindow ..
  | .compatTrainingRequest .. | .compatTrainingComplete .. | .compatTrainingTimeout .. | .compatSignalLost .. | .leavingEnd ..
  | .holdoffExpiry .. | .takeVerification .. | .bankFill .. | .gradingTemperatureEval .. | .gradingRunEnd .. | .rushesCaptureStart ..
  | .acnanMarkerReceived .. | .acnanSlipSearchEnd .. | .acnanMarkerLost .. | .acnanScheduledMarker .. | .hlGbxOverflow ..
  | .acnanLaneWake .. | .acnanRxAsleep .. | .gearboxResetHandshake .. | .gearboxHandshakeEnd .. | .resetComplete .. | .operatorRestart ..
  | .quiescentPoint .. | .lockstepMismatch .. | .rsMonitorLock .. | .rsMonitorLockLoss .. => true
  | _ => false
/-- The rows, beside accesses and device resets, that may write ports. -/
def writesPorts : Instr → Bool
  | .linkUp .. | .linkDown .. | .linkForceRole .. | .cableTest .. | .loopback .. | .clkRefSelect .. | .commandTimeoutExpiry ..
  | .powerEntryComplete .. | .refNoEdges .. | .refFrequencyFault .. | .aonCoreFailover .. | .synthLossOfLock .. | .steeringPeriod ..
  | .steerRamp .. | .superframeStart .. | .compatPeriodBoundary .. | .syncWordReceived .. | .sfLockLoss .. | .countReceived ..
  | .negotiationResolution .. | .fastRoadEntry .. | .compatParallelDetect .. | .joinRoadLock .. | .timingDecision ..
  | .trainingPhaseLimit .. | .compatTrainingComplete .. | .compatTrainingTimeout .. | .compatSignalLost .. | .leavingEnd ..
  | .holdoffExpiry .. | .takeVerification .. | .gradingRunEnd .. | .cableTestPairDone .. | .acnanScheduledMarker ..
  | .acnanStuffOverflow .. | .acnanLaneSleep .. | .resetComplete .. | .operatorRestart .. | .quiescentPoint .. | .lockstepMismatch .. => true
  | _ => false
/-- The rows, beside accesses and device resets, that may write take loaders of the tiles. -/
def writesTiles : Instr → Bool
  | .linkDown .. | .takeWrite .. | .takeVerify .. | .takeCut .. | .commandTimeoutExpiry .. | .powerEntryComplete .. | .refNoEdges ..
  | .refFrequencyFault .. | .aonCoreFailover .. | .synthLossOfLock .. | .superframeStart .. | .compatPeriodBoundary ..
  | .syncWordReceived .. | .sfLockLoss .. | .countReceived .. | .cutNoticeReceived .. | .cutAckReceived .. | .negotiationResolution ..
  | .fastRoadEntry .. | .compatParallelDetect .. | .joinRoadLock .. | .trainingPhaseLimit .. | .compatTrainingTimeout ..
  | .compatSignalLost .. | .takeVerification .. | .bankFill .. | .gradingRunEnd .. | .resetComplete .. | .operatorWatchdogCheck ..
  | .operatorRestart .. | .quiescentPoint .. | .lockstepMismatch .. => true
  | _ => false
/-- The rows, beside accesses and device resets, that may write grading runs. -/
def writesRuns : Instr → Bool
  | .linkDown .. | .linkTrainStep .. | .takeGrade .. | .cableProfile .. | .commandTimeoutExpiry .. | .powerEntryComplete ..
  | .refNoEdges .. | .refFrequencyFault .. | .aonCoreFailover .. | .synthLossOfLock .. | .superframeStart .. | .syncWordReceived ..
  | .sfLockLoss .. | .countReceived .. | .negotiationResolution .. | .fastRoadEntry .. | .compatParallelDetect .. | .joinRoadLock ..
  | .trainingPhaseEnd .. | .trainingPhaseLimit .. | .qualificationWindow .. | .compatTrainingComplete .. | .compatTrainingTimeout ..
  | .compatSignalLost .. | .takeVerification .. | .gradingTemperatureEval .. | .gradingTimerExpiry .. | .gradingPassStart ..
  | .gradingSegmentFold .. | .gradingRunEnd .. | .operatorWatchdogCheck .. | .operatorRestart .. | .quiescentPoint ..
  | .lockstepMismatch .. | .cableProfileComputed .. => true
  | _ => false
/-- The rows, beside accesses and device resets, that may write rushes captures. -/
def writesCaptures : Instr → Bool
  | .linkDown .. | .rushesArm .. | .commandTimeoutExpiry .. | .powerEntryComplete .. | .refNoEdges .. | .refFrequencyFault ..
  | .aonCoreFailover .. | .synthLossOfLock .. | .superframeStart .. | .syncWordReceived .. | .sfLockLoss .. | .countReceived ..
  | .negotiationResolution .. | .fastRoadEntry .. | .compatParallelDetect .. | .joinRoadLock .. | .trainingPhaseLimit ..
  | .compatTrainingTimeout .. | .compatSignalLost .. | .takeVerification .. | .gradingPassStart .. | .gradingSegmentFold ..
  | .gradingRunEnd .. | .rushesCaptureStart .. | .rushesCaptureDone .. | .rushesHeld .. | .rushesUploadDone ..
  | .operatorWatchdogCheck .. | .operatorRestart .. | .quiescentPoint .. | .lockstepMismatch .. | .cableProfileComputed .. => true
  | _ => false
/-- The rows, beside accesses and device resets, that may write synthesizers. -/
def writesSyns : Instr → Bool
  | .linkDown .. | .cableTest .. | .clkPllProgram .. | .clkHop .. | .clkStep .. | .commandTimeoutExpiry .. | .deviceBoot ..
  | .rackPllBootEnable .. | .tileSynthEnable .. | .powerEntryComplete .. | .domainReady .. | .refNoEdges .. | .refFrequencyFault ..
  | .aonCoreFailover .. | .synthLossOfLock .. | .synthMarginLow .. | .synthHopDone .. | .steeringPeriod .. | .smallStepApplied ..
  | .steerRamp .. | .acquireRamp .. | .rackHopDone .. | .clapperPulse .. | .clapperRideThroughEnd .. | .superframeStart ..
  | .syncWordReceived .. | .sfLockLoss .. | .countReceived .. | .negotiationResolution .. | .fastRoadEntry .. | .compatParallelDetect ..
  | .joinRoadLock .. | .timingDecision .. | .trainingPhaseLimit .. | .compatTrainingTimeout .. | .compatSignalLost .. | .leavingEnd ..
  | .takeVerification .. | .gradingRunEnd .. | .resetComplete .. | .operatorRestart .. | .quiescentPoint .. | .lockstepMismatch ..
  | .timeFrameReceived .. | .epochFire .. | .scheduledHopFire .. => true
  | _ => false
/-- The rows, beside accesses and device resets, that may write Acnan lanes. -/
def writesLanes : Instr → Bool
  | .linkDown .. | .linkTrainStep .. | .cableTest .. | .eyeScan .. | .loopback .. | .clkOutputSet .. | .clkPllProgram .. | .clkHop ..
  | .hlConfigure .. | .hlCtleSet .. | .commandTimeoutExpiry .. | .tileSynthEnable .. | .powerEntryComplete .. | .domainReady ..
  | .refNoEdges .. | .refFrequencyFault .. | .aonCoreFailover .. | .synthLossOfLock .. | .synthHopDone .. | .clapperPulse ..
  | .superframeStart .. | .syncWordReceived .. | .sfLockLoss .. | .rowHeaderReceived .. | .countReceived .. | .quietWake ..
  | .negotiationResolution .. | .fastRoadEntry .. | .compatParallelDetect .. | .joinRoadLock .. | .trainingPhaseEnd ..
  | .trainingPhaseLimit .. | .qualificationWindow .. | .compatTrainingComplete .. | .compatTrainingTimeout .. | .compatSignalLost ..
  | .leavingEnd .. | .takeVerification .. | .gradingRunEnd .. | .eyeScanPoint .. | .acnanMarkerReceived .. | .acnanInvalidHeader ..
  | .acnanSlipSearchEnd .. | .acnanMarkerLost .. | .acnanScheduledMarker .. | .acnanStuffOverflow .. | .hlGbxOverflow ..
  | .acnanLaneSleep .. | .acnanLaneWake .. | .acnanRxAsleep .. | .gearboxResetHandshake .. | .resetComplete .. | .operatorRestart ..
  | .quiescentPoint .. | .lockstepMismatch .. => true
  | _ => false
/-- The rows, beside accesses and device resets, that may write firmware images and what the supervisor does. -/
def writesFw : Instr → Bool
  | .fwStage .. | .fwActivate .. | .commandTimeoutExpiry .. | .deviceBoot .. | .scrubRead .. | .operatorWatchdogCheck ..
  | .operatorTrap .. | .operatorRestart .. | .rollbackFloorTimer .. | .quiescentPoint .. | .patchActivation .. | .lockstepMismatch ..
  | .finalChunkVerified .. => true
  | _ => false
/-- The rows that may write bytes of host memory that the device has written. -/
def writesHost : Instr → Bool
  | .statusSlotWrite .. | .eventRecordDelivery .. | .counterRecordPeriod .. | .rushesUploadDone .. | .eyeScanPoint .. => true
  | _ => false
/-- The rows that may write the continuity records (R138). -/
def writesRecs : Instr → Bool
  | .contDelete .. | .fastRoadEntry .. | .continuityRecordWrite .. => true
  | _ => false
/-- A command may write a kind of state. -/
def mayWrite : Kind → Instr → Bool
  | .host, i => writesHost i
  | .mram, i => carriesAccess i || writesMram i
  | .sram, i => carriesAccess i || resetsDevice i
  | .takes, i => carriesAccess i || resetsDevice i || writesTakes i
  | .recs, i => writesRecs i
  | .mode, i => carriesAccess i || resetsDevice i || writesMode i
  | .time, i => carriesAccess i || resetsDevice i || writesTime i
  | .links, i => carriesAccess i || resetsDevice i || writesLinks i
  | .pairs, i => carriesAccess i || resetsDevice i || writesPairs i
  | .ports, i => carriesAccess i || resetsDevice i || writesPorts i
  | .tiles, i => carriesAccess i || resetsDevice i || writesTiles i
  | .runs, i => carriesAccess i || resetsDevice i || writesRuns i
  | .captures, i => carriesAccess i || resetsDevice i || writesCaptures i
  | .syns, i => carriesAccess i || resetsDevice i || writesSyns i
  | .lanes, i => carriesAccess i || resetsDevice i || writesLanes i
  | .fw, i => carriesAccess i || resetsDevice i || writesFw i

end Sys2Proof.Machine
end

