-- ==== Sys2Proof/Certificates/Slice0/Obligations.lean ====
section
/-! DEFINITION. The statements for the provers. In a statement about a register row, `writes v a i s` or `reads v a s` says that the access
decodes and is neither refused nor stalled; in one about a Cerop command, `startOf o c s = some (e, u)` says that it has passed the checks
of R327 and holds the engine tag `e` in the state `u`. -/

open Sys2Proof Sys2Proof.Machine

/-- A step takes the command at the front of the queue and runs it with the queue's rest. -/
def Obligations.StepRunsTheCommandInFront : Prop :=
  ∀ (c : Instr) (s : State), step { s with pending := c :: s.pending } = exec c s

/-- Every command has an effect in every state: a step never ends in a fault or a refusal. -/
def Obligations.EveryStepAnswersANextState : Prop :=
  ∀ (s : State), ∃ t, step s = .next t

/-- The machine after reset is well formed. -/
def Obligations.ResetIsWellFormed : Prop := State.reset.wf = true

/-- Every step keeps the device well formed: its memories and registers stay in canonical form, and no two commands hold the same engine
tag of the pool of 4,096 (R323). -/
def Obligations.EveryStepKeepsTheDeviceWellFormed : Prop :=
  ∀ (s t : State), s.wf = true → step s = .next t → t.wf = true

/-- Every step takes exactly one command from the queue, and no command puts one in or takes another out. -/
def Obligations.EveryStepTakesOneCommand : Prop :=
  ∀ (s t : State), s.wf = true → step s = .next t → t.pending = s.pending.tail

/-- The frame of every command: a kind of state that the tables of Safety do not give a command to write is the same after it. -/
def Obligations.CommandsWriteOnlyTheirState : Prop :=
  ∀ (k : Kind) (i : Instr) (s t : State), s.wf = true → exec i s = .next t → mayWrite k i = false → sameKind k s t

/-- The checks of R327 in their order, for every row that is a Cerop command whose engine tag is claimed and that no earlier command holds
back: a command for another device is forwarded, or ends with UNADDRESSED or CHAIN_DOWN, and one for every device whose result would not be
empty with BAD_PARAM (R330); of one for this device, the first check that fails gives the status, and nothing else is done: reserved bits
or EXPERT (BAD_PARAM), the path's expert lock (LOCKED), lengths (BAD_LENGTH), the unit (NO_UNIT), the chain's privilege (PRIVILEGE), a unit
whose domain is OFF (UNIT_OFF). The conditions that answer NOT_READY stand after them: recovery (R377), a tile in reset (R295), and a
halted supervisor core for what needs it (R387); their place is the model's choice (logs 13 and 175). -/
def Obligations.CommandChecksInOrder : Prop :=
  ∀ (i : Instr) (o : OpSpec) (c : Cmd) (s u : State) (f : InFlight),
    commandOf i = some (o, c) → s.mode = .running → s.cmd.stopped = false → claimTag s o.opcode c = some (f, u) → blocked u f = false →
    (placeOf u c = .unaddressed → exec i s = .next (complete f.etag stUnaddressed [] u)) ∧
    (placeOf u c = .chainDown → exec i s = .next (complete f.etag stChainDown [] u)) ∧
    (placeOf u c = .everywhere → o.maxResult ≠ 0 → exec i s = .next (complete f.etag stBadParam [] u)) ∧
    (placeOf u c = .forward → chainHolds u = false →
      exec i s = .next (emit (.forward f.etag c.chainAddr.toNat) (modFlight f.etag (fun g => { g with stage := .forwarded }) u))) ∧
    (placeOf u c = .here →
      ((c.rsvd = true ∨ reservedParam o.opcode c = true ∨ expertOk o.level c.expert = false) →
        exec i s = .next (complete f.etag stBadParam [] u)) ∧
      (c.rsvd = false → reservedParam o.opcode c = false → expertOk o.level c.expert = true →
        (c.expert = true → rdB u cmdPathCfgR (pathBit c.path) = false → exec i s = .next (complete f.etag stLocked [] u)) ∧
        ((c.expert = true → rdB u cmdPathCfgR (pathBit c.path) = true) →
          (lengthOk o c = false → exec i s = .next (complete f.etag stBadLength [] u)) ∧
          (lengthOk o c = true →
            (unitOk u o c = false → exec i s = .next (complete f.etag stNoUnit [] u)) ∧
            (unitOk u o c = true →
              (c.path = .chain → o.onChain = false → exec i s = .next (complete f.etag stPrivilege [] u)) ∧
              ((c.path = .chain → o.onChain = true) →
                ((unitDomain c.cls.toNat c.idx.toNat).any (fun d => domState u d == 4) = true →
                  exec i s = .next (complete f.etag stUnitOff [] u)) ∧
                ((unitDomain c.cls.toNat c.idx.toNat).any (fun d => domState u d == 4) = false →
                  ((inRecovery u = true ∧ o.recovery = false) ∨
                    (tileOfUnit c.cls.toNat c.idx.toNat).any (fun t => (tileOf u t).resetting) = true ∨
                    (rdB u fwStateR 4 = true ∧ needsSupervisor o.opcode c = true)) →
                  exec i s = .next (complete f.etag stNotReady [] u))))))))

/-- R345: DEV_OFF, FW_STAGE and FW_ACTIVATE that arrive over the chain complete with PRIVILEGE, once the checks that stand before this one
(R327) have passed. -/
def Obligations.ChainPrivilege : Prop :=
  ∀ (i : Instr) (o : OpSpec) (c : Cmd) (s u : State) (f : InFlight),
    (i = .devOff c ∧ o = opDevOff) ∨ (∃ b, i = .fwStage c b ∧ o = opFwStage) ∨ (i = .fwActivate c ∧ o = opFwActivate) →
    c.path = .chain → s.mode = .running → s.cmd.stopped = false → claimTag s o.opcode c = some (f, u) → placeOf u c = .here →
    c.rsvd = false → reservedParam o.opcode c = false → c.expert = false → lengthOk o c = true → unitOk u o c = true →
    exec i s = .next (complete f.etag stPrivilege [] u)

/-- R409: a read of DEV_TIME_LO latches the upper half of device time for the reading view; that view's next read of DEV_TIME_HI returns
the latched half and no latch is left, and a read with no latch returns the live half. Other views' latches stay. -/
def Obligations.DeviceTimeShadow : Prop :=
  (∀ (v : View) (s : State), reads v devTimeLoR s = true →
    ∃ t, exec (.devTimeLoRead v) s = .next (emit (.readData v (s.time.setWidth 32) false) t) ∧
      tabGet 0 t.timeLatch (viewNum v) = (s.time >>> 32).setWidth 32 ∧ t.timeLatch.any (fun e => e.1 == viewNum v) = true ∧
      t.time = s.time) ∧
  (∀ (v : View) (w : Word) (s : State) (k : Nat), reads v devTimeHiR s = true → s.timeLatch.find? (fun e => e.1 == viewNum v) = some (k, w) →
    ∃ t, exec (.clearOnRead v (BitVec.ofNat 29 devTimeHiR) true) s = .next (emit (.readData v w false) t) ∧
      t.timeLatch = tabErase s.timeLatch (viewNum v)) ∧
  (∀ (v : View) (s : State), reads v devTimeHiR s = true → s.timeLatch.find? (fun e => e.1 == viewNum v) = none →
    ∃ t, exec (.clearOnRead v (BitVec.ofNat 29 devTimeHiR) true) s =
      .next (emit (.readData v ((s.time >>> 32).setWidth 32) false) t))

/-- R413: a served write of PERF_SEL from the supervisor view stores bit 3 of PRIV with the other fields; one from any other view with that
bit set stores it as 0, is logged with cause PRIVILEGE and counted as a refusal (R379, R395), and its other fields take effect. -/
def Obligations.PerfSelPrivilege : Prop :=
  (∀ (b : Fin 9) (n : BitVec 3) (w : Word) (i : RegInfo) (s : State), writes .supervisor (perfSel b.val n.toNat) i s = true →
    exec (.perfSelWrite .supervisor b n w) s =
      .next (wr (perfSel b.val n.toNat) (w &&& 0xFFFFF) (served .supervisor (perfSel b.val n.toNat) true s))) ∧
  (∀ (v : View) (b : Fin 9) (n : BitVec 3) (w : Word) (i : RegInfo) (s : State), writes v (perfSel b.val n.toNat) i s = true →
    v ≠ .supervisor →
    (bitGet w 11 = true → exec (.perfSelWrite v b n w) s =
      .next (firewallRefusal v (perfSel b.val n.toNat) true
        (wr (perfSel b.val n.toNat) (w &&& 0xFF7FF) (served v (perfSel b.val n.toNat) true s)))) ∧
    (bitGet w 11 = false → exec (.perfSelWrite v b n w) s =
      .next (wr (perfSel b.val n.toNat) (w &&& 0xFFFFF) (served v (perfSel b.val n.toNat) true s))))

/-- R44: when words would exceed the gearbox queue of a pair, which stands at its 16,384 bits, they are dropped and counted in GBX_OVERFLOW
of the pair, EVT_FILL_EXHAUSTED is raised, and no clock changes: no synthesizer state and no register of a synthesizer's or rack PLL's
control. The queue of a quiet pair (R177) and one that is in reset (R294) hold nothing. -/
def Obligations.GearboxOverflow : Prop :=
  ∀ (l : Pair) (n : BitVec 16) (s u : State), s.mode = .running → (pairOf s l.toNat).quiet = false → (pairOf s l.toNat).xqOff = false →
    u = modPair l.toNat (fun p => { p with queue := queueRoom }) s →
    ∃ t, exec (.gbxOverflow l n) s = .next t ∧
      t = raise 0x0602 (pairUnit l.toNat) [] (count (gbxOverflowR l.toNat) n.toNat u) ∧
      rd t (gbxOverflowR l.toNat) = rd s (gbxOverflowR l.toNat) + BitVec.ofNat 32 n.toNat ∧
      t.syns = s.syns ∧ (∀ i < 72, rd t (synCtl i) = rd s (synCtl i)) ∧ (∀ i < 2, rd t (rackBase (72 + i)) = rd s (rackBase (72 + i)))

/-- The machine after reset: in a COLD reset, nothing stored, staged or in flight, every register at its reset value, no link configured
and device time 0. -/
def Obligations.ResetValues : Prop :=
  State.reset.mode = .inReset ∧ State.reset.pending = [] ∧ State.reset.mram = [] ∧ State.reset.sram = [] ∧ State.reset.hostMem = [] ∧
  State.reset.out = [] ∧ State.reset.time = 0 ∧ State.reset.cmd.inflight = [] ∧ State.reset.cmd.done = [] ∧
  tagsFree State.reset = 4096 ∧ State.reset.evt.seq = 0 ∧ State.reset.evt.log = [] ∧
  (∀ a, rd State.reset a = regReset a) ∧ (∀ l, (linkOf State.reset l).mode = 0 ∧ (linkOf State.reset l).state = .down) ∧
  (∀ n < 64, sqEnabled State.reset n = false ∧ cqEnabled State.reset n = false)

/-- The bytes of memory that a storing row leaves: a status slot changes no byte of host memory outside the slot and, for a long result,
its buffer; FW_STAGE no byte of MRAM outside its chunk; a word of the mailbox buffer no other byte of the buffer. -/
def Obligations.StoreFrames : Prop :=
  (∀ (n : Ring) (s v : State) (c : Completion) (a : Nat), s.cmd.done.find? (fun c => pathCq s c.cmd.path == some n.toNat) = some c →
    exec (.statusSlotWrite n) s = .next v →
    (a < rdWide s (cqBase n.toNat) + 32 * cqTail s n.toNat ∨ rdWide s (cqBase n.toNat) + 32 * cqTail s n.toNat + 32 ≤ a) →
    (c.result.length ≤ 16 ∨ a < c.cmd.buf.toNat ∨ c.cmd.buf.toNat + c.result.length ≤ a) →
    tabGet 0 v.hostMem a = tabGet 0 s.hostMem a) ∧
  (∀ (c : Cmd) (chunk : Option (List Byte)) (s u v : State) (e : Nat) (b : List Byte) (a : Nat), startOf opFwStage c s = some (e, u) →
    stageChunk c chunk u = some b → exec (.fwStage c chunk) s = .next v →
    (a < bankBase (stagingBank u (leAt c.params 16 1)) + leAt c.params 8 4 ∨
      bankBase (stagingBank u (leAt c.params 16 1)) + leAt c.params 8 4 + b.length ≤ a) →
    tabGet 0 v.mram a = tabGet 0 u.mram a) ∧
  (∀ (o : BitVec 10) (w : Word) (s v : State) (a : Nat), exec (.mailboxBufferWrite o w) s = .next v →
    (a < 4 * o.toNat ∨ 4 * o.toNat + 4 ≤ a) → tabGet 0 v.cmd.mailbox a = tabGet 0 s.cmd.mailbox a)

/-- R74: at a limit the interpolator's phase is held there, the symbols held are counted in INTERP_LIMIT of the pair, and EVT_INTERP_LIMIT
is raised at the start of an excursion only; no link changes state, and neither coefficient bank, which hold ADC_PHASE, changes. -/
def Obligations.InterpolatorLimit : Prop :=
  ∀ (l : Pair) (high first : Bool) (n : Word) (s : State), s.mode = .running →
    ∃ t u, exec (.interpLimit l high n first) s = .next t ∧
      t = (if first then raise 0x0603 (pairUnit l.toNat) [] u else u) ∧ u.evt = s.evt ∧
      (pairOf t l.toNat).phi = (if high then 8191 else -8192) ∧ rd t (interpLimitR l.toNat) = rd s (interpLimitR l.toNat) + n ∧
      t.links = s.links ∧ (pairOf t l.toNat).active = (pairOf s l.toNat).active ∧
      (pairOf t l.toNat).standby = (pairOf s l.toNat).standby

/-- R42: a receiver in superframe lock takes the fill count from the first copy A, B, C whose CRC-8 checks, whose fill count is not 255 and
whose row is not above 8,223; with none it keeps the fill count and counts ROW_HDR_LOST. The flags are taken when CRC_F checks and kept
otherwise. -/
def Obligations.RowHeaderFill : Prop :=
  ∀ (l : Pair) (r : BitVec 14) (h : BitVec 120) (s : State) (m : Nat) (good : Nat → Prop), hears s l.toNat = some m →
    (pairOf s l.toNat).sfLock = true → trainOrUp (linkOf s m).state = true →
    (∀ i, good i ↔ crc8 (bitList h.toNat (34 * i) (34 * i + 25)) = h.extractLsb' (34 * i + 26) 8 ∧
      (h.extractLsb' (34 * i) 8).toNat ≠ 255 ∧ (h.extractLsb' (34 * i + 8) 14).toNat ≤ 8223) →
    ∃ t, exec (.rowHeaderReceived l r h) s = .next t ∧
      (good 0 → (pairOf t l.toNat).rxFill = (h.extractLsb' 0 8).toNat) ∧
      (¬ good 0 → good 1 → (pairOf t l.toNat).rxFill = (h.extractLsb' 34 8).toNat) ∧
      (¬ good 0 → ¬ good 1 → good 2 → (pairOf t l.toNat).rxFill = (h.extractLsb' 68 8).toNat) ∧
      ((good 0 ∨ good 1 ∨ good 2) → rd t (rowHdrLostR l.toNat) = rd s (rowHdrLostR l.toNat)) ∧
      (¬ good 0 → ¬ good 1 → ¬ good 2 → (pairOf t l.toNat).rxFill = (pairOf s l.toNat).rxFill ∧
        rd t (rowHdrLostR l.toNat) = rd s (rowHdrLostR l.toNat) + 1) ∧
      (crc8 (bitList h.toNat 102 107) = h.extractLsb' 108 8 →
        (pairOf t l.toNat).rxAbsent = h.getLsbD 102 ∧ (pairOf t l.toNat).rxLpi = h.getLsbD 103 ∧
        (pairOf t l.toNat).rxUnderrun = h.getLsbD 104) ∧
      (crc8 (bitList h.toNat 102 107) ≠ h.extractLsb' 108 8 →
        (pairOf t l.toNat).rxAbsent = (pairOf s l.toNat).rxAbsent ∧ (pairOf t l.toNat).rxLpi = (pairOf s l.toNat).rxLpi ∧
        (pairOf t l.toNat).rxUnderrun = (pairOf s l.toNat).rxUnderrun)

/-- A command that has passed the checks of R327 and waits for no domain: DEV_IDENTIFY, DEV_STATUS and DEV_LOCK_QUERY complete with OK and
their results (R346); DEV_OFF with OK where no link is out of DOWN and no keep-awake hold stands (R310); DEV_TIME_SET with OK, device time
set and the utilization windows in progress discarded, where the device is no addressed worker and no action is scheduled (R347).
EVT_SUBSCRIBE writes base, class mask, vector and size and, unless its size is 0, restarts the ring; EVT_READ_LOG, with the MRAM ready and
FIRST_SEQ not before the oldest, returns the logged records from there on (R369). -/
def Obligations.DeviceAndEventCommandsComplete : Prop :=
  (∀ (c : Cmd) (s u : State) (e : Nat), startOf opDevIdentify c s = some (e, u) →
    exec (.devIdentify c) s = .next (complete e stOk (identifyResult u) u)) ∧
  (∀ (c : Cmd) (s u : State) (e : Nat), startOf opDevStatus c s = some (e, u) →
    exec (.devStatus c) s = .next (complete e stOk (devStatusResult u) u)) ∧
  (∀ (c : Cmd) (s u : State) (e : Nat), startOf opDevOff c s = some (e, u) →
    anyLinkActive u = false → anyHold u = false →
    exec (.devOff c) s = .next { complete e stOk [] u with offPending := true }) ∧
  (∀ (c : Cmd) (s u : State) (e : Nat), startOf opDevTimeSet c s = some (e, u) →
    (rdB u chainStateR 1 = false ∨ rdB u chainStateR 0 = true) → actionPending u = false →
    exec (.devTimeSet c) s = .next (complete e stOk []
      { setTime (BitVec.ofNat 64 (leAt c.params 0 8)) u with utilDiscard := List.range 64 })) ∧
  (∀ (c : Cmd) (s u : State) (e : Nat), startOf opDevLockQuery c s = some (e, u) →
    exec (.devLockQuery c) s = .next (complete e stOk (leBytes 4 (rdF u lockCtlR 4 0)) u)) ∧
  (∀ (c : Cmd) (s u : State) (e : Nat), startOf opEvtSubscribe c s = some (e, u) →
    evtSubscribeBad c = false → leAt c.params 8 1 ≠ 0 →
    exec (.evtSubscribe c) s = .next (complete e stOk [] (evtRestart
      (wrF evtRingCfgR 4 0 (leAt c.params 8 1) (wrF evtRingCfgR 16 8 (leAt c.params 10 2)
        (wrWide evtBaseLoR 64 (leAt c.params 0 8) (wrWide evtClassLoR 64 (leAt c.params 16 8) u))))))) ∧
  (∀ (c : Cmd) (s u : State) (e : Nat), startOf opEvtSubscribe c s = some (e, u) →
    evtSubscribeBad c = false → leAt c.params 8 1 = 0 →
    exec (.evtSubscribe c) s = .next (complete e stOk []
      (wrF evtRingCfgR 4 0 0 (wrF evtRingCfgR 16 8 (leAt c.params 10 2)
        (wrWide evtBaseLoR 64 (leAt c.params 0 8) (wrWide evtClassLoR 64 (leAt c.params 16 8) u)))))) ∧
  (∀ (c : Cmd) (s u : State) (e : Nat), startOf (opEvtReadLog c) c s = some (e, u) →
    0 < leAt c.params 4 2 → leAt c.params 4 2 ≤ 2047 → leAt c.params 6 2 = 0 → mramReady u = true →
    seqGe (BitVec.ofNat 32 (leAt c.params 0 4)) (logOldest u) = true →
    exec (.evtReadLog c) s = .next (complete e stOk
      (leBytes 4 (logOldest u).toNat ++ leBytes 4 (logNewest u).toNat ++
        ((u.evt.log.filter (fun r => seqGe r.seq (BitVec.ofNat 32 (leAt c.params 0 4)))).take (leAt c.params 4 2)).flatMap (logBytes u)) u))

/-- The STORE commands, with the MRAM ready (R309, R365, R366): CONT_LIST returns its list; CONT_READ of a record that is there returns it,
with OK where it passes its check and with CHECKSUM where it does not; CONT_DELETE removes the named record, or all of them, unless writes
are held; CAL_RECORD_READ returns the record of a pair of a link, with CHECKSUM where it fails its check. -/
def Obligations.StoreCommandsComplete : Prop :=
  (∀ (c : Cmd) (s u : State) (e : Nat), startOf (opContList c) c s = some (e, u) →
    0 < contListMax c → contListMax c ≤ 2048 → mramReady u = true →
    exec (.contList c) s = .next (complete e stOk (contListResult c u) u)) ∧
  (∀ (c : Cmd) (s u : State) (e i : Nat), startOf opContRead c s = some (e, u) →
    contNameBad c.params = false → contNamed c.params u = some i → mramReady u = true →
    exec (.contRead c) s = .next (if contValid (contBytes u i) then complete e stOk (contBytes u i) u
      else complete e stChecksum (contBytes u i) (contBadRead u))) ∧
  (∀ (c : Cmd) (s u : State) (e i : Nat), startOf opContDelete c s = some (e, u) →
    leAt c.params 0 1 ≠ 2 → contNameBad c.params = false → contNamed c.params u = some i → mramReady u = true → mramHold u = false →
    exec (.contDelete c) s = .next (complete e stOk [] { u with contRecs := tabErase u.contRecs i })) ∧
  (∀ (c : Cmd) (s u : State) (e : Nat), startOf opContDelete c s = some (e, u) →
    leAt c.params 0 1 = 2 → zeroFrom c.params 1 = true → mramReady u = true → mramHold u = false →
    exec (.contDelete c) s = .next (complete e stOk [] { u with contRecs := [] })) ∧
  (∀ (c : Cmd) (s u : State) (e : Nat), startOf opCalRecordRead c s = some (e, u) →
    leAt c.params 0 2 < 512 → (linkOfPair u (leAt c.params 0 2)).isSome → leAt c.params 2 1 < 4 → leAt c.params 3 1 = 0 →
    mramReady u = true →
    exec (.calRecordRead c) s = .next (
      if calValid (leAt c.params 0 2) (calRecord (leAt c.params 0 2) (leAt c.params 2 1)) then
        complete e stOk (calRecord (leAt c.params 0 2) (leAt c.params 2 1)) u
      else complete e stChecksum (calRecord (leAt c.params 0 2) (leAt c.params 2 1))
        (calRead (leAt c.params 0 2) (leAt c.params 2 1) u).2))

/-- The FIRMWARE commands (R365, R367, R384 to R386): with no activation and no verification under way and the MRAM ready, FW_STAGE stores
a chunk in the inactive bank, marks it invalid and completes with the bytes stored, or, at the last chunk, waits for the verification.
FINAL_CHUNK_VERIFIED completes that command with OK and code 1 where the image passes, with CHECKSUM and code 2 where it does not.
FW_ACTIVATE of a verified image waits with ACT_PENDING set, of a verified patch waits for the patch. FW_STATUS reports. -/
def Obligations.FirmwareCommandsComplete : Prop :=
  (∀ (c : Cmd) (chunk : Option (List Byte)) (s u : State) (e : Nat) (b : List Byte), startOf opFwStage c s = some (e, u) →
    fwStageBad c = false → u.fw.activating = none → u.fw.patching = none → u.fw.verifying = none →
    leAt c.params 8 4 + leAt c.params 12 4 ≤ bankSize (stagingBank u (leAt c.params 16 1)) → mramReady u = true →
    mramHold u = false → stageChunk c chunk u = some b → leAt c.params 17 1 = 0 →
    ∃ n v, exec (.fwStage c chunk) s = .next (complete e stOk (leBytes 4 n ++ zeros 4) v) ∧
      v.mram = putBytes0 u.mram (bankBase (stagingBank u (leAt c.params 16 1)) + leAt c.params 8 4) b ∧
      stagingBank u (leAt c.params 16 1) ∈ v.fw.invalid ∧ v.regs = u.regs) ∧
  (∀ (c : Cmd) (chunk : Option (List Byte)) (s u : State) (e : Nat) (b : List Byte), startOf opFwStage c s = some (e, u) →
    fwStageBad c = false → u.fw.activating = none → u.fw.patching = none → u.fw.verifying = none →
    leAt c.params 8 4 + leAt c.params 12 4 ≤ bankSize (stagingBank u (leAt c.params 16 1)) → mramReady u = true →
    mramHold u = false → stageChunk c chunk u = some b → leAt c.params 17 1 = 1 →
    ∃ v, exec (.fwStage c chunk) s = .next (keepRunning e (stagingBank u (leAt c.params 16 1)) v) ∧
      v.mram = putBytes0 u.mram (bankBase (stagingBank u (leAt c.params 16 1)) + leAt c.params 8 4) b ∧
      v.fw.verifying = some (stagingBank u (leAt c.params 16 1), e)) ∧
  (∀ (x : BitVec 3) (s u : State) (b e : Nat), s.fw.verifying = some (b, e) → verifyBank b x.toNat s = (0, u) →
    ∃ v, exec (.finalChunkVerified x) s = .next (complete e stOk (leBytes 4 (tabGet 0 u.fw.staged b) ++ leBytes 1 1 ++ zeros 3) v) ∧
      v.fw.verifying = none ∧ b ∈ v.fw.verified ∧ b ∉ v.fw.invalid) ∧
  (∀ (x : BitVec 3) (s u : State) (b e code : Nat), s.fw.verifying = some (b, e) → verifyBank b x.toNat s = (code, u) → code ≠ 0 →
    exec (.finalChunkVerified x) s = .next (complete e stChecksum (leBytes 4 (tabGet 0 u.fw.staged b) ++ leBytes 1 2 ++ zeros 3)
      { u with fw := { u.fw with verifying := none, stagingState := 2 } })) ∧
  (∀ (c : Cmd) (s u : State) (e : Nat), startOf opFwActivate c s = some (e, u) →
    leAt c.params 0 1 = 0 → zeroFrom c.params 1 = true → u.fw.activating = none → u.fw.patching = none →
    u.fw.verified.contains (stagingBank u 0) = true →
    exec (.fwActivate c) s = .next (keepRunning e 0 (wrB fwStateR 3 true { u with fw := { u.fw with activating := some e } }))) ∧
  (∀ (c : Cmd) (s u : State) (e : Nat), startOf opFwActivate c s = some (e, u) →
    leAt c.params 0 1 = 1 → zeroFrom c.params 1 = true → u.fw.activating = none → u.fw.patching = none →
    u.fw.verified.contains (stagingBank u 1) = true →
    exec (.fwActivate c) s = .next (keepRunning e 1 { u with fw := { u.fw with patching := some e } })) ∧
  (∀ (c : Cmd) (s u : State) (e : Nat), startOf opFwStatus c s = some (e, u) →
    exec (.fwStatus c) s = .next (complete e stOk (fwStatusResult u) u))

/-- The commands that set how a link is configured, once they have passed the checks of R327. LINK_CONFIGURE (R349), with the cache enabled
and a valid entry that is not refused, applies the entry, keeping LOOPBACK's flag, or removes the link where MODE is 0, and answers GEN.
LINK_REFRESH with a valid entry applies the policy fields alone and answers GEN and CONFIG_PENDING (R336). LINK_QUIET_POLICY and
TAKE_POLICY without parameters report, and with valid ones set OVERRIDE and replace their policy fields, 0 standing for the default (R352).
LINK_FORCE_ROLE stores the preference, unless an FDX link out of DOWN has fixed another role (R156, R353). -/
def Obligations.LinkSettingsComplete : Prop :=
  (∀ (c : Cmd) (b : List Byte) (s u : State) (e : Nat), startOf opLinkConfigure c s = some (e, u) →
    zeroFrom c.params 1 = true → leAt c.params 0 1 ≤ 1 → ldtEnabled u = true → ldtCrcOk b = true → entryRanges b = true →
    modeOk (leAt b 0 1) (leAt b 2 1) = true → leAt b 0 1 ≠ 0 →
    pairSet (leAt b 0 1) (c.idx.toNat % 8) = some (BitVec.ofNat 8 (leAt b 1 1)) → configRefused u c.idx.toNat c b = false →
    ∃ v, exec (.linkConfigure c (some b)) s = .next (complete e stOk (leBytes 4 (leAt b 0xF8 4) ++ leBytes 1 0) v) ∧
      linkOf v c.idx.toNat = { mode := leAt b 0 1, mask := BitVec.ofNat 8 (leAt b 1 1), pcs := leAt b 2 1, pol := entryPolicy b,
                               gen := leAt b 0xF8 4, loopback := (linkOf u c.idx.toNat).loopback }) ∧
  (∀ (c : Cmd) (b : List Byte) (s u : State) (e : Nat), startOf opLinkConfigure c s = some (e, u) →
    zeroFrom c.params 1 = true → leAt c.params 0 1 ≤ 1 → ldtEnabled u = true → ldtCrcOk b = true → entryRanges b = true →
    modeOk 0 (leAt b 2 1) = true → leAt b 0 1 = 0 → configRefused u c.idx.toNat c b = false →
    ∃ v, exec (.linkConfigure c (some b)) s = .next (complete e stOk (leBytes 4 (leAt b 0xF8 4) ++ zeros 1) v) ∧
      linkOf v c.idx.toNat = { loopback := (linkOf u c.idx.toNat).loopback }) ∧
  (∀ (c : Cmd) (b : List Byte) (s u : State) (e : Nat), startOf opLinkRefresh c s = some (e, u) →
    ldtEnabled u = true → ldtCrcOk b = true → entryRanges b = true →
    ∃ v, exec (.linkRefresh c (some b)) s =
        .next (complete e stOk (leBytes 4 (leAt b 0xF8 4) ++ leBytes 1 (b2n (configDiffers (linkOf u c.idx.toNat) b))) v) ∧
      linkOf v c.idx.toNat = { linkOf u c.idx.toNat with
        pol := entryPolicy b, gen := leAt b 0xF8 4, override := false, configPending := configDiffers (linkOf u c.idx.toNat) b }) ∧
  (∀ (c : Cmd) (s u : State) (e : Nat), startOf opLinkQuietPolicy c s = some (e, u) → c.paramLen = 0 →
    exec (.linkQuietPolicy c) s = .next (complete e stOk (quietPolicyResult u c.idx.toNat) u)) ∧
  (∀ (c : Cmd) (s u v : State) (e : Nat) (p : Policy), startOf opLinkQuietPolicy c s = some (e, u) →
    c.paramLen ≠ 0 → leAt c.params 0 1 ≤ 1 → leAt c.params 1 1 ≤ 127 → leAt c.params 2 2 = 0 →
    p = (linkOf u c.idx.toNat).pol →
    v = modLink c.idx.toNat (fun x => { x with override := true, pol := { p with
      flags := (p.flags &&& ~~~0x20) ||| BitVec.ofNat 8 (32 * leAt c.params 0 1), quietRefresh := orDefault (leAt c.params 1 1) 8 } }) u →
    exec (.linkQuietPolicy c) s =
      .next (complete e stOk (leBytes 1 (leAt c.params 0 1) ++ leBytes 1 (orDefault (leAt c.params 1 1) 8) ++ zeros 2) v)) ∧
  (∀ (c : Cmd) (s u : State) (e : Nat), startOf opTakePolicy c s = some (e, u) → c.paramLen = 0 →
    exec (.takePolicy c) s = .next (complete e stOk (takePolicyResult u ((linkOfPair u c.idx.toNat).getD c.idx.toNat)) u)) ∧
  (∀ (c : Cmd) (s u v : State) (e m : Nat) (p : Policy), startOf opTakePolicy c s = some (e, u) → c.paramLen ≠ 0 →
    takePolicyBad c.params = false → m = (linkOfPair u c.idx.toNat).getD c.idx.toNat → p = (linkOf u m).pol →
    v = modLink m (fun x => { x with override := true, pol := { p with
      flags := (p.flags &&& ~~~0x1E) ||| BitVec.ofNat 8 (2 * leAt c.params 0 1), calDelta := orDefault (leAt c.params 1 1) 6,
      retakeTol := if leAt c.params 2 1 = 0 then -30 else s8 (leAt c.params 2 1), txLead := orDefault (leAt c.params 3 1) 16,
      calPeriod := leAt c.params 4 2 } }) u →
    exec (.takePolicy c) s = .next (complete e stOk (takePolicyResult v m) v)) ∧
  (∀ (c : Cmd) (s u : State) (e : Nat), startOf opLinkForceRole c s = some (e, u) →
    leAt c.params 0 1 ≤ 2 → leAt c.params 1 1 ≤ 1 → leAt c.params 2 2 = 0 →
    (fdxOut u (c.idx.toNat / 8) = [] ∨ leAt c.params 0 1 = 0 ∨
      (portOf u (c.idx.toNat / 8)).fixedRole.all (fun r => r == (leAt c.params 0 1 == 2)) = true) →
    exec (.linkForceRole c) s = .next (complete e stOk []
      (modPort (c.idx.toNat / 8) (fun x => { x with force := some (leAt c.params 0 1, leAt c.params 1 1 == 1) }) u)))

/-- The commands that move a link, once they have passed the checks of R327, while no cable test runs on the port and its synthesizer is
not HELD. LINK_UP, with none pending, clears the attempt count, keeps NO_CONTINUITY and waits: from DOWN and HOLDOFF the link enters
LISTEN, from LISTEN, NEGOTIATE and TRAIN it goes on; of a link in UP it completes at once (R144, R350). LINK_DOWN waits: from TRAIN and UP
the link goes into LEAVING, from LEAVING it goes on to DOWN, from LISTEN, NEGOTIATE and HOLDOFF it enters DOWN; of a link in DOWN it
completes at once (R144). LINK_STATUS returns the status area (R351). LINK_TRAIN_STEP arms holding, lets a held link go on, or ends holding
(R353). -/
def Obligations.LinkMovesComplete : Prop :=
  (∀ (c : Cmd) (s u w : State) (e m : Nat), startOf opLinkUpSpec c s = some (e, u) → m = c.idx.toNat →
    zeroFrom c.params 1 = true → leAt c.params 0 1 ≤ 1 → cableBusy u (m / 8) = false → synState u (m / 8) ≠ 4 →
    running u opcLinkUp 4 m = [] →
    w = modLink m (fun x => { x with relinks := 0 }) (keepRunning e m
      (if leAt c.params 0 1 = 1 then modLink m (fun x => { x with noCont := true }) u else u)) →
    ((linkOf u m).state = .down → exec (.linkUp c) s = .next (enterListen m false (modLink m (fun x => { x with graded := false }) w))) ∧
    ((linkOf u m).state = .holdoff → exec (.linkUp c) s = .next (enterListen m false w)) ∧
    (((linkOf u m).state = .listen ∨ (linkOf u m).state = .negotiate ∨ (linkOf u m).state = .train) →
      exec (.linkUp c) s = .next w) ∧
    ((linkOf u m).state = .up → exec (.linkUp c) s = .next (complete e stOk (upResult u m 0) u))) ∧
  (∀ (c : Cmd) (s u w : State) (e m : Nat), startOf opLinkDownSpec c s = some (e, u) → m = c.idx.toNat → w = keepRunning e m u →
    (((linkOf u m).state = .train ∨ (linkOf u m).state = .up) → exec (.linkDown c) s = .next (leaveByCommand m w)) ∧
    ((linkOf u m).state = .leaving → exec (.linkDown c) s = .next (modLink m (fun x => { x with relisten := false }) w)) ∧
    (((linkOf u m).state = .listen ∨ (linkOf u m).state = .negotiate ∨ (linkOf u m).state = .holdoff) →
      exec (.linkDown c) s = .next (enterDown m (completeAll opcLinkUp 4 m stAborted (upResult w m 1) w))) ∧
    ((linkOf u m).state = .down → exec (.linkDown c) s = .next (complete e stOk [] u))) ∧
  (∀ (c : Cmd) (s u : State) (e : Nat), startOf opLinkStatus c s = some (e, u) →
    exec (.linkStatus c) s = .next (complete e stOk (statusArea u c.idx.toNat) u)) ∧
  (∀ (c : Cmd) (s u : State) (e m : Nat), startOf opLinkTrainStep c s = some (e, u) → m = c.idx.toNat → zeroFrom c.params 1 = true →
    (leAt c.params 0 1 = 0 → ((linkOf u m).state = .down ∨ (linkOf u m).state = .listen) →
      exec (.linkTrainStep c) s = .next (complete e stOk (leBytes 1 (linkOf u m).phase ++ zeros 3)
        (modLink m (fun x => { x with hold := true }) u))) ∧
    (leAt c.params 0 1 = 1 → (linkOf u m).heldAt = true → exec (.linkTrainStep c) s = .next (phaseNext m (keepRunning e m u))) ∧
    (leAt c.params 0 1 = 2 → (linkOf u m).heldAt = false → exec (.linkTrainStep c) s =
      .next (complete e stOk (leBytes 1 (linkOf u m).phase ++ zeros 3)
        (modLink m (fun x => { x with hold := false, heldAt := false }) u))) ∧
    (leAt c.params 0 1 = 2 → (linkOf u m).heldAt = true → exec (.linkTrainStep c) s =
      .next (complete e stOk (leBytes 1 (linkOf u m).phase ++ zeros 3)
        (phaseNext m (modLink m (fun x => { x with hold := false, heldAt := false }) u)))))

/-- The TAKE commands, once they have passed the checks of R327. TAKE_LIST and TAKE_READ return slots (R355). TAKE_WRITE into a slot that
is neither SCHEDULED nor ACTIVE and not with the loader stores the image, and answers the slot and its earlier state, or waits for its
verification; or empties the slot (R356); any slot means the lowest EMPTY one or the one RETIRED longest (R108). TAKE_VERIFY waits for the
loader. TAKE_CUT (R112, R115, R123): CANCEL ends a cut that is set; AWAIT makes a VERIFIED slot wait; a local cut (of an FDX link with the
same transmit filter, of a COMPAT link within R125) is set at C + 2 or at the S it names; a joined one is coordinated at the first odd
superframe after C plus TX_LEAD. TAKE_GRADE queues a run on a link in UP (R354). -/
def Obligations.TakeCommandsComplete : Prop :=
  (∀ (c : Cmd) (s u : State) (e : Nat), startOf opTakeList c s = some (e, u) →
    exec (.takeList c) s = .next (complete e stOk (leBytes 2 (linkPairs u (cmdLink u c)).length ++ zeros 6
      ++ (linkPairs u (cmdLink u c)).flatMap (listEntry u)) u)) ∧
  (∀ (c : Cmd) (s u : State) (e : Nat), startOf (opTakeRead c) c s = some (e, u) → leAt c.params 0 1 ≤ 7 →
    16 * leAt c.params 1 1 + readLen c.params ≤ 4096 → slotCode u c.idx.toNat (leAt c.params 0 1) ≠ slEmpty →
    exec (.takeRead c) s = .next (complete e stOk
      (((takeAt u c.idx.toNat (leAt c.params 0 1)).drop (16 * leAt c.params 1 1)).take (readLen c.params))
      (takeWords 0x21 0 c.idx.toNat (leAt c.params 0 1) (readLen c.params) u))) ∧
  (∀ (c : Cmd) (s u w v : State) (e l k prev : Nat), startOf (opTakeWrite c) c s = some (e, u) → l = c.idx.toNat →
    k = leAt c.params 0 1 → k ≤ 7 → leAt c.params 2 6 = 0 → loaderHas u l k = false →
    w = (if stepSlot u l k (cmdLink u c) then stepRelease l k u else u) → prev = slotCode w l k → prev ≠ slScheduled → prev ≠ slActive →
    v = takeWords 0x22 0 l k 4096 (writeTake l k (c.params.drop 8) w) →
    (leAt c.params 1 1 = 0 → exec (.takeWrite c) s = .next (complete e stOk (leBytes 1 k ++ leBytes 1 prev ++ zeros 2) v)) ∧
    (leAt c.params 1 1 = 1 → exec (.takeWrite c) s =
      .next (complete e stOk (leBytes 1 k ++ leBytes 1 prev ++ zeros 2) (clearSlot l k w))) ∧
    (leAt c.params 1 1 = 2 → exec (.takeWrite c) s = .next (keepRunning e k (askVerify l k 1 e prev v)))) ∧
  (∀ (c : Cmd) (s u v : State) (e l k : Nat), startOf (opTakeWrite c) c s = some (e, u) → l = c.idx.toNat →
    leAt c.params 0 1 = 0xFF → leAt c.params 2 6 = 0 → anySlot u l = some k → loaderHas u l k = false →
    v = takeWords 0x22 0 l k 4096 (writeTake l k (c.params.drop 8) u) →
    (leAt c.params 1 1 = 0 → exec (.takeWrite c) s =
      .next (complete e stOk (leBytes 1 k ++ leBytes 1 (slotCode u l k) ++ zeros 2) v)) ∧
    (leAt c.params 1 1 = 2 → exec (.takeWrite c) s = .next (keepRunning e k (askVerify l k 1 e (slotCode u l k) v)))) ∧
  (∀ (c : Cmd) (s u : State) (e : Nat), startOf opTakeVerify c s = some (e, u) → leAt c.params 0 1 ≤ 7 →
    zeroFrom c.params 1 = true → slotCode u c.idx.toNat (leAt c.params 0 1) ≠ slEmpty →
    slotCode u c.idx.toNat (leAt c.params 0 1) ≠ slScheduled → slotCode u c.idx.toNat (leAt c.params 0 1) ≠ slActive →
    exec (.takeVerify c) s = .next (keepRunning e (leAt c.params 0 1) (askVerify c.idx.toNat (leAt c.params 0 1) 0 e 0 u))) ∧
  (∀ (c : Cmd) (s u : State) (e : Nat) (k : Cut), startOf opTakeCut c s = some (e, u) → leAt c.params 1 1 = 8 →
    leAt c.params 2 2 = 0 → (pairOf u c.idx.toNat).cut = some k →
    exec (.takeCut c) s = .next (complete e stOk (cutResult k.sf 0 k.slot) (cutAbort c.idx.toNat 0x0C u))) ∧
  (∀ (c : Cmd) (s u : State) (e l k : Nat) (want : BitVec 32), startOf opTakeCut c s = some (e, u) → l = c.idx.toNat →
    k = leAt c.params 0 1 → k ≤ 7 → want = BitVec.ofNat 32 (leAt c.params 4 4) → leAt c.params 2 2 = 0 →
    ((linkOf u (cmdLink u c)).state = .up ∨ (linkOf u (cmdLink u c)).heldAt = true) → slotCode u l k = slVerified →
    (pairOf u l).cut = none →
    (leAt c.params 1 1 = 0 → cutsLocal u l k (cmdLink u c) = true → exec (.takeCut c) s = .next (setCut l
      { slot := k, sf := curSf u l + 2, etag := some e } (keepRunning e k u))) ∧
    (leAt c.params 1 1 = 1 → cutsLocal u l k (cmdLink u c) = true → sfFuture want (curSf u l) = true → 2 ≤ sfDiff want (curSf u l) →
      exec (.takeCut c) s = .next (setCut l { slot := k, sf := want, etag := some e } (keepRunning e k u))) ∧
    (leAt c.params 1 1 = 4 → isFdx (modeOf u (cmdLink u c)) = true → exec (.takeCut c) s =
      .next (keepRunning e k (setCut l { slot := k, await := true, etag := some e } u))) ∧
    (leAt c.params 1 1 = 2 → isFdx (modeOf u (cmdLink u c)) = true → linkMismatch u (cmdLink u c) = false →
      (linkOf u (cmdLink u c)).pol.txLead ≤ 255 →
      exec (.takeCut c) s = .next (coordCut l k 0
        (nextOdd (curSf u l) + BitVec.ofNat 32 (linkOf u (cmdLink u c)).pol.txLead) true (some e) (keepRunning e k u)))) ∧
  (∀ (c : Cmd) (s u : State) (e : Nat), startOf opTakeGrade c s = some (e, u) → leAt c.params 0 1 ≤ 1 → zeroFrom c.params 1 = true →
    (linkOf u (cmdLink u c)).state = .up → graderOn u (groupOf c.idx.toNat) = true → hasRun u c.idx.toNat = false →
    exec (.takeGrade c) s = .next (queueRun c.idx.toNat 1 e (leAt c.params 0 1 == 1) (keepRunning e c.idx.toNat u)))

/-- Commands on captures and cables. RUSHES_ARM drops the port's earlier host capture and asks for the area; with WAIT (option bit 4) it
waits for DONE, else it reports the capture's state (R357). RUSHES_STATUS reports the four ports of a group, the count of a capture in
progress being free (log 135). RUSHES_UPLOAD of a DONE segment waits for its DMA. CABLE_PROFILE of a link in UP queues on the grader
(R198). CABLE_TEST of a port whose links are all DOWN and whose area is free, with no activation pending (R385), starts, and a locked port
synthesizer on another slot hops to slot 0 (R204); an empty pair mask ends with the header alone (the model's choice, log 155). -/
def Obligations.CaptureCommandsComplete : Prop :=
  (∀ (c : Cmd) (s u : State) (e : Nat), startOf opRushesArm c s = some (e, u) → armBad c c.idx.toNat u = none →
    ∃ v, v = capAsk c.idx.toNat
        { owner := 0, state := 0, trigger := leAt c.params 0 1, content := leAt c.params 1 1 % 8, n := 1024 * (leAt c.params 2 1 + 1),
          post := 1024 * leAt c.params 3 1, s := leAt c.params 4 4, pos := leAt c.params 8 4, t := leAt c.params 12 8,
          etag := if (leAt c.params 1 1).testBit 4 then some e else none, armSeq := u.evt.seq } (dropHostCapture c.idx.toNat u) ∧
      exec (.rushesArm c) s = .next (if (leAt c.params 1 1).testBit 4 then keepRunning e c.idx.toNat v
        else complete e stOk (leBytes 1 (((hostCapture v c.idx.toNat).map Capture.state).getD 0) ++ zeros 3) v)) ∧
  (∀ (c : Cmd) (s u : State) (e : Nat), startOf opRushesStatus c s = some (e, u) →
    ∃ r n, exec (.rushesStatus c) s = .next (complete e stOk r { u with fresh := n }) ∧ r.length = 64) ∧
  (∀ (c : Cmd) (s u : State) (e : Nat), startOf opRushesUpload c s = some (e, u) → leAt c.params 0 8 % 64 = 0 →
    leAt c.params 16 1 ≤ 1 → zeroFrom c.params 17 = true → rushesOn u c.idx.toNat = true → (doneCapture u c.idx.toNat).isSome →
    leAt c.params 8 4 + leAt c.params 12 4 ≤ 295168 →
    exec (.rushesUpload c) s = .next (keepRunning e c.idx.toNat u)) ∧
  (∀ (c : Cmd) (s u : State) (e : Nat), startOf opCableProfile c s = some (e, u) → (cableParams c.params 0).1 = false →
    leAt c.params 3 1 = 0 → (linkOf u c.idx.toNat).state = .up → graderOn u (groupOf c.idx.toNat) = true →
    exec (.cableProfile c) s = .next (keepRunning e c.idx.toNat (putRuns (groupOf c.idx.toNat) (runsOf u (groupOf c.idx.toNat)
      ++ [{ pair := c.idx.toNat, cls := 3, etag := e, profile := true }]) u))) ∧
  (∀ (c : Cmd) (s u : State) (e : Nat), startOf (opCableTest c) c s = some (e, u) → (cableParams c.params 2).1 = false →
    zeroFrom c.params 5 = true → cableBusy u c.idx.toNat = false →
    (∀ m ∈ portLinks u c.idx.toNat, (linkOf u m).state = .down) → capsOf u c.idx.toNat = [] → activationPending u = false →
    (leAt c.params 0 1 = 0 → exec (.cableTest c) s = .next (complete e stOk (cableHeader c) u)) ∧
    (leAt c.params 0 1 ≠ 0 → ∃ v, v = keepRunning e c.idx.toNat (modPort c.idx.toNat (fun x => { x with
        cableTest := some e, cableMask := BitVec.ofNat 8 (leAt c.params 0 1), cableOut := [], cableNext := [] }) u) ∧
      exec (.cableTest c) s = .next (if synState v c.idx.toNat = 2 ∧ synActive v c.idx.toNat ≠ 0
        then synHop c.idx.toNat 0 false none v else v)))

/-- The other diagnostic commands. PAIR_SNR returns one entry for each pair of the link, or of the link that carries the pair (R344).
EYE_SCAN of a receive lane begins (R231). LOOPBACK of a port sets HOST loopback (1) or ends it (0); of a link, 0 ends its loopback, 2 is
accepted in UP and 3 (DIGITAL_PAIR) of an FDX link in DOWN, whose pairs then frame; a loopback that begins wakes its quiet pairs (R207).
The counter commands. CNT_SNAPSHOT starts a snapshot when none runs, and waits for the next one while one runs (R406); CNT_READ of live
counters returns each with the device time, of held ones with the snapshot's number and time (R364); CNT_CLEAR clears the unit (R411);
UTIL_WINDOW sets K of one port or of all 64 (R191). -/
def Obligations.DiagnosticAndCounterCommandsComplete : Prop :=
  (∀ (c : Cmd) (s u : State) (e : Nat), startOf opPairSnr c s = some (e, u) →
    exec (.pairSnr c) s = .next (complete e stOk
      ((linkPairs u ((linkOfPair u c.idx.toNat).getD c.idx.toNat)).flatMap (pairSnrEntry u)) u)) ∧
  (∀ (c : Cmd) (s u : State) (e : Nat), startOf opEyeScan c s = some (e, u) → zeroFrom c.params 16 = true →
    laneIsTx c.idx.toNat = false → (eyeGrid c.params).isSome → (laneOf u c.idx.toNat).scan = none → (laneOf u c.idx.toNat).auto = none →
    exec (.eyeScan c) s = .next (keepRunning e c.idx.toNat (modLane c.idx.toNat (fun x => { x with scan := some e, scanPoint := 0 }) u))) ∧
  (∀ (c : Cmd) (s u : State) (e : Nat), startOf opLoopback c s = some (e, u) → c.cls = 3 → zeroFrom c.params 1 = true →
    (leAt c.params 0 1 = 0 →
      exec (.loopback c) s = .next (complete e stOk [] (modPort c.idx.toNat (fun x => { x with hostLoop := false }) u))) ∧
    (leAt c.params 0 1 = 1 → exec (.loopback c) s = .next (complete e stOk [] (each (eight (8 * c.idx.toNat)) quietWake
      (modPort c.idx.toNat (fun x => { x with hostLoop := true }) u))))) ∧
  (∀ (c : Cmd) (s u v : State) (e : Nat), startOf opLoopback c s = some (e, u) → c.cls = 4 → zeroFrom c.params 1 = true →
    v = modLink c.idx.toNat (fun x => { x with loopback := leAt c.params 0 1 }) u →
    (leAt c.params 0 1 = 0 → exec (.loopback c) s = .next (complete e stOk []
      (if (linkOf u c.idx.toNat).loopback = 3 ∧ (linkOf u c.idx.toNat).state = .down
        then each (linkPairs v c.idx.toNat) (fun l s => modPair l framingOff s) v else v))) ∧
    (leAt c.params 0 1 = 2 → (linkOf u c.idx.toNat).state = .up →
      exec (.loopback c) s = .next (complete e stOk [] (each (linkPairs v c.idx.toNat) quietWake v))) ∧
    (leAt c.params 0 1 = 3 → (linkOf u c.idx.toNat).state = .down → isFdx (linkOf u c.idx.toNat).mode = true →
      ∃ w, w = each (linkPairs v c.idx.toNat)
          (fun l s => modPair l (fun p => { framingOff p with txOn := true, sf := portSf s (c.idx.toNat / 8) }) s) v ∧
        exec (.loopback c) s = .next (complete e stOk [] (each (linkPairs w c.idx.toNat) quietWake w)))) ∧
  (∀ (c : Cmd) (s u : State) (e : Nat), startOf opCntSnapshot c s = some (e, u) →
    exec (.cntSnapshot c) s = .next (if rdB u snapCtlR 2 = true then u else keepRunning e 0 (wrB snapCtlR 2 true (takeCopies u)))) ∧
  (∀ (c : Cmd) (s u : State) (e : Nat), startOf opCntRead c s = some (e, u) → zeroFrom c.params 1 = true →
    countersGated u c.cls.toNat c.idx.toNat = false →
    (leAt c.params 0 1 = 0 → exec (.cntRead c) s = .next (complete e stOk (leBytes 4 0
      ++ leBytes 4 (unitCounters u c.cls.toNat c.idx.toNat).length ++ leBytes 8 u.time.toNat
      ++ (unitCounters u c.cls.toNat c.idx.toNat).flatMap (fun k => leBytes 8 (counterValue u false k))) u)) ∧
    (leAt c.params 0 1 = 1 → u.snapDone = true → exec (.cntRead c) s = .next (complete e stOk (leBytes 4 (rd u snapSeqR).toNat
      ++ leBytes 4 (unitCounters u c.cls.toNat c.idx.toNat).length ++ leBytes 8 (rdWide u snapTimeLoR)
      ++ (unitCounters u c.cls.toNat c.idx.toNat).flatMap (fun k => leBytes 8 (counterValue u true k))) u))) ∧
  (∀ (c : Cmd) (s u : State) (e : Nat), startOf opCntClear c s = some (e, u) →
    exec (.cntClear c) s = .next (complete e stOk [] (clearUnit c.cls.toNat c.idx.toNat u))) ∧
  (∀ (c : Cmd) (s u : State) (e : Nat), startOf opUtilWindow c s = some (e, u) → zeroFrom c.params 1 = true → leAt c.params 0 1 ≤ 20 →
    exec (.utilWindow c) s = .next (complete e stOk []
      (if c.cls = 0 then each (List.range 64) (setUtil (leAt c.params 0 1)) u else setUtil (leAt c.params 0 1) c.idx.toNat u)))

/-- Commands that program clocks. CLK_OUTPUT_SET of a request that R267 allows and no lock or follower forbids (R403, R269) writes the
output's words, takes it out of BYPASS or STOPPED with RETURN (R279), and its basic form answers the PLL, the divider and the nearest
frequency (R361). CLK_PLL_PROGRAM of a synthesizer or a rack PLL stores the slot's word (R239, R506); with ACTIVATE it hops to the slot and
waits, a disabled rack PLL is enabled, and a write of an active slot makes the PLL acquire again (R241, R265); a word outside the ranges is
answered RANGE. CLK_HOP of a unit that is not in use begins a hop, or schedules it at a chain time at least 100 µs ahead (R362). CLK_STEP
queues its step (R242). CLK_SPREAD writes mode, amount and rate; the ranges of mode 2 are narrower (R270). The other clock commands, with
no lock that forbids the change (R403). CLK_SYNC_ARM arms the named outputs and the clapper; its timed form also schedules the pulse at a
chain time at least 100 µs ahead (R362). CLK_REF_SELECT switches the selector to a reference that passes (the expert form also writes the
revert bits), the hub root to a source that passes, whose feedback word is stored first (R285), or the source that a tile's host
synthesizer follows (R361). CLK_STATUS returns the words of the unit; of the device it clears the path's copy of the monitor word's
FAILOVER bits (R361, R400). -/
def Obligations.ClockCommandsComplete : Prop :=
  (∀ (c : Cmd) (s u v : State) (e : Nat) (cfg ph : Word) (ret : Bool), startOf (opClkOutputSet c) c s = some (e, u) →
    outParamsBad c = false → outRequest u c.idx.toNat c = some (cfg, ph, ret) →
    rackEnabled u (outSrc u c.idx.toNat) = true → rackEnabled u (72 + fieldGet cfg 0 0) = true →
    (ret = true → rackState u (72 + fieldGet cfg 0 0) = 3) → outLocked u c.idx.toNat cfg ph = false →
    (followedLocked u c.idx.toNat = true → freqEq (outFreq u c.idx.toNat) (outFreqAfter u c.idx.toNat cfg ret) = true) →
    v = outPhaseWrite c.idx.toNat ph (outCfgWrite c.idx.toNat cfg u) →
    ∃ w, w = (if ret then outReturn c.idx.toNat v else v) ∧ exec (.clkOutputSet c) s = .next (complete e stOk
      (if c.expert then [] else leBytes 1 (fieldGet cfg 0 0) ++ zeros 1 ++ leBytes 2 (fieldGet cfg 19 8 + 1)
        ++ leBytes 8 ((2 * (pllVco w (72 + fieldGet cfg 0 0)).1 + (pllVco w (72 + fieldGet cfg 0 0)).2 * (fieldGet cfg 19 8 + 1))
          / (2 * ((pllVco w (72 + fieldGet cfg 0 0)).2 * (fieldGet cfg 19 8 + 1))))) w)) ∧
  (∀ (c : Cmd) (s u v w : State) (e p : Nat), startOf opClkPllProgram c s = some (e, u) → c.idx.toNat < 72 → leAt c.params 0 1 ≤ 3 →
    leAt c.params 1 1 ≤ 3 → leAt c.params 2 2 = 0 → leAt c.params 4 4 < 4096 → synBusy u c.idx.toNat = false →
    p = (if 2 ≤ leAt c.params 1 1 then bitsOf (leAt c.params 4 4) 11 8 + 1 else rdF u (synCtl c.idx.toNat) 3 0 + 1) →
    (leAt c.params 1 1 ≠ 0 ∨ leAt c.params 0 1 = synActive u c.idx.toNat → synInUse u c.idx.toNat = false) →
    (leAt c.params 1 1 % 2 = 1 → synState u c.idx.toNat ≠ 0) →
    v = (if 2 ≤ leAt c.params 1 1 then each (List.range 4) (fun j => wrB (synSlotR c.idx.toNat j) 14 false)
      (wrF (synCtl c.idx.toNat) 3 0 (p - 1) u) else u) →
    w = synWordWrite c.idx.toNat (leAt c.params 0 1) true (BitVec.ofNat 32 (leAt c.params 8 4))
      (synWordWrite c.idx.toNat (leAt c.params 0 1) false (BitVec.ofNat 32 (leAt c.params 4 4)) v) →
    exec (.clkPllProgram c) s = .next (
      if synWordOk u c.idx.toNat p (leAt c.params 4 4 % 256) (BitVec.ofNat 32 (leAt c.params 8 4)).toNat = false then
        complete e stRange [] u
      else if leAt c.params 1 1 % 2 = 1 then
        keepRunning e 0 (synHop c.idx.toNat (leAt c.params 0 1) (synState u c.idx.toNat == 4) (some e) w)
      else complete e stOk [] (if 2 ≤ leAt c.params 1 1 ∧ synState u c.idx.toNat ≠ 4 ∧ synState w c.idx.toNat ≠ 0
        then synAgain c.idx.toNat (synActive w c.idx.toNat) true none w else w))) ∧
  (∀ (c : Cmd) (s u v : State) (e : Nat) (on active : Bool), startOf opClkPllProgram c s = some (e, u) → 72 ≤ c.idx.toNat →
    leAt c.params 0 1 ≤ 15 → leAt c.params 1 1 ≤ 1 → leAt c.params 2 2 = 0 → (BitVec.ofNat 32 (leAt c.params 4 4)).toNat < 2 ^ 22 →
    fieldGet (BitVec.ofNat 32 (leAt c.params 4 4)) 11 9 ≤ 5 → rackEnabled u c.idx.toNat = true → rackBusy u c.idx.toNat = false →
    rackWordOk u (BitVec.ofNat 32 (leAt c.params 4 4)) (BitVec.ofNat 32 (leAt c.params 8 4)) = true → locked u 0 = false →
    on = (rackState u c.idx.toNat != 0) → active = (on && leAt c.params 0 1 == rdF u (rackCtl c.idx.toNat) 3 0) →
    (leAt c.params 1 1 = 1 ∨ active = true → rackInUse u c.idx.toNat = false) →
    v = wr (rackSlotR c.idx.toNat (leAt c.params 0 1) + 4) (BitVec.ofNat 32 (leAt c.params 8 4))
      (wrF (rackSlotR c.idx.toNat (leAt c.params 0 1)) 21 0 (BitVec.ofNat 32 (leAt c.params 4 4)).toNat u) →
    ∃ w, w = (if active then v else wrB (rackSlotR c.idx.toNat (leAt c.params 0 1)) 28 false v) ∧
      exec (.clkPllProgram c) s = .next (
        if leAt c.params 1 1 = 1 then keepRunning e 0 (if on then rackHop c.idx.toNat (leAt c.params 0 1) (some e) w
          else rackEnable c.idx.toNat (some e) (wrF (rackCtl c.idx.toNat) 3 0 (leAt c.params 0 1) w))
        else complete e stOk [] (if active then rackHop c.idx.toNat (leAt c.params 0 1) none w else w))) ∧
  (∀ (c : Cmd) (s u : State) (e : Nat), startOf opClkHop c s = some (e, u) → leAt c.params 1 3 = 0 →
    (c.idx.toNat < 72 → c.paramLen = 4 → leAt c.params 0 1 ≤ 3 → synState u c.idx.toNat ≠ 0 → synBusy u c.idx.toNat = false →
      synInUse u c.idx.toNat = false → exec (.clkHop c) s = .next (keepRunning e 0
        (synHop c.idx.toNat (leAt c.params 0 1) (synState u c.idx.toNat == 4) (some e) u))) ∧
    (72 ≤ c.idx.toNat → leAt c.params 0 1 ≤ 15 → rackEnabled u c.idx.toNat = true → rackState u c.idx.toNat ≠ 0 →
      rackBusy u c.idx.toNat = false → rackInUse u c.idx.toNat = false →
      (c.paramLen = 4 → exec (.clkHop c) s = .next (keepRunning e 0 (rackHop c.idx.toNat (leAt c.params 0 1) (some e) u))) ∧
      (c.paramLen = 12 → u.time.toNat + 100000 ≤ leAt c.params 4 8 → hopScheduled u c.idx.toNat = false →
        exec (.clkHop c) s = .next (complete e stOk (zeros 4)
          { u with hops := tabInsert u.hops c.idx.toNat (leAt c.params 0 1, BitVec.ofNat 64 (leAt c.params 4 8)) })))) ∧
  (∀ (c : Cmd) (s u : State) (e : Nat), startOf opClkStep c s = some (e, u) →
    (signed 32 (leAt c.params 0 4)).natAbs ≤ 2 ^ 20 → (c.idx.toNat < 72 ∨ rackEnabled u c.idx.toNat = true) →
    stepRefused u c.idx.toNat = false →
    exec (.clkStep c) s = .next (keepRunning e 0
      (modSyn c.idx.toNat (fun x => { x with steps := x.steps ++ [(e, signed 32 (leAt c.params 0 4))] }) u))) ∧
  (∀ (c : Cmd) (s u : State) (e : Nat), startOf opClkSpread c s = some (e, u) → leAt c.params 0 1 ≤ 2 → leAt c.params 3 1 = 0 →
    leAt c.params 1 1 ≤ (if leAt c.params 0 1 = 2 then 25 else 50) → 60 ≤ leAt c.params 2 1 → leAt c.params 2 1 ≤ 126 →
    rackEnabled u (outSrc u c.idx.toNat) = true → rdB u (outBase c.idx.toNat) 3 = false →
    (followers u c.idx.toNat).any (tileCompat u) = false → (leAt c.params 0 1 = 2 → followers u c.idx.toNat = []) →
    exec (.clkSpread c) s = .next (complete e stOk [] (wr (outBase c.idx.toNat + 8)
      (BitVec.ofNat 32 (leAt c.params 0 1 + 256 * leAt c.params 1 1 + 65536 * leAt c.params 2 1)) u))) ∧
  (∀ (c : Cmd) (s u v : State) (e : Nat), startOf opClkSyncArm c s = some (e, u) → leAt c.params 2 2 = 0 →
    (∀ n, n < 16 → (leAt c.params 0 2).testBit n = true → rackEnabled u (outSrc u n) = true) →
    v = each ((List.range 16).filter (fun n => (leAt c.params 0 2).testBit n)) (fun n => wrB (outBase n) 6 true) (wrB clapCtlR 0 true u) →
    (c.paramLen = 4 → exec (.clkSyncArm c) s = .next (complete e stOk [] v)) ∧
    (c.paramLen = 12 → rdB u chainStateR 0 = true → u.time.toNat + 100000 ≤ leAt c.params 4 8 → rdB u clapCtlR 2 = true →
      pulseScheduled u = false →
      exec (.clkSyncArm c) s = .next (complete e stOk [] { v with pulse := some (BitVec.ofNat 64 (leAt c.params 4 8)) }))) ∧
  (∀ (c : Cmd) (step : BitVec 16) (diff : Word) (s u : State) (e : Nat), startOf opClkRefSelect c s = some (e, u) → c.cls = 0 →
    c.expert = false → leAt c.params 0 1 = 1 → leAt c.params 1 1 ≤ 2 → leAt c.params 2 2 = 0 → rootSrcOk u (leAt c.params 1 1) = true →
    (locked u 0 = true → leAt c.params 1 1 = rdF u clkRootSrcR 1 0) →
    exec (.clkRefSelect c step diff) s =
      .next (complete e stOk [] (rootSelect (leAt c.params 1 1) (storeRootWord (leAt c.params 1 1) u)))) ∧
  (∀ (c : Cmd) (step : BitVec 16) (diff : Word) (s u v : State) (e : Nat), startOf opClkRefSelect c s = some (e, u) → c.cls = 0 →
    leAt c.params 0 1 = 0 → leAt c.params 1 1 ≤ 1 → leAt c.params 2 1 ≤ (if c.expert then 7 else 0) → leAt c.params 3 1 = 0 →
    refOk u (leAt c.params 1 1) = true → locked u 0 = false →
    v = (if c.expert then wrF refSelR 7 6 (leAt c.params 2 1 / 2) (wrF refSelR 1 1 (leAt c.params 2 1 % 2) u) else u) →
    exec (.clkRefSelect c step diff) s = .next (complete e stOk []
      (if leAt c.params 1 1 = refActive v then v else refSwitch (leAt c.params 1 1) 0 step diff v))) ∧
  (∀ (c : Cmd) (step : BitVec 16) (diff : Word) (s u : State) (e : Nat), startOf opClkRefSelect c s = some (e, u) → c.cls = 7 →
    64 ≤ c.idx.toNat → c.idx.toNat ≤ 71 → c.expert = false → leAt c.params 0 1 ≤ 1 → leAt c.params 1 1 ≤ 15 →
    (leAt c.params 0 1 = 0 → leAt c.params 1 1 = 0) → leAt c.params 2 2 = 0 → locked u 0 = false →
    tileLaneLocked u (c.idx.toNat - 64) = false →
    (leAt c.params 0 1 = 1 → fieldGet (spreadOf u (leAt c.params 1 1)) 1 0 ≠ 2 ∧
      (tileCompat u (c.idx.toNat - 64) = true → spreadMode u (leAt c.params 1 1) = 0)) →
    exec (.clkRefSelect c step diff) s =
      .next (complete e stOk [] (wrF (synRefR c.idx.toNat) 4 0 (leAt c.params 0 1 + 2 * leAt c.params 1 1) u))) ∧
  (∀ (c : Cmd) (s u : State) (e : Nat), startOf (opClkStatus c) c s = some (e, u) →
    (c.cls = 0 → exec (.clkStatus c) s = .next (complete e stOk (leBytes 4 (rd u refSelR).toNat ++ leBytes 4 (rd u clkRootSrcR).toNat
      ++ leBytes 4 (rdFor u (pathView c.path) clkMonStatusR).toNat) (wrView (pathView c.path) clkMonStatusR 0 u))) ∧
    (c.cls = 6 → rackEnabled u (outSrc u c.idx.toNat) = true → exec (.clkStatus c) s = .next (complete e stOk
      ([rd u (outBase c.idx.toNat), rd u (outBase c.idx.toNat + 4), rd u (outBase c.idx.toNat + 8), outStatusWord u c.idx.toNat].flatMap
        (fun w => leBytes 4 w.toNat)) u)) ∧
    (c.cls = 7 → c.idx.toNat < 72 → exec (.clkStatus c) s = .next (complete e stOk
      ([rd u (synCtl c.idx.toNat), synStatusWord u c.idx.toNat, rd u (synSteerR c.idx.toNat), rd u (synOffsetR c.idx.toNat)].flatMap
        (fun w => leBytes 4 w.toNat)) u)) ∧
    (c.cls = 7 → 72 ≤ c.idx.toNat → rackEnabled u c.idx.toNat = true → exec (.clkStatus c) s = .next (complete e stOk
      ([rd u (rackCtl c.idx.toNat), rackStatusWord u c.idx.toNat, rd u (rackStepOfs c.idx.toNat), 0].flatMap
        (fun w => leBytes 4 w.toNat)) u)))

/-- The power commands. A basic PWR_STATE_SET waits for the transition it requests; an expert one answers at once, with the refuser where
the domain's refusal count moved. PWR_POLICY with PWR_POLICY's lock clear, or with nothing that would change under it, writes the timers,
AUTO and, with SET, the retention mask. PWR_LEVEL_SET of the present level ends at once; of another it begins a change. PWR_STATUS of a
domain and of the device reports; PWR_KEEP_AWAKE sets the path's floor, level 4 releasing it (R305, R363). -/
def Obligations.PowerCommandsComplete : Prop :=
  (∀ (c : Cmd) (s u : State) (e : Nat), startOf opPwrStateSet c s = some (e, u) → zeroFrom c.params 1 = true →
    leAt c.params 0 1 ≤ 4 → accepts c.idx.toNat (leAt c.params 0 1) = true →
    (c.expert = false →
      exec (.pwrStateSet c) s = .next (request c.idx.toNat (leAt c.params 0 1) (some e) (keepRunning e c.idx.toNat u))) ∧
    (c.expert = true → ∃ v, v = request c.idx.toNat (leAt c.params 0 1) none u ∧ exec (.pwrStateSet c) s = .next (
      if rd v (domBase c.idx.toNat + 0x10) = rd u (domBase c.idx.toNat + 0x10) then complete e stOk (stateSetResult 0 0) v
      else complete e stRefused (stateSetResult (rdF v (domBase c.idx.toNat + 4) 15 8) (rdF v (domBase c.idx.toNat + 0xC) 11 0)) v))) ∧
  (∀ (c : Cmd) (s u v : State) (e : Nat), startOf opPwrPolicy c s = some (e, u) →
    timersOk c.idx.toNat (BitVec.ofNat 32 (leAt c.params 0 4)) = true → leAt c.params 4 1 ≤ 1 → leAt c.params 9 1 ≤ 1 →
    leAt c.params 5 3 = 0 → leAt c.params 10 2 = 0 → (c.idx.toNat = 72 → leAt c.params 4 1 = 0) →
    (leAt c.params 9 1 = 1 → retainMask c.idx.toNat ≠ 0 ∧ BitVec.ofNat 32 (leAt c.params 8 1) &&& ~~~(retainMask c.idx.toNat) = 0) →
    (locked u 2 = true → rd u (domBase c.idx.toNat + 8) = BitVec.ofNat 32 (leAt c.params 0 4) ∧
      rdB u (domBase c.idx.toNat) 3 = (leAt c.params 4 1 == 1) ∧
      (leAt c.params 9 1 = 1 → rd u (domBase c.idx.toNat + 0x14) = BitVec.ofNat 32 (leAt c.params 8 1))) →
    v = wrB (domBase c.idx.toNat) 3 (leAt c.params 4 1 == 1) (wr (domBase c.idx.toNat + 8) (BitVec.ofNat 32 (leAt c.params 0 4)) u) →
    exec (.pwrPolicy c) s = .next (complete e stOk []
      (if leAt c.params 9 1 = 1 then wr (domBase c.idx.toNat + 0x14) (BitVec.ofNat 32 (leAt c.params 8 1)) v else v))) ∧
  (∀ (c : Cmd) (s u : State) (e n : Nat), startOf opPwrLevelSet c s = some (e, u) → leAt c.params 0 1 ≤ 3 → zeroFrom c.params 1 = true →
    (c.cls = 2 ∧ n = c.idx.toNat ∨ c.cls = 8 ∧ c.idx = 73 ∧ n = 16) → plBusy u n = false →
    exec (.pwrLevelSet c) s = .next (if plLevel u n = leAt c.params 0 1 then complete e stOk [] u
      else plStart n (leAt c.params 0 1) (some e) (keepRunning e n u))) ∧
  (∀ (c : Cmd) (s u : State) (e : Nat), startOf opPwrStatus c s = some (e, u) →
    (c.cls = 8 → exec (.pwrStatus c) s = .next (complete e stOk ([4, 0xC, 0x10, 0x18].flatMap
      (fun o => leBytes 4 (rd u (domBase c.idx.toNat + o)).toNat)) u)) ∧
    (c.cls = 0 → exec (.pwrStatus c) s = .next (complete e stOk ((List.range 80).map (fun d => BitVec.ofNat 8 (domState u d))
      ++ leBytes 4 (rd u pwrSupplyStatusR).toNat ++ leBytes 4 (rd u pwrBrownoutCntR).toNat) u))) ∧
  (∀ (c : Cmd) (s u : State) (e : Nat), startOf opPwrKeepAwake c s = some (e, u) → leAt c.params 0 1 ≤ 4 → zeroFrom c.params 1 = true →
    exec (.pwrKeepAwake c) s = .next (complete e stOk [] (setFloor (pathView c.path) c.idx.toNat (leAt c.params 0 1) u)))

/-- The chain commands, with the chain port's clock on. CHAIN_ENUMERATE on the only manager, with no enumeration and no forwarded command
in flight, sends TOKEN with HOPS 1 and waits (R448). CHAIN_STATUS reports (R367). CHAIN_EPOCH of an action takes it, sends its EPOCH frame
under the next epoch ID and waits; of a cancellation it drops the epoch, sends the cancelling frame and waits (R368, R456). The host lane
commands (R370). HL_CONFIGURE, of a lane or of the eight lanes of a port, that leaves the rate and the controls of every lane with a
present stream writes each lane's HL_CTL. HL_STATUS returns HL_STATUS, HL_FILL and the nine counters, and resets the path's copy of
HL_FILL. HL_CTLE_SET of a receive lane without a scan writes the code; with AUTO, on a lane without a present stream, it begins the search. -/
def Obligations.ChainAndHostLaneCommandsComplete : Prop :=
  (∀ (c : Cmd) (s u : State) (e : Nat), startOf opChainEnumerate c s = some (e, u) → rdB u clkEnR 1 = true →
    isManager u = true → twoManagers u = false → u.chain.enum = none →
    u.cmd.inflight.any (fun f => f.stage == .forwarded || f.waitFor != 0) = false →
    exec (.chainEnumerate c) s = .next (keepRunning e 0 (sendFrame 1 63 1 [] (modChain (fun x => { x with enum := some (e, 1), token := 0 }) u)))) ∧
  (∀ (c : Cmd) (s u : State) (e : Nat), startOf opChainStatus c s = some (e, u) → rdB u clkEnR 1 = true →
    exec (.chainStatus c) s = .next (complete e stOk (chainStatusResult u) u)) ∧
  (∀ (c : Cmd) (s u : State) (e : Nat) (x y z : Bool) (f : EpochFrame), startOf opChainEpoch c s = some (e, u) → epochBad c = false →
    leAt c.params 8 1 ≠ 4 → u.time.toNat + 1000000 ≤ leAt c.params 0 8 → rdB u clkEnR 1 = true →
    epochAnswer u (leAt c.params 8 1) (leAt c.params 9 1) = (x, y, z) → y = false → isManager u = true → twoManagers u = false →
    f = { kind := 0, id := u.chain.nextId, time := BitVec.ofNat 64 (leAt c.params 0 8), action := BitVec.ofNat 2 (leAt c.params 8 1),
          pll := leAt c.params 9 1 == 73, slot := BitVec.ofNat 4 (leAt c.params 10 1), ack := 1, busy := 0, reject := setBit 0 0 z } →
    exec (.chainEpoch c) s = .next (keepRunning e u.chain.nextId.toNat (sendEpoch f (epochTake f
      (modChain (fun c => { c with nextId := c.nextId + 1 }) u))))) ∧
  (∀ (c : Cmd) (s u : State) (e : Nat) (id : Word), startOf opChainEpoch c s = some (e, u) → epochBad c = false →
    leAt c.params 8 1 = 4 → rdB u clkEnR 1 = true → isManager u = true → twoManagers u = false → id = BitVec.ofNat 32 (leAt c.params 12 4) →
    exec (.chainEpoch c) s = .next (keepRunning e id.toNat (sendEpoch
      { kind := 2, id := id, time := 0, action := 0, pll := false, slot := 0, ack := 1, busy := 0, reject := 0 } (epochDrop id u)))) ∧
  (∀ (c : Cmd) (s u : State) (e : Nat), startOf opHlConfigure c s = some (e, u) →
    (c.expert = true ∨ (leAt c.params 0 1 ≤ 3 ∧ zeroFrom c.params 1 = true)) →
    (∀ n ∈ cmdLanes c, laneIsTx n = true ∨ fieldGet (hlNew u n (hlRequest c)) 4 0 ≤ 28) →
    (∀ n ∈ cmdLanes c, lanePresent u n = true → fieldGet (hlNew u n (hlRequest c)) 12 0 = rdF u (hlCtl n) 12 0) →
    exec (.hlConfigure c) s = .next (complete e stOk [] (each (cmdLanes c) (hlConfigure (hlRequest c)) u))) ∧
  (∀ (c : Cmd) (s u : State) (e : Nat), startOf opHlStatus c s = some (e, u) →
    exec (.hlStatus c) s = .next (complete e stOk (([hlStatusWord u c.idx.toNat, hlFillWord u (pathView c.path) c.idx.toNat]
        ++ (List.range 9).map (fun k => rd u (hlHdrErr c.idx.toNat + 4 * k))).flatMap (fun w => leBytes 4 w.toNat))
      (wrView (pathView c.path) (hlFill c.idx.toNat) allOnes u))) ∧
  (∀ (c : Cmd) (s u : State) (e : Nat), startOf opHlCtleSet c s = some (e, u) → zeroFrom c.params 1 = true →
    laneIsTx c.idx.toNat = false → (laneOf u c.idx.toNat).scan = none → (laneOf u c.idx.toNat).auto = none →
    (leAt c.params 0 1 ≤ 28 → exec (.hlCtleSet c) s = .next (complete e stOk (leBytes 1 (leAt c.params 0 1) ++ zeros 3)
      (wrF (hlCtl c.idx.toNat) 4 0 (leAt c.params 0 1) u))) ∧
    (leAt c.params 0 1 = 0xFF → lanePresent u c.idx.toNat = false → exec (.hlCtleSet c) s = .next (keepRunning e c.idx.toNat
      (modLane c.idx.toNat (fun x => { x with auto := some e, scanPoint := 0, autoBest := 0, autoArea := 0 }) u))))

/-- Submission. A tail within the ring is published and wakes what serves it (R319). The engine takes the next slot in turn, gives it an
engine tag and advances HEAD; a mailbox command that waits for a tag goes first (R323). An arriving slot is decoded and counted, and its
buffer, where it has one, arrives after it (R322, R427). A read of host memory that fails, or that times out, puts the ring into ERROR with
code 0x02, its slot staying the next one to fetch (the event is the model's, log 138), completes the command with BAD_PARAM, or marks the
LDT entry bad (R427). A command whose timeout expires ends with TIMEOUT and the mask of the devices that failed or have not answered, and
its steps that have not started are given up (R326). -/
def Obligations.SubmissionRows : Prop :=
  (∀ (n : Ring) (v : Word) (s u : State), servedAt .pcie (sqTailDb n.toNat) s = (true, u) → sqEnabled u n.toNat = true →
    fieldGet v 11 0 < sqSize u n.toNat →
    exec (.sqTailDoorbell n v) s = .next (doorbellWake (wr (sqTailDb n.toNat) (BitVec.ofNat 32 (fieldGet v 11 0)) u))) ∧
  (∀ (s u : State) (n : Nat), s.mode = .running → s.cmd.stopped = false → s.cmd.mboxWaits = false → nextRing s = some n →
    dmaOk s = true → tagsFree s ≠ 0 →
    u = modCmd (fun c => { c with
      inflight := c.inflight ++ [{ etag := freeTag s, cmd := { path := .ring (BitVec.ofNat 6 n) }, stage := .fetching, aux := sqHead s n }],
      rrRing := n,
      rrLeft := if s.cmd.rrRing = n ∧ s.cmd.rrLeft ≠ 0 then s.cmd.rrLeft - 1 else rdF s (sqBase n + 8) 13 10 }) s →
    exec .slotFetch s = .next (fetchResume (wrF (sqBase n + 0xC) 11 0 ((sqHead u n + 1) % sqSize u n) u))) ∧
  (∀ (s : State), s.mode = .running → s.cmd.stopped = false → s.cmd.mboxWaits = true → tagsFree s ≠ 0 →
    exec .slotFetch s = .next (mailboxStart (if rdB s mailboxCtlR 4 then .mboxSerial else .mboxPcie) s)) ∧
  (∀ (e : BitVec 12) (b : List Byte) (s : State) (f : InFlight),
    s.cmd.inflight.find? (fun f => f.etag == e.toNat && f.stage == .fetching) = some f →
    exec (.slotFetchDone (.slot e) (some b)) s = .next (submitted e.toNat (fetchedCount (parseSlot f.cmd.path b []) (dmaRead 5 64
      (modFlight e.toNat (fun g => { g with
        opcode := leAt b 0 2,
        cmd := parseSlot f.cmd.path b [],
        stage := if (parseSlot f.cmd.path b []).inl || (parseSlot f.cmd.path b []).paramLen == 0 then .ready else .loading,
        aux := 0 }) s))))) ∧
  (∀ (e : BitVec 12) (b p : List Byte) (s : State) (f : InFlight),
    s.cmd.inflight.find? (fun f => f.etag == e.toNat && f.stage == .loading) = some f →
    p = (b ++ zeros f.cmd.paramLen.toNat).take f.cmd.paramLen.toNat →
    exec (.slotFetchDone (.params e) (some b)) s = .next (submitted e.toNat (dmaRead 5 p.length
      (modFlight e.toNat (fun f => { f with cmd := { f.cmd with params := p }, stage := .ready }) s)))) ∧
  (∀ (e : BitVec 12) (s : State) (f : InFlight) (n : Ring),
    s.cmd.inflight.find? (fun f => f.etag == e.toNat && f.stage == .fetching) = some f → f.cmd.path = .ring n →
    ∃ v, v = ringError 0 n.toNat 0x02 (wrF (sqBase n.toNat + 0xC) 11 0 f.aux
      (wrF (sqBase n.toNat + 0xC) 23 16 0x02 (wrB (sqBase n.toNat + 0xC) 13 true
      (modCmd (fun c => { c with inflight := c.inflight.filter (fun g => g.etag != e.toNat) }) s)))) ∧
      exec (.hostReadCompletionTimeout (.slot e)) s = .next v ∧ exec (.slotFetchDone (.slot e) none) s = .next v) ∧
  (∀ (e : BitVec 12) (s : State) (f : InFlight),
    s.cmd.inflight.find? (fun f => f.etag == e.toNat && f.stage == .loading) = some f →
    exec (.hostReadCompletionTimeout (.params e)) s = .next (complete e.toNat stBadParam [] s) ∧
    exec (.slotFetchDone (.params e) none) s = .next (complete e.toNat stBadParam [] s)) ∧
  (∀ (l : Pair) (s v : State), ldtAsked s l.toNat = true → ldtEnabled s = true →
    v = count ldtCrcErrR 1 (modCmd (fun c => { c with
      ldtFills := c.ldtFills.filter (fun x => x != l.toNat), ldtBad := c.ldtBad ++ [l.toNat] }) s) →
    exec (.hostReadCompletionTimeout (.ldt l)) s = .next v ∧ exec (.slotFetchDone (.ldt l) none) s = .next v) ∧
  (∀ (l : Pair) (b : List Byte) (s : State), exec (.slotFetchDone (.ldt l) (some b)) s = exec (.ldtCacheFill l (some b)) s) ∧
  (∀ (e : BitVec 12) (s : State) (f : InFlight), s.cmd.inflight.find? (fun f => f.etag == e.toNat) = some f → s.mode = .running →
    f.cmd.timeout ≠ 0 → f.stage ≠ .fetching →
    exec (.commandTimeoutExpiry e) s = .next (detach f (giveUp f (finish f stTimeout
      (if f.waitFor = 0 then [] else leBytes 8 (f.failMask ||| f.waitFor)) s))))

/-- Completion. The oldest waiting completion of an enabled, not full ring is written, its result first where it exceeds 16 bytes; TAIL
advances, PHASE changes at the wrap, the engine tag is free, and the vector is raised at once for a command with NOTIFY and is due
otherwise (R320, R321). A head within the ring frees slots (R320). An expired coalescing timer raises the ring's vector (R321). Event
delivery. A head within the ring's records ends an outstanding raise and wakes what serves it (R473). Of the oldest staged record: where
its masks deliver it into a ring that is not full it is written, into a full one it is dropped and the drop noted; where a mask withholds
it, it goes; where its link's entry is not cached it waits for the fill (R337, R471, R472). The oldest buffered record goes to the MRAM
log, the 32,769th displacing the oldest (R474). A due counter record of a link whose entry is cached and names an address and a period is
written, the entries before the header (R422). -/
def Obligations.CompletionAndEventRows : Prop :=
  (∀ (n : Ring) (s a b w t v : State) (c : Completion) (k : Nat), s.cmd.done.find? (fun c => pathCq s c.cmd.path == some n.toNat) = some c →
    cqEnabled s n.toNat = true → cqFull s n.toNat = false → dmaOk s = true →
    a = (if c.result.length ≤ 16 then s else hostWriteBy 5 c.cmd.buf.toNat c.result s) →
    b = hostWriteBy 5 (rdWide a (cqBase n.toNat) + 32 * cqTail s n.toNat)
      (statusSlot c.cmd.tag (rdB s (cqBase n.toNat + 0xC) 12) c.status c.result c.cmd.buf) a →
    k = (cqTail s n.toNat + 1) % cqSize b n.toNat →
    w = wrF (cqBase n.toNat + 0xC) 11 0 k (wrB (cqBase n.toNat + 0xC) 12
      (if k = 0 then !rdB s (cqBase n.toNat + 0xC) 12 else rdB s (cqBase n.toNat + 0xC) 12) b) →
    t = modCmd (fun x => { x with done := x.done.filter (fun d => d.etag != c.etag) }) w →
    v = (if c.cmd.notify then raiseMsix (rdF t (cqBase n.toNat + 8) 12 4)
        (modCmd (fun x => { x with unraised := x.unraised.filter (fun q => q != n.toNat) }) t)
      else if t.cmd.unraised.contains n.toNat then t else modCmd (fun x => { x with unraised := x.unraised ++ [n.toNat] }) t) →
    exec (.statusSlotWrite n) s = .next (cqStalls n.toNat v)) ∧
  (∀ (n : Ring) (w : Word) (s u : State), servedAt .pcie (cqHeadDb n.toNat) s = (true, u) → cqEnabled u n.toNat = true →
    fieldGet w 11 0 < cqSize u n.toNat →
    ringDist (cqSize u n.toNat) (cqHead u n.toNat) (fieldGet w 11 0) ≤ ringDist (cqSize u n.toNat) (cqHead u n.toNat) (cqTail u n.toNat) →
    exec (.cqHeadDoorbell n w) s =
      .next (doorbellWake (cqStalls n.toNat (wr (cqHeadDb n.toNat) (BitVec.ofNat 32 (fieldGet w 11 0)) u)))) ∧
  (∀ (n : Ring) (s : State), s.cmd.unraised.contains n.toNat = true → rdF s (cqBase n.toNat + 8) 31 16 ≠ 0 →
    exec (.cqCoalesceExpiry n) s = .next (raiseMsix (rdF s (cqBase n.toNat + 8) 12 4)
      (modCmd (fun x => { x with unraised := x.unraised.filter (fun q => q != n.toNat) }) s))) ∧
  (∀ (w : Word) (s u v : State), servedAt .pcie evtHeadDb s = (true, u) → ringEnabled u = true → fieldGet w 15 0 < evtSize u →
    ringDist (evtSize u) (evtHead u) (fieldGet w 15 0) ≤ ringDist (evtSize u) (evtHead u) (evtTail u) →
    v = wr evtHeadDb (BitVec.ofNat 32 (fieldGet w 15 0)) { u with evt := { u.evt with outstanding := false } } →
    exec (.eventRingHeadDoorbell w) s = .next (doorbellWake (wrB evtRingStatusR 17 (evtFull v) v))) ∧
  (∀ (s u : State) (r : EvRec) (q : List EvRec), s.evt.staging = r :: q → ringEnabled s = true → dmaOk s = true →
    (maskBit s evtClassLoR (r.code.toNat / 256) = false → exec .eventRecordDelivery s = .next { s with evt := { s.evt with staging := q } }) ∧
    (maskBit s evtClassLoR (r.code.toNat / 256) = true → maskVerdict s r = .wait → exec .eventRecordDelivery s = .next (maskUse r s)) ∧
    (maskBit s evtClassLoR (r.code.toNat / 256) = true → maskVerdict s r ≠ .wait →
      u = (if maskVerdict s r = .withhold then maskUse r s else if evtFull s then ringDrop (maskUse r s) else evtWrite r (maskUse r s)) →
      exec .eventRecordDelivery s = .next { u with evt := { u.evt with staging := q } })) ∧
  (∀ (s : State) (r : EvRec) (q : List EvRec), s.evt.logBuf = r :: q → domState s 79 = 0 → rdB s clkEnR 4 = true → mramHold s = false →
    supHalted s = false →
    exec .eventLogWrite s = .next { s with evt := { s.evt with
      logBuf := q, log := if s.evt.log.length < 32768 then s.evt.log ++ [r] else s.evt.log.drop 1 ++ [r] } }) ∧
  (∀ (l : Pair) (b : List Byte) (s u v : State), s.mode = .running → isLink s l.toNat = true → u = ldtUse l.toNat s →
    ldtFind u l.toNat = some b → dmaAddrOf b ≠ 0 → dmaPeriodOf b ≠ 0 → dmaOk u = true →
    v = hostWriteBy 7 (dmaAddrOf b + 32) ((linkPairs u l.toNat).flatMap (recordEntry u)) u →
    exec (.counterRecordPeriod l) s = .next (modLink l.toNat (fun x => { x with recSeq := x.recSeq + 1 })
      (hostWriteBy 7 (dmaAddrOf b) (recordHeader u l.toNat) v)))

/-- Ring configuration (R318). Enabling an SQ on an enabled CQ sets its HEAD and the published tail to 0 and clears ERROR; enabling a CQ
sets TAIL to 0 and PHASE to 1; disabling either, a CQ that nothing uses, clears ENABLE; a disabled ring's fields are written. LDT_CTL takes
ENABLE, and clearing it empties the cache (R338). A fill that the cache asked for is stored where it passes its CRC, and counted and marked
bad otherwise (R337). Of the event ring, the base is written while it is disabled, the vector too, each enable restarts it, and a size of 0
disables it (R471). The mailbox (R333, R435). A write of MAILBOX_CTL takes VECTOR and clears COLLIDE where its bit is 1; GO on a mailbox
that is not busy wakes what serves it and starts the command in the buffer, or leaves it waiting where no engine tag is free; on a busy one
it sets COLLIDE. A buffer write stores its word while BUSY is 0 and sets COLLIDE while it is 1. The serial port's data registers store or
return a word and advance their pointers. -/
def Obligations.RingConfigAndMailboxRows : Prop :=
  (∀ (v : View) (n : Ring) (w : Word) (s u : State), servedAt v (sqBase n.toNat + 8) s = (true, u) → sqEnabled u n.toNat = false →
    log2Ok (w &&& 0xBFFF) = true →
    (bitGet w 15 = true → cqEnabled u (fieldGet (w &&& 0xBFFF) 9 4) = true →
      exec (.sqCfgWrite v n w) s = .next (wr (sqTailDb n.toNat) 0 (wr (sqBase n.toNat + 0xC) 0 (wr (sqBase n.toNat + 8) (w &&& 0xBFFF) u)))) ∧
    (bitGet w 15 = false → w &&& 0xBFFF ≠ rd u (sqBase n.toNat + 8) →
      exec (.sqCfgWrite v n w) s = .next (wr (sqBase n.toNat + 8) (w &&& 0xBFFF) u))) ∧
  (∀ (v : View) (n : Ring) (w : Word) (s u : State), servedAt v (sqBase n.toNat + 8) s = (true, u) → sqEnabled u n.toNat = true →
    ((w &&& 0xBFFF) ^^^ rd u (sqBase n.toNat + 8)) &&& 0x7FFF = 0 → bitGet w 15 = false →
    exec (.sqCfgWrite v n w) s = .next (wr (sqBase n.toNat + 8) (w &&& 0xBFFF) u)) ∧
  (∀ (v : View) (n : Ring) (w : Word) (s u : State), servedAt v (cqBase n.toNat + 8) s = (true, u) → cqEnabled u n.toNat = false →
    log2Ok (w &&& 0xFFFF9FFF) = true →
    (bitGet w 15 = true →
      exec (.cqCfgWrite v n w) s = .next (wr (cqHeadDb n.toNat) 0 (wrF (cqBase n.toNat + 0xC) 11 0 0 (wrB (cqBase n.toNat + 0xC) 12 true
        (wr (cqBase n.toNat + 8) (w &&& 0xFFFF9FFF) u))))) ∧
    (bitGet w 15 = false → w &&& 0xFFFF9FFF ≠ rd u (cqBase n.toNat + 8) →
      exec (.cqCfgWrite v n w) s = .next (wr (cqBase n.toNat + 8) (w &&& 0xFFFF9FFF) u))) ∧
  (∀ (v : View) (n : Ring) (w : Word) (s u : State), servedAt v (cqBase n.toNat + 8) s = (true, u) → cqEnabled u n.toNat = true →
    ((w &&& 0xFFFF9FFF) ^^^ rd u (cqBase n.toNat + 8)) &&& 0xFFFF7FFF = 0 → bitGet w 15 = false → cqBusy u n.toNat = false →
    exec (.cqCfgWrite v n w) s = .next (wr (cqBase n.toNat + 8) (w &&& 0xFFFF9FFF) u)) ∧
  (∀ (v : View) (w : Word) (s u : State), servedAt v ldtCtlR s = (true, u) →
    exec (.ldtCtlWrite v w) s = .next (if bitGet w 0 then wr ldtCtlR (w &&& 1) u
      else modCmd (fun c => { c with ldtSets := [], ldtFills := [], ldtBad := [] }) (wr ldtCtlR (w &&& 1) u))) ∧
  (∀ (l : Pair) (data : Option (List Byte)) (s u v : State), ldtAsked s l.toNat = true → ldtEnabled s = true →
    u = modCmd (fun c => { c with ldtFills := c.ldtFills.filter (fun x => x != l.toNat) }) s →
    v = (if data.isSome then dmaRead 5 256 u else u) →
    exec (.ldtCacheFill l data) s = .next (if data.any ldtCrcOk then ldtStore l.toNat (data.getD []) v
      else count ldtCrcErrR 1 (modCmd (fun c => { c with ldtBad := c.ldtBad ++ [l.toNat] }) v))) ∧
  (∀ (v : View) (k : Fin 3) (w : Word) (s u : State), servedAt v (evtBaseLoR + 4 * k.val) s = (true, u) → ringEnabled u = false → k ≠ 2 →
    exec (.evtRingCfgWrite v k w) s = .next (wr (evtBaseLoR + 4 * k.val) (if k = 0 then w &&& 0xFFFFF000 else w) u)) ∧
  (∀ (v : View) (w : Word) (s u : State), servedAt v evtRingCfgR s = (true, u) → ringEnabled u = false →
    (fieldGet w 4 0 = 0 → exec (.evtRingCfgWrite v 2 w) s = .next (wrF evtRingCfgR 16 8 (fieldGet w 16 8) u)) ∧
    (4 ≤ fieldGet w 4 0 → fieldGet w 4 0 ≤ 16 → exec (.evtRingCfgWrite v 2 w) s =
      .next (evtRestart (wrF evtRingCfgR 4 0 (fieldGet w 4 0) (wrF evtRingCfgR 16 8 (fieldGet w 16 8) u))))) ∧
  (∀ (v : View) (w : Word) (s u : State), servedAt v evtRingCfgR s = (true, u) → ringEnabled u = true → fieldGet w 4 0 = 0 →
    fieldGet w 16 8 = rdF u evtRingCfgR 16 8 → exec (.evtRingCfgWrite v 2 w) s = .next (wrF evtRingCfgR 4 0 0 u)) ∧
  (∀ (ser : Bool) (w : Word) (s a : State), s.mode = .running →
    a = (if bitGet w 3 then wrB mailboxCtlR 3 false (wrF mailboxCtlR 24 16 (fieldGet w 24 16) s)
      else wrF mailboxCtlR 24 16 (fieldGet w 24 16) s) →
    (bitGet w 0 = false → exec (.mailboxGo ser w) s = .next a) ∧
    (bitGet w 0 = true → rdB a mailboxCtlR 1 = true → exec (.mailboxGo ser w) s = .next (wrB mailboxCtlR 3 true a)) ∧
    (∀ (u b : State), bitGet w 0 = true → rdB a mailboxCtlR 1 = false →
      u = modCmd (fun c => { c with mboxMute := false }) (wrB mailboxCtlR 1 true (wrB mailboxCtlR 2 false (wrB mailboxCtlR 4 ser a))) →
      b = (if ser then beginWake 73 (beginWake 74 u) else beginWake 73 (beginWake 74 (beginWake 76 u))) →
      exec (.mailboxGo ser w) s = .next (if tagsFree b = 0 then fetchPause (modCmd (fun c => { c with mboxWaits := true }) b)
        else mailboxStart (if ser then .mboxSerial else .mboxPcie) b))) ∧
  (∀ (o : BitVec 10) (w : Word) (s : State), s.mode = .running → rdB s mailboxCtlR 1 = false →
    exec (.mailboxBufferWrite o w) s =
      .next (modCmd (fun c => { c with mailbox := putBytes0 c.mailbox (4 * o.toNat) (leBytes 4 w.toNat) }) s)) ∧
  (∀ (o : BitVec 10) (w : Word) (s : State), s.mode = .running → rdB s mailboxCtlR 1 = true →
    exec (.mailboxBufferWrite o w) s = .next (wrB mailboxCtlR 3 true s)) ∧
  (∀ (w : Word) (s : State), s.mode = .running →
    exec (.mboxWdata w) s = .next (modCmd (fun c => { c with mboxWptr := (c.mboxWptr + 4) % 4096 }) (if rdB s mailboxCtlR 1 then
      wrB mailboxCtlR 3 true s
      else modCmd (fun c => { c with mailbox := putBytes0 c.mailbox (s.cmd.mboxWptr % 0x1000 / 4 * 4) (leBytes 4 w.toNat) }) s))) ∧
  (∀ (s : State), s.mode = .running → exec .mboxRdata s =
    .next (emit (.readData .serial (BitVec.ofNat 32 (leNat (getBytes s.cmd.mailbox s.cmd.mboxRptr 4))) false)
    (modCmd (fun c => { c with mboxRptr := (c.mboxRptr + 4) % 4096 }) s)))

/-- Register writes that reset, restart, swap, disable or move a unit (R301, R398, R410, R445, R477, R478): a served write has the effect
of its row on the state in which the access has completed. A PAIR_SWAP change is refused, and logged, while a link of the port is not DOWN.
CLK_SYN moves the line domain, and clearing it takes the pair's link down. A restart of a chain port that does not run, and a reset key
that a halted supervisor core would take, do nothing; a DEV_RESET_CTL word without the key is logged. -/
def Obligations.UnitControlWrites : Prop :=
  (∀ (v : View) (p : Port) (i : RegInfo) (s : State), writes v (portBase p.toNat) i s = true →
    exec (.portReset v p) s = .next (portReset p.toNat (served v (portBase p.toNat) true s))) ∧
  (∀ (v : View) (p : Port) (b : Bool) (i : RegInfo) (s u : State), writes v (portBase p.toNat) i s = true →
    u = served v (portBase p.toNat) true s →
    (rdB u (portBase p.toNat) 0 = b ∨ ∀ l ∈ portLinks u p.toNat, (linkOf u l).state = .down) →
    exec (.pairSwapWrite v p b) s = .next (wrB (portBase p.toNat) 0 b u)) ∧
  (∀ (v : View) (p : Port) (b : Bool) (i : RegInfo) (s u : State) (l : Nat), writes v (portBase p.toNat) i s = true →
    u = served v (portBase p.toNat) true s → rdB u (portBase p.toNat) 0 = !b → l ∈ portLinks u p.toNat → (linkOf u l).state ≠ .down →
    exec (.pairSwapWrite v p b) s = .next (accessError v (portBase p.toNat) 6 true u)) ∧
  (∀ (v : View) (l : Pair) (i : RegInfo) (s : State), writes v (pairBase l.toNat) i s = true →
    exec (.pairRestart v l) s = .next (pairRestart l.toNat (served v (pairBase l.toNat) true s))) ∧
  (∀ (v : View) (l : Pair) (b : Bool) (i : RegInfo) (s : State), writes v (pairBase l.toNat) i s = true →
    exec (.txDisableWrite v l b) s = .next (wrB (pairBase l.toNat) 1 b (served v (pairBase l.toNat) true s))) ∧
  (∀ (v : View) (l : Pair) (b : Bool) (i : RegInfo) (s u w : State), writes v (pairBase l.toNat) i s = true →
    u = served v (pairBase l.toNat) true s → w = lineMux l.toNat (wrB (pairBase l.toNat) 2 b u) →
    exec (.clkSynWrite v l b) s =
      .next (if rdB u (pairBase l.toNat) 2 && !b then linksLoseBanks (linkOfPair w l.toNat).toList w else w)) ∧
  (∀ (v : View) (t : Tile) (i : RegInfo) (s : State), writes v (tileBase t.toNat) i s = true →
    exec (.tileReset v t) s = .next (tileReset t.toNat (served v (tileBase t.toNat) true s))) ∧
  (∀ (v : View) (i : RegInfo) (s u : State), writes v chainCtlR i s = true → u = served v chainCtlR true s →
    exec (.chainRestart v) s = .next (if chainRuns u then chainRestart u else u)) ∧
  (∀ (v : View) (i : RegInfo) (s u : State), writes v devResetCtlR i s = true → u = served v devResetCtlR true s → supHalted u = false →
    exec (.devResetCtlWrite v 0x15120) s = .next (deviceReset 3 u)) ∧
  (∀ (v : View) (i : RegInfo) (s u : State), writes v devResetCtlR i s = true → u = served v devResetCtlR true s → supHalted u = true →
    exec (.devResetCtlWrite v 0x15120) s = .next u) ∧
  (∀ (v : View) (w : Word) (i : RegInfo) (s : State), writes v devResetCtlR i s = true → w ≠ 0x15120 →
    exec (.devResetCtlWrite v w) s = .next (accessError v devResetCtlR 8 true (served v devResetCtlR true s)))

/-- Accesses to registers and windows. A 1 sets a bit of LOCK_CTL and a 0 clears none (R401); GO takes the holding copies, or sets COLLIDE
while a snapshot is being taken (R406); HELD is the view's own (R407); SNAPSHOT_COMPLETE ends the snapshot and completes the command that
took it (R406). A whole-word write of a register with no refused or locked bit acts by its register, a field with a reserved code keeping
its value (R4, R395, R397); a word of a window goes to its window; an access that is not one whole aligned word fails with cause 9 (R392).
A served read, of a register or a window, returns its word and leaves what R400 and R409 say; a read of DEV_TIME_LO latches the upper half. -/
def Obligations.HubAccesses : Prop :=
  (∀ (v : View) (w : Word) (i : RegInfo) (s u : State), writes v lockCtlR i s = true → u = served v lockCtlR true s →
    exec (.lockCtlWrite v w) s = .next (wr lockCtlR (rd u lockCtlR ||| (w &&& 0x1F)) u)) ∧
  (∀ (v : View) (i : RegInfo) (s u : State), writes v snapCtlR i s = true →
    u = wrView v snapCtlR (rdView s v snapCtlR &&& 2) (served v snapCtlR true s) →
    exec (.snapCtlGo v) s = .next (if rdB u snapCtlR 2 then wrB snapCtlR 3 true u else wrB snapCtlR 2 true (takeCopies u))) ∧
  (∀ (v : View) (b : Bool) (i : RegInfo) (s : State), writes v snapCtlR i s = true →
    exec (.snapCtlHeld v b) s = .next (wrView v snapCtlR (if b then 2 else 0) (served v snapCtlR true s))) ∧
  (∀ (s u : State), s.mode = .running → rdB s snapCtlR 2 = true →
    u = wr64 snapTimeLoR s.snapAt (count snapSeqR 1 (wrB snapCtlR 2 false { s with snapDone := true })) →
    exec .snapshotComplete s =
      .next (completeAll 0x0801 0 0 stOk (leBytes 4 (rd u snapSeqR).toNat ++ leBytes 8 u.snapAt.toNat) u)) ∧
  (∀ (v : View) (a : BitVec 29) (w x : Word) (i : RegInfo) (s u t : State), writes v a.toNat i s = true → a.toNat ≠ refSelR →
    u = served v a.toNat true s → (x, t) = keepReserved v a.toNat (rd u a.toNat) w u →
    exec (.registerWrite v a w true) s = .next (regWrite v i a.toNat x 0 0 t)) ∧
  (∀ (v : View) (w : Word) (i : RegInfo) (x : BitVec 64) (s u : State), (x, u) = draw 15 s → writes v refSelR i u = true →
    exec (.registerWrite v (BitVec.ofNat 29 refSelR) w true) s =
      .next (refSelWrite w (x.setWidth 16) ((x >>> 16).setWidth 32) (served v refSelR true u))) ∧
  (∀ (v : View) (a : BitVec 29) (w : Word) (s : State), reaches s v a.toNat = true → a.toNat % 4 = 0 → a.toNat ≠ refSelR →
    verdict s v a.toNat true = .serve → regInfo a.toNat = none →
    exec (.registerWrite v a w true) s = .next (windowWrite v a.toNat w (served v a.toNat true s))) ∧
  (∀ (v : View) (a : BitVec 29) (w : Word) (s : State), reaches s v a.toNat = true →
    exec (.registerWrite v a w false) s = .next (accessDone v a.toNat false (accessFails v a.toNat 9 true s))) ∧
  (∀ (v : View) (w : Word) (i : RegInfo) (s u : State), writes v spIrqEnR i s = true → u = served v spIrqEnR true s →
    exec (.registerWrite v (BitVec.ofNat 29 spIrqEnR) w true) s =
      .next (wr spIrqEnR ((rd u spIrqEnR &&& ~~~(i.rw ||| (i.w1c &&& w))) ||| (w &&& i.rw)) u)) ∧
  (∀ (v : View) (a : BitVec 29) (x : Word) (s u : State), reads v a.toNat s = true → (x, u) = readValue v a.toNat (windowWords v a.toNat false s) →
    exec (.clearOnRead v a true) s = .next (emit (.readData v x false) (served v a.toNat false (afterRead v a.toNat u)))) ∧
  (∀ (v : View) (a : BitVec 29) (i : RegInfo) (s : State), reads v a.toNat s = true → a.toNat ≠ bcfgDataR → a.toNat ≠ devTimeLoR →
    a.toNat ≠ devTimeHiR → freeRead s a.toNat = false → inTakes a.toNat = false → inRushes a.toNat = false → regInfo a.toNat = some i →
    i.rc ≠ 0 →
    exec (.clearOnRead v a true) s = .next (emit (.readData v (peek s v a.toNat) false) (served v a.toNat false
      (wrView v a.toNat ((rdView s v a.toNat &&& ~~~i.rc) ||| (i.reset &&& i.rc)) s)))) ∧
  (∀ (v : View) (a : BitVec 29) (s : State), reaches s v a.toNat = true →
    exec (.clearOnRead v a false) s =
      .next (emit (.readData v allOnes true) (accessDone v a.toNat true (accessFails v a.toNat 9 false s)))) ∧
  (∀ (v : View) (s : State), reads v devTimeLoR s = true →
    exec (.devTimeLoRead v) s = .next (emit (.readData v (s.time.setWidth 32) false) (served v devTimeLoR false
      { s with timeLatch := tabInsert s.timeLatch (viewNum v) ((s.time >>> 32).setWidth 32) })))

/-- Writes of synthesizer and reference registers (R239, R240, R250, R258, R264, R265): a served write of the field or word has the effect
of its register, a rack PLL having none of the four synthesizer rows; a reserved BW code of a rack slot word keeps the field (R395).
REF_SEL.SEL switches to another reference that passes, with the step and the difference that are measured (R251); where it names the same
reference, or one that does not pass, the other fields alone are written. -/
def Obligations.SynthesizerWrites : Prop :=
  (∀ (v : View) (x : Pll) (k : BitVec 2) (i : RegInfo) (s : State), x.val < 72 → writes v (synCtl x.val) i s = true →
    exec (.synSlotWrite v x k) s =
      .next (synCtlWrite x.val (fieldPut (rd s (synCtl x.val)) 5 4 k.toNat) (served v (synCtl x.val) true s))) ∧
  (∀ (v : View) (x : Pll) (bw : BitVec 2) (i : RegInfo) (s : State), x.val < 72 → writes v (synCtl x.val) i s = true →
    exec (.synBwWrite v x bw) s =
      .next (synCtlWrite x.val (fieldPut (rd s (synCtl x.val)) 7 6 bw.toNat) (served v (synCtl x.val) true s))) ∧
  (∀ (v : View) (x : Pll) (m1 : BitVec 4) (i : RegInfo) (s : State), x.val < 72 → writes v (synCtl x.val) i s = true →
    exec (.synPredivWrite v x m1) s =
      .next (synCtlWrite x.val (fieldPut (rd s (synCtl x.val)) 3 0 m1.toNat) (served v (synCtl x.val) true s))) ∧
  (∀ (v : View) (x : Pll) (k : BitVec 2) (frac : Bool) (w : Word) (i : RegInfo) (s : State) (a : Nat), x.val < 72 →
    a = synSlotR x.val k.toNat + (if frac then 4 else 0) → writes v a i s = true →
    exec (.synSlotWordWrite v x k frac w) s = .next (synWordWrite x.val k.toNat frac w (served v a true s))) ∧
  (∀ (v : View) (x : Pll) (k bw : BitVec 2) (m1 : BitVec 4) (frac : Bool) (w : Word) (s : State), 72 ≤ x.val →
    exec (.synSlotWrite v x k) s = .next s ∧ exec (.synBwWrite v x bw) s = .next s ∧ exec (.synPredivWrite v x m1) s = .next s ∧
    exec (.synSlotWordWrite v x k frac w) s = .next s) ∧
  (∀ (v : View) (w : Word) (step : BitVec 16) (diff : Word) (i : RegInfo) (s u : State), writes v refSelR i s = true →
    u = wrF refSelR 7 6 (fieldGet w 7 6) (wrF refSelR 1 1 (fieldGet w 1 1) (served v refSelR true s)) →
    rdF (served v refSelR true s) refSelR 0 0 ≠ fieldGet w 0 0 → refOk u (fieldGet w 0 0) = true →
    exec (.refSelWrite v w step diff) s = .next (refSwitch (fieldGet w 0 0) 0 step diff u)) ∧
  (∀ (v : View) (w : Word) (step : BitVec 16) (diff : Word) (i : RegInfo) (s u : State), writes v refSelR i s = true →
    u = wrF refSelR 7 6 (fieldGet w 7 6) (wrF refSelR 1 1 (fieldGet w 1 1) (served v refSelR true s)) →
    (rdF (served v refSelR true s) refSelR 0 0 = fieldGet w 0 0 ∨ refOk u (fieldGet w 0 0) = false) →
    exec (.refSelWrite v w step diff) s = .next u) ∧
  (∀ (v : View) (osb : Bool) (k : BitVec 4) (i : RegInfo) (s : State), writes v (rackCtl (72 + b2n osb)) i s = true →
    exec (.rcSlotWrite v osb k none) s = .next (rackCtlWrite (72 + b2n osb) (fieldPut (rd s (rackCtl (72 + b2n osb))) 3 0 k.toNat)
      (served v (rackCtl (72 + b2n osb)) true s))) ∧
  (∀ (v : View) (osb frac : Bool) (k : BitVec 4) (w x : Word) (i : RegInfo) (s u t : State) (a : Nat),
    a = rackSlotR (72 + b2n osb) k.toNat + (if frac then 4 else 0) → writes v a i s = true → u = served v a true s →
    (x, t) = keepReserved v a (rd u a) w u →
    exec (.rcSlotWrite v osb k (some (frac, w))) s = .next (rackSlotWrite (72 + b2n osb) k.toNat frac x t)) ∧
  (∀ (v : View) (osb b : Bool) (i : RegInfo) (s : State), writes v (rackCtl (72 + b2n osb)) i s = true →
    exec (.rcEnableWrite v osb b) s = .next (rackCtlWrite (72 + b2n osb) (bitPut (rd s (rackCtl (72 + b2n osb))) 4 b)
      (served v (rackCtl (72 + b2n osb)) true s)))

/-- Writes of output, host lane and power registers (R230, R268, R271, R279, R313, R317): a served write has the effect of its register,
the reserved codes of OUT_SPREAD's mode and of a receive lane's CTLE keeping their field (R395). A TARGET that the domain does not accept
is logged, AUTO being written. At the top of the spread triangle of a running output the register's parameters take effect (R271). -/
def Obligations.OutputAndPowerWrites : Prop :=
  (∀ (v : View) (n : BitVec 4) (x : BitVec 12) (i : RegInfo) (s u : State), writes v (outBase n.toNat) i s = true →
    u = served v (outBase n.toNat) true s →
    exec (.outDivPhaseWrite v n false x) s =
      .next (outCfgWrite n.toNat (rwWord u i (outBase n.toNat) (fieldPut (rd s (outBase n.toNat)) 19 8 x.toNat)) u)) ∧
  (∀ (v : View) (n : BitVec 4) (x : BitVec 12) (i : RegInfo) (s u : State), writes v (outBase n.toNat + 4) i s = true →
    u = served v (outBase n.toNat + 4) true s →
    exec (.outDivPhaseWrite v n true x) s =
      .next (outPhaseWrite n.toNat (rwWord u i (outBase n.toNat + 4) (fieldPut (rd s (outBase n.toNat + 4)) 11 0 x.toNat)) u)) ∧
  (∀ (v : View) (n : BitVec 4) (fmt : BitVec 2) (src : Bool) (i : RegInfo) (s u : State), writes v (outBase n.toNat) i s = true →
    u = served v (outBase n.toNat) true s →
    exec (.outFmtSrcWrite v n fmt src) s = .next (outCfgWrite n.toNat
      (rwWord u i (outBase n.toNat) (fieldPut (fieldPut (rd s (outBase n.toNat)) 2 1 fmt.toNat) 0 0 (b2n src))) u)) ∧
  (∀ (v : View) (n : BitVec 4) (i : RegInfo) (s : State), writes v (outBase n.toNat + 0xC) i s = true →
    exec (.outCtlReturn v n) s = .next (outReturn n.toNat (served v (outBase n.toNat + 0xC) true s))) ∧
  (∀ (v : View) (n : BitVec 4) (w x : Word) (i : RegInfo) (s u t : State), writes v (outBase n.toNat + 8) i s = true →
    u = served v (outBase n.toNat + 8) true s → (x, t) = keepReserved v (outBase n.toNat + 8) (rd u (outBase n.toNat + 8)) w u →
    exec (.outSpreadWrite v n w) s =
      .next (wr (outBase n.toNat + 8) ((rd t (outBase n.toNat + 8) &&& ~~~(i.rw ||| (i.w1c &&& x))) ||| (x &&& i.rw)) t)) ∧
  (∀ (n : BitVec 4) (s : State), s.mode = .running → outState s n.toNat = 1 →
    exec (.spreadTop n) s = .next (wrB (outStatus n.toNat) 4 (fieldGet (rd s (outBase n.toNat + 8)) 1 0 != 0)
      (setSpread n.toNat (rd s (outBase n.toNat + 8)) s))) ∧
  (∀ (v : View) (n : Lane) (w x : Word) (i : RegInfo) (s u t : State), writes v (hlCtl n.toNat) i s = true →
    u = served v (hlCtl n.toNat) true s → (x, t) = keepReserved v (hlCtl n.toNat) (rd u (hlCtl n.toNat)) w u →
    exec (.hlCtlWrite v n w) s = .next (hlCtlWrite n.toNat (rwWord t i (hlCtl n.toNat) x) t)) ∧
  (∀ (v : View) (d : Domain) (w : Word) (i : RegInfo) (s u : State), writes v (domBase d.val) i s = true →
    u = served v (domBase d.val) true s → fieldGet w 2 0 ≤ 4 → accepts d.val (fieldGet w 2 0) = true →
    exec (.pwrTargetWrite v d w) s = .next (request d.val (fieldGet w 2 0) none (wrB (domBase d.val) 3 (bitGet w 3) u))) ∧
  (∀ (v : View) (d : Domain) (w : Word) (i : RegInfo) (s u : State), writes v (domBase d.val) i s = true →
    u = served v (domBase d.val) true s → (4 < fieldGet w 2 0 ∨ accepts d.val (fieldGet w 2 0) = false) →
    exec (.pwrTargetWrite v d w) s = .next (accessError v (domBase d.val) 8 true (wrB (domBase d.val) 3 (bitGet w 3) u))) ∧
  (∀ (v : View) (w : Word) (i : RegInfo) (s : State), writes v pwrPlOperR i s = true →
    exec (.pwrPlWrite v true w) s = .next (plWrite true w (served v pwrPlOperR true s))) ∧
  (∀ (v : View) (w : Word) (i : RegInfo) (s : State), writes v pwrPlGraderR i s = true →
    exec (.pwrPlWrite v false w) s = .next (plWrite false w (served v pwrPlGraderR true s)))

/-- Performance counter blocks (R411, R413, R417, R419): a served write of PERF_CTL, by each of its three rows, has the effect of the word
that the row writes; one of PERF_SEL without PRIV bit 3 stores its word (with that bit: PerfSelPrivilege). A window that is due opens with
its counters, PERF_OVF and FREEZE at 0; an open one ends with FREEZE and WIN_DONE at 1 and WIN_ARM at 0. A counter of a block that counts
wraps to 0 at its overflow and sets its bit of PERF_OVF. -/
def Obligations.PerformanceRows : Prop :=
  (∀ (v : View) (b : Fin 9) (i : RegInfo) (s : State), writes v (perfBase b.val) i s = true →
    exec (.perfCtlClear v b) s =
      .next (perfCtlWrite v b.val ((rd s (perfBase b.val) &&& 3) ||| 4) (served v (perfBase b.val) true s))) ∧
  (∀ (v : View) (b : Fin 9) (i : RegInfo) (s : State), writes v (perfBase b.val) i s = true →
    exec (.perfCtlWinArm v b) s =
      .next (perfCtlWrite v b.val ((rd s (perfBase b.val) &&& 3) ||| 8) (served v (perfBase b.val) true s))) ∧
  (∀ (v : View) (b : Fin 9) (en freeze : Bool) (i : RegInfo) (s : State), writes v (perfBase b.val) i s = true →
    exec (.perfCtlEnFreeze v b en freeze) s =
      .next (perfCtlWrite v b.val (fields [(0, b2n en), (1, b2n freeze)]) (served v (perfBase b.val) true s))) ∧
  (∀ (v : View) (b : Fin 9) (n : BitVec 3) (w : Word) (i : RegInfo) (s u : State), writes v (perfSel b.val n.toNat) i s = true →
    u = served v (perfSel b.val n.toNat) true s → bitGet w 11 = false →
    exec (.perfSelWrite v b n w) s = .next (wr (perfSel b.val n.toNat) (w &&& 0xFFFFF) u)) ∧
  (∀ (b : Fin 9) (s : State) (k : Nat) (x : PerfWin), s.mode = .running → s.perfWins.find? (fun e => e.1 == b.val) = some (k, x) →
    x.opened = false →
    ∃ t, exec (.perfWindowStart b) s = .next t ∧ t = winOpen b.val (BitVec.ofNat 64 (rdWide s (perfStart b.val))) s ∧ rdB t (perfBase b.val) 1 =
      false ∧ rdWide t (perfBase b.val + 8) = 0 ∧
      (∀ n < 8, rdWide t (perfPc b.val n) = 0) ∧ rd t (perfOvf b.val) = 0) ∧
  (∀ (b : Fin 9) (s : State) (k : Nat) (x : PerfWin), s.mode = .running → s.perfWins.find? (fun e => e.1 == b.val) = some (k, x) →
    x.opened = true →
    ∃ t, exec (.perfWindowEnd b) s = .next t ∧
      t = wrB (perfBase b.val) 1 true (wrB (perfBase b.val) 4 true (wrB
        (perfBase b.val) 3 false { s with perfWins := tabErase s.perfWins b.val })) ∧ rdB t (perfBase b.val) 1 = true ∧
        rdB t (perfBase b.val) 4 = true ∧
      rdB t (perfBase b.val) 3 = false ∧ t.perfWins = tabErase s.perfWins b.val) ∧
  (∀ (b : Fin 9) (s : State), s.mode = .running → perfCounts s b.val = true →
    ∃ t, exec (.perfOverflow b 0) s = .next t ∧ rdWide t (perfBase b.val + 8) = 0 ∧ rdB t (perfOvf b.val) 0 = true) ∧
  (∀ (b : Fin 9) (n : Fin 9) (s : State), s.mode = .running → perfCounts s b.val = true → n ≠ 0 →
    ∃ t, exec (.perfOverflow b n) s = .next t ∧ rdWide t (perfPc b.val (n.val - 1)) = 0 ∧ rdB t (perfOvf b.val) n.val = true)

/-- Frames of the clocked serial port (R433 to R440), which are ignored while the device does not run. A write frame passes its words on in
order, a read frame serves them in order or goes on from what is held; a one-word read in time sends the word and a one-word write is
queued behind the posted ones, by its index or by its address; a word that finds 1,024 queued is discarded and sets DROP; an addressed
frame with a reserved bit is ignored, the status read clears DROP alone, a repeat of the held frame sends the held words, one that comes
too early finds no data, and a frame that idles ends as it stands (R437). What the port does behind its frames (R394, R438, R440), and
board setup (R512): a held read gets its word after the queued writes, or 0xFF bytes and BUS_ERR; the oldest posted write takes effect,
fails, or stays while it stalls; an access that still stalls ends in an error response, or is dropped, and one that no longer stalls is
left alone; setup opens the staging copy, DATA accesses move it on, and a staging copy that passes its check is written to MRAM; a bad key
is logged, LOCK_CTL bit 4 refuses setup, and a commit that cannot be made sets its error bit. -/
def Obligations.SerialRows : Prop :=
  (∀ (i : BitVec 6) (n : BitVec 11) (late : Option (BitVec 11)) (s : State), s.mode = .running →
    exec (.serialWindowedRead i n late) s = .next (readFrame false i.toNat n.toNat ((late.map BitVec.toNat).getD 2048) s)) ∧
  (∀ (i : BitVec 6) (s t : State) (a : Nat) (w : Word) (e : Bool), s.mode = .running → windowItem s i.toNat 0 = .bar a →
    heldFrame s false i.toNat 1 = none → s.sp.queue = [] → readWord .serial a true (putHold none s) = (some (w, e), t) →
    exec (.serialWindowedRead i 1 none) s = .next (emit (.serialOut (leBytes 4 w.toNat)) (if e then spBusErr t else t))) ∧
  (∀ (i : BitVec 6) (ws : List Word) (s : State), s.mode = .running →
    exec (.serialWindowedWrite i ws) s = .next (((frameItems false i.toNat ws.length s).zip ws).foldl (fun s x => writeItem x s)
      (modSp (fun x => { x with hold := none }) s))) ∧
  (∀ (i : BitVec 6) (s : State) (a : Nat) (w : Word), s.mode = .running → windowItem s i.toNat 0 = .bar a → s.sp.queue.length < 1024 →
    exec (.serialWindowedWrite i [w]) s = .next (modSp (fun x => { x with hold := none, queue := x.queue ++ [(a, w)] }) s)) ∧
  (∀ (i : BitVec 6) (s : State) (a : Nat) (w : Word), s.mode = .running → windowItem s i.toNat 0 = .bar a → 1024 ≤ s.sp.queue.length →
    exec (.serialWindowedWrite i [w]) s = .next (modSp (fun x => { x with hold := none, drop := true }) s)) ∧
  (∀ (a w : Word) (s : State), s.mode = .running → 2 ≤ rdF s spFrameConfigR 2 1 → s.sp.queue.length < 1024 →
    spItem (a.toNat / 4 * 4) = .bar (a.toNat / 4 * 4) →
    exec (.serialAddressedFrame 0 a (some [w]) 0 none) s =
      .next (modSp (fun x => { x with hold := none, queue := x.queue ++ [(a.toNat / 4 * 4, w)] }) s)) ∧
  (∀ (a : Word) (ws : List Word) (n : BitVec 11) (late : Option (BitVec 11)) (s : State), s.mode = .running →
    exec (.serialAddressedFrame 0 a (some ws) n late) s = .next (((frameItems true a.toNat ws.length s).zip ws).foldl
      (fun s x => writeItem x s) (modSp (fun x => { x with hold := none }) s))) ∧
  (∀ (a : Word) (n : BitVec 11) (late : Option (BitVec 11)) (s : State), s.mode = .running →
    exec (.serialAddressedFrame 0 a none n late) s = .next (readFrame true a.toNat n.toNat ((late.map BitVec.toNat).getD 2048) s)) ∧
  (∀ (r : BitVec 5) (a : Word) (ws : Option (List Word)) (n : BitVec 11) (late : Option (BitVec 11)) (s : State), r ≠ 0 →
    exec (.serialAddressedFrame r a ws n late) s = .next s) ∧
  (∀ (s : State), s.mode = .running →
    ∃ b t, exec .serialStatusRead s = .next (emit (.serialOut [b]) t) ∧ t = modSp (fun x => { x with drop := false }) s ∧
      b.toNat % 16 = rdF s spStatusR 3 0 ∧ b.getLsbD 4 = rdB s mailboxCtlR 2 ∧ b.getLsbD 5 = irqAsserted s ∧ b.getLsbD 6 = spReady s ∧
      b.getLsbD 7 = s.sp.drop) ∧
  (∀ (s : State) (h : SpHold) (n : BitVec 11), s.mode = .running → s.sp.hold = some h →
    exec (.serialRetry n) s = .next (readFrame h.addressed h.start n.toNat 2048 s)) ∧
  (∀ (s : State) (h : SpHold) (a : Nat) (w : Word), s.mode = .running → s.sp.hold = some h → h.addressed = false → h.todo = [] →
    1 ≤ h.n → h.words = [w] → windowItem s h.start 0 = .bar a →
    exec (.serialRetry 1) s = .next (emit (.serialOut (leBytes 4 w.toNat)) (modSp (fun x => { x with hold := none }) s))) ∧
  (∀ (s u : State) (h : SpHold) (n : BitVec 11) (b : List Byte), s.mode = .running → s.sp.hold = some h → h.todo ≠ [] → n.toNat ≤ h.n →
    (b, u) = freeWords n.toNat s → exec (.serialRetry n) s = .next (emit (.serialOut b) (spLate u))) ∧
  (∀ (s : State) (n : BitVec 11), s.sp.hold = none → exec (.serialRetry n) s = .next s) ∧
  (∀ (i : BitVec 6) (s : State) (a : Nat) (w : Word), s.mode = .running → windowItem s i.toNat 0 = .bar a → s.sp.queue.length < 1024 →
    exec (.serialFrameIdleTimeout (.windowedWrite i [w])) s =
      .next (modSp (fun x => { x with hold := none, queue := x.queue ++ [(a, w)] }) s)) ∧
  (∀ (i : BitVec 6) (z : BitVec 5) (a : Word) (n : BitVec 11) (late : Option (BitVec 11)) (ws : List Word) (s : State),
    exec (.serialFrameIdleTimeout (.windowedRead i n late)) s = exec (.serialWindowedRead i n late) s ∧
    exec (.serialFrameIdleTimeout (.windowedWrite i ws)) s = exec (.serialWindowedWrite i ws) s ∧
    exec (.serialFrameIdleTimeout (.addressedRead z a n late)) s = exec (.serialAddressedFrame z a none n late) s ∧
    exec (.serialFrameIdleTimeout (.addressedWrite z a ws)) s = exec (.serialAddressedFrame z a (some ws) n late) s ∧
    exec (.serialFrameIdleTimeout .status) s = exec .serialStatusRead s) ∧
  (∀ (i : BitVec 6) (z : BitVec 5) (a : Word) (n : BitVec 11) (late : Option (BitVec 11)) (w : Option (List Word)) (ws : List Word)
    (s : State), s.mode ≠ .running →
    exec (.serialWindowedRead i n late) s = .next s ∧ exec (.serialWindowedWrite i ws) s = .next s ∧
    exec (.serialAddressedFrame z a w n late) s = .next s ∧ exec .serialStatusRead s = .next s ∧ exec (.serialRetry n) s = .next s) ∧
  (∀ (s t : State) (h : SpHold) (a : Nat) (q : List Nat) (w : Word) (e : Bool), s.mode = .running → s.sp.hold = some h → h.todo = a :: q →
    s.sp.queue = [] → readWord .serial a true s = (some (w, e), t) →
    exec .serialHeldReadDone s = .next (holdWord w e t)) ∧
  (∀ (s t : State) (h : SpHold) (a : Nat) (q : List Nat) (w : Word), s.mode = .running → s.sp.hold = some h → h.todo = a :: q →
    s.sp.queue = [] → readWord .serial a true s = (some (w, false), t) →
    exec .serialHeldReadDone s =
      .next (modSp (fun x => { x with hold := x.hold.map (fun h => { h with words := h.words ++ [w], todo := h.todo.drop 1 }) }) t)) ∧
  (∀ (s : State), (s.sp.hold = none ∨ s.sp.queue ≠ []) → exec .serialHeldReadDone s = .next s) ∧
  (∀ (s u v t : State) (a : Nat) (w x : Word) (q : List (Nat × Word)) (i : RegInfo), s.mode = .running → s.sp.queue = (a, w) :: q →
    u = modSp (fun y => { y with queue := q }) s → a ≠ refSelR → (a = bcfgCtlR → bcfgPends w s = false) → writes .serial a i u = true →
    v = served .serial a true u → (x, t) = keepReserved .serial a (rd v a) w v →
    exec .serialWritePosted s = .next (regWrite .serial i a x 0 0 t)) ∧
  (∀ (s u : State) (a c : Nat) (w : Word) (q : List (Nat × Word)), s.mode = .running → s.sp.queue = (a, w) :: q →
    u = modSp (fun y => { y with queue := q }) s → a ≠ refSelR → a ≠ bcfgCtlR → a % 4 = 0 → reaches u .serial a = true →
    verdict u .serial a true = .fail c →
    exec .serialWritePosted s = .next (accessDone .serial a false (accessFails .serial a c true (stallOver .serial a true u)))) ∧
  (∀ (s u : State) (a : Nat) (w : Word) (q : List (Nat × Word)), s.mode = .running → s.sp.queue = (a, w) :: q →
    u = modSp (fun y => { y with queue := q }) s → a ≠ refSelR → a % 4 = 0 → reaches u .serial a = true →
    verdict u .serial a true = .stall →
    exec .serialWritePosted s = .next (modSp (fun y => { y with queue := (a, w) :: q }) (stalled .serial a true u))) ∧
  (∀ (s : State), s.sp.queue = [] → exec .serialWritePosted s = .next s) ∧
  (∀ (v : View) (a : BitVec 29) (s u : State), v ≠ .serial → reaches s v a.toNat = true → verdict s v a.toNat false = .stall →
    u = (if v = .pcie then aerNote 15 a.toNat false s else s) →
    exec (.accessStallTimeout v a false) s = .next (emit (.readData v allOnes true) (accessDone v a.toNat true
      (accessError v a.toNat 0xA false (stallOver v a.toNat false u))))) ∧
  (∀ (v : View) (a : BitVec 29) (s : State), v ≠ .serial → reaches s v a.toNat = true → verdict s v a.toNat true = .stall →
    exec (.accessStallTimeout v a true) s = .next (accessDone v a.toNat false (accessError v a.toNat 0xA true (stallOver v a.toNat true s)))) ∧
  (∀ (v : View) (a : BitVec 29) (b : Bool) (s : State), verdict s v a.toNat b ≠ .stall → exec (.accessStallTimeout v a b) s = .next s) ∧
  (∀ (a : BitVec 29) (s u : State) (w : Word) (q : List (Nat × Word)), s.mode = .running → s.sp.queue = (a.toNat, w) :: q →
    verdict s .serial a.toNat true = .stall → u = modSp (fun x => { x with queue := q }) s →
    exec (.accessStallTimeout .serial a true) s =
      .next (accessDone .serial a.toNat false (accessError .serial a.toNat 0xA true (stallOver .serial a.toNat true u)))) ∧
  (∀ (a : BitVec 29) (s : State) (h : SpHold) (q : List Nat), s.mode = .running → s.sp.hold = some h → h.todo = a.toNat :: q →
    verdict s .serial a.toNat false = .stall →
    exec (.accessStallTimeout .serial a false) s = .next (holdWord allOnes true
      (accessDone .serial a.toNat true (accessError .serial a.toNat 0xA false (stallOver .serial a.toNat false s))))) ∧
  (∀ (w : Word) (i : RegInfo) (s u : State), writes .serial bcfgCtlR i s = true → u = served .serial bcfgCtlR true s → bitGet w 17 = false →
    exec (.bcfgSetup w) s = .next (
      if bcfgKey w = false then accessError .serial bcfgCtlR 8 true u
      else if rdB u lockCtlR 4 then accessError .serial bcfgCtlR 6 true u
      else wrB bcfgCtlR 18 true { u with bcfg := some (if recordOk (storedRecord u) then storedRecord u else zeros 0x280) })) ∧
  (∀ (w : Word) (i : RegInfo) (s u : State) (r : List Byte), writes .serial bcfgCtlR i s = true → u = served .serial bcfgCtlR true s →
    bcfgKey w = true → u.bcfg = some r → recordOk r = true → domState u 79 ≠ 4 → rdB u clkEnR 4 = true → rdB u fwStateR 4 = false →
    commitWaits u = false →
    exec (.bcfgCommit w) s = .next (wrF bcfgCtlR 20 18 (2 * rdF u bcfgCtlR 19 19)
      { u with mram := putBytes0 u.mram recordBase r, bcfg := none })) ∧
  (∀ (w : Word) (i : RegInfo) (s u : State) (r : List Byte), writes .serial bcfgCtlR i s = true → u = served .serial bcfgCtlR true s →
    bcfgKey w = true → u.bcfg = some r → recordOk r = true → domState u 79 ≠ 4 → rdB u clkEnR 4 = true → rdB u fwStateR 4 = false →
    commitWaits u = true → exec (.bcfgCommit w) s = .next (if domRuns u 79 then u else beginWake 79 u)) ∧
  (∀ (w : Word) (i : RegInfo) (s u : State) (r : List Byte), writes .serial bcfgCtlR i s = true → u = served .serial bcfgCtlR true s →
    bcfgKey w = true → u.bcfg = some r → (recordOk r = false ∨ domState u 79 = 4 ∨ rdB u clkEnR 4 = false ∨ rdB u fwStateR 4 = true) →
    exec (.bcfgCommit w) s = .next (wrB bcfgCtlR 20 true u)) ∧
  (∀ (w : Word) (i : RegInfo) (s u : State), writes .serial bcfgCtlR i s = true → u = served .serial bcfgCtlR true s →
    (bcfgKey w = false ∨ u.bcfg = none) →
    exec (.bcfgCommit w) s = .next (if bcfgKey w then u else accessError .serial bcfgCtlR 8 true u)) ∧
  (∀ (w : Word) (i : RegInfo) (s u : State) (r : List Byte), writes .serial bcfgDataR i s = true → u = served .serial bcfgDataR true s →
    u.bcfg = some r → exec (.bcfgDataAccess (some w)) s = .next (bcfgAdvance
      { u with bcfg := some (r.take (bcfgPtr u) ++ leBytes 4 w.toNat ++ r.drop (bcfgPtr u + 4)) })) ∧
  (∀ (w : Word) (i : RegInfo) (s u : State), writes .serial bcfgDataR i s = true → u = served .serial bcfgDataR true s →
    u.bcfg = none → exec (.bcfgDataAccess (some w)) s = .next (bcfgAdvance u)) ∧
  (∀ (s : State), reads .serial bcfgDataR s = true →
    exec (.bcfgDataAccess none) s = .next (emit (.readData .serial (match s.bcfg with
      | some r => wordAt r (bcfgPtr s)
      | none => 0) false) (served .serial bcfgDataR false (bcfgAdvance s))))

/-- The PCIe function (R425 to R431): a FUNCTION reset and an entry of D3hot stop DMA and the rings, the reset also returns configuration
space and MSI-X to their reset values, and takes the link down for a hot reset's successors; D0, Bus Master Enable and the masks release
what they held; an inbound request is an access of the PCIe view, a poisoned write is dropped and logged, and one outside the BARs, or one
that the function does not take, is unsupported; a function that is ready serves a configuration request, one that is not asks for a retry;
the moment at which it gets ready is open until 100 ms have passed (R430; DESIGN CHOICE: log 29). -/
def Obligations.PcieRows : Prop :=
  (∀ (k : BitVec 2) (s : State), s.mode = .running → k.toNat < 2 →
    exec (.functionReset k) s = .next (unitResetEvent 3 unitDev (configReset (functionStop s)))) ∧
  (∀ (s : State), s.mode = .running → exec (.functionReset 2) s =
    .next (unitResetEvent 3 unitDev (modPcie (fun p => { p with linkUp := false, aspmL1 := false }) (configReset (functionStop s))))) ∧
  (∀ (s u : State), s.mode = .running → u = modPcie (fun p => { p with perstN := false, ready := false, waitFrom := none }) s →
    exec (.functionReset 3) s =
      .next (unitResetEvent 3 unitDev (modPcie (fun p => { p with linkUp := false, aspmL1 := false }) (configReset (functionStop u))))) ∧
  (∀ (k : BitVec 2) (s : State), s.mode ≠ .running → exec (.functionReset k) s =
    .next (if k = 3 then modPcie (fun p => { p with perstN := false, ready := false, waitFrom := none }) s else s)) ∧
  (∀ (k : BitVec 2) (s : State), s.mode = .running →
    ∃ t, exec (.functionReset k) s = .next t ∧ t.pcie.memSpace = false ∧ t.pcie.busMaster = false ∧ t.pcie.msixEnable = false ∧
      t.pcie.unmasked = [] ∧ t.pcie.pba = [] ∧ t.pcie.d3hot = false ∧ t.pcie.bars = []) ∧
  (∀ (s : State), s.mode = .running → s.pcie.d3hot = false →
    exec .d3hotEntry s = .next (modPcie (fun p => { p with d3hot := true }) (functionStop s))) ∧
  (∀ (s : State), s.pcie.d3hot = true → exec .d3hotEntry s = .next s) ∧
  (∀ (s : State), s.mode = .running → exec .d0Return s = .next (msixReleaseAll (modPcie (fun p => { p with d3hot := false }) s))) ∧
  (∀ (b : Bool) (s : State), s.mode = .running →
    exec (.busMasterEnableChange b) s = .next (msixReleaseAll (modPcie (fun p => { p with busMaster := b }) s))) ∧
  (∀ (v : BitVec 9) (s : State), s.mode = .running → exec (.msixUnmask (some v)) s =
    .next (msixRelease v.toNat (modPcie (fun p => { p with unmasked := p.unmasked.filter (fun x => x != v.toNat) ++ [v.toNat] }) s))) ∧
  (∀ (s : State), s.mode = .running → exec (.msixUnmask none) s = .next (msixReleaseAll (modPcie (fun p => { p with funcMask := false }) s))) ∧
  (∀ (p : Bool) (a : BitVec 29) (x : Word) (s u : State), reads .pcie a.toNat s = true →
    (x, u) = readValue .pcie a.toNat (windowWords .pcie a.toNat false s) →
    exec (.pcieInboundRequest none (some a) p) s =
      .next (emit (.readData .pcie x false) (served .pcie a.toNat false (afterRead .pcie a.toNat u)))) ∧
  (∀ (w x : Word) (a : BitVec 29) (i : RegInfo) (s u t : State), writes .pcie a.toNat i s = true → a.toNat ≠ refSelR →
    u = served .pcie a.toNat true s → (x, t) = keepReserved .pcie a.toNat (rd u a.toNat) w u →
    exec (.pcieInboundRequest (some w) (some a) false) s = .next (regWrite .pcie i a.toNat x 0 0 t)) ∧
  (∀ (w : Word) (a : BitVec 29) (s : State), reaches s .pcie a.toNat = true →
    exec (.pcieInboundRequest (some w) (some a) true) s = .next (accessError .pcie a.toNat 8 true (aerNote 12 a.toNat true s))) ∧
  (∀ (w : Option Word) (p : Bool) (s : State), s.mode = .running →
    exec (.pcieInboundRequest w none p) s = .next (emit .unsupported (aerNote 20 (bar4 0x4000) w.isSome s))) ∧
  (∀ (w : Option Word) (a : BitVec 29) (p : Bool) (s : State), s.mode = .running → reaches s .pcie a.toNat = false → a.toNat ≠ refSelR →
    exec (.pcieInboundRequest w (some a) p) s = .next (emit .unsupported (aerNote 20 a.toNat w.isSome s))) ∧
  (∀ (r : CfgReq) (s u : State), s.mode = .running → s.pcie.perstN = true → nowReady (modPcie (fun p => { p with linkUp := true }) s) = (true, u) →
    exec (.pcieConfigRequest r) s = .next (cfgServe r (modPcie (fun p => { p with ready := true, waitFrom := none }) u))) ∧
  (∀ (r : CfgReq) (s u : State), s.mode = .running → s.pcie.perstN = true → nowReady (modPcie (fun p => { p with linkUp := true }) s) = (false, u) →
    exec (.pcieConfigRequest r) s = .next (emit .cfgRetry u)) ∧
  (∀ (r : CfgReq) (s : State), s.pcie.perstN = false → exec (.pcieConfigRequest r) s = .next s) ∧
  (∀ (b m : Bool) (s : State), s.mode = .running → s.pcie.perstN = true → s.pcie.ready = true → s.pcie.waitFrom = none →
    exec (.pcieConfigRequest (.command m b)) s =
      .next (msixReleaseAll (modPcie (fun p => { p with linkUp := true, memSpace := m, busMaster := b }) s))) ∧
  (∀ (hi : Bool) (s : State), s.mode = .running → s.pcie.perstN = true → s.pcie.ready = true → s.pcie.waitFrom = none →
    exec (.pcieConfigRequest (.serialNumber hi)) s = .next (emit (.cfgData ((if hi then Config.serial >>> 32 else Config.serial).setWidth 32))
      (modPcie (fun p => { p with linkUp := true }) s))) ∧
  (∀ (e m : Bool) (s : State), s.mode = .running → s.pcie.perstN = true → s.pcie.ready = true → s.pcie.waitFrom = none →
    exec (.pcieConfigRequest (.msixControl e m)) s =
      .next (msixReleaseAll (modPcie (fun p => { p with linkUp := true, msixEnable := e, funcMask := m }) s))) ∧
  (∀ (s : State), s.pcie.perstN = false → exec .perstNDeassertion s = .next (modPcie (fun p =>
    { p with perstN := true, waitFrom := if s.mode = .running ∧ s.pcie.bootAt.isSome = true then some s.time else none }) s)) ∧
  (∀ (s : State), s.pcie.perstN = true → exec .perstNDeassertion s = .next s) ∧
  (∀ (s : State), s.mode = .running → s.pcie.perstN = true →
    exec .aspmL1Entry s = .next (modPcie (fun p => { p with linkUp := true, aspmL1 := true }) s)) ∧
  (∀ (s : State), s.pcie.perstN = false → exec .aspmL1Entry s = .next s) ∧
  (∀ (s : State), exec .aspmL1Exit s = .next (modPcie (fun p => { p with aspmL1 := false }) s))

/-- Resets of the whole device (R288, R310, R311, R315, R478, R479, R489, R495): each leaves the device in reset, or off, with its
LAST_RESET code, with every register at its reset value but for DEV_RESET_CAUSE and the bank selection of FW_STATE, and with the MRAM, its
stores and its log kept; device time is kept but for code 1 and an entry or a leaving of OFF. RESET_N is ignored while a reset is in
progress, the wake pin but in OFF, dead cores in OFF, and an OFF entry that no command asked for. The boot (R376, R504 to R507): from a
reset it chooses the patch, applies the board record, the root and the rack plan or, where the record fails its check, the defaults, then
the operator image, and ends with EVT_DEV_RESET and the end of the reset; the root switch it left pending is made when its source passes,
with the stored word of the source, or given up when the wait expires; a rack PLL and a tile's synthesizers are enabled when their
conditions are met. -/
def Obligations.DeviceResetAndBootRows : Prop :=
  (∀ (s : State), exec .powerOnReset s = .next (resetDevice .inReset 1 s) ∧ exec .vddAonLow s = .next (resetDevice .inReset 1 s)) ∧
  (∀ (s : State), exec .bothCoresDead s = .next (if s.mode = .off then s else resetDevice .inReset 1 s)) ∧
  (∀ (s : State), exec .resetNPulse s = .next (if s.mode = .inReset then s else resetDevice .inReset 2 s)) ∧
  (∀ (s : State), exec .wakePin s = .next (if s.mode = .off then resetDevice .inReset 4 s else s)) ∧
  (∀ (s : State), exec .deviceOffEntry s = .next (if s.mode = .running ∧ s.offPending = true then resetDevice .off 4 s else s)) ∧
  (∀ (m : DevMode) (c : Nat) (s : State), c < 8 → (resetDevice m c s).mode = m ∧ (resetDevice m c s).mram = s.mram ∧
    (resetDevice m c s).hostMem = s.hostMem ∧ (resetDevice m c s).evt.log = s.evt.log ∧ (resetDevice m c s).contRecs = s.contRecs ∧
    (resetDevice m c s).time = (if c = 1 ∨ s.mode = .off ∨ m = .off then 0 else s.time) ∧
    rd (resetDevice m c s) devResetCauseR = BitVec.ofNat 32 c ∧
    (∀ a, a ≠ devResetCauseR → a ≠ fwStateR → rd (resetDevice m c s) a = regReset a) ∧
    rdF (resetDevice m c s) fwStateR 1 0 = rdF s fwStateR 1 0) ∧
  (∀ (m : Bool) (p : List (BitVec 4)) (x : List (List Byte × BitVec 3)) (s : State), s.mode = .inReset →
    ∃ t, exec (.deviceBoot m p x) s = .next t ∧ t.mode = .running) ∧
  (∀ (m : Bool) (p : List (BitVec 4)) (x : List (List Byte × BitVec 3)) (s u v w : State) (c : Nat → Nat) (r : List Byte) (k : Nat),
    s.mode = .inReset → c = (fun b => (x.getD b ([], 0)).2.toNat) →
    u = bootPatch c (factoryHeaders (x.map Prod.fst) (wrB devStrapsR 0 m (wrB clkRootSrcR 5 (s.badCores.contains 0) { s with mode := .running }))) →
    r = storedRecord u → recordOk r = true →
    v = applyRack r (bootRoot r (p.foldl (fun s y => monPass y.toNat 0 s) (wrB bcfgCtlR 19 true (applyBoard r u)))) →
    w = { v with pcie := { v.pcie with bootAt := some v.time, subsys := BitVec.ofNat 32 (leAt r 8 4),
                                       waitFrom := if v.pcie.perstN then some v.time else none } } →
    k = rdF w devResetCauseR 2 0 →
    exec (.deviceBoot m p x) s = .next (unitResetEvent (if k = 1 then 1 else 2) unitDev
      (raise 0x0000 unitDev [BitVec.ofNat 8 k, 0] (contIndex (bootOperator c w))))) ∧
  (∀ (m : Bool) (p : List (BitVec 4)) (x : List (List Byte × BitVec 3)) (s u v w : State) (c : Nat → Nat) (k : Nat),
    s.mode = .inReset → c = (fun b => (x.getD b ([], 0)).2.toNat) →
    u = bootPatch c (factoryHeaders (x.map Prod.fst) (wrB devStrapsR 0 m (wrB clkRootSrcR 5 (s.badCores.contains 0) { s with mode := .running }))) →
    recordOk (storedRecord u) = false → v = p.foldl (fun s y => monPass y.toNat 0 s) (wrB bcfgCtlR 19 false (bootWithout u)) →
    w = { v with pcie := { v.pcie with bootAt := some v.time, subsys := Config.vendorId.setWidth 32 ||| 0x51200000,
                                       waitFrom := if v.pcie.perstN then some v.time else none } } →
    k = rdF w devResetCauseR 2 0 →
    exec (.deviceBoot m p x) s = .next (unitResetEvent (if k = 1 then 1 else 2) unitDev
      (raise 0x0000 unitDev [BitVec.ofNat 8 k, 1] (contIndex (bootOperator c w))))) ∧
  (∀ (m : Bool) (p : List (BitVec 4)) (x : List (List Byte × BitVec 3)) (s : State), s.mode ≠ .inReset → exec (.deviceBoot m p x) s = .next s) ∧
  (∀ (s : State) (src : Nat), s.mode = .running → s.rootPending = some src → rootSrcOk s src = true →
    exec .pendingRootSwitch s = .next (rootSelect src (storeRootWord src s))) ∧
  (∀ (s : State), s.rootPending = none → exec .pendingRootSwitch s = .next s ∧ exec .refWaitExpiry s = .next s) ∧
  (∀ (s : State) (src : Nat), s.mode = .running → s.rootPending = some src →
    exec .refWaitExpiry s = .next (failoverEvent 0 3 0 0 unitDev (wrB clkRootSrcR 2 true { s with rootPending := none }))) ∧
  (∀ (x : Pll) (s : State), s.mode = .running → s.rackBoot.contains x.val = true → rackInputOk s x.val = true →
    exec (.rackPllBootEnable x) s = .next (rackEnable x.val none { s with rackBoot := s.rackBoot.filter (fun y => y != x.val) })) ∧
  (∀ (x : Pll) (s : State), (s.rackBoot.contains x.val = false ∨ rackInputOk s x.val = false) → exec (.rackPllBootEnable x) s = .next s) ∧
  (∀ (t : Tile) (s : State), s.mode = .running →
    exec (.tileSynthEnable t) s = .next (each (eight (8 * t.toNat) ++ [64 + t.toNat]) (fun i s =>
      if synState s i = 0 ∧ domRuns s i = true ∧ (tileOf s t.toNat).resetting = false ∧ (i < 64 → (portOf s i).resetting = false)
        then synRestart i s else s) s))

/-- Supply and temperature monitors (R307, R314, R315, R475, R476, R487, R518): a dip to below the warning level is latched, counted, holds
MRAM writes and wakes PD_OPER; its recovery, but for one that reached the reset level, and the low of a rail below its reset level are
reported; the hold ends when no rail dips; an alert, its end, and the critical limit are latched and reported once; a reading that changes
none of them is stored alone. VDD_AON has no low of its own. -/
def Obligations.MonitorRows : Prop :=
  (∀ (rail : BitVec 3) (low : BitVec 9) (s u : State), s.mode = .running → rdB s pwrSupplyStatusR rail.toNat = false →
    belowLevel (warnLevel rail.toNat) low.toNat = true →
    u = railMin rail.toNat low.toNat { s with dips := tabInsert s.dips rail.toNat { since := s.time, low := low.toNat } } →
    exec (.supplyDipStart rail low) s =
      .next (beginWake 73 (count pwrBrownoutCntR 1 (wrB pwrSupplyStatusR 16 true (wrB pwrSupplyStatusR rail.toNat true u))))) ∧
  (∀ (rail : BitVec 3) (low : BitVec 9) (s : State),
    (rdB s pwrSupplyStatusR rail.toNat = true ∨ belowLevel (warnLevel rail.toNat) low.toNat = false) →
    exec (.supplyDipStart rail low) s = .next s) ∧
  (∀ (rail : BitVec 3) (low : BitVec 9) (s u : State) (x : Dip), dipFind s rail.toNat = some x →
    u = railMin rail.toNat (min x.low low.toNat) (wrB pwrSupplyStatusR rail.toNat false { s with dips := tabErase s.dips rail.toNat }) →
    rdB u pwrSupplyStatusR (8 + rail.toNat) = false →
    exec (.supplyDipRecovery rail low) s = .next (raise 0x0400 unitDev (dipData rail.toNat (min x.low low.toNat) x.since u.time) u)) ∧
  (∀ (rail : BitVec 3) (low : BitVec 9) (s u : State) (x : Dip), dipFind s rail.toNat = some x →
    u = railMin rail.toNat (min x.low low.toNat) (wrB pwrSupplyStatusR rail.toNat false { s with dips := tabErase s.dips rail.toNat }) →
    rdB u pwrSupplyStatusR (8 + rail.toNat) = true → exec (.supplyDipRecovery rail low) s = .next u) ∧
  (∀ (rail : BitVec 3) (low : BitVec 9) (s : State), dipFind s rail.toNat = none →
    exec (.supplyDipRecovery rail low) s = .next s ∧ exec (.supplyLow rail low) s = .next s) ∧
  (∀ (s : State), exec .mramHoldEnd s =
    .next (if s.dips = [] ∧ rdF s pwrSupplyStatusR 15 8 = 0 then wrB pwrSupplyStatusR 16 false s else s)) ∧
  (∀ (rail : BitVec 3) (low : BitVec 9) (s u : State) (x : Dip), s.mode = .running → rail ≠ 6 → dipFind s rail.toNat = some x →
    belowLevel (resetLevel rail.toNat) low.toNat = true →
    u = railMin rail.toNat (min x.low low.toNat)
      { s with dips := tabInsert s.dips rail.toNat { x with low := min x.low low.toNat } } →
    exec (.supplyLow rail low) s = .next (raise 0x0401 unitDev (dipData rail.toNat (min x.low low.toNat) x.since u.time)
      (wrB pwrSupplyStatusR 16 true (wrB pwrSupplyStatusR (8 + rail.toNat) true u)))) ∧
  (∀ (rail : BitVec 3) (low : BitVec 9) (s : State), (rail = 6 ∨ belowLevel (resetLevel rail.toNat) low.toNat = false) →
    exec (.supplyLow rail low) s = .next s) ∧
  (∀ (i : BitVec 7) (t : BitVec 16) (s u : State), s.mode = .running → i.toNat < 98 → u = setTemp i.toNat t s →
    exec (.thermAlert i t) s = .next (if talert u ≤ t.toInt ∧ rdB u thermStatusR 0 = false then
      raise 0x0002 unitDev (thermData i.toNat t) (beginWake 73 (wrB thermStatusR 0 true u)) else u)) ∧
  (∀ (ts : List (BitVec 16)) (s u : State), s.mode = .running →
    u = each (List.range 98) (fun i s => match ts[i]? with
      | some t => setTemp i t s
      | none => s) s →
    rdB u thermStatusR 0 = true → (∀ i < 98, tempOf u i < talert u - 16 * (rdF u thermCfgR 11 8 : Int)) →
    exec (.thermClear ts) s =
      .next (raise 0x0003 unitDev (thermData (hottest u) (tabGet 0 u.temps (hottest u))) (wrB thermStatusR 0 false u))) ∧
  (∀ (ts : List (BitVec 16)) (s u : State) (k : Nat), s.mode = .running →
    u = each (List.range 98) (fun i s => match ts[i]? with
      | some t => setTemp i t s
      | none => s) s →
    k < 98 → (rdB u thermStatusR 0 = false ∨ talert u - 16 * (rdF u thermCfgR 11 8 : Int) ≤ tempOf u k) →
    exec (.thermClear ts) s = .next u) ∧
  (∀ (i : BitVec 7) (t : BitVec 16) (s u : State), s.mode = .running → i.toNat < 98 → u = setTemp i.toNat t s → 1840 ≤ t.toInt →
    rdB u thermStatusR 1 = false →
    exec (.thermCrit i t) s = .next (raise 0x0004 unitDev (thermData i.toNat t) (wrB thermStatusR 1 true u))) ∧
  (∀ (i : BitVec 7) (t : BitVec 16) (s u : State), s.mode = .running → i.toNat < 98 → u = setTemp i.toNat t s →
    rdB u thermStatusR 1 = true → (∀ k < 98, tempOf u k < 1760) →
    exec (.thermCrit i t) s = .next (wrB thermStatusR 1 false u)) ∧
  (∀ (i : BitVec 7) (t : BitVec 16) (s u : State) (k : Nat), s.mode = .running → i.toNat < 98 → u = setTemp i.toNat t s → k < 98 →
    ((t.toInt < 1840 ∧ rdB u thermStatusR 1 = false) ∨ (rdB u thermStatusR 1 = true ∧ 1760 ≤ tempOf u k)) →
    exec (.thermCrit i t) s = .next u)

/-- Power transitions (R302, R303, R306, R307, R313, R515): an idle timer that expires on an idle domain enters its state when nothing
refuses, and records a refusal; a drain that takes too long aborts the entry; an entry completes in its state, its losses made; a wake
begins, or aborts an entry, or is noted by one that is in its last step; a domain that is ready is in RUN with what it regains, the ports
that waited for their tile wake next, and the state that was asked for is entered; a performance level change ends. A halted supervisor
core leaves an entry and a wake where they stand (R387). -/
def Obligations.PowerRows : Prop :=
  (∀ (d : Domain) (st : BitVec 2) (s : State), s.mode = .running → 1 ≤ st.toNat → rdB s (domBase d.val) 3 = true →
    timerOf (rd s (domBase d.val + 8)) st.toNat ≠ 0 → accepts d.val st.toNat = true → domState s d.val < st.toNat →
    domIdle s d.val = true → supHalted s = false → refuserMask s d.val st.toNat = 0 →
    exec (.powerIdleTimerExpiry d st) s = .next (modDom d.val (fun _ => { going := st.toNat, tag := none })
      (wrF (domBase d.val + 4) 6 4 (domState s d.val) (wrB (domBase d.val + 4) 3 true s)))) ∧
  (∀ (d : Domain) (st : BitVec 2) (s : State) (m : Nat), s.mode = .running → 1 ≤ st.toNat → rdB s (domBase d.val) 3 = true →
    timerOf (rd s (domBase d.val + 8)) st.toNat ≠ 0 → accepts d.val st.toNat = true → domState s d.val < st.toNat →
    domIdle s d.val = true → supHalted s = false → m = refuserMask s d.val st.toNat → m ≠ 0 →
    exec (.powerIdleTimerExpiry d st) s = .next (recordRefusal d.val (firstRefuser m) m s)) ∧
  (∀ (d : Domain) (st : BitVec 2) (s : State), (st = 0 ∨ rdB s (domBase d.val) 3 = false ∨
    timerOf (rd s (domBase d.val + 8)) st.toNat = 0 ∨ accepts d.val st.toNat = false ∨ st.toNat ≤ domState s d.val ∨
    domIdle s d.val = false) → exec (.powerIdleTimerExpiry d st) s = .next s) ∧
  (∀ (d : Domain) (s : State), s.mode = .running → domBusy s d.val = true → (domOf s d.val).going ≠ 0 →
    exec (.powerDrainTimeout d) s = .next (abortEntry d.val 4 s)) ∧
  (∀ (d : Domain) (s : State), (domBusy s d.val = false ∨ (domOf s d.val).going = 0) →
    exec (.powerDrainTimeout d) s = .next s ∧ exec (.powerEntryComplete d) s = .next s) ∧
  (∀ (d : Domain) (s u : State) (x : DomSt), s.mode = .running → supHalted s = false → domBusy s d.val = true → x = domOf s d.val →
    x.going ≠ 0 → u = (if 3 ≤ x.going then domLost d.val (x.going == 4) s else s) →
    exec (.powerEntryComplete d) s = .next ((if x.wakeAt then beginWake d.val else id) (requestEnd x.tag stOk 0 0
      (modDom d.val (fun _ => {}) (wrB (domBase d.val + 4) 3 false (wrF (domBase d.val + 4) 2 0 x.going u)))))) ∧
  (∀ (d : Domain) (edge late : Bool) (s : State), s.mode = .running →
    (late = false ∨ domBusy s d.val = false ∨ (domOf s d.val).going = 0) →
    exec (.wakeRequest d edge late) s = .next (beginWake d.val s)) ∧
  (∀ (d : Domain) (s : State), s.mode = .running → domBusy s d.val = true → (domOf s d.val).going ≠ 0 →
    exec (.wakeRequest d true true) s = .next s ∧
    exec (.wakeRequest d false true) s = .next (modDom d.val (fun x => { x with wakeAt := true }) s)) ∧
  (∀ (d : Domain) (s u v w : State) (x : DomSt), s.mode = .running → supHalted s = false → domBusy s d.val = true → x = domOf s d.val →
    x.going = 0 → u = modDom d.val (fun _ => {}) (wrB (domBase d.val + 4) 3 false (wrF (domBase d.val + 4) 2 0 0 s)) →
    v = (if 3 ≤ domState s d.val then domPowered d.val (domState s d.val == 4) u else u) →
    w = (if isTileDom d.val then each (domPorts d.val) (fun p s => if (domOf s p).wakeAt then wakeOne p s else s) v else v) →
    exec (.domainReady d) s = .next (match x.next with
      | some st => tryEnter d.val st x.tag w
      | none => requestEnd x.tag stOk 0 0 w)) ∧
  (∀ (d : Domain) (s : State), (domBusy s d.val = false ∨ (domOf s d.val).going ≠ 0) → exec (.domainReady d) s = .next s) ∧
  (∀ (d : Domain) (s : State), supHalted s = true → exec (.powerEntryComplete d) s = .next s ∧ exec (.domainReady d) s = .next s) ∧
  (∀ (n : BitVec 5) (s u : State) (x : PlChange), s.plChanges.find? (fun y => y.unit == n.toNat) = some x →
    u = { s with plChanges := s.plChanges.filter (fun y => y.unit != n.toNat) } →
    exec (.perfLevelChangeDone n) s = .next (match x.tag with
      | some e => complete e stOk [] u
      | none => u)) ∧
  (∀ (n : BitVec 5) (s : State), s.plChanges.find? (fun y => y.unit == n.toNat) = none → exec (.perfLevelChangeDone n) s = .next s)

/-- Clock monitors, the reference, the roots and the muxes (R250, R251, R283 to R288, R290, R291): a detector that fires on a source that
passes, for want of edges or at a deviation beyond its limit, marks the source failed, reports it and has what depends on it fail over; a
source that passes again is marked and reported; the root on its own oscillator keeps the reference's rate of time; a mux that finishes
thaws its domain, one whose old clock is dead is forced, and one whose new clock is dead goes back or holds its domain frozen, a rack
output stopping. -/
def Obligations.ClockMonitorRows : Prop :=
  (∀ (x : BitVec 4) (dev : Word) (step : BitVec 16) (diff : Word) (s : State), s.mode = .running → monSource x.toNat = true →
    monOk s x.toNat = true →
    exec (.refNoEdges x dev step diff) s = .next (sourceFailed x.toNat 1 dev step diff (setMon x.toNat 1 dev s))) ∧
  (∀ (x : BitVec 4) (dev : Word) (step : BitVec 16) (diff : Word) (s : State), s.mode = .running → monSource x.toNat = true →
    monOk s x.toNat = true → monLimit s x.toNat < dev.toInt.natAbs →
    exec (.refFrequencyFault x dev step diff) s = .next (sourceFailed x.toNat 2 dev step diff (setMon x.toNat 2 dev s))) ∧
  (∀ (x : BitVec 4) (dev : Word) (step : BitVec 16) (diff : Word) (s : State), s.mode = .running → 8 ≤ x.toNat → monOk s x.toNat = true →
    exec (.refNoEdges x dev step diff) s = .next (tileRootFailover (x.toNat - 8) 1 dev (setMon x.toNat 1 dev s))) ∧
  (∀ (x : BitVec 4) (dev : Word) (step : BitVec 16) (diff : Word) (s : State),
    (monSource x.toNat = false ∨ monOk s x.toNat = false ∨ dev.toInt.natAbs ≤ monLimit s x.toNat) →
    exec (.refFrequencyFault x dev step diff) s = .next s) ∧
  (∀ (x : BitVec 4) (dev : Word) (step : BitVec 16) (diff : Word) (s : State), (monSource x.toNat = false ∨ monOk s x.toNat = false) →
    exec (.refNoEdges x dev step diff) s = .next s) ∧
  (∀ (x : BitVec 4) (dev : Word) (s : State), s.mode = .running → monSource x.toNat = true → monOk s x.toNat = false →
    dev.toInt.natAbs ≤ monLimit s x.toNat → exec (.monitorPass x dev) s = .next (setMon x.toNat 0 dev s)) ∧
  (∀ (x : BitVec 4) (dev : Word) (s : State), (monSource x.toNat = false ∨ monOk s x.toNat = true ∨ monLimit s x.toNat < dev.toInt.natAbs) →
    exec (.monitorPass x dev) s = .next s) ∧
  (∀ (s : State), s.mode = .running → exec .refSlewEnd s = .next (wrB refSelR 5 false s)) ∧
  (∀ (d : BitVec 16) (s : State), s.mode = .running → rootInput s = 0 → selectorOk s = true → chainAddr s = none →
    exec (.deviceTimeCorrection d) s = .next (setTime (BitVec.ofInt 64 (s.time.toNat + d.toInt)) s)) ∧
  (∀ (d : BitVec 16) (s : State), (rootInput s ≠ 0 ∨ selectorOk s = false ∨ chainAddr s ≠ none) →
    exec (.deviceTimeCorrection d) s = .next s) ∧
  (∀ (t : Tile) (s : State), s.mode = .running → rdB s (tileClkStatusR t.toNat) 0 = true → monOk s (8 + t.toNat) = true →
    exec (.tileRootReturn t) s = .next (failoverEvent 2 0 0 0 (unitTile t.toNat) (muxSwitch 2 t.toNat 1 0 s))) ∧
  (∀ (t : Tile) (s : State), (rdB s (tileClkStatusR t.toNat) 0 = false ∨ monOk s (8 + t.toNat) = false) →
    exec (.tileRootReturn t) s = .next s) ∧
  (∀ (dev : Word) (s : State) (c : Nat), s.mode = .running → c = rdF s clkRootSrcR 5 5 → monOk s (3 + c) = true →
    exec (.aonCoreFailover dev) s = .next (sourceFailed (3 + c) 1 dev 0 0 (setMon (3 + c) 1 dev s))) ∧
  (∀ (dev : Word) (s : State) (c : Nat), s.mode = .running → c = rdF s clkRootSrcR 5 5 → monOk s (3 + c) = false →
    exec (.aonCoreFailover dev) s = .next (coreFailover dev s)) ∧
  (∀ (mux : Fin 6) (l : Pair) (s : State) (m : MuxSwitch), muxFind s mux.val l.toNat = some m →
    exec (.muxSwitchDone mux l) s = .next (muxEnd m m.new (muxThaw mux.val l.toNat s)) ∧
    exec (.muxWatchdogForce mux l) s = .next (muxEnd m m.new (muxThaw mux.val l.toNat (muxForced mux.val l.toNat 1 s))) ∧
    exec (.muxNewDead mux l true) s =
      .next (muxEnd m m.old (muxThaw mux.val l.toNat (muxSet mux.val l.toNat m.old (muxForced mux.val l.toNat 2 s))))) ∧
  (∀ (mux : Fin 6) (l : Pair) (s u v : State) (m : MuxSwitch), muxFind s mux.val l.toNat = some m → mux.val ≠ 5 →
    u = muxForced mux.val l.toNat 2 s →
    v = { u with muxFrozen := (mux.val, l.toNat) :: u.muxFrozen.filter (fun f => f != (mux.val, l.toNat)) } →
    exec (.muxNewDead mux l false) s = .next (muxEnd m m.new (if mux.val = 3 then setFrozen (l.toNat / 8) true v else v))) ∧
  (∀ (l : Pair) (s : State) (m : MuxSwitch), muxFind s 5 l.toNat = some m →
    exec (.muxNewDead 5 l false) s = .next (muxEnd m m.new (muxSet 5 l.toNat 3 (muxForced 5 l.toNat 2 s)))) ∧
  (∀ (mux : Fin 6) (l : Pair) (b : Bool) (s : State), muxFind s mux.val l.toNat = none →
    exec (.muxSwitchDone mux l) s = .next s ∧ exec (.muxWatchdogForce mux l) s = .next s ∧ exec (.muxNewDead mux l b) s = .next s)

/-- The synthesizers by themselves (R239 to R249, R256, R257, R266): loss of lock, margin, the end of a hop, the steering period in each of
its modes, paced small steps, of a port's synthesizer and of a rack PLL, and the ramps. A rack PLL's margin is shown and raises no event
(R282). -/
def Obligations.SynthesizerRows : Prop :=
  (∀ (i : Pll) (s : State), s.mode = .running → 64 ≤ i.val → i.val < 72 → (synOf s i.val).masked = false →
    exec (.synthLossOfLock i) s = .next (synHold i.val s)) ∧
  (∀ (i : Pll) (s : State), s.mode = .running → i.val < 64 → (synOf s i.val).masked = false → synState s i.val ≠ 0 → synState s i.val ≠ 4 →
    exec (.synthLossOfLock i) s = .next (portHeld i.val (synHold i.val s))) ∧
  (∀ (i : Pll) (s : State), (72 ≤ i.val ∨ (synOf s i.val).masked = true ∨ synState s i.val = 0 ∨ synState s i.val = 4) →
    exec (.synthLossOfLock i) s = .next s) ∧
  (∀ (i : Pll) (m : Byte) (s u : State), s.mode = .running → i.val < 72 → synState s i.val ≠ 0 →
    u = wrF (synStatusR i.val) 23 16 m.toNat s →
    exec (.synthMarginLow i m) s = .next (
      if m.toNat < 32 then (if (synOf u i.val).marginLow then u
        else raise 0x0201 (unitPll i.val) [] (modSyn i.val (fun x => { x with marginLow := true }) u))
      else if 64 < m.toNat then modSyn i.val (fun x => { x with marginLow := false }) u else u)) ∧
  (∀ (i : Pll) (m : Byte) (s : State), i.val < 72 → synState s i.val = 0 → exec (.synthMarginLow i m) s = .next s) ∧
  (∀ (i : Pll) (m : Byte) (s : State), s.mode = .running → 72 ≤ i.val →
    exec (.synthMarginLow i m) s = .next (wrF (rackBase i.val + 4) 15 8 m.toNat s)) ∧
  (∀ (i : Pll) (band other : BitVec 6) (fresh : Bool) (s : State), s.mode = .running → 64 ≤ i.val → i.val < 72 →
    exec (.synthHopDone i band other fresh) s = .next (synHopDone i.val band.toNat other.toNat fresh s)) ∧
  (∀ (i : Pll) (band other : BitVec 6) (fresh : Bool) (s t : State), s.mode = .running → i.val < 64 →
    t = synHopDone i.val band.toNat other.toNat fresh s →
    exec (.synthHopDone i band other fresh) s = .next (lineMuxes i.val (if (synOf t i.val).auto then hopBack i.val t else t))) ∧
  (∀ (i : Pll) (band other : BitVec 6) (fresh : Bool) (s : State), 72 ≤ i.val → exec (.synthHopDone i band other fresh) s = .next s) ∧
  (∀ (p : Port) (q : BitVec 15) (s u t : State) (im phim : Rat), s.mode = .running → synState s p.toNat = 2 →
    ((im, phim), u) = periodMeans p.toNat (rotatePairs p.toNat s) → t = periodBegin p.toNat u → steerMode t p.toNat = 2 →
    exec (.steeringPeriod p q) s = .next (steerBy p.toNat (trackStep t p.toNat im phim) (offsetTiming p.toNat im
      (setOffset p.toNat (steerOffset t p.toNat (synSteer t p.toNat) im) t)))) ∧
  (∀ (p : Port) (q : BitVec 15) (s u t : State) (im phim : Rat), s.mode = .running → synState s p.toNat = 2 →
    ((im, phim), u) = periodMeans p.toNat (rotatePairs p.toNat s) → t = periodBegin p.toNat u → steerMode t p.toNat = 3 →
    exec (.steeringPeriod p q) s =
      .next (offsetTiming p.toNat im (setOffset p.toNat (steerOffset t p.toNat (synSteer t p.toNat) im) t))) ∧
  (∀ (p : Port) (q : BitVec 15) (s u t v : State) (im phim : Rat), s.mode = .running → synState s p.toNat = 2 →
    ((im, phim), u) = periodMeans p.toNat (rotatePairs p.toNat s) → t = periodBegin p.toNat u → steerMode t p.toNat = 4 →
    v = steerBy p.toNat (compatStep t p.toNat q.toNat) t →
    exec (.steeringPeriod p q) s = .next (setOffset p.toNat (steerOffset v p.toNat (synSteer v p.toNat) 0) v)) ∧
  (∀ (p : Port) (q : BitVec 15) (s u t : State) (im phim : Rat), s.mode = .running → synState s p.toNat = 2 →
    ((im, phim), u) = periodMeans p.toNat (rotatePairs p.toNat s) → t = periodBegin p.toNat u →
    (steerMode t p.toNat ≤ 1 ∨ 5 ≤ steerMode t p.toNat) → exec (.steeringPeriod p q) s = .next t) ∧
  (∀ (p : Port) (q : BitVec 15) (s : State), synState s p.toNat ≠ 2 → exec (.steeringPeriod p q) s = .next s) ∧
  (∀ (i : Pll) (s u : State) (e : Nat) (d : Int) (q : List (Nat × Int)), s.mode = .running → (synOf s i.val).steps = (e, d) :: q →
    i.val < 72 → u = modSyn i.val (fun x => { x with steps := q }) s → stepRefused u i.val = false →
    exec (.smallStepApplied i) s =
      .next (complete e stOk (leBytes 4 (rd (smallStep i.val d u) (synSteerR i.val)).toNat) (smallStep i.val d u))) ∧
  (∀ (i : Pll) (s u : State) (e : Nat) (d : Int) (q : List (Nat × Int)), s.mode = .running → (synOf s i.val).steps = (e, d) :: q →
    72 ≤ i.val → u = modSyn i.val (fun x => { x with steps := q }) s → stepRefused u i.val = false →
    exec (.smallStepApplied i) s =
      .next (complete e stOk (leBytes 4 (rd (rackStep i.val d u) (rackStepOfs i.val)).toNat) (rackStep i.val d u))) ∧
  (∀ (i : Pll) (s u : State) (e : Nat) (d : Int) (q : List (Nat × Int)), s.mode = .running → (synOf s i.val).steps = (e, d) :: q →
    u = modSyn i.val (fun x => { x with steps := q }) s → stepRefused u i.val = true →
    exec (.smallStepApplied i) s = .next (complete e stRefused [] u)) ∧
  (∀ (i : Pll) (s : State), (synOf s i.val).steps = [] → exec (.smallStepApplied i) s = .next s) ∧
  (∀ (p : Port) (s u : State), s.mode = .running → (portOf s p.toNat).ramp = true →
    u = smallStep p.toNat (towardZero (synSteer s p.toNat)) s →
    exec (.steerRamp p) s = .next (if synSteer u p.toNat = 0 then modPort p.toNat (fun x => { x with ramp := false }) u else u)) ∧
  (∀ (p : Port) (s : State), (portOf s p.toNat).ramp = false → exec (.steerRamp p) s = .next s) ∧
  (∀ (p : Port) (s u : State) (z d : Int), s.mode = .running → u = remeasured p.toNat s → (synOf u p.toNat).acquire = some z →
    d = max (-(2 ^ 20)) (min (2 ^ 20) z) →
    exec (.acquireRamp p) s = .next (modSyn p.toNat (fun x => { x with acquire := if z = d then none else some (z - d) })
      (smallStep p.toNat d u))) ∧
  (∀ (p : Port) (s : State), s.mode = .running → (synOf (remeasured p.toNat s) p.toNat).acquire = none →
    exec (.acquireRamp p) s = .next (remeasured p.toNat s))

/-- The rack clock by itself (R264, R265, R269, R272 to R274, R277, R278): a PLL whose input fails holds over and one that unlocks is
UNLOCKED, and the outputs of either are bypassed; it returns to LOCKED; outputs on a bypass input that fails stop; a hop ends on its slot,
with the band that was searched; a clapper edge restarts the armed outputs that run, each with its spread at the top, SYNCED and disarmed,
is rejected within 1 µs of the last, is passed over while the clapper is off, and wakes a PD_RACKCLK that does not run; a tile that
followed an output rides through. -/
def Obligations.RackRows : Prop :=
  (∀ (i : Pll) (s : State), s.mode = .running → rackPll i.val = true → (rackState s i.val = 3 ∨ rackState s i.val = 6) →
    rackInputOk s i.val = false →
    exec (.rackPllRefLost i) s = .next (outputBypass i.val 2
      (raise 0x0300 (unitPll i.val) [] (count (rackBase i.val + 0x14) 1 (setRackState i.val 5 s))))) ∧
  (∀ (i : Pll) (s : State), s.mode = .running → rackPll i.val = true → rackState s i.val = 5 → rackInputOk s i.val = true →
    exec (.rackPllRefReturn i) s = .next (outsRun i.val (setRackState i.val 3 s))) ∧
  (∀ (i : Pll) (s : State), s.mode = .running → rackPll i.val = true → (rackState s i.val = 3 ∨ rackState s i.val = 5) →
    exec (.rackPllUnlock i) s = .next (outputBypass i.val 1
      (raise 0x0301 (unitPll i.val) [] (count (rackBase i.val + 0x10) 1 (setRackState i.val 6 s))))) ∧
  (∀ (i : Pll) (s : State), s.mode = .running → rackPll i.val = true → rackState s i.val = 6 →
    exec (.rackPllRelock i) s = .next (outsRun i.val (setRackState i.val 3 s))) ∧
  (∀ (i : Pll) (s : State), rackPll i.val = false → exec (.rackPllRefLost i) s = .next s ∧ exec (.rackPllRefReturn i) s = .next s ∧
    exec (.rackPllUnlock i) s = .next s ∧ exec (.rackPllRelock i) s = .next s) ∧
  (∀ (src : BitVec 2) (s u : State) (n : Nat) (q : List Nat), s.mode = .running → bypassOk s src.toNat = false →
    (pllOuts s 72).filter (fun n => outState s n == 2 && bypSrc s n == src.toNat) = n :: q →
    u = bypassEvent 72 (rdF s (outStatus n) 7 6) (each (n :: q) (fun n s => setOutState n 3 s) s) →
    (pllOuts u 73).filter (fun n => outState u n == 2 && bypSrc u n == src.toNat) = [] →
    exec (.bypassInputFail src) s = .next u) ∧
  (∀ (src : BitVec 2) (s : State) (n : Nat) (q : List Nat), s.mode = .running → bypassOk s src.toNat = false →
    (pllOuts s 72).filter (fun n => outState s n == 2 && bypSrc s n == src.toNat) = [] →
    (pllOuts s 73).filter (fun n => outState s n == 2 && bypSrc s n == src.toNat) = n :: q →
    exec (.bypassInputFail src) s = .next (bypassEvent 73 (rdF s (outStatus n) 7 6) (each (n :: q) (fun n s => setOutState n 3 s) s))) ∧
  (∀ (src : BitVec 2) (s u : State) (n k : Nat) (q r : List Nat), s.mode = .running → bypassOk s src.toNat = false →
    (pllOuts s 72).filter (fun n => outState s n == 2 && bypSrc s n == src.toNat) = n :: q →
    u = bypassEvent 72 (rdF s (outStatus n) 7 6) (each (n :: q) (fun n s => setOutState n 3 s) s) →
    (pllOuts u 73).filter (fun n => outState u n == 2 && bypSrc u n == src.toNat) = k :: r →
    exec (.bypassInputFail src) s = .next (bypassEvent 73 (rdF u (outStatus k) 7 6) (each (k :: r) (fun n s => setOutState n 3 s) u))) ∧
  (∀ (src : BitVec 2) (s : State), bypassOk s src.toNat = true → exec (.bypassInputFail src) s = .next s) ∧
  (∀ (i : Pll) (band : BitVec 6) (s : State) (x : SynSt), s.mode = .running → rackPll i.val = true → rackBusy s i.val = true →
    x = synOf s i.val → x.search = false → x.enabling = false →
    exec (.rackHopDone i band false) s = .next (hopEnd x.hopTag false (outsRun i.val (modSyn i.val
      (fun y => { y with search := false, enabling := false, hopTag := none })
      (count (rackBase i.val + 0x18) 1 (wrF (rackStatus i.val) 7 4 x.target (setRackState i.val 3 s))))))) ∧
  (∀ (i : Pll) (band : BitVec 6) (fresh : Bool) (s u v : State) (x : SynSt), s.mode = .running → rackPll i.val = true →
    rackBusy s i.val = true → x = synOf s i.val → (x.search = true ∨ fresh = true) →
    u = wrF (rackStatus i.val) 7 4 x.target (setRackState i.val 3
      (wrB (rackSlotR i.val x.target) 28 true (wrF (rackSlotR i.val x.target) 27 22 band.toNat s))) →
    v = (if x.enabling then u else count (rackBase i.val + 0x1C) 1 (count (rackBase i.val + 0x18) 1 u)) →
    exec (.rackHopDone i band fresh) s = .next (hopEnd x.hopTag true (outsRun i.val (modSyn i.val
      (fun y => { y with search := false, enabling := false, hopTag := none }) v)))) ∧
  (∀ (i : Pll) (band : BitVec 6) (fresh : Bool) (s : State), (rackPll i.val = false ∨ rackBusy s i.val = false) →
    exec (.rackHopDone i band fresh) s = .next s) ∧
  (∀ (s u : State) (outs : List Nat), s.mode = .running → domRuns s 78 = true → rdB s clapCtlR 0 = true →
    s.lastClap.all (fun t => decide (1000 ≤ (s.time - t).toNat)) = true → outs = (List.range 16).filter
      (fun n => rdB s (outBase n) 6 && outUsed s n && outState s n == 1) →
    u = each outs (fun n s => each (followers s n)
      (fun t s => if hostSynLocked s t then tileLanesLost t (modSyn (64 + t) (fun x => { x with masked := true }) s) else s)
      (wrB (outStatus n) 3 true (wrB (outBase n) 6 false (spreadTop n s)))) { s with lastClap := some s.time } →
    exec .clapperPulse s = .next (raise 0x0303 unitDev (leBytes 2 (outs.foldl (fun m n => m + 2 ^ n) 0)) (count clapInCntR 1 u))) ∧
  (∀ (s : State) (t : BitVec 64), s.mode = .running → domRuns s 78 = true → rdB s clapCtlR 0 = true → s.lastClap = some t →
    (s.time - t).toNat < 1000 →
    exec .clapperPulse s = .next (raise 0x0304 unitDev [] (count clapRejectR 1 { s with lastClap := some s.time }))) ∧
  (∀ (s : State), s.mode = .running → domRuns s 78 = false → exec .clapperPulse s = .next (beginWake 78 s)) ∧
  (∀ (s : State), domRuns s 78 = true → rdB s clapCtlR 0 = false → exec .clapperPulse s = .next s) ∧
  (∀ (t : Tile) (s : State), exec (.clapperRideThroughEnd t) s = .next (if (synOf s (64 + t.toNat)).masked then
    tileLanesRun t.toNat (modSyn (64 + t.toNat) (fun x => { x with masked := false }) s) else s))

/-- The transmit side of a pair (R31, R37 to R44, R71, R81, R84, R113, R124, R177, R240): the next superframe, with what training, a cut,
quiet and the audit do at its start (the order of the cut before the injection is the model's, log 153), the exchanges of a decided cut, a
COMPAT period, a row, an underrun and an overflow. Rows count in a superframe without a body too. A row that carries the stream takes a
fill count that the level of its queue admits (which of these the control takes, and the bits that arrive, are free values, log 48); one
that does not is all fill. A pair whose line domain is frozen, or that does not transmit, does nothing; a quiet pair holds its queue empty
and drops nothing. -/
def Obligations.TransmitRows : Prop :=
  (∀ (l : Pair) (bad : BitVec 2) (lpi : Bool) (s u v w : State) (m : Nat), s.mode = .running → (pairOf s l.toNat).txOn = true →
    lineFrozen s l.toNat = false → m = (linkOfPair s l.toNat).getD l.toNat →
    u = trainStart l.toNat m (modPair l.toNat (fun p => { p with sf := p.sf + 1, ownLpi := lpi, farLpiLast := p.farLpi }) s) →
    (pairOf u l.toNat).txOn = true →
    v = modPair l.toNat (fun p => { p with farLpi := p.sfLock }) (sendSlate l.toNat (quietStart l.toNat m (partnerTxStart l.toNat m
      (cutDecide l.toNat (bad.getLsbD 1) u)))) →
    w = (if (linkOf v m).state = .leaving ∧ bitGet (pairOf v l.toNat).sf 0 = false ∧ (activePairs v m).head? = some l.toNat then
      modLink m (fun x => { x with evenCounts := x.evenCounts + 1 }) v else v) →
    exec (.superframeStart l bad lpi) s = .next (bankAudit l.toNat (bad.getLsbD 0) (fillRequest l.toNat w))) ∧
  (∀ (l : Pair) (bad : BitVec 2) (lpi : Bool) (s u : State) (m : Nat), s.mode = .running → (pairOf s l.toNat).txOn = true →
    lineFrozen s l.toNat = false → m = (linkOfPair s l.toNat).getD l.toNat →
    u = trainStart l.toNat m (modPair l.toNat (fun p => { p with sf := p.sf + 1, ownLpi := lpi, farLpiLast := p.farLpi }) s) →
    (pairOf u l.toNat).txOn = false → exec (.superframeStart l bad lpi) s = .next u) ∧
  (∀ (l : Pair) (bad : BitVec 2) (lpi : Bool) (s : State), ((pairOf s l.toNat).txOn = false ∨ lineFrozen s l.toNat = true) →
    exec (.superframeStart l bad lpi) s = .next s ∧ exec (.rowStart l lpi) s = .next s) ∧
  (∀ (l : Pair) (s : State) (x : Exchange), s.mode = .running → (pairOf s l.toNat).exch = some x → lineFrozen s l.toNat = false →
    exec (.txBankExchange l) s = .next (modPair l.toNat exchangeTx s) ∧
    exec (.rxAnalogExchange l) s = .next (modPair l.toNat exchangeAna s) ∧
    exec (.rxDigitalExchange l) s = .next (modPair l.toNat exchangeDig s)) ∧
  (∀ (l : Pair) (s : State), ((pairOf s l.toNat).exch = none ∨ lineFrozen s l.toNat = true) →
    exec (.txBankExchange l) s = .next s ∧ exec (.rxAnalogExchange l) s = .next s ∧ exec (.rxDigitalExchange l) s = .next s) ∧
  (∀ (p : Port) (bad badNext : BitVec 8) (s u : State), s.mode = .running → (portOf s p.toNat).periodOn = true →
    lineFrozen s (8 * p.toNat) = false → u = modPort p.toNat (fun x => { x with period := x.period + 1 }) s →
    exec (.compatPeriodBoundary p bad badNext) s = .next (each (compatPairs u p.toNat) (fun l s =>
      bankAudit l (bad.getLsbD (l % 8)) (fillRequest l (modPair l exchangeAll (cutDecide l (badNext.getLsbD (l % 8)) s)))) u)) ∧
  (∀ (p : Port) (bad badNext : BitVec 8) (s : State), ((portOf s p.toNat).periodOn = false ∨ lineFrozen s (8 * p.toNat) = true) →
    exec (.compatPeriodBoundary p bad badNext) s = .next s) ∧
  (∀ (l : Pair) (lpi : Bool) (s : State) (m : Nat), s.mode = .running → (pairOf s l.toNat).txOn = true → lineFrozen s l.toNat = false →
    m = (linkOfPair s l.toNat).getD l.toNat → sendsBody s l.toNat m = false →
    exec (.rowStart l lpi) s = .next (modPair l.toNat (fun p => { p with row := (p.row + 1) % 8224, queue := 0 }) s)) ∧
  (∀ (l : Pair) (lpi : Bool) (s : State) (m : Nat) (p : PairSt) (up a i : Bool), s.mode = .running → p = pairOf s l.toNat → p.txOn = true →
    lineFrozen s l.toNat = false → m = (linkOfPair s l.toNat).getD l.toNat → sendsBody s l.toNat m = true →
    up = ((linkOf s m).state == .up || digitalLoop s m) →
    a = (if p.quiet then false else !up || (if remoteLoop s m then p.rxAbsent else p.absent || p.xqOff)) →
    i = (p.quiet || (up && (if remoteLoop s m then p.rxLpi else lpi))) → (a = true ∨ p.quiet = true) →
    exec (.rowStart l lpi) s = .next (perfTally (l.toNat / 64) 0x29 (pairUnit l.toNat) 0 (modPair l.toNat (fun x => { x with
      row := (x.row + 1) % 8224,
      fill := 254,
      queue := 0,
      underrun := false,
      header := rowHeader 254 p.row (l.toNat % 8) a i p.underrun }) s))) ∧
  (∀ (l : Pair) (lpi : Bool) (s u : State) (x : BitVec 64) (m f q : Nat) (p : PairSt), s.mode = .running → p = pairOf s l.toNat →
    p.txOn = true → lineFrozen s l.toNat = false → m = (linkOfPair s l.toNat).getD l.toNat → sendsBody s l.toNat m = true →
    p.quiet = false → ((linkOf s m).state = .up ∨ digitalLoop s m = true) →
    (if remoteLoop s m then p.rxAbsent else p.absent || p.xqOff) = false → (x, u) = draw 7 s →
    (f, q) = rowFill p.queue (x.toNat % 32768) (x.toNat / 32768) →
    exec (.rowStart l lpi) s = .next (perfTally (l.toNat / 64) 0x29 (pairUnit l.toNat) (254 - f) (modPair l.toNat (fun x => { x with
      row := (x.row + 1) % 8224,
      fill := f,
      queue := q,
      underrun := false,
      header := rowHeader f p.row (l.toNat % 8) false (if remoteLoop s m then p.rxLpi else lpi) p.underrun }) u))) ∧
  (∀ (l : Pair) (s : State), s.mode = .running →
    exec (.txUnderrun l) s = .next (count (txUnderrunR l.toNat) 1 (modPair l.toNat (fun p => { p with underrun := true, queue := 0 }) s))) ∧
  (∀ (l : Pair) (n : BitVec 16) (s : State), s.mode = .running → (pairOf s l.toNat).quiet = false → (pairOf s l.toNat).xqOff = false →
    exec (.gbxOverflow l n) s = .next (raise 0x0602 (pairUnit l.toNat) [] (count (gbxOverflowR l.toNat) n.toNat
      (modPair l.toNat (fun p => { p with queue := 16384 }) s)))) ∧
  (∀ (l : Pair) (n : BitVec 16) (s : State), ((pairOf s l.toNat).quiet = true ∨ (pairOf s l.toNat).xqOff = true) →
    exec (.gbxOverflow l n) s = .next s)

/-- Superframe lock, row headers and the wake from quiet (R36, R42, R150, R172, R178): a sync word found twice at the right spacing locks,
the third miss in a row unlocks, a word of the locked polarity latches its level; a header's row is decoded and counted (R184; that a row
is counted at its header, with free samples, is the model's, log 136), its fill count and flags are taken, an unreadable one is counted as
lost; at row 0 the descrambler is seeded from the own superframe count and the partner's pair index (R41); a quiet pair wakes, or wakes by
a readable header of the expected row. A pair that hears nothing keeps its state, but for a wake of its line by a sync word. Measurements
of a pair (R74, R185 to R187): an error power that counts, of a pair of a link in TRAIN or UP on its running clock (FDX in superframe lock
and not quiet, or in a refresh; COMPAT on a receive pair), enters the SNR registers; one that does not changes nothing; the interpolator's
limit holds the phase and is counted, and the first symbol of an excursion is reported. -/
def Obligations.ReceiveAndMeasurementRows : Prop :=
  (∀ (l : Pair) (n : BitVec 7) (sp : Bool) (ms : Word) (s : State), hears s l.toNat = none →
    exec (.syncWordReceived l n sp ms) s = .next (lineWake l.toNat s) ∧ exec (.sfLockLoss l) s = .next s) ∧
  (∀ (l : Pair) (n : BitVec 7) (sp : Bool) (ms : Word) (s : State) (m : Nat), hears s l.toNat = some m →
    (pairOf s l.toNat).sfLock = false → 8 < n.toNat → n.toNat < 56 → exec (.syncWordReceived l n sp ms) s = .next s) ∧
  (∀ (l : Pair) (n : BitVec 7) (sp inv : Bool) (ms : Word) (s u : State) (m : Nat), hears s l.toNat = some m →
    (pairOf s l.toNat).sfLock = false → (inv = false ∧ 56 ≤ n.toNat ∨ inv = true ∧ n.toNat ≤ 8) →
    u = (if (pairOf s l.toNat).found = some inv ∧ sp = true then sfGain l.toNat m inv s
      else modPair l.toNat (fun p => { p with found := some inv }) s) →
    exec (.syncWordReceived l n sp ms) s =
      .next (if trainOrUp (linkOf u m).state then latchLevel l.toNat 1 ms.toNat (pairOf s l.toNat).sf u else u)) ∧
  (∀ (l : Pair) (n : BitVec 7) (sp : Bool) (ms : Word) (s : State) (m : Nat) (p : PairSt), hears s l.toNat = some m →
    p = pairOf s l.toNat → p.sfLock = true → (p.inverted = false ∧ 56 ≤ n.toNat ∨ p.inverted = true ∧ n.toNat ≤ 8) →
    exec (.syncWordReceived l n sp ms) s = .next (modPair l.toNat (fun p => { p with missed := 0 })
      (if trainOrUp (linkOf s m).state then latchLevel l.toNat 1 ms.toNat p.sf s else s))) ∧
  (∀ (l : Pair) (n : BitVec 7) (sp : Bool) (ms : Word) (s : State) (m : Nat) (p : PairSt), hears s l.toNat = some m →
    p = pairOf s l.toNat → p.sfLock = true → (p.inverted = false ∧ n.toNat < 56 ∨ p.inverted = true ∧ 8 < n.toNat) →
    exec (.syncWordReceived l n sp ms) s =
      .next (if p.missed < 2 then modPair l.toNat (fun p => { p with missed := p.missed + 1 }) s else sfLoss l.toNat m s)) ∧
  (∀ (l : Pair) (s : State) (m : Nat), hears s l.toNat = some m →
    exec (.sfLockLoss l) s = .next (if (pairOf s l.toNat).sfLock then sfLoss l.toNat m s else s)) ∧
  (∀ (l : Pair) (r : BitVec 14) (h : BitVec 120) (s u v w x y : State) (m : Nat), hears s l.toNat = some m →
    (pairOf s l.toNat).sfLock = true → (trainOrUp (linkOf s m).state || digitalLoop s m) = true →
    u = (if digitalLoop s m then countWide (innerCwR l.toNat) 64 255 s else innerRow l.toNat s) →
    v = (if r = 0 then modPair l.toNat (fun p => { p with rxScr := scramblerSeed p.farPair p.sf }) u else u) →
    w = (match headerRead h with
      | some (f, _) => modPair l.toNat (fun p => { p with rxFill := f, rxRow := r.toNat }) v
      | none => count (rowHdrLostR l.toNat) 1 (modPair l.toNat (fun p => { p with rxRow := r.toNat, rowLost := p.rowLost ||
          ((linkOf v m).phase == 4 && !sfFuture (linkOf v m).phaseSf p.sf) }) v)) →
    x = perfTally (l.toNat / 64) 0x2A (pairUnit l.toNat) (254 - (pairOf w l.toNat).rxFill) w →
    y = modPair l.toNat (fun p => { p with farLpi := p.farLpi && p.rxLpi }) (match headerFlags h with
      | some (a, i, b) => rxFlags l.toNat a i b x
      | none => x) →
    exec (.rowHeaderReceived l r h) s = .next (if (pairOf y l.toNat).quiet && (headerRead h).any (fun g => g.2 == r.toNat)
      && !((pairOf y l.toNat).refreshing && (pairOf y l.toNat).rxLpi) then quietWake l.toNat y else y)) ∧
  (∀ (l : Pair) (r : BitVec 14) (h : BitVec 120) (s : State), (hears s l.toNat = none ∨ (pairOf s l.toNat).sfLock = false) →
    exec (.rowHeaderReceived l r h) s = .next s) ∧
  (∀ (l : Pair) (s : State), s.mode = .running → (pairOf s l.toNat).quiet = true →
    exec (.quietWake l) s = .next (count (quietWakeR l.toNat) 1 (breakDue l.toNat (modPair l.toNat (fun p => { p with
      quiet := false,
      rsOpen := true,
      refreshing := false,
      quietReq := none,
      quietAns := none,
      quietAnsDue := false }) s)))) ∧
  (∀ (l : Pair) (s : State), (pairOf s l.toNat).quiet = false → exec (.quietWake l) s = .next s) ∧
  (∀ (l : Pair) (e : BitVec 48) (s : State) (m : Nat), s.mode = .running → linkOfPair s l.toNat = some m → lineRuns s l.toNat = true →
    (activePairs s m).contains l.toNat = true → trainOrUp (linkOf s m).state = true →
    (isFdx (modeOf s m) = true → (pairOf s l.toNat).sfLock = true ∧ ((pairOf s l.toNat).quiet = false ∨ (pairOf s l.toNat).refreshing = true)) →
    (isCompat (modeOf s m) = true → txPair s l.toNat = false) →
    exec (.snrMeasurement l e true) s = .next (snrTake l.toNat m e.toNat s)) ∧
  (∀ (l : Pair) (e : BitVec 48) (s : State), exec (.snrMeasurement l e false) s = .next s) ∧
  (∀ (l : Pair) (e : BitVec 48) (s : State) (m : Nat), linkOfPair s l.toNat = some m →
    (lineRuns s l.toNat = false ∨ (activePairs s m).contains l.toNat = false ∨ trainOrUp (linkOf s m).state = false ∨
      (isFdx (modeOf s m) = true ∧ ((pairOf s l.toNat).sfLock = false ∨ ((pairOf s l.toNat).quiet = true ∧ (pairOf s l.toNat).refreshing = false))) ∨
      (isCompat (modeOf s m) = true ∧ txPair s l.toNat = true)) →
    exec (.snrMeasurement l e true) s = .next s) ∧
  (∀ (l : Pair) (high : Bool) (n : Word) (s : State), s.mode = .running →
    exec (.interpLimit l high n false) s =
      .next (count (interpLimitR l.toNat) n.toNat (modPair l.toNat (fun p => { p with phi := if high then 8191 else -8192 }) s)) ∧
    exec (.interpLimit l high n true) s = .next (raise 0x0603 (pairUnit l.toNat) []
      (count (interpLimitR l.toNat) n.toNat (modPair l.toNat (fun p => { p with phi := if high then 8191 else -8192 }) s))))

/-- Slate messages (R46, R48, R49, R115 to R120, R172, R176): on a pair in superframe lock, a message that fails its CRC or has a reserved
type is counted, one that is not of the row's type is passed over, and a COUNT, a notice, an acknowledgement, an identity and a quiet
message do what their rules say; a COUNT is compared before it makes the link depart, and one that finds a master listening on the join
road starts its training. A pair without superframe lock receives none. -/
def Obligations.SlateRows : Prop :=
  (∀ (l : Pair) (msg : BitVec 64) (off : BitVec 7) (s : State), (hears s l.toNat = none ∨ (pairOf s l.toNat).sfLock = false) →
    exec (.countReceived l msg off) s = .next s ∧ exec (.cutNoticeReceived l msg) s = .next s ∧ exec (.cutAckReceived l msg) s = .next s ∧
    exec (.identityReceived l msg) s = .next s ∧ exec (.quietMessageReceived l msg) s = .next s) ∧
  (∀ (l : Pair) (msg : BitVec 64) (off : BitVec 7) (s : State) (m : Nat), hears s l.toNat = some m → (pairOf s l.toNat).sfLock = true →
    slateCrcOk msg = false →
    exec (.countReceived l msg off) s = .next (count (slateMsgErrR l.toNat) 1 s) ∧
    exec (.cutNoticeReceived l msg) s = .next (count (slateMsgErrR l.toNat) 1 s) ∧
    exec (.cutAckReceived l msg) s = .next (count (slateMsgErrR l.toNat) 1 s) ∧
    exec (.identityReceived l msg) s = .next (count (slateMsgErrR l.toNat) 1 s) ∧
    exec (.quietMessageReceived l msg) s = .next (count (slateMsgErrR l.toNat) 1 s)) ∧
  (∀ (l : Pair) (msg : BitVec 64) (off : BitVec 7) (s : State) (m : Nat), hears s l.toNat = some m → (pairOf s l.toNat).sfLock = true →
    slateCrcOk msg = true → (slateType msg = 0 ∨ 7 ≤ slateType msg) →
    exec (.countReceived l msg off) s = .next (count (slateMsgUnknownR l.toNat) 1 s) ∧
    exec (.cutNoticeReceived l msg) s = .next (count (slateMsgUnknownR l.toNat) 1 s) ∧
    exec (.cutAckReceived l msg) s = .next (count (slateMsgUnknownR l.toNat) 1 s) ∧
    exec (.identityReceived l msg) s = .next (count (slateMsgUnknownR l.toNat) 1 s) ∧
    exec (.quietMessageReceived l msg) s = .next (count (slateMsgUnknownR l.toNat) 1 s)) ∧
  (∀ (l : Pair) (msg : BitVec 64) (off : BitVec 7) (s : State) (m : Nat), hears s l.toNat = some m → (pairOf s l.toNat).sfLock = true →
    slateCrcOk msg = true → slateType msg = 1 → trainOrUp (linkOf s m).state = true →
    exec (.countReceived l msg off) s = .next (countActive l.toNat m msg off.toNat s)) ∧
  (∀ (l : Pair) (msg : BitVec 64) (off : BitVec 7) (s : State) (m : Nat), hears s l.toNat = some m → (pairOf s l.toNat).sfLock = true →
    slateCrcOk msg = true → slateType msg = 1 → trainOrUp (linkOf s m).state = false →
    exec (.countReceived l msg off) s = .next (if joinListen (linkOf s m) && !(linkOf s m).slave then
      countActive l.toNat m msg off.toNat (enterTrain m 1 (modPair l.toNat (fun p => { p with detect := 4 }) s)) else s)) ∧
  (∀ (l : Pair) (msg : BitVec 64) (off : BitVec 7) (s : State) (m : Nat), hears s l.toNat = some m → (pairOf s l.toNat).sfLock = true →
    slateCrcOk msg = true → slateType msg = 1 → (linkOf s m).state = .up → slateField msg 43 42 = 3 →
    exec (.countReceived l msg off) s =
      .next (depart m 0x02 0 (if (pairOf s l.toNat).adopted then countCompare l.toNat m (slateSf msg) s else s))) ∧
  (∀ (l : Pair) (msg : BitVec 64) (s : State) (m : Nat), hears s l.toNat = some m → (pairOf s l.toNat).sfLock = true →
    slateCrcOk msg = true → slateType msg = 2 →
    exec (.cutNoticeReceived l msg) s = .next (if trainOrUp (linkOf s m).state then noticeActive l.toNat m msg s else s)) ∧
  (∀ (l : Pair) (msg : BitVec 64) (s : State) (m : Nat), hears s l.toNat = some m → (pairOf s l.toNat).sfLock = true →
    slateCrcOk msg = true → slateType msg = 2 → trainOrUp (linkOf s m).state = true →
    (pairOf s l.toNat).answer.all (fun a => a.sf != slateSf msg || a.seq != slateField msg 39 36) = true →
    (pairOf s l.toNat).cut.all (fun c => !c.coord || !c.sent || c.acked) = true →
    exec (.cutNoticeReceived l msg) s =
      .next (noticeEval l.toNat m (slateSf msg) (slateField msg 39 36) (msg.getLsbD 40) (msg.getLsbD 41) s)) ∧
  (∀ (l : Pair) (msg : BitVec 64) (s : State) (m : Nat) (c : Cut), hears s l.toNat = some m → (pairOf s l.toNat).sfLock = true →
    slateCrcOk msg = true → slateType msg = 3 → trainOrUp (linkOf s m).state = true → (pairOf s l.toNat).cut = some c →
    exec (.cutAckReceived l msg) s = .next (if c.coord = false ∨ c.sf ≠ slateSf msg ∨ c.seq ≠ slateField msg 39 36 then s
      else if msg.getLsbD 40 then modPair l.toNat (fun p => { p with cut := some { c with acked := true } }) s
      else cutMiss l.toNat 0x05 0 slVerified stDisagree s)) ∧
  (∀ (l : Pair) (msg : BitVec 64) (s : State) (m : Nat), hears s l.toNat = some m → (pairOf s l.toNat).sfLock = true →
    slateCrcOk msg = true → slateType msg = 3 → (trainOrUp (linkOf s m).state = false ∨ (pairOf s l.toNat).cut = none) →
    exec (.cutAckReceived l msg) s = .next s) ∧
  (∀ (l : Pair) (msg : BitVec 64) (s : State) (m : Nat), hears s l.toNat = some m → (pairOf s l.toNat).sfLock = true →
    slateCrcOk msg = true → (slateType msg = 4 ∨ slateType msg = 5) →
    exec (.identityReceived l msg) s = .next (modPair l.toNat (fun p =>
      if slateType msg = 4 then { p with identLo := some (BitVec.ofNat 52 (slateField msg 55 4)) }
      else { p with identHi := some (BitVec.ofNat 52 (slateField msg 55 4)) }) s)) ∧
  (∀ (l : Pair) (msg : BitVec 64) (s : State) (m : Nat), hears s l.toNat = some m → (pairOf s l.toNat).sfLock = true →
    slateCrcOk msg = true → slateType msg = 6 → (linkOf s m).state = .up → slateField msg 5 4 = 1 →
    exec (.quietMessageReceived l msg) s =
      .next (quietRequest l.toNat m (BitVec.ofNat 32 (slateField msg 37 6)) (slateField msg 44 38) s)) ∧
  (∀ (l : Pair) (msg : BitVec 64) (s : State) (m : Nat) (q : QuietReq), hears s l.toNat = some m → (pairOf s l.toNat).sfLock = true →
    slateCrcOk msg = true → slateType msg = 6 → (linkOf s m).state = .up → slateField msg 5 4 ≠ 1 → (pairOf s l.toNat).quietReq = some q →
    exec (.quietMessageReceived l msg) s = .next (
      if q.mine = false ∨ q.sf ≠ BitVec.ofNat 32 (slateField msg 37 6) ∨ q.refresh ≠ slateField msg 44 38 then s
      else if slateField msg 5 4 = 2 then modPair l.toNat (fun p => { p with quietReq := some { q with granted := true } }) s
      else if slateField msg 5 4 = 3 then modPair l.toNat (fun p => { p with quietReq := none }) s else s)) ∧
  (∀ (l : Pair) (msg : BitVec 64) (s : State) (m : Nat), hears s l.toNat = some m → (pairOf s l.toNat).sfLock = true →
    slateCrcOk msg = true → slateType msg = 6 →
    ((linkOf s m).state ≠ .up ∨ (slateField msg 5 4 ≠ 1 ∧ (pairOf s l.toNat).quietReq = none)) →
    exec (.quietMessageReceived l msg) s = .next s) ∧
  (∀ (l : Pair) (msg : BitVec 64) (off : BitVec 7) (s : State) (m t : Nat), hears s l.toNat = some m → (pairOf s l.toNat).sfLock = true →
    slateCrcOk msg = true → t = slateType msg → 1 ≤ t → t < 7 →
    (t ≠ 1 → exec (.countReceived l msg off) s = .next s) ∧ (t ≠ 2 → exec (.cutNoticeReceived l msg) s = .next s) ∧
    (t ≠ 3 → exec (.cutAckReceived l msg) s = .next s) ∧ (t ≠ 4 → t ≠ 5 → exec (.identityReceived l msg) s = .next s) ∧
    (t ≠ 6 → exec (.quietMessageReceived l msg) s = .next s))

/-- Negotiation (R146, R150, R152 to R156, R171, R256, R385): a page adds to what its link has heard and makes it negotiate, or is held
while an activation is pending; the resolution starts FDX training in the role that the port has, COMPAT training, or fails as its rule
says; the COMPAT detector marks the pairs it fires on and starts the COMPAT training of a COMPAT link, of its own technology, or of an AUTO
link, of the largest that fits the pairs that fire. A page that no link hears may wake its line; one for a link that does not negotiate
resolves nothing. -/
def Obligations.NegotiationRows : Prop :=
  (∀ (l : Pair) (page : Page) (ms : Word) (s u : State) (m : Nat), s.mode = .running → dmeLink s l.toNat = some m →
    u = modLink m (fun x => { x with beacons := false, offer := offerPage x.offer (l.toNat % 8) page })
      (modPair l.toNat (fun p => { p with detect := 1 }) (latchLevel l.toNat 2 ms.toNat (timeStamp s) s)) →
    exec (.clause73Page l page ms) s = .next (if activationPending u && (linkOf u m).state == .listen then
      modLink m (fun x => { x with firedAs := some 0 }) u else modLink m (fun x => { x with state := .negotiate }) u)) ∧
  (∀ (l : Pair) (page : Page) (ms : Word) (s : State), s.mode = .running → dmeLink s l.toNat = none →
    exec (.clause73Page l page ms) s = .next (lineWake l.toNat s)) ∧
  (∀ (m : Pair) (off : Word) (s : State) (pref : Bool), s.mode = .running → (linkOf s m.toNat).state = .negotiate →
    fdxChoice s m.toNat ≠ 0 → unexpected (linkOf s m.toNat) = false → roleOf s m.toNat = some pref →
    exec (.negotiationResolution m off) s = .next (entryPhase m.toNat (fdxStart m.toNat 1 (portRole s m.toNat pref) off.toInt
      (modLink m.toNat (fun x => { x with
        road := 1,
        runMode := fdxChoice s m.toNat,
        runMask := pairsFrom (m.toNat % 8) (fdxChoice s m.toNat) }) s)))) ∧
  (∀ (m : Pair) (off : Word) (s : State), s.mode = .running → (linkOf s m.toNat).state = .negotiate →
    fdxChoice s m.toNat ≠ 0 → unexpected (linkOf s m.toNat) = true →
    exec (.negotiationResolution m off) s = .next (negotiateFail m.toNat 0x07
      (raise 0x0502 (unitLink m.toNat) (leBytes 8 (linkOf s m.toNat).offer.serial) s))) ∧
  (∀ (m : Pair) (off : Word) (s : State), s.mode = .running → (linkOf s m.toNat).state = .negotiate →
    fdxChoice s m.toNat ≠ 0 → unexpected (linkOf s m.toNat) = false → roleOf s m.toNat = none →
    exec (.negotiationResolution m off) s = .next (roleConflict m.toNat 1 s)) ∧
  (∀ (m : Pair) (off : Word) (s : State), s.mode = .running → (linkOf s m.toNat).state = .negotiate →
    fdxChoice s m.toNat = 0 → compatChoice s m.toNat ≠ 0 →
    exec (.negotiationResolution m off) s = .next (compatStart m.toNat 4 (compatChoice s m.toNat) s)) ∧
  (∀ (m : Pair) (off : Word) (s : State), s.mode = .running → (linkOf s m.toNat).state = .negotiate →
    fdxChoice s m.toNat = 0 → compatChoice s m.toNat = 0 →
    exec (.negotiationResolution m off) s = .next (negotiateFail m.toNat 0x0A s)) ∧
  (∀ (m : Pair) (off : Word) (s : State), (linkOf s m.toNat).state ≠ .negotiate → exec (.negotiationResolution m off) s = .next s) ∧
  (∀ (m : Pair) (f : BitVec 8) (s u : State) (x : LinkSt) (n : Nat), s.mode = .running → x = linkOf s m.toNat → x.state = .listen → f ≠ 0 →
    u = each ((linkPairs s m.toNat).filter (fun l => f.getLsbD (l % 8) && lineRuns s l))
      (fun l s => modPair l (fun p => { p with detect := 3 }) s) s →
    isCompat x.mode = true → x.mode ≠ 0x80 → n = x.mode - 0x10 → n ≠ 0 →
    (linkPairs u m.toNat).any (fun l => !txPair u l && f.getLsbD (l % 8)) = true →
    exec (.compatParallelDetect m f) s = .next (if activationPending u then modLink m.toNat (fun x => { x with firedAs := some n }) u
      else compatStart m.toNat 5 n u)) ∧
  (∀ (m : Pair) (f : BitVec 8) (s u : State) (x : LinkSt) (c n : Nat), s.mode = .running → x = linkOf s m.toNat → x.state = .listen → f ≠ 0 →
    u = each ((linkPairs s m.toNat).filter (fun l => f.getLsbD (l % 8) && lineRuns s l))
      (fun l s => modPair l (fun p => { p with detect := 3 }) s) s →
    x.mode = 0x80 → c = firedRun u m.toNat f → n = (if c = 4 then 4 else if 2 ≤ c then 2 else c) → n ≠ 0 →
    exec (.compatParallelDetect m f) s = .next (if activationPending u then modLink m.toNat (fun x => { x with firedAs := some n }) u
      else compatStart m.toNat 5 n u)) ∧
  (∀ (m : Pair) (f : BitVec 8) (s u : State) (x : LinkSt), s.mode = .running → x = linkOf s m.toNat → x.state = .listen → f ≠ 0 →
    u = each ((linkPairs s m.toNat).filter (fun l => f.getLsbD (l % 8) && lineRuns s l))
      (fun l s => modPair l (fun p => { p with detect := 3 }) s) s →
    ((isCompat x.mode = false ∧ x.mode ≠ 0x80) ∨ (x.mode = 0x80 ∧ firedRun u m.toNat f = 0) ∨
      (x.mode ≠ 0x80 ∧ (linkPairs u m.toNat).any (fun l => !txPair u l && f.getLsbD (l % 8)) = false)) →
    exec (.compatParallelDetect m f) s = .next u) ∧
  (∀ (m : Pair) (f : BitVec 8) (s : State), ((linkOf s m.toNat).state ≠ .listen ∨ f = 0) → exec (.compatParallelDetect m f) s = .next s)

/-- Beacons and the fast and join roads (R145, R147 to R149, R156, R168, R169, R385): a valid beacon on a listening pair of a port on slot
0 is marked and its level latched; while beacons are sent, one of another partner ends them and one of the expected partner adds its offer
and says whether its pair is the right one; the window ends the beacons; the fast road is entered when every pair has its beacon and no
activation is pending, in the role that the port has; the join road is entered when every pair is in superframe lock. -/
def Obligations.RoadRows : Prop :=
  (∀ (l : Pair) (b : BitVec 128) (ms : Word) (s u : State) (m : Nat) (x : LinkSt), linkOfPair s l.toNat = some m → s.mode = .running →
    x = linkOf s m → x.state = .listen → lineRuns s l.toNat = true → beaconOn s m = true → beaconOk b = true →
    u = modPair l.toNat (fun p => { p with detect := 2 }) (latchLevel l.toNat 3 ms.toNat (timeStamp s) s) →
    exec (.beaconDetect l b ms) s = .next (
      if x.beacons = false then u
      else if bitsOf b.toNat 111 48 ≠ x.pol.expSerial ∨ bitsOf b.toNat 47 42 ≠ x.pol.expPort then modLink m (fun x => { x with beacons := false }) u
      else modPair l.toNat (fun p => { p with beaconOk := bitsOf b.toNat 41 39 == l.toNat % 8 }) (modLink m (fun x => { x with offer :=
        { x.offer with
          modes := BitVec.ofNat 4 (bitsOf b.toNat 38 35),
          pref := bitsOf b.toNat 33 32,
          forced := b.toNat.testBit 34,
          chainLocked := b.toNat.testBit 31,
          serial := bitsOf b.toNat 111 48,
          port := bitsOf b.toNat 47 42 } }) u))) ∧
  (∀ (l : Pair) (b : BitVec 128) (ms : Word) (s : State) (m : Nat), linkOfPair s l.toNat = some m →
    ((linkOf s m).state ≠ .listen ∨ lineRuns s l.toNat = false ∨ beaconOn s m = false ∨ beaconOk b = false) →
    exec (.beaconDetect l b ms) s = .next (lineWake l.toNat s)) ∧
  (∀ (l : Pair) (b : BitVec 128) (ms : Word) (s : State), linkOfPair s l.toNat = none → exec (.beaconDetect l b ms) s = .next s) ∧
  (∀ (m : Pair) (s : State), s.mode = .running → (linkOf s m.toNat).state = .listen →
    exec (.beaconWindowExpiry m) s = .next (modLink m.toNat (fun x => { x with beacons := false }) s)) ∧
  (∀ (m : Pair) (s : State), (linkOf s m.toNat).state ≠ .listen → exec (.beaconWindowExpiry m) s = .next s) ∧
  (∀ (m : Pair) (off : Word) (s v : State) (pref slave : Bool), s.mode = .running → activationPending s = false →
    (linkOf s m.toNat).state = .listen → (linkOf s m.toNat).beacons = true →
    (∀ l ∈ linkPairs s m.toNat, (pairOf s l).beaconOk = true) → roleOf s m.toNat = some pref → slave = portRole s m.toNat pref →
    v = fdxStart m.toNat 3 slave off.toInt (modLink m.toNat (fun x => { x with road := 2, runMode := x.mode, runMask := x.mask }) s) →
    exec (.fastRoadEntry m off) s =
      .next (fastExpand m.toNat (if slave then modLink m.toNat (fun x => { x with beacons := true }) v else v))) ∧
  (∀ (m : Pair) (off : Word) (s : State), s.mode = .running → activationPending s = false → (linkOf s m.toNat).state = .listen →
    (linkOf s m.toNat).beacons = true → (∀ l ∈ linkPairs s m.toNat, (pairOf s l).beaconOk = true) → roleOf s m.toNat = none →
    exec (.fastRoadEntry m off) s = .next (roleConflict m.toNat 2 s)) ∧
  (∀ (m : Pair) (off : Word) (s : State) (l : Nat), (activationPending s = true ∨ (linkOf s m.toNat).state ≠ .listen ∨
    (linkOf s m.toNat).beacons = false ∨ (l ∈ linkPairs s m.toNat ∧ (pairOf s l).beaconOk = false)) →
    exec (.fastRoadEntry m off) s = .next s) ∧
  (∀ (m : Pair) (s : State), s.mode = .running → joinListen (linkOf s m.toNat) = true → (linkOf s m.toNat).slave = true →
    (∀ l ∈ activePairs s m.toNat, (pairOf s l).sfLock = true) →
    exec (.joinRoadLock m) s = .next (entryPhase m.toNat (enterTrain m.toNat 1
      (each (activePairs s m.toNat) (fun l s => modPair l (fun p => { p with detect := 4 }) s) s)))) ∧
  (∀ (m : Pair) (s : State) (l : Nat), (joinListen (linkOf s m.toNat) = false ∨ (linkOf s m.toNat).slave = false ∨
    (l ∈ activePairs s m.toNat ∧ (pairOf s l).sfLock = false)) → exec (.joinRoadLock m) s = .next s)

/-- FDX training (R158, R160, R161, R165, R166, R168, R353): superframe 0 of the master on the cold and the fast road, the slave's timing
decision, the end of a phase, which begins the next, and of a held one, the limit of a phase, and a qualification window, which begins
afresh and qualifies its pair when its SNR reaches the policy's, no header was lost, the interpolator met no limit and superframe lock
holds. -/
def Obligations.TrainingRows : Prop :=
  (∀ (m : Pair) (s : State), s.mode = .running → (linkOf s m.toNat).state = .train → (linkOf s m.toNat).slave = false →
    isFdx (modeOf s m.toNat) = true →
    ((linkOf s m.toNat).road = 1 ∧ (linkOf s m.toNat).phase = 1 ∨ (linkOf s m.toNat).road = 2 ∧ (linkOf s m.toNat).phase = 4) →
    exec (.masterSuperframeZero m) s = .next (startPairs m.toNat 0 s)) ∧
  (∀ (m : Pair) (s : State), ((linkOf s m.toNat).state ≠ .train ∨ (linkOf s m.toNat).slave = true ∨
    ¬((linkOf s m.toNat).road = 1 ∧ (linkOf s m.toNat).phase = 1 ∨ (linkOf s m.toNat).road = 2 ∧ (linkOf s m.toNat).phase = 4)) →
    exec (.masterSuperframeZero m) s = .next s) ∧
  (∀ (m : Pair) (s : State), s.mode = .running → (linkOf s m.toNat).state = .train → (linkOf s m.toNat).slave = true →
    ((linkOf s m.toNat).road = 1 ∧ (linkOf s m.toNat).phase = 1 ∧ allCut s m.toNat = true ∨
      (linkOf s m.toNat).road = 2 ∧ (linkOf s m.toNat).phase = 6) →
    exec (.timingDecision m) s = .next (setTiming (m.toNat / 8)
      ((linkOf s m.toNat).countsUnlocked == 0 && chainLocked s && offsetSmall s (m.toNat / 8)) s)) ∧
  (∀ (m : Pair) (s : State), ((linkOf s m.toNat).state ≠ .train ∨ (linkOf s m.toNat).slave = false) →
    exec (.timingDecision m) s = .next s) ∧
  (∀ (m : Pair) (s : State), s.mode = .running → (linkOf s m.toNat).state = .train → (linkOf s m.toNat).phase = 1 →
    (linkOf s m.toNat).heldAt = false → (linkOf s m.toNat).hold = false → allCut s m.toNat = true →
    exec (.trainingPhaseEnd m) s = .next (setPhase m.toNat 2 (linkCutSf s m.toNat) (phaseFresh m.toNat s))) ∧
  (∀ (m : Pair) (s : State), s.mode = .running → (linkOf s m.toNat).state = .train → (linkOf s m.toNat).phase ≠ 0 →
    (linkOf s m.toNat).heldAt = false → phaseDone s m.toNat = true →
    exec (.trainingPhaseEnd m) s = .next (if (linkOf s m.toNat).hold then holdHere m.toNat s else phaseNext m.toNat s)) ∧
  (∀ (m : Pair) (s : State), ((linkOf s m.toNat).state ≠ .train ∨ (linkOf s m.toNat).phase = 0 ∨ (linkOf s m.toNat).heldAt = true ∨
    phaseDone s m.toNat = false) → exec (.trainingPhaseEnd m) s = .next s) ∧
  (∀ (m : Pair) (s : State), s.mode = .running → (linkOf s m.toNat).state = .train → (linkOf s m.toNat).phase ≠ 0 →
    (linkOf s m.toNat).phase ≠ 2 → (linkOf s m.toNat).heldAt = false →
    exec (.trainingPhaseLimit m) s = .next (trainFail m.toNat (if (linkOf s m.toNat).phase = 6 then 0x05 else 0x01) s)) ∧
  (∀ (m : Pair) (s : State), ((linkOf s m.toNat).state ≠ .train ∨ (linkOf s m.toNat).phase = 0 ∨ (linkOf s m.toNat).phase = 2 ∨
    (linkOf s m.toNat).heldAt = true) → exec (.trainingPhaseLimit m) s = .next s) ∧
  (∀ (l : Pair) (e : BitVec 48) (s : State) (m : Nat) (ok : Bool), s.mode = .running → linkOfPair s l.toNat = some m →
    (linkOf s m).state = .train → (linkOf s m).phase = 6 → (activePairs s m).contains l.toNat = true →
    ok = (decide (50 * (linkOf s m).trainPol.snrMin ≤ snrOf 1 e.toNat) && rd s (rowHdrLostR l.toNat) == (pairOf s l.toNat).qHdr &&
      rd s (interpLimitR l.toNat) == (pairOf s l.toNat).qLim && (pairOf s l.toNat).sfLock) →
    exec (.qualificationWindow l e) s = .next (if ok then
      upCheck m (modPair l.toNat (fun p => { p with qualified := true }) (windowStart l.toNat s)) else windowStart l.toNat s)) ∧
  (∀ (l : Pair) (e : BitVec 48) (s : State), (linkOfPair s l.toNat).all (fun m => (linkOf s m).state != .train || (linkOf s m).phase != 6 ||
    !(activePairs s m).contains l.toNat) = true → exec (.qualificationWindow l e) s = .next s)

/-- COMPAT training, and the ways out of a link (R125, R143, R170, R172, R173): a request's take is written, verified and cut in, its new
coefficient status answered, or it stays LOADED, or finds no slot and is counted (that a request is bounded by its own settings is the
model's, log 134); training completes when every lane is trained, or times out; a lost signal departs; LEAVING ends after two even COUNTs;
HOLDOFF ends in LISTEN and counts the attempt, after SYNTH_UNLOCK once the synthesizer is LOCKED. -/
def Obligations.CompatAndLeavingRows : Prop :=
  (∀ (l : Pair) (tx : BitVec 128) (s u v w : State) (m k : Nat) (t : List Byte), s.mode = .running → linkOfPair s l.toNat = some m →
    (linkOf s m).state = .train → isCompat (modeOf s m) = true → (activePairs s m).contains l.toNat = true → txPair s l.toNat = true →
    (t, u) = requestTake l.toNat m (leBytes 16 tx.toNat) s → anySlot u l.toNat = some k →
    v = takeWords 0x22 0 l.toNat k 4096 (writeTake l.toNat k t u) → w = entryCut l.toNat k (setSlot l.toNat k slVerified false v) →
    exec (.compatTrainingRequest l tx) s = .next (if (verifyTake (takeContext v l.toNat) (takeAt v l.toNat k)).1 = 0 then
      (if slotCode w l.toNat k = slActive then emit (.coefStatus l.toNat (((pairOf w l.toNat).active.tx.drop 0x40).take 16)) w else w)
      else v)) ∧
  (∀ (l : Pair) (tx : BitVec 128) (s u : State) (m : Nat) (t : List Byte), s.mode = .running → linkOfPair s l.toNat = some m →
    (linkOf s m).state = .train → isCompat (modeOf s m) = true → (activePairs s m).contains l.toNat = true → txPair s l.toNat = true →
    (t, u) = requestTake l.toNat m (leBytes 16 tx.toNat) s → anySlot u l.toNat = none →
    exec (.compatTrainingRequest l tx) s = .next (count (takeStoreFullR l.toNat) 1 u)) ∧
  (∀ (l : Pair) (tx : BitVec 128) (s : State), (linkOfPair s l.toNat).all (fun m => (linkOf s m).state != .train || !isCompat (modeOf s m) ||
    !(activePairs s m).contains l.toNat || !txPair s l.toNat) = true → exec (.compatTrainingRequest l tx) s = .next s) ∧
  (∀ (m : Pair) (s : State), compatTrains s m.toNat = true → (∀ l ∈ activePairs s m.toNat, laneTrained s l = true) →
    exec (.compatTrainingComplete m) s = .next (enterUp m.toNat (modPort (m.toNat / 8)
      (fun x => if x.periodOn then x else { x with periodOn := true, period := 0 })
      (each (activePairs s m.toNat) (fun l s => modPair l (fun p => { p with trained := true }) s) s)))) ∧
  (∀ (m : Pair) (s : State) (l : Nat), (compatTrains s m.toNat = false ∨ (l ∈ activePairs s m.toNat ∧ laneTrained s l = false)) →
    exec (.compatTrainingComplete m) s = .next s) ∧
  (∀ (m : Pair) (s : State), exec (.compatTrainingTimeout m) s =
    .next (if compatTrains s m.toNat then trainFail m.toNat 0x01 s else s)) ∧
  (∀ (l : Pair) (s : State) (m : Nat), linkOfPair s l.toNat = some m →
    exec (.compatSignalLost l) s = .next (if s.mode = .running ∧ trainOrUp (linkOf s m).state = true ∧ isCompat (modeOf s m) = true ∧
      (activePairs s m).contains l.toNat = true ∧ txPair s l.toNat = false then depart m 0x0B 0 s else s)) ∧
  (∀ (l : Pair) (s : State), linkOfPair s l.toNat = none → exec (.compatSignalLost l) s = .next s) ∧
  (∀ (m : Pair) (s : State), s.mode = .running → (isFdx (modeOf s m.toNat) = false ∨ 2 ≤ (linkOf s m.toNat).evenCounts ∨
    (activePairs s m.toNat).any (fun l => (pairOf s l).txOn) = false) →
    exec (.leavingEnd m) s = .next (leavingEnd m.toNat s)) ∧
  (∀ (m : Pair) (s : State), isFdx (modeOf s m.toNat) = true → (linkOf s m.toNat).evenCounts < 2 →
    (activePairs s m.toNat).any (fun l => (pairOf s l).txOn) = true → exec (.leavingEnd m) s = .next s) ∧
  (∀ (m : Pair) (s : State), s.mode = .running → (linkOf s m.toNat).state = .holdoff →
    ((linkOf s m.toNat).synthWait = false ∨ synState s (m.toNat / 8) = 2) →
    exec (.holdoffExpiry m) s = .next (enterListen m.toNat false (modLink m.toNat (fun x => { x with relinks := x.relinks + 1 }) (timerWake s)))) ∧
  (∀ (m : Pair) (s : State), ((linkOf s m.toNat).state ≠ .holdoff ∨ ((linkOf s m.toNat).synthWait = true ∧ synState s (m.toNat / 8) ≠ 2)) →
    exec (.holdoffExpiry m) s = .next s)

/-- The take loader and grading (R101 to R103, R106, R113, R121, R126, R128 to R131, R137, R164): the loader completes the verification or
the fill at the head of its queue, a fill not while an exchange or a supply dip holds it; a temperature that has moved, or a period, asks
for a run where the policy does and no hold stands, and a temperature that has left a hold ends it; a run's first pass draws its trims, a
pass starts with its capture or with a training's own; a folded segment is followed by the next, and the eighth ends the pass, after which
the retake waits its turn; a run that ends agrees or disagrees. With nothing to do each changes nothing but what is said. -/
def Obligations.GradingRows : Prop :=
  (∀ (t : Tile) (s : State) (r : LoadReq) (q : List LoadReq), s.mode = .running → (tileOf s t.toNat).resetting = false →
    (tileOf s t.toNat).loader = r :: q →
    exec (.takeVerification t) s = .next (if r.fill then s else
      verified r (verifyTake (takeContext s r.pair) (takeAt s r.pair r.slot)) (takeWords 0x21 0xF r.pair r.slot 4096 (loaderDrop t.toNat s)))) ∧
  (∀ (t : Tile) (s : State), ((tileOf s t.toNat).resetting = true ∨ (tileOf s t.toNat).loader = []) →
    exec (.takeVerification t) s = .next s ∧ exec (.bankFill t) s = .next s) ∧
  (∀ (t : Tile) (s : State) (r : LoadReq) (q : List LoadReq), s.mode = .running → (tileOf s t.toNat).resetting = false →
    mramHold s = false → (tileOf s t.toNat).loader = r :: q →
    exec (.bankFill t) s = .next (if r.fill = true ∧ (pairOf s r.pair).exch = none then
      fillStandby r.pair r.slot (takeWords 0x21 0xF r.pair r.slot 4096 (loaderDrop t.toNat s)) else s)) ∧
  (∀ (t : Tile) (s : State), mramHold s = true → exec (.bankFill t) s = .next s) ∧
  (∀ (l : Pair) (t : BitVec 16) (s u : State), u = timerWake (holdEnds l.toNat { s with temps := tabPut 0 s.temps (l.toNat / 8) t }) →
    (∀ (m : Nat) (b : List Byte), linkOfPair u l.toNat = some m → activeTake u l.toNat = some b →
      exec (.gradingTemperatureEval l t) s = .next (if u.mode = .running ∧ (linkOf u m).state = .up ∧
        (linkOf u m).pol.flags.getLsbD 1 = true ∧ tempDiffers (linkOf u m) (portTemp u (l.toNat / 8)) (tkTempGrade b) = true ∧
        (pairOf u l.toNat).tempHold = none then queueRun l.toNat 2 0 false u else u)) ∧
    ((linkOfPair u l.toNat = none ∨ activeTake u l.toNat = none) → exec (.gradingTemperatureEval l t) s = .next u)) ∧
  (∀ (l : Pair) (s u : State), u = timerWake s →
    (∀ (m : Nat) (b : List Byte), linkOfPair u l.toNat = some m → activeTake u l.toNat = some b →
      exec (.gradingTimerExpiry l) s = .next (if u.mode = .running ∧ (linkOf u m).state = .up ∧ (linkOf u m).pol.flags.getLsbD 1 = true ∧
        (linkOf u m).pol.calPeriod ≠ 0 then queueRun l.toNat 2 0 false u else u)) ∧
    ((linkOfPair u l.toNat = none ∨ activeTake u l.toNat = none) → exec (.gradingTimerExpiry l) s = .next u)) ∧
  (∀ (g : Group) (s u : State) (r : Run) (f : Run → Run), s.mode = .running → graderOn s g.toNat = true →
    (runsOf s g.toNat).any (fun r => r.started) = false → nextRun s g.toNat = some r → (f, u) = runStart r s →
    exec (.gradingPassStart g) s = .next (
      if r.profile then capAsk (r.pair / 8) { owner := 2, state := 0, trigger := 1, pair := r.pair }
        (putRuns g.toNat ((runsOf u g.toNat).map (fun q => if q == r then { f q with started := true } else q)) u)
      else if initialSolve u r.pair then putRuns g.toNat ((runsOf u g.toNat).map (fun q =>
        if q == r then retakeStamp u { f q with started := true, retake := true, segs := 8 } else q)) u
      else segAsk r.pair (putRuns g.toNat ((runsOf u g.toNat).map (fun q => if q == r then { f q with started := true, segs := 0 } else q)) u))) ∧
  (∀ (g : Group) (s : State), (graderOn s g.toNat = false ∨ (runsOf s g.toNat).any (fun r => r.started) = true ∨ nextRun s g.toNat = none) →
    exec (.gradingPassStart g) s = .next s) ∧
  (∀ (g : Group) (s u : State) (r : Run) (c : Capture), s.mode = .running → graderOn s g.toNat = true →
    (runsOf s g.toNat).find? (fun r => r.started && !r.profile) = some r →
    (capsOf s (r.pair / 8)).find? (fun c => c.owner == 1 && c.pair == r.pair && c.state == 3) = some c →
    u = foldInto g.toNat (capDrop (r.pair / 8) (fun c => c.owner == 1 && c.pair == r.pair)
      (areaWords 0x21 (0xB + g.toNat % 2) (r.pair / 8) 0 recordLen s)) →
    exec (.gradingSegmentFold g) s = .next (
      if r.segs < 7 then segAsk r.pair (modRun r.pair (fun q => { q with segs := r.segs + 1 }) u)
      else if r.retake then modRun r.pair (fun q => { retakeStamp u { r with segAt := segPlace c } with segs := 8 }) u
      else requeue r.pair (fun q => { q with segs := 0, retake := true, started := false, segAt := segPlace c }) u)) ∧
  (∀ (g : Group) (s : State), (graderOn s g.toNat = false ∨ (runsOf s g.toNat).find? (fun r => r.started && !r.profile) = none) →
    exec (.gradingSegmentFold g) s = .next s) ∧
  (∀ (g : Group) (s : State) (r : Run), (runsOf s g.toNat).find? (fun r => r.started && !r.profile) = some r →
    (capsOf s (r.pair / 8)).find? (fun c => c.owner == 1 && c.pair == r.pair && c.state == 3) = none →
    exec (.gradingSegmentFold g) s = .next s) ∧
  (∀ (l : Pair) (a b : List Byte) (cs : List Cluster) (s : State) (r : Run) (m : Nat), s.mode = .running → findRun s l.toNat = some r →
    linkOfPair s l.toNat = some m → r.started = true → r.retake = true → r.segs = 8 →
    exec (.gradingRunEnd l a b cs) s = .next (if (attempt a b r.tol).1 = 0 then runAgrees l.toNat m r b (attempt a b r.tol).2.2 cs s
      else runDisagrees l.toNat m r (attempt a b r.tol) s)) ∧
  (∀ (l : Pair) (a b : List Byte) (cs : List Cluster) (s : State), (linkOfPair s l.toNat = none ∨
    (findRun s l.toNat).all (fun r => !r.started || !r.retake || r.segs != 8) = true) → exec (.gradingRunEnd l a b cs) s = .next s)

/-- Captures and continuity (R140, R141, R193 to R197, R357): a due continuity record is written when the MRAM takes it, over an older one
that is reported where the store is full, is dropped and counted when it is not there, and waits in a brown-out; a capture starts when its
trigger comes, where it may (the moment's place in the ring is the model's, log 167), and ends with its record in the area; a held area is
reported once; an upload writes the bytes it was asked for, and with RELEASE frees the area. -/
def Obligations.CaptureRows : Prop :=
  (∀ (m : Pair) (s : State), s.mode = .running → s.contDue.contains m.toNat = true → mramReady s = false →
    exec (.continuityRecordWrite m) s =
      .next { s with contDue := s.contDue.filter (fun x => x != m.toNat), contDrop := s.contDrop + 1 }) ∧
  (∀ (m : Pair) (s : State), s.contDue.contains m.toNat = true → mramReady s = true → (mramHold s = true ∨ supHalted s = true) →
    exec (.continuityRecordWrite m) s = .next s) ∧
  (∀ (m : Pair) (s : State), s.contDue.contains m.toNat = false → exec (.continuityRecordWrite m) s = .next s) ∧
  (∀ (m : Pair) (s u : State) (i : Nat) (e : Bool) (b : List Byte), s.mode = .running → s.contDue.contains m.toNat = true →
    mramReady s = true → mramHold s = false → supHalted s = false →
    (i, e) = contPlace s (linkOf s m.toNat).serial (linkOf s m.toNat).port (m.toNat / 8) →
    (b, u) = contRecord m.toNat (s.contUse + 1) (contEvicted e i s) →
    exec (.continuityRecordWrite m) s = .next { u with
      contUse := s.contUse + 1,
      contRecs := tabInsert u.contRecs i b,
      contDue := u.contDue.filter (fun x => x != m.toNat) }) ∧
  (∀ (p : Port) (pos : BitVec 27) (ring : BitVec 14) (s u : State) (c : Capture) (q : List Capture) (h : List Byte) (x : Nat × Nat),
    s.mode = .running → capsOf s p.toNat = c :: q →
    x = captureFirst ((eight (8 * p.toNat)).any (fun l => (pairOf s l).txOn)) c pos.toNat ring.toNat → c.state = 1 →
    triggerCame s p.toNat c pos.toNat = true → retakeSpaced s p.toNat c x.1 = true → (h, u) = segHeader p.toNat c pos.toNat x.1 x.2 s →
    exec (.rushesCaptureStart p pos ring) s = .next (putCaps p.toNat ({ c with
      state := 2,
      header := h,
      live := BitVec.ofNat 8 (liveMask u p.toNat),
      cuts := (eight (8 * p.toNat)).map (fun l => (pairOf u l).cuts),
      sfStart := leAt h 0xC 4,
      posStart := leAt h 0x10 4,
      timeStart := leAt h 0x18 8 } :: q) (areaPut p.toNat 0 (List.replicate recordLen none) u))) ∧
  (∀ (p : Port) (pos : BitVec 27) (ring : BitVec 14) (s : State), (capsOf s p.toNat).head?.all (fun c => c.state != 1 ||
    !triggerCame s p.toNat c pos.toNat || !retakeSpaced s p.toNat c
      (captureFirst ((eight (8 * p.toNat)).any (fun l => (pairOf s l).txOn)) c pos.toNat ring.toNat).1) = true →
    exec (.rushesCaptureStart p pos ring) s = .next s) ∧
  (∀ (p : Port) (data : List Byte) (s u : State) (c d : Capture) (q : List Capture), s.mode = .running → capsOf s p.toNat = c :: q →
    c.state = 2 → d = { c with header := c.header.take 0x5C ++ leBytes 1 (c.live.toNat &&& liveMask s p.toNat) ++ c.header.drop 0x5D } →
    u = areaWords 0x22 0xD p.toNat 0 recordLen (areaPut p.toNat 0 (segRecord d data)
      (putCaps p.toNat ({ d with state := 3, etag := none } :: q) s)) →
    exec (.rushesCaptureDone p data) s = .next (match c.etag with
      | some e => complete e stOk [3, 0, 0, 0] u
      | none => u)) ∧
  (∀ (p : Port) (data : List Byte) (s : State), (capsOf s p.toNat).head?.all (fun c => c.state != 2) = true →
    exec (.rushesCaptureDone p data) s = .next s) ∧
  (∀ (p : Port) (s : State) (c : Capture) (q : List Capture), s.mode = .running → capsOf s p.toNat = c :: q →
    exec (.rushesHeld p) s = .next (if c.owner = 0 ∧ c.heldSent = false ∧ q.any (fun r => r.owner == 1) = true then
      raise 0x0902 (unitPort p.toNat) [] (putCaps p.toNat ({ c with heldSent := true } :: q) s) else s)) ∧
  (∀ (p : Port) (s : State), capsOf s p.toNat = [] → exec (.rushesHeld p) s = .next s) ∧
  (∀ (p : Port) (s u v : State) (f : InFlight) (c : Capture) (off len : Nat) (b : List Byte), s.mode = .running →
    (running s 0x0403 3 p.toNat).head? = some f → doneCapture s p.toNat = some c → off = leAt f.cmd.params 8 4 →
    len = (if leAt f.cmd.params 12 4 = 0 then recordLen - off else leAt f.cmd.params 12 4) →
    (b, u) = areaRead p.toNat off len (areaWords 0x21 0xE p.toNat off len s) → v = hostWriteBy 0xE (leAt f.cmd.params 0 8) b u →
    exec (.rushesUploadDone p) s =
      .next (complete f.etag stOk (leBytes 4 len) (if leAt f.cmd.params 16 1 = 1 then dropHostCapture p.toNat v else v))) ∧
  (∀ (p : Port) (s : State) (f : InFlight), (running s 0x0403 3 p.toNat).head? = some f → doneCapture s p.toNat = none →
    exec (.rushesUploadDone p) s = .next (complete f.etag stNotReady [] s)) ∧
  (∀ (p : Port) (s : State), running s 0x0403 3 p.toNat = [] → exec (.rushesUploadDone p) s = .next s)

/-- Diagnostics that end in rows of their own (R190, R191, R198 to R206, R230, R231, R358, R359): the lowest pair that a cable test has
left is measured, on the FDX clock alone, and the last one ends it with its records; a point of an eye scan is written to host memory and
the last one ends it; a point of HL_CTLE_SET with AUTO is a code's area, the best of which is set at the end (of equal ones the lowest
code: log 157); a utilization window that has ended stores its sums, without the streams that no locked monitor counted (log 168), or is
only counted when it is discarded; a profile ends with its records, is computed again once after a cut, and ends ABORTED after a second one
or with the link out of UP. -/
def Obligations.DiagnosticRows : Prop :=
  (∀ (p : Port) (cs : List Cluster) (far : BitVec 2) (len : Word) (next : List (BitVec 16)) (s u : State) (x : PortSt) (c : Cmd)
    (e k d vp : Nat) (bad : Bool) (out nx : List Byte) (left : BitVec 8), s.mode = .running → x = portOf s p.toNat → x.cableTest = some e →
    (List.range 8).find? (fun j => x.cableMask.getLsbD j) = some k → atFdxClock s p.toNat = true →
    c = ((s.cmd.inflight.find? (fun f => f.etag == e)).map (fun f => f.cmd)).getD {} → (bad, d, vp) = cableParams c.params 2 →
    out = x.cableOut ++ cableRecord s (8 * p.toNat + k) d vp cs far.toNat len.toNat →
    nx = x.cableNext ++ ((List.range 8).filter (fun j => decide (k < j) && (leAt c.params 0 1).testBit j)).flatMap
      (fun j => leBytes 1 k ++ leBytes 1 j ++ leBytes 2 (next.getD j 0).toNat) →
    left = x.cableMask &&& ~~~(BitVec.ofNat 8 (2 ^ k)) →
    u = modPort p.toNat (fun x => { x with cableTest := none, cableMask := 0, cableOut := [], cableNext := [] }) s →
    exec (.cableTestPairDone p cs far len next) s = .next (if left = 0 then complete e stOk (cableHeader c ++ out ++ nx) u
      else modPort p.toNat (fun x => { x with cableMask := left, cableOut := out, cableNext := nx }) s)) ∧
  (∀ (p : Port) (cs : List Cluster) (far : BitVec 2) (len : Word) (next : List (BitVec 16)) (s : State),
    ((portOf s p.toNat).cableTest = none ∨ (portOf s p.toNat).cableMask = 0 ∨ atFdxClock s p.toNat = false) →
    exec (.cableTestPairDone p cs far len next) s = .next s) ∧
  (∀ (n : Lane) (k : Word) (s u : State) (e : Nat) (f : InFlight) (g : List Int × List Nat × Nat), s.mode = .running →
    (laneOf s n.toNat).scan = some e → s.cmd.inflight.find? (fun x => x.etag == e) = some f → eyeGrid f.cmd.params = some g →
    u = hostWriteBy 5 (leAt f.cmd.params 0 8 + 4 * (laneOf s n.toNat).scanPoint) (leBytes 4 k.toNat) s →
    exec (.eyeScanPoint n k) s = .next (if eyePoints g ≤ (laneOf s n.toNat).scanPoint + 1 then
      complete e stOk (leBytes 4 (eyePoints g) ++ leBytes 4 (2 ^ g.2.2 / 1024)) (modLane n.toNat (fun x => { x with scan := none, scanPoint := 0 }) u)
      else modLane n.toNat (fun x => { x with scanPoint := x.scanPoint + 1 }) u)) ∧
  (∀ (n : Lane) (k : Word) (s u : State) (e : Nat) (x : LaneSt), s.mode = .running → x = laneOf s n.toNat → x.scan = none → x.auto = some e →
    u = (if x.autoArea < k.toNat ∨ x.scanPoint = 0 then modLane n.toNat (fun y => { y with autoBest := x.scanPoint, autoArea := k.toNat }) s
      else s) →
    exec (.eyeScanPoint n k) s = .next (if 28 ≤ x.scanPoint then complete e stOk (leBytes 1 (laneOf u n.toNat).autoBest ++ zeros 3)
      (wrF (hlCtl n.toNat) 4 0 (laneOf u n.toNat).autoBest
        (modLane n.toNat (fun x => { x with auto := none, autoBest := 0, autoArea := 0, scanPoint := 0 }) u))
      else modLane n.toNat (fun y => { y with scanPoint := y.scanPoint + 1 }) u)) ∧
  (∀ (n : Lane) (k : Word) (s : State), (laneOf s n.toNat).scan = none → (laneOf s n.toNat).auto = none →
    exec (.eyeScanPoint n k) s = .next s) ∧
  (∀ (p : Port) (cs : List (BitVec 48)) (um : BitVec 8) (s u : State) (counted : Nat → Nat → Bool) (un : Nat), s.mode = .running →
    utilBoundary s p.toNat = true → s.utilDiscard.contains p.toNat = false →
    u = wrF (utilR p.toNat 0) 31 16 (rdF s (utilR p.toNat 0) 31 16 + 1) s →
    (∀ k dir, counted k dir = (!um.getLsbD k && streamMonitored u p.toNat k dir)) →
    un = ((List.range 8).filter (fun k => !(counted k 0 && counted k 1))).foldl (fun a k => a + 2 ^ k) 0 →
    exec (.utilWindowEnd p cs um) s = .next (each (List.range 6) (fun i s => wrWide (utilR p.toNat (8 + 8 * i)) 48
      ((((List.range 8).filter (fun k => counted k (if i < 3 then 1 else 0))).map (fun k => (cs.getD (6 * k + i) 0).toNat)).sum) s)
      (wrF (utilR p.toNat 0) 15 8 un u))) ∧
  (∀ (p : Port) (cs : List (BitVec 48)) (um : BitVec 8) (s u : State), s.mode = .running → utilBoundary s p.toNat = true →
    s.utilDiscard.contains p.toNat = true → u = wrF (utilR p.toNat 0) 31 16 (rdF s (utilR p.toNat 0) 31 16 + 1) s →
    exec (.utilWindowEnd p cs um) s = .next { u with utilDiscard := u.utilDiscard.filter (fun q => q != p.toNat) }) ∧
  (∀ (p : Port) (cs : List (BitVec 48)) (um : BitVec 8) (s : State), utilBoundary s p.toNat = false →
    exec (.utilWindowEnd p cs um) s = .next s) ∧
  (∀ (g : Group) (recs : List PairMeasure) (s u : State) (r : Run) (c : Capture) (now seen : List Nat) (d vp : Nat) (bad : Bool)
    (body : List Byte), s.mode = .running → (runsOf s g.toNat).find? (fun r => r.profile && r.started) = some r →
    (capsOf s (r.pair / 8)).find? (fun c => c.owner == 2 && c.state == 3) = some c → (linkOf s r.pair).state = .up →
    now = (activePairs s r.pair).map (fun l => (pairOf s l).cuts) →
    seen = (if r.fails = 0 then (activePairs s r.pair).map (fun l => c.cuts.getD (l % 8) 0) else r.slots) →
    u = capDrop (r.pair / 8) (fun c => c.owner == 2) (putRuns g.toNat ((runsOf s g.toNat).filter (fun q => q != r)) s) →
    (bad, d, vp) = cableParams (((s.cmd.inflight.find? (fun f => f.etag == r.etag)).map (fun f => f.cmd.params)).getD []) 0 →
    body = (((activePairs s r.pair).zip (List.range 8)).map
      (fun x => profileRecord s r.pair x.1 d vp (recs.getD x.2 ⟨[], [], [], 0, 0⟩))).flatten →
    exec (.cableProfileComputed g recs) s = .next (
      if now = seen then complete r.etag stOk (leBytes 1 (activePairs s r.pair).length ++ zeros 1 ++ leBytes 2 d ++ leBytes 1 vp ++ zeros 3
        ++ leBytes 4 c.sfStart ++ zeros 4 ++ body) u
      else if r.fails = 0 then
        putRuns g.toNat ((runsOf s g.toNat).map (fun q => if q == r then { q with fails := 1, slots := now } else q)) s
      else complete r.etag stAborted [] u)) ∧
  (∀ (g : Group) (recs : List PairMeasure) (s : State) (r : Run) (c : Capture), s.mode = .running →
    (runsOf s g.toNat).find? (fun r => r.profile && r.started) = some r →
    (capsOf s (r.pair / 8)).find? (fun c => c.owner == 2 && c.state == 3) = some c → (linkOf s r.pair).state ≠ .up →
    exec (.cableProfileComputed g recs) s = .next (complete r.etag stAborted [] (capDrop (r.pair / 8) (fun c => c.owner == 2)
      (putRuns g.toNat ((runsOf s g.toNat).filter (fun q => q != r)) s)))) ∧
  (∀ (g : Group) (recs : List PairMeasure) (s : State), (runsOf s g.toNat).find? (fun r => r.profile && r.started) = none →
    exec (.cableProfileComputed g recs) s = .next s)

/-- Receive lanes (R214, R219 to R223, R229): a marker that decodes on a locked lane is taken, and the lanes are deskewed unless it says
WAKE; one that does not decode is lost; on a lane that acquires or wakes a marker locks it, and one in the wrong direction is a fault;
invalid headers and slips are counted and a search that fails loses lock; a loss of signal within 64 blocks of a marker with SLEEP puts the
lane to sleep, another loses lock; a sleeping lane wakes on a signal. On a lane that is not in the state the row needs it does nothing.
Transmit lanes (R212, R216 to R218, R225, R227, R228): at a scheduled marker each awake lane of the port counts its period's halves and all
send markers of one MSEQ; a stuff overflow sends them early; words that find a stream's queue full are dropped and counted; a lane that may
sleep sends its last marker with SLEEP, and one that may no longer sends a marker with WAKE, a BREAK due on both its streams. A lane in
another state is left as it is. -/
def Obligations.HostLaneRows : Prop :=
  (∀ (n : Lane) (p : BitVec 512) (t : Word) (k : BitVec 16) (a b : HalfSign) (s v w : State) (u : Nat), s.mode = .running →
    laneIsTx n.toNat = false → laneEnabled s n.toNat = true → laneState s n.toNat = 2 →
    v = halvesIn n.toNat b (halvesIn n.toNat a (count (hlStuffErr n.toNat) k.toNat s)) →
    mkDecode (if (laneOf v n.toNat).invLevels then ~~~p else p) = some u → w = keepMarker n.toNat u t v →
    exec (.acnanMarkerReceived n p t k a b) s = .next (if (laneOf w n.toNat).settled = false then w
      else if u.testBit 69 then laneSigns n.toNat a b w else deskew n.toNat (laneSigns n.toNat a b w))) ∧
  (∀ (n : Lane) (p : BitVec 512) (t : Word) (k : BitVec 16) (a b : HalfSign) (s v : State), s.mode = .running →
    laneIsTx n.toNat = false → laneEnabled s n.toNat = true → laneState s n.toNat = 2 →
    v = halvesIn n.toNat b (halvesIn n.toNat a (count (hlStuffErr n.toNat) k.toNat s)) →
    mkDecode (if (laneOf v n.toNat).invLevels then ~~~p else p) = none →
    exec (.acnanMarkerReceived n p t k a b) s = .next (markerLost n.toNat v)) ∧
  (∀ (n : Lane) (p : BitVec 512) (t : Word) (k : BitVec 16) (a b : HalfSign) (s : State), s.mode = .running →
    laneIsTx n.toNat = false → laneEnabled s n.toNat = true → (laneState s n.toNat = 1 ∨ laneState s n.toNat = 4) →
    exec (.acnanMarkerReceived n p t k a b) s = .next (lockMarker n.toNat p t a b s)) ∧
  (∀ (n : Lane) (p : BitVec 512) (t : Word) (k : BitVec 16) (a b : HalfSign) (s : State) (u : Nat), s.mode = .running →
    laneIsTx n.toNat = false → laneEnabled s n.toNat = true → laneState s n.toNat = 1 → (laneOf s n.toNat).settled = false →
    mkDecode (if mkInverted p then ~~~p else p) = some u → u.testBit 66 = true → laneState (laneFault n.toNat 2 s) n.toNat ≠ 2 →
    exec (.acnanMarkerReceived n p t k a b) s = .next (laneFault n.toNat 2 s)) ∧
  (∀ (n : Lane) (p : BitVec 512) (t : Word) (k : BitVec 16) (a b : HalfSign) (s : State), (s.mode ≠ .running ∨ laneIsTx n.toNat = true ∨
    laneEnabled s n.toNat = false ∨ laneState s n.toNat = 0 ∨ laneState s n.toNat = 3 ∨ 5 ≤ laneState s n.toNat) →
    exec (.acnanMarkerReceived n p t k a b) s = .next s) ∧
  (∀ (n : Lane) (s : State), s.mode = .running → laneIsTx n.toNat = false → laneState s n.toNat = 2 →
    exec (.acnanMarkerLost n) s = .next (streamsAbsent n.toNat (count (hlMarkerLost n.toNat) 1
      (modLane n.toNat (fun x => { x with descramble := false }) s)))) ∧
  (∀ (n : Lane) (s : State), rxLocked s n.toNat = true →
    exec (.acnanInvalidHeader n false) s = .next (count (hlHdrErr n.toNat) 1 s) ∧
    exec (.acnanInvalidHeader n true) s =
      .next (modLane n.toNat (fun x => { x with searching := true }) (count (hlHdrErr n.toNat) 1 s)) ∧
    exec (.acnanElasticSlip n) s = .next (count (hlSlip n.toNat) 1 s)) ∧
  (∀ (n : Lane) (s u : State), rxLocked s n.toNat = true → (laneOf s n.toNat).searching = true →
    u = modLane n.toNat (fun x => { x with searching := false }) s →
    exec (.acnanSlipSearchEnd n true) s = .next (count (hlSlip n.toNat) 1 u) ∧
    exec (.acnanSlipSearchEnd n false) s = .next (laneLoseLock n.toNat u)) ∧
  (∀ (n : Lane) (k : Word) (s : State), rxLocked s n.toNat = true →
    exec (.acnanRxAsleep n k) s = .next (if (laneOf s n.toNat).sleepMark = true ∧ k.toNat ≤ 64
      then streamsAbsent n.toNat (setLaneState n.toNat 3 (modLane n.toNat (fun x => { x with sleepMark := false, descramble := false }) s))
      else laneLoseLock n.toNat s)) ∧
  (∀ (n : Lane) (b : Bool) (k : Word) (s : State), rxLocked s n.toNat = false →
    exec (.acnanMarkerLost n) s = .next s ∧ exec (.acnanInvalidHeader n b) s = .next s ∧ exec (.acnanElasticSlip n) s = .next s ∧
    exec (.acnanSlipSearchEnd n b) s = .next s ∧ exec (.acnanRxAsleep n k) s = .next s) ∧
  (∀ (n : Lane) (b : Bool) (s : State), (laneOf s n.toNat).searching = false → exec (.acnanSlipSearchEnd n b) s = .next s) ∧
  (∀ (n : Lane) (s : State), exec (.acnanSignalDetect n) s = .next (if s.mode = .running ∧ laneIsTx n.toNat = false ∧ laneState s n.toNat = 3
    then beginWake (n.toNat / 8) (setLaneState n.toNat 4 s) else s)) ∧
  (∀ (p : Port) (f : List Word) (s : State), s.mode = .running →
    exec (.acnanScheduledMarker p f) s = .next (sendMarkers p.toNat false (each (txAwake s p.toNat) (fun n s =>
      each (laneStreams n) queueDrift (fillMin n (f.getD (n % 4) 0xFFFFFFFF) (sendBreaks n
        (halvesOut n (8 * (n / 8) + n % 4 * 2 + 1) (fieldGet (f.getD (n % 4) 0xFFFFFFFF) 31 16)
          (halvesOut n (8 * (n / 8) + n % 4 * 2) (fieldGet (f.getD (n % 4) 0xFFFFFFFF) 15 0) s))))) s))) ∧
  (∀ (n : Lane) (s : State), exec (.acnanStuffOverflow n) s = .next (if s.mode = .running ∧ laneIsTx n.toNat = true ∧ laneState s n.toNat = 2
    then sendMarkers (n.toNat / 8) true (each (txAwake s (n.toNat / 8)) sendBreaks (count (hlStuffOverflow n.toNat) 1 s)) else s)) ∧
  (∀ (l : Pair) (w : Word) (s : State), s.mode = .running →
    exec (.hlGbxOverflow l w) s = .next (raise 0x0A05 (unitLane (txLaneOf l.toNat)) []
      (breakDue l.toNat (modPair l.toNat (fun p => { p with toHost := 16384 }) (count (hlGbxOverflow (txLaneOf l.toNat)) w.toNat s))))) ∧
  (∀ (n : Lane) (s : State), exec (.acnanLaneSleep n) s = .next (if s.mode = .running ∧ laneIsTx n.toNat = true ∧ laneState s n.toNat = 2 ∧
    laneSleeps s n.toNat = true
    then setLaneState n.toNat 3 (sendMarker n.toNat false true false ((portOf s (n.toNat / 8)).mseq + 1) (sleepMseq n.toNat s)) else s)) ∧
  (∀ (n : Lane) (s : State), exec (.acnanLaneWake n) s = .next (if s.mode = .running ∧ laneIsTx n.toNat = true ∧
    (laneState s n.toNat = 3 ∨ laneState s n.toNat = 4) ∧ laneSleeps s n.toNat = false
    then count (hlWake n.toNat) 1 (setLaneState n.toNat 2 (modLane n.toNat (fun x => { x with breakA := true, breakB := true })
      (sendMarker n.toNat false false true (portOf s (n.toNat / 8)).mseq (laneWaking n.toNat s)))) else s)) ∧
  (∀ (p : Port) (f : List Word) (l : Pair) (w : Word) (s : State), s.mode ≠ .running →
    exec (.acnanScheduledMarker p f) s = .next s ∧ exec (.hlGbxOverflow l w) s = .next s)

/-- Ends of unit resets, the handshake of the queues, and the RS monitors (R56, R189, R294, R295, R477): a restart or reset that runs ends
with its event, and a tile's first locks its synthesizers and lanes anew; the surviving half of a queue discards and counts while the other
is in reset, and the queue resumes empty when none is; a monitor's lock and its loss bring the codewords decoded since, which the host
direction does not count for a set of which a pair was quiet. Where nothing runs, resets or reports, the row does nothing. -/
def Obligations.ResetAndMonitorRows : Prop :=
  (∀ (l : Pair) (s : State), exec (.resetComplete 7 l) s = .next (if s.mode = .running ∧ (pairOf s l.toNat).restarting = true
    then unitResetEvent 7 (pairUnit l.toNat) (modPair l.toNat (fun p => { p with restarting := false }) s) else s)) ∧
  (∀ (u : Pair) (s : State), exec (.resetComplete 6 u) s = .next (if s.mode = .running ∧ u.toNat < 64 ∧ (portOf s u.toNat).resetting = true
    then unitResetEvent 6 (unitPort u.toNat) (lanesStart u.toNat (synRelock u.toNat (modPort u.toNat (fun x => { x with resetting := false }) s)))
    else s)) ∧
  (∀ (u : Pair) (s : State), exec (.resetComplete 5 u) s = .next (if s.mode = .running ∧ u.toNat < 8 ∧ (tileOf s u.toNat).resetting = true
    then unitResetEvent 5 (unitTile u.toNat) (each (eight (8 * u.toNat)) (fun p s => pairsToSyn p (lanesStart p (synRestart p s)))
      (synRestart (64 + u.toNat) (modTile u.toNat (fun x => { x with resetting := false }) s))) else s)) ∧
  (∀ (k : BitVec 3) (u : Pair) (s : State), k.toNat < 5 → exec (.resetComplete k u) s = .next s) ∧
  (∀ (u : Pair) (n : Word) (s : State), exec (.gearboxResetHandshake true u n) s = .next (
    if s.mode = .running ∧ u.toNat < 8 ∧ ((tileOf s u.toNat).resetting = true ∨ 3 ≤ domState s (64 + u.toNat))
    then discard [(unitTile u.toNat).toNat] n.toNat (count (tileXqR u.toNat) n.toNat s) else s)) ∧
  (∀ (l : Pair) (n : Word) (s : State), s.mode = .running → ((pairOf s l.toNat).xqOff = true ∨ queueHalf s l.toNat = true) →
    exec (.gearboxResetHandshake false l n) s = .next (breakDue l.toNat (discard [(pairUnit l.toNat).toNat,
      (unitPort (l.toNat / 8)).toNat, (unitTile (l.toNat / 64)).toNat] n.toNat
      (modPair l.toNat (fun p => { p with xqOff := true, queue := 0, toHost := 0 }) (count (portXqR (l.toNat / 8)) n.toNat s))))) ∧
  (∀ (l : Pair) (n : Word) (s : State), (s.mode ≠ .running ∨ (pairOf s l.toNat).xqOff = false ∧ queueHalf s l.toNat = false) →
    exec (.gearboxResetHandshake false l n) s = .next s) ∧
  (∀ (l : Pair) (s : State), exec (.gearboxHandshakeEnd l) s = .next (
    if s.mode = .running ∧ (pairOf s l.toNat).xqOff = true ∧ queueHalf s l.toNat = false
    then modPair l.toNat (fun p => { p with xqOff := false, fill := 0, rxFill := 0, queue := 0, toHost := 0 }) s else s)) ∧
  (∀ (l : Pair) (n : List (BitVec 32)) (s : State), rsInstance s l.toNat 0 = true →
    exec (.rsMonitorLock l false n) s = .next (countWide (rsBase l.toNat 0 + 0x88) 64 (((List.range 17).map (fun i => (n.getD i 0).toNat)).sum)
      (each (List.range 17) (fun i s => countWide (rsBase l.toNat 0 + 8 * i) 48 (n.getD i 0).toNat s)
        (wrB (rsMonStatusR l.toNat 0) 0 true s)))) ∧
  (∀ (l : Pair) (n : List (BitVec 32)) (s : State), rsInstance s l.toNat 1 = true →
    (rsSet (wrB (rsMonStatusR l.toNat 1) 0 true s) l.toNat 1).any (fun k => !(pairOf s k).rsOpen) = true →
    exec (.rsMonitorLock l true n) s = .next (wrB (rsMonStatusR l.toNat 1) 0 true s)) ∧
  (∀ (l : Pair) (host : Bool) (n : List (BitVec 32)) (s : State),
    exec (.rsMonitorLock l host n) s = .next (if rsInstance s l.toNat (b2n host)
      then rsCount l.toNat (b2n host) n (wrB (rsMonStatusR l.toNat (b2n host)) 0 true s) else s) ∧
    exec (.rsMonitorLockLoss l host n) s = .next (if rsInstance s l.toNat (b2n host) = true ∧ rdB s (rsMonStatusR l.toNat (b2n host)) 0 = true
      then orViews (rsMonStatusR l.toNat (b2n host)) 2 (wrB (rsMonStatusR l.toNat (b2n host)) 0 false (rsCount l.toNat (b2n host) n s)) else s))

/-- Scrubbing, voting and the lockstep pair (R387, R404, R463 to R466): a clean or rewritten word is no longer known bad; a correctable one
is counted and reported at most once a second per bank; an uncorrectable one is counted and reported once, its readers get what the code
decodes, and what it held follows: the operator image is due a restart, an LDT entry is invalid. A mismatch of a triplicated field is
corrected by its majority, or copy A stands; a lockstep mismatch halts the supervisor and ends the requests that wait for it. -/
def Obligations.IntegrityRows : Prop :=
  (∀ (b : MemBank) (off : BitVec 24) (x : Bool) (h : Holds) (s : State), s.mode = .running → bankPowered s b = true →
    exec (.scrubRead b off .clean x h) s =
      .next { s with badWords := s.badWords.filter (fun x => x != (bankKey b, bankWord b off.toNat)) }) ∧
  (∀ (b : MemBank) (off : BitVec 24) (x : Bool) (h : Holds) (s u v : State), s.mode = .running → bankPowered s b = true →
    u = { s with badWords := s.badWords.filter (fun x => x != (bankKey b, bankWord b off.toNat)) } → v = count (bankRegs b) 1 u →
    ((v.corrAt.find? (fun e => e.1 == bankKey b)).all (fun e => decide (e.2.toNat + 1000000000 ≤ v.time.toNat)) = true →
      exec (.scrubRead b off .correctable x h) s = .next (raise 0x0005 (bankUnit b) (bankName b ++ zeros 2 ++ leBytes 4 (rd v (bankRegs b)).toNat)
        { v with corrAt := tabInsert v.corrAt (bankKey b) v.time })) ∧
    ((v.corrAt.find? (fun e => e.1 == bankKey b)).any (fun e => decide (v.time.toNat < e.2.toNat + 1000000000)) = true →
      exec (.scrubRead b off .correctable x h) s = .next v)) ∧
  (∀ (b : MemBank) (off : BitVec 24) (x : Bool) (h : Holds) (s u v : State), s.mode = .running → bankPowered s b = true →
    u = (if x then { s with badWords := s.badWords.filter (fun x => x != (bankKey b, bankWord b off.toNat)) } else s) →
    (u.badWords.contains (bankKey b, bankWord b off.toNat) = true → v = u) →
    (u.badWords.contains (bankKey b, bankWord b off.toNat) = false → v = raise 0x0006 (bankUnit b) (bankName b)
      (wr (bankRegs b + 8) (BitVec.ofNat 32 (bankAddr b off.toNat)) (count (bankRegs b + 4) 1
        (wordDecoded b off.toNat { u with badWords := u.badWords ++ [(bankKey b, bankWord b off.toNat)] })))) →
    exec (.scrubRead b off .uncorrectable x .other) s = .next v ∧
    exec (.scrubRead b off .uncorrectable x .operatorImage) s = .next (restartDue 3 v) ∧
    (∀ l, exec (.scrubRead b off .uncorrectable x (.ldt l)) s = .next (ldtInvalidate l.toNat v))) ∧
  (∀ (b : MemBank) (off : BitVec 24) (f : Found) (x : Bool) (h : Holds) (s : State), (s.mode ≠ .running ∨ bankPowered s b = false) →
    exec (.scrubRead b off f x h) s = .next s) ∧
  (∀ (a : BitVec 28) (x : Word) (s : State), s.mode = .running → tmrBits a.toNat ≠ 0 →
    (addrDomain a.toNat).any (fun d => domState s d == 4) = false →
    exec (.tmrMismatch a true x) s = .next (raise 0x0007 unitDev (leBytes 4 a.toNat ++ [0])
      (wr tmrLastR (BitVec.ofNat 32 a.toNat) (count tmrMismatchCntR 1 s))) ∧
    exec (.tmrMismatch a false x) s = .next (raise 0x0007 unitDev (leBytes 4 a.toNat ++ [1])
      (wr a.toNat ((rd s a.toNat &&& ~~~(tmrBits a.toNat)) ||| (x &&& tmrBits a.toNat)) s))) ∧
  (∀ (a : BitVec 28) (m : Bool) (x : Word) (s : State), (tmrBits a.toNat = 0 ∨ (addrDomain a.toNat).any (fun d => domState s d == 4) = true) →
    exec (.tmrMismatch a m x) s = .next s) ∧
  (∀ (s : State), s.mode = .running → exec .lockstepMismatch s = .next ((s.cmd.inflight.filter awaitsSupervisor).foldl
    (fun s f => detach f (complete f.etag stNotReady [] s)) (wrB fwStateR 4 true s)))

/-- The operator firmware (R371, R375, R377, R380 to R386, R403): a trap, or a core whose heartbeat stands, stops it and its restart is
due, which a stalled grader does not need; the restart verifies the image, and the fourth within 60 s halts the operator; at a quiescent
point a staged image starts, or the old one stays where it fails; a staged patch starts; a floor follows the version that has run for 600
s; the supervisor makes the operator's register writes, refuses what the view of the path may not write, and drops what would change a
locked field. With nothing due the row changes nothing. -/
def Obligations.OperatorRows : Prop :=
  (∀ (m : Bool) (s : State), exec (.operatorTrap m) s = .next (if s.mode = .running ∧ s.fw.restarting = none ∧ inRecovery s = false ∧
    supHalted s = false then modCmd (fun c => { c with stopped := true }) (modFw (fun f => { f with restarting := some (if m then 3 else 2) }) s)
    else s)) ∧
  (∀ (b : List Word) (s u : State), s.mode = .running → rdB s operWdtCfgR 7 = true → inRecovery s = false → supHalted s = false →
    s.fw.restarting = none → s.fw.patching = none →
    u = modFw (fun f => { f with heartbeats := (List.range 20).map (fun k => (k, (b.getD k 0).toNat)) }) s →
    exec (.operatorWatchdogCheck b) s = .next (if (List.range 4).any (fun k => stale s k b) then restartDue 1 u
      else each ((List.range 16).filter (fun g => graderOn s g && domRuns s (64 + g / 2) && stale s (4 + g) b)) graderStalls u)) ∧
  (∀ (b : List Word) (s : State), (rdB s operWdtCfgR 7 = false ∨ inRecovery s = true ∨ supHalted s = true ∨ s.fw.restarting.isSome = true ∨
    s.fw.patching.isSome = true) → exec (.operatorWatchdogCheck b) s = .next s) ∧
  (∀ (c : BitVec 3) (s u : State) (x : Nat), s.mode = .running → s.fw.restarting = some x → supHalted s = false →
    (domRuns s 79 = true ∨ domState s 79 = 4 ∨ rdB s clkEnR 4 = false) →
    u = operatorStops noTag (modFw (fun f => { f with restartTimes := restartsNow s }) s) →
    exec (.operatorRestart c) s = .next (if 4 ≤ (restartsNow s).length
      then raise 0x0C04 unitDev (leBytes 1 x ++ leBytes 1 (restartsNow s).length) (enterRecovery u) else restartImage x c.toNat u)) ∧
  (∀ (c : BitVec 3) (s : State) (x : Nat), s.mode = .running → s.fw.restarting = some x → supHalted s = false →
    domRuns s 79 = false → domState s 79 ≠ 4 → rdB s clkEnR 4 = true → exec (.operatorRestart c) s = .next (beginWake 79 s)) ∧
  (∀ (c : BitVec 3) (s : State), (s.fw.restarting = none ∨ supHalted s = true) → exec (.operatorRestart c) s = .next s) ∧
  (∀ (c : BitVec 3) (s t u v : State) (e k : Nat), s.mode = .running → s.fw.activating = some e → supHalted s = false →
    s.fw.restarting = none → quiescent s = true → (domRuns s 79 = true ∨ domState s 79 = 4 ∨ rdB s clkEnR 4 = false) →
    (k, u) = (if domState s 79 = 4 ∨ rdB s clkEnR 4 = false then (1, s) else verifyBank (stagingBank s 0) c.toNat s) →
    v = modFw (fun f => { f with activating := none, verified := f.verified.filter (fun x => x != stagingBank s 0) }) u →
    t = operatorStops e (wrB fwStateR 2 false (wrB fwStateR 0 (stagingBank s 0 == 1) v)) →
    exec (.quiescentPoint c) s = .next (if k ≠ 0 then complete e stAborted [] (activationEnds v)
      else unitResetEvent 4 unitDev (raise 0x0C02 unitDev [] (complete e stOk [] (imageRuns 0 (stagingBank s 0)
        (activationEnds (if inRecovery v then each (List.range 64) pairsToSyn t else t))))))) ∧
  (∀ (c : BitVec 3) (s : State) (e : Nat), s.mode = .running → s.fw.activating = some e → supHalted s = false → s.fw.restarting = none →
    quiescent s = true → domRuns s 79 = false → domState s 79 ≠ 4 → rdB s clkEnR 4 = true →
    exec (.quiescentPoint c) s = .next (beginWake 79 s)) ∧
  (∀ (c : BitVec 3) (s : State), (s.fw.activating = none ∨ supHalted s = true ∨ s.fw.restarting.isSome = true ∨ quiescent s = false) →
    exec (.quiescentPoint c) s = .next s) ∧
  (∀ (s u : State) (e : Nat), s.mode = .running → s.fw.patching = some e → supHalted s = false →
    u = modFw (fun f => { f with patching := none, verified := f.verified.filter (fun x => x != stagingBank s 1) }) s →
    exec .patchActivation s = .next (complete e stOk [] (imageRuns 1 (stagingBank s 1)
      (wrB fwStateR 5 false (wrB fwStateR 1 (stagingBank s 1 == 3) u))))) ∧
  (∀ (s : State), (s.fw.patching = none ∨ supHalted s = true) → exec .patchActivation s = .next s) ∧
  (∀ (y : Bool) (s : State) (n : Nat), n = leAt (tabGet [] s.fw.headers (activeBank s (b2n y))) 0xC 2 →
    exec (.rollbackFloorTimer y) s = .next (if s.mode = .running ∧
      (s.fw.svnSince.find? (fun e => e.1 == b2n y)).any (fun e => decide (e.2.toNat + 600000000000 ≤ s.time.toNat)) = true ∧
      (if y then rdB s fwStateR 5 else inRecovery s) = false ∧ tabGet 0 s.fw.floors (b2n y) < n ∧ mramReady s = true ∧ mramHold s = false ∧
      supHalted s = false then modFw (fun f => { f with floors := tabInsert f.floors (b2n y) n }) s else s)) ∧
  (∀ (v : View) (a : BitVec 28) (w : Word) (s : State), s.mode = .running → supHalted s = false → pathRefused v a.toNat w s = true →
    exec (.supervisorRequest v a w) s = .next (firewallRefusal v a.toNat true s)) ∧
  (∀ (v : View) (a : BitVec 28) (w : Word) (s : State), s.mode = .running → supHalted s = false → pathRefused v a.toNat w s = false →
    changesLocked a.toNat w s = true → exec (.supervisorRequest v a w) s = .next s) ∧
  (∀ (v : View) (a : BitVec 28) (w : Word) (s : State), supHalted s = true → exec (.supervisorRequest v a w) s = .next s) ∧
  (∀ (v : View) (a : BitVec 28) (w : Word) (i : RegInfo) (s u : State) (k : Word × State), s.mode = .running → supHalted s = false →
    pathRefused v a.toNat w s = false → changesLocked a.toNat w s = false → a.toNat ≠ refSelR → writes .supervisor a.toNat i s = true →
    u = served .supervisor a.toNat true s → k = keepReserved .supervisor a.toNat (rd u a.toNat) w u →
    exec (.supervisorRequest v a w) s = .next (regWrite .supervisor i a.toNat k.1 0 0 k.2))

/-- Enumeration (R447 to R450): a worker takes a tentative address from TOKEN and adopts it at COMMIT; the manager sends COMMIT when the
token has returned and completes its command when COMMIT has, with the workers counted, or with CHAIN_DOWN after 10 ms; a frame that
answers no enumeration of its own is left. A frame that fails its CRC or has made 127 hops is counted and does nothing else, and none does
anything while the port does not run. Forwarded commands and events (R447, R452, R457): a command that comes draws an engine tag and takes
its own path, one that finds none stops the fetch; a reply completes the command forwarded to that device, or answers for it where many
were asked; a late one is counted; the manager delivers a worker's event, a worker passes it on. A dropped frame is counted, and none does
anything while the port does not run. -/
def Obligations.EnumerationAndForwardingRows : Prop :=
  (∀ (v : Byte) (s : State), chainRuns s = true → isManager s = false →
    exec (.tokenFrame .good v) s = .next (passFrame 1 63 (min 255 (v.toNat + 1)) []
      (modChain (fun c => { c with tentative := if v.toNat ≤ 62 then some v.toNat else none }) s))) ∧
  (∀ (v : Byte) (s : State) (e : Nat), chainRuns s = true → isManager s = true → s.chain.enum = some (e, 1) →
    exec (.tokenFrame .good v) s = .next (sendFrame 2 63 0 []
      (modChain (fun c => { c with enum := some (e, 2), token := v.toNat }) s))) ∧
  (∀ (v : Byte) (s : State), isManager s = true → s.chain.enum.all (fun x => x.2 != 1) = true →
    chainRuns s = true → exec (.tokenFrame .good v) s = .next s) ∧
  (∀ (s : State), chainRuns s = true → isManager s = false →
    exec (.commitFrame .good) s = .next (passFrame 2 63 0 [] (modChain (fun c => { c with tentative := none })
      (wrF chainStateR 15 8 (s.chain.tentative.getD 0xFF) (wrB chainStateR 1 s.chain.tentative.isSome s))))) ∧
  (∀ (s u : State) (e n : Nat), chainRuns s = true → isManager s = true → s.chain.enum = some (e, 2) → n = s.chain.token - 1 →
    u = wrB chainStateR 6 (decide (62 < n)) (wrF chainStateR 23 16 (min n 62) (modChain (fun c => { c with enum := none, lost := 0 }) s)) →
    exec (.commitFrame .good) s = .next (complete e stOk (leBytes 1 (min n 62) ++ leBytes 1 (b2n (decide (62 < n))) ++ zeros 2)
      (if 62 < n then raise 0x0D00 unitDev (leBytes 2 n) u else u))) ∧
  (∀ (s : State), isManager s = true → s.chain.enum.all (fun x => x.2 != 2) = true →
    chainRuns s = true → exec (.commitFrame .good) s = .next s) ∧
  (∀ (s : State), (∀ (e k : Nat), s.chain.enum = some (e, k) →
      exec .enumerationTimeout s = .next (complete e stChainDown [] (modChain (fun c => { c with enum := none }) s))) ∧
    (s.chain.enum = none → exec .enumerationTimeout s = .next s)) ∧
  (∀ (v : Byte) (s : State), chainRuns s = true →
    exec (.tokenFrame .badCrc v) s = .next (count chainCrcErrR 1 s) ∧
    exec (.tokenFrame .hops127 v) s = .next (count chainHopDropR 1 s) ∧
    exec (.commitFrame .badCrc) s = .next (count chainCrcErrR 1 s) ∧
    exec (.commitFrame .hops127) s = .next (count chainHopDropR 1 s)) ∧
  (∀ (f : Fate) (v : Byte) (s : State), chainRuns s = false →
    exec (.tokenFrame f v) s = .next s ∧ exec (.commitFrame f) s = .next s) ∧
  (∀ (op : BitVec 16) (c : Cmd) (s : State), chainRuns s = true → tagsFree s = 0 →
    exec (.cmdFrame .good op c) s = .next (fetchPause s)) ∧
  (∀ (op : BitVec 16) (c : Cmd) (s : State) (g : InFlight), chainRuns s = true → tagsFree s ≠ 0 →
    g = { etag := freeTag s, opcode := op.toNat, cmd := { c with path := .chain } } →
    exec (.cmdFrame .good op c) s = .next (submitted (freeTag s) (fetchedCount g.cmd
      (fetchResume (modCmd (fun x => { x with inflight := x.inflight ++ [g] }) s))))) ∧
  (∀ (e : BitVec 12) (a : BitVec 6) (st : BitVec 16) (r : List Byte) (s : State), chainRuns s = true →
    s.cmd.inflight.find? (fun g => g.etag == e.toNat) = none →
    exec (.replyFrame .good e a st r) s = .next (count chainLateReplyR 1 s)) ∧
  (∀ (e : BitVec 12) (a : BitVec 6) (st : BitVec 16) (r : List Byte) (s : State) (g : InFlight), chainRuns s = true →
    s.cmd.inflight.find? (fun g => g.etag == e.toNat) = some g → g.waitFor.testBit a.toNat = false →
    exec (.replyFrame .good e a st r) s = .next (if g.stage = .forwarded ∧ g.cmd.chainAddr.toNat = a.toNat
      then finish g st.toNat r s else count chainLateReplyR 1 s)) ∧
  (∀ (e : BitVec 12) (a : BitVec 6) (st : BitVec 16) (r : List Byte) (s : State) (g : InFlight), chainRuns s = true →
    s.cmd.inflight.find? (fun g => g.etag == e.toNat) = some g → g.waitFor.testBit a.toNat = true →
    exec (.replyFrame .good e a st r) s = .next (answer g a.toNat st.toNat s)) ∧
  (∀ (a : BitVec 6) (n : Word) (k u : BitVec 16) (t d : BitVec 64) (b : Bool) (s : State), chainRuns s = true → isManager s = true →
    exec (.eventFrame .good a n k u t d b) s = .next (stageRec
      { seq := n, code := k, unit := u, time := t, data := leBytes 8 d.toNat, origin := BitVec.ofNat 8 (a.toNat + 0x40), logged := b } s)) ∧
  (∀ (a : BitVec 6) (n : Word) (k u : BitVec 16) (t d : BitVec 64) (b : Bool) (s : State), chainRuns s = true → isManager s = false →
    exec (.eventFrame .good a n k u t d b) s = .next (passFrame 5 0 a.toNat (evBytes
      { seq := n, code := k, unit := u, time := t, data := leBytes 8 d.toNat, origin := 0, logged := b } false false) s)) ∧
  (∀ (op : BitVec 16) (c : Cmd) (e : BitVec 12) (a : BitVec 6) (st : BitVec 16) (r : List Byte) (n : Word) (k u : BitVec 16) (t d : BitVec 64)
    (b : Bool) (f : Fate) (s v : State), f ≠ .good →
    v = (if chainRuns s = false then s else if f = .badCrc then count chainCrcErrR 1 s else count chainHopDropR 1 s) →
    exec (.cmdFrame f op c) s = .next v ∧ exec (.replyFrame f e a st r) s = .next v ∧ exec (.eventFrame f a n k u t d b) s = .next v) ∧
  (∀ (op : BitVec 16) (c : Cmd) (e : BitVec 12) (a : BitVec 6) (st : BitVec 16) (r : List Byte) (n : Word) (k u : BitVec 16) (t d : BitVec 64)
    (b : Bool) (s : State), chainRuns s = false →
    exec (.cmdFrame .good op c) s = .next s ∧ exec (.replyFrame .good e a st r) s = .next s ∧
    exec (.eventFrame .good a n k u t d b) s = .next s)

/-- Chain time and the ring (R253, R254, R307, R451, R453 to R458): TIME frames are sent each millisecond, followed by an addressed worker
and measured by the manager on their return; a manager that sees another's serial number stops originating; losses are reported, and a lost
input that returns locks again or wakes the domain. Dropped frames are counted, and a row whose condition does not hold does nothing. -/
def Obligations.ChainTimeRows : Prop :=
  (∀ (s : State), exec .timeFrameSend s = .next (if chainRuns s = true ∧ isManager s = true ∧ twoManagers s = false
    then sendFrame 6 63 0 (timeBytes {
      tTx := s.time, corr := 0, decl := 0, nundecl := 0, unaddr := 0, fabric := managerFabric s, share := BitVec.ofInt 32 s.chain.share,
      present := 0, serial := Config.serial }) s else s)) ∧
  (∀ (f : TimeFrame) (r : Word) (s : State), chainRuns s = true → isManager s = true →
    exec (.timeFrameReceived .good f r) s = .next (if f.serial = Config.serial then s
      else timePass f r.toNat (raise 0x0D01 unitDev (leBytes 8 f.serial.toNat) (wrB chainStateR 4 true s)))) ∧
  (∀ (f : TimeFrame) (r : Word) (s : State), chainRuns s = true → isManager s = false → isAddressed s = false →
    exec (.timeFrameReceived .good f r) s = .next (timePass f r.toNat s)) ∧
  (∀ (f : TimeFrame) (r : Word) (s u : State) (off : Int), chainRuns s = true → isManager s = false → isAddressed s = true →
    off = chainEstimate f s - s.time.toNat * 1000 → u = wr chainTimeOfsR (BitVec.ofInt 32 off) (timePass f r.toNat s) →
    exec (.timeFrameReceived .good f r) s = .next (heldOut (wrB chainStateR 5 true
      (modChain (fun c => { c with timed := true, fabricOk := f.fabric }) (
        if u.chain.timed = false ∨ 1000000 < off.natAbs
        then lateEpochs (raise 0x0D03 unitDev (leBytes 8 (twos 64 (roundDiv off 1000)))
          (count chainTimeStepR 1 (setTime (BitVec.ofInt 64 (u.time.toNat + roundDiv off 1000)) u)))
        else setTime (BitVec.ofInt 64 (u.time.toNat + max (-200) (min 200 (roundDiv off 1000)))) u))))) ∧
  (∀ (f : TimeFrame) (r : Word) (s u : State), chainRuns s = true → isManager s = true →
    u = modChain (fun c => { c with returns := c.returns + 1 })
      (presence f.present (undeclared f r.toNat (wr chainRtR (BitVec.ofNat 32 r.toNat) s))) →
    ((u.chain.returns < 2 ∨ rdB u chainStateR 2 = true) → exec (.timeFrameReturn .good f r) s = .next u) ∧
    (2 ≤ u.chain.returns → rdB u chainStateR 2 = false → u.chain.broken = true →
      exec (.timeFrameReturn .good f r) s = .next (raise 0x0D09 unitDev []
        (modChain (fun c => { c with broken := false }) (wrB chainStateR 2 true u)))) ∧
    (2 ≤ u.chain.returns → rdB u chainStateR 2 = false → u.chain.broken = false →
      exec (.timeFrameReturn .good f r) s = .next (modChain (fun c => { c with broken := false }) (wrB chainStateR 2 true u)))) ∧
  (∀ (f : TimeFrame) (r : Word) (s : State), isManager s = false → chainRuns s = true →
    exec (.timeFrameReturn .good f r) s = .next s) ∧
  (∀ (s : State), exec .chainTimeTimeout s = .next (if s.mode = .running ∧ isManager s = false ∧ rdB s chainStateR 5 = true
    then modChain (fun c => { c with fabricOk := false }) (wrB chainStateR 5 false s) else s)) ∧
  (∀ (s : State), exec .fabricStatusTimeout s = .next (if s.mode = .running ∧ isManager s = false
    then modChain (fun c => { c with fabricOk := false }) s else s)) ∧
  (∀ (s u v : State), u = modChain (fun c => { c with returns := 0 }) s → v = (if rdB u chainStateR 2
      then forwardedDown (raise 0x0D08 unitDev (leBytes 1 0xFF) (modChain (fun c => { c with broken := true }) (wrB chainStateR 2 false u)))
      else u) →
    exec .ringBrokenTimeout s = .next (if chainRuns s = true ∧ isManager s = true then v else s)) ∧
  (∀ (b : Byte) (s u v : State), chainRuns s = true → u = modChain (fun c => { c with returns := 0 }) s → v = (if rdB u chainStateR 2
      then forwardedDown (raise 0x0D08 unitDev (leBytes 1 b.toNat) (modChain (fun c => { c with broken := true }) (wrB chainStateR 2 false u)))
      else u) →
    exec (.inLossFrame .good b) s = .next (if isManager s then v else passFrame 8 0 0 [b] s)) ∧
  (∀ (s : State), exec .chainInLoss s = .next (if chainRuns s = true ∧ rdB s chainStateR 3 = true
      then raise 0x0D07 unitDev [] (wrB chainStateR 3 false s) else s) ∧
    exec .inLossFrameSend s = .next (if chainRuns s = true ∧ rdB s chainStateR 3 = false
      then sendFrame 8 0 0 (leBytes 1 (srcByte s)) s else s) ∧
    exec .chainInRelock s = .next (if s.mode ≠ .running then s else if chainRuns s then wrB chainStateR 3 true s else beginWake 77 s)) ∧
  (∀ (f : TimeFrame) (r : Word) (b : Byte) (t : Fate) (s v : State), (t ≠ .good ∨ chainRuns s = false) →
    v = (if chainRuns s = false then s else if t = .badCrc then count chainCrcErrR 1 s else count chainHopDropR 1 s) →
    exec (.timeFrameReceived t f r) s = .next v ∧ exec (.timeFrameReturn t f r) s = .next v ∧ exec (.inLossFrame t b) s = .next v)

/-- Epoch actions (R265, R276, R362, R456): an addressed worker accepts, declines or rejects one, an unaddressed one passes it on; the
manager confirms one that all accept, cancels one that any declines or rejects, and completes a cancelling once all have seen it; a device
performs an action at its time, and discards it where no confirmation has come; a scheduled hop starts at its time. Before its time, or
with nothing that waits, a row does nothing; dropped frames are counted. -/
def Obligations.EpochRows : Prop :=
  (∀ (f : EpochFrame) (s : State), chainRuns s = true → chainAddr s = none →
    exec (.epochFrame .good f) s = .next (passFrame 7 63 0 (epochBytes f) s)) ∧
  (∀ (f : EpochFrame) (s : State) (a : Nat), chainRuns s = true → chainAddr s = some a → isManager s = true →
    exec (.epochFrame .good f) s = .next s) ∧
  (∀ (f : EpochFrame) (s : State) (a : Nat), chainRuns s = true → chainAddr s = some a → isManager s = false → f.kind = 2 →
    exec (.epochFrame .good f) s =
      .next (passFrame 7 63 0 (epochBytes { f with ack := setBit f.ack a true }) (epochDrop f.id s))) ∧
  (∀ (f : EpochFrame) (s : State) (a : Nat), chainRuns s = true → chainAddr s = some a → isManager s = false → f.kind = 1 →
    exec (.epochFrame .good f) s = .next (passFrame 7 63 0 (epochBytes f) (modChain (fun c => { c with
      epochs := c.epochs.map (fun x => if x.id == f.id then { x with confirmed := true } else x) }) s))) ∧
  (∀ (f : EpochFrame) (s : State) (a : Nat) (x y z : Bool), chainRuns s = true → chainAddr s = some a → isManager s = false →
    f.kind ≠ 1 → f.kind ≠ 2 → epochAnswer s f.action.toNat (72 + b2n f.pll) = (x, y, z) →
    exec (.epochFrame .good f) s =
      .next (passFrame 7 63 0 (epochBytes { f with ack := setBit f.ack a x, busy := setBit f.busy a y, reject := setBit f.reject a z })
      (if x then epochTake f s else s))) ∧
  (∀ (f : EpochFrame) (s : State), chainRuns s = true → epochCommand s f.id = none → exec (.epochFrameReturn .good f) s = .next s) ∧
  (∀ (f : EpochFrame) (s : State) (g : InFlight), chainRuns s = true → epochCommand s f.id = some g → leAt g.cmd.params 8 1 = 4 →
    exec (.epochFrameReturn .good f) s = .next (if f.ack &&& BitVec.ofNat 64 (2 ^ (workers s + 1) - 1) =
      BitVec.ofNat 64 (2 ^ (workers s + 1) - 1) then complete g.etag stOk (leBytes 4 f.id.toNat) s else s)) ∧
  (∀ (f : EpochFrame) (s : State) (g : InFlight), chainRuns s = true → epochCommand s f.id = some g →
    leAt g.cmd.params 8 1 ≠ 4 → (f.busy ≠ 0 ∨ f.reject ≠ 0) →
    exec (.epochFrameReturn .good f) s = .next (rejectEvent (complete g.etag (if f.busy ≠ 0 then stBusy else stRefused) [] (cancelFrame f.id s)))) ∧
  (∀ (f : EpochFrame) (s : State) (g : InFlight), chainRuns s = true → epochCommand s f.id = some g →
    leAt g.cmd.params 8 1 ≠ 4 → f.busy = 0 → f.reject = 0 →
    exec (.epochFrameReturn .good f) s = .next (
      if f.ack &&& BitVec.ofNat 64 (2 ^ (workers s + 1) - 1) = BitVec.ofNat 64 (2 ^ (workers s + 1) - 1)
      then complete g.etag stOk (leBytes 4 f.id.toNat) (sendEpoch { f with kind := 1 } (modChain (fun c => { c with
        epochs := c.epochs.map (fun x => if x.id == f.id then { x with confirmed := true } else x) }) s)) else s)) ∧
  (∀ (f : EpochFrame) (t : Fate) (s v : State), (t ≠ .good ∨ chainRuns s = false) →
    v = (if chainRuns s = false then s else if t = .badCrc then count chainCrcErrR 1 s else count chainHopDropR 1 s) →
    exec (.epochFrame t f) s = .next v ∧ exec (.epochFrameReturn t f) s = .next v) ∧
  (∀ (id : Word) (s : State), (∀ (g : InFlight), epochCommand s id = some g →
      exec (.epochReturnTimeout id) s = .next (complete g.etag stChainDown [] (cancelFrame id s))) ∧
    (epochCommand s id = none → exec (.epochReturnTimeout id) s = .next s)) ∧
  (∀ (id : Word) (s : State), exec (.epochUnconfirmedDiscard id) s = .next (
    if s.mode = .running ∧ (epochOf s id).any (fun x => !x.confirmed) = true then epochDrop id s else s)) ∧
  (∀ (id : Word) (s : State), (∀ (x : Epoch), epochOf s id = some x → exec (.epochFire (some id)) s = .next (
      if s.mode = .running ∧ x.time.toNat ≤ s.time.toNat then
        if x.action = 1 then clapPulse (epochDrop x.id s)
        else if x.action = 2 then
          if hopRefused (epochDrop x.id s) x.pll then rejectEvent (epochDrop x.id s) else rackHop x.pll x.slot none (epochDrop x.id s)
        else raise 0x0D06 unitDev (leBytes 4 x.id.toNat) (epochDrop x.id s)
      else s)) ∧
    (epochOf s id = none → exec (.epochFire (some id)) s = .next s)) ∧
  (∀ (s : State), (∀ (t : BitVec 64), s.pulse = some t → exec (.epochFire none) s = .next (
      if s.mode = .running ∧ t.toNat ≤ s.time.toNat then clapPulse { s with pulse := none } else s)) ∧
    (s.pulse = none → exec (.epochFire none) s = .next s)) ∧
  (∀ (i : Pll) (s u : State), u = { s with hops := tabErase s.hops i.val } →
    (∀ (j k : Nat) (t : BitVec 64), s.hops.find? (fun h => h.1 == i.val) = some (j, k, t) →
      exec (.scheduledHopFire i) s = .next (if s.mode = .running ∧ t.toNat ≤ s.time.toNat
        then (if rackState u i.val = 0 then u else rackHop i.val k none u) else s)) ∧
    (s.hops.find? (fun h => h.1 == i.val) = none → exec (.scheduledHopFire i) s = .next s))

/-- The codes of the wires (R29, R41, R63, R214): the inner code of any 120 bits is a codeword of which the decoder corrects every single
error and detects every double one; scrambling twice from one state gives the bits back; no DAC code passes 127 for taps and amplitude
within their limits, which loader check 0x08 asks for; a receiver that drops the symbol after each run of 8 gets back what was stuffed, and
counts no stuff error. -/
def Obligations.WireCodes : Prop :=
  (∀ c : List Bool, c.length = 120 → isCodeword (innerEncode c) = true ∧
    (∀ i < 128, innerDecode (flipBit (innerEncode c) i) = (innerEncode c, .corrected)) ∧
    (∀ i j, i < j → j < 128 → (innerDecode (flipBit (flipBit (innerEncode c) i) j)).2 = .detected)) ∧
  (∀ (x : BitVec 23) (bits : List Bool), (scrambleBits x (scrambleBits x bits).1).1 = bits) ∧
  (∀ (t : List Byte), rangeFault t = none → ((s16s t 0x40 6).map Int.natAbs).sum ≤ 16384 ∧ txAmpl t ≤ 1024) ∧
  (∀ (t : List Byte) (a : Int → Int) (n : Int), ((s16s t 0x40 6).map Int.natAbs).sum ≤ 16384 → txAmpl t ≤ 1024 →
    (∀ k, (a k).natAbs ≤ 3) → (dacCode t a n).natAbs ≤ 127) ∧
  (∀ l : List Int, unstuffed 0 0 (stuffed 0 0 l) = (l, 0))
end

