-- ==== Sys2Proof/Laws/Access.lean ====
section
/-! SUPPORT. What a served access does (R378, R391 to R403), said once. -/
namespace Sys2Proof.Laws
open Sys2Proof Sys2Proof.Machine

/-- A register without a reserved code takes the word as it is written. -/
theorem keepReserved_plain {v : View} {a : Nat} {cur w : Word} {s : State} (h : codeFields a = []) : keepReserved v a cur w s = (w, s) := by
  simp [keepReserved, h]

/-- A served write of one word runs the register's own write on the state in which the access has completed, with fields of a reserved code
left as they are. -/
theorem writeWord_writes {v : View} {a : Nat} {i : RegInfo} {w : Word} {step : BitVec 16} {diff : Word} {s u : State} {k : Word × State}
    (h : writes v a i s = true) (hu : u = served v a true s) (hk : k = keepReserved v a (rd u a) w u) :
    (writeWord v a w true step diff s).2 = regWrite v i a k.1 step diff k.2 := by
  subst hk hu
  simp only [writes, Bool.and_eq_true, beq_iff_eq] at h
  obtain ⟨⟨⟨⟨⟨hr, hv⟩, ha⟩, hi⟩, hf⟩, hl⟩ := h
  have hz : (0 : Word) ≠ allOnes := by decide
  have hw : (w &&& ~~~(0 ||| 0)) ||| (rd (served v a true s) a &&& (0 ||| 0)) = w := by
    have hn : (~~~(0 ||| 0) : Word) = BitVec.allOnes 32 := by decide
    have hx : (rd (served v a true s) a &&& (0 ||| 0) : Word) = 0#32 := by simp
    rw [hn, hx, BitVec.and_allOnes, BitVec.or_zero]
  simp only [writeWord, hr, ha, hv, serveWrite, hi, hf, hl, if_neg hz, hw]
  simp

/-- The same for a write from outside, of any register but REF_SEL. -/
theorem busWrite_writes {v : View} {a : Nat} {i : RegInfo} {w : Word} {s u : State} {k : Word × State} (h : writes v a i s = true)
    (hu : u = served v a true s) (hk : k = keepReserved v a (rd u a) w u) (hne : a ≠ refSelR) :
    busWrite v a w s = regWrite v i a k.1 0 0 k.2 := by
  rw [busWrite, if_neg hne, writeWord_writes h hu hk]

/-- And of a register without reserved codes. -/
theorem busWrite_plain {v : View} {a : Nat} {i : RegInfo} {w : Word} {s : State} (h : writes v a i s = true) (hc : codeFields a = [])
    (hne : a ≠ refSelR) : busWrite v a w s = regWrite v i a w 0 0 (served v a true s) := by
  rw [busWrite_writes h rfl rfl hne, keepReserved_plain hc]

/-- A served read of a register returns the word and leaves what the read leaves. -/
theorem busRead_reads {v : View} {a : Nat} {s : State} (h : reads v a s = true) (hb : a ≠ bcfgDataR) (hf : freeRead s a = false)
    (ht : inTakes a = false) (hr : inRushes a = false) :
    busRead v a true s = emit (.readData v (peek s v a) false) (served v a false (afterRead v a s)) := by
  simp only [reads, Bool.and_eq_true, beq_iff_eq] at h
  obtain ⟨⟨hx, hv⟩, ha⟩ := h
  simp [busRead, hx, readWord, ha, hv, readValue, windowWords, hb, hf, ht, hr]

/-- A register below the tiles is the hub's. -/
theorem regWrite_hub {v : View} {i : RegInfo} {a : Nat} {w : Word} {step : BitVec 16} {diff : Word} {s : State} (h : a < 0x1000000) :
    regWrite v i a w step diff s = hubWrite v i a w step diff s := if_pos h

/-- A register of BAR0 above the hub is a tile's. -/
theorem regWrite_tile {v : View} {i : RegInfo} {a : Nat} {w : Word} {step : BitVec 16} {diff : Word} {s : State}
    (h : 0x1000000 ≤ a) (h' : a < 0x10000000) : regWrite v i a w step diff s = tileWrite v i a w s := by
  rw [regWrite, if_neg (by omega), if_pos h']

end Sys2Proof.Laws
end

