-- ==== Sys2Proof/Laws/Command.lean ====
section
/-! SUPPORT. What the command runner does (R327), said once. -/
namespace Sys2Proof.Laws
open Sys2Proof Sys2Proof.Machine

/-- A command that passes every check runs its action on the state after the checks. -/
theorem command_starts {o : OpSpec} {c : Cmd} {act : Nat → State → State} {s u : State} {e : Nat}
    (h : startOf o c s = some (e, u)) : command o c act s = act e u := by
  unfold startOf at h
  unfold command
  split at h
  · cases h
  · rename_i h0
    simp only [h0, Bool.false_eq_true, if_false]
    split at h
    · cases h
    · rename_i f v hc
      try simp only [hc]
      split at h
      · cases h
      · rename_i h1
        simp only [Bool.or_eq_true, not_or, Bool.not_eq_true, bne_eq_false_iff_eq, Option.isSome_eq_false_iff,
          Option.isNone_iff_eq_none] at h1
        obtain ⟨⟨hb, hp⟩, hf⟩ := h1
        simp only [hb, hp, Bool.false_eq_true, if_false, runHere, hf]
        by_cases hd : (commandDomains o.opcode (inRecovery v) (decide (domState v 79 < 3)) c).all (domRuns v) = true
        · simp only [hd, if_true, Option.some.injEq, Prod.mk.injEq] at h
          obtain ⟨rfl, rfl⟩ := h
          rw [if_pos hd]
        · simp [hd] at h

/-- What a command row leaves as it is when the device does not run or the operator firmware is being restarted. -/
theorem command_idle {o : OpSpec} {c : Cmd} {act : Nat → State → State} {s : State}
    (h : s.mode ≠ .running ∨ s.cmd.stopped = true) : command o c act s = s := by
  unfold command
  rcases h with h | h <;> simp [h]

end Sys2Proof.Laws
end

