-- ==== Sys2Proof/Laws/Keep.lean ====
section
/-! SUPPORT. What every operation keeps: the queue of waiting commands, the canonical form of the memories and of the registers, and the
pool of engine tags (R323). -/
namespace Sys2Proof.Machine

/-! ### Tables -/

theorem tabSorted_tail {α : Type} {x : Nat × α} {t : Tab α} (h : tabSorted (x :: t) = true) : tabSorted t = true := by
  cases t with
  | nil => rfl
  | cons y t => obtain ⟨a, b⟩ := x; obtain ⟨c, d⟩ := y; simp [tabSorted] at h; exact h.2

/-- Every key of a table is above a bound. -/
def tabAbove {α : Type} (n : Nat) (t : Tab α) : Prop := ∀ e ∈ t, n < e.1

theorem tabSorted_cons {α : Type} {x : Nat × α} {t : Tab α} : tabSorted (x :: t) = true ↔ tabAbove x.1 t ∧ tabSorted t = true := by
  induction t generalizing x with
  | nil => simp [tabSorted, tabAbove]
  | cons y t ih =>
    obtain ⟨a, b⟩ := x
    obtain ⟨c, d⟩ := y
    have hc := @ih (c, d)
    simp only [tabSorted, Bool.and_eq_true, decide_eq_true_eq]
    constructor
    · rintro ⟨h1, h2⟩
      refine ⟨fun e he => ?_, h2⟩
      rcases List.mem_cons.mp he with rfl | he
      · exact h1
      · exact Nat.lt_trans h1 ((hc.mp h2).1 e he)
    · rintro ⟨h1, h2⟩
      exact ⟨h1 _ (List.mem_cons_self ..), h2⟩

theorem tabAbove_erase {α : Type} {n k : Nat} {t : Tab α} (h : tabAbove n t) : tabAbove n (tabErase t k) := by
  induction t with
  | nil => exact h
  | cons y t ih =>
    obtain ⟨c, d⟩ := y
    simp only [tabErase]
    split
    · exact ih (fun e he => h e (List.mem_cons_of_mem _ he))
    · intro e he
      rcases List.mem_cons.mp he with rfl | he
      · exact h _ (List.mem_cons_self ..)
      · exact ih (fun e he => h e (List.mem_cons_of_mem _ he)) e he

theorem tabSorted_erase {α : Type} {k : Nat} {t : Tab α} (h : tabSorted t = true) : tabSorted (tabErase t k) = true := by
  induction t with
  | nil => exact h
  | cons y t ih =>
    have h' := tabSorted_cons.mp h
    obtain ⟨c, d⟩ := y
    simp only [tabErase]
    split
    · exact ih h'.2
    · exact tabSorted_cons.mpr ⟨tabAbove_erase h'.1, ih h'.2⟩

theorem tabAbove_insert {α : Type} {n k : Nat} {x : α} {t : Tab α} (h : tabAbove n t) (hk : n < k) : tabAbove n (tabInsert t k x) := by
  induction t with
  | nil => simp [tabInsert, tabAbove]; exact hk
  | cons y t ih =>
    obtain ⟨c, d⟩ := y
    have ht : tabAbove n t := fun e he => h e (List.mem_cons_of_mem _ he)
    simp only [tabInsert]
    split
    · intro e he
      rcases List.mem_cons.mp he with rfl | he
      · exact hk
      · exact h e he
    · split
      · intro e he
        rcases List.mem_cons.mp he with rfl | he
        · exact hk
        · exact ht e he
      · intro e he
        rcases List.mem_cons.mp he with rfl | he
        · exact h _ (List.mem_cons_self ..)
        · exact ih ht e he

theorem tabSorted_insert {α : Type} {k : Nat} {x : α} {t : Tab α} (h : tabSorted t = true) : tabSorted (tabInsert t k x) = true := by
  induction t with
  | nil => rfl
  | cons y t ih =>
    have h' := tabSorted_cons.mp h
    obtain ⟨c, d⟩ := y
    simp only [tabInsert]
    split
    · refine tabSorted_cons.mpr ⟨fun e he => ?_, h⟩
      rcases List.mem_cons.mp he with rfl | he
      · assumption
      · exact Nat.lt_trans ‹_› (h'.1 e he)
    · split
      · subst_vars; exact tabSorted_cons.mpr ⟨h'.1, h'.2⟩
      · exact tabSorted_cons.mpr ⟨tabAbove_insert h'.1 (by show c < k; omega), ih h'.2⟩

theorem mem_tabErase {α : Type} {k : Nat} {t : Tab α} {e : Nat × α} (h : e ∈ tabErase t k) : e ∈ t := by
  induction t with
  | nil => exact h
  | cons y t ih =>
    obtain ⟨c, d⟩ := y
    simp only [tabErase] at h
    split at h
    · exact List.mem_cons_of_mem _ (ih h)
    · rcases List.mem_cons.mp h with rfl | h
      · exact List.mem_cons_self ..
      · exact List.mem_cons_of_mem _ (ih h)

theorem mem_tabInsert {α : Type} {k : Nat} {x : α} {t : Tab α} {e : Nat × α} (h : e ∈ tabInsert t k x) : e = (k, x) ∨ e ∈ t := by
  induction t with
  | nil => simpa [tabInsert] using h
  | cons y t ih =>
    obtain ⟨c, d⟩ := y
    simp only [tabInsert] at h
    split at h
    · exact List.mem_cons.mp h
    · split at h
      · rcases List.mem_cons.mp h with rfl | h
        · exact .inl rfl
        · exact .inr (List.mem_cons_of_mem _ h)
      · rcases List.mem_cons.mp h with rfl | h
        · exact .inr (List.mem_cons_self ..)
        · rcases ih h with h | h
          · exact .inl h
          · exact .inr (List.mem_cons_of_mem _ h)

/-- A table stays in canonical form when a key takes a new value. -/
theorem tabCanon_put {α : Type} [DecidableEq α] {d : Nat → α} {t : Tab α} (k : Nat) (x : α) (h : tabCanon d t = true) :
    tabCanon d (tabPut (d k) t k x) = true := by
  simp only [tabCanon, Bool.and_eq_true, List.all_eq_true, decide_eq_true_eq] at h ⊢
  simp only [tabPut]
  split
  · exact ⟨tabSorted_erase h.1, fun e he => h.2 e (mem_tabErase he)⟩
  · refine ⟨tabSorted_insert h.1, fun e he => ?_⟩
    rcases mem_tabInsert he with rfl | he
    · assumption
    · exact h.2 e he

theorem tabSorted_filter {α : Type} {t : Tab α} (p : Nat × α → Bool) (h : tabSorted t = true) : tabSorted (t.filter p) = true := by
  induction t with
  | nil => exact h
  | cons y t ih =>
    have h' := tabSorted_cons.mp h
    rw [List.filter_cons]
    split
    · exact tabSorted_cons.mpr ⟨fun e he => h'.1 e (List.mem_filter.mp he).1, ih h'.2⟩
    · exact ih h'.2

theorem tabCanon_filter {α : Type} [DecidableEq α] {d : Nat → α} {t : Tab α} (p : Nat × α → Bool) (h : tabCanon d t = true) :
    tabCanon d (t.filter p) = true := by
  simp only [tabCanon, Bool.and_eq_true, List.all_eq_true, decide_eq_true_eq] at h ⊢
  exact ⟨tabSorted_filter p h.1, fun e he => h.2 e (List.mem_filter.mp he).1⟩

theorem bytesWf_putBytes0 {m : Tab Byte} (a : Nat) (b : List Byte) (h : bytesWf m = true) : bytesWf (putBytes0 m a b) = true := by
  induction b generalizing m a with
  | nil => exact h
  | cons x t ih => exact ih _ (tabCanon_put (d := fun _ => (0 : Byte)) a x h)

theorem tabSorted_putBytes {m : Tab Byte} (a : Nat) (b : List Byte) (h : tabSorted m = true) : tabSorted (putBytes m a b) = true := by
  induction b generalizing m a with
  | nil => exact h
  | cons x t ih => exact ih _ (tabSorted_insert h)

/-! ### The predicate, and how it passes through the forms that meanings are made of -/

/-- What is to stay as it is: the queue of waiting commands, and every kind of state whose value is given. -/
structure Fixed where
  waiting : List Instr
  host : Option (Tab Byte) := none
  mram : Option (Tab Byte) := none
  sram : Option (Tab Byte) := none
  takes : Option (Tab (List Byte)) := none
  recs : Option (Tab (List Byte)) := none
  mode : Option (DevMode) := none
  time : Option (BitVec 64) := none
  links : Option (Tab LinkSt) := none
  pairs : Option (Tab PairSt) := none
  ports : Option (Tab PortSt) := none
  tiles : Option (Tab TileSt) := none
  runs : Option (Tab (List Run)) := none
  captures : Option (Tab (List Capture)) := none
  syns : Option (Tab SynSt) := none
  lanes : Option (Tab LaneSt) := none
  fw : Option (FwSt) := none
/-- What is given stands in the state. -/
def Fixes (F : Fixed) (s : State) : Prop :=
  (∀ x, F.host = some x → s.hostMem = x)
    ∧ (∀ x, F.mram = some x → s.mram = x)
    ∧ (∀ x, F.sram = some x → s.sram = x)
    ∧ (∀ x, F.takes = some x → s.takes = x)
    ∧ (∀ x, F.recs = some x → s.contRecs = x)
    ∧ (∀ x, F.mode = some x → s.mode = x)
    ∧ (∀ x, F.time = some x → s.time = x)
    ∧ (∀ x, F.links = some x → s.links = x)
    ∧ (∀ x, F.pairs = some x → s.pairs = x)
    ∧ (∀ x, F.ports = some x → s.ports = x)
    ∧ (∀ x, F.tiles = some x → s.tiles = x)
    ∧ (∀ x, F.runs = some x → s.runs = x)
    ∧ (∀ x, F.captures = some x → s.captures = x)
    ∧ (∀ x, F.syns = some x → s.syns = x)
    ∧ (∀ x, F.lanes = some x → s.lanes = x)
    ∧ (∀ x, F.fw = some x → s.fw = x)
theorem notFixed {α : Type} {o : Option α} {x : α} {p : Prop} (n : o = none) (e : o = some x) : p := by
  rw [n] at e; exact nomatch e
theorem fixes_host {F : Fixed} {s : State} {x} (h : Fixes F s) (n : F.host = none) : Fixes F { s with hostMem := x } :=
  ⟨fun _ e => notFixed n e, h.2⟩
theorem fixes_mram {F : Fixed} {s : State} {x} (h : Fixes F s) (n : F.mram = none) : Fixes F { s with mram := x } :=
  ⟨h.1, fun _ e => notFixed n e, h.2.2⟩
theorem fixes_sram {F : Fixed} {s : State} {x} (h : Fixes F s) (n : F.sram = none) : Fixes F { s with sram := x } :=
  ⟨h.1, h.2.1, fun _ e => notFixed n e, h.2.2.2⟩
theorem fixes_takes {F : Fixed} {s : State} {x} (h : Fixes F s) (n : F.takes = none) : Fixes F { s with takes := x } :=
  ⟨h.1, h.2.1, h.2.2.1, fun _ e => notFixed n e, h.2.2.2.2⟩
theorem fixes_recs {F : Fixed} {s : State} {x} (h : Fixes F s) (n : F.recs = none) : Fixes F { s with contRecs := x } :=
  ⟨h.1, h.2.1, h.2.2.1, h.2.2.2.1, fun _ e => notFixed n e, h.2.2.2.2.2⟩
theorem fixes_mode {F : Fixed} {s : State} {x} (h : Fixes F s) (n : F.mode = none) : Fixes F { s with mode := x } :=
  ⟨h.1, h.2.1, h.2.2.1, h.2.2.2.1, h.2.2.2.2.1, fun _ e => notFixed n e, h.2.2.2.2.2.2⟩
theorem fixes_time {F : Fixed} {s : State} {x} (h : Fixes F s) (n : F.time = none) : Fixes F { s with time := x } :=
  ⟨h.1, h.2.1, h.2.2.1, h.2.2.2.1, h.2.2.2.2.1, h.2.2.2.2.2.1, fun _ e => notFixed n e, h.2.2.2.2.2.2.2⟩
theorem fixes_links {F : Fixed} {s : State} {x} (h : Fixes F s) (n : F.links = none) : Fixes F { s with links := x } :=
  ⟨h.1, h.2.1, h.2.2.1, h.2.2.2.1, h.2.2.2.2.1, h.2.2.2.2.2.1, h.2.2.2.2.2.2.1, fun _ e => notFixed n e, h.2.2.2.2.2.2.2.2⟩
theorem fixes_pairs {F : Fixed} {s : State} {x} (h : Fixes F s) (n : F.pairs = none) : Fixes F { s with pairs := x } :=
  ⟨h.1, h.2.1, h.2.2.1, h.2.2.2.1, h.2.2.2.2.1, h.2.2.2.2.2.1, h.2.2.2.2.2.2.1, h.2.2.2.2.2.2.2.1, fun _ e => notFixed n e, h.2.2.2.2.2.2.2.2.2⟩
theorem fixes_ports {F : Fixed} {s : State} {x} (h : Fixes F s) (n : F.ports = none) : Fixes F { s with ports := x } :=
  ⟨h.1, h.2.1, h.2.2.1, h.2.2.2.1, h.2.2.2.2.1, h.2.2.2.2.2.1, h.2.2.2.2.2.2.1, h.2.2.2.2.2.2.2.1, h.2.2.2.2.2.2.2.2.1,
    fun _ e => notFixed n e, h.2.2.2.2.2.2.2.2.2.2⟩
theorem fixes_tiles {F : Fixed} {s : State} {x} (h : Fixes F s) (n : F.tiles = none) : Fixes F { s with tiles := x } :=
  ⟨h.1, h.2.1, h.2.2.1, h.2.2.2.1, h.2.2.2.2.1, h.2.2.2.2.2.1, h.2.2.2.2.2.2.1, h.2.2.2.2.2.2.2.1, h.2.2.2.2.2.2.2.2.1,
    h.2.2.2.2.2.2.2.2.2.1, fun _ e => notFixed n e, h.2.2.2.2.2.2.2.2.2.2.2⟩
theorem fixes_runs {F : Fixed} {s : State} {x} (h : Fixes F s) (n : F.runs = none) : Fixes F { s with runs := x } :=
  ⟨h.1, h.2.1, h.2.2.1, h.2.2.2.1, h.2.2.2.2.1, h.2.2.2.2.2.1, h.2.2.2.2.2.2.1, h.2.2.2.2.2.2.2.1, h.2.2.2.2.2.2.2.2.1,
    h.2.2.2.2.2.2.2.2.2.1, h.2.2.2.2.2.2.2.2.2.2.1, fun _ e => notFixed n e, h.2.2.2.2.2.2.2.2.2.2.2.2⟩
theorem fixes_captures {F : Fixed} {s : State} {x} (h : Fixes F s) (n : F.captures = none) : Fixes F { s with captures := x } :=
  ⟨h.1, h.2.1, h.2.2.1, h.2.2.2.1, h.2.2.2.2.1, h.2.2.2.2.2.1, h.2.2.2.2.2.2.1, h.2.2.2.2.2.2.2.1, h.2.2.2.2.2.2.2.2.1,
    h.2.2.2.2.2.2.2.2.2.1, h.2.2.2.2.2.2.2.2.2.2.1, h.2.2.2.2.2.2.2.2.2.2.2.1, fun _ e => notFixed n e, h.2.2.2.2.2.2.2.2.2.2.2.2.2⟩
theorem fixes_syns {F : Fixed} {s : State} {x} (h : Fixes F s) (n : F.syns = none) : Fixes F { s with syns := x } :=
  ⟨h.1, h.2.1, h.2.2.1, h.2.2.2.1, h.2.2.2.2.1, h.2.2.2.2.2.1, h.2.2.2.2.2.2.1, h.2.2.2.2.2.2.2.1, h.2.2.2.2.2.2.2.2.1,
    h.2.2.2.2.2.2.2.2.2.1, h.2.2.2.2.2.2.2.2.2.2.1, h.2.2.2.2.2.2.2.2.2.2.2.1, h.2.2.2.2.2.2.2.2.2.2.2.2.1, fun _ e => notFixed n e,
    h.2.2.2.2.2.2.2.2.2.2.2.2.2.2⟩
theorem fixes_lanes {F : Fixed} {s : State} {x} (h : Fixes F s) (n : F.lanes = none) : Fixes F { s with lanes := x } :=
  ⟨h.1, h.2.1, h.2.2.1, h.2.2.2.1, h.2.2.2.2.1, h.2.2.2.2.2.1, h.2.2.2.2.2.2.1, h.2.2.2.2.2.2.2.1, h.2.2.2.2.2.2.2.2.1,
    h.2.2.2.2.2.2.2.2.2.1, h.2.2.2.2.2.2.2.2.2.2.1, h.2.2.2.2.2.2.2.2.2.2.2.1, h.2.2.2.2.2.2.2.2.2.2.2.2.1, h.2.2.2.2.2.2.2.2.2.2.2.2.2.1,
    fun _ e => notFixed n e, h.2.2.2.2.2.2.2.2.2.2.2.2.2.2.2⟩
theorem fixes_fw {F : Fixed} {s : State} {x} (h : Fixes F s) (n : F.fw = none) : Fixes F { s with fw := x } :=
  ⟨h.1, h.2.1, h.2.2.1, h.2.2.2.1, h.2.2.2.2.1, h.2.2.2.2.2.1, h.2.2.2.2.2.2.1, h.2.2.2.2.2.2.2.1, h.2.2.2.2.2.2.2.2.1,
    h.2.2.2.2.2.2.2.2.2.1, h.2.2.2.2.2.2.2.2.2.2.1, h.2.2.2.2.2.2.2.2.2.2.2.1, h.2.2.2.2.2.2.2.2.2.2.2.2.1, h.2.2.2.2.2.2.2.2.2.2.2.2.2.1,
    h.2.2.2.2.2.2.2.2.2.2.2.2.2.2.1, fun _ e => notFixed n e⟩

/-- A state that is well formed, with what is to stay as it is. -/
structure Keeps (F : Fixed) (s : State) : Prop where
  queue : s.pending = F.waiting
  mram : bytesWf s.mram = true
  sram : bytesWf s.sram = true
  mailbox : bytesWf s.cmd.mailbox = true
  host : tabSorted s.hostMem = true
  regs : tabCanon regReset s.regs = true
  tags : tagsOk s.cmd = true
  fixed : Fixes F s
/-- The same of an answer that comes with a state. -/
def KeepsR {α : Type} (F : Fixed) (p : α × State) : Prop := Keeps F p.2
/-- The same of what a command answers. -/
def KeepsO (F : Fixed) (o : Out State) : Prop := match o with
  | .next t => Keeps F t
  | _ => True

variable {F : Fixed}

theorem keeps_wf {s : State} (h : Keeps F s) : s.wf = true := by
  simp only [State.wf, Memory.wf, regsWf, Bool.and_eq_true]
  exact ⟨⟨⟨⟨⟨h.2, h.3⟩, h.4⟩, h.5⟩, h.6⟩, h.7⟩
theorem keeps_of_wf {s : State} (hq : s.pending = F.waiting) (hf : Fixes F s) (h : s.wf = true) : Keeps F s := by
  simp only [State.wf, Memory.wf, regsWf, Bool.and_eq_true] at h
  exact ⟨hq, h.1.1.1.1.1, h.1.1.1.1.2, h.1.1.1.2, h.1.1.2, h.1.2, h.2, hf⟩
theorem keeps_ite {c : Prop} [Decidable c] {a b : State} (ha : Keeps F a) (hb : Keeps F b) : Keeps F (if c then a else b) := by
  split <;> assumption
theorem keepsR_ite {α : Type} {c : Prop} [Decidable c] {a b : α × State} (ha : KeepsR F a) (hb : KeepsR F b) :
    KeepsR F (if c then a else b) := by
  split <;> assumption
theorem keepsR_mk {α : Type} {a : α} {s : State} (h : Keeps F s) : KeepsR F (a, s) := h
theorem keeps_snd {α : Type} {p : α × State} (h : KeepsR F p) : Keeps F p.2 := h
theorem keepsO_next {s : State} (h : Keeps F s) : KeepsO F (.next s) := h
theorem keepsR_dest {α : Type} {a : α} {s : State} (h : KeepsR F (a, s)) : Keeps F s := h
theorem keepsR_eq {α : Type} {p : α × State} {a : α} {t : State} (h : KeepsR F p) (e : p = (a, t)) : Keeps F t := by subst e; exact h
theorem keeps_foldl {α : Type} {l : List α} {f : State → α → State} {s : State} (hf : ∀ s x, Keeps F s → Keeps F (f s x))
    (h : Keeps F s) : Keeps F (l.foldl f s) := by
  induction l generalizing s with
  | nil => exact h
  | cons x l ih => exact ih (hf s x h)
theorem keeps_each {l : List Nat} {f : Nat → State → State} {s : State} (hf : ∀ n s, Keeps F s → Keeps F (f n s)) (h : Keeps F s) :
    Keeps F (each l f s) := keeps_foldl (fun s n => hf n s) h
theorem keepsR_foldl {α β : Type} {l : List α} {f : β × State → α → β × State} {p : β × State}
    (hf : ∀ b s x, Keeps F s → KeepsR F (f (b, s) x)) (h : KeepsR F p) : KeepsR F (l.foldl f p) := by
  induction l generalizing p with
  | nil => exact h
  | cons x l ih => obtain ⟨b, s⟩ := p; exact ih (hf b s x h)

/-! ### The operations that touch what is kept -/

theorem keeps_wr (a : Nat) (v : Word) {s : State} (h : Keeps F s) : Keeps F (wr a v s) :=
  ⟨h.1, h.2, h.3, h.4, h.5, tabCanon_put a v h.6, h.7, h.8⟩
theorem keeps_hostWrite (a : Nat) (b : List Byte) {s : State} (h : Keeps F s) (nHost : F.host = none := by assumption) :
    Keeps F (hostWrite a b s) :=
  ⟨h.1, h.2, h.3, h.4, tabSorted_putBytes a b h.5, h.6, h.7, fixes_host h.8 nHost⟩
theorem keeps_modCmd {f : CmdSt → CmdSt} {s : State} (hm : bytesWf (f s.cmd).mailbox = true) (ht : tagsOk (f s.cmd) = true)
    (h : Keeps F s) : Keeps F (modCmd f s) := ⟨h.1, h.2, h.3, hm, h.5, h.6, ht, h.8⟩

/-! ### Engine tags -/

theorem tagsOk_iff {c : CmdSt} : tagsOk c = true ↔ (tagsHeld c).Nodup ∧ ∀ e ∈ tagsHeld c, e < 4096 := by
  unfold tagsOk
  rw [Bool.and_eq_true, decide_eq_true_eq, List.all_eq_true]
  simp only [decide_eq_true_eq]
theorem tagsOk_congr {c d : CmdSt} (hi : c.inflight.map (fun f => f.etag) = d.inflight.map (fun f => f.etag))
    (hd : c.done.map (fun f => f.etag) = d.done.map (fun f => f.etag)) : tagsOk c = tagsOk d := by
  have : tagsHeld c = tagsHeld d := by unfold tagsHeld; rw [hi, hd]
  unfold tagsOk; rw [this]
theorem tagsOk_less {c : CmdSt} {i : List InFlight} {d : List Completion} (h : tagsOk c = true) (hi : i.Sublist c.inflight)
    (hd : d.Sublist c.done) : tagsOk { c with inflight := i, done := d } = true := by
  have h := tagsOk_iff.mp h
  have hs : (tagsHeld { c with inflight := i, done := d }).Sublist (tagsHeld c) := (hi.map _).append (hd.map _)
  exact tagsOk_iff.mpr ⟨hs.nodup h.1, fun e he => h.2 e (hs.subset he)⟩
theorem nodup_length_le {l m : List Nat} (hn : l.Nodup) (hs : l ⊆ m) : l.length ≤ m.length := by
  induction l generalizing m with
  | nil => exact Nat.zero_le _
  | cons x l ih =>
    have hx : x ∈ m := hs (List.mem_cons_self ..)
    have hn := List.nodup_cons.mp hn
    have h := ih (m := m.erase x) hn.2 (fun y hy =>
      (List.mem_erase_of_ne (a := y) (b := x) (fun e => hn.1 (by rw [← e]; exact hy))).mpr (hs (List.mem_cons_of_mem _ hy)))
    rw [List.length_erase_of_mem hx] at h
    have := List.length_pos_of_mem hx
    simp only [List.length_cons]
    omega
theorem freeTag_found {p : Nat → Bool} {l : List Nat} (hp : ∀ e, p e = true ↔ e ∉ l) {n : Nat} (h : ∃ e ∈ List.range n, e ∉ l) :
    ((List.range n).find? p).getD 0 ∉ l ∧ ((List.range n).find? p).getD 0 < n := by
  cases hf : (List.range n).find? p with
  | none =>
    obtain ⟨e, he, hn⟩ := h
    exact absurd ((hp e).mpr hn) (List.find?_eq_none.mp hf e he)
  | some e => exact ⟨(hp e).mp (List.find?_some hf), List.mem_range.mp (List.mem_of_find?_eq_some hf)⟩
/-- While tags are free, the lowest free one is held by nobody. -/
theorem freeTag_free {s : State} (h : tagsFree s ≠ 0) : freeTag s ∉ tagsHeld s.cmd ∧ freeTag s < 4096 := by
  have hlen : (tagsHeld s.cmd).length < 4096 := by
    simp only [tagsHeld, List.length_append, List.length_map]; unfold tagsFree at h; omega
  have hex : ∃ e ∈ List.range 4096, e ∉ tagsHeld s.cmd := by
    by_cases hc : ∃ e ∈ List.range 4096, e ∉ tagsHeld s.cmd
    · exact hc
    · exfalso
      have hsub : List.range 4096 ⊆ tagsHeld s.cmd := by
        intro e he
        by_cases hm : e ∈ tagsHeld s.cmd
        · exact hm
        · exact absurd ⟨e, he, hm⟩ hc
      have := nodup_length_le List.nodup_range hsub
      simp only [List.length_range] at this
      omega
  have hmem : ∀ e, (!(s.cmd.inflight.any (fun f => f.etag == e)) && !(s.cmd.done.any (fun c => c.etag == e))) = true ↔
      e ∉ tagsHeld s.cmd := by
    intro e
    simp only [tagsHeld, List.mem_append, List.mem_map, Bool.and_eq_true, Bool.not_eq_true', List.any_eq_false, beq_iff_eq,
      not_or, not_exists, not_and]
  unfold freeTag
  exact freeTag_found hmem hex
/-- A command that takes the lowest free tag joins those in flight. -/
theorem tagsOk_new {s : State} {f : InFlight} {c : CmdSt} (h : tagsOk s.cmd = true) (hn : tagsFree s ≠ 0)
    (hi : c.inflight = s.cmd.inflight ++ [f]) (hd : c.done = s.cmd.done) (he : f.etag = freeTag s) : tagsOk c = true := by
  have h := tagsOk_iff.mp h
  have hf := freeTag_free hn
  have hp : (tagsHeld c).Perm (freeTag s :: tagsHeld s.cmd) := by
    simp only [tagsHeld, hi, hd, List.map_append, List.map_cons, List.map_nil, he]
    simp only [List.append_assoc, List.singleton_append]
    exact List.perm_middle
  refine tagsOk_iff.mpr ⟨hp.nodup_iff.mpr (List.nodup_cons.mpr ⟨hf.1, h.1⟩), fun e hm => ?_⟩
  rcases List.mem_cons.mp (hp.mem_iff.mp hm) with h1 | hm
  · rw [h1]; exact hf.2
  · exact h.2 e hm
/-- A completion that waits takes a tag that nobody else holds. -/
theorem tagsOk_done {c : CmdSt} {d : Completion} (h : tagsOk c = true) (hn : d.etag ∉ tagsHeld c) (hl : d.etag < 4096) :
    tagsOk { c with done := c.done ++ [d] } = true := by
  have h := tagsOk_iff.mp h
  have hp : (tagsHeld { c with done := c.done ++ [d] }).Perm (d.etag :: tagsHeld c) := by
    simp only [tagsHeld, List.map_append, List.map_cons, List.map_nil]
    rw [← List.append_assoc]
    exact List.perm_append_singleton _ _
  refine tagsOk_iff.mpr ⟨hp.nodup_iff.mpr (List.nodup_cons.mpr ⟨hn, h.1⟩), fun e hm => ?_⟩
  rcases List.mem_cons.mp (hp.mem_iff.mp hm) with rfl | hm
  · exact hl
  · exact h.2 e hm
/-- A change of the command engine that keeps who holds which tag. -/
theorem keeps_modCmd_tags {f : CmdSt → CmdSt} {s : State} (h : Keeps F s) (hm : bytesWf (f s.cmd).mailbox = true)
    (hi : (f s.cmd).inflight.map (fun f => f.etag) = s.cmd.inflight.map (fun f => f.etag))
    (hd : (f s.cmd).done.map (fun f => f.etag) = s.cmd.done.map (fun f => f.etag)) : Keeps F (modCmd f s) :=
  keeps_modCmd hm ((tagsOk_congr hi hd).trans h.tags) h
theorem map_if_etag {l : List InFlight} {p : InFlight → Bool} {g : InFlight → InFlight} (hg : ∀ f, p f = true → (g f).etag = f.etag) :
    (l.map (fun f => if p f then g f else f)).map (fun f => f.etag) = l.map (fun f => f.etag) := by
  rw [List.map_map]
  refine List.map_congr_left fun f _ => ?_
  simp only [Function.comp_apply]
  split
  · exact hg f ‹_›
  · rfl
theorem map_if_done {l : List Completion} {p : Completion → Bool} {g : Completion → Completion} (hg : ∀ f, (g f).etag = f.etag) :
    (l.map (fun f => if p f then g f else f)).map (fun f => f.etag) = l.map (fun f => f.etag) := by
  rw [List.map_map]
  refine List.map_congr_left fun f _ => ?_
  simp only [Function.comp_apply]
  split
  · exact hg f
  · rfl
theorem keeps_done_filter (p : Completion → Bool) {s : State} (h : Keeps F s) :
    Keeps F (modCmd (fun x => { x with done := x.done.filter p }) s) :=
  keeps_modCmd h.mailbox (tagsOk_less h.tags (List.Sublist.refl _) (List.filter_sublist ..)) h
theorem keeps_same {s t : State} (h : Keeps F s) (hp : t.pending = s.pending) (hm : t.mram = s.mram) (hr : t.sram = s.sram)
    (hc : t.cmd = s.cmd) (hh : t.hostMem = s.hostMem) (hg : t.regs = s.regs) (hf : Fixes F s → Fixes F t := by exact id) : Keeps F t :=
  ⟨hp.trans h.1, by rw [hm]; exact h.2, by rw [hr]; exact h.3, by rw [hc]; exact h.4, by rw [hh]; exact h.5, by rw [hg]; exact h.6,
    by rw [hc]; exact h.7, hf h.8⟩

end Sys2Proof.Machine
end

