-- ==== Sys2Proof/Laws/Keep1.lean ====
section
/-! SUPPORT. What every operation keeps: Ops, Command, CmdDevice, CmdFw, Rings, Line, Slicer, Takes, LaneOps, SynOps, Store, Links, Superframe. -/
namespace Sys2Proof.Machine
variable {F : Fixed}

/-! ### Ops -/

theorem keeps_wrF (a hi lo v : Nat) {s : State} (hs : Keeps F s) :
    Keeps F (wrF a hi lo v s) := by
  unfold wrF
  with_reducible repeat' (first | assumption | apply keeps_wr)
theorem keeps_wrB (a i : Nat) (b : Bool) {s : State} (hs : Keeps F s) :
    Keeps F (wrB a i b s) := by
  unfold wrB
  with_reducible repeat' (first | assumption | apply keeps_wr)
theorem keeps_count (a n : Nat) {s : State} (hs : Keeps F s) :
    Keeps F (count a n s) := by
  unfold count
  with_reducible repeat' (first | assumption | apply keeps_wr)
theorem keeps_wrWide (a w v : Nat) {s : State} (hs : Keeps F s) :
    Keeps F (wrWide a w v s) := by
  unfold wrWide
  with_reducible repeat' (first | assumption | apply keeps_wr)
theorem keeps_countWide (a w n : Nat) {s : State} (hs : Keeps F s) :
    Keeps F (countWide a w n s) := by
  unfold countWide
  with_reducible repeat' (first | assumption | apply keeps_wrWide)
theorem keeps_set_views {s : State} {x0} (h : Keeps F s) : Keeps F { s with views := x0 } :=
  ⟨h.1, h.2, h.3, h.4, h.5, h.6, h.7, h.8⟩
theorem keeps_wrView (v : View) (a : Nat) (x : Word) {s : State} (hs : Keeps F s) :
    Keeps F (wrView v a x s) := by
  unfold wrView
  with_reducible repeat' (first | assumption | apply keeps_set_views)
theorem keeps_orViews (a : Nat) (bits : Word) {s : State} (hs : Keeps F s) :
    Keeps F (orViews a bits s) := by
  unfold orViews
  with_reducible repeat' (first | assumption | (intro _) | apply keeps_wrView | apply keeps_foldl | apply keepsR_foldl)
theorem keeps_mapViews (a : Nat) (f : Word → Word) {s : State} (hs : Keeps F s) :
    Keeps F (mapViews a f s) := by
  unfold mapViews
  with_reducible repeat' (first | assumption | (intro _) | apply keeps_wrView | apply keeps_foldl | apply keepsR_foldl)
theorem keeps_wr64 (lo : Nat) (v : BitVec 64) {s : State} (hs : Keeps F s) :
    Keeps F (wr64 lo v s) := by
  unfold wr64
  with_reducible repeat' (first | assumption | apply keeps_wrWide)
theorem keeps_set_fresh {s : State} {x0} (h : Keeps F s) : Keeps F { s with fresh := x0 } :=
  ⟨h.1, h.2, h.3, h.4, h.5, h.6, h.7, h.8⟩
theorem keeps_draw (kind : Nat) {s : State} (hs : Keeps F s) :
    KeepsR F (draw kind s) := by
  unfold draw
  with_reducible repeat' (first | assumption | apply keepsR_ite | apply keeps_set_fresh | apply keepsR_mk)
theorem keeps_set_out {s : State} {x0} (h : Keeps F s) : Keeps F { s with out := x0 } :=
  ⟨h.1, h.2, h.3, h.4, h.5, h.6, h.7, h.8⟩
theorem keeps_emit (o : Output) {s : State} (hs : Keeps F s) :
    Keeps F (emit o s) := by
  unfold emit
  with_reducible repeat' (first | assumption | apply keeps_set_out)
theorem keeps_set_pcie {s : State} {x0} (h : Keeps F s) : Keeps F { s with pcie := x0 } :=
  ⟨h.1, h.2, h.3, h.4, h.5, h.6, h.7, h.8⟩
theorem keeps_raiseMsix (v : Nat) {s : State} (hs : Keeps F s) :
    Keeps F (raiseMsix v s) := by
  unfold raiseMsix
  with_reducible repeat' (first | assumption | apply keeps_emit | apply keeps_ite | split | (dsimp only; split) | apply keeps_set_pcie)
theorem keeps_set_evt {s : State} {x0} (h : Keeps F s) : Keeps F { s with evt := x0 } :=
  ⟨h.1, h.2, h.3, h.4, h.5, h.6, h.7, h.8⟩
theorem keeps_logPush (r : EvRec) {s : State} (hs : Keeps F s) :
    Keeps F (logPush r s) := by
  unfold logPush
  with_reducible repeat' (first | assumption | apply keeps_count | apply keeps_ite | split | (dsimp only; split) | apply keeps_set_evt)
theorem keeps_ringDrop {s : State} (hs : Keeps F s) :
    Keeps F (ringDrop s) := by
  unfold ringDrop
  with_reducible repeat' (first | assumption | apply keeps_wrB | apply keeps_count | apply keeps_set_evt)
theorem keeps_stageRec (r : EvRec) {s : State} (hs : Keeps F s) :
    Keeps F (stageRec r s) := by
  unfold stageRec
  with_reducible repeat' (first | assumption | apply keeps_ringDrop | apply keeps_ite | split | (dsimp only; split) | apply keeps_set_evt)
theorem keeps_set_chain {s : State} {x0} (h : Keeps F s) : Keeps F { s with chain := x0 } :=
  ⟨h.1, h.2, h.3, h.4, h.5, h.6, h.7, h.8⟩
theorem keeps_chainEvent (r : EvRec) {s : State} (hs : Keeps F s) :
    Keeps F (chainEvent r s) := by
  unfold chainEvent
  with_reducible repeat' (first | assumption | apply keeps_emit | apply keeps_count | apply keeps_ite | split | (dsimp only; split)
                                | apply keeps_set_chain)
theorem keeps_raise (code : Nat) (unit : BitVec 16) (data : List Byte) {s : State} (hs : Keeps F s) :
    Keeps F (raise code unit data s) := by
  unfold raise
  with_reducible repeat' (first | assumption | apply keeps_wr | apply keeps_logPush | apply keeps_chainEvent | apply keeps_stageRec
                                | apply keeps_ite | split | (dsimp only; split) | apply keeps_set_evt)
theorem keeps_perfAdd (b fuel n k : Nat) {s : State} (h : Keeps F s) : Keeps F (perfAdd b fuel n k s) := by
  induction fuel generalizing n k s with
  | zero => exact h
  | succ f ih =>
    unfold perfAdd
    with_reducible repeat' (first | assumption | apply keeps_ite | apply ih | apply keeps_wrB | apply keeps_wrWide)
theorem keeps_perfIrq (b : Nat) (was : Word) {s : State} (hs : Keeps F s) :
    Keeps F (perfIrq b was s) := by
  unfold perfIrq
  with_reducible repeat' (first | assumption | apply keeps_raise | apply keeps_ite | split | (dsimp only; split))
theorem keeps_perfCount (b k : Nat) (e : PerfEvent) {s : State} (hs : Keeps F s) :
    Keeps F (perfCount b k e s) := by
  unfold perfCount
  with_reducible repeat' (first | assumption | (intro _) | apply keeps_perfIrq | apply keeps_perfAdd | apply keeps_foldl | apply keepsR_foldl
                                | apply keeps_ite | split | (dsimp only; split))
theorem keeps_set_perfAcc {s : State} {x0} (h : Keeps F s) : Keeps F { s with perfAcc := x0 } :=
  ⟨h.1, h.2, h.3, h.4, h.5, h.6, h.7, h.8⟩
theorem keeps_perfTally (t code : Nat) (unit : BitVec 16) (k : Nat) {s : State} (hs : Keeps F s) :
    Keeps F (perfTally t code unit k s) := by
  unfold perfTally
  with_reducible repeat' (first | assumption | apply keeps_set_perfAcc)
theorem keeps_perfTransfer {s : State} (hs : Keeps F s) :
    Keeps F (perfTransfer s) := by
  unfold perfTransfer
  with_reducible repeat' (first | assumption | (intro _) | apply keeps_perfCount | apply keeps_foldl | apply keepsR_foldl | apply keeps_snd
                                | apply keeps_set_perfAcc)
theorem keeps_groupWords (t code m a n : Nat) {s : State} (hs : Keeps F s) :
    Keeps F (groupWords t code m a n s) := by
  unfold groupWords
  with_reducible repeat' (first | assumption | (intro _) | apply keeps_perfCount | apply keeps_foldl | apply keepsR_foldl | apply keeps_ite
                                | split | (dsimp only; split))
theorem keeps_takeWords (code m l k n : Nat) {s : State} (hs : Keeps F s) :
    Keeps F (takeWords code m l k n s) := by
  unfold takeWords
  with_reducible repeat' (first | assumption | apply keeps_groupWords)
theorem keeps_areaWords (code m p o n : Nat) {s : State} (hs : Keeps F s) :
    Keeps F (areaWords code m p o n s) := by
  unfold areaWords
  with_reducible repeat' (first | assumption | apply keeps_groupWords)
theorem keeps_perfCycle (b k : Nat) {s : State} (hs : Keeps F s) :
    Keeps F (perfCycle b k s) := by
  unfold perfCycle
  with_reducible repeat' (first | assumption | apply keeps_wrWide | apply keeps_wrB | apply keeps_perfIrq | apply keeps_perfAdd | apply keeps_ite
                                | split | (dsimp only; split))
theorem keeps_hostWriteBy (m a : Nat) (b : List Byte) {s : State} (hs : Keeps F s) (nHost : F.host = none := by assumption) :
    Keeps F (hostWriteBy m a b s) := by
  unfold hostWriteBy
  with_reducible repeat' (first | assumption | apply keeps_perfCount | apply keeps_hostWrite)
theorem keeps_dmaRead (m n : Nat) {s : State} (hs : Keeps F s) :
    Keeps F (dmaRead m n s) := by
  unfold dmaRead
  with_reducible repeat' (first | assumption | apply keeps_perfCount)
theorem keeps_accessError (v : View) (a cause : Nat) (write : Bool) {s : State} (hs : Keeps F s) :
    Keeps F (accessError v a cause write s) := by
  unfold accessError
  with_reducible repeat' (first | assumption | (intro _) | apply keeps_wrView | apply keeps_count | apply keeps_raise | apply keeps_foldl
                                | apply keepsR_foldl | apply keeps_ite | split | (dsimp only; split) | apply keeps_set_evt)
theorem keeps_firewallRefusal (v : View) (a : Nat) (write : Bool) {s : State} (hs : Keeps F s) :
    Keeps F (firewallRefusal v a write s) := by
  unfold firewallRefusal
  with_reducible repeat' (first | assumption | apply keeps_accessError | apply keeps_raise | apply keeps_count)
theorem keeps_set_lastClap_time {s : State} {x0} {x1} (h : Keeps F s) (nTime : F.time = none := by assumption)
    : Keeps F { s with lastClap := x0, time := x1 } :=
  ⟨h.1, h.2, h.3, h.4, h.5, h.6, h.7, fixes_time h.8 nTime⟩
theorem keeps_setTime (t : BitVec 64) {s : State} (hs : Keeps F s) (nTime : F.time = none := by assumption) :
    Keeps F (setTime t s) := by
  unfold setTime
  with_reducible repeat' (first | assumption | apply keeps_set_lastClap_time)

/-! ### Command -/

theorem keeps_modCmd_rest {f : CmdSt → CmdSt} {s : State} (hm : ∀ c, (f c).mailbox = c.mailbox) (hi : ∀ c, (f c).inflight = c.inflight)
    (hd : ∀ c, (f c).done = c.done) (h : Keeps F s) : Keeps F (modCmd f s) := by
  refine keeps_modCmd ?_ ?_ h
  · rw [hm]; exact h.mailbox
  · exact (tagsOk_congr (d := s.cmd) (by rw [hi]) (by rw [hd])).trans h.tags
theorem keeps_set_links {s : State} {x0} (h : Keeps F s) (nLinks : F.links = none := by assumption) : Keeps F { s with links := x0 } :=
  ⟨h.1, h.2, h.3, h.4, h.5, h.6, h.7, fixes_links h.8 nLinks⟩
theorem keeps_putLink (l : Nat) (x : LinkSt) {s : State} (hs : Keeps F s) (nLinks : F.links = none := by assumption) :
    Keeps F (putLink l x s) := by
  unfold putLink
  with_reducible repeat' (first | assumption | apply keeps_set_links)
theorem keeps_modLink (l : Nat) (f : LinkSt → LinkSt) {s : State} (hs : Keeps F s) (nLinks : F.links = none := by assumption) :
    Keeps F (modLink l f s) := by
  unfold modLink
  with_reducible repeat' (first | assumption | apply keeps_putLink)
theorem keeps_ldtPut (l : Nat) (w : List LdtLine) {s : State} (hs : Keeps F s) :
    Keeps F (ldtPut l w s) := by
  unfold ldtPut
  with_reducible repeat' (first | assumption | refine keeps_modCmd_rest (fun _ => rfl) (fun _ => rfl) (fun _ => rfl) ?_ | apply keeps_done_filter)
theorem keeps_ldtInvalidate (l : Nat) {s : State} (hs : Keeps F s) :
    Keeps F (ldtInvalidate l s) := by
  unfold ldtInvalidate
  with_reducible repeat' (first | assumption | refine keeps_modCmd_rest (fun _ => rfl) (fun _ => rfl) (fun _ => rfl) ?_ | apply keeps_ldtPut)
theorem keeps_ldtStore (l : Nat) (b : List Byte) {s : State} (hs : Keeps F s) :
    Keeps F (ldtStore l b s) := by
  unfold ldtStore
  with_reducible repeat' (first | assumption | apply keeps_ldtPut)
theorem keeps_ldtUse (l : Nat) {s : State} (hs : Keeps F s) :
    Keeps F (ldtUse l s) := by
  unfold ldtUse
  with_reducible repeat' (first | assumption | apply keeps_ldtStore | apply keeps_count | apply keeps_perfCount
                                | refine keeps_modCmd_rest (fun _ => rfl) (fun _ => rfl) (fun _ => rfl) ?_ | apply keeps_done_filter
                                | apply keeps_ite | split | (dsimp only; split))
theorem keeps_fetchPause {s : State} (hs : Keeps F s) : Keeps F (fetchPause s) := by
  unfold fetchPause
  with_reducible repeat' (first | assumption | (intro _) | apply keeps_count | apply keeps_wrB | apply keeps_foldl
                                | refine keeps_modCmd_rest (fun _ => rfl) (fun _ => rfl) (fun _ => rfl) ?_
                                | apply keeps_ite | split | (dsimp only; split))
theorem keeps_fetchResume {s : State} (hs : Keeps F s) : Keeps F (fetchResume s) := by
  unfold fetchResume
  with_reducible repeat' (first | assumption | (intro _) | apply keeps_wrB | apply keeps_foldl
                                | refine keeps_modCmd_rest (fun _ => rfl) (fun _ => rfl) (fun _ => rfl) ?_
                                | apply keeps_ite | split | (dsimp only; split))
theorem keeps_cqStalls (n : Nat) {s : State} (hs : Keeps F s) : Keeps F (cqStalls n s) := by
  unfold cqStalls
  dsimp only
  split
  · have h := keeps_wrB (cqBase n + 12) 13 true (keeps_count (cqBase n + 16) (List.filter (fun c => !c.stalled)
      (List.filter (fun c => pathCq s c.cmd.path == some n) s.cmd.done)).length hs)
    exact keeps_modCmd_tags h h.mailbox rfl (map_if_done fun _ => rfl)
  · exact keeps_wrB _ _ _ hs
theorem keeps_mailboxComplete (serial : Bool) (c : Cmd) (status : Nat) (result : List Byte) {s : State} (hs : Keeps F s) :
    Keeps F (mailboxComplete serial c status result s) := by
  have h : Keeps F (modCmd (fun x => { x with
      mailbox := putBytes0 (putBytes0 x.mailbox 0 (statusSlot c.tag true status result 0)) 0x20
        (if result.length ≤ 16 then [] else result) }) s) :=
    keeps_modCmd (bytesWf_putBytes0 _ _ (bytesWf_putBytes0 _ _ hs.mailbox)) hs.tags hs
  unfold mailboxComplete
  with_reducible repeat' (first | assumption | apply keeps_wrB | apply keeps_raiseMsix | apply keeps_ite)
/-- A state whose command engine is `c`. -/
def CmdIs (c : CmdSt) (s : State) : Prop := s.cmd = c
theorem cmdIs_ite {c : CmdSt} {p : Prop} [Decidable p] {a b : State} (ha : CmdIs c a) (hb : CmdIs c b) : CmdIs c (if p then a else b) := by
  split <;> assumption
theorem cmdIs_foldl {α : Type} {c : CmdSt} {l : List α} {f : State → α → State} {s : State} (hf : ∀ s x, CmdIs c s → CmdIs c (f s x))
    (h : CmdIs c s) : CmdIs c (l.foldl f s) := by
  induction l generalizing s with
  | nil => exact h
  | cons x l ih => exact ih (hf s x h)
theorem cmdIs_set_evt {c : CmdSt} {s : State} {x} (h : CmdIs c s) : CmdIs c { s with evt := x } := h
theorem cmdIs_set_chain {c : CmdSt} {s : State} {x} (h : CmdIs c s) : CmdIs c { s with chain := x } := h
theorem cmdIs_wr (a : Nat) (v : Word) {c : CmdSt} {s : State} (h : CmdIs c s) : CmdIs c (wr a v s) := h
theorem cmdIs_wrB (a i : Nat) (v : Bool) {c : CmdSt} {s : State} (h : CmdIs c s) : CmdIs c (wrB a i v s) := h
theorem cmdIs_wrWide (a w v : Nat) {c : CmdSt} {s : State} (h : CmdIs c s) : CmdIs c (wrWide a w v s) := h
theorem cmdIs_count (a n : Nat) {c : CmdSt} {s : State} (h : CmdIs c s) : CmdIs c (count a n s) := h
theorem cmdIs_emit (o : Output) {c : CmdSt} {s : State} (h : CmdIs c s) : CmdIs c (emit o s) := h
theorem cmdIs_ringDrop {c : CmdSt} {s : State} (h : CmdIs c s) : CmdIs c (ringDrop s) := h
theorem cmdIs_logPush (r : EvRec) {c : CmdSt} {s : State} (h : CmdIs c s) : CmdIs c (logPush r s) := by
  unfold logPush
  with_reducible repeat' (first | assumption | apply cmdIs_ite | apply cmdIs_count | apply cmdIs_set_evt)
theorem cmdIs_stageRec (r : EvRec) {c : CmdSt} {s : State} (h : CmdIs c s) : CmdIs c (stageRec r s) := by
  unfold stageRec
  with_reducible repeat' (first | assumption | apply cmdIs_ite | apply cmdIs_ringDrop | apply cmdIs_set_evt)
theorem cmdIs_chainEvent (r : EvRec) {c : CmdSt} {s : State} (h : CmdIs c s) : CmdIs c (chainEvent r s) := by
  unfold chainEvent
  with_reducible repeat' (first | assumption | apply cmdIs_ite | apply cmdIs_count | apply cmdIs_emit | apply cmdIs_set_chain)
theorem cmdIs_raise (code : Nat) (unit : BitVec 16) (data : List Byte) {c : CmdSt} {s : State} (h : CmdIs c s) :
    CmdIs c (raise code unit data s) := by
  unfold raise
  with_reducible repeat' (first | assumption | apply cmdIs_stageRec | apply cmdIs_ite | apply cmdIs_chainEvent | apply cmdIs_logPush
                                | apply cmdIs_wr | apply cmdIs_set_evt)
theorem cmdIs_perfAdd (b fuel n k : Nat) {c : CmdSt} {s : State} (h : CmdIs c s) : CmdIs c (perfAdd b fuel n k s) := by
  induction fuel generalizing n k s with
  | zero => exact h
  | succ f ih =>
    unfold perfAdd
    with_reducible repeat' (first | assumption | apply cmdIs_ite | apply ih | apply cmdIs_wrB | apply cmdIs_wrWide)
theorem cmdIs_perfIrq (b : Nat) (was : Word) {c : CmdSt} {s : State} (h : CmdIs c s) : CmdIs c (perfIrq b was s) := by
  unfold perfIrq
  with_reducible repeat' (first | assumption | apply cmdIs_ite | apply cmdIs_raise)
/-- A counted event leaves the command engine alone. -/
theorem perfCount_cmd (b k : Nat) (e : PerfEvent) (s : State) : (perfCount b k e s).cmd = s.cmd := by
  have h : CmdIs s.cmd s := rfl
  show CmdIs s.cmd (perfCount b k e s)
  unfold perfCount
  with_reducible repeat' (first | assumption | (intro _) | apply cmdIs_perfIrq | apply cmdIs_perfAdd | apply cmdIs_foldl | apply cmdIs_ite)
theorem keeps_finish (f : InFlight) (status : Nat) (result : List Byte) {s : State} (hs : Keeps F s) :
    Keeps F (finish f status result s) := by
  unfold finish
  split
  · exact hs
  rename_i hf
  have hmem : f.etag ∈ s.cmd.inflight.map (fun g => g.etag) := by
    simp only [Bool.not_eq_true', Bool.not_eq_false, List.any_eq_true, beq_iff_eq] at hf
    obtain ⟨g, hg, e⟩ := hf
    exact List.mem_map.mpr ⟨g, hg, e⟩
  have h1 : Keeps F (modCmd (fun c => { c with inflight := c.inflight.filter (fun g => g.etag != f.etag) }) s) :=
    keeps_modCmd hs.mailbox (tagsOk_less hs.tags (List.filter_sublist ..) (List.Sublist.refl _)) hs
  have hno : f.etag ∉ tagsHeld (modCmd (fun c => { c with inflight := c.inflight.filter (fun g => g.etag != f.etag) }) s).cmd := by
    have hn := (tagsOk_iff.mp hs.tags).1
    intro hm
    simp only [tagsHeld, modCmd, List.mem_append, List.mem_map, List.mem_filter] at hm
    rcases hm with ⟨g, ⟨_, h2⟩, h3⟩ | ⟨d, h2, h3⟩
    · simp [h3] at h2
    · exact (List.nodup_append.mp hn).2.2 _ hmem _ (List.mem_map.mpr ⟨d, h2, h3⟩) rfl
  have hlt := (tagsOk_iff.mp hs.tags).2 f.etag (List.mem_append_left _ hmem)
  have h2 := keeps_perfCount 0 1 { code := 5, unit := some (cmdUnit f.cmd) } h1
  dsimp only
  generalize he : perfCount 0 1 { code := 5, unit := some (cmdUnit f.cmd) }
    (modCmd (fun c => { c with inflight := c.inflight.filter (fun g => g.etag != f.etag) }) s) = t at h2 ⊢
  have hc : t.cmd = (modCmd (fun c => { c with inflight := c.inflight.filter (fun g => g.etag != f.etag) }) s).cmd := by
    rw [← he]; exact perfCount_cmd ..
  split
  · split
    · refine keeps_cqStalls _ (keeps_modCmd h2.mailbox ?_ h2)
      rw [hc] at *
      exact tagsOk_done h1.tags hno hlt
    · exact h2
  · exact keeps_mailboxComplete _ _ _ _ h2
  · exact keeps_mailboxComplete _ _ _ _ h2
  · exact keeps_emit _ h2
theorem keeps_answer (f : InFlight) (addr status : Nat) {s : State} (hs : Keeps F s) : Keeps F (answer f addr status s) := by
  unfold answer
  dsimp only
  split
  · exact keeps_finish _ _ _ hs
  · exact keeps_modCmd_tags hs hs.mailbox (map_if_etag fun h e => (beq_iff_eq.mp e).symm) rfl
theorem keeps_complete (e status : Nat) (result : List Byte) {s : State} (hs : Keeps F s) :
    Keeps F (complete e status result s) := by
  unfold complete
  with_reducible repeat' (first | assumption | apply keeps_finish | apply keeps_answer | apply keeps_ite | split | (dsimp only; split))
theorem keeps_modFlight (e : Nat) {g : InFlight → InFlight} {s : State} (hg : ∀ f, (g f).etag = f.etag) (hs : Keeps F s) :
    Keeps F (modFlight e g s) :=
  keeps_modCmd_tags hs hs.mailbox (map_if_etag fun f _ => hg f) rfl
theorem keeps_keepRunning (e aux : Nat) {s : State} (hs : Keeps F s) :
    Keeps F (keepRunning e aux s) := by
  unfold keepRunning
  with_reducible repeat' (first | assumption | refine keeps_modFlight _ (fun _ => rfl) ?_)
theorem keeps_completeAll (op cls idx status : Nat) (result : List Byte) {s : State} (hs : Keeps F s) :
    Keeps F (completeAll op cls idx status result s) := by
  unfold completeAll
  with_reducible repeat' (first | assumption | (intro _) | apply keeps_complete | apply keeps_foldl | apply keepsR_foldl)
theorem keeps_set_tiles {s : State} {x0} (h : Keeps F s) (nTiles : F.tiles = none := by assumption) : Keeps F { s with tiles := x0 } :=
  ⟨h.1, h.2, h.3, h.4, h.5, h.6, h.7, fixes_tiles h.8 nTiles⟩
theorem keeps_modTile (t : Nat) (f : TileSt → TileSt) {s : State} (hs : Keeps F s) (nTiles : F.tiles = none := by assumption) :
    Keeps F (modTile t f s) := by
  unfold modTile
  with_reducible repeat' (first | assumption | apply keeps_set_tiles)
theorem keeps_claimTag {op : Nat} {c : Cmd} {f : InFlight} {s t : State} (h : claimTag s op c = some (f, t)) (hs : Keeps F s) :
    Keeps F t := by
  unfold claimTag at h
  split at h
  · simp only [Option.some.injEq, Prod.mk.injEq] at h
    exact h.2 ▸ hs
  · split at h
    · simp at h
    · simp only [Option.some.injEq, Prod.mk.injEq] at h
      rw [← h.2]
      exact keeps_perfCount _ _ _ (keeps_fetchResume (keeps_modCmd hs.mailbox (tagsOk_new hs.tags ‹_› rfl rfl (by dsimp only)) hs))
theorem keeps_set_doms {s : State} {x0} (h : Keeps F s) : Keeps F { s with doms := x0 } :=
  ⟨h.1, h.2, h.3, h.4, h.5, h.6, h.7, h.8⟩
theorem keeps_modDom (d : Nat) (f : DomSt → DomSt) {s : State} (hs : Keeps F s) :
    Keeps F (modDom d f s) := by
  unfold modDom
  with_reducible repeat' (first | assumption | apply keeps_set_doms)
theorem keeps_recordRefusal (d id mask : Nat) {s : State} (hs : Keeps F s) :
    Keeps F (recordRefusal d id mask s) := by
  unfold recordRefusal
  with_reducible repeat' (first | assumption | apply keeps_count | apply keeps_wr | apply keeps_wrF)
theorem keeps_abortEntry (d id : Nat) {s : State} (hs : Keeps F s) :
    Keeps F (abortEntry d id s) := by
  unfold abortEntry
  with_reducible repeat' (first | assumption | apply keeps_recordRefusal | apply keeps_modDom | apply keeps_complete | split | (dsimp only; split))
theorem keeps_wakeOne (d : Nat) {s : State} (hs : Keeps F s) :
    Keeps F (wakeOne d s) := by
  unfold wakeOne
  with_reducible repeat' (first | assumption | apply keeps_abortEntry | apply keeps_modDom | apply keeps_wrF | apply keeps_wrB | apply keeps_ite
                                | split | (dsimp only; split))
theorem keeps_beginWake (d : Nat) {s : State} (hs : Keeps F s) :
    Keeps F (beginWake d s) := by
  unfold beginWake
  with_reducible repeat' (first | assumption | apply keeps_wakeOne | apply keeps_modDom | apply keeps_ite | split | (dsimp only; split))
theorem keeps_checkLink (o : OpSpec) (c : Cmd) {s : State} (hs : Keeps F s) : Keeps F (checkLink o c s) := by
  unfold checkLink
  with_reducible repeat' (first | assumption | apply keeps_ldtUse | apply keeps_ite | split | (dsimp only; split))
theorem keeps_runHere (o : OpSpec) (c : Cmd) (f : InFlight) (act : Nat → State → State) {s : State}
    (hact : ∀ a0 a1, Keeps F a1 → Keeps F (act a0 a1)) (hs : Keeps F s) :
    Keeps F (runHere o c f act s) := by
  unfold runHere
  with_reducible repeat' (first | assumption | (intro _) | apply hact | apply keeps_complete | apply keeps_checkLink | apply keeps_beginWake
                                | apply keeps_foldl | apply keepsR_foldl | apply keeps_ite | split | (dsimp only; split))
theorem keeps_command (o : OpSpec) (c : Cmd) (act : Nat → State → State) {s : State} (hact : ∀ a0 a1, Keeps F a1 → Keeps F (act a0 a1))
    (hs : Keeps F s) :
    Keeps F (command o c act s) := by
  unfold command
  with_reducible repeat' (first | assumption | (intro _) | apply hact | refine keeps_claimTag (by assumption) ?_ | apply keeps_fetchPause
                                | apply keeps_complete | apply keeps_emit | refine keeps_modFlight _ (fun _ => rfl) ?_ | apply keeps_runHere
                                | apply keeps_ite | split | (dsimp only; split))

/-! ### CmdDevice -/

theorem keeps_execDevIdentify (c : Cmd) {s : State} (hs : Keeps F s) :
    KeepsO F (execDevIdentify c s) := by
  unfold execDevIdentify
  apply keepsO_next
  with_reducible repeat' (first | assumption | (intro _) | apply keeps_command | apply keeps_complete)
theorem keeps_execDevStatus (c : Cmd) {s : State} (hs : Keeps F s) :
    KeepsO F (execDevStatus c s) := by
  unfold execDevStatus
  apply keepsO_next
  with_reducible repeat' (first | assumption | (intro _) | apply keeps_command | apply keeps_complete)
theorem keeps_set_offPending {s : State} {x0} (h : Keeps F s) : Keeps F { s with offPending := x0 } :=
  ⟨h.1, h.2, h.3, h.4, h.5, h.6, h.7, h.8⟩
theorem keeps_actDevOff (e : Nat) {s : State} (hs : Keeps F s) :
    Keeps F (actDevOff e s) := by
  unfold actDevOff
  with_reducible repeat' (first | assumption | apply keeps_complete | apply keeps_ite | split | (dsimp only; split) | apply keeps_set_offPending)
theorem keeps_execDevOff (c : Cmd) {s : State} (hs : Keeps F s) :
    KeepsO F (execDevOff c s) := by
  unfold execDevOff
  apply keepsO_next
  with_reducible repeat' (first | assumption | (intro _) | apply keeps_command | apply keeps_actDevOff)
theorem keeps_set_utilDiscard {s : State} {x0} (h : Keeps F s) : Keeps F { s with utilDiscard := x0 } :=
  ⟨h.1, h.2, h.3, h.4, h.5, h.6, h.7, h.8⟩
theorem keeps_discardUtil {s : State} (hs : Keeps F s) :
    Keeps F (discardUtil s) := by
  unfold discardUtil
  with_reducible repeat' (first | assumption | apply keeps_set_utilDiscard)
theorem keeps_actDevTimeSet (c : Cmd) (e : Nat) {s : State} (hs : Keeps F s) (nTime : F.time = none := by assumption) :
    Keeps F (actDevTimeSet c e s) := by
  unfold actDevTimeSet
  with_reducible repeat' (first | assumption | apply keeps_complete | apply keeps_discardUtil | apply keeps_setTime | apply keeps_ite | split
                                | (dsimp only; split))
theorem keeps_execDevTimeSet (c : Cmd) {s : State} (hs : Keeps F s) (nTime : F.time = none := by assumption) :
    KeepsO F (execDevTimeSet c s) := by
  unfold execDevTimeSet
  apply keepsO_next
  with_reducible repeat' (first | assumption | (intro _) | apply keeps_command | apply keeps_actDevTimeSet)
theorem keeps_execDevLockQuery (c : Cmd) {s : State} (hs : Keeps F s) :
    KeepsO F (execDevLockQuery c s) := by
  unfold execDevLockQuery
  apply keepsO_next
  with_reducible repeat' (first | assumption | (intro _) | apply keeps_command | apply keeps_complete)

/-! ### CmdFw -/

theorem keeps_set_fw {s : State} {x0} (h : Keeps F s) (nFw : F.fw = none := by assumption) : Keeps F { s with fw := x0 } :=
  ⟨h.1, h.2, h.3, h.4, h.5, h.6, h.7, fixes_fw h.8 nFw⟩
theorem keeps_modFw (f : FwSt → FwSt) {s : State} (hs : Keeps F s) (nFw : F.fw = none := by assumption) :
    Keeps F (modFw f s) := by
  unfold modFw
  with_reducible repeat' (first | assumption | apply keeps_set_fw)
theorem keeps_verifyBank (b crypto : Nat) {s : State} (hs : Keeps F s) :
    KeepsR F (verifyBank b crypto s) := by
  unfold verifyBank
  with_reducible repeat' (first | assumption | apply keeps_raise | apply keeps_ite | apply keepsR_ite | split | (dsimp only; split)
                                | apply keepsR_mk)
theorem keeps_set_mram {s : State} (a : Nat) (b : List Byte) (h : Keeps F s) (nMram : F.mram = none := by assumption) :
    Keeps F { s with mram := putBytes0 s.mram a b } :=
  ⟨h.1, bytesWf_putBytes0 a b h.2, h.3, h.4, h.5, h.6, h.7, fixes_mram h.8 nMram⟩
theorem keeps_actFwStage (c : Cmd) (chunk : Option (List Byte)) (e : Nat) {s : State} (hs : Keeps F s) (nMram : F.mram = none := by assumption)
    (nFw : F.fw = none := by assumption) :
    Keeps F (actFwStage c chunk e s) := by
  unfold actFwStage
  with_reducible repeat' (first | assumption | apply keeps_complete | apply keeps_modFw | apply keeps_keepRunning | apply keeps_set_mram
                                | apply keeps_ite | split | (dsimp only; split))
theorem keeps_execFwStage (c : Cmd) (chunk : Option (List Byte)) {s : State} (hs : Keeps F s) (nMram : F.mram = none := by assumption)
    (nFw : F.fw = none := by assumption) :
    KeepsO F (execFwStage c chunk s) := by
  unfold execFwStage
  apply keepsO_next
  with_reducible repeat' (first | assumption | (intro _) | apply keeps_command | apply keeps_actFwStage)
theorem keeps_finalChunkVerified (crypto : Nat) {s : State} (hs : Keeps F s) (nFw : F.fw = none := by assumption) :
    Keeps F (finalChunkVerified crypto s) := by
  unfold finalChunkVerified
  with_reducible repeat' (first | assumption | apply keeps_verifyBank | apply keeps_complete | apply keeps_modFw | apply keeps_ite
                                | apply keepsR_ite | refine keepsR_eq (keeps_verifyBank _ _ ?_) (by assumption) | split | (dsimp only; split)
                                | apply keeps_snd)
theorem keeps_execFinalChunkVerified (crypto : BitVec 3) {s : State} (hs : Keeps F s) (nFw : F.fw = none := by assumption) :
    KeepsO F (execFinalChunkVerified crypto s) := by
  unfold execFinalChunkVerified
  apply keepsO_next
  with_reducible repeat' (first | assumption | apply keeps_finalChunkVerified)
theorem keeps_actFwActivate (c : Cmd) (e : Nat) {s : State} (hs : Keeps F s) (nFw : F.fw = none := by assumption) :
    Keeps F (actFwActivate c e s) := by
  unfold actFwActivate
  with_reducible repeat' (first | assumption | apply keeps_complete | apply keeps_keepRunning | apply keeps_wrB | apply keeps_modFw
                                | apply keeps_ite | split | (dsimp only; split))
theorem keeps_execFwActivate (c : Cmd) {s : State} (hs : Keeps F s) (nFw : F.fw = none := by assumption) :
    KeepsO F (execFwActivate c s) := by
  unfold execFwActivate
  apply keepsO_next
  with_reducible repeat' (first | assumption | (intro _) | apply keeps_command | apply keeps_actFwActivate)
theorem keeps_execFwStatus (c : Cmd) {s : State} (hs : Keeps F s) :
    KeepsO F (execFwStatus c s) := by
  unfold execFwStatus
  apply keepsO_next
  with_reducible repeat' (first | assumption | (intro _) | apply keeps_command | apply keeps_complete)

/-! ### Rings -/

theorem keeps_ringError (kind n code : Nat) {s : State} (hs : Keeps F s) :
    Keeps F (ringError kind n code s) := by
  unfold ringError
  with_reducible repeat' (first | assumption | apply keeps_raise)
theorem keeps_doorbellWake {s : State} (hs : Keeps F s) :
    Keeps F (doorbellWake s) := by
  unfold doorbellWake
  with_reducible repeat' (first | assumption | (intro _) | apply keeps_beginWake | apply keeps_foldl | apply keepsR_foldl)
theorem keeps_sqTailWrite (n : Nat) (v : Word) {s : State} (hs : Keeps F s) :
    Keeps F (sqTailWrite n v s) := by
  unfold sqTailWrite
  with_reducible repeat' (first | assumption | apply keeps_accessError | apply keeps_ringError | apply keeps_wrF | apply keeps_wrB
                                | apply keeps_doorbellWake | apply keeps_wr | apply keeps_ite | split | (dsimp only; split))
theorem keeps_ringFetch {s : State} (hs : Keeps F s) : Keeps F (ringFetch s) := by
  unfold ringFetch
  split
  · exact hs
  split
  · exact hs
  split
  · exact keeps_fetchPause hs
  · exact keeps_fetchResume (keeps_wrF _ _ _ _ (keeps_modCmd hs.mailbox (tagsOk_new hs.tags ‹_› rfl rfl (by dsimp only)) hs))
theorem keeps_submitted (e : Nat) {s : State} (hs : Keeps F s) :
    Keeps F (submitted e s) := by
  unfold submitted
  with_reducible repeat' (first | assumption | apply keeps_complete | apply keeps_emit | refine keeps_modFlight _ (fun _ => rfl) ?_
                                | apply keeps_ite | split | (dsimp only; split))
theorem keeps_fetchedCount (c : Cmd) {s : State} (hs : Keeps F s) :
    Keeps F (fetchedCount c s) := by
  unfold fetchedCount
  with_reducible repeat' (first | assumption | apply keeps_perfCount)
theorem keeps_mailboxStart (p : Path) {s : State} (ht : tagsFree s ≠ 0) (hs : Keeps F s) : Keeps F (mailboxStart p s) := by
  unfold mailboxStart
  exact keeps_submitted _ (keeps_fetchedCount _ (keeps_fetchResume (keeps_modCmd hs.mailbox (tagsOk_new hs.tags ht rfl rfl (by dsimp only)) hs)))
theorem keeps_slotFetch {s : State} (hs : Keeps F s) : Keeps F (slotFetch s) := by
  unfold slotFetch
  split
  · exact hs
  split
  · rename_i h
    exact keeps_mailboxStart _ (by simp at h; exact h.2) hs
  · exact keeps_ringFetch hs
theorem keeps_execSlotFetch {s : State} (hs : Keeps F s) :
    KeepsO F (execSlotFetch s) := by
  unfold execSlotFetch
  apply keepsO_next
  with_reducible repeat' (first | assumption | apply keeps_slotFetch)
theorem keeps_slotArrived (e : Nat) (data : Option (List Byte)) {s : State} (hs : Keeps F s) : Keeps F (slotArrived e data s) := by
  unfold slotArrived
  split
  · exact hs
  split
  · have h : Keeps F (modCmd (fun c => { c with inflight := c.inflight.filter (fun g => g.etag != e) }) s) :=
      keeps_modCmd hs.mailbox (tagsOk_less hs.tags (List.filter_sublist ..) (List.Sublist.refl _)) hs
    dsimp only
    split
    · exact keeps_ringError _ _ _ (keeps_wrF _ _ _ _ (keeps_wrF _ _ _ _ (keeps_wrB _ _ _ h)))
    · exact h
  · exact keeps_submitted _ (keeps_fetchedCount _ (keeps_dmaRead _ _ (keeps_modFlight _ (fun _ => rfl) hs)))
theorem keeps_paramsArrived (e : Nat) (data : Option (List Byte)) {s : State} (hs : Keeps F s) :
    Keeps F (paramsArrived e data s) := by
  unfold paramsArrived
  with_reducible repeat' (first | assumption | apply keeps_complete | apply keeps_submitted | apply keeps_dmaRead
                                | refine keeps_modFlight _ (fun _ => rfl) ?_ | split | (dsimp only; split))
theorem keeps_ldtArrived (l : Nat) (data : Option (List Byte)) {s : State} (hs : Keeps F s) :
    Keeps F (ldtArrived l data s) := by
  unfold ldtArrived
  with_reducible repeat' (first | assumption | refine keeps_modCmd_rest (fun _ => rfl) (fun _ => rfl) (fun _ => rfl) ?_ | apply keeps_done_filter
                                | apply keeps_dmaRead | apply keeps_ldtStore | apply keeps_count | apply keeps_ite | split | (dsimp only; split))
theorem keeps_execLdtCacheFill (l : Pair) (data : Option (List Byte)) {s : State} (hs : Keeps F s) :
    KeepsO F (execLdtCacheFill l data s) := by
  unfold execLdtCacheFill
  apply keepsO_next
  with_reducible repeat' (first | assumption | apply keeps_ldtArrived)
theorem keeps_hostReadDone (r : HostRead) (data : Option (List Byte)) {s : State} (hs : Keeps F s) :
    Keeps F (hostReadDone r data s) := by
  unfold hostReadDone
  with_reducible repeat' (first | assumption | apply keeps_slotArrived | apply keeps_paramsArrived | apply keeps_ldtArrived | split
                                | (dsimp only; split))
theorem keeps_execSlotFetchDone (r : HostRead) (data : Option (List Byte)) {s : State} (hs : Keeps F s) :
    KeepsO F (execSlotFetchDone r data s) := by
  unfold execSlotFetchDone
  apply keepsO_next
  with_reducible repeat' (first | assumption | apply keeps_hostReadDone)
theorem keeps_execHostReadCompletionTimeout (r : HostRead) {s : State} (hs : Keeps F s) :
    KeepsO F (execHostReadCompletionTimeout r s) := by
  unfold execHostReadCompletionTimeout
  apply keepsO_next
  with_reducible repeat' (first | assumption | apply keeps_hostReadDone)
theorem keeps_statusSlotWrite (n : Nat) {s : State} (hs : Keeps F s) (nHost : F.host = none := by assumption) :
    Keeps F (statusSlotWrite n s) := by
  unfold statusSlotWrite
  with_reducible repeat' (first | assumption | apply keeps_hostWriteBy | apply keeps_wrF | apply keeps_wrB
                                | refine keeps_modCmd_rest (fun _ => rfl) (fun _ => rfl) (fun _ => rfl) ?_ | apply keeps_done_filter
                                | apply keeps_raiseMsix | apply keeps_cqStalls | apply keeps_ite | split | (dsimp only; split))
theorem keeps_execStatusSlotWrite (n : Ring) {s : State} (hs : Keeps F s) (nHost : F.host = none := by assumption) :
    KeepsO F (execStatusSlotWrite n s) := by
  unfold execStatusSlotWrite
  apply keepsO_next
  with_reducible repeat' (first | assumption | apply keeps_statusSlotWrite)
theorem keeps_cqHeadWrite (n : Nat) (v : Word) {s : State} (hs : Keeps F s) :
    Keeps F (cqHeadWrite n v s) := by
  unfold cqHeadWrite
  with_reducible repeat' (first | assumption | apply keeps_ringError | apply keeps_wrF | apply keeps_wrB | apply keeps_accessError
                                | apply keeps_doorbellWake | apply keeps_cqStalls | apply keeps_wr | apply keeps_ite | split
                                | (dsimp only; split))
theorem keeps_coalesceExpiry (n : Nat) {s : State} (hs : Keeps F s) :
    Keeps F (coalesceExpiry n s) := by
  unfold coalesceExpiry
  with_reducible repeat' (first | assumption | apply keeps_raiseMsix | refine keeps_modCmd_rest (fun _ => rfl) (fun _ => rfl) (fun _ => rfl) ?_
                                | apply keeps_done_filter | apply keeps_ite | split | (dsimp only; split))
theorem keeps_execCqCoalesceExpiry (n : Ring) {s : State} (hs : Keeps F s) :
    KeepsO F (execCqCoalesceExpiry n s) := by
  unfold execCqCoalesceExpiry
  apply keepsO_next
  with_reducible repeat' (first | assumption | apply keeps_coalesceExpiry)
theorem keeps_ringRefuse (v : View) (a : Nat) {s : State} (hs : Keeps F s) :
    Keeps F (ringRefuse v a s) := by
  unfold ringRefuse
  with_reducible repeat' (first | assumption | apply keeps_accessError)
theorem keeps_ringBaseWrite (enabled : Bool) (v : View) (a : Nat) (w mask : Word) {s : State} (hs : Keeps F s) :
    Keeps F (ringBaseWrite enabled v a w mask s) := by
  unfold ringBaseWrite
  with_reducible repeat' (first | assumption | apply keeps_ringRefuse | apply keeps_wr | apply keeps_ite | split | (dsimp only; split))
theorem keeps_sqCfgWrite (v : View) (n : Nat) (w : Word) {s : State} (hs : Keeps F s) :
    Keeps F (sqCfgWrite v n w s) := by
  unfold sqCfgWrite
  with_reducible repeat' (first | assumption | apply keeps_ringRefuse | apply keeps_wr | apply keeps_ite | split | (dsimp only; split))
theorem keeps_cqCfgWrite (v : View) (n : Nat) (w : Word) {s : State} (hs : Keeps F s) :
    Keeps F (cqCfgWrite v n w s) := by
  unfold cqCfgWrite
  with_reducible repeat' (first | assumption | apply keeps_ringRefuse | apply keeps_wr | apply keeps_wrF | apply keeps_wrB | apply keeps_ite
                                | split | (dsimp only; split))
theorem keeps_ldtCtlWrite (w : Word) {s : State} (hs : Keeps F s) :
    Keeps F (ldtCtlWrite w s) := by
  unfold ldtCtlWrite
  with_reducible repeat' (first | assumption | apply keeps_wr | refine keeps_modCmd_rest (fun _ => rfl) (fun _ => rfl) (fun _ => rfl) ?_
                                | apply keeps_done_filter | apply keeps_ite | split | (dsimp only; split))
theorem keeps_ldtBaseWrite (v : View) (a : Nat) (w mask : Word) {s : State} (hs : Keeps F s) :
    Keeps F (ldtBaseWrite v a w mask s) := by
  unfold ldtBaseWrite
  with_reducible repeat' (first | assumption | apply keeps_ringBaseWrite)
theorem keeps_mailboxCtlWrite (serial : Bool) (w : Word) {s : State} (hs : Keeps F s) : Keeps F (mailboxCtlWrite serial w s) := by
  unfold mailboxCtlWrite
  with_reducible repeat' (first | assumption | (intro _) | apply keeps_wrF | apply keeps_wrB | apply keeps_fetchPause
                                | (refine keeps_mailboxStart _ (by assumption) ?_)
                                | (refine keeps_modCmd_rest (fun _ => rfl) (fun _ => rfl) (fun _ => rfl) ?_) | apply keeps_beginWake
                                | apply keeps_doorbellWake | apply keeps_foldl | split | (dsimp only; split))
theorem keeps_execMailboxGo (serial : Bool) (w : Word) {s : State} (hs : Keeps F s) :
    KeepsO F (execMailboxGo serial w s) := by
  unfold execMailboxGo
  apply keepsO_next
  with_reducible repeat' (first | assumption | apply keeps_mailboxCtlWrite | apply keeps_ite | split | (dsimp only; split))
theorem keeps_mailboxBufWrite (o : Nat) (w : Word) {s : State} (hs : Keeps F s) : Keeps F (mailboxBufWrite o w s) := by
  unfold mailboxBufWrite
  split
  · exact keeps_wrB _ _ _ hs
  · exact keeps_modCmd (bytesWf_putBytes0 _ _ hs.mailbox) hs.tags hs
theorem keeps_execMailboxBufferWrite (word : BitVec 10) (w : Word) {s : State} (hs : Keeps F s) :
    KeepsO F (execMailboxBufferWrite word w s) := by
  unfold execMailboxBufferWrite
  apply keepsO_next
  with_reducible repeat' (first | assumption | apply keeps_mailboxBufWrite | apply keeps_ite | split | (dsimp only; split))
theorem keeps_mboxWdata (w : Word) {s : State} (hs : Keeps F s) :
    Keeps F (mboxWdata w s) := by
  unfold mboxWdata
  with_reducible repeat' (first | assumption | apply keeps_mailboxBufWrite
                                | refine keeps_modCmd_rest (fun _ => rfl) (fun _ => rfl) (fun _ => rfl) ?_ | apply keeps_done_filter)
theorem keeps_execMboxWdata (w : Word) {s : State} (hs : Keeps F s) :
    KeepsO F (execMboxWdata w s) := by
  unfold execMboxWdata
  apply keepsO_next
  with_reducible repeat' (first | assumption | apply keeps_mboxWdata | apply keeps_ite | split | (dsimp only; split))
theorem keeps_mboxRdata {s : State} (hs : Keeps F s) :
    KeepsR F (mboxRdata s) := by
  unfold mboxRdata
  with_reducible repeat' (first | assumption | refine keeps_modCmd_rest (fun _ => rfl) (fun _ => rfl) (fun _ => rfl) ?_ | apply keeps_done_filter
                                | apply keepsR_ite | apply keepsR_mk)
theorem keeps_execMboxRdata {s : State} (hs : Keeps F s) :
    KeepsO F (execMboxRdata s) := by
  unfold execMboxRdata
  apply keepsO_next
  with_reducible repeat' (first | assumption | apply keeps_emit | apply keeps_mboxRdata | apply keeps_ite | apply keepsR_ite
                                | refine keepsR_eq (keeps_mboxRdata ?_) (by assumption) | split | (dsimp only; split) | apply keeps_snd)
theorem keeps_evtRestart {s : State} (hs : Keeps F s) :
    Keeps F (evtRestart s) := by
  unfold evtRestart
  with_reducible repeat' (first | assumption | apply keeps_wr | apply keeps_set_evt)
theorem keeps_evtHeadWrite (w : Word) {s : State} (hs : Keeps F s) :
    Keeps F (evtHeadWrite w s) := by
  unfold evtHeadWrite
  with_reducible repeat' (first | assumption | apply keeps_ringError | apply keeps_wrB | apply keeps_accessError | apply keeps_wr
                                | apply keeps_doorbellWake | apply keeps_ite | split | (dsimp only; split) | apply keeps_set_evt)
theorem keeps_evtCfgWrite (v : View) (off : Nat) (w : Word) {s : State} (hs : Keeps F s) :
    Keeps F (evtCfgWrite v off w s) := by
  unfold evtCfgWrite
  with_reducible repeat' (first | assumption | apply keeps_accessError | apply keeps_wr | apply keeps_wrF | apply keeps_evtRestart
                                | apply keeps_ite | split | (dsimp only; split))
theorem keeps_maskUse (r : EvRec) {s : State} (hs : Keeps F s) :
    Keeps F (maskUse r s) := by
  unfold maskUse
  with_reducible repeat' (first | assumption | refine keeps_modCmd_rest (fun _ => rfl) (fun _ => rfl) (fun _ => rfl) ?_ | apply keeps_done_filter
                                | apply keeps_ldtUse | apply keeps_ite | split | (dsimp only; split))
theorem keeps_evtWrite (r : EvRec) {s : State} (hs : Keeps F s) (nHost : F.host = none := by assumption) :
    Keeps F (evtWrite r s) := by
  unfold evtWrite
  with_reducible repeat' (first | assumption | apply keeps_hostWriteBy | apply keeps_perfCount | apply keeps_wrF | apply keeps_wrB
                                | apply keeps_raiseMsix | apply keeps_ite | split | (dsimp only; split) | apply keeps_set_evt)
theorem keeps_evtDeliver {s : State} (hs : Keeps F s) (nHost : F.host = none := by assumption) :
    Keeps F (evtDeliver s) := by
  unfold evtDeliver
  with_reducible repeat' (first | assumption | apply keeps_maskUse | apply keeps_ringDrop | apply keeps_evtWrite | apply keeps_ite | split
                                | (dsimp only; split) | apply keeps_set_evt)
theorem keeps_execEventRecordDelivery {s : State} (hs : Keeps F s) (nHost : F.host = none := by assumption) :
    KeepsO F (execEventRecordDelivery s) := by
  unfold execEventRecordDelivery
  apply keepsO_next
  with_reducible repeat' (first | assumption | apply keeps_evtDeliver)
theorem keeps_logWrite {s : State} (hs : Keeps F s) :
    Keeps F (logWrite s) := by
  unfold logWrite
  with_reducible repeat' (first | assumption | apply keeps_ite | split | (dsimp only; split) | apply keeps_set_evt)
theorem keeps_execEventLogWrite {s : State} (hs : Keeps F s) :
    KeepsO F (execEventLogWrite s) := by
  unfold execEventLogWrite
  apply keepsO_next
  with_reducible repeat' (first | assumption | apply keeps_logWrite)

/-! ### Line -/

theorem keeps_set_pairs {s : State} {x0} (h : Keeps F s) (nPairs : F.pairs = none := by assumption) : Keeps F { s with pairs := x0 } :=
  ⟨h.1, h.2, h.3, h.4, h.5, h.6, h.7, fixes_pairs h.8 nPairs⟩
theorem keeps_putPair (l : Nat) (x : PairSt) {s : State} (hs : Keeps F s) (nPairs : F.pairs = none := by assumption) :
    Keeps F (putPair l x s) := by
  unfold putPair
  with_reducible repeat' (first | assumption | apply keeps_set_pairs)
theorem keeps_modPair (l : Nat) (f : PairSt → PairSt) {s : State} (hs : Keeps F s) (nPairs : F.pairs = none := by assumption) :
    Keeps F (modPair l f s) := by
  unfold modPair
  with_reducible repeat' (first | assumption | apply keeps_putPair)
theorem keeps_set_ports {s : State} {x0} (h : Keeps F s) (nPorts : F.ports = none := by assumption) : Keeps F { s with ports := x0 } :=
  ⟨h.1, h.2, h.3, h.4, h.5, h.6, h.7, fixes_ports h.8 nPorts⟩
theorem keeps_modPort (p : Nat) (f : PortSt → PortSt) {s : State} (hs : Keeps F s) (nPorts : F.ports = none := by assumption) :
    Keeps F (modPort p f s) := by
  unfold modPort
  with_reducible repeat' (first | assumption | apply keeps_set_ports)
theorem keeps_set_syns {s : State} {x0} (h : Keeps F s) (nSyns : F.syns = none := by assumption) : Keeps F { s with syns := x0 } :=
  ⟨h.1, h.2, h.3, h.4, h.5, h.6, h.7, fixes_syns h.8 nSyns⟩
theorem keeps_modSyn (i : Nat) (f : SynSt → SynSt) {s : State} (hs : Keeps F s) (nSyns : F.syns = none := by assumption) :
    Keeps F (modSyn i f s) := by
  unfold modSyn
  with_reducible repeat' (first | assumption | apply keeps_set_syns)
theorem keeps_set_lanes {s : State} {x0} (h : Keeps F s) (nLanes : F.lanes = none := by assumption) : Keeps F { s with lanes := x0 } :=
  ⟨h.1, h.2, h.3, h.4, h.5, h.6, h.7, fixes_lanes h.8 nLanes⟩
theorem keeps_modLane (n : Nat) (f : LaneSt → LaneSt) {s : State} (hs : Keeps F s) (nLanes : F.lanes = none := by assumption) :
    Keeps F (modLane n f s) := by
  unfold modLane
  with_reducible repeat' (first | assumption | apply keeps_set_lanes)
theorem keeps_lineWake (l : Nat) {s : State} (hs : Keeps F s) :
    Keeps F (lineWake l s) := by
  unfold lineWake
  with_reducible repeat' (first | assumption | apply keeps_beginWake | apply keeps_ite | split | (dsimp only; split))
theorem keeps_timerWake {s : State} (hs : Keeps F s) :
    Keeps F (timerWake s) := by
  unfold timerWake
  with_reducible repeat' (first | assumption | apply keeps_beginWake | apply keeps_ite | split | (dsimp only; split))

/-! ### Slicer -/

theorem keeps_loopRun (l : Nat) {s : State} (hs : Keeps F s) (nPairs : F.pairs = none := by assumption) :
    Keeps F (loopRun l s) := by
  unfold loopRun
  with_reducible repeat' (first | assumption | apply keeps_draw | apply keeps_modPair | apply keeps_ite | apply keepsR_ite
                                | refine keepsR_eq (keeps_draw _ ?_) (by assumption) | split | (dsimp only; split) | apply keeps_snd)

/-! ### Takes -/

theorem keeps_setSlot (l k code : Nat) (await : Bool) {s : State} (hs : Keeps F s) (nPairs : F.pairs = none := by assumption) :
    Keeps F (setSlot l k code await s) := by
  unfold setSlot
  with_reducible repeat' (first | assumption | apply keeps_wrF | apply keeps_modPair | apply keeps_ite | split | (dsimp only; split))
theorem keeps_set_takes {s : State} {x0} (h : Keeps F s) (nTakes : F.takes = none := by assumption) : Keeps F { s with takes := x0 } :=
  ⟨h.1, h.2, h.3, h.4, h.5, h.6, h.7, fixes_takes h.8 nTakes⟩
theorem keeps_putTake (l k : Nat) (t : List Byte) {s : State} (hs : Keeps F s) (nTakes : F.takes = none := by assumption) :
    Keeps F (putTake l k t s) := by
  unfold putTake
  with_reducible repeat' (first | assumption | apply keeps_set_takes)
theorem keeps_writeTake (l k : Nat) (t : List Byte) {s : State} (hs : Keeps F s) (nTakes : F.takes = none := by assumption)
    (nPairs : F.pairs = none := by assumption) :
    Keeps F (writeTake l k t s) := by
  unfold writeTake
  with_reducible repeat' (first | assumption | apply keeps_setSlot | apply keeps_putTake)
theorem keeps_clearSlot (l k : Nat) {s : State} (hs : Keeps F s) (nTakes : F.takes = none := by assumption)
    (nPairs : F.pairs = none := by assumption) :
    Keeps F (clearSlot l k s) := by
  unfold clearSlot
  with_reducible repeat' (first | assumption | apply keeps_setSlot | apply keeps_putTake)
theorem keeps_loaderPut (t : Nat) (r : LoadReq) {s : State} (hs : Keeps F s) (nTiles : F.tiles = none := by assumption) :
    Keeps F (loaderPut t r s) := by
  unfold loaderPut
  with_reducible repeat' (first | assumption | apply keeps_modTile)
theorem keeps_loaderDrop (t : Nat) {s : State} (hs : Keeps F s) (nTiles : F.tiles = none := by assumption) :
    Keeps F (loaderDrop t s) := by
  unfold loaderDrop
  with_reducible repeat' (first | assumption | apply keeps_modTile)
theorem keeps_askVerify (l k purpose etag prev : Nat) {s : State} (hs : Keeps F s) (nTiles : F.tiles = none := by assumption) :
    Keeps F (askVerify l k purpose etag prev s) := by
  unfold askVerify
  with_reducible repeat' (first | assumption | apply keeps_loaderPut)
theorem keeps_askFill (l k : Nat) {s : State} (hs : Keeps F s) (nPairs : F.pairs = none := by assumption)
    (nTiles : F.tiles = none := by assumption) :
    Keeps F (askFill l k s) := by
  unfold askFill
  with_reducible repeat' (first | assumption | apply keeps_modPair | apply keeps_loaderPut | apply keeps_ite | split | (dsimp only; split))
theorem keeps_dropFills (l : Nat) {s : State} (hs : Keeps F s) (nTiles : F.tiles = none := by assumption) :
    Keeps F (dropFills l s) := by
  unfold dropFills
  with_reducible repeat' (first | assumption | apply keeps_modTile)
theorem keeps_fillStandby (l k : Nat) {s : State} (hs : Keeps F s) (nPairs : F.pairs = none := by assumption) :
    Keeps F (fillStandby l k s) := by
  unfold fillStandby
  with_reducible repeat' (first | assumption | apply keeps_modPair | apply keeps_ite | split | (dsimp only; split))
theorem keeps_setCut (l : Nat) (c : Cut) {s : State} (hs : Keeps F s) (nPairs : F.pairs = none := by assumption)
    (nTiles : F.tiles = none := by assumption) :
    Keeps F (setCut l c s) := by
  unfold setCut
  with_reducible repeat' (first | assumption | apply keeps_modPair | apply keeps_setSlot | apply keeps_wr | apply keeps_askFill | apply keeps_ite
                                | split | (dsimp only; split))
theorem keeps_localCut (l k purpose : Nat) (etag : Option Nat) {s : State} (hs : Keeps F s) (nPairs : F.pairs = none := by assumption)
    (nTiles : F.tiles = none := by assumption) :
    Keeps F (localCut l k purpose etag s) := by
  unfold localCut
  with_reducible repeat' (first | assumption | apply keeps_setCut)
theorem keeps_coordCut (l k purpose : Nat) (sf : Word) (join : Bool) (etag : Option Nat) {s : State} (hs : Keeps F s)
    (nPairs : F.pairs = none := by assumption) (nTiles : F.tiles = none := by assumption) :
    Keeps F (coordCut l k purpose sf join etag s) := by
  unfold coordCut
  with_reducible repeat' (first | assumption | apply keeps_setCut | apply keeps_modPair)
theorem keeps_cutMissEvent (l reason slot check : Nat) (sf : Word) {s : State} (hs : Keeps F s) :
    Keeps F (cutMissEvent l reason slot check sf s) := by
  unfold cutMissEvent
  with_reducible repeat' (first | assumption | apply keeps_raise | apply keeps_count)
theorem keeps_cutMiss (l reason check back status : Nat) {s : State} (hs : Keeps F s) (nPairs : F.pairs = none := by assumption)
    (nTiles : F.tiles = none := by assumption) :
    Keeps F (cutMiss l reason check back status s) := by
  unfold cutMiss
  with_reducible repeat' (first | assumption | apply keeps_setSlot | apply keeps_cutMissEvent | apply keeps_dropFills | apply keeps_modPair
                                | apply keeps_complete | apply keeps_ite | split | (dsimp only; split))
theorem keeps_cutAbort (l reason : Nat) {s : State} (hs : Keeps F s) (nPairs : F.pairs = none := by assumption)
    (nTiles : F.tiles = none := by assumption) :
    Keeps F (cutAbort l reason s) := by
  unfold cutAbort
  with_reducible repeat' (first | assumption | apply keeps_cutMiss)
theorem keeps_cutTakes (l : Nat) (c : Cut) {s : State} (hs : Keeps F s) (nPairs : F.pairs = none := by assumption) :
    Keeps F (cutTakes l c s) := by
  unfold cutTakes
  with_reducible repeat' (first | assumption | apply keeps_setSlot | apply keeps_modPair | apply keeps_complete | apply keeps_ite | split
                                | (dsimp only; split))
theorem keeps_cutDecide (l : Nat) (hit : Bool) {s : State} (hs : Keeps F s) (nPairs : F.pairs = none := by assumption)
    (nTiles : F.tiles = none := by assumption) :
    Keeps F (cutDecide l hit s) := by
  unfold cutDecide
  with_reducible repeat' (first | assumption | apply keeps_cutAbort | apply keeps_cutMiss | apply keeps_cutMissEvent | apply keeps_wr
                                | apply keeps_modPair | apply keeps_cutTakes | apply keeps_ite | split | (dsimp only; split))
theorem keeps_entryCut (l k : Nat) {s : State} (hs : Keeps F s) (nPairs : F.pairs = none := by assumption) :
    Keeps F (entryCut l k s) := by
  unfold entryCut
  with_reducible repeat' (first | assumption | apply keeps_fillStandby | apply keeps_cutMissEvent | apply keeps_setSlot | apply keeps_modPair
                                | apply keeps_ite | split | (dsimp only; split))
theorem keeps_banksCut (l back : Nat) {s : State} (hs : Keeps F s) (nPairs : F.pairs = none := by assumption)
    (nTiles : F.tiles = none := by assumption) :
    Keeps F (banksCut l back s) := by
  unfold banksCut
  with_reducible repeat' (first | assumption | apply keeps_cutMiss)
theorem keeps_banksLost (l back : Nat) {s : State} (hs : Keeps F s) (nPairs : F.pairs = none := by assumption)
    (nTiles : F.tiles = none := by assumption) :
    Keeps F (banksLost l back s) := by
  unfold banksLost
  with_reducible repeat' (first | assumption | apply keeps_banksCut | apply keeps_setSlot | apply keeps_modPair | split | (dsimp only; split))

/-! ### LaneOps -/

theorem keeps_setLaneState (n st : Nat) {s : State} (hs : Keeps F s) :
    Keeps F (setLaneState n st s) := by
  unfold setLaneState
  with_reducible repeat' (first | assumption | apply keeps_wrF)
theorem keeps_setAbsent (b : Bool) (l : Nat) {s : State} (hs : Keeps F s) (nPairs : F.pairs = none := by assumption) :
    Keeps F (setAbsent b l s) := by
  unfold setAbsent
  with_reducible repeat' (first | assumption | apply keeps_modPair)
theorem keeps_streamsAbsent (n : Nat) {s : State} (hs : Keeps F s) (nPairs : F.pairs = none := by assumption) :
    Keeps F (streamsAbsent n s) := by
  unfold streamsAbsent
  with_reducible repeat' (first | assumption | (intro _) | apply keeps_setAbsent | apply keeps_each)
theorem keeps_breakDue (l : Nat) {s : State} (hs : Keeps F s) (nLanes : F.lanes = none := by assumption) :
    Keeps F (breakDue l s) := by
  unfold breakDue
  with_reducible repeat' (first | assumption | apply keeps_count | apply keeps_modLane | apply keeps_ite | split | (dsimp only; split))
theorem keeps_laneLoseLock (n : Nat) {s : State} (hs : Keeps F s) (nPairs : F.pairs = none := by assumption)
    (nLanes : F.lanes = none := by assumption) :
    Keeps F (laneLoseLock n s) := by
  unfold laneLoseLock
  with_reducible repeat' (first | assumption | apply keeps_setLaneState | apply keeps_streamsAbsent | apply keeps_modLane | apply keeps_raise
                                | apply keeps_count | apply keeps_ite | split | (dsimp only; split))
theorem keeps_tileLanesLost (t : Nat) {s : State} (hs : Keeps F s) (nPairs : F.pairs = none := by assumption)
    (nLanes : F.lanes = none := by assumption) :
    Keeps F (tileLanesLost t s) := by
  unfold tileLanesLost
  with_reducible repeat' (first | assumption | (intro _) | apply keeps_laneLoseLock | apply keeps_each)
theorem keeps_tileLanesRun (t : Nat) {s : State} (hs : Keeps F s) :
    Keeps F (tileLanesRun t s) := by
  unfold tileLanesRun
  with_reducible repeat' (first | assumption | (intro _) | apply keeps_setLaneState | apply keeps_each | apply keeps_ite | split
                                | (dsimp only; split))
theorem keeps_laneStart (n : Nat) {s : State} (hs : Keeps F s) :
    Keeps F (laneStart n s) := by
  unfold laneStart
  with_reducible repeat' (first | assumption | apply keeps_setLaneState | apply keeps_ite | split | (dsimp only; split))
theorem keeps_laneStop (n : Nat) {s : State} (hs : Keeps F s) (nPairs : F.pairs = none := by assumption)
    (nLanes : F.lanes = none := by assumption) :
    Keeps F (laneStop n s) := by
  unfold laneStop
  with_reducible repeat' (first | assumption | apply keeps_modLane | apply keeps_setLaneState | apply keeps_streamsAbsent | apply keeps_ite
                                | split | (dsimp only; split))

/-! ### SynOps -/

theorem keeps_setFrozen (p : Nat) (b : Bool) {s : State} (hs : Keeps F s) :
    Keeps F (setFrozen p b s) := by
  unfold setFrozen
  with_reducible repeat' (first | assumption | apply keeps_wrB)
theorem keeps_outputStops (i : Nat) {s : State} (hs : Keeps F s) (nPairs : F.pairs = none := by assumption)
    (nLanes : F.lanes = none := by assumption) :
    Keeps F (outputStops i s) := by
  unfold outputStops
  with_reducible repeat' (first | assumption | apply keeps_setFrozen | apply keeps_tileLanesLost | apply keeps_ite | split | (dsimp only; split))
theorem keeps_synLeave (st i k : Nat) (search : Bool) (tag : Option Nat) {s : State} (hs : Keeps F s) (nPairs : F.pairs = none := by assumption)
    (nSyns : F.syns = none := by assumption) (nLanes : F.lanes = none := by assumption) :
    Keeps F (synLeave st i k search tag s) := by
  unfold synLeave
  with_reducible repeat' (first | assumption | apply keeps_wrF | apply keeps_outputStops | apply keeps_modSyn | apply keeps_ite | split
                                | (dsimp only; split))
theorem keeps_synHop (i k : Nat) (search : Bool) (tag : Option Nat) {s : State} (hs : Keeps F s) (nPairs : F.pairs = none := by assumption)
    (nSyns : F.syns = none := by assumption) (nLanes : F.lanes = none := by assumption) :
    Keeps F (synHop i k search tag s) := by
  unfold synHop
  exact keeps_synLeave _ _ _ _ _ hs
theorem keeps_synAgain (i k : Nat) (search : Bool) (tag : Option Nat) {s : State} (hs : Keeps F s) (nPairs : F.pairs = none := by assumption)
    (nSyns : F.syns = none := by assumption) (nLanes : F.lanes = none := by assumption) :
    Keeps F (synAgain i k search tag s) := by
  unfold synAgain
  exact keeps_synLeave _ _ _ _ _ hs
theorem keeps_synEnable (i : Nat) {s : State} (hs : Keeps F s) (nPairs : F.pairs = none := by assumption) (nSyns : F.syns = none := by assumption)
    (nLanes : F.lanes = none := by assumption) :
    Keeps F (synEnable i s) := by
  unfold synEnable
  with_reducible repeat' (first | assumption | (intro _) | apply keeps_wr | apply keeps_wrF | apply keeps_outputStops | apply keeps_modSyn
                                | apply keeps_each)
theorem keeps_bandFound (i k band : Nat) {s : State} (hs : Keeps F s) :
    Keeps F (bandFound i k band s) := by
  unfold bandFound
  with_reducible repeat' (first | assumption | apply keeps_wrF | apply keeps_wrB)
theorem keeps_hopEnd (tag : Option Nat) (fresh : Bool) {s : State} (hs : Keeps F s) :
    Keeps F (hopEnd tag fresh s) := by
  unfold hopEnd
  with_reducible repeat' (first | assumption | apply keeps_complete | apply keeps_ite | split | (dsimp only; split))
theorem keeps_hopCut (tag : Option Nat) {s : State} (hs : Keeps F s) :
    Keeps F (hopCut tag s) := by
  unfold hopCut
  with_reducible repeat' (first | assumption | apply keeps_complete | split | (dsimp only; split))
theorem keeps_synHopDone (i band other : Nat) (fresh : Bool) {s : State} (hs : Keeps F s) (nSyns : F.syns = none := by assumption) :
    Keeps F (synHopDone i band other fresh s) := by
  unfold synHopDone
  with_reducible repeat' (first | assumption | (intro _) | apply keeps_bandFound | apply keeps_wrB | apply keeps_wrF | apply keeps_wr
                                | apply keeps_count | apply keeps_modSyn | apply keeps_setFrozen | apply keeps_tileLanesRun | apply keeps_hopEnd
                                | apply keeps_each | apply keeps_ite | split | (dsimp only; split))
theorem keeps_synHold (i : Nat) {s : State} (hs : Keeps F s) (nPairs : F.pairs = none := by assumption) (nSyns : F.syns = none := by assumption)
    (nLanes : F.lanes = none := by assumption) :
    Keeps F (synHold i s) := by
  unfold synHold
  with_reducible repeat' (first | assumption | apply keeps_wrF | apply keeps_modSyn | apply keeps_raise | apply keeps_count
                                | apply keeps_outputStops | apply keeps_hopCut | apply keeps_ite | split | (dsimp only; split))
theorem keeps_smallStep (i : Nat) (d : Int) {s : State} (hs : Keeps F s) (nSyns : F.syns = none := by assumption) :
    Keeps F (smallStep i d s) := by
  unfold smallStep
  with_reducible repeat' (first | assumption | apply keeps_wrB | apply keeps_wr | apply keeps_modSyn | apply keeps_raise | apply keeps_ite | split
                                | (dsimp only; split))
theorem keeps_synCtlWrite (i : Nat) (w : Word) {s : State} (hs : Keeps F s) (nPairs : F.pairs = none := by assumption)
    (nSyns : F.syns = none := by assumption) (nLanes : F.lanes = none := by assumption) :
    Keeps F (synCtlWrite i w s) := by
  unfold synCtlWrite
  with_reducible repeat' (first | assumption | (intro _) | apply keeps_wr | apply keeps_wrB | apply keeps_synHop | apply keeps_synAgain
                                | apply keeps_each
                                | apply keeps_ite | split | (dsimp only; split))
theorem keeps_synWordWrite (i k : Nat) (frac : Bool) (w : Word) {s : State} (hs : Keeps F s) :
    Keeps F (synWordWrite i k frac w s) := by
  unfold synWordWrite
  with_reducible repeat' (first | assumption | apply keeps_wr | apply keeps_wrF | apply keeps_wrB | apply keeps_ite | split | (dsimp only; split))
theorem keeps_synMargin (i m : Nat) {s : State} (hs : Keeps F s) (nSyns : F.syns = none := by assumption) :
    Keeps F (synMargin i m s) := by
  unfold synMargin
  with_reducible repeat' (first | assumption | apply keeps_wrF | apply keeps_raise | apply keeps_modSyn | apply keeps_ite | split
                                | (dsimp only; split))
theorem keeps_set_held {s : State} {x0} (h : Keeps F s) : Keeps F { s with held := x0 } :=
  ⟨h.1, h.2, h.3, h.4, h.5, h.6, h.7, h.8⟩
theorem keeps_setTiming (p : Nat) (locked : Bool) {s : State} (hs : Keeps F s) (nLinks : F.links = none := by assumption)
    (nPorts : F.ports = none := by assumption) (nSyns : F.syns = none := by assumption) :
    Keeps F (setTiming p locked s) := by
  unfold setTiming
  with_reducible repeat' (first | assumption | (intro _) | apply keeps_modSyn | apply keeps_modPort | apply keeps_modLink | apply keeps_raise
                                | apply keeps_each | apply keeps_ite | split | (dsimp only; split) | apply keeps_set_held)
theorem keeps_clampStep (i : Nat) (d : Int) {s : State} (hs : Keeps F s) :
    KeepsR F (clampStep i d s) := by
  unfold clampStep
  with_reducible repeat' (first | assumption | apply keeps_count | apply keeps_ite | apply keepsR_ite | split | (dsimp only; split)
                                | apply keepsR_mk)

/-! ### Store -/

theorem keeps_calRead (l band : Nat) {s : State} (hs : Keeps F s) :
    KeepsR F (calRead l band s) := by
  unfold calRead
  with_reducible repeat' (first | assumption | apply keeps_raise | apply keeps_ite | apply keepsR_ite | split | (dsimp only; split)
                                | apply keepsR_mk)
theorem keeps_startTrims (l band : Nat) {s : State} (hs : Keeps F s) :
    KeepsR F (startTrims l band s) := by
  unfold startTrims
  with_reducible repeat' (first | assumption | (intro _) | apply keeps_calRead | apply keeps_foldl | apply keepsR_foldl | apply keepsR_ite
                                | refine keepsR_eq (keeps_calRead _ _ ?_) (by assumption) | split | (dsimp only; split) | apply keeps_snd
                                | apply keepsR_mk)
theorem keeps_drawBytes (kind n : Nat) {s : State} (hs : Keeps F s) : KeepsR F (drawBytes kind n s) := by
  induction n generalizing s with
  | zero => exact hs
  | succ n ih => exact ih (keeps_draw kind hs)
theorem keeps_ownHeader (src l m dir : Nat) {s : State} (hs : Keeps F s) :
    KeepsR F (ownHeader src l m dir s) := by
  unfold ownHeader
  with_reducible repeat' (first | assumption | apply keeps_draw | apply keeps_ite | apply keepsR_ite
                                | refine keepsR_eq (keeps_draw _ ?_) (by assumption) | split | (dsimp only; split) | apply keeps_snd
                                | apply keepsR_mk)
theorem keeps_boundedTake (hdr body : List Byte) {s : State} (hs : Keeps F s) :
    KeepsR F (boundedTake hdr body s) := by
  unfold boundedTake
  with_reducible repeat' (first | assumption | (intro _) | apply keeps_draw | apply keeps_foldl | apply keepsR_foldl | apply keepsR_ite
                                | refine keepsR_eq (keeps_draw _ ?_) (by assumption) | split | (dsimp only; split) | apply keeps_snd
                                | apply keepsR_mk)
theorem keeps_openNotes {s : State} (hs : Keeps F s) :
    KeepsR F (openNotes s) := by
  unfold openNotes
  with_reducible repeat' (first | assumption | apply keeps_drawBytes | apply keepsR_ite
                                | refine keepsR_eq (keeps_drawBytes _ _ ?_) (by assumption) | split | (dsimp only; split) | apply keeps_snd
                                | apply keepsR_mk)
theorem keeps_entryTake (l m : Nat) {s : State} (hs : Keeps F s) :
    KeepsR F (entryTake l m s) := by
  unfold entryTake
  with_reducible repeat' (first | assumption | apply keeps_startTrims | apply keeps_ownHeader | apply keeps_openNotes | apply keeps_boundedTake
                                | apply keepsR_ite | refine keepsR_eq (keeps_startTrims _ _ ?_) (by assumption)
                                | refine keepsR_eq (keeps_ownHeader _ _ _ _ ?_) (by assumption)
                                | refine keepsR_eq (keeps_openNotes ?_) (by assumption)
                                | refine keepsR_eq (keeps_boundedTake _ _ ?_) (by assumption) | split | (dsimp only; split) | apply keeps_snd
                                | apply keepsR_mk)
theorem keeps_placeTake (l : Nat) (t : List Byte) {s : State} (hs : Keeps F s) (nTakes : F.takes = none := by assumption)
    (nPairs : F.pairs = none := by assumption) :
    KeepsR F (placeTake l t s) := by
  unfold placeTake
  with_reducible repeat' (first | assumption | apply keeps_count | apply keeps_takeWords | apply keeps_writeTake | apply keeps_setSlot
                                | apply keeps_ite | apply keepsR_ite | split | (dsimp only; split) | apply keepsR_mk)
theorem keeps_set_contBad {s : State} {x0} (h : Keeps F s) : Keeps F { s with contBad := x0 } :=
  ⟨h.1, h.2, h.3, h.4, h.5, h.6, h.7, h.8⟩
theorem keeps_contBadRead {s : State} (hs : Keeps F s) :
    Keeps F (contBadRead s) := by
  unfold contBadRead
  with_reducible repeat' (first | assumption | apply keeps_raise | apply keeps_set_contBad)
theorem keeps_contLookup (m serial port : Nat) {s : State} (hs : Keeps F s) :
    KeepsR F (contLookup m serial port s) := by
  unfold contLookup
  with_reducible repeat' (first | assumption | apply keeps_contBadRead | apply keeps_ite | apply keepsR_ite | split | (dsimp only; split)
                                | apply keepsR_mk)
theorem keeps_set_contUse_contRecs {s : State} {x0} {x1} (h : Keeps F s) (nRecs : F.recs = none := by assumption)
    : Keeps F { s with contUse := x0, contRecs := x1 } :=
  ⟨h.1, h.2, h.3, h.4, h.5, h.6, h.7, fixes_recs h.8 nRecs⟩
theorem keeps_contHit (i : Nat) {s : State} (hs : Keeps F s) (nRecs : F.recs = none := by assumption) :
    Keeps F (contHit i s) := by
  unfold contHit
  with_reducible repeat' (first | assumption | apply keeps_set_contUse_contRecs)
theorem keeps_contRecord (m : Nat) (stamp : Word) {s : State} (hs : Keeps F s) :
    KeepsR F (contRecord m stamp s) := by
  unfold contRecord
  with_reducible repeat' (first | assumption | (intro _) | apply keeps_draw | apply keeps_foldl | apply keepsR_foldl | apply keeps_ite
                                | apply keepsR_ite | refine keepsR_eq (keeps_draw _ ?_) (by assumption) | split | (dsimp only; split)
                                | apply keeps_snd | apply keepsR_mk)
theorem keeps_set_contDue {s : State} {x0} (h : Keeps F s) : Keeps F { s with contDue := x0 } :=
  ⟨h.1, h.2, h.3, h.4, h.5, h.6, h.7, h.8⟩
theorem keeps_contWriteDue (m : Nat) {s : State} (hs : Keeps F s) :
    Keeps F (contWriteDue m s) := by
  unfold contWriteDue
  with_reducible repeat' (first | assumption | apply keeps_ite | split | (dsimp only; split) | apply keeps_set_contDue)

/-! ### Links -/

theorem keeps_set_captures {s : State} {x0} (h : Keeps F s) (nCaptures : F.captures = none := by assumption) : Keeps F { s with captures := x0 } :=
  ⟨h.1, h.2, h.3, h.4, h.5, h.6, h.7, fixes_captures h.8 nCaptures⟩
theorem keeps_putCaps (p : Nat) (l : List Capture) {s : State} (hs : Keeps F s) (nCaptures : F.captures = none := by assumption) :
    Keeps F (putCaps p l s) := by
  unfold putCaps
  with_reducible repeat' (first | assumption | apply keeps_set_captures)
theorem keeps_capAsk (p : Nat) (c : Capture) {s : State} (hs : Keeps F s) (nCaptures : F.captures = none := by assumption) :
    Keeps F (capAsk p c s) := by
  unfold capAsk
  with_reducible repeat' (first | assumption | apply keeps_putCaps)
theorem keeps_capDrop (p : Nat) (f : Capture → Bool) {s : State} (hs : Keeps F s) (nCaptures : F.captures = none := by assumption) :
    Keeps F (capDrop p f s) := by
  unfold capDrop
  with_reducible repeat' (first | assumption | apply keeps_putCaps)
theorem keeps_set_runs {s : State} {x0} (h : Keeps F s) (nRuns : F.runs = none := by assumption) : Keeps F { s with runs := x0 } :=
  ⟨h.1, h.2, h.3, h.4, h.5, h.6, h.7, fixes_runs h.8 nRuns⟩
theorem keeps_putRuns (g : Nat) (l : List Run) {s : State} (hs : Keeps F s) (nRuns : F.runs = none := by assumption) :
    Keeps F (putRuns g l s) := by
  unfold putRuns
  with_reducible repeat' (first | assumption | apply keeps_set_runs)
theorem keeps_requeue (l : Nat) (f : Run → Run) {s : State} (hs : Keeps F s) (nRuns : F.runs = none := by assumption) :
    Keeps F (requeue l f s) := by
  unfold requeue
  with_reducible repeat' (first | assumption | apply keeps_putRuns)
theorem keeps_modRun (l : Nat) (f : Run → Run) {s : State} (hs : Keeps F s) (nRuns : F.runs = none := by assumption) :
    Keeps F (modRun l f s) := by
  unfold modRun
  with_reducible repeat' (first | assumption | apply keeps_putRuns | apply keeps_ite | split | (dsimp only; split))
theorem keeps_dropRun (l : Nat) {s : State} (hs : Keeps F s) (nRuns : F.runs = none := by assumption)
    (nCaptures : F.captures = none := by assumption) :
    Keeps F (dropRun l s) := by
  unfold dropRun
  with_reducible repeat' (first | assumption | apply keeps_capDrop | apply keeps_putRuns)
theorem keeps_queueRun (l cls etag : Nat) (cut : Bool) {s : State} (hs : Keeps F s) (nRuns : F.runs = none := by assumption) :
    Keeps F (queueRun l cls etag cut s) := by
  unfold queueRun
  with_reducible repeat' (first | assumption | apply keeps_putRuns | apply keeps_ite | split | (dsimp only; split))
theorem keeps_endRun (l status : Nat) (result : List Byte) {s : State} (hs : Keeps F s) (nRuns : F.runs = none := by assumption)
    (nCaptures : F.captures = none := by assumption) :
    Keeps F (endRun l status result s) := by
  unfold endRun
  with_reducible repeat' (first | assumption | apply keeps_dropRun | apply keeps_complete | apply keeps_ite | split | (dsimp only; split))
theorem keeps_abortRun (l : Nat) {s : State} (hs : Keeps F s) (nTiles : F.tiles = none := by assumption) (nRuns : F.runs = none := by assumption)
    (nCaptures : F.captures = none := by assumption) :
    Keeps F (abortRun l s) := by
  unfold abortRun
  with_reducible repeat' (first | assumption | apply keeps_modTile | apply keeps_endRun)
theorem keeps_sendSlate (l : Nat) {s : State} (hs : Keeps F s) (nPairs : F.pairs = none := by assumption) :
    Keeps F (sendSlate l s) := by
  unfold sendSlate
  with_reducible repeat' (first | assumption | apply keeps_modPair | apply keeps_ite | split | (dsimp only; split))
theorem keeps_captureLeft (l : Nat) {s : State} (hs : Keeps F s) (nCaptures : F.captures = none := by assumption) :
    Keeps F (captureLeft l s) := by
  unfold captureLeft
  with_reducible repeat' (first | assumption | apply keeps_putCaps | apply keeps_ite | split | (dsimp only; split))
theorem keeps_activityOff (m : Nat) {s : State} (hs : Keeps F s) (nPairs : F.pairs = none := by assumption)
    (nTiles : F.tiles = none := by assumption) (nRuns : F.runs = none := by assumption) (nCaptures : F.captures = none := by assumption) :
    Keeps F (activityOff m s) := by
  unfold activityOff
  with_reducible repeat' (first | assumption | (intro _) | apply keeps_captureLeft | apply keeps_abortRun | apply keeps_cutAbort
                                | apply keeps_modPair | apply keeps_answer | apply keeps_each)
theorem keeps_finishExchanges (m : Nat) {s : State} (hs : Keeps F s) (nPairs : F.pairs = none := by assumption) :
    Keeps F (finishExchanges m s) := by
  unfold finishExchanges
  with_reducible repeat' (first | assumption | (intro _) | apply keeps_modPair | apply keeps_each)
theorem keeps_linkSilent (m : Nat) {s : State} (hs : Keeps F s) (nPairs : F.pairs = none := by assumption) :
    Keeps F (linkSilent m s) := by
  unfold linkSilent
  with_reducible repeat' (first | assumption | (intro _) | apply keeps_modPair | apply keeps_finishExchanges | apply keeps_each)
theorem keeps_hopBack (p : Nat) {s : State} (hs : Keeps F s) (nPairs : F.pairs = none := by assumption) (nSyns : F.syns = none := by assumption)
    (nLanes : F.lanes = none := by assumption) :
    Keeps F (hopBack p s) := by
  unfold hopBack
  with_reducible repeat' (first | assumption | apply keeps_synHop | apply keeps_modSyn | apply keeps_ite | split | (dsimp only; split))
theorem keeps_portSettle (p : Nat) {s : State} (hs : Keeps F s) (nPairs : F.pairs = none := by assumption)
    (nPorts : F.ports = none := by assumption) (nSyns : F.syns = none := by assumption) (nLanes : F.lanes = none := by assumption) :
    Keeps F (portSettle p s) := by
  unfold portSettle
  with_reducible repeat' (first | assumption | apply keeps_modPort | apply keeps_hopBack | apply keeps_ite | split | (dsimp only; split))
theorem keeps_fixRole (m : Nat) (slave : Bool) {s : State} (hs : Keeps F s) (nLinks : F.links = none := by assumption)
    (nPorts : F.ports = none := by assumption) :
    Keeps F (fixRole m slave s) := by
  unfold fixRole
  with_reducible repeat' (first | assumption | apply keeps_modLink | apply keeps_modPort)
theorem keeps_writeEntry (m : Nat) {s : State} (hs : Keeps F s) (nTakes : F.takes = none := by assumption)
    (nPairs : F.pairs = none := by assumption) :
    KeepsR F (writeEntry m s) := by
  unfold writeEntry
  with_reducible repeat' (first | assumption | (intro _) | apply keeps_entryTake | apply keeps_placeTake | apply keeps_modPair | apply keeps_foldl
                                | apply keepsR_foldl | apply keepsR_ite | refine keepsR_eq (keeps_entryTake _ _ ?_) (by assumption)
                                | refine keepsR_eq (keeps_placeTake _ _ ?_) (by assumption) | split | (dsimp only; split) | apply keeps_snd
                                | apply keepsR_mk)
theorem keeps_cutEntry (l : Nat) {s : State} (hs : Keeps F s) (nPairs : F.pairs = none := by assumption) :
    Keeps F (cutEntry l s) := by
  unfold cutEntry
  with_reducible repeat' (first | assumption | apply keeps_modPair | apply keeps_entryCut | split | (dsimp only; split))
theorem keeps_startPairs (m : Nat) (sf : Word) {s : State} (hs : Keeps F s) (nPairs : F.pairs = none := by assumption) :
    Keeps F (startPairs m sf s) := by
  unfold startPairs
  with_reducible repeat' (first | assumption | (intro _) | apply keeps_sendSlate | apply keeps_modPair | apply keeps_cutEntry | apply keeps_each
                                | apply keeps_ite | split | (dsimp only; split))
theorem keeps_leftDown (l : Nat) {s : State} (hs : Keeps F s) : Keeps F (leftDown l s) := by
  unfold leftDown
  with_reducible repeat' (first | assumption | apply keeps_wrF)
theorem keeps_joinRoad (m : Nat) {s : State} (hs : Keeps F s) (nTakes : F.takes = none := by assumption)
    (nLinks : F.links = none := by assumption) (nPairs : F.pairs = none := by assumption) :
    Keeps F (joinRoad m s) := by
  unfold joinRoad
  with_reducible repeat' (first | assumption | apply keeps_modLink | apply keeps_startPairs | apply keeps_writeEntry | apply keeps_ite
                                | apply keepsR_ite | refine keepsR_eq (keeps_writeEntry _ ?_) (by assumption) | split | (dsimp only; split)
                                | apply keeps_snd)
theorem keeps_joinOthers (m : Nat) {s : State} (hs : Keeps F s) (nTakes : F.takes = none := by assumption)
    (nLinks : F.links = none := by assumption) (nPairs : F.pairs = none := by assumption) :
    Keeps F (joinOthers m s) := by
  unfold joinOthers
  with_reducible repeat' (first | assumption | (intro _) | apply keeps_joinRoad | apply keeps_each)
theorem keeps_enterListen (m : Nat) (suppress : Bool) {s : State} (hs : Keeps F s) (nTakes : F.takes = none := by assumption)
    (nLinks : F.links = none := by assumption) (nPairs : F.pairs = none := by assumption) (nPorts : F.ports = none := by assumption) :
    Keeps F (enterListen m suppress s) := by
  unfold enterListen
  with_reducible repeat' (first | assumption | (intro _) | apply keeps_leftDown | apply keeps_modPort | apply keeps_contLookup
                                | apply keeps_modLink | apply keeps_modPair | apply keeps_joinRoad | apply keeps_each | apply keeps_ite
                                | apply keepsR_ite | refine keepsR_eq (keeps_contLookup _ _ _ ?_) (by assumption) | split | (dsimp only; split)
                                | apply keeps_snd)
theorem keeps_enterDown (m : Nat) {s : State} (hs : Keeps F s) (nLinks : F.links = none := by assumption)
    (nPairs : F.pairs = none := by assumption) (nPorts : F.ports = none := by assumption) (nSyns : F.syns = none := by assumption)
    (nLanes : F.lanes = none := by assumption) :
    Keeps F (enterDown m s) := by
  unfold enterDown
  with_reducible repeat' (first | assumption | apply keeps_modLink | apply keeps_portSettle | apply keeps_linkSilent | apply keeps_completeAll)
theorem keeps_linkDownEvent (m reason cause : Nat) {s : State} (hs : Keeps F s) :
    Keeps F (linkDownEvent m reason cause s) := by
  unfold linkDownEvent
  with_reducible repeat' (first | assumption | apply keeps_raise)
theorem keeps_departStart (m reason cause : Nat) {s : State} (hs : Keeps F s) (nLinks : F.links = none := by assumption)
    (nPairs : F.pairs = none := by assumption) (nTiles : F.tiles = none := by assumption) (nRuns : F.runs = none := by assumption)
    (nCaptures : F.captures = none := by assumption) :
    Keeps F (departStart m reason cause s) := by
  unfold departStart
  with_reducible repeat' (first | assumption | apply keeps_activityOff | apply keeps_linkDownEvent | apply keeps_modLink | apply keeps_completeAll
                                | apply keeps_ite | split | (dsimp only; split))
theorem keeps_depart (m reason cause : Nat) {s : State} (hs : Keeps F s) (nLinks : F.links = none := by assumption)
    (nPairs : F.pairs = none := by assumption) (nPorts : F.ports = none := by assumption) (nTiles : F.tiles = none := by assumption)
    (nRuns : F.runs = none := by assumption) (nCaptures : F.captures = none := by assumption) (nSyns : F.syns = none := by assumption)
    (nLanes : F.lanes = none := by assumption) :
    Keeps F (depart m reason cause s) := by
  unfold depart
  with_reducible repeat' (first | assumption | apply keeps_departStart | apply keeps_modLink | apply keeps_portSettle | apply keeps_linkSilent
                                | apply keeps_raise | apply keeps_enterDown | apply keeps_ite | split | (dsimp only; split))
theorem keeps_set_contStale {s : State} {x0} (h : Keeps F s) : Keeps F { s with contStale := x0 } :=
  ⟨h.1, h.2, h.3, h.4, h.5, h.6, h.7, h.8⟩
theorem keeps_fastFail (m reason cause : Nat) {s : State} (hs : Keeps F s) (nLinks : F.links = none := by assumption)
    (nPairs : F.pairs = none := by assumption) (nTiles : F.tiles = none := by assumption) (nRuns : F.runs = none := by assumption)
    (nCaptures : F.captures = none := by assumption) :
    Keeps F (fastFail m reason cause s) := by
  unfold fastFail
  with_reducible repeat' (first | assumption | apply keeps_departStart | apply keeps_raise | apply keeps_modLink | apply keeps_set_contStale)
theorem keeps_trainFail (m cause : Nat) {s : State} (hs : Keeps F s) (nLinks : F.links = none := by assumption)
    (nPairs : F.pairs = none := by assumption) (nPorts : F.ports = none := by assumption) (nTiles : F.tiles = none := by assumption)
    (nRuns : F.runs = none := by assumption) (nCaptures : F.captures = none := by assumption) (nSyns : F.syns = none := by assumption)
    (nLanes : F.lanes = none := by assumption) :
    Keeps F (trainFail m cause s) := by
  unfold trainFail
  with_reducible repeat' (first | assumption | apply keeps_fastFail | apply keeps_depart | apply keeps_ite | split | (dsimp only; split))
theorem keeps_leaveByCommand (m : Nat) {s : State} (hs : Keeps F s) (nLinks : F.links = none := by assumption)
    (nPairs : F.pairs = none := by assumption) (nTiles : F.tiles = none := by assumption) (nRuns : F.runs = none := by assumption)
    (nCaptures : F.captures = none := by assumption) :
    Keeps F (leaveByCommand m s) := by
  unfold leaveByCommand
  with_reducible repeat' (first | assumption | apply keeps_departStart | apply keeps_contWriteDue | apply keeps_modLink)
theorem keeps_leavingEnd (m : Nat) {s : State} (hs : Keeps F s) (nTakes : F.takes = none := by assumption)
    (nLinks : F.links = none := by assumption) (nPairs : F.pairs = none := by assumption) (nPorts : F.ports = none := by assumption)
    (nSyns : F.syns = none := by assumption) (nLanes : F.lanes = none := by assumption) :
    Keeps F (leavingEnd m s) := by
  unfold leavingEnd
  with_reducible repeat' (first | assumption | apply keeps_portSettle | apply keeps_enterListen | apply keeps_linkSilent | apply keeps_enterDown
                                | apply keeps_ite | split | (dsimp only; split))
theorem keeps_enterTrain (m phase : Nat) {s : State} (hs : Keeps F s) (nLinks : F.links = none := by assumption)
    (nPairs : F.pairs = none := by assumption) :
    Keeps F (enterTrain m phase s) := by
  unfold enterTrain
  with_reducible repeat' (first | assumption | (intro _) | apply keeps_modLink | apply keeps_modPair | apply keeps_each)
theorem keeps_snrRestart (l : Nat) {s : State} (hs : Keeps F s) (nPairs : F.pairs = none := by assumption) :
    Keeps F (snrRestart l s) := by
  unfold snrRestart
  with_reducible repeat' (first | assumption | apply keeps_wr | apply keeps_wrF | apply keeps_modPair)
theorem keeps_enterUp (m : Nat) {s : State} (hs : Keeps F s) (nLinks : F.links = none := by assumption) (nPairs : F.pairs = none := by assumption)
    (nRuns : F.runs = none := by assumption) (nLanes : F.lanes = none := by assumption) :
    Keeps F (enterUp m s) := by
  unfold enterUp
  with_reducible repeat' (first | assumption | (intro _) | apply keeps_modLink | apply keeps_snrRestart | apply keeps_breakDue
                                | apply keeps_modPair | apply keeps_queueRun | apply keeps_completeAll | apply keeps_raise | apply keeps_each
                                | apply keeps_ite | split | (dsimp only; split))
theorem keeps_negotiateFail (m reason : Nat) {s : State} (hs : Keeps F s) (nLinks : F.links = none := by assumption)
    (nPairs : F.pairs = none := by assumption) (nPorts : F.ports = none := by assumption) (nTiles : F.tiles = none := by assumption)
    (nRuns : F.runs = none := by assumption) (nCaptures : F.captures = none := by assumption) (nSyns : F.syns = none := by assumption)
    (nLanes : F.lanes = none := by assumption) :
    Keeps F (negotiateFail m reason s) := by
  unfold negotiateFail
  with_reducible repeat' (first | assumption | apply keeps_depart)
theorem keeps_linksLoseBanks (ms : List Nat) {s : State} (hs : Keeps F s) (nLinks : F.links = none := by assumption)
    (nPairs : F.pairs = none := by assumption) (nPorts : F.ports = none := by assumption) (nTiles : F.tiles = none := by assumption)
    (nRuns : F.runs = none := by assumption) (nCaptures : F.captures = none := by assumption) (nSyns : F.syns = none := by assumption)
    (nLanes : F.lanes = none := by assumption) :
    Keeps F (linksLoseBanks ms s) := by
  unfold linksLoseBanks
  with_reducible repeat' (first | assumption | (intro _) | apply keeps_depart | apply keeps_each | apply keeps_ite | split | (dsimp only; split))
theorem keeps_portHeld (p : Nat) {s : State} (hs : Keeps F s) (nLinks : F.links = none := by assumption)
    (nPairs : F.pairs = none := by assumption) (nPorts : F.ports = none := by assumption) (nTiles : F.tiles = none := by assumption)
    (nRuns : F.runs = none := by assumption) (nCaptures : F.captures = none := by assumption) (nSyns : F.syns = none := by assumption)
    (nLanes : F.lanes = none := by assumption) :
    Keeps F (portHeld p s) := by
  unfold portHeld
  with_reducible repeat' (first | assumption | (intro _) | apply keeps_depart | apply keeps_each | apply keeps_ite | split | (dsimp only; split))

/-! ### Superframe -/

theorem keeps_s1Take (l m : Nat) {s : State} (hs : Keeps F s) :
    KeepsR F (s1Take l m s) := by
  unfold s1Take
  with_reducible repeat' (first | assumption | apply keeps_entryTake | apply keeps_drawBytes | apply keeps_boundedTake | apply keepsR_ite
                                | refine keepsR_eq (keeps_entryTake _ _ ?_) (by assumption)
                                | refine keepsR_eq (keeps_drawBytes _ _ ?_) (by assumption)
                                | refine keepsR_eq (keeps_boundedTake _ _ ?_) (by assumption) | split | (dsimp only; split) | apply keeps_snd
                                | apply keepsR_mk)
theorem keeps_trainCut (l m : Nat) {s : State} (hs : Keeps F s) (nPairs : F.pairs = none := by assumption)
    (nTiles : F.tiles = none := by assumption) :
    Keeps F (trainCut l m s) := by
  unfold trainCut
  with_reducible repeat' (first | assumption | apply keeps_setCut | apply keeps_coordCut | apply keeps_ite | split | (dsimp only; split))
theorem keeps_trainStart (l m : Nat) {s : State} (hs : Keeps F s) (nTakes : F.takes = none := by assumption)
    (nLinks : F.links = none := by assumption) (nPairs : F.pairs = none := by assumption) (nPorts : F.ports = none := by assumption)
    (nTiles : F.tiles = none := by assumption) (nRuns : F.runs = none := by assumption) (nCaptures : F.captures = none := by assumption)
    (nSyns : F.syns = none := by assumption) (nLanes : F.lanes = none := by assumption) :
    Keeps F (trainStart l m s) := by
  unfold trainStart
  with_reducible repeat' (first | assumption | apply keeps_modPair | apply keeps_s1Take | apply keeps_placeTake | apply keeps_trainCut
                                | apply keeps_trainFail | apply keeps_ite | apply keepsR_ite
                                | refine keepsR_eq (keeps_s1Take _ _ ?_) (by assumption)
                                | refine keepsR_eq (keeps_placeTake _ _ ?_) (by assumption) | split | (dsimp only; split) | apply keeps_snd)
theorem keeps_quietStart (l m : Nat) {s : State} (hs : Keeps F s) (nPairs : F.pairs = none := by assumption) :
    Keeps F (quietStart l m s) := by
  unfold quietStart
  with_reducible repeat' (first | assumption | apply keeps_modPair | apply keeps_count | apply keeps_ite | split | (dsimp only; split))
theorem keeps_bankAudit (l : Nat) (hit : Bool) {s : State} (hs : Keeps F s) (nPairs : F.pairs = none := by assumption) :
    Keeps F (bankAudit l hit s) := by
  unfold bankAudit
  with_reducible repeat' (first | assumption | apply keeps_modPair | apply keeps_count | apply keeps_raise | apply keeps_ite | split
                                | (dsimp only; split))
theorem keeps_fillRequest (l : Nat) {s : State} (hs : Keeps F s) (nPairs : F.pairs = none := by assumption)
    (nTiles : F.tiles = none := by assumption) :
    Keeps F (fillRequest l s) := by
  unfold fillRequest
  with_reducible repeat' (first | assumption | apply keeps_askFill | apply keeps_ite | split | (dsimp only; split))
theorem keeps_partnerTxStart (l m : Nat) {s : State} (hs : Keeps F s) (nPairs : F.pairs = none := by assumption)
    (nRuns : F.runs = none := by assumption) :
    Keeps F (partnerTxStart l m s) := by
  unfold partnerTxStart
  with_reducible repeat' (first | assumption | apply keeps_modPair | apply keeps_queueRun | apply keeps_ite | split | (dsimp only; split))
theorem keeps_superframeStart (l : Nat) (bad : BitVec 2) (lpi : Bool) {s : State} (hs : Keeps F s) (nTakes : F.takes = none := by assumption)
    (nLinks : F.links = none := by assumption) (nPairs : F.pairs = none := by assumption) (nPorts : F.ports = none := by assumption)
    (nTiles : F.tiles = none := by assumption) (nRuns : F.runs = none := by assumption) (nCaptures : F.captures = none := by assumption)
    (nSyns : F.syns = none := by assumption) (nLanes : F.lanes = none := by assumption) :
    Keeps F (superframeStart l bad lpi s) := by
  unfold superframeStart
  with_reducible repeat' (first | assumption | apply keeps_modPair | apply keeps_trainStart | apply keeps_cutDecide | apply keeps_partnerTxStart
                                | apply keeps_quietStart | apply keeps_sendSlate | apply keeps_modLink | apply keeps_bankAudit
                                | apply keeps_fillRequest | apply keeps_ite | split | (dsimp only; split))
theorem keeps_execSuperframeStart (l : Pair) (bad : BitVec 2) (lpi : Bool) {s : State} (hs : Keeps F s) (nTakes : F.takes = none := by assumption)
    (nLinks : F.links = none := by assumption) (nPairs : F.pairs = none := by assumption) (nPorts : F.ports = none := by assumption)
    (nTiles : F.tiles = none := by assumption) (nRuns : F.runs = none := by assumption) (nCaptures : F.captures = none := by assumption)
    (nSyns : F.syns = none := by assumption) (nLanes : F.lanes = none := by assumption) :
    KeepsO F (execSuperframeStart l bad lpi s) := by
  unfold execSuperframeStart
  apply keepsO_next
  with_reducible repeat' (first | assumption | apply keeps_superframeStart)
theorem keeps_exchangeRow (f : PairSt → PairSt) (l : Nat) {s : State} (hs : Keeps F s) (nPairs : F.pairs = none := by assumption) :
    Keeps F (exchangeRow f l s) := by
  unfold exchangeRow
  with_reducible repeat' (first | assumption | apply keeps_modPair | apply keeps_ite | split | (dsimp only; split))
theorem keeps_execTxBankExchange (l : Pair) {s : State} (hs : Keeps F s) (nPairs : F.pairs = none := by assumption) :
    KeepsO F (execTxBankExchange l s) := by
  unfold execTxBankExchange
  apply keepsO_next
  with_reducible repeat' (first | assumption | apply keeps_exchangeRow)
theorem keeps_execRxAnalogExchange (l : Pair) {s : State} (hs : Keeps F s) (nPairs : F.pairs = none := by assumption) :
    KeepsO F (execRxAnalogExchange l s) := by
  unfold execRxAnalogExchange
  apply keepsO_next
  with_reducible repeat' (first | assumption | apply keeps_exchangeRow)
theorem keeps_execRxDigitalExchange (l : Pair) {s : State} (hs : Keeps F s) (nPairs : F.pairs = none := by assumption) :
    KeepsO F (execRxDigitalExchange l s) := by
  unfold execRxDigitalExchange
  apply keepsO_next
  with_reducible repeat' (first | assumption | apply keeps_exchangeRow)
theorem keeps_periodBoundary (p : Nat) (bad badNext : BitVec 8) {s : State} (hs : Keeps F s) (nPairs : F.pairs = none := by assumption)
    (nPorts : F.ports = none := by assumption) (nTiles : F.tiles = none := by assumption) :
    Keeps F (periodBoundary p bad badNext s) := by
  unfold periodBoundary
  with_reducible repeat' (first | assumption | (intro _) | apply keeps_modPort | apply keeps_modPair | apply keeps_cutDecide
                                | apply keeps_bankAudit | apply keeps_fillRequest | apply keeps_each | apply keeps_ite | split
                                | (dsimp only; split))
theorem keeps_execCompatPeriodBoundary (p : Port) (bad badNext : BitVec 8) {s : State} (hs : Keeps F s) (nPairs : F.pairs = none := by assumption)
    (nPorts : F.ports = none := by assumption) (nTiles : F.tiles = none := by assumption) :
    KeepsO F (execCompatPeriodBoundary p bad badNext s) := by
  unfold execCompatPeriodBoundary
  apply keepsO_next
  with_reducible repeat' (first | assumption | apply keeps_periodBoundary)
theorem keeps_rowStart (l : Nat) (lpi : Bool) {s : State} (hs : Keeps F s) (nPairs : F.pairs = none := by assumption) :
    Keeps F (rowStart l lpi s) := by
  unfold rowStart
  with_reducible repeat' (first | assumption | apply keeps_modPair | apply keeps_draw | apply keeps_perfTally | apply keeps_ite | apply keepsR_ite
                                | refine keepsR_eq (keeps_draw _ ?_) (by assumption) | split | (dsimp only; split) | apply keeps_snd)
theorem keeps_execRowStart (l : Pair) (lpi : Bool) {s : State} (hs : Keeps F s) (nPairs : F.pairs = none := by assumption) :
    KeepsO F (execRowStart l lpi s) := by
  unfold execRowStart
  apply keepsO_next
  with_reducible repeat' (first | assumption | apply keeps_rowStart)
theorem keeps_txUnderrun (l : Nat) {s : State} (hs : Keeps F s) (nPairs : F.pairs = none := by assumption) :
    Keeps F (txUnderrun l s) := by
  unfold txUnderrun
  with_reducible repeat' (first | assumption | apply keeps_count | apply keeps_modPair | apply keeps_ite | split | (dsimp only; split))
theorem keeps_execTxUnderrun (l : Pair) {s : State} (hs : Keeps F s) (nPairs : F.pairs = none := by assumption) :
    KeepsO F (execTxUnderrun l s) := by
  unfold execTxUnderrun
  apply keepsO_next
  with_reducible repeat' (first | assumption | apply keeps_txUnderrun)
theorem keeps_gbxOverflow (l n : Nat) {s : State} (hs : Keeps F s) (nPairs : F.pairs = none := by assumption) :
    Keeps F (gbxOverflow l n s) := by
  unfold gbxOverflow
  with_reducible repeat' (first | assumption | apply keeps_modPair | apply keeps_raise | apply keeps_count | apply keeps_ite | split
                                | (dsimp only; split))
theorem keeps_execGbxOverflow (l : Pair) (n : BitVec 16) {s : State} (hs : Keeps F s) (nPairs : F.pairs = none := by assumption) :
    KeepsO F (execGbxOverflow l n s) := by
  unfold execGbxOverflow
  apply keepsO_next
  with_reducible repeat' (first | assumption | apply keeps_gbxOverflow)

end Sys2Proof.Machine
end

