-- ==== Sys2Proof/Laws/Keep2.lean ====
section
/-! SUPPORT. What every operation keeps: Receive, Acquire, Mux, Synth, Clocks, Grading. -/
namespace Sys2Proof.Machine
variable {F : Fixed}

/-! ### Receive -/

theorem keeps_sfLoss (l m : Nat) {s : State} (hs : Keeps F s) (nLinks : F.links = none := by assumption)
    (nPairs : F.pairs = none := by assumption) (nPorts : F.ports = none := by assumption) (nTiles : F.tiles = none := by assumption)
    (nRuns : F.runs = none := by assumption) (nCaptures : F.captures = none := by assumption) (nSyns : F.syns = none := by assumption)
    (nLanes : F.lanes = none := by assumption) :
    Keeps F (sfLoss l m s) := by
  unfold sfLoss
  with_reducible repeat' (first | assumption | apply keeps_modPair | apply keeps_depart | apply keeps_raise | apply keeps_ite | split
                                | (dsimp only; split))
theorem keeps_latchLevel (l src ms : Nat) (stamp : Word) {s : State} (hs : Keeps F s) :
    Keeps F (latchLevel l src ms stamp s) := by
  unfold latchLevel
  with_reducible repeat' (first | assumption | apply keeps_wr)
theorem keeps_sfGain (l m : Nat) (inv : Bool) {s : State} (hs : Keeps F s) (nPairs : F.pairs = none := by assumption) :
    Keeps F (sfGain l m inv s) := by
  unfold sfGain
  with_reducible repeat' (first | assumption | apply keeps_modPair | apply keeps_ite | split | (dsimp only; split))
theorem keeps_syncWord1 (l n : Nat) (spaced : Bool) (ms : Nat) {s : State} (hs : Keeps F s) (nLinks : F.links = none := by assumption)
    (nPairs : F.pairs = none := by assumption) (nPorts : F.ports = none := by assumption) (nTiles : F.tiles = none := by assumption)
    (nRuns : F.runs = none := by assumption) (nCaptures : F.captures = none := by assumption) (nSyns : F.syns = none := by assumption)
    (nLanes : F.lanes = none := by assumption) :
    Keeps F (syncWord1 l n spaced ms s) := by
  unfold syncWord1
  with_reducible repeat' (first | assumption | apply keeps_lineWake | apply keeps_latchLevel | apply keeps_modPair | apply keeps_sfLoss
                                | apply keeps_sfGain | apply keeps_ite | split | (dsimp only; split))
theorem keeps_execSyncWordReceived (l : Pair) (n : BitVec 7) (spaced : Bool) (ms : Word) {s : State} (hs : Keeps F s)
    (nLinks : F.links = none := by assumption) (nPairs : F.pairs = none := by assumption) (nPorts : F.ports = none := by assumption)
    (nTiles : F.tiles = none := by assumption) (nRuns : F.runs = none := by assumption) (nCaptures : F.captures = none := by assumption)
    (nSyns : F.syns = none := by assumption) (nLanes : F.lanes = none := by assumption) :
    KeepsO F (execSyncWordReceived l n spaced ms s) := by
  unfold execSyncWordReceived
  apply keepsO_next
  with_reducible repeat' (first | assumption | apply keeps_syncWord1)
theorem keeps_sfLockLoss (l : Nat) {s : State} (hs : Keeps F s) (nLinks : F.links = none := by assumption)
    (nPairs : F.pairs = none := by assumption) (nPorts : F.ports = none := by assumption) (nTiles : F.tiles = none := by assumption)
    (nRuns : F.runs = none := by assumption) (nCaptures : F.captures = none := by assumption) (nSyns : F.syns = none := by assumption)
    (nLanes : F.lanes = none := by assumption) :
    Keeps F (sfLockLoss l s) := by
  unfold sfLockLoss
  with_reducible repeat' (first | assumption | apply keeps_sfLoss | apply keeps_ite | split | (dsimp only; split))
theorem keeps_execSfLockLoss (l : Pair) {s : State} (hs : Keeps F s) (nLinks : F.links = none := by assumption)
    (nPairs : F.pairs = none := by assumption) (nPorts : F.ports = none := by assumption) (nTiles : F.tiles = none := by assumption)
    (nRuns : F.runs = none := by assumption) (nCaptures : F.captures = none := by assumption) (nSyns : F.syns = none := by assumption)
    (nLanes : F.lanes = none := by assumption) :
    KeepsO F (execSfLockLoss l s) := by
  unfold execSfLockLoss
  apply keepsO_next
  with_reducible repeat' (first | assumption | apply keeps_sfLockLoss)
theorem keeps_quietWake (l : Nat) {s : State} (hs : Keeps F s) (nPairs : F.pairs = none := by assumption)
    (nLanes : F.lanes = none := by assumption) :
    Keeps F (quietWake l s) := by
  unfold quietWake
  with_reducible repeat' (first | assumption | apply keeps_count | apply keeps_breakDue | apply keeps_modPair | apply keeps_ite | split
                                | (dsimp only; split))
theorem keeps_execQuietWake (l : Pair) {s : State} (hs : Keeps F s) (nPairs : F.pairs = none := by assumption)
    (nLanes : F.lanes = none := by assumption) :
    KeepsO F (execQuietWake l s) := by
  unfold execQuietWake
  apply keepsO_next
  with_reducible repeat' (first | assumption | apply keeps_quietWake | apply keeps_ite | split | (dsimp only; split))
theorem keeps_rxFlags (l : Nat) (a i u : Bool) {s : State} (hs : Keeps F s) (nPairs : F.pairs = none := by assumption)
    (nLanes : F.lanes = none := by assumption) :
    Keeps F (rxFlags l a i u s) := by
  unfold rxFlags
  with_reducible repeat' (first | assumption | apply keeps_modPair | apply keeps_breakDue | apply keeps_ite | split | (dsimp only; split))
theorem keeps_innerRow (l : Nat) {s : State} (hs : Keeps F s) : Keeps F (innerRow l s) := by
  unfold innerRow
  with_reducible repeat' (first | assumption | apply keeps_draw | apply keeps_countWide | refine keepsR_eq (keeps_draw _ ?_) (by assumption)
                                | split | (dsimp only; split) | apply keeps_snd)
theorem keeps_rowHeaderIn (l r : Nat) (h : BitVec 120) {s : State} (hs : Keeps F s) (nPairs : F.pairs = none := by assumption)
    (nLanes : F.lanes = none := by assumption) :
    Keeps F (rowHeaderIn l r h s) := by
  unfold rowHeaderIn
  with_reducible repeat' (first | assumption | apply keeps_countWide | apply keeps_innerRow | apply keeps_modPair | apply keeps_count
                                | apply keeps_perfTally | apply keeps_rxFlags | apply keeps_quietWake | apply keeps_ite | split
                                | (dsimp only; split) | apply keeps_snd)
theorem keeps_execRowHeaderReceived (l : Pair) (r : BitVec 14) (h : BitVec 120) {s : State} (hs : Keeps F s)
    (nPairs : F.pairs = none := by assumption) (nLanes : F.lanes = none := by assumption) :
    KeepsO F (execRowHeaderReceived l r h s) := by
  unfold execRowHeaderReceived
  apply keepsO_next
  with_reducible repeat' (first | assumption | apply keeps_rowHeaderIn)
theorem keeps_slateIn (ty l : Nat) (msg : BitVec 64) (act : Nat → State → State) {s : State} (hact : ∀ a0 a1, Keeps F a1 → Keeps F (act a0 a1))
    (hs : Keeps F s) :
    Keeps F (slateIn ty l msg act s) := by
  unfold slateIn
  with_reducible repeat' (first | assumption | apply hact | apply keeps_count | apply keeps_ite | split | (dsimp only; split))
theorem keeps_holdHere (m : Nat) {s : State} (hs : Keeps F s) (nLinks : F.links = none := by assumption) :
    Keeps F (holdHere m s) := by
  unfold holdHere
  with_reducible repeat' (first | assumption | apply keeps_modLink | apply keeps_completeAll)
theorem keeps_upCheck (m : Nat) {s : State} (hs : Keeps F s) (nLinks : F.links = none := by assumption) (nPairs : F.pairs = none := by assumption)
    (nRuns : F.runs = none := by assumption) (nLanes : F.lanes = none := by assumption) :
    Keeps F (upCheck m s) := by
  unfold upCheck
  with_reducible repeat' (first | assumption | apply keeps_holdHere | apply keeps_enterUp | apply keeps_ite | split | (dsimp only; split))
theorem keeps_countMismatch (l on : Nat) (sf : Word) {s : State} (hs : Keeps F s) :
    Keeps F (countMismatch l on sf s) := by
  unfold countMismatch
  with_reducible repeat' (first | assumption | apply keeps_raise)
theorem keeps_countCompare (l m : Nat) (n : Word) {s : State} (hs : Keeps F s) (nPairs : F.pairs = none := by assumption)
    (nTiles : F.tiles = none := by assumption) :
    Keeps F (countCompare l m n s) := by
  unfold countCompare
  with_reducible repeat' (first | assumption | (intro _) | apply keeps_modPair | apply keeps_countMismatch | apply keeps_cutAbort
                                | apply keeps_each | apply keeps_ite | split | (dsimp only; split))
theorem keeps_recover (l : Nat) (d : Diverge) {s : State} (hs : Keeps F s) (nPairs : F.pairs = none := by assumption)
    (nTiles : F.tiles = none := by assumption) :
    Keeps F (recover l d s) := by
  unfold recover
  with_reducible repeat' (first | assumption | apply keeps_askVerify | apply keeps_localCut | apply keeps_ite | split | (dsimp only; split))
theorem keeps_divergence (l m : Nat) (n : Word) (slot : Nat) {s : State} (hs : Keeps F s) (nPairs : F.pairs = none := by assumption)
    (nTiles : F.tiles = none := by assumption) :
    Keeps F (divergence l m n slot s) := by
  unfold divergence
  with_reducible repeat' (first | assumption | apply keeps_modPair | apply keeps_raise | apply keeps_recover | apply keeps_ite | split
                                | (dsimp only; split))
theorem keeps_timingCount (l m : Nat) (chain : Bool) {s : State} (hs : Keeps F s) (nLinks : F.links = none := by assumption)
    (nPorts : F.ports = none := by assumption) (nSyns : F.syns = none := by assumption) :
    Keeps F (timingCount l m chain s) := by
  unfold timingCount
  with_reducible repeat' (first | assumption | apply keeps_putLink | apply keeps_setTiming | apply keeps_ite | split | (dsimp only; split))
theorem keeps_adopt (l : Nat) (n : Word) (off : Nat) {s : State} (hs : Keeps F s) (nPairs : F.pairs = none := by assumption) :
    Keeps F (adopt l n off s) := by
  unfold adopt
  with_reducible repeat' (first | assumption | apply keeps_cutEntry | apply keeps_modPair | apply keeps_ite | split | (dsimp only; split))
theorem keeps_countActive (l m : Nat) (msg : BitVec 64) (off : Nat) {s : State} (hs : Keeps F s) (nLinks : F.links = none := by assumption)
    (nPairs : F.pairs = none := by assumption) (nPorts : F.ports = none := by assumption) (nTiles : F.tiles = none := by assumption)
    (nRuns : F.runs = none := by assumption) (nCaptures : F.captures = none := by assumption) (nSyns : F.syns = none := by assumption)
    (nLanes : F.lanes = none := by assumption) :
    Keeps F (countActive l m msg off s) := by
  unfold countActive
  with_reducible repeat' (first | assumption | apply keeps_depart | apply keeps_raise | apply keeps_modPair | apply keeps_fastFail
                                | apply keeps_countCompare | apply keeps_adopt | apply keeps_modLink | apply keeps_setTiming | apply keeps_upCheck
                                | apply keeps_divergence | apply keeps_timingCount | apply keeps_ite | split | (dsimp only; split))
theorem keeps_countIn (l : Nat) (msg : BitVec 64) (off : Nat) {s : State} (hs : Keeps F s) (nLinks : F.links = none := by assumption)
    (nPairs : F.pairs = none := by assumption) (nPorts : F.ports = none := by assumption) (nTiles : F.tiles = none := by assumption)
    (nRuns : F.runs = none := by assumption) (nCaptures : F.captures = none := by assumption) (nSyns : F.syns = none := by assumption)
    (nLanes : F.lanes = none := by assumption) :
    Keeps F (countIn l msg off s) := by
  unfold countIn
  with_reducible repeat' (first | assumption | (intro _) | apply keeps_slateIn | apply keeps_countActive | apply keeps_enterTrain
                                | apply keeps_modPair | apply keeps_ite | split | (dsimp only; split))
theorem keeps_execCountReceived (l : Pair) (msg : BitVec 64) (off : BitVec 7) {s : State} (hs : Keeps F s)
    (nLinks : F.links = none := by assumption) (nPairs : F.pairs = none := by assumption) (nPorts : F.ports = none := by assumption)
    (nTiles : F.tiles = none := by assumption) (nRuns : F.runs = none := by assumption) (nCaptures : F.captures = none := by assumption)
    (nSyns : F.syns = none := by assumption) (nLanes : F.lanes = none := by assumption) :
    KeepsO F (execCountReceived l msg off s) := by
  unfold execCountReceived
  apply keepsO_next
  with_reducible repeat' (first | assumption | apply keeps_countIn)
theorem keeps_unaccept (l : Nat) {s : State} (hs : Keeps F s) (nPairs : F.pairs = none := by assumption)
    (nTiles : F.tiles = none := by assumption) :
    Keeps F (unaccept l s) := by
  unfold unaccept
  with_reducible repeat' (first | assumption | apply keeps_modPair | apply keeps_dropFills | apply keeps_setCut | apply keeps_ite | split
                                | (dsimp only; split))
theorem keeps_noticeEval (l m : Nat) (sf : Word) (seq : Nat) (tx join : Bool) {s : State} (hs : Keeps F s)
    (nPairs : F.pairs = none := by assumption) (nTiles : F.tiles = none := by assumption) :
    Keeps F (noticeEval l m sf seq tx join s) := by
  unfold noticeEval
  with_reducible repeat' (first | assumption | apply keeps_unaccept | apply keeps_modPair | apply keeps_answer | apply keeps_setCut
                                | apply keeps_ite | split | (dsimp only; split))
theorem keeps_noticeActive (l m : Nat) (msg : BitVec 64) {s : State} (hs : Keeps F s) (nPairs : F.pairs = none := by assumption)
    (nTiles : F.tiles = none := by assumption) :
    Keeps F (noticeActive l m msg s) := by
  unfold noticeActive
  with_reducible repeat' (first | assumption | apply keeps_noticeEval | apply keeps_cutAbort | apply keeps_modPair | apply keeps_answer
                                | apply keeps_ite | split | (dsimp only; split))
theorem keeps_noticeIn (l : Nat) (msg : BitVec 64) {s : State} (hs : Keeps F s) (nPairs : F.pairs = none := by assumption)
    (nTiles : F.tiles = none := by assumption) :
    Keeps F (noticeIn l msg s) := by
  unfold noticeIn
  with_reducible repeat' (first | assumption | (intro _) | apply keeps_slateIn | apply keeps_noticeActive | apply keeps_ite | split
                                | (dsimp only; split))
theorem keeps_execCutNoticeReceived (l : Pair) (msg : BitVec 64) {s : State} (hs : Keeps F s) (nPairs : F.pairs = none := by assumption)
    (nTiles : F.tiles = none := by assumption) :
    KeepsO F (execCutNoticeReceived l msg s) := by
  unfold execCutNoticeReceived
  apply keepsO_next
  with_reducible repeat' (first | assumption | apply keeps_noticeIn)
theorem keeps_ackActive (l : Nat) (msg : BitVec 64) {s : State} (hs : Keeps F s) (nPairs : F.pairs = none := by assumption)
    (nTiles : F.tiles = none := by assumption) :
    Keeps F (ackActive l msg s) := by
  unfold ackActive
  with_reducible repeat' (first | assumption | apply keeps_modPair | apply keeps_cutMiss | apply keeps_ite | split | (dsimp only; split))
theorem keeps_ackIn (l : Nat) (msg : BitVec 64) {s : State} (hs : Keeps F s) (nPairs : F.pairs = none := by assumption)
    (nTiles : F.tiles = none := by assumption) :
    Keeps F (ackIn l msg s) := by
  unfold ackIn
  with_reducible repeat' (first | assumption | (intro _) | apply keeps_slateIn | apply keeps_ackActive | apply keeps_ite | split
                                | (dsimp only; split))
theorem keeps_execCutAckReceived (l : Pair) (msg : BitVec 64) {s : State} (hs : Keeps F s) (nPairs : F.pairs = none := by assumption)
    (nTiles : F.tiles = none := by assumption) :
    KeepsO F (execCutAckReceived l msg s) := by
  unfold execCutAckReceived
  apply keepsO_next
  with_reducible repeat' (first | assumption | apply keeps_ackIn)
theorem keeps_identityIn (l : Nat) (msg : BitVec 64) {s : State} (hs : Keeps F s) (nPairs : F.pairs = none := by assumption) :
    Keeps F (identityIn l msg s) := by
  unfold identityIn
  with_reducible repeat' (first | assumption | (intro _) | apply keeps_slateIn | apply keeps_modPair | apply keeps_ite | split
                                | (dsimp only; split))
theorem keeps_execIdentityReceived (l : Pair) (msg : BitVec 64) {s : State} (hs : Keeps F s) (nPairs : F.pairs = none := by assumption) :
    KeepsO F (execIdentityReceived l msg s) := by
  unfold execIdentityReceived
  apply keepsO_next
  with_reducible repeat' (first | assumption | apply keeps_identityIn)
theorem keeps_quietRequest (l m : Nat) (sf : Word) (r : Nat) {s : State} (hs : Keeps F s) (nPairs : F.pairs = none := by assumption) :
    Keeps F (quietRequest l m sf r s) := by
  unfold quietRequest
  with_reducible repeat' (first | assumption | apply keeps_modPair | apply keeps_ite | split | (dsimp only; split) | apply keeps_snd)
theorem keeps_quietActive (l m : Nat) (msg : BitVec 64) {s : State} (hs : Keeps F s) (nPairs : F.pairs = none := by assumption) :
    Keeps F (quietActive l m msg s) := by
  unfold quietActive
  with_reducible repeat' (first | assumption | apply keeps_quietRequest | apply keeps_modPair | apply keeps_ite | split | (dsimp only; split))
theorem keeps_quietIn (l : Nat) (msg : BitVec 64) {s : State} (hs : Keeps F s) (nPairs : F.pairs = none := by assumption) :
    Keeps F (quietIn l msg s) := by
  unfold quietIn
  with_reducible repeat' (first | assumption | (intro _) | apply keeps_slateIn | apply keeps_quietActive | apply keeps_ite | split
                                | (dsimp only; split))
theorem keeps_execQuietMessageReceived (l : Pair) (msg : BitVec 64) {s : State} (hs : Keeps F s) (nPairs : F.pairs = none := by assumption) :
    KeepsO F (execQuietMessageReceived l msg s) := by
  unfold execQuietMessageReceived
  apply keepsO_next
  with_reducible repeat' (first | assumption | apply keeps_quietIn)
theorem keeps_snrEvents (l m cur : Nat) {s : State} (hs : Keeps F s) (nPairs : F.pairs = none := by assumption) :
    Keeps F (snrEvents l m cur s) := by
  unfold snrEvents
  with_reducible repeat' (first | assumption | apply keeps_modPair | apply keeps_raise | apply keeps_ite | split | (dsimp only; split))
theorem keeps_snrTake (l m e : Nat) {s : State} (hs : Keeps F s) (nPairs : F.pairs = none := by assumption) :
    Keeps F (snrTake l m e s) := by
  unfold snrTake
  with_reducible repeat' (first | assumption | apply keeps_modPair | apply keeps_wr | apply keeps_snrEvents)
theorem keeps_snrMeasure (l e : Nat) (held : Bool) {s : State} (hs : Keeps F s) (nPairs : F.pairs = none := by assumption) :
    Keeps F (snrMeasure l e held s) := by
  unfold snrMeasure
  with_reducible repeat' (first | assumption | apply keeps_snrTake | apply keeps_ite | split | (dsimp only; split))
theorem keeps_execSnrMeasurement (l : Pair) (e : BitVec 48) (held : Bool) {s : State} (hs : Keeps F s) (nPairs : F.pairs = none := by assumption) :
    KeepsO F (execSnrMeasurement l e held s) := by
  unfold execSnrMeasurement
  apply keepsO_next
  with_reducible repeat' (first | assumption | apply keeps_snrMeasure)
theorem keeps_interpHit (l : Nat) (high : Bool) (n : Nat) (first : Bool) {s : State} (hs : Keeps F s) (nPairs : F.pairs = none := by assumption) :
    Keeps F (interpHit l high n first s) := by
  unfold interpHit
  with_reducible repeat' (first | assumption | apply keeps_count | apply keeps_modPair | apply keeps_raise | apply keeps_ite | split
                                | (dsimp only; split))
theorem keeps_execInterpLimit (l : Pair) (high : Bool) (n : Word) (first : Bool) {s : State} (hs : Keeps F s)
    (nPairs : F.pairs = none := by assumption) :
    KeepsO F (execInterpLimit l high n first s) := by
  unfold execInterpLimit
  apply keepsO_next
  with_reducible repeat' (first | assumption | apply keeps_interpHit)

/-! ### Acquire -/

theorem keeps_pageIn (l : Nat) (page : Page) (ms : Nat) {s : State} (hs : Keeps F s) (nLinks : F.links = none := by assumption)
    (nPairs : F.pairs = none := by assumption) :
    Keeps F (pageIn l page ms s) := by
  unfold pageIn
  with_reducible repeat' (first | assumption | apply keeps_lineWake | apply keeps_modPair | apply keeps_latchLevel | apply keeps_modLink
                                | apply keeps_ite | split | (dsimp only; split))
theorem keeps_execClause73Page (l : Pair) (page : Page) (ms : Word) {s : State} (hs : Keeps F s) (nLinks : F.links = none := by assumption)
    (nPairs : F.pairs = none := by assumption) :
    KeepsO F (execClause73Page l page ms s) := by
  unfold execClause73Page
  apply keepsO_next
  with_reducible repeat' (first | assumption | apply keeps_pageIn)
theorem keeps_fdxStart (m phase : Nat) (slave : Bool) (off : Int) {s : State} (hs : Keeps F s) (nTakes : F.takes = none := by assumption)
    (nLinks : F.links = none := by assumption) (nPairs : F.pairs = none := by assumption) (nPorts : F.ports = none := by assumption)
    (nSyns : F.syns = none := by assumption) :
    Keeps F (fdxStart m phase slave off s) := by
  unfold fdxStart
  with_reducible repeat' (first | assumption | apply keeps_joinOthers | apply keeps_enterTrain | apply keeps_fixRole | apply keeps_modPort
                                | apply keeps_modSyn | apply keeps_ite | split | (dsimp only; split))
theorem keeps_roleConflict (m found : Nat) {s : State} (hs : Keeps F s) (nLinks : F.links = none := by assumption)
    (nPairs : F.pairs = none := by assumption) (nPorts : F.ports = none := by assumption) (nTiles : F.tiles = none := by assumption)
    (nRuns : F.runs = none := by assumption) (nCaptures : F.captures = none := by assumption) (nSyns : F.syns = none := by assumption)
    (nLanes : F.lanes = none := by assumption) :
    Keeps F (roleConflict m found s) := by
  unfold roleConflict
  with_reducible repeat' (first | assumption | apply keeps_depart | apply keeps_raise)
theorem keeps_entryPhase (m : Nat) {s : State} (hs : Keeps F s) (nTakes : F.takes = none := by assumption)
    (nLinks : F.links = none := by assumption) (nPairs : F.pairs = none := by assumption) (nPorts : F.ports = none := by assumption)
    (nTiles : F.tiles = none := by assumption) (nRuns : F.runs = none := by assumption) (nCaptures : F.captures = none := by assumption)
    (nSyns : F.syns = none := by assumption) (nLanes : F.lanes = none := by assumption) :
    Keeps F (entryPhase m s) := by
  unfold entryPhase
  with_reducible repeat' (first | assumption | apply keeps_writeEntry | apply keeps_trainFail | apply keeps_ite | apply keepsR_ite
                                | refine keepsR_eq (keeps_writeEntry _ ?_) (by assumption) | split | (dsimp only; split) | apply keeps_snd)
theorem keeps_compatStart (m road n : Nat) {s : State} (hs : Keeps F s) (nLinks : F.links = none := by assumption)
    (nPairs : F.pairs = none := by assumption) (nPorts : F.ports = none := by assumption) (nTiles : F.tiles = none := by assumption)
    (nRuns : F.runs = none := by assumption) (nCaptures : F.captures = none := by assumption) (nSyns : F.syns = none := by assumption)
    (nLanes : F.lanes = none := by assumption) :
    Keeps F (compatStart m road n s) := by
  unfold compatStart
  with_reducible repeat' (first | assumption | (intro _) | apply keeps_negotiateFail | apply keeps_modLink | apply keeps_enterTrain
                                | apply keeps_synHop | apply keeps_modSyn | apply keeps_queueRun | apply keeps_each | apply keeps_ite | split
                                | (dsimp only; split))
theorem keeps_resolution (m : Nat) (off : Int) {s : State} (hs : Keeps F s) (nTakes : F.takes = none := by assumption)
    (nLinks : F.links = none := by assumption) (nPairs : F.pairs = none := by assumption) (nPorts : F.ports = none := by assumption)
    (nTiles : F.tiles = none := by assumption) (nRuns : F.runs = none := by assumption) (nCaptures : F.captures = none := by assumption)
    (nSyns : F.syns = none := by assumption) (nLanes : F.lanes = none := by assumption) :
    Keeps F (resolution m off s) := by
  unfold resolution
  with_reducible repeat' (first | assumption | apply keeps_negotiateFail | apply keeps_raise | apply keeps_roleConflict | apply keeps_modLink
                                | apply keeps_entryPhase | apply keeps_fdxStart | apply keeps_compatStart | apply keeps_ite | split
                                | (dsimp only; split))
theorem keeps_execNegotiationResolution (m : Pair) (off : Word) {s : State} (hs : Keeps F s) (nTakes : F.takes = none := by assumption)
    (nLinks : F.links = none := by assumption) (nPairs : F.pairs = none := by assumption) (nPorts : F.ports = none := by assumption)
    (nTiles : F.tiles = none := by assumption) (nRuns : F.runs = none := by assumption) (nCaptures : F.captures = none := by assumption)
    (nSyns : F.syns = none := by assumption) (nLanes : F.lanes = none := by assumption) :
    KeepsO F (execNegotiationResolution m off s) := by
  unfold execNegotiationResolution
  apply keepsO_next
  with_reducible repeat' (first | assumption | apply keeps_resolution)
theorem keeps_beaconIn (l : Nat) (b : BitVec 128) (ms : Nat) {s : State} (hs : Keeps F s) (nLinks : F.links = none := by assumption)
    (nPairs : F.pairs = none := by assumption) :
    Keeps F (beaconIn l b ms s) := by
  unfold beaconIn
  with_reducible repeat' (first | assumption | apply keeps_lineWake | apply keeps_modPair | apply keeps_latchLevel | apply keeps_modLink
                                | apply keeps_ite | split | (dsimp only; split))
theorem keeps_execBeaconDetect (l : Pair) (b : BitVec 128) (ms : Word) {s : State} (hs : Keeps F s) (nLinks : F.links = none := by assumption)
    (nPairs : F.pairs = none := by assumption) :
    KeepsO F (execBeaconDetect l b ms s) := by
  unfold execBeaconDetect
  apply keepsO_next
  with_reducible repeat' (first | assumption | apply keeps_beaconIn)
theorem keeps_beaconWindow (m : Nat) {s : State} (hs : Keeps F s) (nLinks : F.links = none := by assumption) :
    Keeps F (beaconWindow m s) := by
  unfold beaconWindow
  with_reducible repeat' (first | assumption | apply keeps_modLink | apply keeps_ite | split | (dsimp only; split))
theorem keeps_execBeaconWindowExpiry (m : Pair) {s : State} (hs : Keeps F s) (nLinks : F.links = none := by assumption) :
    KeepsO F (execBeaconWindowExpiry m s) := by
  unfold execBeaconWindowExpiry
  apply keepsO_next
  with_reducible repeat' (first | assumption | apply keeps_beaconWindow)
theorem keeps_expandPair (l m i : Nat) (x : Bool × State) (hx : KeepsR F x) (nTakes : F.takes = none := by assumption)
    (nPairs : F.pairs = none := by assumption) (nTiles : F.tiles = none := by assumption) :
    KeepsR F (expandPair l m i x) := by
  unfold expandPair
  with_reducible repeat' (first | assumption | apply keeps_count | apply keeps_askVerify | apply keeps_modPair | apply keeps_takeWords
                                | apply keeps_writeTake | apply keepsR_ite | exact keepsR_dest (by assumption) | split | (dsimp only; split)
                                | apply keeps_snd | apply keepsR_mk)
theorem keeps_fastExpand (m : Nat) {s : State} (hs : Keeps F s) (nTakes : F.takes = none := by assumption)
    (nRecs : F.recs = none := by assumption) (nLinks : F.links = none := by assumption) (nPairs : F.pairs = none := by assumption)
    (nPorts : F.ports = none := by assumption) (nTiles : F.tiles = none := by assumption) (nRuns : F.runs = none := by assumption)
    (nCaptures : F.captures = none := by assumption) (nSyns : F.syns = none := by assumption) (nLanes : F.lanes = none := by assumption) :
    Keeps F (fastExpand m s) := by
  unfold fastExpand
  have h := keeps_contLookup m (linkOf s m).serial (linkOf s m).port hs
  dsimp only
  split
  · exact keeps_trainFail _ _ (keeps_snd h)
  · rename_i i hi
    have h2 : KeepsR F ((activePairs (contLookup m (linkOf s m).serial (linkOf s m).port s).2 m).foldl (fun y l => expandPair l m i y)
        (true, contHit i (contLookup m (linkOf s m).serial (linkOf s m).port s).2)) :=
      keepsR_foldl (fun b s l hs => keeps_expandPair _ _ _ _ hs) (keeps_contHit _ (keeps_snd h))
    exact keeps_ite h2 (keeps_trainFail _ _ h2)
theorem keeps_fastEntry (m : Nat) (off : Int) {s : State} (hs : Keeps F s) (nTakes : F.takes = none := by assumption)
    (nRecs : F.recs = none := by assumption) (nLinks : F.links = none := by assumption) (nPairs : F.pairs = none := by assumption)
    (nPorts : F.ports = none := by assumption) (nTiles : F.tiles = none := by assumption) (nRuns : F.runs = none := by assumption)
    (nCaptures : F.captures = none := by assumption) (nSyns : F.syns = none := by assumption) (nLanes : F.lanes = none := by assumption) :
    Keeps F (fastEntry m off s) := by
  unfold fastEntry
  with_reducible repeat' (first | assumption | apply keeps_roleConflict | apply keeps_modLink | apply keeps_fdxStart | apply keeps_fastExpand
                                | apply keeps_ite | split | (dsimp only; split))
theorem keeps_execFastRoadEntry (m : Pair) (off : Word) {s : State} (hs : Keeps F s) (nTakes : F.takes = none := by assumption)
    (nRecs : F.recs = none := by assumption) (nLinks : F.links = none := by assumption) (nPairs : F.pairs = none := by assumption)
    (nPorts : F.ports = none := by assumption) (nTiles : F.tiles = none := by assumption) (nRuns : F.runs = none := by assumption)
    (nCaptures : F.captures = none := by assumption) (nSyns : F.syns = none := by assumption) (nLanes : F.lanes = none := by assumption) :
    KeepsO F (execFastRoadEntry m off s) := by
  unfold execFastRoadEntry
  apply keepsO_next
  with_reducible repeat' (first | assumption | apply keeps_fastEntry)
theorem keeps_parallelDetect (m : Nat) (fired : BitVec 8) {s : State} (hs : Keeps F s) (nLinks : F.links = none := by assumption)
    (nPairs : F.pairs = none := by assumption) (nPorts : F.ports = none := by assumption) (nTiles : F.tiles = none := by assumption)
    (nRuns : F.runs = none := by assumption) (nCaptures : F.captures = none := by assumption) (nSyns : F.syns = none := by assumption)
    (nLanes : F.lanes = none := by assumption) :
    Keeps F (parallelDetect m fired s) := by
  unfold parallelDetect
  with_reducible repeat' (first | assumption | (intro _) | apply keeps_modPair | apply keeps_modLink | apply keeps_compatStart | apply keeps_each
                                | apply keeps_ite | split | (dsimp only; split))
theorem keeps_execCompatParallelDetect (m : Pair) (fired : BitVec 8) {s : State} (hs : Keeps F s) (nLinks : F.links = none := by assumption)
    (nPairs : F.pairs = none := by assumption) (nPorts : F.ports = none := by assumption) (nTiles : F.tiles = none := by assumption)
    (nRuns : F.runs = none := by assumption) (nCaptures : F.captures = none := by assumption) (nSyns : F.syns = none := by assumption)
    (nLanes : F.lanes = none := by assumption) :
    KeepsO F (execCompatParallelDetect m fired s) := by
  unfold execCompatParallelDetect
  apply keepsO_next
  with_reducible repeat' (first | assumption | apply keeps_parallelDetect)
theorem keeps_releaseDetector (m : Nat) {s : State} (hs : Keeps F s) (nLinks : F.links = none := by assumption)
    (nPairs : F.pairs = none := by assumption) (nPorts : F.ports = none := by assumption) (nTiles : F.tiles = none := by assumption)
    (nRuns : F.runs = none := by assumption) (nCaptures : F.captures = none := by assumption) (nSyns : F.syns = none := by assumption)
    (nLanes : F.lanes = none := by assumption) :
    Keeps F (releaseDetector m s) := by
  unfold releaseDetector
  with_reducible repeat' (first | assumption | apply keeps_modLink | apply keeps_compatStart | apply keeps_ite | split | (dsimp only; split))
theorem keeps_activationEnds {s : State} (hs : Keeps F s) (nLinks : F.links = none := by assumption) (nPairs : F.pairs = none := by assumption)
    (nPorts : F.ports = none := by assumption) (nTiles : F.tiles = none := by assumption) (nRuns : F.runs = none := by assumption)
    (nCaptures : F.captures = none := by assumption) (nSyns : F.syns = none := by assumption) (nLanes : F.lanes = none := by assumption) :
    Keeps F (activationEnds s) := by
  unfold activationEnds
  with_reducible repeat' (first | assumption | (intro _) | apply keeps_releaseDetector | apply keeps_wrB | apply keeps_each)
theorem keeps_masterZero (m : Nat) {s : State} (hs : Keeps F s) (nPairs : F.pairs = none := by assumption) :
    Keeps F (masterZero m s) := by
  unfold masterZero
  with_reducible repeat' (first | assumption | apply keeps_startPairs | apply keeps_ite | split | (dsimp only; split))
theorem keeps_execMasterSuperframeZero (m : Pair) {s : State} (hs : Keeps F s) (nPairs : F.pairs = none := by assumption) :
    KeepsO F (execMasterSuperframeZero m s) := by
  unfold execMasterSuperframeZero
  apply keepsO_next
  with_reducible repeat' (first | assumption | apply keeps_masterZero)
theorem keeps_joinLock (m : Nat) {s : State} (hs : Keeps F s) (nTakes : F.takes = none := by assumption)
    (nLinks : F.links = none := by assumption) (nPairs : F.pairs = none := by assumption) (nPorts : F.ports = none := by assumption)
    (nTiles : F.tiles = none := by assumption) (nRuns : F.runs = none := by assumption) (nCaptures : F.captures = none := by assumption)
    (nSyns : F.syns = none := by assumption) (nLanes : F.lanes = none := by assumption) :
    Keeps F (joinLock m s) := by
  unfold joinLock
  with_reducible repeat' (first | assumption | (intro _) | apply keeps_modPair | apply keeps_entryPhase | apply keeps_enterTrain
                                | apply keeps_each | apply keeps_ite | split | (dsimp only; split))
theorem keeps_execJoinRoadLock (m : Pair) {s : State} (hs : Keeps F s) (nTakes : F.takes = none := by assumption)
    (nLinks : F.links = none := by assumption) (nPairs : F.pairs = none := by assumption) (nPorts : F.ports = none := by assumption)
    (nTiles : F.tiles = none := by assumption) (nRuns : F.runs = none := by assumption) (nCaptures : F.captures = none := by assumption)
    (nSyns : F.syns = none := by assumption) (nLanes : F.lanes = none := by assumption) :
    KeepsO F (execJoinRoadLock m s) := by
  unfold execJoinRoadLock
  apply keepsO_next
  with_reducible repeat' (first | assumption | apply keeps_joinLock)
theorem keeps_timingDecision (m : Nat) {s : State} (hs : Keeps F s) (nLinks : F.links = none := by assumption)
    (nPorts : F.ports = none := by assumption) (nSyns : F.syns = none := by assumption) :
    Keeps F (timingDecision m s) := by
  unfold timingDecision
  with_reducible repeat' (first | assumption | apply keeps_setTiming | apply keeps_ite | split | (dsimp only; split))
theorem keeps_execTimingDecision (m : Pair) {s : State} (hs : Keeps F s) (nLinks : F.links = none := by assumption)
    (nPorts : F.ports = none := by assumption) (nSyns : F.syns = none := by assumption) :
    KeepsO F (execTimingDecision m s) := by
  unfold execTimingDecision
  apply keepsO_next
  with_reducible repeat' (first | assumption | apply keeps_timingDecision)
theorem keeps_setPhase (m n : Nat) (sf : Word) {s : State} (hs : Keeps F s) (nLinks : F.links = none := by assumption) :
    Keeps F (setPhase m n sf s) := by
  unfold setPhase
  with_reducible repeat' (first | assumption | apply keeps_modLink)
theorem keeps_phaseFresh (m : Nat) {s : State} (hs : Keeps F s) (nPairs : F.pairs = none := by assumption) :
    Keeps F (phaseFresh m s) := by
  unfold phaseFresh
  with_reducible repeat' (first | assumption | (intro _) | apply keeps_modPair | apply keeps_each)
theorem keeps_windowStart (l : Nat) {s : State} (hs : Keeps F s) (nPairs : F.pairs = none := by assumption) :
    Keeps F (windowStart l s) := by
  unfold windowStart
  with_reducible repeat' (first | assumption | apply keeps_modPair)
theorem keeps_windows (m : Nat) {s : State} (hs : Keeps F s) (nPairs : F.pairs = none := by assumption) :
    Keeps F (windows m s) := by
  unfold windows
  with_reducible repeat' (first | assumption | (intro _) | apply keeps_windowStart | apply keeps_each)
theorem keeps_phaseNext (m : Nat) {s : State} (hs : Keeps F s) (nLinks : F.links = none := by assumption)
    (nPairs : F.pairs = none := by assumption) (nRuns : F.runs = none := by assumption) (nLanes : F.lanes = none := by assumption) :
    Keeps F (phaseNext m s) := by
  unfold phaseNext
  with_reducible repeat' (first | assumption | (intro _) | apply keeps_setPhase | apply keeps_phaseFresh | apply keeps_queueRun
                                | apply keeps_modPair | apply keeps_windows | apply keeps_modLink | apply keeps_enterUp | apply keeps_each
                                | apply keeps_ite | split | (dsimp only; split))
theorem keeps_phaseEnd (m : Nat) {s : State} (hs : Keeps F s) (nLinks : F.links = none := by assumption)
    (nPairs : F.pairs = none := by assumption) (nRuns : F.runs = none := by assumption) (nLanes : F.lanes = none := by assumption) :
    Keeps F (phaseEnd m s) := by
  unfold phaseEnd
  with_reducible repeat' (first | assumption | apply keeps_holdHere | apply keeps_phaseNext | apply keeps_ite | split | (dsimp only; split))
theorem keeps_execTrainingPhaseEnd (m : Pair) {s : State} (hs : Keeps F s) (nLinks : F.links = none := by assumption)
    (nPairs : F.pairs = none := by assumption) (nRuns : F.runs = none := by assumption) (nLanes : F.lanes = none := by assumption) :
    KeepsO F (execTrainingPhaseEnd m s) := by
  unfold execTrainingPhaseEnd
  apply keepsO_next
  with_reducible repeat' (first | assumption | apply keeps_phaseEnd)
theorem keeps_phaseLimit (m : Nat) {s : State} (hs : Keeps F s) (nLinks : F.links = none := by assumption)
    (nPairs : F.pairs = none := by assumption) (nPorts : F.ports = none := by assumption) (nTiles : F.tiles = none := by assumption)
    (nRuns : F.runs = none := by assumption) (nCaptures : F.captures = none := by assumption) (nSyns : F.syns = none := by assumption)
    (nLanes : F.lanes = none := by assumption) :
    Keeps F (phaseLimit m s) := by
  unfold phaseLimit
  with_reducible repeat' (first | assumption | apply keeps_trainFail | apply keeps_ite | split | (dsimp only; split))
theorem keeps_execTrainingPhaseLimit (m : Pair) {s : State} (hs : Keeps F s) (nLinks : F.links = none := by assumption)
    (nPairs : F.pairs = none := by assumption) (nPorts : F.ports = none := by assumption) (nTiles : F.tiles = none := by assumption)
    (nRuns : F.runs = none := by assumption) (nCaptures : F.captures = none := by assumption) (nSyns : F.syns = none := by assumption)
    (nLanes : F.lanes = none := by assumption) :
    KeepsO F (execTrainingPhaseLimit m s) := by
  unfold execTrainingPhaseLimit
  apply keepsO_next
  with_reducible repeat' (first | assumption | apply keeps_phaseLimit)
theorem keeps_qualWindow (l e : Nat) {s : State} (hs : Keeps F s) (nLinks : F.links = none := by assumption)
    (nPairs : F.pairs = none := by assumption) (nRuns : F.runs = none := by assumption) (nLanes : F.lanes = none := by assumption) :
    Keeps F (qualWindow l e s) := by
  unfold qualWindow
  with_reducible repeat' (first | assumption | apply keeps_windowStart | apply keeps_upCheck | apply keeps_modPair | apply keeps_ite | split
                                | (dsimp only; split))
theorem keeps_execQualificationWindow (l : Pair) (e : BitVec 48) {s : State} (hs : Keeps F s) (nLinks : F.links = none := by assumption)
    (nPairs : F.pairs = none := by assumption) (nRuns : F.runs = none := by assumption) (nLanes : F.lanes = none := by assumption) :
    KeepsO F (execQualificationWindow l e s) := by
  unfold execQualificationWindow
  apply keepsO_next
  with_reducible repeat' (first | assumption | apply keeps_qualWindow)
theorem keeps_requestTake (l m : Nat) (tx : List Byte) {s : State} (hs : Keeps F s) :
    KeepsR F (requestTake l m tx s) := by
  unfold requestTake
  with_reducible repeat' (first | assumption | apply keeps_ownHeader | apply keeps_boundedTake | apply keepsR_ite
                                | refine keepsR_eq (keeps_ownHeader _ _ _ _ ?_) (by assumption)
                                | refine keepsR_eq (keeps_boundedTake _ _ ?_) (by assumption) | split | (dsimp only; split) | apply keeps_snd
                                | apply keepsR_mk)
theorem keeps_trainRequest (l : Nat) (tx : BitVec 128) {s : State} (hs : Keeps F s) (nTakes : F.takes = none := by assumption)
    (nPairs : F.pairs = none := by assumption) :
    Keeps F (trainRequest l tx s) := by
  unfold trainRequest
  with_reducible repeat' (first | assumption | apply keeps_requestTake | apply keeps_count | apply keeps_takeWords | apply keeps_writeTake
                                | apply keeps_entryCut | apply keeps_setSlot | apply keeps_emit | apply keeps_ite | apply keepsR_ite
                                | refine keepsR_eq (keeps_requestTake _ _ _ ?_) (by assumption) | split | (dsimp only; split) | apply keeps_snd)
theorem keeps_execCompatTrainingRequest (l : Pair) (tx : BitVec 128) {s : State} (hs : Keeps F s) (nTakes : F.takes = none := by assumption)
    (nPairs : F.pairs = none := by assumption) :
    KeepsO F (execCompatTrainingRequest l tx s) := by
  unfold execCompatTrainingRequest
  apply keepsO_next
  with_reducible repeat' (first | assumption | apply keeps_trainRequest)
theorem keeps_trainComplete (m : Nat) {s : State} (hs : Keeps F s) (nLinks : F.links = none := by assumption)
    (nPairs : F.pairs = none := by assumption) (nPorts : F.ports = none := by assumption) (nRuns : F.runs = none := by assumption)
    (nLanes : F.lanes = none := by assumption) :
    Keeps F (trainComplete m s) := by
  unfold trainComplete
  with_reducible repeat' (first | assumption | (intro _) | apply keeps_modPair | apply keeps_modPort | apply keeps_enterUp | apply keeps_each
                                | apply keeps_ite | split | (dsimp only; split))
theorem keeps_execCompatTrainingComplete (m : Pair) {s : State} (hs : Keeps F s) (nLinks : F.links = none := by assumption)
    (nPairs : F.pairs = none := by assumption) (nPorts : F.ports = none := by assumption) (nRuns : F.runs = none := by assumption)
    (nLanes : F.lanes = none := by assumption) :
    KeepsO F (execCompatTrainingComplete m s) := by
  unfold execCompatTrainingComplete
  apply keepsO_next
  with_reducible repeat' (first | assumption | apply keeps_trainComplete)
theorem keeps_trainTimeout (m : Nat) {s : State} (hs : Keeps F s) (nLinks : F.links = none := by assumption)
    (nPairs : F.pairs = none := by assumption) (nPorts : F.ports = none := by assumption) (nTiles : F.tiles = none := by assumption)
    (nRuns : F.runs = none := by assumption) (nCaptures : F.captures = none := by assumption) (nSyns : F.syns = none := by assumption)
    (nLanes : F.lanes = none := by assumption) :
    Keeps F (trainTimeout m s) := by
  unfold trainTimeout
  with_reducible repeat' (first | assumption | apply keeps_trainFail | apply keeps_ite | split | (dsimp only; split))
theorem keeps_execCompatTrainingTimeout (m : Pair) {s : State} (hs : Keeps F s) (nLinks : F.links = none := by assumption)
    (nPairs : F.pairs = none := by assumption) (nPorts : F.ports = none := by assumption) (nTiles : F.tiles = none := by assumption)
    (nRuns : F.runs = none := by assumption) (nCaptures : F.captures = none := by assumption) (nSyns : F.syns = none := by assumption)
    (nLanes : F.lanes = none := by assumption) :
    KeepsO F (execCompatTrainingTimeout m s) := by
  unfold execCompatTrainingTimeout
  apply keepsO_next
  with_reducible repeat' (first | assumption | apply keeps_trainTimeout)
theorem keeps_signalLost (l : Nat) {s : State} (hs : Keeps F s) (nLinks : F.links = none := by assumption)
    (nPairs : F.pairs = none := by assumption) (nPorts : F.ports = none := by assumption) (nTiles : F.tiles = none := by assumption)
    (nRuns : F.runs = none := by assumption) (nCaptures : F.captures = none := by assumption) (nSyns : F.syns = none := by assumption)
    (nLanes : F.lanes = none := by assumption) :
    Keeps F (signalLost l s) := by
  unfold signalLost
  with_reducible repeat' (first | assumption | apply keeps_depart | apply keeps_ite | split | (dsimp only; split))
theorem keeps_execCompatSignalLost (l : Pair) {s : State} (hs : Keeps F s) (nLinks : F.links = none := by assumption)
    (nPairs : F.pairs = none := by assumption) (nPorts : F.ports = none := by assumption) (nTiles : F.tiles = none := by assumption)
    (nRuns : F.runs = none := by assumption) (nCaptures : F.captures = none := by assumption) (nSyns : F.syns = none := by assumption)
    (nLanes : F.lanes = none := by assumption) :
    KeepsO F (execCompatSignalLost l s) := by
  unfold execCompatSignalLost
  apply keepsO_next
  with_reducible repeat' (first | assumption | apply keeps_signalLost)
theorem keeps_leaveDone (m : Nat) {s : State} (hs : Keeps F s) (nTakes : F.takes = none := by assumption)
    (nLinks : F.links = none := by assumption) (nPairs : F.pairs = none := by assumption) (nPorts : F.ports = none := by assumption)
    (nSyns : F.syns = none := by assumption) (nLanes : F.lanes = none := by assumption) :
    Keeps F (leaveDone m s) := by
  unfold leaveDone
  with_reducible repeat' (first | assumption | apply keeps_leavingEnd | apply keeps_ite | split | (dsimp only; split))
theorem keeps_execLeavingEnd (m : Pair) {s : State} (hs : Keeps F s) (nTakes : F.takes = none := by assumption)
    (nLinks : F.links = none := by assumption) (nPairs : F.pairs = none := by assumption) (nPorts : F.ports = none := by assumption)
    (nSyns : F.syns = none := by assumption) (nLanes : F.lanes = none := by assumption) :
    KeepsO F (execLeavingEnd m s) := by
  unfold execLeavingEnd
  apply keepsO_next
  with_reducible repeat' (first | assumption | apply keeps_leaveDone)
theorem keeps_holdoffEnd (m : Nat) {s : State} (hs : Keeps F s) (nTakes : F.takes = none := by assumption)
    (nLinks : F.links = none := by assumption) (nPairs : F.pairs = none := by assumption) (nPorts : F.ports = none := by assumption) :
    Keeps F (holdoffEnd m s) := by
  unfold holdoffEnd
  with_reducible repeat' (first | assumption | apply keeps_enterListen | apply keeps_modLink | apply keeps_timerWake | apply keeps_ite | split
                                | (dsimp only; split))
theorem keeps_execHoldoffExpiry (m : Pair) {s : State} (hs : Keeps F s) (nTakes : F.takes = none := by assumption)
    (nLinks : F.links = none := by assumption) (nPairs : F.pairs = none := by assumption) (nPorts : F.ports = none := by assumption) :
    KeepsO F (execHoldoffExpiry m s) := by
  unfold execHoldoffExpiry
  apply keepsO_next
  with_reducible repeat' (first | assumption | apply keeps_holdoffEnd)

/-! ### Mux -/

theorem keeps_muxSet (mux inst v : Nat) {s : State} (hs : Keeps F s) (nPairs : F.pairs = none := by assumption) :
    Keeps F (muxSet mux inst v s) := by
  unfold muxSet
  with_reducible repeat' (first | assumption | apply keeps_wrF | apply keeps_wrB | apply keeps_modPair | apply keeps_ite | split
                                | (dsimp only; split))
theorem keeps_set_muxes {s : State} {x0} (h : Keeps F s) : Keeps F { s with muxes := x0 } :=
  ⟨h.1, h.2, h.3, h.4, h.5, h.6, h.7, h.8⟩
theorem keeps_muxSwitch (mux inst old new : Nat) {s : State} (hs : Keeps F s) (nPairs : F.pairs = none := by assumption) :
    Keeps F (muxSwitch mux inst old new s) := by
  unfold muxSwitch
  with_reducible repeat' (first | assumption | apply keeps_muxSet | apply keeps_ite | split | (dsimp only; split) | apply keeps_set_muxes
                                | apply keeps_set_muxes_muxFrozen)
theorem keeps_muxForced (mux inst cause : Nat) {s : State} (hs : Keeps F s) :
    Keeps F (muxForced mux inst cause s) := by
  unfold muxForced
  with_reducible repeat' (first | assumption | apply keeps_raise | apply keeps_count | split | (dsimp only; split))
theorem keeps_set_muxFrozen {s : State} {x0} (h : Keeps F s) : Keeps F { s with muxFrozen := x0 } :=
  ⟨h.1, h.2, h.3, h.4, h.5, h.6, h.7, h.8⟩
theorem keeps_muxThaw (mux inst : Nat) {s : State} (hs : Keeps F s) :
    Keeps F (muxThaw mux inst s) := by
  unfold muxThaw
  with_reducible repeat' (first | assumption | apply keeps_setFrozen | apply keeps_ite | split | (dsimp only; split) | apply keeps_set_muxFrozen)
theorem keeps_muxEnd (m : MuxSwitch) (now : Nat) {s : State} (hs : Keeps F s) (nPairs : F.pairs = none := by assumption) :
    Keeps F (muxEnd m now s) := by
  unfold muxEnd
  with_reducible repeat' (first | assumption | apply keeps_muxSwitch | apply keeps_ite | split | (dsimp only; split) | apply keeps_set_muxes)
theorem keeps_muxForce (mux inst : Nat) {s : State} (hs : Keeps F s) (nPairs : F.pairs = none := by assumption) :
    Keeps F (muxForce mux inst s) := by
  unfold muxForce
  with_reducible repeat' (first | assumption | apply keeps_muxEnd | apply keeps_muxThaw | apply keeps_muxForced | split | (dsimp only; split))
theorem keeps_execMuxWatchdogForce (mux : Fin 6) (inst : Pair) {s : State} (hs : Keeps F s) (nPairs : F.pairs = none := by assumption) :
    KeepsO F (execMuxWatchdogForce mux inst s) := by
  unfold execMuxWatchdogForce
  apply keepsO_next
  with_reducible repeat' (first | assumption | apply keeps_muxForce)
theorem keeps_muxNewDead (mux inst : Nat) (oldAlive : Bool) {s : State} (hs : Keeps F s) (nPairs : F.pairs = none := by assumption) :
    Keeps F (muxNewDead mux inst oldAlive s) := by
  unfold muxNewDead
  with_reducible repeat' (first | assumption | apply keeps_muxForced | apply keeps_muxThaw | apply keeps_muxSet | apply keeps_setFrozen
                                | apply keeps_muxEnd | apply keeps_ite | split | (dsimp only; split) | apply keeps_set_muxFrozen)
theorem keeps_execMuxNewDead (mux : Fin 6) (inst : Pair) (oldAlive : Bool) {s : State} (hs : Keeps F s) (nPairs : F.pairs = none := by assumption) :
    KeepsO F (execMuxNewDead mux inst oldAlive s) := by
  unfold execMuxNewDead
  apply keepsO_next
  with_reducible repeat' (first | assumption | apply keeps_muxNewDead)
theorem keeps_muxDone (mux inst : Nat) {s : State} (hs : Keeps F s) (nPairs : F.pairs = none := by assumption) :
    Keeps F (muxDone mux inst s) := by
  unfold muxDone
  with_reducible repeat' (first | assumption | apply keeps_muxEnd | apply keeps_muxThaw | split | (dsimp only; split))
theorem keeps_execMuxSwitchDone (mux : Fin 6) (inst : Pair) {s : State} (hs : Keeps F s) (nPairs : F.pairs = none := by assumption) :
    KeepsO F (execMuxSwitchDone mux inst s) := by
  unfold execMuxSwitchDone
  apply keepsO_next
  with_reducible repeat' (first | assumption | apply keeps_muxDone)
theorem keeps_lineMux (l : Nat) {s : State} (hs : Keeps F s) (nPairs : F.pairs = none := by assumption) :
    Keeps F (lineMux l s) := by
  unfold lineMux
  with_reducible repeat' (first | assumption | apply keeps_muxSwitch | apply keeps_ite | split | (dsimp only; split))
theorem keeps_lineMuxes (p : Nat) {s : State} (hs : Keeps F s) (nPairs : F.pairs = none := by assumption) :
    Keeps F (lineMuxes p s) := by
  unfold lineMuxes
  with_reducible repeat' (first | assumption | (intro _) | apply keeps_lineMux | apply keeps_each)

/-! ### Synth -/

theorem keeps_synthLoss (i : Nat) {s : State} (hs : Keeps F s) (nLinks : F.links = none := by assumption)
    (nPairs : F.pairs = none := by assumption) (nPorts : F.ports = none := by assumption) (nTiles : F.tiles = none := by assumption)
    (nRuns : F.runs = none := by assumption) (nCaptures : F.captures = none := by assumption) (nSyns : F.syns = none := by assumption)
    (nLanes : F.lanes = none := by assumption) :
    Keeps F (synthLoss i s) := by
  unfold synthLoss
  with_reducible repeat' (first | assumption | apply keeps_synHold | apply keeps_portHeld | apply keeps_ite | split | (dsimp only; split))
theorem keeps_execSynthLossOfLock (i : Pll) {s : State} (hs : Keeps F s) (nLinks : F.links = none := by assumption)
    (nPairs : F.pairs = none := by assumption) (nPorts : F.ports = none := by assumption) (nTiles : F.tiles = none := by assumption)
    (nRuns : F.runs = none := by assumption) (nCaptures : F.captures = none := by assumption) (nSyns : F.syns = none := by assumption)
    (nLanes : F.lanes = none := by assumption) :
    KeepsO F (execSynthLossOfLock i s) := by
  unfold execSynthLossOfLock
  apply keepsO_next
  with_reducible repeat' (first | assumption | apply keeps_synthLoss)
theorem keeps_marginIn (i m : Nat) {s : State} (hs : Keeps F s) (nSyns : F.syns = none := by assumption) :
    Keeps F (marginIn i m s) := by
  unfold marginIn
  with_reducible repeat' (first | assumption | apply keeps_synMargin | apply keeps_wrF | apply keeps_ite | split | (dsimp only; split))
theorem keeps_execSynthMarginLow (i : Pll) (m : Byte) {s : State} (hs : Keeps F s) (nSyns : F.syns = none := by assumption) :
    KeepsO F (execSynthMarginLow i m s) := by
  unfold execSynthMarginLow
  apply keepsO_next
  with_reducible repeat' (first | assumption | apply keeps_marginIn)
theorem keeps_synthHopEnd (i band other : Nat) (fresh : Bool) {s : State} (hs : Keeps F s) (nPairs : F.pairs = none := by assumption)
    (nSyns : F.syns = none := by assumption) (nLanes : F.lanes = none := by assumption) :
    Keeps F (synthHopEnd i band other fresh s) := by
  unfold synthHopEnd
  with_reducible repeat' (first | assumption | apply keeps_synHopDone | apply keeps_lineMuxes | apply keeps_hopBack | apply keeps_ite | split
                                | (dsimp only; split))
theorem keeps_execSynthHopDone (i : Pll) (band other : BitVec 6) (fresh : Bool) {s : State} (hs : Keeps F s)
    (nPairs : F.pairs = none := by assumption) (nSyns : F.syns = none := by assumption) (nLanes : F.lanes = none := by assumption) :
    KeepsO F (execSynthHopDone i band other fresh s) := by
  unfold execSynthHopDone
  apply keepsO_next
  with_reducible repeat' (first | assumption | apply keeps_synthHopEnd)
theorem keeps_steerBy (p : Nat) (d : Int) {s : State} (hs : Keeps F s) (nSyns : F.syns = none := by assumption) :
    Keeps F (steerBy p d s) := by
  unfold steerBy
  with_reducible repeat' (first | assumption | apply keeps_clampStep | apply keeps_smallStep | apply keepsR_ite
                                | refine keepsR_eq (keeps_clampStep _ _ ?_) (by assumption) | split | (dsimp only; split) | apply keeps_snd)
theorem keeps_setOffset (p : Nat) (off : Rat) {s : State} (hs : Keeps F s) :
    Keeps F (setOffset p off s) := by
  unfold setOffset
  with_reducible repeat' (first | assumption | apply keeps_wr)
theorem keeps_offsetTiming (p : Nat) (im : Rat) {s : State} (hs : Keeps F s) (nLinks : F.links = none := by assumption)
    (nPorts : F.ports = none := by assumption) (nSyns : F.syns = none := by assumption) :
    Keeps F (offsetTiming p im s) := by
  unfold offsetTiming
  with_reducible repeat' (first | assumption | (intro _) | apply keeps_setTiming | apply keeps_modLink | apply keeps_each | apply keeps_ite
                                | split | (dsimp only; split))
theorem keeps_rotatePair (p l : Nat) {s : State} (hs : Keeps F s) (nPairs : F.pairs = none := by assumption) :
    Keeps F (rotatePair p l s) := by
  unfold rotatePair
  with_reducible repeat' (first | assumption | apply keeps_loopRun | apply keeps_modPair | split | (dsimp only; split))
theorem keeps_rotatePairs (p : Nat) {s : State} (hs : Keeps F s) (nPairs : F.pairs = none := by assumption) :
    Keeps F (rotatePairs p s) := by
  unfold rotatePairs
  with_reducible repeat' (first | assumption | (intro _) | apply keeps_rotatePair | apply keeps_each)
theorem keeps_periodMeans (p : Nat) {s : State} (hs : Keeps F s) (nPairs : F.pairs = none := by assumption) :
    KeepsR F (periodMeans p s) := by
  unfold periodMeans
  with_reducible repeat' (first | assumption | apply keeps_loopRun | apply keepsR_ite | split | (dsimp only; split) | apply keepsR_mk)
theorem keeps_periodBegin (p : Nat) {s : State} (hs : Keeps F s) (nPairs : F.pairs = none := by assumption)
    (nSyns : F.syns = none := by assumption) :
    Keeps F (periodBegin p s) := by
  unfold periodBegin
  with_reducible repeat' (first | assumption | apply keeps_modSyn | apply keeps_modPair | split | (dsimp only; split))
theorem keeps_steeringPeriod (p : Nat) (q : Nat) {s : State} (hs : Keeps F s) (nLinks : F.links = none := by assumption)
    (nPairs : F.pairs = none := by assumption) (nPorts : F.ports = none := by assumption) (nSyns : F.syns = none := by assumption) :
    Keeps F (steeringPeriod p q s) := by
  unfold steeringPeriod
  with_reducible repeat' (first | assumption | apply keeps_rotatePairs | apply keeps_periodMeans | apply keeps_periodBegin | apply keeps_steerBy
                                | apply keeps_offsetTiming | apply keeps_setOffset | apply keeps_ite | apply keepsR_ite
                                | refine keepsR_eq (keeps_periodMeans _ ?_) (by assumption) | split | (dsimp only; split) | apply keeps_snd)
theorem keeps_execSteeringPeriod (p : Port) (q : BitVec 15) {s : State} (hs : Keeps F s) (nLinks : F.links = none := by assumption)
    (nPairs : F.pairs = none := by assumption) (nPorts : F.ports = none := by assumption) (nSyns : F.syns = none := by assumption) :
    KeepsO F (execSteeringPeriod p q s) := by
  unfold execSteeringPeriod
  apply keepsO_next
  with_reducible repeat' (first | assumption | apply keeps_steeringPeriod)
theorem keeps_rackStep (i : Nat) (d : Int) {s : State} (hs : Keeps F s) :
    Keeps F (rackStep i d s) := by
  unfold rackStep
  with_reducible repeat' (first | assumption | apply keeps_wr)
theorem keeps_smallStepDone (i : Nat) {s : State} (hs : Keeps F s) (nSyns : F.syns = none := by assumption) :
    Keeps F (smallStepDone i s) := by
  unfold smallStepDone
  with_reducible repeat' (first | assumption | apply keeps_modSyn | apply keeps_complete | apply keeps_smallStep | apply keeps_rackStep
                                | apply keeps_ite | split | (dsimp only; split))
theorem keeps_execSmallStepApplied (i : Pll) {s : State} (hs : Keeps F s) (nSyns : F.syns = none := by assumption) :
    KeepsO F (execSmallStepApplied i s) := by
  unfold execSmallStepApplied
  apply keepsO_next
  with_reducible repeat' (first | assumption | apply keeps_smallStepDone)
theorem keeps_steerRamp (p : Nat) {s : State} (hs : Keeps F s) (nPorts : F.ports = none := by assumption) (nSyns : F.syns = none := by assumption) :
    Keeps F (steerRamp p s) := by
  unfold steerRamp
  with_reducible repeat' (first | assumption | apply keeps_smallStep | apply keeps_modPort | apply keeps_ite | split | (dsimp only; split))
theorem keeps_execSteerRamp (p : Port) {s : State} (hs : Keeps F s) (nPorts : F.ports = none := by assumption)
    (nSyns : F.syns = none := by assumption) :
    KeepsO F (execSteerRamp p s) := by
  unfold execSteerRamp
  apply keepsO_next
  with_reducible repeat' (first | assumption | apply keeps_steerRamp)
theorem keeps_remeasured (p : Nat) {s : State} (hs : Keeps F s) (nSyns : F.syns = none := by assumption) :
    Keeps F (remeasured p s) := by
  unfold remeasured
  with_reducible repeat' (first | assumption | apply keeps_draw | apply keeps_modSyn | apply keeps_ite | apply keepsR_ite
                                | refine keepsR_eq (keeps_draw _ ?_) (by assumption) | split | (dsimp only; split) | apply keeps_snd)
theorem keeps_acquireRamp (p : Nat) {s : State} (hs : Keeps F s) (nSyns : F.syns = none := by assumption) :
    Keeps F (acquireRamp p s) := by
  unfold acquireRamp
  with_reducible repeat' (first | assumption | apply keeps_remeasured | apply keeps_smallStep | apply keeps_modSyn | apply keeps_ite | split
                                | (dsimp only; split))
theorem keeps_execAcquireRamp (p : Port) {s : State} (hs : Keeps F s) (nSyns : F.syns = none := by assumption) :
    KeepsO F (execAcquireRamp p s) := by
  unfold execAcquireRamp
  apply keepsO_next
  with_reducible repeat' (first | assumption | apply keeps_acquireRamp)

/-! ### Clocks -/

theorem keeps_setMon (src detector : Nat) (dev : Word) {s : State} (hs : Keeps F s) :
    Keeps F (setMon src detector dev s) := by
  unfold setMon
  with_reducible repeat' (first | assumption | apply keeps_wrB | apply keeps_raise | apply keeps_ite | split | (dsimp only; split))
theorem keeps_failoverEvent (elem cause input : Nat) (dev : Word) (unit : BitVec 16) {s : State} (hs : Keeps F s) :
    Keeps F (failoverEvent elem cause input dev unit s) := by
  unfold failoverEvent
  with_reducible repeat' (first | assumption | apply keeps_raise)
theorem keeps_failoverMark {s : State} (hs : Keeps F s) :
    Keeps F (failoverMark s) := by
  unfold failoverMark
  with_reducible repeat' (first | assumption | apply keeps_orViews)
theorem keeps_refSwitch (new cause : Nat) (step : BitVec 16) (diff : Word) {s : State} (hs : Keeps F s) (nPorts : F.ports = none := by assumption) :
    Keeps F (refSwitch new cause step diff s) := by
  unfold refSwitch
  with_reducible repeat' (first | assumption | (intro _) | apply keeps_wrB | apply keeps_wrF | apply keeps_modPort | apply keeps_raise
                                | apply keeps_each)
theorem keeps_refFailed (cause : Nat) (step : BitVec 16) (diff : Word) {s : State} (hs : Keeps F s) (nPorts : F.ports = none := by assumption) :
    Keeps F (refFailed cause step diff s) := by
  unfold refFailed
  with_reducible repeat' (first | assumption | apply keeps_refSwitch | apply keeps_raise | apply keeps_ite | split | (dsimp only; split))
theorem keeps_refSlewEnd {s : State} (hs : Keeps F s) :
    Keeps F (refSlewEnd s) := by
  unfold refSlewEnd
  with_reducible repeat' (first | assumption | apply keeps_wrB | apply keeps_ite | split | (dsimp only; split))
theorem keeps_execRefSlewEnd {s : State} (hs : Keeps F s) :
    KeepsO F (execRefSlewEnd s) := by
  unfold execRefSlewEnd
  apply keepsO_next
  with_reducible repeat' (first | assumption | apply keeps_refSlewEnd)
theorem keeps_storeRootWord (src : Nat) {s : State} (hs : Keeps F s) :
    Keeps F (storeRootWord src s) := by
  unfold storeRootWord
  with_reducible repeat' (first | assumption | apply keeps_wr | split | (dsimp only; split))
theorem keeps_set_rootWord {s : State} {x0} (h : Keeps F s) : Keeps F { s with rootWord := x0 } :=
  ⟨h.1, h.2, h.3, h.4, h.5, h.6, h.7, h.8⟩
theorem keeps_rootFailover (cause : Nat) (dev : Word) {s : State} (hs : Keeps F s) (nPairs : F.pairs = none := by assumption) :
    Keeps F (rootFailover cause dev s) := by
  unfold rootFailover
  with_reducible repeat' (first | assumption | apply keeps_failoverEvent | apply keeps_failoverMark | apply keeps_wrB | apply keeps_muxSwitch
                                | apply keeps_ite | split | (dsimp only; split) | apply keeps_set_rootWord)
theorem keeps_set_rootPending {s : State} {x0} (h : Keeps F s) : Keeps F { s with rootPending := x0 } :=
  ⟨h.1, h.2, h.3, h.4, h.5, h.6, h.7, h.8⟩
theorem keeps_rootSelect (src : Nat) {s : State} (hs : Keeps F s) (nPairs : F.pairs = none := by assumption) :
    Keeps F (rootSelect src s) := by
  unfold rootSelect
  with_reducible repeat' (first | assumption | apply keeps_muxSwitch | apply keeps_wrB | apply keeps_wrF | apply keeps_ite | split
                                | (dsimp only; split) | apply keeps_set_rootPending | apply keeps_set_rootWord)
theorem keeps_tileRootFailover (t cause : Nat) (dev : Word) {s : State} (hs : Keeps F s) (nLinks : F.links = none := by assumption)
    (nPairs : F.pairs = none := by assumption) (nPorts : F.ports = none := by assumption) (nTiles : F.tiles = none := by assumption)
    (nRuns : F.runs = none := by assumption) (nCaptures : F.captures = none := by assumption) (nSyns : F.syns = none := by assumption)
    (nLanes : F.lanes = none := by assumption) :
    Keeps F (tileRootFailover t cause dev s) := by
  unfold tileRootFailover
  with_reducible repeat' (first | assumption | (intro _) | apply keeps_failoverEvent | apply keeps_failoverMark | apply keeps_muxSwitch
                                | apply keeps_synthLoss | apply keeps_each | apply keeps_ite | split | (dsimp only; split))
theorem keeps_set_badCores {s : State} {x0} (h : Keeps F s) : Keeps F { s with badCores := x0 } :=
  ⟨h.1, h.2, h.3, h.4, h.5, h.6, h.7, h.8⟩
theorem keeps_coreFailover (dev : Word) {s : State} (hs : Keeps F s) (nPairs : F.pairs = none := by assumption) :
    Keeps F (coreFailover dev s) := by
  unfold coreFailover
  with_reducible repeat' (first | assumption | apply keeps_failoverEvent | apply keeps_failoverMark | apply keeps_muxSwitch | apply keeps_ite
                                | split | (dsimp only; split) | apply keeps_set_badCores)
theorem keeps_sourceFailed (src detector : Nat) (dev : Word) (step : BitVec 16) (diff : Word) {s : State} (hs : Keeps F s)
    (nLinks : F.links = none := by assumption) (nPairs : F.pairs = none := by assumption) (nPorts : F.ports = none := by assumption)
    (nTiles : F.tiles = none := by assumption) (nRuns : F.runs = none := by assumption) (nCaptures : F.captures = none := by assumption)
    (nSyns : F.syns = none := by assumption) (nLanes : F.lanes = none := by assumption) :
    Keeps F (sourceFailed src detector dev step diff s) := by
  unfold sourceFailed
  with_reducible repeat' (first | assumption | apply keeps_refFailed | apply keeps_rootFailover | apply keeps_tileRootFailover
                                | apply keeps_coreFailover | apply keeps_ite | split | (dsimp only; split) | apply keeps_set_badCores)
theorem keeps_monFires (src detector : Nat) (dev : Word) (step : BitVec 16) (diff : Word) {s : State} (hs : Keeps F s)
    (nLinks : F.links = none := by assumption) (nPairs : F.pairs = none := by assumption) (nPorts : F.ports = none := by assumption)
    (nTiles : F.tiles = none := by assumption) (nRuns : F.runs = none := by assumption) (nCaptures : F.captures = none := by assumption)
    (nSyns : F.syns = none := by assumption) (nLanes : F.lanes = none := by assumption) :
    Keeps F (monFires src detector dev step diff s) := by
  unfold monFires
  with_reducible repeat' (first | assumption | apply keeps_sourceFailed | apply keeps_setMon | apply keeps_ite | split | (dsimp only; split))
theorem keeps_execRefNoEdges (src : BitVec 4) (dev : Word) (step : BitVec 16) (diff : Word) {s : State} (hs : Keeps F s)
    (nLinks : F.links = none := by assumption) (nPairs : F.pairs = none := by assumption) (nPorts : F.ports = none := by assumption)
    (nTiles : F.tiles = none := by assumption) (nRuns : F.runs = none := by assumption) (nCaptures : F.captures = none := by assumption)
    (nSyns : F.syns = none := by assumption) (nLanes : F.lanes = none := by assumption) :
    KeepsO F (execRefNoEdges src dev step diff s) := by
  unfold execRefNoEdges
  apply keepsO_next
  with_reducible repeat' (first | assumption | apply keeps_monFires)
theorem keeps_execRefFrequencyFault (src : BitVec 4) (dev : Word) (step : BitVec 16) (diff : Word) {s : State} (hs : Keeps F s)
    (nLinks : F.links = none := by assumption) (nPairs : F.pairs = none := by assumption) (nPorts : F.ports = none := by assumption)
    (nTiles : F.tiles = none := by assumption) (nRuns : F.runs = none := by assumption) (nCaptures : F.captures = none := by assumption)
    (nSyns : F.syns = none := by assumption) (nLanes : F.lanes = none := by assumption) :
    KeepsO F (execRefFrequencyFault src dev step diff s) := by
  unfold execRefFrequencyFault
  apply keepsO_next
  with_reducible repeat' (first | assumption | apply keeps_monFires)
theorem keeps_monPass (src : Nat) (dev : Word) {s : State} (hs : Keeps F s) :
    Keeps F (monPass src dev s) := by
  unfold monPass
  with_reducible repeat' (first | assumption | apply keeps_setMon | apply keeps_ite | split | (dsimp only; split))
theorem keeps_execMonitorPass (src : BitVec 4) (dev : Word) {s : State} (hs : Keeps F s) :
    KeepsO F (execMonitorPass src dev s) := by
  unfold execMonitorPass
  apply keepsO_next
  with_reducible repeat' (first | assumption | apply keeps_monPass)
theorem keeps_timeCorrection (d : Int) {s : State} (hs : Keeps F s) (nTime : F.time = none := by assumption) :
    Keeps F (timeCorrection d s) := by
  unfold timeCorrection
  with_reducible repeat' (first | assumption | apply keeps_setTime | apply keeps_ite | split | (dsimp only; split))
theorem keeps_execDeviceTimeCorrection (d : BitVec 16) {s : State} (hs : Keeps F s) (nTime : F.time = none := by assumption) :
    KeepsO F (execDeviceTimeCorrection d s) := by
  unfold execDeviceTimeCorrection
  apply keepsO_next
  with_reducible repeat' (first | assumption | apply keeps_timeCorrection)
theorem keeps_tileRootReturn (t : Nat) {s : State} (hs : Keeps F s) (nPairs : F.pairs = none := by assumption) :
    Keeps F (tileRootReturn t s) := by
  unfold tileRootReturn
  with_reducible repeat' (first | assumption | apply keeps_failoverEvent | apply keeps_muxSwitch | apply keeps_ite | split | (dsimp only; split))
theorem keeps_execTileRootReturn (t : Tile) {s : State} (hs : Keeps F s) (nPairs : F.pairs = none := by assumption) :
    KeepsO F (execTileRootReturn t s) := by
  unfold execTileRootReturn
  apply keepsO_next
  with_reducible repeat' (first | assumption | apply keeps_tileRootReturn)
theorem keeps_aonFailover (dev : Word) {s : State} (hs : Keeps F s) (nLinks : F.links = none := by assumption)
    (nPairs : F.pairs = none := by assumption) (nPorts : F.ports = none := by assumption) (nTiles : F.tiles = none := by assumption)
    (nRuns : F.runs = none := by assumption) (nCaptures : F.captures = none := by assumption) (nSyns : F.syns = none := by assumption)
    (nLanes : F.lanes = none := by assumption) :
    Keeps F (aonFailover dev s) := by
  unfold aonFailover
  with_reducible repeat' (first | assumption | apply keeps_sourceFailed | apply keeps_setMon | apply keeps_coreFailover | apply keeps_ite | split
                                | (dsimp only; split))
theorem keeps_execAonCoreFailover (dev : Word) {s : State} (hs : Keeps F s) (nLinks : F.links = none := by assumption)
    (nPairs : F.pairs = none := by assumption) (nPorts : F.ports = none := by assumption) (nTiles : F.tiles = none := by assumption)
    (nRuns : F.runs = none := by assumption) (nCaptures : F.captures = none := by assumption) (nSyns : F.syns = none := by assumption)
    (nLanes : F.lanes = none := by assumption) :
    KeepsO F (execAonCoreFailover dev s) := by
  unfold execAonCoreFailover
  apply keepsO_next
  with_reducible repeat' (first | assumption | apply keeps_aonFailover)
theorem keeps_pendingRootSwitch {s : State} (hs : Keeps F s) (nPairs : F.pairs = none := by assumption) :
    Keeps F (pendingRootSwitch s) := by
  unfold pendingRootSwitch
  with_reducible repeat' (first | assumption | apply keeps_rootSelect | apply keeps_storeRootWord | apply keeps_ite | split | (dsimp only; split))
theorem keeps_execPendingRootSwitch {s : State} (hs : Keeps F s) (nPairs : F.pairs = none := by assumption) :
    KeepsO F (execPendingRootSwitch s) := by
  unfold execPendingRootSwitch
  apply keepsO_next
  with_reducible repeat' (first | assumption | apply keeps_pendingRootSwitch)
theorem keeps_refWaitExpiry {s : State} (hs : Keeps F s) :
    Keeps F (refWaitExpiry s) := by
  unfold refWaitExpiry
  with_reducible repeat' (first | assumption | apply keeps_failoverEvent | apply keeps_wrB | apply keeps_ite | split | (dsimp only; split)
                                | apply keeps_set_rootPending)
theorem keeps_execRefWaitExpiry {s : State} (hs : Keeps F s) :
    KeepsO F (execRefWaitExpiry s) := by
  unfold execRefWaitExpiry
  apply keepsO_next
  with_reducible repeat' (first | assumption | apply keeps_refWaitExpiry)
theorem keeps_refSelWrite (w : Word) (step : BitVec 16) (diff : Word) {s : State} (hs : Keeps F s) (nPorts : F.ports = none := by assumption) :
    Keeps F (refSelWrite w step diff s) := by
  unfold refSelWrite
  with_reducible repeat' (first | assumption | apply keeps_wrF | apply keeps_refSwitch | apply keeps_ite | split | (dsimp only; split))

/-! ### Grading -/

theorem keeps_calCounts (l : Nat) (t : List Byte) {s : State} (hs : Keeps F s) (nPairs : F.pairs = none := by assumption) :
    Keeps F (calCounts l t s) := by
  unfold calCounts
  with_reducible repeat' (first | assumption | apply keeps_modPair | apply keeps_wr64 | apply keeps_wr | apply keeps_count)
theorem keeps_contAfterTake (m : Nat) {s : State} (hs : Keeps F s) (nLinks : F.links = none := by assumption) :
    Keeps F (contAfterTake m s) := by
  unfold contAfterTake
  with_reducible repeat' (first | assumption | apply keeps_contWriteDue | apply keeps_modLink | apply keeps_ite | split | (dsimp only; split))
theorem keeps_takeAccepted (l k : Nat) {s : State} (hs : Keeps F s) (nLinks : F.links = none := by assumption)
    (nPairs : F.pairs = none := by assumption) (nTiles : F.tiles = none := by assumption) (nRuns : F.runs = none := by assumption)
    (nCaptures : F.captures = none := by assumption) :
    Keeps F (takeAccepted l k s) := by
  unfold takeAccepted
  with_reducible repeat' (first | assumption | apply keeps_contAfterTake | apply keeps_calCounts | apply keeps_localCut | apply keeps_modPair
                                | apply keeps_endRun | apply keeps_ite | split | (dsimp only; split))
theorem keeps_takeRejected (l k code : Nat) {s : State} (hs : Keeps F s) (nPairs : F.pairs = none := by assumption)
    (nRuns : F.runs = none := by assumption) (nCaptures : F.captures = none := by assumption) :
    Keeps F (takeRejected l k code s) := by
  unfold takeRejected
  with_reducible repeat' (first | assumption | apply keeps_modPair | apply keeps_endRun | apply keeps_ite | split | (dsimp only; split))
theorem keeps_askPartner (l : Nat) {s : State} (hs : Keeps F s) (nPairs : F.pairs = none := by assumption) :
    Keeps F (askPartner l s) := by
  unfold askPartner
  with_reducible repeat' (first | assumption | apply keeps_drawBytes | apply keeps_emit | apply keeps_modPair | apply keepsR_ite
                                | refine keepsR_eq (keeps_drawBytes _ _ ?_) (by assumption) | split | (dsimp only; split) | apply keeps_snd)
theorem keeps_compatGraded (l m k : Nat) {s : State} (hs : Keeps F s) (nPairs : F.pairs = none := by assumption)
    (nRuns : F.runs = none := by assumption) :
    Keeps F (compatGraded l m k s) := by
  unfold compatGraded
  with_reducible repeat' (first | assumption | apply keeps_entryCut | apply keeps_modPair | apply keeps_queueRun | apply keeps_askPartner
                                | apply keeps_ite | split | (dsimp only; split))
theorem keeps_verified (r : LoadReq) (res : Nat × Nat) {s : State} (hs : Keeps F s) (nLinks : F.links = none := by assumption)
    (nPairs : F.pairs = none := by assumption) (nPorts : F.ports = none := by assumption) (nTiles : F.tiles = none := by assumption)
    (nRuns : F.runs = none := by assumption) (nCaptures : F.captures = none := by assumption) (nSyns : F.syns = none := by assumption)
    (nLanes : F.lanes = none := by assumption) :
    Keeps F (verified r res s) := by
  unfold verified
  with_reducible repeat' (first | assumption | apply keeps_setSlot | apply keeps_complete | apply keeps_takeAccepted | apply keeps_takeRejected
                                | apply keeps_trainFail | apply keeps_contAfterTake | apply keeps_calCounts | apply keeps_compatGraded
                                | apply keeps_localCut | apply keeps_ite | split | (dsimp only; split))
theorem keeps_loaderVerify (t : Nat) {s : State} (hs : Keeps F s) (nLinks : F.links = none := by assumption)
    (nPairs : F.pairs = none := by assumption) (nPorts : F.ports = none := by assumption) (nTiles : F.tiles = none := by assumption)
    (nRuns : F.runs = none := by assumption) (nCaptures : F.captures = none := by assumption) (nSyns : F.syns = none := by assumption)
    (nLanes : F.lanes = none := by assumption) :
    Keeps F (loaderVerify t s) := by
  unfold loaderVerify
  with_reducible repeat' (first | assumption | apply keeps_verified | apply keeps_takeWords | apply keeps_loaderDrop | apply keeps_ite | split
                                | (dsimp only; split))
theorem keeps_execTakeVerification (t : Tile) {s : State} (hs : Keeps F s) (nLinks : F.links = none := by assumption)
    (nPairs : F.pairs = none := by assumption) (nPorts : F.ports = none := by assumption) (nTiles : F.tiles = none := by assumption)
    (nRuns : F.runs = none := by assumption) (nCaptures : F.captures = none := by assumption) (nSyns : F.syns = none := by assumption)
    (nLanes : F.lanes = none := by assumption) :
    KeepsO F (execTakeVerification t s) := by
  unfold execTakeVerification
  apply keepsO_next
  with_reducible repeat' (first | assumption | apply keeps_loaderVerify)
theorem keeps_loaderFill (t : Nat) {s : State} (hs : Keeps F s) (nPairs : F.pairs = none := by assumption)
    (nTiles : F.tiles = none := by assumption) :
    Keeps F (loaderFill t s) := by
  unfold loaderFill
  with_reducible repeat' (first | assumption | apply keeps_fillStandby | apply keeps_takeWords | apply keeps_loaderDrop | apply keeps_ite | split
                                | (dsimp only; split))
theorem keeps_execBankFill (t : Tile) {s : State} (hs : Keeps F s) (nPairs : F.pairs = none := by assumption)
    (nTiles : F.tiles = none := by assumption) :
    KeepsO F (execBankFill t s) := by
  unfold execBankFill
  apply keepsO_next
  with_reducible repeat' (first | assumption | apply keeps_loaderFill)
theorem keeps_policyTrigger (l : Nat) (f : State → LinkSt → List Byte → Bool) {s : State} (hs : Keeps F s)
    (nRuns : F.runs = none := by assumption) :
    Keeps F (policyTrigger l f s) := by
  unfold policyTrigger
  with_reducible repeat' (first | assumption | apply keeps_queueRun | apply keeps_ite | split | (dsimp only; split))
theorem keeps_holdEnds (l : Nat) {s : State} (hs : Keeps F s) (nPairs : F.pairs = none := by assumption) :
    Keeps F (holdEnds l s) := by
  unfold holdEnds
  with_reducible repeat' (first | assumption | apply keeps_modPair)
theorem keeps_set_temps {s : State} {x0} (h : Keeps F s) : Keeps F { s with temps := x0 } :=
  ⟨h.1, h.2, h.3, h.4, h.5, h.6, h.7, h.8⟩
theorem keeps_tempEval (l : Nat) (t : BitVec 16) {s : State} (hs : Keeps F s) (nPairs : F.pairs = none := by assumption)
    (nRuns : F.runs = none := by assumption) :
    Keeps F (tempEval l t s) := by
  unfold tempEval
  with_reducible repeat' (first | assumption | (intro _) | apply keeps_timerWake | apply keeps_holdEnds | apply keeps_policyTrigger
                                | apply keeps_set_temps)
theorem keeps_execGradingTemperatureEval (l : Pair) (t : BitVec 16) {s : State} (hs : Keeps F s) (nPairs : F.pairs = none := by assumption)
    (nRuns : F.runs = none := by assumption) :
    KeepsO F (execGradingTemperatureEval l t s) := by
  unfold execGradingTemperatureEval
  apply keepsO_next
  with_reducible repeat' (first | assumption | apply keeps_tempEval)
theorem keeps_gradeTimer (l : Nat) {s : State} (hs : Keeps F s) (nRuns : F.runs = none := by assumption) :
    Keeps F (gradeTimer l s) := by
  unfold gradeTimer
  with_reducible repeat' (first | assumption | (intro _) | apply keeps_policyTrigger | apply keeps_timerWake)
theorem keeps_execGradingTimerExpiry (l : Pair) {s : State} (hs : Keeps F s) (nRuns : F.runs = none := by assumption) :
    KeepsO F (execGradingTimerExpiry l s) := by
  unfold execGradingTimerExpiry
  apply keepsO_next
  with_reducible repeat' (first | assumption | apply keeps_gradeTimer)
theorem keeps_segAsk (l : Nat) {s : State} (hs : Keeps F s) (nCaptures : F.captures = none := by assumption) :
    Keeps F (segAsk l s) := by
  unfold segAsk
  with_reducible repeat' (first | assumption | apply keeps_capAsk)
theorem keeps_runStart (r : Run) {s : State} (hs : Keeps F s) :
    KeepsR F (runStart r s) := by
  unfold runStart
  with_reducible repeat' (first | assumption | apply keeps_startTrims | apply keepsR_ite
                                | refine keepsR_eq (keeps_startTrims _ _ ?_) (by assumption)
                                | split | (dsimp only; split) | apply keeps_snd | apply keepsR_mk)
theorem keeps_passStart (g : Nat) {s : State} (hs : Keeps F s) (nRuns : F.runs = none := by assumption)
    (nCaptures : F.captures = none := by assumption) :
    Keeps F (passStart g s) := by
  unfold passStart
  with_reducible repeat' (first | assumption | apply keeps_putRuns | apply keeps_capAsk | apply keeps_segAsk | apply keeps_ite | split
                                | (dsimp only; split) | apply keeps_snd | apply keeps_runStart)
theorem keeps_execGradingPassStart (g : Group) {s : State} (hs : Keeps F s) (nRuns : F.runs = none := by assumption)
    (nCaptures : F.captures = none := by assumption) :
    KeepsO F (execGradingPassStart g s) := by
  unfold execGradingPassStart
  apply keepsO_next
  with_reducible repeat' (first | assumption | apply keeps_passStart)
theorem keeps_set_work {s : State} {x0} (h : Keeps F s) : Keeps F { s with work := x0 } :=
  ⟨h.1, h.2, h.3, h.4, h.5, h.6, h.7, h.8⟩
theorem keeps_foldInto (g : Nat) {s : State} (hs : Keeps F s) :
    Keeps F (foldInto g s) := by
  unfold foldInto
  with_reducible repeat' (first | assumption | apply keeps_draw | apply keepsR_ite | refine keepsR_eq (keeps_draw _ ?_) (by assumption) | split
                                | (dsimp only; split) | apply keeps_snd | apply keeps_set_work)
theorem keeps_segFold (g : Nat) {s : State} (hs : Keeps F s) (nRuns : F.runs = none := by assumption)
    (nCaptures : F.captures = none := by assumption) :
    Keeps F (segFold g s) := by
  unfold segFold
  with_reducible repeat' (first | assumption | apply keeps_areaWords | apply keeps_foldInto | apply keeps_capDrop | apply keeps_segAsk
                                | apply keeps_modRun | apply keeps_requeue | apply keeps_ite | split | (dsimp only; split))
theorem keeps_execGradingSegmentFold (g : Group) {s : State} (hs : Keeps F s) (nRuns : F.runs = none := by assumption)
    (nCaptures : F.captures = none := by assumption) :
    KeepsO F (execGradingSegmentFold g s) := by
  unfold execGradingSegmentFold
  apply keepsO_next
  with_reducible repeat' (first | assumption | apply keeps_segFold)
theorem keeps_gradedHeader (r : Run) (m : Nat) {s : State} (hs : Keeps F s) :
    KeepsR F (gradedHeader r m s) := by
  unfold gradedHeader
  with_reducible repeat' (first | assumption | apply keeps_draw | apply keeps_ite | apply keepsR_ite
                                | refine keepsR_eq (keeps_draw _ ?_) (by assumption) | split | (dsimp only; split) | apply keeps_snd
                                | apply keepsR_mk)
theorem keeps_acceptedTake (r : Run) (m : Nat) (retake : List Byte) (err : Int) (found : Nat) (initial : Bool) {s : State} (hs : Keeps F s) :
    KeepsR F (acceptedTake r m retake err found initial s) := by
  unfold acceptedTake
  with_reducible repeat' (first | assumption | apply keeps_gradedHeader | apply keeps_ite | apply keepsR_ite
                                | refine keepsR_eq (keeps_gradedHeader _ _ ?_) (by assumption) | split | (dsimp only; split) | apply keeps_snd
                                | apply keepsR_mk)
theorem keeps_windowsExhausted (l : Nat) (t : List Byte) (clusters : List Cluster) {s : State} (hs : Keeps F s) :
    Keeps F (windowsExhausted l t clusters s) := by
  unfold windowsExhausted
  with_reducible repeat' (first | assumption | apply keeps_raise | apply keeps_ite | split | (dsimp only; split))
theorem keeps_runNoSlot (l m : Nat) {s : State} (hs : Keeps F s) (nLinks : F.links = none := by assumption)
    (nPairs : F.pairs = none := by assumption) (nPorts : F.ports = none := by assumption) (nTiles : F.tiles = none := by assumption)
    (nRuns : F.runs = none := by assumption) (nCaptures : F.captures = none := by assumption) (nSyns : F.syns = none := by assumption)
    (nLanes : F.lanes = none := by assumption) :
    Keeps F (runNoSlot l m s) := by
  unfold runNoSlot
  with_reducible repeat' (first | assumption | apply keeps_count | apply keeps_trainFail | apply keeps_modPair | apply keeps_endRun
                                | apply keeps_ite | split | (dsimp only; split))
theorem keeps_runAgrees (l m : Nat) (r : Run) (retake : List Byte) (err : Int) (clusters : List Cluster) {s : State} (hs : Keeps F s)
    (nTakes : F.takes = none := by assumption) (nLinks : F.links = none := by assumption) (nPairs : F.pairs = none := by assumption)
    (nPorts : F.ports = none := by assumption) (nTiles : F.tiles = none := by assumption) (nRuns : F.runs = none := by assumption)
    (nCaptures : F.captures = none := by assumption) (nSyns : F.syns = none := by assumption) (nLanes : F.lanes = none := by assumption) :
    Keeps F (runAgrees l m r retake err clusters s) := by
  unfold runAgrees
  with_reducible repeat' (first | assumption | apply keeps_acceptedTake | apply keeps_runNoSlot | apply keeps_windowsExhausted
                                | apply keeps_askVerify | apply keeps_takeWords | apply keeps_writeTake | apply keeps_dropRun
                                | apply keeps_modPair | apply keeps_modRun | apply keeps_ite | apply keepsR_ite
                                | refine keepsR_eq (keeps_acceptedTake _ _ _ _ _ _ ?_) (by assumption) | split | (dsimp only; split)
                                | apply keeps_snd)
theorem keeps_trainDisagrees (m : Nat) {s : State} (hs : Keeps F s) (nLinks : F.links = none := by assumption)
    (nPairs : F.pairs = none := by assumption) (nPorts : F.ports = none := by assumption) (nTiles : F.tiles = none := by assumption)
    (nRuns : F.runs = none := by assumption) (nCaptures : F.captures = none := by assumption) (nSyns : F.syns = none := by assumption)
    (nLanes : F.lanes = none := by assumption) :
    Keeps F (trainDisagrees m s) := by
  unfold trainDisagrees
  with_reducible repeat' (first | assumption | (intro _) | apply keeps_trainFail | apply keeps_modPair | apply keeps_dropRun
                                | apply keeps_setPhase | apply keeps_modLink | apply keeps_each | apply keeps_ite | split | (dsimp only; split))
theorem keeps_runDisagrees (l m : Nat) (r : Run) (c : Nat × Nat × Int) {s : State} (hs : Keeps F s) (nLinks : F.links = none := by assumption)
    (nPairs : F.pairs = none := by assumption) (nPorts : F.ports = none := by assumption) (nTiles : F.tiles = none := by assumption)
    (nRuns : F.runs = none := by assumption) (nCaptures : F.captures = none := by assumption) (nSyns : F.syns = none := by assumption)
    (nLanes : F.lanes = none := by assumption) :
    Keeps F (runDisagrees l m r c s) := by
  unfold runDisagrees
  with_reducible repeat' (first | assumption | apply keeps_count | apply keeps_trainDisagrees | apply keeps_requeue | apply keeps_raise
                                | apply keeps_modPair | apply keeps_endRun | apply keeps_ite | split | (dsimp only; split) | apply keeps_snd)
theorem keeps_runEnd (l : Nat) (take retake : List Byte) (clusters : List Cluster) {s : State} (hs : Keeps F s)
    (nTakes : F.takes = none := by assumption) (nLinks : F.links = none := by assumption) (nPairs : F.pairs = none := by assumption)
    (nPorts : F.ports = none := by assumption) (nTiles : F.tiles = none := by assumption) (nRuns : F.runs = none := by assumption)
    (nCaptures : F.captures = none := by assumption) (nSyns : F.syns = none := by assumption) (nLanes : F.lanes = none := by assumption) :
    Keeps F (runEnd l take retake clusters s) := by
  unfold runEnd
  with_reducible repeat' (first | assumption | apply keeps_runAgrees | apply keeps_runDisagrees | apply keeps_ite | split | (dsimp only; split)
                                | apply keeps_snd)
theorem keeps_execGradingRunEnd (l : Pair) (take retake : List Byte) (clusters : List Cluster) {s : State} (hs : Keeps F s)
    (nTakes : F.takes = none := by assumption) (nLinks : F.links = none := by assumption) (nPairs : F.pairs = none := by assumption)
    (nPorts : F.ports = none := by assumption) (nTiles : F.tiles = none := by assumption) (nRuns : F.runs = none := by assumption)
    (nCaptures : F.captures = none := by assumption) (nSyns : F.syns = none := by assumption) (nLanes : F.lanes = none := by assumption) :
    KeepsO F (execGradingRunEnd l take retake clusters s) := by
  unfold execGradingRunEnd
  apply keepsO_next
  with_reducible repeat' (first | assumption | apply keeps_runEnd)
theorem keeps_contWritten (m : Nat) {s : State} (hs : Keeps F s) :
    Keeps F (contWritten m s) := by
  unfold contWritten
  with_reducible repeat' (first | assumption | apply keeps_set_contDue)
theorem keeps_set_contEvict {s : State} {x0} (h : Keeps F s) : Keeps F { s with contEvict := x0 } :=
  ⟨h.1, h.2, h.3, h.4, h.5, h.6, h.7, h.8⟩
theorem keeps_contEvicted (evict : Bool) (i : Nat) {s : State} (hs : Keeps F s) :
    Keeps F (contEvicted evict i s) := by
  unfold contEvicted
  with_reducible repeat' (first | assumption | apply keeps_raise | apply keeps_ite | split | (dsimp only; split) | apply keeps_set_contEvict)
theorem keeps_contPut (i : Nat) (u : Word) (r : List Byte) {s : State} (hs : Keeps F s) (nRecs : F.recs = none := by assumption) :
    Keeps F (contPut i u r s) := by
  unfold contPut
  with_reducible repeat' (first | assumption | apply keeps_set_contUse_contRecs)
theorem keeps_set_contDrop {s : State} {x0} (h : Keeps F s) : Keeps F { s with contDrop := x0 } :=
  ⟨h.1, h.2, h.3, h.4, h.5, h.6, h.7, h.8⟩
theorem keeps_contWrite (m : Nat) {s : State} (hs : Keeps F s) (nRecs : F.recs = none := by assumption) :
    Keeps F (contWrite m s) := by
  unfold contWrite
  with_reducible repeat' (first | assumption | apply keeps_contWritten | apply keeps_contRecord | apply keeps_contEvicted | apply keeps_contPut
                                | apply keeps_ite | apply keepsR_ite | refine keepsR_eq (keeps_contRecord _ _ ?_) (by assumption) | split
                                | (dsimp only; split) | apply keeps_snd | apply keeps_set_contDrop)
theorem keeps_execContinuityRecordWrite (m : Pair) {s : State} (hs : Keeps F s) (nRecs : F.recs = none := by assumption) :
    KeepsO F (execContinuityRecordWrite m s) := by
  unfold execContinuityRecordWrite
  apply keepsO_next
  with_reducible repeat' (first | assumption | apply keeps_contWrite)

end Sys2Proof.Machine
end

