-- ==== Sys2Proof/Laws/Keep3.lean ====
section
/-! SUPPORT. What every operation keeps: Capture, CmdLink, Rack, CmdClock, Acnan, Units, Chain. -/
namespace Sys2Proof.Machine
variable {F : Fixed}

/-! ### Capture -/

theorem keeps_dropHostCapture (p : Nat) {s : State} (hs : Keeps F s) (nCaptures : F.captures = none := by assumption) :
    Keeps F (dropHostCapture p s) := by
  unfold dropHostCapture
  with_reducible repeat' (first | assumption | apply keeps_capDrop | apply keeps_complete | split | (dsimp only; split))
theorem keeps_actRushesArm (c : Cmd) (e : Nat) {s : State} (hs : Keeps F s) (nCaptures : F.captures = none := by assumption) :
    Keeps F (actRushesArm c e s) := by
  unfold actRushesArm
  with_reducible repeat' (first | assumption | apply keeps_complete | apply keeps_capAsk | apply keeps_dropHostCapture | apply keeps_keepRunning
                                | apply keeps_ite | split | (dsimp only; split))
theorem keeps_execRushesArm (c : Cmd) {s : State} (hs : Keeps F s) (nCaptures : F.captures = none := by assumption) :
    KeepsO F (execRushesArm c s) := by
  unfold execRushesArm
  apply keepsO_next
  with_reducible repeat' (first | assumption | (intro _) | apply keeps_command | apply keeps_actRushesArm)
theorem keeps_rushesPort (p : Nat) {s : State} (hs : Keeps F s) :
    KeepsR F (rushesPort p s) := by
  unfold rushesPort
  with_reducible repeat' (first | assumption | apply keeps_draw | apply keeps_ite | apply keepsR_ite
                                | refine keepsR_eq (keeps_draw _ ?_) (by assumption) | split | (dsimp only; split) | apply keeps_snd
                                | apply keepsR_mk)
theorem keeps_actRushesStatus (c : Cmd) (e : Nat) {s : State} (hs : Keeps F s) :
    Keeps F (actRushesStatus c e s) := by
  unfold actRushesStatus
  exact keeps_complete _ _ _ (keepsR_foldl (fun _ _ _ hs => keeps_rushesPort _ hs) (keepsR_mk hs))
theorem keeps_execRushesStatus (c : Cmd) {s : State} (hs : Keeps F s) :
    KeepsO F (execRushesStatus c s) := by
  unfold execRushesStatus
  apply keepsO_next
  with_reducible repeat' (first | assumption | (intro _) | apply keeps_command | apply keeps_actRushesStatus)
theorem keeps_set_areas {s : State} {x0} (h : Keeps F s) : Keeps F { s with areas := x0 } :=
  ⟨h.1, h.2, h.3, h.4, h.5, h.6, h.7, h.8⟩
theorem keeps_areaPut (p o : Nat) (b : List (Option Byte)) {s : State} (hs : Keeps F s) :
    Keeps F (areaPut p o b s) := by
  unfold areaPut
  with_reducible repeat' (first | assumption | apply keeps_set_areas)
theorem keeps_areaRead (p o n : Nat) {s : State} (hs : Keeps F s) :
    KeepsR F (areaRead p o n s) := by
  unfold areaRead
  with_reducible repeat' (first | assumption | apply keeps_draw | apply keepsR_ite | refine keepsR_eq (keeps_draw _ ?_) (by assumption) | split
                                | (dsimp only; split) | apply keeps_snd | apply keepsR_mk)
theorem keeps_actRushesUpload (c : Cmd) (e : Nat) {s : State} (hs : Keeps F s) :
    Keeps F (actRushesUpload c e s) := by
  unfold actRushesUpload
  with_reducible repeat' (first | assumption | apply keeps_complete | apply keeps_keepRunning | split | (dsimp only; split))
theorem keeps_execRushesUpload (c : Cmd) {s : State} (hs : Keeps F s) :
    KeepsO F (execRushesUpload c s) := by
  unfold execRushesUpload
  apply keepsO_next
  with_reducible repeat' (first | assumption | (intro _) | apply keeps_command | apply keeps_actRushesUpload)
theorem keeps_uploadDone (p : Nat) {s : State} (hs : Keeps F s) (nHost : F.host = none := by assumption)
    (nCaptures : F.captures = none := by assumption) :
    Keeps F (uploadDone p s) := by
  unfold uploadDone
  with_reducible repeat' (first | assumption | apply keeps_areaRead | apply keeps_areaWords | apply keeps_hostWriteBy
                                | apply keeps_dropHostCapture | apply keeps_complete | apply keeps_ite | apply keepsR_ite
                                | refine keepsR_eq (keeps_areaRead _ _ _ ?_) (by assumption) | split | (dsimp only; split) | apply keeps_snd)
theorem keeps_execRushesUploadDone (p : Port) {s : State} (hs : Keeps F s) (nHost : F.host = none := by assumption)
    (nCaptures : F.captures = none := by assumption) :
    KeepsO F (execRushesUploadDone p s) := by
  unfold execRushesUploadDone
  apply keepsO_next
  with_reducible repeat' (first | assumption | apply keeps_uploadDone)
theorem keeps_farFirst (n : Nat) {s : State} (hs : Keeps F s) : KeepsR F (farFirst n s) := by
  induction n generalizing s with
  | zero => exact hs
  | succ n ih => exact ih (keeps_snd (keeps_draw 8 hs))
theorem keeps_segHeader (p : Nat) (c : Capture) (pos first trig : Nat) {s : State} (hs : Keeps F s) (nPairs : F.pairs = none := by assumption) :
    KeepsR F (segHeader p c pos first trig s) := by
  unfold segHeader
  with_reducible repeat' (first | assumption | apply keeps_farFirst | (intro _) | apply keeps_loopRun | apply keeps_each | apply keeps_ite
                                | apply keepsR_ite | split | (dsimp only; split) | apply keepsR_mk | apply keeps_snd)
theorem keeps_captureStart (p pos ring : Nat) {s : State} (hs : Keeps F s) (nPairs : F.pairs = none := by assumption)
    (nCaptures : F.captures = none := by assumption) :
    Keeps F (captureStart p pos ring s) := by
  unfold captureStart
  with_reducible repeat' (first | assumption | apply keeps_segHeader | apply keeps_putCaps | apply keeps_areaPut | apply keeps_ite
                                | apply keepsR_ite | refine keepsR_eq (keeps_segHeader _ _ _ _ _ ?_) (by assumption) | split | (dsimp only; split)
                                | apply keeps_snd)
theorem keeps_execRushesCaptureStart (p : Port) (pos : BitVec 27) (ring : BitVec 14) {s : State} (hs : Keeps F s)
    (nPairs : F.pairs = none := by assumption) (nCaptures : F.captures = none := by assumption) :
    KeepsO F (execRushesCaptureStart p pos ring s) := by
  unfold execRushesCaptureStart
  apply keepsO_next
  with_reducible repeat' (first | assumption | apply keeps_captureStart)
theorem keeps_captureDone (p : Nat) (data : List Byte) {s : State} (hs : Keeps F s) (nCaptures : F.captures = none := by assumption) :
    Keeps F (captureDone p data s) := by
  unfold captureDone
  with_reducible repeat' (first | assumption | apply keeps_areaWords | apply keeps_areaPut | apply keeps_putCaps | apply keeps_complete
                                | apply keeps_ite | split | (dsimp only; split))
theorem keeps_execRushesCaptureDone (p : Port) (data : List Byte) {s : State} (hs : Keeps F s) (nCaptures : F.captures = none := by assumption) :
    KeepsO F (execRushesCaptureDone p data s) := by
  unfold execRushesCaptureDone
  apply keepsO_next
  with_reducible repeat' (first | assumption | apply keeps_captureDone)
theorem keeps_rushesHeld (p : Nat) {s : State} (hs : Keeps F s) (nCaptures : F.captures = none := by assumption) :
    Keeps F (rushesHeld p s) := by
  unfold rushesHeld
  with_reducible repeat' (first | assumption | apply keeps_raise | apply keeps_putCaps | apply keeps_ite | split | (dsimp only; split))
theorem keeps_execRushesHeld (p : Port) {s : State} (hs : Keeps F s) (nCaptures : F.captures = none := by assumption) :
    KeepsO F (execRushesHeld p s) := by
  unfold execRushesHeld
  apply keepsO_next
  with_reducible repeat' (first | assumption | apply keeps_rushesHeld)
theorem keeps_actCableProfile (c : Cmd) (e : Nat) {s : State} (hs : Keeps F s) (nRuns : F.runs = none := by assumption) :
    Keeps F (actCableProfile c e s) := by
  unfold actCableProfile
  with_reducible repeat' (first | assumption | apply keeps_complete | apply keeps_keepRunning | apply keeps_putRuns | split | (dsimp only; split))
theorem keeps_execCableProfile (c : Cmd) {s : State} (hs : Keeps F s) (nRuns : F.runs = none := by assumption) :
    KeepsO F (execCableProfile c s) := by
  unfold execCableProfile
  apply keepsO_next
  with_reducible repeat' (first | assumption | (intro _) | apply keeps_command | apply keeps_actCableProfile)
theorem keeps_profileDone (g : Nat) (recs : List PairMeasure) {s : State} (hs : Keeps F s) (nRuns : F.runs = none := by assumption)
    (nCaptures : F.captures = none := by assumption) :
    Keeps F (profileDone g recs s) := by
  unfold profileDone
  with_reducible repeat' (first | assumption | apply keeps_capDrop | apply keeps_putRuns | apply keeps_complete | apply keeps_ite | split
                                | (dsimp only; split) | apply keeps_snd)
theorem keeps_execCableProfileComputed (g : Group) (recs : List PairMeasure) {s : State} (hs : Keeps F s) (nRuns : F.runs = none := by assumption)
    (nCaptures : F.captures = none := by assumption) :
    KeepsO F (execCableProfileComputed g recs s) := by
  unfold execCableProfileComputed
  apply keepsO_next
  with_reducible repeat' (first | assumption | apply keeps_profileDone)
theorem keeps_actCableTest (c : Cmd) (e : Nat) {s : State} (hs : Keeps F s) (nPairs : F.pairs = none := by assumption)
    (nPorts : F.ports = none := by assumption) (nSyns : F.syns = none := by assumption) (nLanes : F.lanes = none := by assumption) :
    Keeps F (actCableTest c e s) := by
  unfold actCableTest
  with_reducible repeat' (first | assumption | apply keeps_complete | apply keeps_keepRunning | apply keeps_modPort | apply keeps_synHop
                                | apply keeps_ite | split | (dsimp only; split))
theorem keeps_execCableTest (c : Cmd) {s : State} (hs : Keeps F s) (nPairs : F.pairs = none := by assumption)
    (nPorts : F.ports = none := by assumption) (nSyns : F.syns = none := by assumption) (nLanes : F.lanes = none := by assumption) :
    KeepsO F (execCableTest c s) := by
  unfold execCableTest
  apply keepsO_next
  with_reducible repeat' (first | assumption | (intro _) | apply keeps_command | apply keeps_actCableTest)
theorem keeps_cablePairDone (p : Nat) (cs : List Cluster) (far len : Nat) (next : List (BitVec 16)) {s : State} (hs : Keeps F s)
    (nPorts : F.ports = none := by assumption) :
    Keeps F (cablePairDone p cs far len next s) := by
  unfold cablePairDone
  with_reducible repeat' (first | assumption | apply keeps_complete | apply keeps_modPort | apply keeps_ite | split | (dsimp only; split))
theorem keeps_execCableTestPairDone (p : Port) (clusters : List Cluster) (far : BitVec 2) (length : Word) (next : List (BitVec 16)) {s : State}
    (hs : Keeps F s) (nPorts : F.ports = none := by assumption) :
    KeepsO F (execCableTestPairDone p clusters far length next s) := by
  unfold execCableTestPairDone
  apply keepsO_next
  with_reducible repeat' (first | assumption | apply keeps_cablePairDone)
theorem keeps_actPairSnr (c : Cmd) (e : Nat) {s : State} (hs : Keeps F s) :
    Keeps F (actPairSnr c e s) := by
  unfold actPairSnr
  with_reducible repeat' (first | assumption | apply keeps_complete)
theorem keeps_execPairSnr (c : Cmd) {s : State} (hs : Keeps F s) :
    KeepsO F (execPairSnr c s) := by
  unfold execPairSnr
  apply keepsO_next
  with_reducible repeat' (first | assumption | (intro _) | apply keeps_command | apply keeps_actPairSnr)
theorem keeps_actEyeScan (c : Cmd) (e : Nat) {s : State} (hs : Keeps F s) (nLanes : F.lanes = none := by assumption) :
    Keeps F (actEyeScan c e s) := by
  unfold actEyeScan
  with_reducible repeat' (first | assumption | apply keeps_complete | apply keeps_keepRunning | apply keeps_modLane | split | (dsimp only; split))
theorem keeps_execEyeScan (c : Cmd) {s : State} (hs : Keeps F s) (nLanes : F.lanes = none := by assumption) :
    KeepsO F (execEyeScan c s) := by
  unfold execEyeScan
  apply keepsO_next
  with_reducible repeat' (first | assumption | (intro _) | apply keeps_command | apply keeps_actEyeScan)
theorem keeps_ctleAutoEnd (n e : Nat) {s : State} (hs : Keeps F s) (nLanes : F.lanes = none := by assumption) :
    Keeps F (ctleAutoEnd n e s) := by
  unfold ctleAutoEnd
  with_reducible repeat' (first | assumption | apply keeps_complete | apply keeps_wrF | apply keeps_modLane)
theorem keeps_eyePoint (n k : Nat) {s : State} (hs : Keeps F s) (nHost : F.host = none := by assumption)
    (nLanes : F.lanes = none := by assumption) :
    Keeps F (eyePoint n k s) := by
  unfold eyePoint
  with_reducible repeat' (first | assumption | apply keeps_hostWriteBy | apply keeps_complete | apply keeps_modLane | apply keeps_ctleAutoEnd
                                | apply keeps_ite | split | (dsimp only; split) | apply keeps_snd)
theorem keeps_execEyeScanPoint (n : Lane) (k : Word) {s : State} (hs : Keeps F s) (nHost : F.host = none := by assumption)
    (nLanes : F.lanes = none := by assumption) :
    KeepsO F (execEyeScanPoint n k s) := by
  unfold execEyeScanPoint
  apply keepsO_next
  with_reducible repeat' (first | assumption | apply keeps_eyePoint)
theorem keeps_actLoopback (c : Cmd) (e : Nat) {s : State} (hs : Keeps F s) (nLinks : F.links = none := by assumption)
    (nPairs : F.pairs = none := by assumption) (nPorts : F.ports = none := by assumption) (nLanes : F.lanes = none := by assumption) :
    Keeps F (actLoopback c e s) := by
  unfold actLoopback
  with_reducible repeat' (first | assumption | (intro _) | apply keeps_complete | apply keeps_modPort | apply keeps_modLink | apply keeps_modPair
                                | apply keeps_quietWake | apply keeps_each | apply keeps_ite | split | (dsimp only; split))
theorem keeps_execLoopback (c : Cmd) {s : State} (hs : Keeps F s) (nLinks : F.links = none := by assumption)
    (nPairs : F.pairs = none := by assumption) (nPorts : F.ports = none := by assumption) (nLanes : F.lanes = none := by assumption) :
    KeepsO F (execLoopback c s) := by
  unfold execLoopback
  apply keepsO_next
  with_reducible repeat' (first | assumption | (intro _) | apply keeps_command | apply keeps_actLoopback)
theorem keeps_utilEnd (p : Nat) (counts : List (BitVec 48)) (unlocked : BitVec 8) {s : State} (hs : Keeps F s) :
    Keeps F (utilEnd p counts unlocked s) := by
  unfold utilEnd
  with_reducible repeat' (first | assumption | (intro _) | apply keeps_wrF | apply keeps_wrWide | apply keeps_each | apply keeps_foldl
                                | apply keepsR_foldl | apply keeps_ite | split | (dsimp only; split) | apply keeps_set_utilDiscard)
theorem keeps_execUtilWindowEnd (p : Port) (counts : List (BitVec 48)) (unlocked : BitVec 8) {s : State} (hs : Keeps F s) :
    KeepsO F (execUtilWindowEnd p counts unlocked s) := by
  unfold execUtilWindowEnd
  apply keepsO_next
  with_reducible repeat' (first | assumption | apply keeps_utilEnd)

/-! ### CmdLink -/

theorem keeps_applyTimers (p : Nat) {s : State} (hs : Keeps F s) :
    Keeps F (applyTimers p s) := by
  unfold applyTimers
  with_reducible repeat' (first | assumption | apply keeps_wr)
theorem keeps_applyPolicy (m : Nat) (b : List Byte) {s : State} (hs : Keeps F s) (nLinks : F.links = none := by assumption) :
    Keeps F (applyPolicy m b s) := by
  unfold applyPolicy
  with_reducible repeat' (first | assumption | apply keeps_applyTimers | apply keeps_modLink)
theorem keeps_actLinkRefresh (c : Cmd) (entry : Option (List Byte)) (e : Nat) {s : State} (hs : Keeps F s)
    (nLinks : F.links = none := by assumption) :
    Keeps F (actLinkRefresh c entry e s) := by
  unfold actLinkRefresh
  with_reducible repeat' (first | assumption | apply keeps_complete | apply keeps_count | apply keeps_ldtInvalidate | apply keeps_applyPolicy
                                | apply keeps_ldtStore
                                | apply keeps_ite | split | (dsimp only; split))
theorem keeps_execLinkRefresh (c : Cmd) (entry : Option (List Byte)) {s : State} (hs : Keeps F s) (nLinks : F.links = none := by assumption) :
    KeepsO F (execLinkRefresh c entry s) := by
  unfold execLinkRefresh
  apply keepsO_next
  with_reducible repeat' (first | assumption | (intro _) | apply keeps_command | apply keeps_actLinkRefresh)
theorem keeps_setMonType (m ty : Nat) (mask : BitVec 8) {s : State} (hs : Keeps F s) :
    Keeps F (setMonType m ty mask s) := by
  unfold setMonType
  with_reducible repeat' (first | assumption | (intro _) | apply keeps_wr | apply keeps_each | apply keeps_ite | split | (dsimp only; split))
theorem keeps_configure (m : Nat) (c : Cmd) (b : List Byte) {s : State} (hs : Keeps F s) (nLinks : F.links = none := by assumption) :
    Keeps F (configure m c b s) := by
  unfold configure
  with_reducible repeat' (first | assumption | apply keeps_setMonType | apply keeps_wrB | apply keeps_putLink | apply keeps_applyPolicy
                                | apply keeps_ite | split | (dsimp only; split))
theorem keeps_actLinkConfigure (c : Cmd) (entry : Option (List Byte)) (e : Nat) {s : State} (hs : Keeps F s)
    (nLinks : F.links = none := by assumption) :
    Keeps F (actLinkConfigure c entry e s) := by
  unfold actLinkConfigure
  with_reducible repeat' (first | assumption | apply keeps_complete | apply keeps_count | apply keeps_configure | apply keeps_ite | split
                                | (dsimp only; split))
theorem keeps_execLinkConfigure (c : Cmd) (entry : Option (List Byte)) {s : State} (hs : Keeps F s) (nLinks : F.links = none := by assumption) :
    KeepsO F (execLinkConfigure c entry s) := by
  unfold execLinkConfigure
  apply keepsO_next
  with_reducible repeat' (first | assumption | (intro _) | apply keeps_command | apply keeps_actLinkConfigure)
theorem keeps_linkUp (m : Nat) {s : State} (hs : Keeps F s) (nTakes : F.takes = none := by assumption) (nLinks : F.links = none := by assumption)
    (nPairs : F.pairs = none := by assumption) (nPorts : F.ports = none := by assumption) :
    Keeps F (linkUp m s) := by
  unfold linkUp
  with_reducible repeat' (first | assumption | apply keeps_modLink | apply keeps_enterListen | split | (dsimp only; split))
theorem keeps_actLinkUp (c : Cmd) (e : Nat) {s : State} (hs : Keeps F s) (nTakes : F.takes = none := by assumption)
    (nLinks : F.links = none := by assumption) (nPairs : F.pairs = none := by assumption) (nPorts : F.ports = none := by assumption) :
    Keeps F (actLinkUp c e s) := by
  unfold actLinkUp
  with_reducible repeat' (first | assumption | apply keeps_complete | apply keeps_modLink | apply keeps_linkUp | apply keeps_keepRunning
                                | apply keeps_ite | split | (dsimp only; split))
theorem keeps_execLinkUp (c : Cmd) {s : State} (hs : Keeps F s) (nTakes : F.takes = none := by assumption)
    (nLinks : F.links = none := by assumption) (nPairs : F.pairs = none := by assumption) (nPorts : F.ports = none := by assumption) :
    KeepsO F (execLinkUp c s) := by
  unfold execLinkUp
  apply keepsO_next
  with_reducible repeat' (first | assumption | (intro _) | apply keeps_command | apply keeps_actLinkUp)
theorem keeps_linkDown (m : Nat) {s : State} (hs : Keeps F s) (nLinks : F.links = none := by assumption)
    (nPairs : F.pairs = none := by assumption) (nPorts : F.ports = none := by assumption) (nTiles : F.tiles = none := by assumption)
    (nRuns : F.runs = none := by assumption) (nCaptures : F.captures = none := by assumption) (nSyns : F.syns = none := by assumption)
    (nLanes : F.lanes = none := by assumption) :
    Keeps F (linkDown m s) := by
  unfold linkDown
  with_reducible repeat' (first | assumption | apply keeps_enterDown | apply keeps_completeAll | apply keeps_leaveByCommand | apply keeps_modLink
                                | split
                                | (dsimp only; split))
theorem keeps_actLinkDown (c : Cmd) (e : Nat) {s : State} (hs : Keeps F s) (nLinks : F.links = none := by assumption)
    (nPairs : F.pairs = none := by assumption) (nPorts : F.ports = none := by assumption) (nTiles : F.tiles = none := by assumption)
    (nRuns : F.runs = none := by assumption) (nCaptures : F.captures = none := by assumption) (nSyns : F.syns = none := by assumption)
    (nLanes : F.lanes = none := by assumption) :
    Keeps F (actLinkDown c e s) := by
  unfold actLinkDown
  with_reducible repeat' (first | assumption | apply keeps_complete | apply keeps_linkDown | apply keeps_keepRunning | apply keeps_ite | split
                                | (dsimp only; split))
theorem keeps_execLinkDown (c : Cmd) {s : State} (hs : Keeps F s) (nLinks : F.links = none := by assumption)
    (nPairs : F.pairs = none := by assumption) (nPorts : F.ports = none := by assumption) (nTiles : F.tiles = none := by assumption)
    (nRuns : F.runs = none := by assumption) (nCaptures : F.captures = none := by assumption) (nSyns : F.syns = none := by assumption)
    (nLanes : F.lanes = none := by assumption) :
    KeepsO F (execLinkDown c s) := by
  unfold execLinkDown
  apply keepsO_next
  with_reducible repeat' (first | assumption | (intro _) | apply keeps_command | apply keeps_actLinkDown)
theorem keeps_execLinkStatus (c : Cmd) {s : State} (hs : Keeps F s) :
    KeepsO F (execLinkStatus c s) := by
  unfold execLinkStatus
  apply keepsO_next
  with_reducible repeat' (first | assumption | (intro _) | apply keeps_command | apply keeps_complete)
theorem keeps_actLinkQuietPolicy (c : Cmd) (e : Nat) {s : State} (hs : Keeps F s) (nLinks : F.links = none := by assumption) :
    Keeps F (actLinkQuietPolicy c e s) := by
  unfold actLinkQuietPolicy
  with_reducible repeat' (first | assumption | apply keeps_complete | apply keeps_modLink | apply keeps_ite | split | (dsimp only; split))
theorem keeps_execLinkQuietPolicy (c : Cmd) {s : State} (hs : Keeps F s) (nLinks : F.links = none := by assumption) :
    KeepsO F (execLinkQuietPolicy c s) := by
  unfold execLinkQuietPolicy
  apply keepsO_next
  with_reducible repeat' (first | assumption | (intro _) | apply keeps_command | apply keeps_actLinkQuietPolicy)
theorem keeps_actTakePolicy (c : Cmd) (e : Nat) {s : State} (hs : Keeps F s) (nLinks : F.links = none := by assumption) :
    Keeps F (actTakePolicy c e s) := by
  unfold actTakePolicy
  with_reducible repeat' (first | assumption | apply keeps_complete | apply keeps_modLink | apply keeps_ite | split | (dsimp only; split))
theorem keeps_execTakePolicy (c : Cmd) {s : State} (hs : Keeps F s) (nLinks : F.links = none := by assumption) :
    KeepsO F (execTakePolicy c s) := by
  unfold execTakePolicy
  apply keepsO_next
  with_reducible repeat' (first | assumption | (intro _) | apply keeps_command | apply keeps_actTakePolicy)
theorem keeps_actLinkForceRole (c : Cmd) (e : Nat) {s : State} (hs : Keeps F s) (nPorts : F.ports = none := by assumption) :
    Keeps F (actLinkForceRole c e s) := by
  unfold actLinkForceRole
  with_reducible repeat' (first | assumption | apply keeps_complete | apply keeps_modPort | split | (dsimp only; split))
theorem keeps_execLinkForceRole (c : Cmd) {s : State} (hs : Keeps F s) (nPorts : F.ports = none := by assumption) :
    KeepsO F (execLinkForceRole c s) := by
  unfold execLinkForceRole
  apply keepsO_next
  with_reducible repeat' (first | assumption | (intro _) | apply keeps_command | apply keeps_actLinkForceRole)
theorem keeps_actLinkTrainStep (c : Cmd) (e : Nat) {s : State} (hs : Keeps F s) (nLinks : F.links = none := by assumption)
    (nPairs : F.pairs = none := by assumption) (nRuns : F.runs = none := by assumption) (nLanes : F.lanes = none := by assumption) :
    Keeps F (actLinkTrainStep c e s) := by
  unfold actLinkTrainStep
  with_reducible repeat' (first | assumption | apply keeps_complete | apply keeps_modLink | apply keeps_phaseNext | apply keeps_keepRunning
                                | apply keeps_ite | split | (dsimp only; split))
theorem keeps_execLinkTrainStep (c : Cmd) {s : State} (hs : Keeps F s) (nLinks : F.links = none := by assumption)
    (nPairs : F.pairs = none := by assumption) (nRuns : F.runs = none := by assumption) (nLanes : F.lanes = none := by assumption) :
    KeepsO F (execLinkTrainStep c s) := by
  unfold execLinkTrainStep
  apply keepsO_next
  with_reducible repeat' (first | assumption | (intro _) | apply keeps_command | apply keeps_actLinkTrainStep)

/-! ### Rack -/

theorem keeps_setRackState (i st : Nat) {s : State} (hs : Keeps F s) :
    Keeps F (setRackState i st s) := by
  unfold setRackState
  with_reducible repeat' (first | assumption | apply keeps_wrF)
theorem keeps_setOutState (n st : Nat) {s : State} (hs : Keeps F s) :
    Keeps F (setOutState n st s) := by
  unfold setOutState
  with_reducible repeat' (first | assumption | apply keeps_wrF)
theorem keeps_set_spread {s : State} {x0} (h : Keeps F s) : Keeps F { s with spread := x0 } :=
  ⟨h.1, h.2, h.3, h.4, h.5, h.6, h.7, h.8⟩
theorem keeps_setSpread (n : Nat) (w : Word) {s : State} (hs : Keeps F s) :
    Keeps F (setSpread n w s) := by
  unfold setSpread
  with_reducible repeat' (first | assumption | apply keeps_set_spread)
theorem keeps_spreadTop (n : Nat) {s : State} (hs : Keeps F s) :
    Keeps F (spreadTop n s) := by
  unfold spreadTop
  with_reducible repeat' (first | assumption | apply keeps_wrB | apply keeps_setSpread)
theorem keeps_spreadStop (n : Nat) {s : State} (hs : Keeps F s) :
    Keeps F (spreadStop n s) := by
  unfold spreadStop
  with_reducible repeat' (first | assumption | apply keeps_wrB | apply keeps_setSpread)
theorem keeps_spreadTopIn (n : Nat) {s : State} (hs : Keeps F s) :
    Keeps F (spreadTopIn n s) := by
  unfold spreadTopIn
  with_reducible repeat' (first | assumption | apply keeps_spreadTop | apply keeps_ite | split | (dsimp only; split))
theorem keeps_execSpreadTop (n : BitVec 4) {s : State} (hs : Keeps F s) :
    KeepsO F (execSpreadTop n s) := by
  unfold execSpreadTop
  apply keepsO_next
  with_reducible repeat' (first | assumption | apply keeps_spreadTopIn)
theorem keeps_outsHop (i : Nat) {s : State} (hs : Keeps F s) :
    Keeps F (outsHop i s) := by
  unfold outsHop
  with_reducible repeat' (first | assumption | (intro _) | apply keeps_wrB | apply keeps_setOutState | apply keeps_each | apply keeps_ite | split
                                | (dsimp only; split))
theorem keeps_outsRun (i : Nat) {s : State} (hs : Keeps F s) :
    Keeps F (outsRun i s) := by
  unfold outsRun
  with_reducible repeat' (first | assumption | (intro _) | apply keeps_setOutState | apply keeps_each | apply keeps_ite | split
                                | (dsimp only; split))
theorem keeps_rackHop (i k : Nat) (tag : Option Nat) {s : State} (hs : Keeps F s) (nSyns : F.syns = none := by assumption) :
    Keeps F (rackHop i k tag s) := by
  unfold rackHop
  with_reducible repeat' (first | assumption | apply keeps_wr | apply keeps_setRackState | apply keeps_wrF | apply keeps_outsHop
                                | apply keeps_modSyn | apply keeps_ite | split | (dsimp only; split))
theorem keeps_rackEnable (i : Nat) (tag : Option Nat) {s : State} (hs : Keeps F s) (nSyns : F.syns = none := by assumption) :
    Keeps F (rackEnable i tag s) := by
  unfold rackEnable
  with_reducible repeat' (first | assumption | apply keeps_modSyn | apply keeps_setRackState | apply keeps_wrF | apply keeps_wrB)
theorem keeps_rackDisable (i : Nat) {s : State} (hs : Keeps F s) (nSyns : F.syns = none := by assumption) :
    Keeps F (rackDisable i s) := by
  unfold rackDisable
  with_reducible repeat' (first | assumption | (intro _) | apply keeps_setRackState | apply keeps_wrB | apply keeps_setOutState
                                | apply keeps_hopCut | apply keeps_modSyn | apply keeps_each | apply keeps_ite | split | (dsimp only; split))
theorem keeps_rackHopDone (i band : Nat) (fresh : Bool) {s : State} (hs : Keeps F s) (nSyns : F.syns = none := by assumption) :
    Keeps F (rackHopDone i band fresh s) := by
  unfold rackHopDone
  with_reducible repeat' (first | assumption | apply keeps_wrB | apply keeps_wrF | apply keeps_setRackState | apply keeps_count
                                | apply keeps_hopEnd | apply keeps_outsRun | apply keeps_modSyn | apply keeps_ite | split | (dsimp only; split))
theorem keeps_execRackHopDone (i : Pll) (band : BitVec 6) (fresh : Bool) {s : State} (hs : Keeps F s) (nSyns : F.syns = none := by assumption) :
    KeepsO F (execRackHopDone i band fresh s) := by
  unfold execRackHopDone
  apply keepsO_next
  with_reducible repeat' (first | assumption | apply keeps_rackHopDone)
theorem keeps_bypassEvent (i cause : Nat) {s : State} (hs : Keeps F s) :
    Keeps F (bypassEvent i cause s) := by
  unfold bypassEvent
  with_reducible repeat' (first | assumption | apply keeps_raise)
theorem keeps_outputBypass (i cause : Nat) {s : State} (hs : Keeps F s) (nPairs : F.pairs = none := by assumption) :
    Keeps F (outputBypass i cause s) := by
  unfold outputBypass
  with_reducible repeat' (first | assumption | (intro _) | apply keeps_spreadStop | apply keeps_wrF | apply keeps_wrB | apply keeps_muxSwitch
                                | apply keeps_setOutState | apply keeps_bypassEvent | apply keeps_each | apply keeps_ite | split
                                | (dsimp only; split))
theorem keeps_rackRefLost (i : Nat) {s : State} (hs : Keeps F s) (nPairs : F.pairs = none := by assumption) :
    Keeps F (rackRefLost i s) := by
  unfold rackRefLost
  with_reducible repeat' (first | assumption | apply keeps_outputBypass | apply keeps_raise | apply keeps_count | apply keeps_setRackState
                                | apply keeps_ite | split | (dsimp only; split))
theorem keeps_execRackPllRefLost (i : Pll) {s : State} (hs : Keeps F s) (nPairs : F.pairs = none := by assumption) :
    KeepsO F (execRackPllRefLost i s) := by
  unfold execRackPllRefLost
  apply keepsO_next
  with_reducible repeat' (first | assumption | apply keeps_rackRefLost)
theorem keeps_rackRefReturn (i : Nat) {s : State} (hs : Keeps F s) :
    Keeps F (rackRefReturn i s) := by
  unfold rackRefReturn
  with_reducible repeat' (first | assumption | apply keeps_outsRun | apply keeps_setRackState | apply keeps_ite | split | (dsimp only; split))
theorem keeps_execRackPllRefReturn (i : Pll) {s : State} (hs : Keeps F s) :
    KeepsO F (execRackPllRefReturn i s) := by
  unfold execRackPllRefReturn
  apply keepsO_next
  with_reducible repeat' (first | assumption | apply keeps_rackRefReturn)
theorem keeps_rackUnlock (i : Nat) {s : State} (hs : Keeps F s) (nPairs : F.pairs = none := by assumption) :
    Keeps F (rackUnlock i s) := by
  unfold rackUnlock
  with_reducible repeat' (first | assumption | apply keeps_outputBypass | apply keeps_raise | apply keeps_count | apply keeps_setRackState
                                | apply keeps_ite | split | (dsimp only; split))
theorem keeps_execRackPllUnlock (i : Pll) {s : State} (hs : Keeps F s) (nPairs : F.pairs = none := by assumption) :
    KeepsO F (execRackPllUnlock i s) := by
  unfold execRackPllUnlock
  apply keepsO_next
  with_reducible repeat' (first | assumption | apply keeps_rackUnlock)
theorem keeps_rackRelock (i : Nat) {s : State} (hs : Keeps F s) :
    Keeps F (rackRelock i s) := by
  unfold rackRelock
  with_reducible repeat' (first | assumption | apply keeps_outsRun | apply keeps_setRackState | apply keeps_ite | split | (dsimp only; split))
theorem keeps_execRackPllRelock (i : Pll) {s : State} (hs : Keeps F s) :
    KeepsO F (execRackPllRelock i s) := by
  unfold execRackPllRelock
  apply keepsO_next
  with_reducible repeat' (first | assumption | apply keeps_rackRelock)
theorem keeps_bypassFail (src : Nat) {s : State} (hs : Keeps F s) :
    Keeps F (bypassFail src s) := by
  unfold bypassFail
  with_reducible repeat' (first | assumption | (intro _) | apply keeps_bypassEvent | apply keeps_setOutState | apply keeps_each | apply keeps_ite
                                | split | (dsimp only; split))
theorem keeps_execBypassInputFail (src : BitVec 2) {s : State} (hs : Keeps F s) :
    KeepsO F (execBypassInputFail src s) := by
  unfold execBypassInputFail
  apply keepsO_next
  with_reducible repeat' (first | assumption | apply keeps_bypassFail)
theorem keeps_outReturn (n : Nat) {s : State} (hs : Keeps F s) (nPairs : F.pairs = none := by assumption) :
    Keeps F (outReturn n s) := by
  unfold outReturn
  with_reducible repeat' (first | assumption | apply keeps_muxSwitch | apply keeps_setOutState | apply keeps_wrF | apply keeps_wrB
                                | apply keeps_ite | split | (dsimp only; split))
theorem keeps_outSettle (n : Nat) {s : State} (hs : Keeps F s) :
    Keeps F (outSettle n s) := by
  unfold outSettle
  with_reducible repeat' (first | assumption | apply keeps_setOutState | apply keeps_ite | split | (dsimp only; split))
theorem keeps_outCfgWrite (n : Nat) (w : Word) {s : State} (hs : Keeps F s) (nPairs : F.pairs = none := by assumption)
    (nLanes : F.lanes = none := by assumption) :
    Keeps F (outCfgWrite n w s) := by
  unfold outCfgWrite
  with_reducible repeat' (first | assumption | (intro _) | apply keeps_wr | apply keeps_wrB | apply keeps_tileLanesLost | apply keeps_outSettle
                                | apply keeps_each | apply keeps_ite | split | (dsimp only; split))
theorem keeps_outPhaseWrite (n : Nat) (w : Word) {s : State} (hs : Keeps F s) (nPairs : F.pairs = none := by assumption)
    (nLanes : F.lanes = none := by assumption) :
    Keeps F (outPhaseWrite n w s) := by
  unfold outPhaseWrite
  with_reducible repeat' (first | assumption | (intro _) | apply keeps_wr | apply keeps_tileLanesLost | apply keeps_wrB | apply keeps_each
                                | apply keeps_ite | split | (dsimp only; split))
theorem keeps_rackCtlWrite (i : Nat) (w : Word) {s : State} (hs : Keeps F s) (nSyns : F.syns = none := by assumption) :
    Keeps F (rackCtlWrite i w s) := by
  unfold rackCtlWrite
  with_reducible repeat' (first | assumption | apply keeps_wrF | apply keeps_rackEnable | apply keeps_rackDisable | apply keeps_rackHop
                                | apply keeps_ite | split | (dsimp only; split))
theorem keeps_rackSlotWrite (i k : Nat) (frac : Bool) (w : Word) {s : State} (hs : Keeps F s) (nSyns : F.syns = none := by assumption) :
    Keeps F (rackSlotWrite i k frac w s) := by
  unfold rackSlotWrite
  with_reducible repeat' (first | assumption | apply keeps_wr | apply keeps_wrF | apply keeps_rackHop | apply keeps_wrB | apply keeps_ite | split
                                | (dsimp only; split))
theorem keeps_set_lastClap {s : State} {x0} (h : Keeps F s) : Keeps F { s with lastClap := x0 } :=
  ⟨h.1, h.2, h.3, h.4, h.5, h.6, h.7, h.8⟩
theorem keeps_clapper {s : State} (hs : Keeps F s) (nPairs : F.pairs = none := by assumption) (nSyns : F.syns = none := by assumption)
    (nLanes : F.lanes = none := by assumption) :
    Keeps F (clapper s) := by
  unfold clapper
  with_reducible repeat' (first | assumption | (intro _) | apply keeps_beginWake | apply keeps_raise | apply keeps_count | apply keeps_wrB
                                | apply keeps_spreadTop | apply keeps_tileLanesLost | apply keeps_modSyn | apply keeps_each | apply keeps_foldl
                                | apply keepsR_foldl | apply keeps_ite | split | (dsimp only; split) | apply keeps_set_lastClap)
theorem keeps_execClapperPulse {s : State} (hs : Keeps F s) (nPairs : F.pairs = none := by assumption) (nSyns : F.syns = none := by assumption)
    (nLanes : F.lanes = none := by assumption) :
    KeepsO F (execClapperPulse s) := by
  unfold execClapperPulse
  apply keepsO_next
  with_reducible repeat' (first | assumption | apply keeps_clapper)
theorem keeps_rideEnd (t : Nat) {s : State} (hs : Keeps F s) (nSyns : F.syns = none := by assumption) :
    Keeps F (rideEnd t s) := by
  unfold rideEnd
  with_reducible repeat' (first | assumption | apply keeps_tileLanesRun | apply keeps_modSyn | apply keeps_ite | split | (dsimp only; split))
theorem keeps_execClapperRideThroughEnd (t : Tile) {s : State} (hs : Keeps F s) (nSyns : F.syns = none := by assumption) :
    KeepsO F (execClapperRideThroughEnd t s) := by
  unfold execClapperRideThroughEnd
  apply keepsO_next
  with_reducible repeat' (first | assumption | apply keeps_rideEnd)

/-! ### CmdClock -/

theorem keeps_actClkOutputSet (c : Cmd) (e : Nat) {s : State} (hs : Keeps F s) (nPairs : F.pairs = none := by assumption)
    (nLanes : F.lanes = none := by assumption) :
    Keeps F (actClkOutputSet c e s) := by
  unfold actClkOutputSet
  with_reducible repeat' (first | assumption | apply keeps_complete | apply keeps_outPhaseWrite | apply keeps_outCfgWrite | apply keeps_outReturn
                                | apply keeps_ite | split | (dsimp only; split) | apply keeps_snd)
theorem keeps_execClkOutputSet (c : Cmd) {s : State} (hs : Keeps F s) (nPairs : F.pairs = none := by assumption)
    (nLanes : F.lanes = none := by assumption) :
    KeepsO F (execClkOutputSet c s) := by
  unfold execClkOutputSet
  apply keepsO_next
  with_reducible repeat' (first | assumption | (intro _) | apply keeps_command | apply keeps_actClkOutputSet)
theorem keeps_programSyn (c : Cmd) (e : Nat) {s : State} (hs : Keeps F s) (nPairs : F.pairs = none := by assumption)
    (nSyns : F.syns = none := by assumption) (nLanes : F.lanes = none := by assumption) :
    Keeps F (programSyn c e s) := by
  unfold programSyn
  with_reducible repeat' (first | assumption | (intro _) | apply keeps_complete | apply keeps_wrB | apply keeps_wrF | apply keeps_synWordWrite
                                | apply keeps_keepRunning | apply keeps_synHop | apply keeps_synAgain | apply keeps_each | apply keeps_ite | split | (dsimp only; split))
theorem keeps_programRack (c : Cmd) (e : Nat) {s : State} (hs : Keeps F s) (nSyns : F.syns = none := by assumption) :
    Keeps F (programRack c e s) := by
  unfold programRack
  with_reducible repeat' (first | assumption | apply keeps_complete | apply keeps_wr | apply keeps_wrF | apply keeps_wrB | apply keeps_keepRunning
                                | apply keeps_rackHop | apply keeps_rackEnable | apply keeps_ite | split | (dsimp only; split))
theorem keeps_actClkPllProgram (c : Cmd) (e : Nat) {s : State} (hs : Keeps F s) (nPairs : F.pairs = none := by assumption)
    (nSyns : F.syns = none := by assumption) (nLanes : F.lanes = none := by assumption) :
    Keeps F (actClkPllProgram c e s) := by
  unfold actClkPllProgram
  with_reducible repeat' (first | assumption | apply keeps_programSyn | apply keeps_programRack | apply keeps_ite | split | (dsimp only; split))
theorem keeps_execClkPllProgram (c : Cmd) {s : State} (hs : Keeps F s) (nPairs : F.pairs = none := by assumption)
    (nSyns : F.syns = none := by assumption) (nLanes : F.lanes = none := by assumption) :
    KeepsO F (execClkPllProgram c s) := by
  unfold execClkPllProgram
  apply keepsO_next
  with_reducible repeat' (first | assumption | (intro _) | apply keeps_command | apply keeps_actClkPllProgram)
theorem keeps_set_hops {s : State} {x0} (h : Keeps F s) : Keeps F { s with hops := x0 } :=
  ⟨h.1, h.2, h.3, h.4, h.5, h.6, h.7, h.8⟩
theorem keeps_actClkHop (c : Cmd) (e : Nat) {s : State} (hs : Keeps F s) (nPairs : F.pairs = none := by assumption)
    (nSyns : F.syns = none := by assumption) (nLanes : F.lanes = none := by assumption) :
    Keeps F (actClkHop c e s) := by
  unfold actClkHop
  with_reducible repeat' (first | assumption | apply keeps_complete | apply keeps_keepRunning | apply keeps_synHop | apply keeps_rackHop
                                | apply keeps_ite | split | (dsimp only; split) | apply keeps_set_hops)
theorem keeps_execClkHop (c : Cmd) {s : State} (hs : Keeps F s) (nPairs : F.pairs = none := by assumption)
    (nSyns : F.syns = none := by assumption) (nLanes : F.lanes = none := by assumption) :
    KeepsO F (execClkHop c s) := by
  unfold execClkHop
  apply keepsO_next
  with_reducible repeat' (first | assumption | (intro _) | apply keeps_command | apply keeps_actClkHop)
theorem keeps_actClkStep (c : Cmd) (e : Nat) {s : State} (hs : Keeps F s) (nSyns : F.syns = none := by assumption) :
    Keeps F (actClkStep c e s) := by
  unfold actClkStep
  with_reducible repeat' (first | assumption | apply keeps_complete | apply keeps_keepRunning | apply keeps_modSyn | split | (dsimp only; split))
theorem keeps_execClkStep (c : Cmd) {s : State} (hs : Keeps F s) (nSyns : F.syns = none := by assumption) :
    KeepsO F (execClkStep c s) := by
  unfold execClkStep
  apply keepsO_next
  with_reducible repeat' (first | assumption | (intro _) | apply keeps_command | apply keeps_actClkStep)
theorem keeps_actClkSpread (c : Cmd) (e : Nat) {s : State} (hs : Keeps F s) :
    Keeps F (actClkSpread c e s) := by
  unfold actClkSpread
  with_reducible repeat' (first | assumption | apply keeps_complete | apply keeps_wr | apply keeps_ite | split | (dsimp only; split))
theorem keeps_execClkSpread (c : Cmd) {s : State} (hs : Keeps F s) :
    KeepsO F (execClkSpread c s) := by
  unfold execClkSpread
  apply keepsO_next
  with_reducible repeat' (first | assumption | (intro _) | apply keeps_command | apply keeps_actClkSpread)
theorem keeps_set_pulse {s : State} {x0} (h : Keeps F s) : Keeps F { s with pulse := x0 } :=
  ⟨h.1, h.2, h.3, h.4, h.5, h.6, h.7, h.8⟩
theorem keeps_actClkSyncArm (c : Cmd) (e : Nat) {s : State} (hs : Keeps F s) :
    Keeps F (actClkSyncArm c e s) := by
  unfold actClkSyncArm
  with_reducible repeat' (first | assumption | (intro _) | apply keeps_complete | apply keeps_wrB | apply keeps_each | apply keeps_ite | split
                                | (dsimp only; split) | apply keeps_set_pulse)
theorem keeps_execClkSyncArm (c : Cmd) {s : State} (hs : Keeps F s) :
    KeepsO F (execClkSyncArm c s) := by
  unfold execClkSyncArm
  apply keepsO_next
  with_reducible repeat' (first | assumption | (intro _) | apply keeps_command | apply keeps_actClkSyncArm)
theorem keeps_selectSelector (c : Cmd) (e : Nat) (step : BitVec 16) (diff : Word) {s : State} (hs : Keeps F s)
    (nPorts : F.ports = none := by assumption) :
    Keeps F (selectSelector c e step diff s) := by
  unfold selectSelector
  with_reducible repeat' (first | assumption | apply keeps_complete | apply keeps_wrF | apply keeps_refSwitch | apply keeps_ite | split
                                | (dsimp only; split))
theorem keeps_selectRoot (c : Cmd) (e : Nat) {s : State} (hs : Keeps F s) (nPairs : F.pairs = none := by assumption) :
    Keeps F (selectRoot c e s) := by
  unfold selectRoot
  with_reducible repeat' (first | assumption | apply keeps_complete | apply keeps_rootSelect | apply keeps_storeRootWord | split
                                | (dsimp only; split))
theorem keeps_selectHost (c : Cmd) (e : Nat) {s : State} (hs : Keeps F s) :
    Keeps F (selectHost c e s) := by
  unfold selectHost
  with_reducible repeat' (first | assumption | apply keeps_complete | apply keeps_wrF | split | (dsimp only; split))
theorem keeps_actClkRefSelect (c : Cmd) (step : BitVec 16) (diff : Word) (e : Nat) {s : State} (hs : Keeps F s)
    (nPairs : F.pairs = none := by assumption) (nPorts : F.ports = none := by assumption) :
    Keeps F (actClkRefSelect c step diff e s) := by
  unfold actClkRefSelect
  with_reducible repeat' (first | assumption | apply keeps_selectHost | apply keeps_selectSelector | apply keeps_selectRoot | apply keeps_complete
                                | apply keeps_ite | split | (dsimp only; split))
theorem keeps_execClkRefSelect (c : Cmd) (step : BitVec 16) (diff : Word) {s : State} (hs : Keeps F s) (nPairs : F.pairs = none := by assumption)
    (nPorts : F.ports = none := by assumption) :
    KeepsO F (execClkRefSelect c step diff s) := by
  unfold execClkRefSelect
  apply keepsO_next
  with_reducible repeat' (first | assumption | (intro _) | apply keeps_command | apply keeps_actClkRefSelect)
theorem keeps_actClkStatus (c : Cmd) (e : Nat) {s : State} (hs : Keeps F s) :
    Keeps F (actClkStatus c e s) := by
  unfold actClkStatus
  with_reducible repeat' (first | assumption | apply keeps_complete | apply keeps_wrView | apply keeps_ite | split | (dsimp only; split))
theorem keeps_execClkStatus (c : Cmd) {s : State} (hs : Keeps F s) :
    KeepsO F (execClkStatus c s) := by
  unfold execClkStatus
  apply keepsO_next
  with_reducible repeat' (first | assumption | (intro _) | apply keeps_command | apply keeps_actClkStatus)

/-! ### Acnan -/

theorem keeps_laneFault (n cause : Nat) {s : State} (hs : Keeps F s) (nPairs : F.pairs = none := by assumption)
    (nLanes : F.lanes = none := by assumption) :
    Keeps F (laneFault n cause s) := by
  unfold laneFault
  with_reducible repeat' (first | assumption | apply keeps_streamsAbsent | apply keeps_wrF | apply keeps_setLaneState | apply keeps_modLane)
theorem keeps_reverseLanes (ls : List Nat) {s : State} (hs : Keeps F s) (nLanes : F.lanes = none := by assumption) :
    Keeps F (reverseLanes ls s) := by
  unfold reverseLanes
  with_reducible repeat' (first | assumption | (intro _) | apply keeps_wrB | apply keeps_wrF | apply keeps_modLane | apply keeps_each)
theorem keeps_settleOrder (p : Nat) {s : State} (hs : Keeps F s) (nPairs : F.pairs = none := by assumption)
    (nLanes : F.lanes = none := by assumption) :
    Keeps F (settleOrder p s) := by
  unfold settleOrder
  with_reducible repeat' (first | assumption | (intro _) | apply keeps_modLane | apply keeps_wrF | apply keeps_raise | apply keeps_reverseLanes
                                | apply keeps_laneFault | apply keeps_each | apply keeps_ite | split | (dsimp only; split))
theorem keeps_signPresence (x : HalfSign) (l : Nat) {s : State} (hs : Keeps F s) (nPairs : F.pairs = none := by assumption) :
    Keeps F (signPresence x l s) := by
  unfold signPresence
  with_reducible repeat' (first | assumption | apply keeps_setAbsent | split | (dsimp only; split))
theorem keeps_keepMarker (n u : Nat) (time : Word) {s : State} (hs : Keeps F s) (nLanes : F.lanes = none := by assumption) :
    Keeps F (keepMarker n u time s) := by
  unfold keepMarker
  with_reducible repeat' (first | assumption | apply keeps_modLane)
theorem keeps_laneSigns (n : Nat) (a b : HalfSign) {s : State} (hs : Keeps F s) (nPairs : F.pairs = none := by assumption) :
    Keeps F (laneSigns n a b s) := by
  unfold laneSigns
  with_reducible repeat' (first | assumption | apply keeps_signPresence)
theorem keeps_deskew (n : Nat) {s : State} (hs : Keeps F s) (nLanes : F.lanes = none := by assumption) :
    Keeps F (deskew n s) := by
  unfold deskew
  with_reducible repeat' (first | assumption | (intro _) | apply keeps_modLane | apply keeps_wrF | apply keeps_wrB | apply keeps_raise
                                | apply keeps_each | apply keeps_foldl | apply keepsR_foldl | apply keeps_ite | split | (dsimp only; split))
theorem keeps_firstLock (n u : Nat) (inv : Bool) {s : State} (hs : Keeps F s) (nPairs : F.pairs = none := by assumption)
    (nLanes : F.lanes = none := by assumption) :
    Keeps F (firstLock n u inv s) := by
  unfold firstLock
  with_reducible repeat' (first | assumption | apply keeps_laneFault | apply keeps_raise | apply keeps_wrB | apply keeps_setLaneState
                                | apply keeps_modLane | apply keeps_ite | split | (dsimp only; split))
theorem keeps_laterLock (n u : Nat) {s : State} (hs : Keeps F s) (nPairs : F.pairs = none := by assumption)
    (nLanes : F.lanes = none := by assumption) :
    Keeps F (laterLock n u s) := by
  unfold laterLock
  with_reducible repeat' (first | assumption | apply keeps_setLaneState | apply keeps_laneFault | apply keeps_ite | split | (dsimp only; split))
theorem keeps_markerLost (n : Nat) {s : State} (hs : Keeps F s) (nPairs : F.pairs = none := by assumption)
    (nLanes : F.lanes = none := by assumption) :
    Keeps F (markerLost n s) := by
  unfold markerLost
  with_reducible repeat' (first | assumption | apply keeps_streamsAbsent | apply keeps_count | apply keeps_modLane | apply keeps_ite | split
                                | (dsimp only; split))
theorem keeps_lockMarker (n : Nat) (p : BitVec 512) (time : Word) (a b : HalfSign) {s : State} (hs : Keeps F s)
    (nPairs : F.pairs = none := by assumption) (nLanes : F.lanes = none := by assumption) :
    Keeps F (lockMarker n p time a b s) := by
  unfold lockMarker
  with_reducible repeat' (first | assumption | apply keeps_laneFault | apply keeps_laterLock | apply keeps_firstLock | apply keeps_keepMarker
                                | apply keeps_settleOrder | apply keeps_laneSigns | apply keeps_deskew | apply keeps_count | apply keeps_ite
                                | split | (dsimp only; split))
theorem keeps_halvesIn (n : Nat) (x : HalfSign) {s : State} (hs : Keeps F s) :
    Keeps F (halvesIn n x s) := by
  unfold halvesIn
  with_reducible repeat' (first | assumption | apply keeps_draw | apply keeps_perfTally | apply keepsR_ite
                                | refine keepsR_eq (keeps_draw _ ?_) (by assumption) | split | (dsimp only; split) | apply keeps_snd)
theorem keeps_halvesOut (n l fills : Nat) {s : State} (hs : Keeps F s) :
    Keeps F (halvesOut n l fills s) := by
  unfold halvesOut
  with_reducible repeat' (first | assumption | apply keeps_perfTally | apply keeps_ite | split | (dsimp only; split))
theorem keeps_markerIn (n : Nat) (p : BitVec 512) (time : Word) (errs : Nat) (a b : HalfSign) {s : State} (hs : Keeps F s)
    (nPairs : F.pairs = none := by assumption) (nLanes : F.lanes = none := by assumption) :
    Keeps F (markerIn n p time errs a b s) := by
  unfold markerIn
  with_reducible repeat' (first | assumption | apply keeps_lockMarker | apply keeps_halvesIn | apply keeps_count | apply keeps_markerLost
                                | apply keeps_keepMarker | apply keeps_laneSigns | apply keeps_deskew | apply keeps_ite | split
                                | (dsimp only; split))
theorem keeps_execAcnanMarkerReceived (n : Lane) (p : BitVec 512) (time : Word) (errs : BitVec 16) (a b : HalfSign) {s : State} (hs : Keeps F s)
    (nPairs : F.pairs = none := by assumption) (nLanes : F.lanes = none := by assumption) :
    KeepsO F (execAcnanMarkerReceived n p time errs a b s) := by
  unfold execAcnanMarkerReceived
  apply keepsO_next
  with_reducible repeat' (first | assumption | apply keeps_markerIn)
theorem keeps_invalidHeader (n : Nat) (second : Bool) {s : State} (hs : Keeps F s) (nLanes : F.lanes = none := by assumption) :
    Keeps F (invalidHeader n second s) := by
  unfold invalidHeader
  with_reducible repeat' (first | assumption | apply keeps_count | apply keeps_modLane | apply keeps_ite | split | (dsimp only; split))
theorem keeps_execAcnanInvalidHeader (n : Lane) (second : Bool) {s : State} (hs : Keeps F s) (nLanes : F.lanes = none := by assumption) :
    KeepsO F (execAcnanInvalidHeader n second s) := by
  unfold execAcnanInvalidHeader
  apply keepsO_next
  with_reducible repeat' (first | assumption | apply keeps_invalidHeader)
theorem keeps_slipEnd (n : Nat) (found : Bool) {s : State} (hs : Keeps F s) (nPairs : F.pairs = none := by assumption)
    (nLanes : F.lanes = none := by assumption) :
    Keeps F (slipEnd n found s) := by
  unfold slipEnd
  with_reducible repeat' (first | assumption | apply keeps_modLane | apply keeps_count | apply keeps_laneLoseLock | apply keeps_ite | split
                                | (dsimp only; split))
theorem keeps_execAcnanSlipSearchEnd (n : Lane) (found : Bool) {s : State} (hs : Keeps F s) (nPairs : F.pairs = none := by assumption)
    (nLanes : F.lanes = none := by assumption) :
    KeepsO F (execAcnanSlipSearchEnd n found s) := by
  unfold execAcnanSlipSearchEnd
  apply keepsO_next
  with_reducible repeat' (first | assumption | apply keeps_slipEnd)
theorem keeps_execAcnanMarkerLost (n : Lane) {s : State} (hs : Keeps F s) (nPairs : F.pairs = none := by assumption)
    (nLanes : F.lanes = none := by assumption) :
    KeepsO F (execAcnanMarkerLost n s) := by
  unfold execAcnanMarkerLost
  apply keepsO_next
  with_reducible repeat' (first | assumption | apply keeps_markerLost | apply keeps_ite | split | (dsimp only; split))
theorem keeps_execAcnanElasticSlip (n : Lane) {s : State} (hs : Keeps F s) :
    KeepsO F (execAcnanElasticSlip n s) := by
  unfold execAcnanElasticSlip
  apply keepsO_next
  with_reducible repeat' (first | assumption | apply keeps_count | apply keeps_ite | split | (dsimp only; split))
theorem keeps_rxAsleep (n blocks : Nat) {s : State} (hs : Keeps F s) (nPairs : F.pairs = none := by assumption)
    (nLanes : F.lanes = none := by assumption) :
    Keeps F (rxAsleep n blocks s) := by
  unfold rxAsleep
  with_reducible repeat' (first | assumption | apply keeps_streamsAbsent | apply keeps_setLaneState | apply keeps_modLane
                                | apply keeps_laneLoseLock | apply keeps_ite | split | (dsimp only; split))
theorem keeps_execAcnanRxAsleep (n : Lane) (blocks : Word) {s : State} (hs : Keeps F s) (nPairs : F.pairs = none := by assumption)
    (nLanes : F.lanes = none := by assumption) :
    KeepsO F (execAcnanRxAsleep n blocks s) := by
  unfold execAcnanRxAsleep
  apply keepsO_next
  with_reducible repeat' (first | assumption | apply keeps_rxAsleep)
theorem keeps_signalDetect (n : Nat) {s : State} (hs : Keeps F s) :
    Keeps F (signalDetect n s) := by
  unfold signalDetect
  with_reducible repeat' (first | assumption | apply keeps_beginWake | apply keeps_setLaneState | apply keeps_ite | split | (dsimp only; split))
theorem keeps_execAcnanSignalDetect (n : Lane) {s : State} (hs : Keeps F s) :
    KeepsO F (execAcnanSignalDetect n s) := by
  unfold execAcnanSignalDetect
  apply keepsO_next
  with_reducible repeat' (first | assumption | apply keeps_signalDetect)
theorem keeps_freshSeed {s : State} (hs : Keeps F s) :
    KeepsR F (freshSeed s) := by
  unfold freshSeed
  with_reducible repeat' (first | assumption | apply keeps_draw | apply keepsR_ite | refine keepsR_eq (keeps_draw _ ?_) (by assumption) | split
                                | (dsimp only; split) | apply keeps_snd | apply keepsR_mk)
theorem keeps_sendMarker (n : Nat) (early sleep wake : Bool) (mseq : BitVec 16) {s : State} (hs : Keeps F s)
    (nLanes : F.lanes = none := by assumption) :
    Keeps F (sendMarker n early sleep wake mseq s) := by
  unfold sendMarker
  with_reducible repeat' (first | assumption | apply keeps_freshSeed | apply keeps_modLane | apply keepsR_ite
                                | refine keepsR_eq (keeps_freshSeed ?_) (by assumption) | split | (dsimp only; split) | apply keeps_snd)
theorem keeps_sendMarkers (p : Nat) (early : Bool) {s : State} (hs : Keeps F s) (nPorts : F.ports = none := by assumption)
    (nLanes : F.lanes = none := by assumption) :
    Keeps F (sendMarkers p early s) := by
  unfold sendMarkers
  with_reducible repeat' (first | assumption | (intro _) | apply keeps_modPort | apply keeps_sendMarker | apply keeps_each | apply keeps_ite
                                | split | (dsimp only; split))
theorem keeps_sendBreaks (n : Nat) {s : State} (hs : Keeps F s) (nLanes : F.lanes = none := by assumption) :
    Keeps F (sendBreaks n s) := by
  unfold sendBreaks
  with_reducible repeat' (first | assumption | apply keeps_count | apply keeps_modLane | apply keeps_ite | split | (dsimp only; split))
theorem keeps_fillMin (n : Nat) (f : Word) {s : State} (hs : Keeps F s) :
    Keeps F (fillMin n f s) := by
  unfold fillMin
  with_reducible repeat' (first | assumption | apply keeps_mapViews | apply keeps_ite | split | (dsimp only; split))
theorem keeps_queueDrift (l : Nat) {s : State} (hs : Keeps F s) (nPairs : F.pairs = none := by assumption) :
    Keeps F (queueDrift l s) := by
  unfold queueDrift
  with_reducible repeat' (first | assumption | apply keeps_draw | apply keeps_modPair | apply keeps_ite | apply keepsR_ite
                                | refine keepsR_eq (keeps_draw _ ?_) (by assumption) | split | (dsimp only; split) | apply keeps_snd)
theorem keeps_scheduledMarker (p : Nat) (fills : List Word) {s : State} (hs : Keeps F s) (nPairs : F.pairs = none := by assumption)
    (nPorts : F.ports = none := by assumption) (nLanes : F.lanes = none := by assumption) :
    Keeps F (scheduledMarker p fills s) := by
  unfold scheduledMarker
  with_reducible repeat' (first | assumption | (intro _) | apply keeps_halvesOut | apply keeps_queueDrift | apply keeps_fillMin
                                | apply keeps_sendBreaks | apply keeps_sendMarkers | apply keeps_each | apply keeps_ite | split
                                | (dsimp only; split))
theorem keeps_execAcnanScheduledMarker (p : Port) (fills : List Word) {s : State} (hs : Keeps F s) (nPairs : F.pairs = none := by assumption)
    (nPorts : F.ports = none := by assumption) (nLanes : F.lanes = none := by assumption) :
    KeepsO F (execAcnanScheduledMarker p fills s) := by
  unfold execAcnanScheduledMarker
  apply keepsO_next
  with_reducible repeat' (first | assumption | apply keeps_scheduledMarker)
theorem keeps_stuffOverflow (n : Nat) {s : State} (hs : Keeps F s) (nPorts : F.ports = none := by assumption)
    (nLanes : F.lanes = none := by assumption) :
    Keeps F (stuffOverflow n s) := by
  unfold stuffOverflow
  with_reducible repeat' (first | assumption | (intro _) | apply keeps_sendMarkers | apply keeps_sendBreaks | apply keeps_count | apply keeps_each
                                | apply keeps_ite | split | (dsimp only; split))
theorem keeps_execAcnanStuffOverflow (n : Lane) {s : State} (hs : Keeps F s) (nPorts : F.ports = none := by assumption)
    (nLanes : F.lanes = none := by assumption) :
    KeepsO F (execAcnanStuffOverflow n s) := by
  unfold execAcnanStuffOverflow
  apply keepsO_next
  with_reducible repeat' (first | assumption | apply keeps_stuffOverflow)
theorem keeps_laneQueueOverflow (l words : Nat) {s : State} (hs : Keeps F s) (nPairs : F.pairs = none := by assumption)
    (nLanes : F.lanes = none := by assumption) :
    Keeps F (laneQueueOverflow l words s) := by
  unfold laneQueueOverflow
  with_reducible repeat' (first | assumption | apply keeps_modPair | apply keeps_count | apply keeps_raise | apply keeps_breakDue
                                | apply keeps_ite | split | (dsimp only; split))
theorem keeps_execHlGbxOverflow (l : Pair) (words : Word) {s : State} (hs : Keeps F s) (nPairs : F.pairs = none := by assumption)
    (nLanes : F.lanes = none := by assumption) :
    KeepsO F (execHlGbxOverflow l words s) := by
  unfold execHlGbxOverflow
  apply keepsO_next
  with_reducible repeat' (first | assumption | apply keeps_laneQueueOverflow)
theorem keeps_sleepMseq (n : Nat) {s : State} (hs : Keeps F s) (nPorts : F.ports = none := by assumption) :
    Keeps F (sleepMseq n s) := by
  unfold sleepMseq
  with_reducible repeat' (first | assumption | apply keeps_modPort | apply keeps_ite | split | (dsimp only; split))
theorem keeps_laneSleep (n : Nat) {s : State} (hs : Keeps F s) (nPorts : F.ports = none := by assumption)
    (nLanes : F.lanes = none := by assumption) :
    Keeps F (laneSleep n s) := by
  unfold laneSleep
  with_reducible repeat' (first | assumption | apply keeps_setLaneState | apply keeps_sendMarker | apply keeps_sleepMseq | apply keeps_ite | split
                                | (dsimp only; split))
theorem keeps_execAcnanLaneSleep (n : Lane) {s : State} (hs : Keeps F s) (nPorts : F.ports = none := by assumption)
    (nLanes : F.lanes = none := by assumption) :
    KeepsO F (execAcnanLaneSleep n s) := by
  unfold execAcnanLaneSleep
  apply keepsO_next
  with_reducible repeat' (first | assumption | apply keeps_laneSleep)
theorem keeps_laneWaking (n : Nat) {s : State} (hs : Keeps F s) (nPairs : F.pairs = none := by assumption) :
    Keeps F (laneWaking n s) := by
  unfold laneWaking
  with_reducible repeat' (first | assumption | (intro _) | apply keeps_modPair | apply keeps_setLaneState | apply keeps_each)
theorem keeps_laneWake (n : Nat) {s : State} (hs : Keeps F s) (nPairs : F.pairs = none := by assumption)
    (nLanes : F.lanes = none := by assumption) :
    Keeps F (laneWake n s) := by
  unfold laneWake
  with_reducible repeat' (first | assumption | apply keeps_sendMarker | apply keeps_laneWaking | apply keeps_count | apply keeps_setLaneState
                                | apply keeps_modLane | apply keeps_ite | split | (dsimp only; split))
theorem keeps_execAcnanLaneWake (n : Lane) {s : State} (hs : Keeps F s) (nPairs : F.pairs = none := by assumption)
    (nLanes : F.lanes = none := by assumption) :
    KeepsO F (execAcnanLaneWake n s) := by
  unfold execAcnanLaneWake
  apply keepsO_next
  with_reducible repeat' (first | assumption | apply keeps_laneWake)
theorem keeps_hlCtlWrite (n : Nat) (w : Word) {s : State} (hs : Keeps F s) (nPairs : F.pairs = none := by assumption)
    (nLanes : F.lanes = none := by assumption) :
    Keeps F (hlCtlWrite n w s) := by
  unfold hlCtlWrite
  with_reducible repeat' (first | assumption | apply keeps_wr | apply keeps_laneStart | apply keeps_laneStop | apply keeps_laneWaking
                                | apply keeps_ite | split | (dsimp only; split))
theorem keeps_hlConfigure (q : Word × Word) (n : Nat) {s : State} (hs : Keeps F s) (nPairs : F.pairs = none := by assumption)
    (nLanes : F.lanes = none := by assumption) :
    Keeps F (hlConfigure q n s) := by
  unfold hlConfigure
  with_reducible repeat' (first | assumption | apply keeps_hlCtlWrite | apply keeps_modLane | apply keeps_laneStart | apply keeps_wrF
                                | apply keeps_ite | split | (dsimp only; split) | apply keeps_snd)
theorem keeps_actHlConfigure (c : Cmd) (e : Nat) {s : State} (hs : Keeps F s) (nPairs : F.pairs = none := by assumption)
    (nLanes : F.lanes = none := by assumption) :
    Keeps F (actHlConfigure c e s) := by
  unfold actHlConfigure
  with_reducible repeat' (first | assumption | (intro _) | apply keeps_complete | apply keeps_hlConfigure | apply keeps_each | split
                                | (dsimp only; split))
theorem keeps_execHlConfigure (c : Cmd) {s : State} (hs : Keeps F s) (nPairs : F.pairs = none := by assumption)
    (nLanes : F.lanes = none := by assumption) :
    KeepsO F (execHlConfigure c s) := by
  unfold execHlConfigure
  apply keepsO_next
  with_reducible repeat' (first | assumption | (intro _) | apply keeps_command | apply keeps_actHlConfigure)
theorem keeps_actHlStatus (c : Cmd) (e : Nat) {s : State} (hs : Keeps F s) :
    Keeps F (actHlStatus c e s) := by
  unfold actHlStatus
  with_reducible repeat' (first | assumption | apply keeps_complete | apply keeps_wrView)
theorem keeps_execHlStatus (c : Cmd) {s : State} (hs : Keeps F s) :
    KeepsO F (execHlStatus c s) := by
  unfold execHlStatus
  apply keepsO_next
  with_reducible repeat' (first | assumption | (intro _) | apply keeps_command | apply keeps_actHlStatus)
theorem keeps_actHlCtleSet (c : Cmd) (e : Nat) {s : State} (hs : Keeps F s) (nLanes : F.lanes = none := by assumption) :
    Keeps F (actHlCtleSet c e s) := by
  unfold actHlCtleSet
  with_reducible repeat' (first | assumption | apply keeps_complete | apply keeps_keepRunning | apply keeps_modLane | apply keeps_wrF
                                | apply keeps_ite | split | (dsimp only; split))
theorem keeps_execHlCtleSet (c : Cmd) {s : State} (hs : Keeps F s) (nLanes : F.lanes = none := by assumption) :
    KeepsO F (execHlCtleSet c s) := by
  unfold execHlCtleSet
  apply keepsO_next
  with_reducible repeat' (first | assumption | (intro _) | apply keeps_command | apply keeps_actHlCtleSet)

/-! ### Units -/

theorem keeps_scrub (lo n : Nat) (keep : Nat → Word) {s : State} (hs : Keeps F s) :
    Keeps F (scrub lo n keep s) := by
  unfold scrub
  with_reducible repeat' (first | assumption | (intro _) | apply keeps_wr | apply keeps_foldl | apply keepsR_foldl | apply keeps_snd)
theorem keeps_scrubViews (lo n : Nat) {s : State} (hs : Keeps F s) :
    Keeps F (scrubViews lo n s) := by
  unfold scrubViews
  with_reducible repeat' (first | assumption | apply keeps_set_views)
theorem keeps_pairLost (l back : Nat) {s : State} (hs : Keeps F s) (nPairs : F.pairs = none := by assumption)
    (nTiles : F.tiles = none := by assumption) (nRuns : F.runs = none := by assumption) (nCaptures : F.captures = none := by assumption) :
    Keeps F (pairLost l back s) := by
  unfold pairLost
  with_reducible repeat' (first | assumption | apply keeps_modPair | apply keeps_banksLost | apply keeps_abortRun)
theorem keeps_laneCommandsEnd (n : Nat) {s : State} (hs : Keeps F s) :
    Keeps F (laneCommandsEnd n s) := by
  unfold laneCommandsEnd
  with_reducible repeat' (first | assumption | apply keeps_complete | split | (dsimp only; split))
theorem keeps_laneLost (n : Nat) {s : State} (hs : Keeps F s) (nPairs : F.pairs = none := by assumption)
    (nLanes : F.lanes = none := by assumption) :
    Keeps F (laneLost n s) := by
  unfold laneLost
  with_reducible repeat' (first | assumption | apply keeps_modLane | apply keeps_setLaneState | apply keeps_laneCommandsEnd
                                | apply keeps_streamsAbsent | apply keeps_ite | split | (dsimp only; split))
theorem keeps_synCommandsEnd (i : Nat) {s : State} (hs : Keeps F s) (nSyns : F.syns = none := by assumption) :
    Keeps F (synCommandsEnd i s) := by
  unfold synCommandsEnd
  with_reducible repeat' (first | assumption | (intro _) | apply keeps_hopCut | apply keeps_modSyn | apply keeps_complete | apply keeps_foldl
                                | apply keepsR_foldl)
theorem keeps_synLost (i : Nat) {s : State} (hs : Keeps F s) (nPairs : F.pairs = none := by assumption) (nSyns : F.syns = none := by assumption)
    (nLanes : F.lanes = none := by assumption) :
    Keeps F (synLost i s) := by
  unfold synLost
  with_reducible repeat' (first | assumption | apply keeps_outputStops | apply keeps_wrF | apply keeps_synCommandsEnd)
theorem keeps_synRelock (i : Nat) {s : State} (hs : Keeps F s) (nPairs : F.pairs = none := by assumption) (nSyns : F.syns = none := by assumption)
    (nLanes : F.lanes = none := by assumption) :
    Keeps F (synRelock i s) := by
  unfold synRelock
  with_reducible repeat' (first | assumption | apply keeps_synAgain | apply keeps_ite | split | (dsimp only; split))
theorem keeps_synWake (i : Nat) {s : State} (hs : Keeps F s) (nPairs : F.pairs = none := by assumption) (nSyns : F.syns = none := by assumption)
    (nLanes : F.lanes = none := by assumption) :
    Keeps F (synWake i s) := by
  unfold synWake
  with_reducible repeat' (first | assumption | apply keeps_synHop | apply keeps_ite | split | (dsimp only; split))
theorem keeps_synRestart (i : Nat) {s : State} (hs : Keeps F s) (nPairs : F.pairs = none := by assumption)
    (nSyns : F.syns = none := by assumption) (nLanes : F.lanes = none := by assumption) :
    Keeps F (synRestart i s) := by
  unfold synRestart
  with_reducible repeat' (first | assumption | apply keeps_synEnable | apply keeps_ite | split | (dsimp only; split))
theorem keeps_set_discards {s : State} {x0} (h : Keeps F s) : Keeps F { s with discards := x0 } :=
  ⟨h.1, h.2, h.3, h.4, h.5, h.6, h.7, h.8⟩
theorem keeps_pairRestart (l : Nat) {s : State} (hs : Keeps F s) (nLinks : F.links = none := by assumption)
    (nPairs : F.pairs = none := by assumption) (nPorts : F.ports = none := by assumption) (nTiles : F.tiles = none := by assumption)
    (nRuns : F.runs = none := by assumption) (nCaptures : F.captures = none := by assumption) (nSyns : F.syns = none := by assumption)
    (nLanes : F.lanes = none := by assumption) :
    Keeps F (pairRestart l s) := by
  unfold pairRestart
  with_reducible repeat' (first | assumption | apply keeps_linksLoseBanks | apply keeps_banksCut | apply keeps_modPair | apply keeps_pairLost
                                | apply keeps_scrub | apply keeps_ite | split | (dsimp only; split) | apply keeps_set_discards)
theorem keeps_portLost (p back : Nat) (rw cnt : Bool) {s : State} (hs : Keeps F s) (nLinks : F.links = none := by assumption)
    (nPairs : F.pairs = none := by assumption) (nPorts : F.ports = none := by assumption) (nTiles : F.tiles = none := by assumption)
    (nRuns : F.runs = none := by assumption) (nCaptures : F.captures = none := by assumption) (nSyns : F.syns = none := by assumption)
    (nLanes : F.lanes = none := by assumption) :
    Keeps F (portLost p back rw cnt s) := by
  unfold portLost
  with_reducible repeat' (first | assumption | (intro _) | apply keeps_linksLoseBanks | apply keeps_banksCut | apply keeps_modLink
                                | apply keeps_complete | apply keeps_pairLost | apply keeps_synLost | apply keeps_laneLost | apply keeps_modPort
                                | apply keeps_scrubViews | apply keeps_scrub | apply keeps_each | split | (dsimp only; split))
theorem keeps_portReset (p : Nat) {s : State} (hs : Keeps F s) (nLinks : F.links = none := by assumption)
    (nPairs : F.pairs = none := by assumption) (nPorts : F.ports = none := by assumption) (nTiles : F.tiles = none := by assumption)
    (nRuns : F.runs = none := by assumption) (nCaptures : F.captures = none := by assumption) (nSyns : F.syns = none := by assumption)
    (nLanes : F.lanes = none := by assumption) :
    Keeps F (portReset p s) := by
  unfold portReset
  with_reducible repeat' (first | assumption | apply keeps_portLost | apply keeps_modPort | apply keeps_ite | split | (dsimp only; split)
                                | apply keeps_set_discards)
theorem keeps_tileWorkLost (t : Nat) {s : State} (hs : Keeps F s) (nTiles : F.tiles = none := by assumption)
    (nRuns : F.runs = none := by assumption) (nCaptures : F.captures = none := by assumption) :
    Keeps F (tileWorkLost t s) := by
  unfold tileWorkLost
  with_reducible repeat' (first | assumption | (intro _) | apply keeps_abortRun | apply keeps_complete | apply keeps_putRuns | apply keeps_putCaps
                                | apply keeps_dropHostCapture | apply keeps_completeAll | apply keeps_modTile | apply keeps_each
                                | apply keeps_foldl | apply keepsR_foldl | apply keeps_ite | split | (dsimp only; split))
theorem keeps_unverify (l : Nat) {s : State} (hs : Keeps F s) (nPairs : F.pairs = none := by assumption) :
    Keeps F (unverify l s) := by
  unfold unverify
  with_reducible repeat' (first | assumption | (intro _) | apply keeps_setSlot | apply keeps_each | apply keeps_ite | split | (dsimp only; split))
theorem keeps_set_perfWins {s : State} {x0} (h : Keeps F s) : Keeps F { s with perfWins := x0 } :=
  ⟨h.1, h.2, h.3, h.4, h.5, h.6, h.7, h.8⟩
theorem keeps_perfLost (t : Nat) {s : State} (hs : Keeps F s) :
    Keeps F (perfLost t s) := by
  unfold perfLost
  with_reducible repeat' (first | assumption | apply keeps_ite | split | (dsimp only; split) | apply keeps_set_perfAcc | apply keeps_set_perfWins)
theorem keeps_tileReset (t : Nat) {s : State} (hs : Keeps F s) (nLinks : F.links = none := by assumption)
    (nPairs : F.pairs = none := by assumption) (nPorts : F.ports = none := by assumption) (nTiles : F.tiles = none := by assumption)
    (nRuns : F.runs = none := by assumption) (nCaptures : F.captures = none := by assumption) (nSyns : F.syns = none := by assumption)
    (nLanes : F.lanes = none := by assumption) :
    Keeps F (tileReset t s) := by
  unfold tileReset
  with_reducible repeat' (first | assumption | (intro _) | apply keeps_portLost | apply keeps_tileWorkLost | apply keeps_modPair
                                | apply keeps_unverify | apply keeps_modPort | apply keeps_perfLost | apply keeps_scrubViews | apply keeps_scrub
                                | apply keeps_synLost | apply keeps_modTile | apply keeps_each | apply keeps_ite | split | (dsimp only; split)
                                | apply keeps_set_discards)
theorem keeps_unitResetEvent (kind : Nat) (unit : BitVec 16) {s : State} (hs : Keeps F s) :
    Keeps F (unitResetEvent kind unit s) := by
  unfold unitResetEvent
  with_reducible repeat' (first | assumption | apply keeps_raise | apply keeps_set_discards)
theorem keeps_lanesStart (p : Nat) {s : State} (hs : Keeps F s) :
    Keeps F (lanesStart p s) := by
  unfold lanesStart
  with_reducible repeat' (first | assumption | (intro _) | apply keeps_laneStart | apply keeps_each | apply keeps_ite | split | (dsimp only; split))
theorem keeps_pairsToSyn (p : Nat) {s : State} (hs : Keeps F s) (nPairs : F.pairs = none := by assumption) :
    Keeps F (pairsToSyn p s) := by
  unfold pairsToSyn
  with_reducible repeat' (first | assumption | (intro _) | apply keeps_lineMux | apply keeps_wrB | apply keeps_each)
theorem keeps_resetComplete (kind u : Nat) {s : State} (hs : Keeps F s) (nPairs : F.pairs = none := by assumption)
    (nPorts : F.ports = none := by assumption) (nTiles : F.tiles = none := by assumption) (nSyns : F.syns = none := by assumption)
    (nLanes : F.lanes = none := by assumption) :
    Keeps F (resetComplete kind u s) := by
  unfold resetComplete
  with_reducible repeat' (first | assumption | (intro _) | apply keeps_unitResetEvent | apply keeps_modPair | apply keeps_lanesStart
                                | apply keeps_synRelock | apply keeps_modPort | apply keeps_synRestart | apply keeps_modTile
                                | apply keeps_pairsToSyn | apply keeps_each | apply keeps_ite | split | (dsimp only; split))
theorem keeps_execResetComplete (kind : BitVec 3) (u : Pair) {s : State} (hs : Keeps F s) (nPairs : F.pairs = none := by assumption)
    (nPorts : F.ports = none := by assumption) (nTiles : F.tiles = none := by assumption) (nSyns : F.syns = none := by assumption)
    (nLanes : F.lanes = none := by assumption) :
    KeepsO F (execResetComplete kind u s) := by
  unfold execResetComplete
  apply keepsO_next
  with_reducible repeat' (first | assumption | apply keeps_resetComplete)
theorem keeps_discard (units : List Nat) (n : Nat) {s : State} (hs : Keeps F s) :
    Keeps F (discard units n s) := by
  unfold discard
  with_reducible repeat' (first | assumption | apply keeps_ite | split | (dsimp only; split) | apply keeps_snd | apply keeps_set_discards)
theorem keeps_queueDiscards (bridge : Bool) (u n : Nat) {s : State} (hs : Keeps F s) (nPairs : F.pairs = none := by assumption)
    (nLanes : F.lanes = none := by assumption) :
    Keeps F (queueDiscards bridge u n s) := by
  unfold queueDiscards
  with_reducible repeat' (first | assumption | apply keeps_discard | apply keeps_count | apply keeps_modPair | apply keeps_breakDue
                                | apply keeps_ite | split | (dsimp only; split))
theorem keeps_execGearboxResetHandshake (bridge : Bool) (u : Pair) (n : Word) {s : State} (hs : Keeps F s)
    (nPairs : F.pairs = none := by assumption) (nLanes : F.lanes = none := by assumption) :
    KeepsO F (execGearboxResetHandshake bridge u n s) := by
  unfold execGearboxResetHandshake
  apply keepsO_next
  with_reducible repeat' (first | assumption | apply keeps_queueDiscards)
theorem keeps_queueResumes (l : Nat) {s : State} (hs : Keeps F s) (nPairs : F.pairs = none := by assumption) :
    Keeps F (queueResumes l s) := by
  unfold queueResumes
  with_reducible repeat' (first | assumption | apply keeps_modPair | apply keeps_ite | split | (dsimp only; split))
theorem keeps_execGearboxHandshakeEnd (l : Pair) {s : State} (hs : Keeps F s) (nPairs : F.pairs = none := by assumption) :
    KeepsO F (execGearboxHandshakeEnd l s) := by
  unfold execGearboxHandshakeEnd
  apply keepsO_next
  with_reducible repeat' (first | assumption | apply keeps_queueResumes)
theorem keeps_portUnpowered (p : Nat) (off : Bool) {s : State} (hs : Keeps F s) (nLinks : F.links = none := by assumption)
    (nPairs : F.pairs = none := by assumption) (nPorts : F.ports = none := by assumption) (nTiles : F.tiles = none := by assumption)
    (nRuns : F.runs = none := by assumption) (nCaptures : F.captures = none := by assumption) (nSyns : F.syns = none := by assumption)
    (nLanes : F.lanes = none := by assumption) :
    Keeps F (portUnpowered p off s) := by
  unfold portUnpowered
  with_reducible repeat' (first | assumption | (intro _) | apply keeps_portLost | apply keeps_modPair | apply keeps_each)
theorem keeps_portPowered (p : Nat) (off : Bool) {s : State} (hs : Keeps F s) (nPairs : F.pairs = none := by assumption)
    (nSyns : F.syns = none := by assumption) (nLanes : F.lanes = none := by assumption) :
    Keeps F (portPowered p off s) := by
  unfold portPowered
  with_reducible repeat' (first | assumption | apply keeps_pairsToSyn | apply keeps_lanesStart | apply keeps_synRestart | apply keeps_synRelock
                                | apply keeps_synWake
                                | apply keeps_ite | split | (dsimp only; split))
theorem keeps_storesLost (g : Nat) {s : State} (hs : Keeps F s) (nTakes : F.takes = none := by assumption)
    (nPairs : F.pairs = none := by assumption) :
    Keeps F (storesLost g s) := by
  unfold storesLost
  with_reducible repeat' (first | assumption | (intro _) | apply keeps_clearSlot | apply keeps_each)
theorem keeps_tileUnpowered (t : Nat) (off : Bool) {s : State} (hs : Keeps F s) (nTakes : F.takes = none := by assumption)
    (nPairs : F.pairs = none := by assumption) (nSyns : F.syns = none := by assumption) (nLanes : F.lanes = none := by assumption) :
    Keeps F (tileUnpowered t off s) := by
  unfold tileUnpowered
  with_reducible repeat' (first | assumption | (intro _) | apply keeps_storesLost | apply keeps_modPair | apply keeps_synLost
                                | apply keeps_perfLost | apply keeps_scrubViews | apply keeps_scrub | apply keeps_each | apply keeps_foldl
                                | apply keepsR_foldl | apply keeps_ite | split | (dsimp only; split))
theorem keeps_tilePowered (t : Nat) (off : Bool) {s : State} (hs : Keeps F s) (nPairs : F.pairs = none := by assumption)
    (nSyns : F.syns = none := by assumption) (nLanes : F.lanes = none := by assumption) :
    Keeps F (tilePowered t off s) := by
  unfold tilePowered
  with_reducible repeat' (first | assumption | apply keeps_synRestart | apply keeps_synRelock | apply keeps_synWake | apply keeps_ite | split
                                | (dsimp only; split))

/-! ### Chain -/

theorem keeps_modChain (f : ChainSt → ChainSt) {s : State} (hs : Keeps F s) :
    Keeps F (modChain f s) := by
  unfold modChain
  with_reducible repeat' (first | assumption | apply keeps_set_chain)
theorem keeps_sendFrame (type dst ext : Nat) (payload : List Byte) {s : State} (hs : Keeps F s) :
    Keeps F (sendFrame type dst ext payload s) := by
  unfold sendFrame
  with_reducible repeat' (first | assumption | apply keeps_modChain | apply keeps_emit)
theorem keeps_passFrame (type dst ext : Nat) (payload : List Byte) {s : State} (hs : Keeps F s) :
    Keeps F (passFrame type dst ext payload s) := by
  unfold passFrame
  with_reducible repeat' (first | assumption | apply keeps_emit)
theorem keeps_received (f : Fate) (act : State → State) {s : State} (hact : ∀ a0, Keeps F a0 → Keeps F (act a0)) (hs : Keeps F s) :
    Keeps F (received f act s) := by
  unfold received
  with_reducible repeat' (first | assumption | apply hact | apply keeps_count | apply keeps_ite | split | (dsimp only; split))
theorem keeps_forwardedDown {s : State} (hs : Keeps F s) :
    Keeps F (forwardedDown s) := by
  unfold forwardedDown
  with_reducible repeat' (first | assumption | (intro _) | apply keeps_finish | apply keeps_foldl | apply keepsR_foldl)
theorem keeps_ringBroken (src : Nat) {s : State} (hs : Keeps F s) :
    Keeps F (ringBroken src s) := by
  unfold ringBroken
  with_reducible repeat' (first | assumption | apply keeps_modChain | apply keeps_forwardedDown | apply keeps_raise | apply keeps_wrB
                                | apply keeps_ite | split | (dsimp only; split))
theorem keeps_execRingBrokenTimeout {s : State} (hs : Keeps F s) :
    KeepsO F (execRingBrokenTimeout s) := by
  unfold execRingBrokenTimeout
  apply keepsO_next
  with_reducible repeat' (first | assumption | apply keeps_ringBroken | apply keeps_ite | split | (dsimp only; split))
theorem keeps_inLoss (f : Fate) (src : Byte) {s : State} (hs : Keeps F s) :
    Keeps F (inLoss f src s) := by
  unfold inLoss
  with_reducible repeat' (first | assumption | (intro _) | apply keeps_received | apply keeps_ringBroken | apply keeps_passFrame | apply keeps_ite
                                | split | (dsimp only; split))
theorem keeps_execInLossFrame (f : Fate) (src : Byte) {s : State} (hs : Keeps F s) :
    KeepsO F (execInLossFrame f src s) := by
  unfold execInLossFrame
  apply keepsO_next
  with_reducible repeat' (first | assumption | apply keeps_inLoss)
theorem keeps_chainInLoss {s : State} (hs : Keeps F s) :
    Keeps F (chainInLoss s) := by
  unfold chainInLoss
  with_reducible repeat' (first | assumption | apply keeps_raise | apply keeps_wrB | apply keeps_ite | split | (dsimp only; split))
theorem keeps_execChainInLoss {s : State} (hs : Keeps F s) :
    KeepsO F (execChainInLoss s) := by
  unfold execChainInLoss
  apply keepsO_next
  with_reducible repeat' (first | assumption | apply keeps_chainInLoss)
theorem keeps_execInLossFrameSend {s : State} (hs : Keeps F s) :
    KeepsO F (execInLossFrameSend s) := by
  unfold execInLossFrameSend
  apply keepsO_next
  with_reducible repeat' (first | assumption | apply keeps_sendFrame | apply keeps_ite | split | (dsimp only; split))
theorem keeps_chainInRelock {s : State} (hs : Keeps F s) :
    Keeps F (chainInRelock s) := by
  unfold chainInRelock
  with_reducible repeat' (first | assumption | apply keeps_wrB | apply keeps_beginWake | apply keeps_ite | split | (dsimp only; split))
theorem keeps_execChainInRelock {s : State} (hs : Keeps F s) :
    KeepsO F (execChainInRelock s) := by
  unfold execChainInRelock
  apply keepsO_next
  with_reducible repeat' (first | assumption | apply keeps_chainInRelock)
theorem keeps_chainRestart {s : State} (hs : Keeps F s) :
    Keeps F (chainRestart s) := by
  unfold chainRestart
  with_reducible repeat' (first | assumption | apply keeps_complete | apply keeps_forwardedDown | apply keeps_modChain | apply keeps_wr
                                | apply keeps_ite | split | (dsimp only; split))
theorem keeps_chainCtlWrite (w : Word) {s : State} (hs : Keeps F s) :
    Keeps F (chainCtlWrite w s) := by
  unfold chainCtlWrite
  with_reducible repeat' (first | assumption | apply keeps_chainRestart | apply keeps_ite | split | (dsimp only; split))
theorem keeps_actChainEnumerate (e : Nat) {s : State} (hs : Keeps F s) :
    Keeps F (actChainEnumerate e s) := by
  unfold actChainEnumerate
  with_reducible repeat' (first | assumption | apply keeps_complete | apply keeps_keepRunning | apply keeps_sendFrame | apply keeps_modChain
                                | apply keeps_ite | split | (dsimp only; split))
theorem keeps_execChainEnumerate (c : Cmd) {s : State} (hs : Keeps F s) :
    KeepsO F (execChainEnumerate c s) := by
  unfold execChainEnumerate
  apply keepsO_next
  with_reducible repeat' (first | assumption | (intro _) | apply keeps_command | apply keeps_actChainEnumerate)
theorem keeps_tokenFrame (f : Fate) (v : Nat) {s : State} (hs : Keeps F s) :
    Keeps F (tokenFrame f v s) := by
  unfold tokenFrame
  with_reducible repeat' (first | assumption | (intro _) | apply keeps_received | apply keeps_sendFrame | apply keeps_modChain
                                | apply keeps_passFrame | apply keeps_ite | split | (dsimp only; split))
theorem keeps_execTokenFrame (f : Fate) (v : Byte) {s : State} (hs : Keeps F s) :
    KeepsO F (execTokenFrame f v s) := by
  unfold execTokenFrame
  apply keepsO_next
  with_reducible repeat' (first | assumption | apply keeps_tokenFrame)
theorem keeps_enumerationEnd (e v : Nat) {s : State} (hs : Keeps F s) :
    Keeps F (enumerationEnd e v s) := by
  unfold enumerationEnd
  with_reducible repeat' (first | assumption | apply keeps_wrB | apply keeps_wrF | apply keeps_modChain | apply keeps_raise | apply keeps_complete
                                | apply keeps_ite | split | (dsimp only; split))
theorem keeps_commitFrame (f : Fate) {s : State} (hs : Keeps F s) :
    Keeps F (commitFrame f s) := by
  unfold commitFrame
  with_reducible repeat' (first | assumption | (intro _) | apply keeps_received | apply keeps_enumerationEnd | apply keeps_wrF | apply keeps_wrB
                                | apply keeps_passFrame | apply keeps_modChain | apply keeps_ite | split | (dsimp only; split))
theorem keeps_execCommitFrame (f : Fate) {s : State} (hs : Keeps F s) :
    KeepsO F (execCommitFrame f s) := by
  unfold execCommitFrame
  apply keepsO_next
  with_reducible repeat' (first | assumption | apply keeps_commitFrame)
theorem keeps_enumerationTimeout {s : State} (hs : Keeps F s) :
    Keeps F (enumerationTimeout s) := by
  unfold enumerationTimeout
  with_reducible repeat' (first | assumption | apply keeps_complete | apply keeps_modChain | split | (dsimp only; split))
theorem keeps_execEnumerationTimeout {s : State} (hs : Keeps F s) :
    KeepsO F (execEnumerationTimeout s) := by
  unfold execEnumerationTimeout
  apply keepsO_next
  with_reducible repeat' (first | assumption | apply keeps_enumerationTimeout)
theorem keeps_execChainStatus (c : Cmd) {s : State} (hs : Keeps F s) :
    KeepsO F (execChainStatus c s) := by
  unfold execChainStatus
  apply keepsO_next
  with_reducible repeat' (first | assumption | (intro _) | apply keeps_command | apply keeps_complete | apply keeps_ite | split
                                | (dsimp only; split))
theorem keeps_cmdFrame (f : Fate) (op : Nat) (c : Cmd) {s : State} (hs : Keeps F s) : Keeps F (cmdFrame f op c s) := by
  unfold cmdFrame
  refine keeps_received _ _ (fun s hs => ?_) hs
  split
  · exact keeps_fetchPause hs
  · exact keeps_submitted _ (keeps_fetchedCount _ (keeps_fetchResume (keeps_modCmd hs.mailbox (tagsOk_new hs.tags ‹_› rfl rfl (by dsimp only)) hs)))
theorem keeps_execCmdFrame (f : Fate) (op : BitVec 16) (c : Cmd) {s : State} (hs : Keeps F s) :
    KeepsO F (execCmdFrame f op c s) := by
  unfold execCmdFrame
  apply keepsO_next
  with_reducible repeat' (first | assumption | apply keeps_cmdFrame)
theorem keeps_replyFrame (f : Fate) (e addr status : Nat) (result : List Byte) {s : State} (hs : Keeps F s) :
    Keeps F (replyFrame f e addr status result s) := by
  unfold replyFrame
  with_reducible repeat' (first | assumption | (intro _) | apply keeps_received | apply keeps_count | apply keeps_answer | apply keeps_finish
                                | apply keeps_ite | split | (dsimp only; split))
theorem keeps_execReplyFrame (f : Fate) (e : BitVec 12) (addr : BitVec 6) (status : BitVec 16) (result : List Byte) {s : State} (hs : Keeps F s) :
    KeepsO F (execReplyFrame f e addr status result s) := by
  unfold execReplyFrame
  apply keepsO_next
  with_reducible repeat' (first | assumption | apply keeps_replyFrame)
theorem keeps_epochDrop (id : Word) {s : State} (hs : Keeps F s) :
    Keeps F (epochDrop id s) := by
  unfold epochDrop
  with_reducible repeat' (first | assumption | apply keeps_modChain)
theorem keeps_rejectEvent {s : State} (hs : Keeps F s) :
    Keeps F (rejectEvent s) := by
  unfold rejectEvent
  with_reducible repeat' (first | assumption | apply keeps_drawBytes | apply keeps_raise | apply keepsR_ite
                                | refine keepsR_eq (keeps_drawBytes _ _ ?_) (by assumption) | split | (dsimp only; split) | apply keeps_snd)
theorem keeps_clapPulse {s : State} (hs : Keeps F s) :
    Keeps F (clapPulse s) := by
  unfold clapPulse
  with_reducible repeat' (first | assumption | apply keeps_count | apply keeps_emit | apply keeps_ite | split | (dsimp only; split))
theorem keeps_epochAct (x : Epoch) {s : State} (hs : Keeps F s) (nSyns : F.syns = none := by assumption) :
    Keeps F (epochAct x s) := by
  unfold epochAct
  with_reducible repeat' (first | assumption | apply keeps_epochDrop | apply keeps_clapPulse | apply keeps_rejectEvent | apply keeps_rackHop
                                | apply keeps_raise | apply keeps_ite | split | (dsimp only; split))
theorem keeps_epochFire (id : Option Word) {s : State} (hs : Keeps F s) (nSyns : F.syns = none := by assumption) :
    Keeps F (epochFire id s) := by
  unfold epochFire
  with_reducible repeat' (first | assumption | apply keeps_clapPulse | apply keeps_epochAct | apply keeps_ite | split | (dsimp only; split)
                                | apply keeps_set_pulse)
theorem keeps_execEpochFire (id : Option Word) {s : State} (hs : Keeps F s) (nSyns : F.syns = none := by assumption) :
    KeepsO F (execEpochFire id s) := by
  unfold execEpochFire
  apply keepsO_next
  with_reducible repeat' (first | assumption | apply keeps_epochFire)
theorem keeps_scheduledHop (i : Nat) {s : State} (hs : Keeps F s) (nSyns : F.syns = none := by assumption) :
    Keeps F (scheduledHop i s) := by
  unfold scheduledHop
  with_reducible repeat' (first | assumption | apply keeps_rackHop | apply keeps_ite | split | (dsimp only; split) | apply keeps_set_hops)
theorem keeps_execScheduledHopFire (i : Pll) {s : State} (hs : Keeps F s) (nSyns : F.syns = none := by assumption) :
    KeepsO F (execScheduledHopFire i s) := by
  unfold execScheduledHopFire
  apply keepsO_next
  with_reducible repeat' (first | assumption | apply keeps_scheduledHop)
theorem keeps_sendEpoch (f : EpochFrame) {s : State} (hs : Keeps F s) :
    Keeps F (sendEpoch f s) := by
  unfold sendEpoch
  with_reducible repeat' (first | assumption | apply keeps_ite | apply keeps_sendFrame)
theorem keeps_epochTake (f : EpochFrame) {s : State} (hs : Keeps F s) :
    Keeps F (epochTake f s) := by
  unfold epochTake
  with_reducible repeat' (first | assumption | apply keeps_modChain)
theorem keeps_actChainEpoch (c : Cmd) (e : Nat) {s : State} (hs : Keeps F s) :
    Keeps F (actChainEpoch c e s) := by
  unfold actChainEpoch
  with_reducible repeat' (first | assumption | apply keeps_complete | apply keeps_keepRunning | apply keeps_sendEpoch | apply keeps_epochDrop
                                | apply keeps_epochTake | apply keeps_modChain | apply keeps_ite | split | (dsimp only; split) | apply keeps_snd)
theorem keeps_execChainEpoch (c : Cmd) {s : State} (hs : Keeps F s) :
    KeepsO F (execChainEpoch c s) := by
  unfold execChainEpoch
  apply keepsO_next
  with_reducible repeat' (first | assumption | (intro _) | apply keeps_command | apply keeps_actChainEpoch)
theorem keeps_epochFrame (fate : Fate) (f : EpochFrame) {s : State} (hs : Keeps F s) :
    Keeps F (epochFrame fate f s) := by
  unfold epochFrame
  with_reducible repeat' (first | assumption | (intro _) | apply keeps_received | apply keeps_passFrame | apply keeps_epochDrop
                                | apply keeps_modChain | apply keeps_epochTake | apply keeps_ite | split | (dsimp only; split) | apply keeps_snd)
theorem keeps_execEpochFrame (fate : Fate) (f : EpochFrame) {s : State} (hs : Keeps F s) :
    KeepsO F (execEpochFrame fate f s) := by
  unfold execEpochFrame
  apply keepsO_next
  with_reducible repeat' (first | assumption | apply keeps_epochFrame)
theorem keeps_cancelFrame (id : Word) {s : State} (hs : Keeps F s) :
    Keeps F (cancelFrame id s) := by
  unfold cancelFrame
  with_reducible repeat' (first | assumption | apply keeps_sendEpoch | apply keeps_epochDrop)
theorem keeps_epochReturn (fate : Fate) (f : EpochFrame) {s : State} (hs : Keeps F s) :
    Keeps F (epochReturn fate f s) := by
  unfold epochReturn
  with_reducible repeat' (first | assumption | (intro _) | apply keeps_received | apply keeps_complete | apply keeps_rejectEvent
                                | apply keeps_cancelFrame | apply keeps_modChain | apply keeps_sendEpoch | apply keeps_ite | split
                                | (dsimp only; split))
theorem keeps_execEpochFrameReturn (fate : Fate) (f : EpochFrame) {s : State} (hs : Keeps F s) :
    KeepsO F (execEpochFrameReturn fate f s) := by
  unfold execEpochFrameReturn
  apply keepsO_next
  with_reducible repeat' (first | assumption | apply keeps_epochReturn)
theorem keeps_epochTimeout (id : Word) {s : State} (hs : Keeps F s) :
    Keeps F (epochTimeout id s) := by
  unfold epochTimeout
  with_reducible repeat' (first | assumption | apply keeps_complete | apply keeps_cancelFrame | split | (dsimp only; split))
theorem keeps_execEpochReturnTimeout (id : Word) {s : State} (hs : Keeps F s) :
    KeepsO F (execEpochReturnTimeout id s) := by
  unfold execEpochReturnTimeout
  apply keepsO_next
  with_reducible repeat' (first | assumption | apply keeps_epochTimeout)
theorem keeps_epochDiscard (id : Word) {s : State} (hs : Keeps F s) :
    Keeps F (epochDiscard id s) := by
  unfold epochDiscard
  with_reducible repeat' (first | assumption | apply keeps_epochDrop | apply keeps_ite | split | (dsimp only; split))
theorem keeps_execEpochUnconfirmedDiscard (id : Word) {s : State} (hs : Keeps F s) :
    KeepsO F (execEpochUnconfirmedDiscard id s) := by
  unfold execEpochUnconfirmedDiscard
  apply keepsO_next
  with_reducible repeat' (first | assumption | apply keeps_epochDiscard)
theorem keeps_timeSend {s : State} (hs : Keeps F s) :
    Keeps F (timeSend s) := by
  unfold timeSend
  with_reducible repeat' (first | assumption | apply keeps_sendFrame | apply keeps_ite | split | (dsimp only; split))
theorem keeps_execTimeFrameSend {s : State} (hs : Keeps F s) :
    KeepsO F (execTimeFrameSend s) := by
  unfold execTimeFrameSend
  apply keepsO_next
  with_reducible repeat' (first | assumption | apply keeps_timeSend)
theorem keeps_timePass (f : TimeFrame) (res : Nat) {s : State} (hs : Keeps F s) :
    Keeps F (timePass f res s) := by
  unfold timePass
  with_reducible repeat' (first | assumption | apply keeps_passFrame | apply keeps_ite | split | (dsimp only; split))
theorem keeps_lateEpochs {s : State} (hs : Keeps F s) (nSyns : F.syns = none := by assumption) :
    Keeps F (lateEpochs s) := by
  unfold lateEpochs
  with_reducible repeat' (first | assumption | (intro _) | apply keeps_raise | apply keeps_epochAct | apply keeps_foldl | apply keepsR_foldl)
theorem keeps_timeCorrect (off : Int) {s : State} (hs : Keeps F s) (nTime : F.time = none := by assumption)
    (nSyns : F.syns = none := by assumption) :
    Keeps F (timeCorrect off s) := by
  unfold timeCorrect
  with_reducible repeat' (first | assumption | apply keeps_count | apply keeps_setTime | apply keeps_lateEpochs | apply keeps_raise
                                | apply keeps_ite | split | (dsimp only; split))
theorem keeps_heldOut {s : State} (hs : Keeps F s) :
    Keeps F (heldOut s) := by
  unfold heldOut
  with_reducible repeat' (first | assumption | (intro _) | apply keeps_emit | apply keeps_modChain | apply keeps_foldl | apply keepsR_foldl
                                | apply keeps_ite | split | (dsimp only; split))
theorem keeps_timeReceived (fate : Fate) (f : TimeFrame) (res : Nat) {s : State} (hs : Keeps F s) (nTime : F.time = none := by assumption)
    (nSyns : F.syns = none := by assumption) :
    Keeps F (timeReceived fate f res s) := by
  unfold timeReceived
  with_reducible repeat' (first | assumption | (intro _) | apply keeps_received | apply keeps_timePass | apply keeps_raise | apply keeps_wrB
                                | apply keeps_wr | apply keeps_timeCorrect | apply keeps_heldOut | apply keeps_modChain | apply keeps_ite | split
                                | (dsimp only; split))
theorem keeps_execTimeFrameReceived (fate : Fate) (f : TimeFrame) (res : Word) {s : State} (hs : Keeps F s)
    (nTime : F.time = none := by assumption) (nSyns : F.syns = none := by assumption) :
    KeepsO F (execTimeFrameReceived fate f res s) := by
  unfold execTimeFrameReceived
  apply keepsO_next
  with_reducible repeat' (first | assumption | apply keeps_timeReceived)
theorem keeps_presence (present : BitVec 64) {s : State} (hs : Keeps F s) :
    Keeps F (presence present s) := by
  unfold presence
  with_reducible repeat' (first | assumption | (intro _) | apply keeps_modChain | apply keeps_raise | apply keeps_each | apply keeps_ite | split
                                | (dsimp only; split))
theorem keeps_undeclared (f : TimeFrame) (rt : Nat) {s : State} (hs : Keeps F s) :
    Keeps F (undeclared f rt s) := by
  unfold undeclared
  with_reducible repeat' (first | assumption | apply keeps_draw | apply keeps_modChain | apply keeps_ite | apply keepsR_ite
                                | refine keepsR_eq (keeps_draw _ ?_) (by assumption) | split | (dsimp only; split) | apply keeps_snd)
theorem keeps_timeReturn (fate : Fate) (f : TimeFrame) (rt : Nat) {s : State} (hs : Keeps F s) :
    Keeps F (timeReturn fate f rt s) := by
  unfold timeReturn
  with_reducible repeat' (first | assumption | (intro _) | apply keeps_received | apply keeps_presence | apply keeps_undeclared | apply keeps_wr
                                | apply keeps_modChain | apply keeps_wrB | apply keeps_raise | apply keeps_ite | split | (dsimp only; split))
theorem keeps_execTimeFrameReturn (fate : Fate) (f : TimeFrame) (rt : Word) {s : State} (hs : Keeps F s) :
    KeepsO F (execTimeFrameReturn fate f rt s) := by
  unfold execTimeFrameReturn
  apply keepsO_next
  with_reducible repeat' (first | assumption | apply keeps_timeReturn)
theorem keeps_timeTimeout {s : State} (hs : Keeps F s) :
    Keeps F (timeTimeout s) := by
  unfold timeTimeout
  with_reducible repeat' (first | assumption | apply keeps_modChain | apply keeps_wrB | apply keeps_ite | split | (dsimp only; split))
theorem keeps_execChainTimeTimeout {s : State} (hs : Keeps F s) :
    KeepsO F (execChainTimeTimeout s) := by
  unfold execChainTimeTimeout
  apply keepsO_next
  with_reducible repeat' (first | assumption | apply keeps_timeTimeout)
theorem keeps_execFabricStatusTimeout {s : State} (hs : Keeps F s) :
    KeepsO F (execFabricStatusTimeout s) := by
  unfold execFabricStatusTimeout
  apply keepsO_next
  with_reducible repeat' (first | assumption | apply keeps_modChain | apply keeps_ite | split | (dsimp only; split))
theorem keeps_eventFrame (fate : Fate) (addr : Nat) (r : EvRec) {s : State} (hs : Keeps F s) :
    Keeps F (eventFrame fate addr r s) := by
  unfold eventFrame
  with_reducible repeat' (first | assumption | (intro _) | apply keeps_received | apply keeps_stageRec | apply keeps_passFrame | apply keeps_ite
                                | split | (dsimp only; split))
theorem keeps_execEventFrame (fate : Fate) (addr : BitVec 6) (seq : Word) (code unit : BitVec 16) (time : BitVec 64) (data : BitVec 64)
    (logged : Bool) {s : State} (hs : Keeps F s) :
    KeepsO F (execEventFrame fate addr seq code unit time data logged s) := by
  unfold execEventFrame
  apply keepsO_next
  with_reducible repeat' (first | assumption | apply keeps_eventFrame)

end Sys2Proof.Machine
end

