-- ==== Sys2Proof/Laws/Keep4.lean ====
section
/-! SUPPORT. What every operation keeps: Power, Peek, Counters, Boot, Bus. -/
namespace Sys2Proof.Machine
variable {F : Fixed}

/-! ### Power -/

theorem keeps_requestEnd (tag : Option Nat) (status id mask : Nat) {s : State} (hs : Keeps F s) :
    Keeps F (requestEnd tag status id mask s) := by
  unfold requestEnd
  with_reducible repeat' (first | assumption | apply keeps_complete | split | (dsimp only; split))
theorem keeps_refuse (d mask : Nat) (tag : Option Nat) {s : State} (hs : Keeps F s) :
    Keeps F (refuse d mask tag s) := by
  unfold refuse
  with_reducible repeat' (first | assumption | apply keeps_requestEnd | apply keeps_recordRefusal)
theorem keeps_enter (d st : Nat) (tag : Option Nat) {s : State} (hs : Keeps F s) :
    Keeps F (enter d st tag s) := by
  unfold enter
  with_reducible repeat' (first | assumption | apply keeps_modDom | apply keeps_wrF | apply keeps_wrB)
theorem keeps_tryEnter (d st : Nat) (tag : Option Nat) {s : State} (hs : Keeps F s) :
    Keeps F (tryEnter d st tag s) := by
  unfold tryEnter
  with_reducible repeat' (first | assumption | apply keeps_refuse | apply keeps_enter | apply keeps_ite | split | (dsimp only; split))
theorem keeps_request (d st : Nat) (tag : Option Nat) {s : State} (hs : Keeps F s) :
    Keeps F (request d st tag s) := by
  unfold request
  with_reducible repeat' (first | assumption | apply keeps_wrF | apply keeps_refuse | apply keeps_requestEnd | apply keeps_enter
                                | apply keeps_modDom | apply keeps_wrB | apply keeps_beginWake | apply keeps_ite | split | (dsimp only; split))
theorem keeps_hubLost (lo n : Nat) (off : Bool) (kept : Nat → Bool) {s : State} (hs : Keeps F s) :
    Keeps F (hubLost lo n off kept s) := by
  unfold hubLost
  with_reducible repeat' (first | assumption | apply keeps_scrubViews | apply keeps_scrub | apply keeps_ite | split | (dsimp only; split))
theorem keeps_chainLost (off : Bool) {s : State} (hs : Keeps F s) :
    Keeps F (chainLost off s) := by
  unfold chainLost
  with_reducible repeat' (first | assumption | apply keeps_forwardedDown | apply keeps_complete | apply keeps_hubLost | apply keeps_modChain
                                | apply keeps_wr | split | (dsimp only; split))
theorem keeps_set_spread_lastClap_hops {s : State} {x0} {x1} {x2} (h : Keeps F s) : Keeps F { s with spread := x0, lastClap := x1, hops := x2 } :=
  ⟨h.1, h.2, h.3, h.4, h.5, h.6, h.7, h.8⟩
theorem keeps_rackLost (off : Bool) {s : State} (hs : Keeps F s) (nSyns : F.syns = none := by assumption) :
    Keeps F (rackLost off s) := by
  unfold rackLost
  with_reducible repeat' (first | assumption | (intro _) | apply keeps_synCommandsEnd | apply keeps_hubLost | apply keeps_each
                                | apply keeps_set_spread_lastClap_hops)
theorem keeps_domLost (d : Nat) (off : Bool) {s : State} (hs : Keeps F s) (nTakes : F.takes = none := by assumption)
    (nLinks : F.links = none := by assumption) (nPairs : F.pairs = none := by assumption) (nPorts : F.ports = none := by assumption)
    (nTiles : F.tiles = none := by assumption) (nRuns : F.runs = none := by assumption) (nCaptures : F.captures = none := by assumption)
    (nSyns : F.syns = none := by assumption) (nLanes : F.lanes = none := by assumption) :
    Keeps F (domLost d off s) := by
  unfold domLost
  with_reducible repeat' (first | assumption | apply keeps_portUnpowered | apply keeps_tileUnpowered | apply keeps_chainLost
                                | apply keeps_rackLost | apply keeps_ite | split | (dsimp only; split))
theorem keeps_entryComplete (d : Nat) {s : State} (hs : Keeps F s) (nTakes : F.takes = none := by assumption)
    (nLinks : F.links = none := by assumption) (nPairs : F.pairs = none := by assumption) (nPorts : F.ports = none := by assumption)
    (nTiles : F.tiles = none := by assumption) (nRuns : F.runs = none := by assumption) (nCaptures : F.captures = none := by assumption)
    (nSyns : F.syns = none := by assumption) (nLanes : F.lanes = none := by assumption) :
    Keeps F (entryComplete d s) := by
  unfold entryComplete
  with_reducible repeat' (first | assumption | apply keeps_domLost | apply keeps_modDom | apply keeps_wrB | apply keeps_wrF
                                | apply keeps_requestEnd | apply keeps_beginWake | apply keeps_ite | split | (dsimp only; split))
theorem keeps_execPowerEntryComplete (d : Domain) {s : State} (hs : Keeps F s) (nTakes : F.takes = none := by assumption)
    (nLinks : F.links = none := by assumption) (nPairs : F.pairs = none := by assumption) (nPorts : F.ports = none := by assumption)
    (nTiles : F.tiles = none := by assumption) (nRuns : F.runs = none := by assumption) (nCaptures : F.captures = none := by assumption)
    (nSyns : F.syns = none := by assumption) (nLanes : F.lanes = none := by assumption) :
    KeepsO F (execPowerEntryComplete d s) := by
  unfold execPowerEntryComplete
  apply keepsO_next
  with_reducible repeat' (first | assumption | apply keeps_entryComplete)
theorem keeps_drainTimeout (d : Nat) {s : State} (hs : Keeps F s) :
    Keeps F (drainTimeout d s) := by
  unfold drainTimeout
  with_reducible repeat' (first | assumption | apply keeps_abortEntry | apply keeps_ite | split | (dsimp only; split))
theorem keeps_execPowerDrainTimeout (d : Domain) {s : State} (hs : Keeps F s) :
    KeepsO F (execPowerDrainTimeout d s) := by
  unfold execPowerDrainTimeout
  apply keepsO_next
  with_reducible repeat' (first | assumption | apply keeps_drainTimeout)
theorem keeps_wakeRequest (d : Nat) (edge late : Bool) {s : State} (hs : Keeps F s) :
    Keeps F (wakeRequest d edge late s) := by
  unfold wakeRequest
  with_reducible repeat' (first | assumption | apply keeps_modDom | apply keeps_beginWake | apply keeps_ite | split | (dsimp only; split))
theorem keeps_execWakeRequest (d : Domain) (edge late : Bool) {s : State} (hs : Keeps F s) :
    KeepsO F (execWakeRequest d edge late s) := by
  unfold execWakeRequest
  apply keepsO_next
  with_reducible repeat' (first | assumption | apply keeps_wakeRequest)
theorem keeps_domPowered (d : Nat) (off : Bool) {s : State} (hs : Keeps F s) (nPairs : F.pairs = none := by assumption)
    (nSyns : F.syns = none := by assumption) (nLanes : F.lanes = none := by assumption) :
    Keeps F (domPowered d off s) := by
  unfold domPowered
  with_reducible repeat' (first | assumption | apply keeps_portPowered | apply keeps_tilePowered | apply keeps_chainRestart | apply keeps_ite
                                | split | (dsimp only; split))
theorem keeps_domainReady (d : Nat) {s : State} (hs : Keeps F s) (nPairs : F.pairs = none := by assumption)
    (nSyns : F.syns = none := by assumption) (nLanes : F.lanes = none := by assumption) :
    Keeps F (domainReady d s) := by
  unfold domainReady
  with_reducible repeat' (first | assumption | (intro _) | apply keeps_modDom | apply keeps_wrB | apply keeps_wrF | apply keeps_domPowered
                                | apply keeps_wakeOne | apply keeps_tryEnter | apply keeps_requestEnd | apply keeps_each | apply keeps_ite | split
                                | (dsimp only; split))
theorem keeps_execDomainReady (d : Domain) {s : State} (hs : Keeps F s) (nPairs : F.pairs = none := by assumption)
    (nSyns : F.syns = none := by assumption) (nLanes : F.lanes = none := by assumption) :
    KeepsO F (execDomainReady d s) := by
  unfold execDomainReady
  apply keepsO_next
  with_reducible repeat' (first | assumption | apply keeps_domainReady)
theorem keeps_idleExpiry (d st : Nat) {s : State} (hs : Keeps F s) :
    Keeps F (idleExpiry d st s) := by
  unfold idleExpiry
  with_reducible repeat' (first | assumption | apply keeps_tryEnter | apply keeps_ite | split | (dsimp only; split))
theorem keeps_execPowerIdleTimerExpiry (d : Domain) (st : BitVec 2) {s : State} (hs : Keeps F s) :
    KeepsO F (execPowerIdleTimerExpiry d st s) := by
  unfold execPowerIdleTimerExpiry
  apply keepsO_next
  with_reducible repeat' (first | assumption | apply keeps_idleExpiry)
theorem keeps_actPwrStateSet (c : Cmd) (e : Nat) {s : State} (hs : Keeps F s) :
    Keeps F (actPwrStateSet c e s) := by
  unfold actPwrStateSet
  with_reducible repeat' (first | assumption | apply keeps_complete | apply keeps_request | apply keeps_keepRunning | apply keeps_ite | split
                                | (dsimp only; split))
theorem keeps_execPwrStateSet (c : Cmd) {s : State} (hs : Keeps F s) :
    KeepsO F (execPwrStateSet c s) := by
  unfold execPwrStateSet
  apply keepsO_next
  with_reducible repeat' (first | assumption | (intro _) | apply keeps_command | apply keeps_actPwrStateSet)
theorem keeps_actPwrPolicy (c : Cmd) (e : Nat) {s : State} (hs : Keeps F s) :
    Keeps F (actPwrPolicy c e s) := by
  unfold actPwrPolicy
  with_reducible repeat' (first | assumption | apply keeps_complete | apply keeps_wrB | apply keeps_wr | apply keeps_ite | split
                                | (dsimp only; split))
theorem keeps_execPwrPolicy (c : Cmd) {s : State} (hs : Keeps F s) :
    KeepsO F (execPwrPolicy c s) := by
  unfold execPwrPolicy
  apply keepsO_next
  with_reducible repeat' (first | assumption | (intro _) | apply keeps_command | apply keeps_actPwrPolicy)
theorem keeps_execPwrStatus (c : Cmd) {s : State} (hs : Keeps F s) :
    KeepsO F (execPwrStatus c s) := by
  unfold execPwrStatus
  apply keepsO_next
  with_reducible repeat' (first | assumption | (intro _) | apply keeps_command | apply keeps_complete)
theorem keeps_setFloor (v : View) (d f : Nat) {s : State} (hs : Keeps F s) :
    Keeps F (setFloor v d f s) := by
  unfold setFloor
  with_reducible repeat' (first | assumption | apply keeps_wrF)
theorem keeps_releaseFloors (v : View) {s : State} (hs : Keeps F s) :
    Keeps F (releaseFloors v s) := by
  unfold releaseFloors
  with_reducible repeat' (first | assumption | (intro _) | apply keeps_setFloor | apply keeps_each)
theorem keeps_actPwrKeepAwake (c : Cmd) (e : Nat) {s : State} (hs : Keeps F s) :
    Keeps F (actPwrKeepAwake c e s) := by
  unfold actPwrKeepAwake
  with_reducible repeat' (first | assumption | apply keeps_complete | apply keeps_setFloor | apply keeps_ite | split | (dsimp only; split))
theorem keeps_execPwrKeepAwake (c : Cmd) {s : State} (hs : Keeps F s) :
    KeepsO F (execPwrKeepAwake c s) := by
  unfold execPwrKeepAwake
  apply keepsO_next
  with_reducible repeat' (first | assumption | (intro _) | apply keeps_command | apply keeps_actPwrKeepAwake)
theorem keeps_set_plChanges {s : State} {x0} (h : Keeps F s) : Keeps F { s with plChanges := x0 } :=
  ⟨h.1, h.2, h.3, h.4, h.5, h.6, h.7, h.8⟩
theorem keeps_plStart (u lv : Nat) (tag : Option Nat) {s : State} (hs : Keeps F s) (nPairs : F.pairs = none := by assumption) :
    Keeps F (plStart u lv tag s) := by
  unfold plStart
  with_reducible repeat' (first | assumption | apply keeps_wrF | apply keeps_complete | apply keeps_muxSwitch | apply keeps_ite | split
                                | (dsimp only; split) | apply keeps_set_plChanges)
theorem keeps_actPwrLevelSet (c : Cmd) (e : Nat) {s : State} (hs : Keeps F s) (nPairs : F.pairs = none := by assumption) :
    Keeps F (actPwrLevelSet c e s) := by
  unfold actPwrLevelSet
  with_reducible repeat' (first | assumption | apply keeps_complete | apply keeps_plStart | apply keeps_keepRunning | apply keeps_ite | split
                                | (dsimp only; split))
theorem keeps_execPwrLevelSet (c : Cmd) {s : State} (hs : Keeps F s) (nPairs : F.pairs = none := by assumption) :
    KeepsO F (execPwrLevelSet c s) := by
  unfold execPwrLevelSet
  apply keepsO_next
  with_reducible repeat' (first | assumption | (intro _) | apply keeps_command | apply keeps_actPwrLevelSet)
theorem keeps_plWrite (oper : Bool) (w : Word) {s : State} (hs : Keeps F s) (nPairs : F.pairs = none := by assumption) :
    Keeps F (plWrite oper w s) := by
  unfold plWrite
  with_reducible repeat' (first | assumption | (intro _) | apply keeps_plStart | apply keeps_each | apply keeps_ite | split | (dsimp only; split))
theorem keeps_plDone (u : Nat) {s : State} (hs : Keeps F s) :
    Keeps F (plDone u s) := by
  unfold plDone
  with_reducible repeat' (first | assumption | apply keeps_complete | split | (dsimp only; split) | apply keeps_set_plChanges)
theorem keeps_execPerfLevelChangeDone (u : BitVec 5) {s : State} (hs : Keeps F s) :
    KeepsO F (execPerfLevelChangeDone u s) := by
  unfold execPerfLevelChangeDone
  apply keepsO_next
  with_reducible repeat' (first | assumption | apply keeps_plDone)
theorem keeps_domCtlWrite (d : Nat) (w : Word) {s : State} (hs : Keeps F s) : Keeps F (domCtlWrite d w s).1 := by
  unfold domCtlWrite
  dsimp only
  split
  · exact keeps_wrB _ _ _ hs
  · exact keeps_request _ _ _ (keeps_wrB _ _ _ hs)
theorem keeps_railMin (rail low : Nat) {s : State} (hs : Keeps F s) :
    Keeps F (railMin rail low s) := by
  unfold railMin
  with_reducible repeat' (first | assumption | apply keeps_mapViews | apply keeps_ite | split | (dsimp only; split))
theorem keeps_set_dips {s : State} {x0} (h : Keeps F s) : Keeps F { s with dips := x0 } :=
  ⟨h.1, h.2, h.3, h.4, h.5, h.6, h.7, h.8⟩
theorem keeps_dipStart (rail low : Nat) {s : State} (hs : Keeps F s) :
    Keeps F (dipStart rail low s) := by
  unfold dipStart
  with_reducible repeat' (first | assumption | apply keeps_railMin | apply keeps_beginWake | apply keeps_count | apply keeps_wrB | apply keeps_ite
                                | split | (dsimp only; split) | apply keeps_set_dips)
theorem keeps_execSupplyDipStart (rail : BitVec 3) (low : BitVec 9) {s : State} (hs : Keeps F s) :
    KeepsO F (execSupplyDipStart rail low s) := by
  unfold execSupplyDipStart
  apply keepsO_next
  with_reducible repeat' (first | assumption | apply keeps_dipStart)
theorem keeps_dipRecovery (rail low : Nat) {s : State} (hs : Keeps F s) :
    Keeps F (dipRecovery rail low s) := by
  unfold dipRecovery
  with_reducible repeat' (first | assumption | apply keeps_railMin | apply keeps_wrB | apply keeps_raise | apply keeps_ite | split
                                | (dsimp only; split) | apply keeps_set_dips)
theorem keeps_execSupplyDipRecovery (rail : BitVec 3) (low : BitVec 9) {s : State} (hs : Keeps F s) :
    KeepsO F (execSupplyDipRecovery rail low s) := by
  unfold execSupplyDipRecovery
  apply keepsO_next
  with_reducible repeat' (first | assumption | apply keeps_dipRecovery)
theorem keeps_holdEnd {s : State} (hs : Keeps F s) :
    Keeps F (holdEnd s) := by
  unfold holdEnd
  with_reducible repeat' (first | assumption | apply keeps_wrB | apply keeps_ite | split | (dsimp only; split))
theorem keeps_execMramHoldEnd {s : State} (hs : Keeps F s) :
    KeepsO F (execMramHoldEnd s) := by
  unfold execMramHoldEnd
  apply keepsO_next
  with_reducible repeat' (first | assumption | apply keeps_holdEnd)
theorem keeps_supplyLow (rail low : Nat) {s : State} (hs : Keeps F s) :
    Keeps F (supplyLow rail low s) := by
  unfold supplyLow
  with_reducible repeat' (first | assumption | apply keeps_railMin | apply keeps_raise | apply keeps_wrB | apply keeps_ite | split
                                | (dsimp only; split) | apply keeps_set_dips)
theorem keeps_execSupplyLow (rail : BitVec 3) (low : BitVec 9) {s : State} (hs : Keeps F s) :
    KeepsO F (execSupplyLow rail low s) := by
  unfold execSupplyLow
  apply keepsO_next
  with_reducible repeat' (first | assumption | apply keeps_supplyLow)
theorem keeps_setTemp (i : Nat) (t : BitVec 16) {s : State} (hs : Keeps F s) :
    Keeps F (setTemp i t s) := by
  unfold setTemp
  with_reducible repeat' (first | assumption | apply keeps_set_temps)
theorem keeps_thermAlert (i : Nat) (t : BitVec 16) {s : State} (hs : Keeps F s) :
    Keeps F (thermAlert i t s) := by
  unfold thermAlert
  with_reducible repeat' (first | assumption | apply keeps_setTemp | apply keeps_raise | apply keeps_beginWake | apply keeps_wrB | apply keeps_ite
                                | split | (dsimp only; split))
theorem keeps_execThermAlert (i : BitVec 7) (t : BitVec 16) {s : State} (hs : Keeps F s) :
    KeepsO F (execThermAlert i t s) := by
  unfold execThermAlert
  apply keepsO_next
  with_reducible repeat' (first | assumption | apply keeps_thermAlert)
theorem keeps_thermClear (ts : List (BitVec 16)) {s : State} (hs : Keeps F s) :
    Keeps F (thermClear ts s) := by
  unfold thermClear
  with_reducible repeat' (first | assumption | (intro _) | apply keeps_setTemp | apply keeps_raise | apply keeps_wrB | apply keeps_each
                                | apply keeps_ite | split | (dsimp only; split))
theorem keeps_execThermClear (ts : List (BitVec 16)) {s : State} (hs : Keeps F s) :
    KeepsO F (execThermClear ts s) := by
  unfold execThermClear
  apply keepsO_next
  with_reducible repeat' (first | assumption | apply keeps_thermClear)
theorem keeps_thermCrit (i : Nat) (t : BitVec 16) {s : State} (hs : Keeps F s) :
    Keeps F (thermCrit i t s) := by
  unfold thermCrit
  with_reducible repeat' (first | assumption | apply keeps_setTemp | apply keeps_raise | apply keeps_wrB | apply keeps_ite | split
                                | (dsimp only; split))
theorem keeps_execThermCrit (i : BitVec 7) (t : BitVec 16) {s : State} (hs : Keeps F s) :
    KeepsO F (execThermCrit i t s) := by
  unfold execThermCrit
  apply keepsO_next
  with_reducible repeat' (first | assumption | apply keeps_thermCrit)

/-! ### Peek -/

theorem keeps_set_held_snapAt_snapOff {s : State} {x0} {x1} {x2} (h : Keeps F s) : Keeps F { s with held := x0, snapAt := x1, snapOff := x2 } :=
  ⟨h.1, h.2, h.3, h.4, h.5, h.6, h.7, h.8⟩
theorem keeps_takeCopies {s : State} (hs : Keeps F s) :
    Keeps F (takeCopies s) := by
  unfold takeCopies
  with_reducible repeat' (first | assumption | (intro _) | apply keeps_foldl | apply keepsR_foldl | apply keeps_set_held_snapAt_snapOff)

/-! ### Counters -/

theorem keeps_snapStart {s : State} (hs : Keeps F s) :
    Keeps F (snapStart s) := by
  unfold snapStart
  with_reducible repeat' (first | assumption | apply keeps_wrB | apply keeps_takeCopies)
theorem keeps_snapGo {s : State} (hs : Keeps F s) :
    Keeps F (snapGo s) := by
  unfold snapGo
  with_reducible repeat' (first | assumption | apply keeps_wrB | apply keeps_snapStart | apply keeps_ite | split | (dsimp only; split))
theorem keeps_actCntSnapshot (e : Nat) {s : State} (hs : Keeps F s) :
    Keeps F (actCntSnapshot e s) := by
  unfold actCntSnapshot
  with_reducible repeat' (first | assumption | apply keeps_keepRunning | apply keeps_snapStart | apply keeps_ite | split | (dsimp only; split))
theorem keeps_execCntSnapshot (c : Cmd) {s : State} (hs : Keeps F s) :
    KeepsO F (execCntSnapshot c s) := by
  unfold execCntSnapshot
  apply keepsO_next
  with_reducible repeat' (first | assumption | (intro _) | apply keeps_command | apply keeps_actCntSnapshot)
theorem keeps_set_snapDone {s : State} {x0} (h : Keeps F s) : Keeps F { s with snapDone := x0 } :=
  ⟨h.1, h.2, h.3, h.4, h.5, h.6, h.7, h.8⟩
theorem keeps_snapComplete {s : State} (hs : Keeps F s) :
    Keeps F (snapComplete s) := by
  unfold snapComplete
  with_reducible repeat' (first | assumption | apply keeps_wr64 | apply keeps_count | apply keeps_wrB | apply keeps_completeAll | apply keeps_ite
                                | split | (dsimp only; split) | apply keeps_set_snapDone)
theorem keeps_execSnapshotComplete {s : State} (hs : Keeps F s) :
    KeepsO F (execSnapshotComplete s) := by
  unfold execSnapshotComplete
  apply keepsO_next
  with_reducible repeat' (first | assumption | apply keeps_snapComplete)
theorem keeps_actCntRead (c : Cmd) (e : Nat) {s : State} (hs : Keeps F s) :
    Keeps F (actCntRead c e s) := by
  unfold actCntRead
  with_reducible repeat' (first | assumption | apply keeps_complete | apply keeps_ite | split | (dsimp only; split))
theorem keeps_execCntRead (c : Cmd) {s : State} (hs : Keeps F s) :
    KeepsO F (execCntRead c s) := by
  unfold execCntRead
  apply keepsO_next
  with_reducible repeat' (first | assumption | (intro _) | apply keeps_command | apply keeps_actCntRead)
theorem keeps_clearRegs (f : Nat → Bool) {s : State} (hs : Keeps F s) :
    Keeps F (clearRegs f s) := by
  unfold clearRegs
  with_reducible repeat' (first | assumption | (intro _) | apply keeps_wr | apply keeps_foldl | apply keepsR_foldl)
theorem keeps_clearRange (lo n : Nat) {s : State} (hs : Keeps F s) :
    Keeps F (clearRange lo n s) := by
  unfold clearRange
  with_reducible repeat' (first | assumption | apply keeps_clearRegs)
theorem keeps_perfClear (b : Nat) {s : State} (hs : Keeps F s) :
    Keeps F (perfClear b s) := by
  unfold perfClear
  with_reducible repeat' (first | assumption | (intro _) | apply keeps_wrWide | apply keeps_wr | apply keeps_each)
theorem keeps_snrRestarts (ls : List Nat) {s : State} (hs : Keeps F s) (nPairs : F.pairs = none := by assumption) :
    Keeps F (snrRestarts ls s) := by
  unfold snrRestarts
  with_reducible repeat' (first | assumption | (intro _) | apply keeps_snrRestart | apply keeps_each)
theorem keeps_clearTile (t : Nat) {s : State} (hs : Keeps F s) (nPairs : F.pairs = none := by assumption) :
    Keeps F (clearTile t s) := by
  unfold clearTile
  with_reducible repeat' (first | assumption | apply keeps_snrRestarts | apply keeps_clearRange | apply keeps_perfClear | apply keeps_ite | split
                                | (dsimp only; split))
theorem keeps_clearUnit (c i : Nat) {s : State} (hs : Keeps F s) (nPairs : F.pairs = none := by assumption) :
    Keeps F (clearUnit c i s) := by
  unfold clearUnit
  with_reducible repeat' (first | assumption | (intro _) | apply keeps_clearTile | apply keeps_clearRegs | apply keeps_perfClear
                                | apply keeps_clearRange | apply keeps_snrRestarts | apply keeps_each | apply keeps_ite | split
                                | (dsimp only; split))
theorem keeps_actCntClear (c : Cmd) (e : Nat) {s : State} (hs : Keeps F s) (nPairs : F.pairs = none := by assumption) :
    Keeps F (actCntClear c e s) := by
  unfold actCntClear
  with_reducible repeat' (first | assumption | apply keeps_complete | apply keeps_clearUnit)
theorem keeps_execCntClear (c : Cmd) {s : State} (hs : Keeps F s) (nPairs : F.pairs = none := by assumption) :
    KeepsO F (execCntClear c s) := by
  unfold execCntClear
  apply keepsO_next
  with_reducible repeat' (first | assumption | (intro _) | apply keeps_command | apply keeps_actCntClear)
theorem keeps_setUtil (k p : Nat) {s : State} (hs : Keeps F s) :
    Keeps F (setUtil k p s) := by
  unfold setUtil
  with_reducible repeat' (first | assumption | apply keeps_wrF | apply keeps_ite | split | (dsimp only; split) | apply keeps_set_utilDiscard)
theorem keeps_actUtilWindow (c : Cmd) (e : Nat) {s : State} (hs : Keeps F s) :
    Keeps F (actUtilWindow c e s) := by
  unfold actUtilWindow
  with_reducible repeat' (first | assumption | (intro _) | apply keeps_complete | apply keeps_setUtil | apply keeps_each | apply keeps_ite | split
                                | (dsimp only; split))
theorem keeps_execUtilWindow (c : Cmd) {s : State} (hs : Keeps F s) :
    KeepsO F (execUtilWindow c s) := by
  unfold execUtilWindow
  apply keepsO_next
  with_reducible repeat' (first | assumption | (intro _) | apply keeps_command | apply keeps_actUtilWindow)
theorem keeps_winOpen (b : Nat) (since : BitVec 64) {s : State} (hs : Keeps F s) :
    Keeps F (winOpen b since s) := by
  unfold winOpen
  with_reducible repeat' (first | assumption | apply keeps_wrB | apply keeps_perfClear | apply keeps_set_perfWins)
theorem keeps_winArm (b : Nat) {s : State} (hs : Keeps F s) :
    Keeps F (winArm b s) := by
  unfold winArm
  with_reducible repeat' (first | assumption | apply keeps_wrB | apply keeps_wrF | apply keeps_winOpen | apply keeps_ite | split
                                | (dsimp only; split) | apply keeps_set_perfWins)
theorem keeps_winCancel (b : Nat) {s : State} (hs : Keeps F s) :
    Keeps F (winCancel b s) := by
  unfold winCancel
  with_reducible repeat' (first | assumption | apply keeps_wrB | apply keeps_set_perfWins)
theorem keeps_perfCtlWrite (v : View) (b : Nat) (w : Word) {s : State} (hs : Keeps F s) :
    Keeps F (perfCtlWrite v b w s) := by
  unfold perfCtlWrite
  with_reducible repeat' (first | assumption | apply keeps_wrB | apply keeps_accessError | apply keeps_perfClear | apply keeps_winCancel
                                | apply keeps_winArm | apply keeps_ite | split | (dsimp only; split))
theorem keeps_perfWinWrite (v : View) (b a : Nat) (w : Word) {s : State} (hs : Keeps F s) :
    Keeps F (perfWinWrite v b a w s) := by
  unfold perfWinWrite
  with_reducible repeat' (first | assumption | apply keeps_accessError | apply keeps_wr | apply keeps_ite | split | (dsimp only; split))
theorem keeps_perfSelWrite (v : View) (b n : Nat) (w : Word) {s : State} (hs : Keeps F s) :
    Keeps F (perfSelWrite v b n w s) := by
  unfold perfSelWrite
  with_reducible repeat' (first | assumption | apply keeps_firewallRefusal | apply keeps_wr | apply keeps_ite | split | (dsimp only; split))
theorem keeps_perfWinStart (b : Nat) {s : State} (hs : Keeps F s) :
    Keeps F (perfWinStart b s) := by
  unfold perfWinStart
  with_reducible repeat' (first | assumption | apply keeps_winOpen | apply keeps_ite | split | (dsimp only; split))
theorem keeps_execPerfWindowStart (b : Fin 9) {s : State} (hs : Keeps F s) :
    KeepsO F (execPerfWindowStart b s) := by
  unfold execPerfWindowStart
  apply keepsO_next
  with_reducible repeat' (first | assumption | apply keeps_perfWinStart)
theorem keeps_perfWinEnd (b : Nat) {s : State} (hs : Keeps F s) :
    Keeps F (perfWinEnd b s) := by
  unfold perfWinEnd
  with_reducible repeat' (first | assumption | apply keeps_wrB | apply keeps_winCancel | apply keeps_ite | split | (dsimp only; split))
theorem keeps_execPerfWindowEnd (b : Fin 9) {s : State} (hs : Keeps F s) :
    KeepsO F (execPerfWindowEnd b s) := by
  unfold execPerfWindowEnd
  apply keepsO_next
  with_reducible repeat' (first | assumption | apply keeps_perfWinEnd)
theorem keeps_overflow (b n : Nat) {s : State} (hs : Keeps F s) :
    Keeps F (overflow b n s) := by
  unfold overflow
  with_reducible repeat' (first | assumption | apply keeps_perfCycle | apply keeps_perfIrq | apply keeps_perfAdd | apply keeps_ite | split
                                | (dsimp only; split))
theorem keeps_execPerfOverflow (b n : Fin 9) {s : State} (hs : Keeps F s) :
    KeepsO F (execPerfOverflow b n s) := by
  unfold execPerfOverflow
  apply keepsO_next
  with_reducible repeat' (first | assumption | apply keeps_overflow)
theorem keeps_counterRecord (m : Nat) {s : State} (hs : Keeps F s) (nHost : F.host = none := by assumption)
    (nLinks : F.links = none := by assumption) :
    Keeps F (counterRecord m s) := by
  unfold counterRecord
  with_reducible repeat' (first | assumption | apply keeps_ldtUse | apply keeps_hostWriteBy | apply keeps_modLink | apply keeps_ite | split
                                | (dsimp only; split))
theorem keeps_execCounterRecordPeriod (l : Pair) {s : State} (hs : Keeps F s) (nHost : F.host = none := by assumption)
    (nLinks : F.links = none := by assumption) :
    KeepsO F (execCounterRecordPeriod l s) := by
  unfold execCounterRecordPeriod
  apply keepsO_next
  with_reducible repeat' (first | assumption | apply keeps_counterRecord)
theorem keeps_idleCounts (t k : Nat) {s : State} (hs : Keeps F s) :
    Keeps F (idleCounts t k s) := by
  unfold idleCounts
  with_reducible repeat' (first | assumption | (intro _) | apply keeps_perfCycle | apply keeps_perfCount | apply keeps_perfTransfer
                                | apply keeps_each | apply keeps_foldl | apply keepsR_foldl | apply keeps_ite | split | (dsimp only; split))

/-! ### Boot -/

theorem keeps_resetDevice (mode : DevMode) (cause : Nat) {s : State} (hs : Keeps F s) (nSram : F.sram = none := by assumption)
    (nTakes : F.takes = none := by assumption) (nMode : F.mode = none := by assumption) (nTime : F.time = none := by assumption)
    (nLinks : F.links = none := by assumption) (nPairs : F.pairs = none := by assumption) (nPorts : F.ports = none := by assumption)
    (nTiles : F.tiles = none := by assumption) (nRuns : F.runs = none := by assumption) (nCaptures : F.captures = none := by assumption)
    (nSyns : F.syns = none := by assumption) (nLanes : F.lanes = none := by assumption) (nFw : F.fw = none := by assumption) :
    Keeps F (resetDevice mode cause s) := by
  unfold resetDevice
  dsimp only
  refine keeps_wr _ _ (keeps_wrF _ _ _ _ ⟨hs.1, hs.2, rfl, rfl, hs.5, rfl, rfl, ?_⟩)
  exact ⟨hs.8.1, hs.8.2.1, fun _ e => notFixed nSram e, fun _ e => notFixed nTakes e, hs.8.2.2.2.2.1, fun _ e => notFixed nMode e,
    fun _ e => notFixed nTime e, fun _ e => notFixed nLinks e, fun _ e => notFixed nPairs e, fun _ e => notFixed nPorts e,
    fun _ e => notFixed nTiles e, fun _ e => notFixed nRuns e, fun _ e => notFixed nCaptures e, fun _ e => notFixed nSyns e,
    fun _ e => notFixed nLanes e, fun _ e => notFixed nFw e⟩
theorem keeps_coldReset {s : State} (hs : Keeps F s) (nSram : F.sram = none := by assumption) (nTakes : F.takes = none := by assumption)
    (nMode : F.mode = none := by assumption) (nTime : F.time = none := by assumption) (nLinks : F.links = none := by assumption)
    (nPairs : F.pairs = none := by assumption) (nPorts : F.ports = none := by assumption) (nTiles : F.tiles = none := by assumption)
    (nRuns : F.runs = none := by assumption) (nCaptures : F.captures = none := by assumption) (nSyns : F.syns = none := by assumption)
    (nLanes : F.lanes = none := by assumption) (nFw : F.fw = none := by assumption) :
    Keeps F (coldReset s) := by
  unfold coldReset
  with_reducible repeat' (first | assumption | apply keeps_resetDevice)
theorem keeps_deviceReset (cause : Nat) {s : State} (hs : Keeps F s) (nSram : F.sram = none := by assumption)
    (nTakes : F.takes = none := by assumption) (nMode : F.mode = none := by assumption) (nTime : F.time = none := by assumption)
    (nLinks : F.links = none := by assumption) (nPairs : F.pairs = none := by assumption) (nPorts : F.ports = none := by assumption)
    (nTiles : F.tiles = none := by assumption) (nRuns : F.runs = none := by assumption) (nCaptures : F.captures = none := by assumption)
    (nSyns : F.syns = none := by assumption) (nLanes : F.lanes = none := by assumption) (nFw : F.fw = none := by assumption) :
    Keeps F (deviceReset cause s) := by
  unfold deviceReset
  with_reducible repeat' (first | assumption | apply keeps_resetDevice | apply keeps_ite | split | (dsimp only; split))
theorem keeps_execPowerOnReset {s : State} (hs : Keeps F s) (nSram : F.sram = none := by assumption) (nTakes : F.takes = none := by assumption)
    (nMode : F.mode = none := by assumption) (nTime : F.time = none := by assumption) (nLinks : F.links = none := by assumption)
    (nPairs : F.pairs = none := by assumption) (nPorts : F.ports = none := by assumption) (nTiles : F.tiles = none := by assumption)
    (nRuns : F.runs = none := by assumption) (nCaptures : F.captures = none := by assumption) (nSyns : F.syns = none := by assumption)
    (nLanes : F.lanes = none := by assumption) (nFw : F.fw = none := by assumption) :
    KeepsO F (execPowerOnReset s) := by
  unfold execPowerOnReset
  apply keepsO_next
  with_reducible repeat' (first | assumption | apply keeps_coldReset)
theorem keeps_vddAonLow {s : State} (hs : Keeps F s) (nSram : F.sram = none := by assumption) (nTakes : F.takes = none := by assumption)
    (nMode : F.mode = none := by assumption) (nTime : F.time = none := by assumption) (nLinks : F.links = none := by assumption)
    (nPairs : F.pairs = none := by assumption) (nPorts : F.ports = none := by assumption) (nTiles : F.tiles = none := by assumption)
    (nRuns : F.runs = none := by assumption) (nCaptures : F.captures = none := by assumption) (nSyns : F.syns = none := by assumption)
    (nLanes : F.lanes = none := by assumption) (nFw : F.fw = none := by assumption) :
    Keeps F (vddAonLow s) := by
  unfold vddAonLow
  with_reducible repeat' (first | assumption | apply keeps_coldReset)
theorem keeps_execVddAonLow {s : State} (hs : Keeps F s) (nSram : F.sram = none := by assumption) (nTakes : F.takes = none := by assumption)
    (nMode : F.mode = none := by assumption) (nTime : F.time = none := by assumption) (nLinks : F.links = none := by assumption)
    (nPairs : F.pairs = none := by assumption) (nPorts : F.ports = none := by assumption) (nTiles : F.tiles = none := by assumption)
    (nRuns : F.runs = none := by assumption) (nCaptures : F.captures = none := by assumption) (nSyns : F.syns = none := by assumption)
    (nLanes : F.lanes = none := by assumption) (nFw : F.fw = none := by assumption) :
    KeepsO F (execVddAonLow s) := by
  unfold execVddAonLow
  apply keepsO_next
  with_reducible repeat' (first | assumption | apply keeps_vddAonLow)
theorem keeps_bothCoresDead {s : State} (hs : Keeps F s) (nSram : F.sram = none := by assumption) (nTakes : F.takes = none := by assumption)
    (nMode : F.mode = none := by assumption) (nTime : F.time = none := by assumption) (nLinks : F.links = none := by assumption)
    (nPairs : F.pairs = none := by assumption) (nPorts : F.ports = none := by assumption) (nTiles : F.tiles = none := by assumption)
    (nRuns : F.runs = none := by assumption) (nCaptures : F.captures = none := by assumption) (nSyns : F.syns = none := by assumption)
    (nLanes : F.lanes = none := by assumption) (nFw : F.fw = none := by assumption) :
    Keeps F (bothCoresDead s) := by
  unfold bothCoresDead
  with_reducible repeat' (first | assumption | apply keeps_coldReset | apply keeps_ite | split | (dsimp only; split))
theorem keeps_execBothCoresDead {s : State} (hs : Keeps F s) (nSram : F.sram = none := by assumption) (nTakes : F.takes = none := by assumption)
    (nMode : F.mode = none := by assumption) (nTime : F.time = none := by assumption) (nLinks : F.links = none := by assumption)
    (nPairs : F.pairs = none := by assumption) (nPorts : F.ports = none := by assumption) (nTiles : F.tiles = none := by assumption)
    (nRuns : F.runs = none := by assumption) (nCaptures : F.captures = none := by assumption) (nSyns : F.syns = none := by assumption)
    (nLanes : F.lanes = none := by assumption) (nFw : F.fw = none := by assumption) :
    KeepsO F (execBothCoresDead s) := by
  unfold execBothCoresDead
  apply keepsO_next
  with_reducible repeat' (first | assumption | apply keeps_bothCoresDead)
theorem keeps_execResetNPulse {s : State} (hs : Keeps F s) (nSram : F.sram = none := by assumption) (nTakes : F.takes = none := by assumption)
    (nMode : F.mode = none := by assumption) (nTime : F.time = none := by assumption) (nLinks : F.links = none := by assumption)
    (nPairs : F.pairs = none := by assumption) (nPorts : F.ports = none := by assumption) (nTiles : F.tiles = none := by assumption)
    (nRuns : F.runs = none := by assumption) (nCaptures : F.captures = none := by assumption) (nSyns : F.syns = none := by assumption)
    (nLanes : F.lanes = none := by assumption) (nFw : F.fw = none := by assumption) :
    KeepsO F (execResetNPulse s) := by
  unfold execResetNPulse
  apply keepsO_next
  with_reducible repeat' (first | assumption | apply keeps_deviceReset)
theorem keeps_wakePin {s : State} (hs : Keeps F s) (nSram : F.sram = none := by assumption) (nTakes : F.takes = none := by assumption)
    (nMode : F.mode = none := by assumption) (nTime : F.time = none := by assumption) (nLinks : F.links = none := by assumption)
    (nPairs : F.pairs = none := by assumption) (nPorts : F.ports = none := by assumption) (nTiles : F.tiles = none := by assumption)
    (nRuns : F.runs = none := by assumption) (nCaptures : F.captures = none := by assumption) (nSyns : F.syns = none := by assumption)
    (nLanes : F.lanes = none := by assumption) (nFw : F.fw = none := by assumption) :
    Keeps F (wakePin s) := by
  unfold wakePin
  with_reducible repeat' (first | assumption | apply keeps_resetDevice | apply keeps_ite | split | (dsimp only; split))
theorem keeps_execWakePin {s : State} (hs : Keeps F s) (nSram : F.sram = none := by assumption) (nTakes : F.takes = none := by assumption)
    (nMode : F.mode = none := by assumption) (nTime : F.time = none := by assumption) (nLinks : F.links = none := by assumption)
    (nPairs : F.pairs = none := by assumption) (nPorts : F.ports = none := by assumption) (nTiles : F.tiles = none := by assumption)
    (nRuns : F.runs = none := by assumption) (nCaptures : F.captures = none := by assumption) (nSyns : F.syns = none := by assumption)
    (nLanes : F.lanes = none := by assumption) (nFw : F.fw = none := by assumption) :
    KeepsO F (execWakePin s) := by
  unfold execWakePin
  apply keepsO_next
  with_reducible repeat' (first | assumption | apply keeps_wakePin)
theorem keeps_offEntry {s : State} (hs : Keeps F s) (nSram : F.sram = none := by assumption) (nTakes : F.takes = none := by assumption)
    (nMode : F.mode = none := by assumption) (nTime : F.time = none := by assumption) (nLinks : F.links = none := by assumption)
    (nPairs : F.pairs = none := by assumption) (nPorts : F.ports = none := by assumption) (nTiles : F.tiles = none := by assumption)
    (nRuns : F.runs = none := by assumption) (nCaptures : F.captures = none := by assumption) (nSyns : F.syns = none := by assumption)
    (nLanes : F.lanes = none := by assumption) (nFw : F.fw = none := by assumption) :
    Keeps F (offEntry s) := by
  unfold offEntry
  with_reducible repeat' (first | assumption | apply keeps_resetDevice | apply keeps_ite | split | (dsimp only; split))
theorem keeps_execDeviceOffEntry {s : State} (hs : Keeps F s) (nSram : F.sram = none := by assumption) (nTakes : F.takes = none := by assumption)
    (nMode : F.mode = none := by assumption) (nTime : F.time = none := by assumption) (nLinks : F.links = none := by assumption)
    (nPairs : F.pairs = none := by assumption) (nPorts : F.ports = none := by assumption) (nTiles : F.tiles = none := by assumption)
    (nRuns : F.runs = none := by assumption) (nCaptures : F.captures = none := by assumption) (nSyns : F.syns = none := by assumption)
    (nLanes : F.lanes = none := by assumption) (nFw : F.fw = none := by assumption) :
    KeepsO F (execDeviceOffEntry s) := by
  unfold execDeviceOffEntry
  apply keepsO_next
  with_reducible repeat' (first | assumption | apply keeps_offEntry)
theorem keeps_putImage (a : Nat) (v : Nat) {s : State} (hs : Keeps F s) :
    Keeps F (putImage a v s) := by
  unfold putImage
  with_reducible repeat' (first | assumption | apply keeps_wr)
theorem keeps_applyBoard (r : List Byte) {s : State} (hs : Keeps F s) :
    Keeps F (applyBoard r s) := by
  unfold applyBoard
  with_reducible repeat' (first | assumption | (intro _) | apply keeps_putImage | apply keeps_wrF | apply keeps_wr | apply keeps_each)
theorem keeps_set_rootWords {s : State} {x0} (h : Keeps F s) : Keeps F { s with rootWords := x0 } :=
  ⟨h.1, h.2, h.3, h.4, h.5, h.6, h.7, h.8⟩
theorem keeps_bootRoot (r : List Byte) {s : State} (hs : Keeps F s) (nPairs : F.pairs = none := by assumption) :
    Keeps F (bootRoot r s) := by
  unfold bootRoot
  with_reducible repeat' (first | assumption | apply keeps_storeRootWord | apply keeps_rootSelect | apply keeps_wrF | apply keeps_ite | split
                                | (dsimp only; split) | apply keeps_set_rootPending | apply keeps_set_rootWords)
theorem keeps_set_rackBoot {s : State} {x0} (h : Keeps F s) : Keeps F { s with rackBoot := x0 } :=
  ⟨h.1, h.2, h.3, h.4, h.5, h.6, h.7, h.8⟩
theorem keeps_bootPll (i : Nat) {s : State} (hs : Keeps F s) (nSyns : F.syns = none := by assumption) :
    Keeps F (bootPll i s) := by
  unfold bootPll
  with_reducible repeat' (first | assumption | apply keeps_rackEnable | apply keeps_ite | split | (dsimp only; split) | apply keeps_set_rackBoot)
theorem keeps_applyRack (r : List Byte) {s : State} (hs : Keeps F s) (nSyns : F.syns = none := by assumption) :
    Keeps F (applyRack r s) := by
  unfold applyRack
  with_reducible repeat' (first | assumption | (intro _) | apply keeps_putImage | apply keeps_wrB | apply keeps_wrF | apply keeps_bootPll
                                | apply keeps_wr | apply keeps_each | apply keeps_ite | split | (dsimp only; split))
theorem keeps_bootWithout {s : State} (hs : Keeps F s) :
    Keeps F (bootWithout s) := by
  unfold bootWithout
  with_reducible repeat' (first | assumption | (intro _) | apply keeps_wr | apply keeps_each)
theorem keeps_tryBank (b crypto : Nat) {s : State} (hs : Keeps F s) :
    KeepsR F (tryBank b crypto s) := by
  unfold tryBank
  with_reducible repeat' (first | assumption | apply keeps_verifyBank | apply keeps_ite | apply keepsR_ite
                                | refine keepsR_eq (keeps_verifyBank _ _ ?_) (by assumption) | split | (dsimp only; split) | apply keeps_snd
                                | apply keepsR_mk)
theorem keeps_chooseBank (ty : Nat) (crypto : Nat → Nat) {s : State} (hs : Keeps F s) :
    KeepsR F (chooseBank ty crypto s) := by
  unfold chooseBank
  with_reducible repeat' (first | assumption | apply keeps_tryBank | apply keeps_wrB | apply keeps_raise | apply keeps_ite | apply keepsR_ite
                                | refine keepsR_eq (keeps_tryBank _ _ ?_) (by assumption) | split | (dsimp only; split) | apply keeps_snd
                                | apply keepsR_mk)
theorem keeps_imageRuns (ty b : Nat) {s : State} (hs : Keeps F s) (nFw : F.fw = none := by assumption) :
    Keeps F (imageRuns ty b s) := by
  unfold imageRuns
  with_reducible repeat' (first | assumption | apply keeps_modFw | apply keeps_ite | split | (dsimp only; split))
theorem keeps_bootPatch (crypto : Nat → Nat) {s : State} (hs : Keeps F s) (nFw : F.fw = none := by assumption) :
    Keeps F (bootPatch crypto s) := by
  unfold bootPatch
  with_reducible repeat' (first | assumption | apply keeps_chooseBank | apply keeps_imageRuns | apply keeps_draw | apply keeps_wrB
                                | apply keeps_modFw | apply keepsR_ite | refine keepsR_eq (keeps_chooseBank _ _ ?_) (by assumption)
                                | refine keepsR_eq (keeps_draw _ ?_) (by assumption) | split | (dsimp only; split) | apply keeps_snd)
theorem keeps_bootOperator (crypto : Nat → Nat) {s : State} (hs : Keeps F s) (nPairs : F.pairs = none := by assumption)
    (nFw : F.fw = none := by assumption) :
    Keeps F (bootOperator crypto s) := by
  unfold bootOperator
  with_reducible repeat' (first | assumption | (intro _) | apply keeps_chooseBank | apply keeps_pairsToSyn | apply keeps_imageRuns
                                | apply keeps_chainRestart | apply keeps_wrB | apply keeps_each | apply keeps_ite | apply keepsR_ite
                                | refine keepsR_eq (keeps_chooseBank _ _ ?_) (by assumption) | split | (dsimp only; split) | apply keeps_snd)
theorem keeps_factoryHeaders (imgs : List (List Byte)) {s : State} (hs : Keeps F s) (nFw : F.fw = none := by assumption) :
    Keeps F (factoryHeaders imgs s) := by
  unfold factoryHeaders
  with_reducible repeat' (first | assumption | (intro _) | apply keeps_modFw | apply keeps_each | apply keeps_ite | split | (dsimp only; split))
theorem keeps_contIndex {s : State} (hs : Keeps F s) :
    Keeps F (contIndex s) := by
  unfold contIndex
  with_reducible repeat' (first | assumption | (intro _) | apply keeps_contBadRead | apply keeps_foldl | apply keepsR_foldl | apply keeps_ite
                                | split | (dsimp only; split) | apply keeps_snd)
theorem keeps_set_mode {s : State} {x0} (h : Keeps F s) (nMode : F.mode = none := by assumption) : Keeps F { s with mode := x0 } :=
  ⟨h.1, h.2, h.3, h.4, h.5, h.6, h.7, fixes_mode h.8 nMode⟩
theorem keeps_deviceBoot (mgr : Bool) (passing : List (BitVec 4)) (imgs : List (List Byte × BitVec 3)) {s : State} (hs : Keeps F s)
    (nMode : F.mode = none := by assumption) (nPairs : F.pairs = none := by assumption) (nSyns : F.syns = none := by assumption)
    (nFw : F.fw = none := by assumption) :
    Keeps F (deviceBoot mgr passing imgs s) := by
  unfold deviceBoot
  with_reducible repeat' (first | assumption | (intro _) | apply keeps_wrB | apply keeps_bootPatch | apply keeps_factoryHeaders
                                | apply keeps_applyBoard | apply keeps_bootWithout | apply keeps_monPass | apply keeps_applyRack
                                | apply keeps_bootRoot | apply keeps_unitResetEvent | apply keeps_raise | apply keeps_contIndex
                                | apply keeps_bootOperator | apply keeps_foldl | apply keepsR_foldl | apply keeps_ite | split
                                | (dsimp only; split) | apply keeps_snd | apply keeps_set_mode | apply keeps_set_pcie)
theorem keeps_execDeviceBoot (mgr : Bool) (passing : List (BitVec 4)) (imgs : List (List Byte × BitVec 3)) {s : State} (hs : Keeps F s)
    (nMode : F.mode = none := by assumption) (nPairs : F.pairs = none := by assumption) (nSyns : F.syns = none := by assumption)
    (nFw : F.fw = none := by assumption) :
    KeepsO F (execDeviceBoot mgr passing imgs s) := by
  unfold execDeviceBoot
  apply keepsO_next
  with_reducible repeat' (first | assumption | apply keeps_deviceBoot)
theorem keeps_rackBootEnable (i : Nat) {s : State} (hs : Keeps F s) (nSyns : F.syns = none := by assumption) :
    Keeps F (rackBootEnable i s) := by
  unfold rackBootEnable
  with_reducible repeat' (first | assumption | apply keeps_rackEnable | apply keeps_ite | split | (dsimp only; split) | apply keeps_set_rackBoot)
theorem keeps_execRackPllBootEnable (i : Pll) {s : State} (hs : Keeps F s) (nSyns : F.syns = none := by assumption) :
    KeepsO F (execRackPllBootEnable i s) := by
  unfold execRackPllBootEnable
  apply keepsO_next
  with_reducible repeat' (first | assumption | apply keeps_rackBootEnable)
theorem keeps_tileSynths (t : Nat) {s : State} (hs : Keeps F s) (nPairs : F.pairs = none := by assumption)
    (nSyns : F.syns = none := by assumption) (nLanes : F.lanes = none := by assumption) :
    Keeps F (tileSynths t s) := by
  unfold tileSynths
  with_reducible repeat' (first | assumption | (intro _) | apply keeps_synRestart | apply keeps_each | apply keeps_ite | split
                                | (dsimp only; split))
theorem keeps_execTileSynthEnable (t : Tile) {s : State} (hs : Keeps F s) (nPairs : F.pairs = none := by assumption)
    (nSyns : F.syns = none := by assumption) (nLanes : F.lanes = none := by assumption) :
    KeepsO F (execTileSynthEnable t s) := by
  unfold execTileSynthEnable
  apply keepsO_next
  with_reducible repeat' (first | assumption | apply keeps_tileSynths)
theorem keeps_badKey {s : State} (hs : Keeps F s) :
    Keeps F (badKey s) := by
  unfold badKey
  with_reducible repeat' (first | assumption | apply keeps_accessError)
theorem keeps_set_bcfg {s : State} {x0} (h : Keeps F s) : Keeps F { s with bcfg := x0 } :=
  ⟨h.1, h.2, h.3, h.4, h.5, h.6, h.7, h.8⟩
theorem keeps_bcfgSetup (w : Word) {s : State} (hs : Keeps F s) :
    Keeps F (bcfgSetup w s) := by
  unfold bcfgSetup
  with_reducible repeat' (first | assumption | apply keeps_badKey | apply keeps_accessError | apply keeps_wrB | apply keeps_ite | split
                                | (dsimp only; split) | apply keeps_set_bcfg)
theorem keeps_set_mram_bcfg {s : State} {x} (a : Nat) (b : List Byte) (h : Keeps F s) (nMram : F.mram = none := by assumption) :
    Keeps F { s with mram := putBytes0 s.mram a b, bcfg := x } :=
  ⟨h.1, bytesWf_putBytes0 a b h.2, h.3, h.4, h.5, h.6, h.7, fixes_mram h.8 nMram⟩
theorem keeps_bcfgCommit (w : Word) {s : State} (hs : Keeps F s) (nMram : F.mram = none := by assumption) :
    Keeps F (bcfgCommit w s) := by
  unfold bcfgCommit
  with_reducible repeat' (first | assumption | apply keeps_badKey | apply keeps_wrB | apply keeps_beginWake | apply keeps_wrF
                                | apply keeps_set_mram_bcfg | apply keeps_ite | split | (dsimp only; split))
theorem keeps_bcfgAdvance {s : State} (hs : Keeps F s) :
    Keeps F (bcfgAdvance s) := by
  unfold bcfgAdvance
  with_reducible repeat' (first | assumption | apply keeps_wrF)
theorem keeps_bcfgRead {s : State} (hs : Keeps F s) :
    KeepsR F (bcfgRead s) := by
  unfold bcfgRead
  with_reducible repeat' (first | assumption | apply keeps_bcfgAdvance | apply keepsR_ite | split | (dsimp only; split) | apply keepsR_mk)
theorem keeps_bcfgWrite (w : Word) {s : State} (hs : Keeps F s) :
    Keeps F (bcfgWrite w s) := by
  unfold bcfgWrite
  with_reducible repeat' (first | assumption | apply keeps_bcfgAdvance | split | (dsimp only; split) | apply keeps_set_bcfg)
theorem keeps_bcfgCtlWrite (w : Word) {s : State} (hs : Keeps F s) (nMram : F.mram = none := by assumption) :
    Keeps F (bcfgCtlWrite w s) := by
  unfold bcfgCtlWrite
  with_reducible repeat' (first | assumption | apply keeps_bcfgSetup | apply keeps_bcfgCommit | apply keeps_ite | split | (dsimp only; split))

/-! ### Bus -/

theorem keeps_set_stalls {s : State} {x0} (h : Keeps F s) : Keeps F { s with stalls := x0 } :=
  ⟨h.1, h.2, h.3, h.4, h.5, h.6, h.7, h.8⟩
theorem keeps_stallOver (v : View) (a : Nat) (write : Bool) {s : State} (hs : Keeps F s) :
    Keeps F (stallOver v a write s) := by
  unfold stallOver
  with_reducible repeat' (first | assumption | apply keeps_snd | apply keeps_set_stalls)
theorem keeps_stalled (v : View) (a : Nat) (write : Bool) {s : State} (hs : Keeps F s) :
    Keeps F (stalled v a write s) := by
  unfold stalled
  with_reducible repeat' (first | assumption | (intro _) | apply keeps_beginWake | apply keeps_each | apply keeps_ite | split
                                | (dsimp only; split) | apply keeps_set_stalls)
theorem keeps_accessDone (v : View) (a : Nat) (error : Bool) {s : State} (hs : Keeps F s) :
    Keeps F (accessDone v a error s) := by
  unfold accessDone
  with_reducible repeat' (first | assumption | apply keeps_perfCount | apply keeps_ite | split | (dsimp only; split))
theorem keeps_served (v : View) (a : Nat) (write : Bool) {s : State} (hs : Keeps F s) :
    Keeps F (served v a write s) := by
  unfold served
  with_reducible repeat' (first | assumption | apply keeps_accessDone | apply keeps_stallOver)
theorem keeps_aerNote (bit a : Nat) (write : Bool) {s : State} (hs : Keeps F s) :
    Keeps F (aerNote bit a write s) := by
  unfold aerNote
  with_reducible repeat' (first | assumption | apply keeps_set_pcie)
theorem keeps_accessFails (v : View) (a cause : Nat) (write : Bool) {s : State} (hs : Keeps F s) :
    Keeps F (accessFails v a cause write s) := by
  unfold accessFails
  with_reducible repeat' (first | assumption | apply keeps_aerNote | apply keeps_firewallRefusal | apply keeps_accessError | apply keeps_ite
                                | split | (dsimp only; split))
theorem keeps_unreached (v : View) {s : State} (hs : Keeps F s) :
    Keeps F (unreached v s) := by
  unfold unreached
  with_reducible repeat' (first | assumption | apply keeps_emit | apply keeps_ite | split | (dsimp only; split))
theorem keeps_unsupported (v : View) (a : Nat) (write : Bool) {s : State} (hs : Keeps F s) :
    Keeps F (unsupported v a write s) := by
  unfold unsupported
  with_reducible repeat' (first | assumption | apply keeps_unreached | apply keeps_aerNote | apply keeps_ite | split | (dsimp only; split))
theorem keeps_msixRelease (v : Nat) {s : State} (hs : Keeps F s) :
    Keeps F (msixRelease v s) := by
  unfold msixRelease
  with_reducible repeat' (first | assumption | apply keeps_emit | apply keeps_ite | split | (dsimp only; split) | apply keeps_set_pcie)
theorem keeps_msixReleaseAll {s : State} (hs : Keeps F s) :
    Keeps F (msixReleaseAll s) := by
  unfold msixReleaseAll
  with_reducible repeat' (first | assumption | (intro _) | apply keeps_msixRelease | apply keeps_foldl | apply keepsR_foldl)
theorem keeps_msixMask (v : Nat) (masked : Bool) {s : State} (hs : Keeps F s) :
    Keeps F (msixMask v masked s) := by
  unfold msixMask
  with_reducible repeat' (first | assumption | apply keeps_msixRelease | apply keeps_ite | split | (dsimp only; split) | apply keeps_set_pcie)
theorem keeps_msixWrite (o : Nat) (w : Word) {s : State} (hs : Keeps F s) :
    Keeps F (msixWrite o w s) := by
  unfold msixWrite
  with_reducible repeat' (first | assumption | apply keeps_msixMask | apply keeps_wr | apply keeps_ite | split | (dsimp only; split))
theorem keeps_plainWrite (i : RegInfo) (a : Nat) (w : Word) {s : State} (hs : Keeps F s) :
    Keeps F (plainWrite i a w s) := by
  unfold plainWrite
  with_reducible repeat' (first | assumption | apply keeps_wr)
theorem keeps_portCtlWrite (v : View) (p : Nat) (w : Word) {s : State} (hs : Keeps F s) (nLinks : F.links = none := by assumption)
    (nPairs : F.pairs = none := by assumption) (nPorts : F.ports = none := by assumption) (nTiles : F.tiles = none := by assumption)
    (nRuns : F.runs = none := by assumption) (nCaptures : F.captures = none := by assumption) (nSyns : F.syns = none := by assumption)
    (nLanes : F.lanes = none := by assumption) :
    Keeps F (portCtlWrite v p w s) := by
  unfold portCtlWrite
  with_reducible repeat' (first | assumption | apply keeps_accessError | apply keeps_wrB | apply keeps_portReset | apply keeps_ite | split
                                | (dsimp only; split))
theorem keeps_pairCtlWrite (l : Nat) (w : Word) {s : State} (hs : Keeps F s) (nLinks : F.links = none := by assumption)
    (nPairs : F.pairs = none := by assumption) (nPorts : F.ports = none := by assumption) (nTiles : F.tiles = none := by assumption)
    (nRuns : F.runs = none := by assumption) (nCaptures : F.captures = none := by assumption) (nSyns : F.syns = none := by assumption)
    (nLanes : F.lanes = none := by assumption) :
    Keeps F (pairCtlWrite l w s) := by
  unfold pairCtlWrite
  with_reducible repeat' (first | assumption | apply keeps_wrB | apply keeps_lineMux | apply keeps_linksLoseBanks | apply keeps_pairRestart
                                | apply keeps_ite | split | (dsimp only; split))
theorem keeps_snapCtlWrite (v : View) (w : Word) {s : State} (hs : Keeps F s) :
    Keeps F (snapCtlWrite v w s) := by
  unfold snapCtlWrite
  with_reducible repeat' (first | assumption | apply keeps_wrView | apply keeps_wrB | apply keeps_snapGo | apply keeps_ite | split
                                | (dsimp only; split))
theorem keeps_rootSrcWrite (v : View) (w : Word) {s : State} (hs : Keeps F s) (nPairs : F.pairs = none := by assumption) :
    Keeps F (rootSrcWrite v w s) := by
  unfold rootSrcWrite
  with_reducible repeat' (first | assumption | apply keeps_accessError | apply keeps_rootSelect | apply keeps_ite | split | (dsimp only; split))
theorem keeps_clkEnWrite (w : Word) {s : State} (hs : Keeps F s) :
    Keeps F (clkEnWrite w s) := by
  unfold clkEnWrite
  with_reducible repeat' (first | assumption | apply keeps_wr | apply keeps_chainRestart | apply keeps_ite | split | (dsimp only; split))
theorem keeps_strapsWrite (i : RegInfo) (w : Word) {s : State} (hs : Keeps F s) :
    Keeps F (strapsWrite i w s) := by
  unfold strapsWrite
  with_reducible repeat' (first | assumption | apply keeps_plainWrite | apply keeps_chainRestart | apply keeps_ite | split | (dsimp only; split))
theorem keeps_resetCtlWrite (v : View) (w : Word) {s : State} (hs : Keeps F s) (nSram : F.sram = none := by assumption)
    (nTakes : F.takes = none := by assumption) (nMode : F.mode = none := by assumption) (nTime : F.time = none := by assumption)
    (nLinks : F.links = none := by assumption) (nPairs : F.pairs = none := by assumption) (nPorts : F.ports = none := by assumption)
    (nTiles : F.tiles = none := by assumption) (nRuns : F.runs = none := by assumption) (nCaptures : F.captures = none := by assumption)
    (nSyns : F.syns = none := by assumption) (nLanes : F.lanes = none := by assumption) (nFw : F.fw = none := by assumption) :
    Keeps F (resetCtlWrite v w s) := by
  unfold resetCtlWrite
  with_reducible repeat' (first | assumption | apply keeps_accessError | apply keeps_deviceReset | apply keeps_ite | split | (dsimp only; split))
theorem keeps_frameConfigWrite (v : View) (w : Word) {s : State} (hs : Keeps F s) :
    Keeps F (frameConfigWrite v w s) := by
  unfold frameConfigWrite
  with_reducible repeat' (first | assumption | (intro _) | apply keeps_wr | apply keeps_accessError | apply keeps_foldl | apply keepsR_foldl
                                | apply keeps_ite | split | (dsimp only; split))
theorem keeps_domWrite (v : View) (i : RegInfo) (a : Nat) (w : Word) {s : State} (hs : Keeps F s) :
    Keeps F (domWrite v i a w s) := by
  unfold domWrite
  with_reducible repeat' (first | assumption | apply keeps_domCtlWrite | apply keeps_accessError | apply keeps_plainWrite | apply keeps_ite
                                | split | (dsimp only; split))
theorem keeps_rackWrite (i : RegInfo) (a : Nat) (w : Word) {s : State} (hs : Keeps F s) (nPairs : F.pairs = none := by assumption)
    (nSyns : F.syns = none := by assumption) (nLanes : F.lanes = none := by assumption) :
    Keeps F (rackWrite i a w s) := by
  unfold rackWrite
  with_reducible repeat' (first | assumption | apply keeps_rackCtlWrite | apply keeps_rackSlotWrite | apply keeps_outCfgWrite
                                | apply keeps_outPhaseWrite | apply keeps_outReturn | apply keeps_plainWrite | apply keeps_ite | split
                                | (dsimp only; split))
theorem keeps_ringWrite (v : View) (i : RegInfo) (a : Nat) (w : Word) {s : State} (hs : Keeps F s) :
    Keeps F (ringWrite v i a w s) := by
  unfold ringWrite
  with_reducible repeat' (first | assumption | apply keeps_sqCfgWrite | apply keeps_ringBaseWrite | apply keeps_cqCfgWrite
                                | apply keeps_plainWrite | apply keeps_ite | split | (dsimp only; split))
theorem keeps_perfWrite (v : View) (i : RegInfo) (b o : Nat) (w : Word) {s : State} (hs : Keeps F s) :
    Keeps F (perfWrite v i b o w s) := by
  unfold perfWrite
  with_reducible repeat' (first | assumption | apply keeps_perfCtlWrite | apply keeps_perfWinWrite | apply keeps_perfSelWrite
                                | apply keeps_plainWrite | apply keeps_ite | split | (dsimp only; split))
theorem keeps_synWrite (i : RegInfo) (x o : Nat) (w : Word) {s : State} (hs : Keeps F s) (nPairs : F.pairs = none := by assumption)
    (nSyns : F.syns = none := by assumption) (nLanes : F.lanes = none := by assumption) :
    Keeps F (synWrite i x o w s) := by
  unfold synWrite
  with_reducible repeat' (first | assumption | apply keeps_synCtlWrite | apply keeps_synWordWrite | apply keeps_plainWrite | apply keeps_ite
                                | split | (dsimp only; split))
theorem keeps_hubWrite (v : View) (i : RegInfo) (a : Nat) (w : Word) (step : BitVec 16) (diff : Word) {s : State} (hs : Keeps F s)
    (nMram : F.mram = none := by assumption) (nSram : F.sram = none := by assumption) (nTakes : F.takes = none := by assumption)
    (nMode : F.mode = none := by assumption) (nTime : F.time = none := by assumption) (nLinks : F.links = none := by assumption)
    (nPairs : F.pairs = none := by assumption) (nPorts : F.ports = none := by assumption) (nTiles : F.tiles = none := by assumption)
    (nRuns : F.runs = none := by assumption) (nCaptures : F.captures = none := by assumption) (nSyns : F.syns = none := by assumption)
    (nLanes : F.lanes = none := by assumption) (nFw : F.fw = none := by assumption) :
    Keeps F (hubWrite v i a w step diff s) := by
  unfold hubWrite
  with_reducible repeat' (first | assumption | apply keeps_snapCtlWrite | apply keeps_wr | apply keeps_strapsWrite | apply keeps_resetCtlWrite
                                | apply keeps_rootSrcWrite | apply keeps_clkEnWrite | apply keeps_refSelWrite | apply keeps_domWrite
                                | apply keeps_plWrite | apply keeps_evtCfgWrite | apply keeps_rackWrite | apply keeps_chainCtlWrite
                                | apply keeps_frameConfigWrite | apply keeps_bcfgCtlWrite | apply keeps_bcfgWrite | apply keeps_perfWrite
                                | apply keeps_ringWrite | apply keeps_ldtBaseWrite | apply keeps_ldtCtlWrite | apply keeps_plainWrite
                                | apply keeps_ite | split | (dsimp only; split))
theorem keeps_tileWrite (v : View) (i : RegInfo) (a : Nat) (w : Word) {s : State} (hs : Keeps F s) (nLinks : F.links = none := by assumption)
    (nPairs : F.pairs = none := by assumption) (nPorts : F.ports = none := by assumption) (nTiles : F.tiles = none := by assumption)
    (nRuns : F.runs = none := by assumption) (nCaptures : F.captures = none := by assumption) (nSyns : F.syns = none := by assumption)
    (nLanes : F.lanes = none := by assumption) :
    Keeps F (tileWrite v i a w s) := by
  unfold tileWrite
  with_reducible repeat' (first | assumption | apply keeps_tileReset | apply keeps_synWrite | apply keeps_perfWrite | apply keeps_plainWrite
                                | apply keeps_portCtlWrite | apply keeps_hlCtlWrite | apply keeps_pairCtlWrite | apply keeps_ite | split
                                | (dsimp only; split))
theorem keeps_bar2Write (a : Nat) (w : Word) {s : State} (hs : Keeps F s) :
    Keeps F (bar2Write a w s) := by
  unfold bar2Write
  with_reducible repeat' (first | assumption | apply keeps_sqTailWrite | apply keeps_cqHeadWrite | apply keeps_evtHeadWrite
                                | apply keeps_mailboxCtlWrite | apply keeps_ite | split | (dsimp only; split))
theorem keeps_regWrite (v : View) (i : RegInfo) (a : Nat) (w : Word) (step : BitVec 16) (diff : Word) {s : State} (hs : Keeps F s)
    (nMram : F.mram = none := by assumption) (nSram : F.sram = none := by assumption) (nTakes : F.takes = none := by assumption)
    (nMode : F.mode = none := by assumption) (nTime : F.time = none := by assumption) (nLinks : F.links = none := by assumption)
    (nPairs : F.pairs = none := by assumption) (nPorts : F.ports = none := by assumption) (nTiles : F.tiles = none := by assumption)
    (nRuns : F.runs = none := by assumption) (nCaptures : F.captures = none := by assumption) (nSyns : F.syns = none := by assumption)
    (nLanes : F.lanes = none := by assumption) (nFw : F.fw = none := by assumption) :
    Keeps F (regWrite v i a w step diff s) := by
  unfold regWrite
  with_reducible repeat' (first | assumption | apply keeps_hubWrite | apply keeps_tileWrite | apply keeps_bar2Write | apply keeps_ite | split
                                | (dsimp only; split))
theorem keeps_rushWrite (a : Nat) (w : Word) {s : State} (hs : Keeps F s) :
    Keeps F (rushWrite a w s) := by
  unfold rushWrite
  with_reducible repeat' (first | assumption | apply keeps_areaPut | split | (dsimp only; split))
theorem keeps_windowWords (v : View) (a : Nat) (write : Bool) {s : State} (hs : Keeps F s) :
    Keeps F (windowWords v a write s) := by
  unfold windowWords
  with_reducible repeat' (first | assumption | apply keeps_groupWords | apply keeps_ite | split | (dsimp only; split))
theorem keeps_mramWindowWrite (v : View) (a : Nat) (w : Word) {s : State} (hs : Keeps F s) (nMram : F.mram = none := by assumption) :
    Keeps F (mramWindowWrite v a w s) := by
  unfold mramWindowWrite
  with_reducible repeat' (first | assumption | apply keeps_draw | apply keeps_accessError | apply keeps_set_mram | apply keeps_ite
                                | apply keepsR_ite | refine keepsR_eq (keeps_draw _ ?_) (by assumption) | split | (dsimp only; split)
                                | apply keeps_snd)
theorem keeps_set_sram {s : State} (a : Nat) (b : List Byte) (h : Keeps F s) (nSram : F.sram = none := by assumption) :
    Keeps F { s with sram := putBytes0 s.sram a b } :=
  ⟨h.1, h.2, bytesWf_putBytes0 a b h.3, h.4, h.5, h.6, h.7, fixes_sram h.8 nSram⟩
theorem keeps_windowWrite (v : View) (a : Nat) (w : Word) {s : State} (hs : Keeps F s) (nMram : F.mram = none := by assumption)
    (nSram : F.sram = none := by assumption) :
    Keeps F (windowWrite v a w s) := by
  unfold windowWrite
  with_reducible repeat' (first | assumption | apply keeps_mailboxBufWrite | apply keeps_msixWrite | apply keeps_mramWindowWrite
                                | apply keeps_rushWrite | apply keeps_windowWords | apply keeps_set_sram | apply keeps_ite | split
                                | (dsimp only; split))
theorem keeps_keepReserved (v : View) (a : Nat) (cur w : Word) {s : State} (hs : Keeps F s) :
    KeepsR F (keepReserved v a cur w s) := by
  unfold keepReserved
  with_reducible repeat' (first | assumption | (intro _) | apply keeps_accessError | apply keeps_foldl | apply keepsR_foldl | apply keeps_ite
                                | apply keepsR_ite | split | (dsimp only; split) | apply keeps_snd | apply keepsR_mk)
theorem keeps_serveWrite (v : View) (a : Nat) (w : Word) (step : BitVec 16) (diff : Word) {s : State} (hs : Keeps F s)
    (nMram : F.mram = none := by assumption) (nSram : F.sram = none := by assumption) (nTakes : F.takes = none := by assumption)
    (nMode : F.mode = none := by assumption) (nTime : F.time = none := by assumption) (nLinks : F.links = none := by assumption)
    (nPairs : F.pairs = none := by assumption) (nPorts : F.ports = none := by assumption) (nTiles : F.tiles = none := by assumption)
    (nRuns : F.runs = none := by assumption) (nCaptures : F.captures = none := by assumption) (nSyns : F.syns = none := by assumption)
    (nLanes : F.lanes = none := by assumption) (nFw : F.fw = none := by assumption) :
    Keeps F (serveWrite v a w step diff s) := by
  unfold serveWrite
  with_reducible repeat' (first | assumption | apply keeps_windowWrite | apply keeps_firewallRefusal | apply keeps_accessError
                                | apply keeps_keepReserved | apply keeps_regWrite | apply keeps_ite | apply keepsR_ite
                                | refine keepsR_eq (keeps_keepReserved _ _ _ _ ?_) (by assumption) | split | (dsimp only; split)
                                | apply keeps_snd)
theorem keeps_writeWord (v : View) (a : Nat) (w : Word) (whole : Bool) (step : BitVec 16) (diff : Word) {s : State} (hs : Keeps F s)
    (nMram : F.mram = none := by assumption) (nSram : F.sram = none := by assumption) (nTakes : F.takes = none := by assumption)
    (nMode : F.mode = none := by assumption) (nTime : F.time = none := by assumption) (nLinks : F.links = none := by assumption)
    (nPairs : F.pairs = none := by assumption) (nPorts : F.ports = none := by assumption) (nTiles : F.tiles = none := by assumption)
    (nRuns : F.runs = none := by assumption) (nCaptures : F.captures = none := by assumption) (nSyns : F.syns = none := by assumption)
    (nLanes : F.lanes = none := by assumption) (nFw : F.fw = none := by assumption) :
    KeepsR F (writeWord v a w whole step diff s) := by
  unfold writeWord
  with_reducible repeat' (first | assumption | apply keeps_unsupported | apply keeps_accessDone | apply keeps_accessFails | apply keeps_stallOver
                                | apply keeps_stalled | apply keeps_serveWrite | apply keeps_served | apply keeps_ite | apply keepsR_ite | split
                                | (dsimp only; split) | apply keepsR_mk)
theorem keeps_busWrite (v : View) (a : Nat) (w : Word) {s : State} (hs : Keeps F s) (nMram : F.mram = none := by assumption)
    (nSram : F.sram = none := by assumption) (nTakes : F.takes = none := by assumption) (nMode : F.mode = none := by assumption)
    (nTime : F.time = none := by assumption) (nLinks : F.links = none := by assumption) (nPairs : F.pairs = none := by assumption)
    (nPorts : F.ports = none := by assumption) (nTiles : F.tiles = none := by assumption) (nRuns : F.runs = none := by assumption)
    (nCaptures : F.captures = none := by assumption) (nSyns : F.syns = none := by assumption) (nLanes : F.lanes = none := by assumption)
    (nFw : F.fw = none := by assumption) :
    Keeps F (busWrite v a w s) := by
  unfold busWrite
  with_reducible repeat' (first | assumption | apply keeps_draw | apply keeps_writeWord | apply keeps_ite | apply keepsR_ite
                                | refine keepsR_eq (keeps_draw _ ?_) (by assumption)
                                | refine keepsR_eq (keeps_writeWord _ _ _ _ _ _ ?_) (by assumption) | split | (dsimp only; split)
                                | apply keeps_snd)
theorem keeps_set_timeLatch {s : State} {x0} (h : Keeps F s) : Keeps F { s with timeLatch := x0 } :=
  ⟨h.1, h.2, h.3, h.4, h.5, h.6, h.7, h.8⟩
theorem keeps_afterRead (v : View) (a : Nat) {s : State} (hs : Keeps F s) :
    Keeps F (afterRead v a s) := by
  unfold afterRead
  split
  · exact keeps_same hs rfl rfl rfl rfl rfl rfl
  split
  · exact keeps_same hs rfl rfl rfl rfl rfl rfl
  split
  · exact keeps_snd (keeps_bcfgRead hs)
  split
  · split
    · exact hs
    · exact keeps_wrView _ _ _ hs
  · exact hs
theorem keeps_readValue (v : View) (a : Nat) {s : State} (hs : Keeps F s) :
    KeepsR F (readValue v a s) := by
  unfold readValue
  with_reducible repeat' (first | assumption | apply keeps_bcfgRead | apply keeps_draw | apply keeps_ite | apply keepsR_ite
                                | refine keepsR_eq (keeps_bcfgRead ?_) (by assumption) | refine keepsR_eq (keeps_draw _ ?_) (by assumption)
                                | split | (dsimp only; split) | apply keeps_snd | apply keepsR_mk)
theorem keeps_readWord (v : View) (a : Nat) (whole : Bool) {s : State} (hs : Keeps F s) :
    KeepsR F (readWord v a whole s) := by
  unfold readWord
  with_reducible repeat' (first | assumption | apply keeps_accessDone | apply keeps_accessFails | apply keeps_stallOver | apply keeps_stalled
                                | apply keeps_readValue | apply keeps_windowWords | apply keeps_served | apply keeps_afterRead | apply keeps_ite
                                | apply keepsR_ite | refine keepsR_eq (keeps_readValue _ _ ?_) (by assumption) | split | (dsimp only; split)
                                | apply keeps_snd | apply keepsR_mk)
theorem keeps_busRead (v : View) (a : Nat) (whole : Bool) {s : State} (hs : Keeps F s) :
    Keeps F (busRead v a whole s) := by
  unfold busRead
  with_reducible repeat' (first | assumption | apply keeps_unsupported | apply keeps_readWord | apply keeps_emit | apply keeps_ite
                                | apply keepsR_ite | refine keepsR_eq (keeps_readWord _ _ _ ?_) (by assumption) | split | (dsimp only; split)
                                | apply keeps_snd)
theorem keeps_servedAt (v : View) (a : Nat) {s : State} (hs : Keeps F s) :
    KeepsR F (servedAt v a s) := by
  unfold servedAt
  with_reducible repeat' (first | assumption | apply keeps_unsupported | apply keeps_accessDone | apply keeps_accessFails | apply keeps_stallOver
                                | apply keeps_stalled | apply keeps_served | apply keeps_ite | apply keepsR_ite | split | (dsimp only; split)
                                | apply keepsR_mk)
theorem keeps_execRegisterWrite (v : View) (a : BitVec 29) (w : Word) (whole : Bool) {s : State} (hs : Keeps F s)
    (nMram : F.mram = none := by assumption) (nSram : F.sram = none := by assumption) (nTakes : F.takes = none := by assumption)
    (nMode : F.mode = none := by assumption) (nTime : F.time = none := by assumption) (nLinks : F.links = none := by assumption)
    (nPairs : F.pairs = none := by assumption) (nPorts : F.ports = none := by assumption) (nTiles : F.tiles = none := by assumption)
    (nRuns : F.runs = none := by assumption) (nCaptures : F.captures = none := by assumption) (nSyns : F.syns = none := by assumption)
    (nLanes : F.lanes = none := by assumption) (nFw : F.fw = none := by assumption) :
    KeepsO F (execRegisterWrite v a w whole s) := by
  unfold execRegisterWrite
  apply keepsO_next
  with_reducible repeat' (first | assumption | apply keeps_busWrite | apply keeps_writeWord | apply keeps_ite | apply keepsR_ite
                                | refine keepsR_eq (keeps_writeWord _ _ _ _ _ _ ?_) (by assumption) | split | (dsimp only; split)
                                | apply keeps_snd)
theorem keeps_execClearOnRead (v : View) (a : BitVec 29) (whole : Bool) {s : State} (hs : Keeps F s) :
    KeepsO F (execClearOnRead v a whole s) := by
  unfold execClearOnRead
  apply keepsO_next
  with_reducible repeat' (first | assumption | apply keeps_busRead)
theorem keeps_execDevTimeLoRead (v : View) {s : State} (hs : Keeps F s) :
    KeepsO F (execDevTimeLoRead v s) := by
  unfold execDevTimeLoRead
  apply keepsO_next
  with_reducible repeat' (first | assumption | apply keeps_busRead)
theorem keeps_execSnapCtlGo (v : View) {s : State} (hs : Keeps F s) (nMram : F.mram = none := by assumption)
    (nSram : F.sram = none := by assumption) (nTakes : F.takes = none := by assumption) (nMode : F.mode = none := by assumption)
    (nTime : F.time = none := by assumption) (nLinks : F.links = none := by assumption) (nPairs : F.pairs = none := by assumption)
    (nPorts : F.ports = none := by assumption) (nTiles : F.tiles = none := by assumption) (nRuns : F.runs = none := by assumption)
    (nCaptures : F.captures = none := by assumption) (nSyns : F.syns = none := by assumption) (nLanes : F.lanes = none := by assumption)
    (nFw : F.fw = none := by assumption) :
    KeepsO F (execSnapCtlGo v s) := by
  unfold execSnapCtlGo
  apply keepsO_next
  with_reducible repeat' (first | assumption | apply keeps_busWrite)
theorem keeps_execSnapCtlHeld (v : View) (b : Bool) {s : State} (hs : Keeps F s) (nMram : F.mram = none := by assumption)
    (nSram : F.sram = none := by assumption) (nTakes : F.takes = none := by assumption) (nMode : F.mode = none := by assumption)
    (nTime : F.time = none := by assumption) (nLinks : F.links = none := by assumption) (nPairs : F.pairs = none := by assumption)
    (nPorts : F.ports = none := by assumption) (nTiles : F.tiles = none := by assumption) (nRuns : F.runs = none := by assumption)
    (nCaptures : F.captures = none := by assumption) (nSyns : F.syns = none := by assumption) (nLanes : F.lanes = none := by assumption)
    (nFw : F.fw = none := by assumption) :
    KeepsO F (execSnapCtlHeld v b s) := by
  unfold execSnapCtlHeld
  apply keepsO_next
  with_reducible repeat' (first | assumption | apply keeps_busWrite | apply keeps_ite | split | (dsimp only; split))
theorem keeps_execSqTailDoorbell (n : Ring) (w : Word) {s : State} (hs : Keeps F s) :
    KeepsO F (execSqTailDoorbell n w s) := by
  unfold execSqTailDoorbell
  apply keepsO_next
  with_reducible repeat' (first | assumption | apply keeps_servedAt | apply keeps_sqTailWrite | apply keepsR_ite
                                | refine keepsR_eq (keeps_servedAt _ _ ?_) (by assumption) | split | (dsimp only; split) | apply keeps_snd)
theorem keeps_execCqHeadDoorbell (n : Ring) (w : Word) {s : State} (hs : Keeps F s) :
    KeepsO F (execCqHeadDoorbell n w s) := by
  unfold execCqHeadDoorbell
  apply keepsO_next
  with_reducible repeat' (first | assumption | apply keeps_servedAt | apply keeps_cqHeadWrite | apply keepsR_ite
                                | refine keepsR_eq (keeps_servedAt _ _ ?_) (by assumption) | split | (dsimp only; split) | apply keeps_snd)
theorem keeps_execEventRingHeadDoorbell (w : Word) {s : State} (hs : Keeps F s) :
    KeepsO F (execEventRingHeadDoorbell w s) := by
  unfold execEventRingHeadDoorbell
  apply keepsO_next
  with_reducible repeat' (first | assumption | apply keeps_servedAt | apply keeps_evtHeadWrite | apply keepsR_ite
                                | refine keepsR_eq (keeps_servedAt _ _ ?_) (by assumption) | split | (dsimp only; split) | apply keeps_snd)
theorem keeps_execSqCfgWrite (v : View) (n : Ring) (w : Word) {s : State} (hs : Keeps F s) :
    KeepsO F (execSqCfgWrite v n w s) := by
  unfold execSqCfgWrite
  apply keepsO_next
  with_reducible repeat' (first | assumption | apply keeps_servedAt | apply keeps_sqCfgWrite | apply keepsR_ite
                                | refine keepsR_eq (keeps_servedAt _ _ ?_) (by assumption) | split | (dsimp only; split) | apply keeps_snd)
theorem keeps_execCqCfgWrite (v : View) (n : Ring) (w : Word) {s : State} (hs : Keeps F s) :
    KeepsO F (execCqCfgWrite v n w s) := by
  unfold execCqCfgWrite
  apply keepsO_next
  with_reducible repeat' (first | assumption | apply keeps_servedAt | apply keeps_cqCfgWrite | apply keepsR_ite
                                | refine keepsR_eq (keeps_servedAt _ _ ?_) (by assumption) | split | (dsimp only; split) | apply keeps_snd)
theorem keeps_execLdtCtlWrite (v : View) (w : Word) {s : State} (hs : Keeps F s) :
    KeepsO F (execLdtCtlWrite v w s) := by
  unfold execLdtCtlWrite
  apply keepsO_next
  with_reducible repeat' (first | assumption | apply keeps_servedAt | apply keeps_ldtCtlWrite | apply keepsR_ite
                                | refine keepsR_eq (keeps_servedAt _ _ ?_) (by assumption) | split | (dsimp only; split) | apply keeps_snd)
theorem keeps_execEvtRingCfgWrite (v : View) (reg : Fin 3) (w : Word) {s : State} (hs : Keeps F s) :
    KeepsO F (execEvtRingCfgWrite v reg w s) := by
  unfold execEvtRingCfgWrite
  apply keepsO_next
  with_reducible repeat' (first | assumption | apply keeps_servedAt | apply keeps_evtCfgWrite | apply keepsR_ite
                                | refine keepsR_eq (keeps_servedAt _ _ ?_) (by assumption) | split | (dsimp only; split) | apply keeps_snd)
theorem keeps_execLockCtlWrite (v : View) (w : Word) {s : State} (hs : Keeps F s) (nMram : F.mram = none := by assumption)
    (nSram : F.sram = none := by assumption) (nTakes : F.takes = none := by assumption) (nMode : F.mode = none := by assumption)
    (nTime : F.time = none := by assumption) (nLinks : F.links = none := by assumption) (nPairs : F.pairs = none := by assumption)
    (nPorts : F.ports = none := by assumption) (nTiles : F.tiles = none := by assumption) (nRuns : F.runs = none := by assumption)
    (nCaptures : F.captures = none := by assumption) (nSyns : F.syns = none := by assumption) (nLanes : F.lanes = none := by assumption)
    (nFw : F.fw = none := by assumption) :
    KeepsO F (execLockCtlWrite v w s) := by
  unfold execLockCtlWrite
  apply keepsO_next
  with_reducible repeat' (first | assumption | apply keeps_busWrite)
theorem keeps_execPortReset (v : View) (p : Port) {s : State} (hs : Keeps F s) (nMram : F.mram = none := by assumption)
    (nSram : F.sram = none := by assumption) (nTakes : F.takes = none := by assumption) (nMode : F.mode = none := by assumption)
    (nTime : F.time = none := by assumption) (nLinks : F.links = none := by assumption) (nPairs : F.pairs = none := by assumption)
    (nPorts : F.ports = none := by assumption) (nTiles : F.tiles = none := by assumption) (nRuns : F.runs = none := by assumption)
    (nCaptures : F.captures = none := by assumption) (nSyns : F.syns = none := by assumption) (nLanes : F.lanes = none := by assumption)
    (nFw : F.fw = none := by assumption) :
    KeepsO F (execPortReset v p s) := by
  unfold execPortReset
  apply keepsO_next
  with_reducible repeat' (first | assumption | apply keeps_busWrite)
theorem keeps_execPairSwapWrite (v : View) (p : Port) (b : Bool) {s : State} (hs : Keeps F s) (nMram : F.mram = none := by assumption)
    (nSram : F.sram = none := by assumption) (nTakes : F.takes = none := by assumption) (nMode : F.mode = none := by assumption)
    (nTime : F.time = none := by assumption) (nLinks : F.links = none := by assumption) (nPairs : F.pairs = none := by assumption)
    (nPorts : F.ports = none := by assumption) (nTiles : F.tiles = none := by assumption) (nRuns : F.runs = none := by assumption)
    (nCaptures : F.captures = none := by assumption) (nSyns : F.syns = none := by assumption) (nLanes : F.lanes = none := by assumption)
    (nFw : F.fw = none := by assumption) :
    KeepsO F (execPairSwapWrite v p b s) := by
  unfold execPairSwapWrite
  apply keepsO_next
  with_reducible repeat' (first | assumption | apply keeps_busWrite | apply keeps_ite | split | (dsimp only; split))
theorem keeps_execPairRestart (v : View) (l : Pair) {s : State} (hs : Keeps F s) (nMram : F.mram = none := by assumption)
    (nSram : F.sram = none := by assumption) (nTakes : F.takes = none := by assumption) (nMode : F.mode = none := by assumption)
    (nTime : F.time = none := by assumption) (nLinks : F.links = none := by assumption) (nPairs : F.pairs = none := by assumption)
    (nPorts : F.ports = none := by assumption) (nTiles : F.tiles = none := by assumption) (nRuns : F.runs = none := by assumption)
    (nCaptures : F.captures = none := by assumption) (nSyns : F.syns = none := by assumption) (nLanes : F.lanes = none := by assumption)
    (nFw : F.fw = none := by assumption) :
    KeepsO F (execPairRestart v l s) := by
  unfold execPairRestart
  apply keepsO_next
  with_reducible repeat' (first | assumption | apply keeps_busWrite)
theorem keeps_execTxDisableWrite (v : View) (l : Pair) (b : Bool) {s : State} (hs : Keeps F s) (nMram : F.mram = none := by assumption)
    (nSram : F.sram = none := by assumption) (nTakes : F.takes = none := by assumption) (nMode : F.mode = none := by assumption)
    (nTime : F.time = none := by assumption) (nLinks : F.links = none := by assumption) (nPairs : F.pairs = none := by assumption)
    (nPorts : F.ports = none := by assumption) (nTiles : F.tiles = none := by assumption) (nRuns : F.runs = none := by assumption)
    (nCaptures : F.captures = none := by assumption) (nSyns : F.syns = none := by assumption) (nLanes : F.lanes = none := by assumption)
    (nFw : F.fw = none := by assumption) :
    KeepsO F (execTxDisableWrite v l b s) := by
  unfold execTxDisableWrite
  apply keepsO_next
  with_reducible repeat' (first | assumption | apply keeps_busWrite | apply keeps_ite | split | (dsimp only; split))
theorem keeps_execClkSynWrite (v : View) (l : Pair) (b : Bool) {s : State} (hs : Keeps F s) (nMram : F.mram = none := by assumption)
    (nSram : F.sram = none := by assumption) (nTakes : F.takes = none := by assumption) (nMode : F.mode = none := by assumption)
    (nTime : F.time = none := by assumption) (nLinks : F.links = none := by assumption) (nPairs : F.pairs = none := by assumption)
    (nPorts : F.ports = none := by assumption) (nTiles : F.tiles = none := by assumption) (nRuns : F.runs = none := by assumption)
    (nCaptures : F.captures = none := by assumption) (nSyns : F.syns = none := by assumption) (nLanes : F.lanes = none := by assumption)
    (nFw : F.fw = none := by assumption) :
    KeepsO F (execClkSynWrite v l b s) := by
  unfold execClkSynWrite
  apply keepsO_next
  with_reducible repeat' (first | assumption | apply keeps_busWrite | apply keeps_ite | split | (dsimp only; split))
theorem keeps_execTileReset (v : View) (t : Tile) {s : State} (hs : Keeps F s) (nMram : F.mram = none := by assumption)
    (nSram : F.sram = none := by assumption) (nTakes : F.takes = none := by assumption) (nMode : F.mode = none := by assumption)
    (nTime : F.time = none := by assumption) (nLinks : F.links = none := by assumption) (nPairs : F.pairs = none := by assumption)
    (nPorts : F.ports = none := by assumption) (nTiles : F.tiles = none := by assumption) (nRuns : F.runs = none := by assumption)
    (nCaptures : F.captures = none := by assumption) (nSyns : F.syns = none := by assumption) (nLanes : F.lanes = none := by assumption)
    (nFw : F.fw = none := by assumption) :
    KeepsO F (execTileReset v t s) := by
  unfold execTileReset
  apply keepsO_next
  with_reducible repeat' (first | assumption | apply keeps_busWrite)
theorem keeps_execDevResetCtlWrite (v : View) (w : Word) {s : State} (hs : Keeps F s) (nMram : F.mram = none := by assumption)
    (nSram : F.sram = none := by assumption) (nTakes : F.takes = none := by assumption) (nMode : F.mode = none := by assumption)
    (nTime : F.time = none := by assumption) (nLinks : F.links = none := by assumption) (nPairs : F.pairs = none := by assumption)
    (nPorts : F.ports = none := by assumption) (nTiles : F.tiles = none := by assumption) (nRuns : F.runs = none := by assumption)
    (nCaptures : F.captures = none := by assumption) (nSyns : F.syns = none := by assumption) (nLanes : F.lanes = none := by assumption)
    (nFw : F.fw = none := by assumption) :
    KeepsO F (execDevResetCtlWrite v w s) := by
  unfold execDevResetCtlWrite
  apply keepsO_next
  with_reducible repeat' (first | assumption | apply keeps_busWrite)
theorem keeps_execChainRestart (v : View) {s : State} (hs : Keeps F s) (nMram : F.mram = none := by assumption)
    (nSram : F.sram = none := by assumption) (nTakes : F.takes = none := by assumption) (nMode : F.mode = none := by assumption)
    (nTime : F.time = none := by assumption) (nLinks : F.links = none := by assumption) (nPairs : F.pairs = none := by assumption)
    (nPorts : F.ports = none := by assumption) (nTiles : F.tiles = none := by assumption) (nRuns : F.runs = none := by assumption)
    (nCaptures : F.captures = none := by assumption) (nSyns : F.syns = none := by assumption) (nLanes : F.lanes = none := by assumption)
    (nFw : F.fw = none := by assumption) :
    KeepsO F (execChainRestart v s) := by
  unfold execChainRestart
  apply keepsO_next
  with_reducible repeat' (first | assumption | apply keeps_busWrite)
theorem keeps_execRefSelWrite (v : View) (w : Word) (step : BitVec 16) (diff : Word) {s : State} (hs : Keeps F s)
    (nMram : F.mram = none := by assumption) (nSram : F.sram = none := by assumption) (nTakes : F.takes = none := by assumption)
    (nMode : F.mode = none := by assumption) (nTime : F.time = none := by assumption) (nLinks : F.links = none := by assumption)
    (nPairs : F.pairs = none := by assumption) (nPorts : F.ports = none := by assumption) (nTiles : F.tiles = none := by assumption)
    (nRuns : F.runs = none := by assumption) (nCaptures : F.captures = none := by assumption) (nSyns : F.syns = none := by assumption)
    (nLanes : F.lanes = none := by assumption) (nFw : F.fw = none := by assumption) :
    KeepsO F (execRefSelWrite v w step diff s) := by
  unfold execRefSelWrite
  apply keepsO_next
  with_reducible repeat' (first | assumption | apply keeps_writeWord | apply keepsR_ite
                                | refine keepsR_eq (keeps_writeWord _ _ _ _ _ _ ?_) (by assumption) | apply keeps_snd)
theorem keeps_synField (v : View) (i hi lo x : Nat) {s : State} (hs : Keeps F s) (nMram : F.mram = none := by assumption)
    (nSram : F.sram = none := by assumption) (nTakes : F.takes = none := by assumption) (nMode : F.mode = none := by assumption)
    (nTime : F.time = none := by assumption) (nLinks : F.links = none := by assumption) (nPairs : F.pairs = none := by assumption)
    (nPorts : F.ports = none := by assumption) (nTiles : F.tiles = none := by assumption) (nRuns : F.runs = none := by assumption)
    (nCaptures : F.captures = none := by assumption) (nSyns : F.syns = none := by assumption) (nLanes : F.lanes = none := by assumption)
    (nFw : F.fw = none := by assumption) :
    Keeps F (synField v i hi lo x s) := by
  unfold synField
  with_reducible repeat' (first | assumption | apply keeps_busWrite | apply keeps_ite | split | (dsimp only; split))
theorem keeps_execSynSlotWrite (v : View) (i : Pll) (k : BitVec 2) {s : State} (hs : Keeps F s) (nMram : F.mram = none := by assumption)
    (nSram : F.sram = none := by assumption) (nTakes : F.takes = none := by assumption) (nMode : F.mode = none := by assumption)
    (nTime : F.time = none := by assumption) (nLinks : F.links = none := by assumption) (nPairs : F.pairs = none := by assumption)
    (nPorts : F.ports = none := by assumption) (nTiles : F.tiles = none := by assumption) (nRuns : F.runs = none := by assumption)
    (nCaptures : F.captures = none := by assumption) (nSyns : F.syns = none := by assumption) (nLanes : F.lanes = none := by assumption)
    (nFw : F.fw = none := by assumption) :
    KeepsO F (execSynSlotWrite v i k s) := by
  unfold execSynSlotWrite
  apply keepsO_next
  with_reducible repeat' (first | assumption | apply keeps_synField)
theorem keeps_execSynBwWrite (v : View) (i : Pll) (bw : BitVec 2) {s : State} (hs : Keeps F s) (nMram : F.mram = none := by assumption)
    (nSram : F.sram = none := by assumption) (nTakes : F.takes = none := by assumption) (nMode : F.mode = none := by assumption)
    (nTime : F.time = none := by assumption) (nLinks : F.links = none := by assumption) (nPairs : F.pairs = none := by assumption)
    (nPorts : F.ports = none := by assumption) (nTiles : F.tiles = none := by assumption) (nRuns : F.runs = none := by assumption)
    (nCaptures : F.captures = none := by assumption) (nSyns : F.syns = none := by assumption) (nLanes : F.lanes = none := by assumption)
    (nFw : F.fw = none := by assumption) :
    KeepsO F (execSynBwWrite v i bw s) := by
  unfold execSynBwWrite
  apply keepsO_next
  with_reducible repeat' (first | assumption | apply keeps_synField)
theorem keeps_execSynPredivWrite (v : View) (i : Pll) (m1 : BitVec 4) {s : State} (hs : Keeps F s) (nMram : F.mram = none := by assumption)
    (nSram : F.sram = none := by assumption) (nTakes : F.takes = none := by assumption) (nMode : F.mode = none := by assumption)
    (nTime : F.time = none := by assumption) (nLinks : F.links = none := by assumption) (nPairs : F.pairs = none := by assumption)
    (nPorts : F.ports = none := by assumption) (nTiles : F.tiles = none := by assumption) (nRuns : F.runs = none := by assumption)
    (nCaptures : F.captures = none := by assumption) (nSyns : F.syns = none := by assumption) (nLanes : F.lanes = none := by assumption)
    (nFw : F.fw = none := by assumption) :
    KeepsO F (execSynPredivWrite v i m1 s) := by
  unfold execSynPredivWrite
  apply keepsO_next
  with_reducible repeat' (first | assumption | apply keeps_synField)
theorem keeps_synSlotWord (v : View) (i k : Nat) (frac : Bool) (w : Word) {s : State} (hs : Keeps F s) (nMram : F.mram = none := by assumption)
    (nSram : F.sram = none := by assumption) (nTakes : F.takes = none := by assumption) (nMode : F.mode = none := by assumption)
    (nTime : F.time = none := by assumption) (nLinks : F.links = none := by assumption) (nPairs : F.pairs = none := by assumption)
    (nPorts : F.ports = none := by assumption) (nTiles : F.tiles = none := by assumption) (nRuns : F.runs = none := by assumption)
    (nCaptures : F.captures = none := by assumption) (nSyns : F.syns = none := by assumption) (nLanes : F.lanes = none := by assumption)
    (nFw : F.fw = none := by assumption) :
    Keeps F (synSlotWord v i k frac w s) := by
  unfold synSlotWord
  with_reducible repeat' (first | assumption | apply keeps_busWrite | apply keeps_ite | split | (dsimp only; split))
theorem keeps_execSynSlotWordWrite (v : View) (i : Pll) (k : BitVec 2) (frac : Bool) (w : Word) {s : State} (hs : Keeps F s)
    (nMram : F.mram = none := by assumption) (nSram : F.sram = none := by assumption) (nTakes : F.takes = none := by assumption)
    (nMode : F.mode = none := by assumption) (nTime : F.time = none := by assumption) (nLinks : F.links = none := by assumption)
    (nPairs : F.pairs = none := by assumption) (nPorts : F.ports = none := by assumption) (nTiles : F.tiles = none := by assumption)
    (nRuns : F.runs = none := by assumption) (nCaptures : F.captures = none := by assumption) (nSyns : F.syns = none := by assumption)
    (nLanes : F.lanes = none := by assumption) (nFw : F.fw = none := by assumption) :
    KeepsO F (execSynSlotWordWrite v i k frac w s) := by
  unfold execSynSlotWordWrite
  apply keepsO_next
  with_reducible repeat' (first | assumption | apply keeps_synSlotWord)
theorem keeps_execRcSlotWrite (v : View) (osb : Bool) (k : BitVec 4) (word : Option (Bool × Word)) {s : State} (hs : Keeps F s)
    (nMram : F.mram = none := by assumption) (nSram : F.sram = none := by assumption) (nTakes : F.takes = none := by assumption)
    (nMode : F.mode = none := by assumption) (nTime : F.time = none := by assumption) (nLinks : F.links = none := by assumption)
    (nPairs : F.pairs = none := by assumption) (nPorts : F.ports = none := by assumption) (nTiles : F.tiles = none := by assumption)
    (nRuns : F.runs = none := by assumption) (nCaptures : F.captures = none := by assumption) (nSyns : F.syns = none := by assumption)
    (nLanes : F.lanes = none := by assumption) (nFw : F.fw = none := by assumption) :
    KeepsO F (execRcSlotWrite v osb k word s) := by
  unfold execRcSlotWrite
  apply keepsO_next
  with_reducible repeat' (first | assumption | apply keeps_busWrite | apply keeps_ite | split | (dsimp only; split))
theorem keeps_execRcEnableWrite (v : View) (osb b : Bool) {s : State} (hs : Keeps F s) (nMram : F.mram = none := by assumption)
    (nSram : F.sram = none := by assumption) (nTakes : F.takes = none := by assumption) (nMode : F.mode = none := by assumption)
    (nTime : F.time = none := by assumption) (nLinks : F.links = none := by assumption) (nPairs : F.pairs = none := by assumption)
    (nPorts : F.ports = none := by assumption) (nTiles : F.tiles = none := by assumption) (nRuns : F.runs = none := by assumption)
    (nCaptures : F.captures = none := by assumption) (nSyns : F.syns = none := by assumption) (nLanes : F.lanes = none := by assumption)
    (nFw : F.fw = none := by assumption) :
    KeepsO F (execRcEnableWrite v osb b s) := by
  unfold execRcEnableWrite
  apply keepsO_next
  with_reducible repeat' (first | assumption | apply keeps_busWrite)
theorem keeps_execOutDivPhaseWrite (v : View) (n : BitVec 4) (phase : Bool) (x : BitVec 12) {s : State} (hs : Keeps F s)
    (nMram : F.mram = none := by assumption) (nSram : F.sram = none := by assumption) (nTakes : F.takes = none := by assumption)
    (nMode : F.mode = none := by assumption) (nTime : F.time = none := by assumption) (nLinks : F.links = none := by assumption)
    (nPairs : F.pairs = none := by assumption) (nPorts : F.ports = none := by assumption) (nTiles : F.tiles = none := by assumption)
    (nRuns : F.runs = none := by assumption) (nCaptures : F.captures = none := by assumption) (nSyns : F.syns = none := by assumption)
    (nLanes : F.lanes = none := by assumption) (nFw : F.fw = none := by assumption) :
    KeepsO F (execOutDivPhaseWrite v n phase x s) := by
  unfold execOutDivPhaseWrite
  apply keepsO_next
  with_reducible repeat' (first | assumption | apply keeps_busWrite | apply keeps_ite | split | (dsimp only; split))
theorem keeps_execOutFmtSrcWrite (v : View) (n : BitVec 4) (fmt : BitVec 2) (src : Bool) {s : State} (hs : Keeps F s)
    (nMram : F.mram = none := by assumption) (nSram : F.sram = none := by assumption) (nTakes : F.takes = none := by assumption)
    (nMode : F.mode = none := by assumption) (nTime : F.time = none := by assumption) (nLinks : F.links = none := by assumption)
    (nPairs : F.pairs = none := by assumption) (nPorts : F.ports = none := by assumption) (nTiles : F.tiles = none := by assumption)
    (nRuns : F.runs = none := by assumption) (nCaptures : F.captures = none := by assumption) (nSyns : F.syns = none := by assumption)
    (nLanes : F.lanes = none := by assumption) (nFw : F.fw = none := by assumption) :
    KeepsO F (execOutFmtSrcWrite v n fmt src s) := by
  unfold execOutFmtSrcWrite
  apply keepsO_next
  with_reducible repeat' (first | assumption | apply keeps_busWrite)
theorem keeps_execOutCtlReturn (v : View) (n : BitVec 4) {s : State} (hs : Keeps F s) (nMram : F.mram = none := by assumption)
    (nSram : F.sram = none := by assumption) (nTakes : F.takes = none := by assumption) (nMode : F.mode = none := by assumption)
    (nTime : F.time = none := by assumption) (nLinks : F.links = none := by assumption) (nPairs : F.pairs = none := by assumption)
    (nPorts : F.ports = none := by assumption) (nTiles : F.tiles = none := by assumption) (nRuns : F.runs = none := by assumption)
    (nCaptures : F.captures = none := by assumption) (nSyns : F.syns = none := by assumption) (nLanes : F.lanes = none := by assumption)
    (nFw : F.fw = none := by assumption) :
    KeepsO F (execOutCtlReturn v n s) := by
  unfold execOutCtlReturn
  apply keepsO_next
  with_reducible repeat' (first | assumption | apply keeps_busWrite)
theorem keeps_execOutSpreadWrite (v : View) (n : BitVec 4) (w : Word) {s : State} (hs : Keeps F s) (nMram : F.mram = none := by assumption)
    (nSram : F.sram = none := by assumption) (nTakes : F.takes = none := by assumption) (nMode : F.mode = none := by assumption)
    (nTime : F.time = none := by assumption) (nLinks : F.links = none := by assumption) (nPairs : F.pairs = none := by assumption)
    (nPorts : F.ports = none := by assumption) (nTiles : F.tiles = none := by assumption) (nRuns : F.runs = none := by assumption)
    (nCaptures : F.captures = none := by assumption) (nSyns : F.syns = none := by assumption) (nLanes : F.lanes = none := by assumption)
    (nFw : F.fw = none := by assumption) :
    KeepsO F (execOutSpreadWrite v n w s) := by
  unfold execOutSpreadWrite
  apply keepsO_next
  with_reducible repeat' (first | assumption | apply keeps_busWrite)
theorem keeps_execHlCtlWrite (v : View) (n : Lane) (w : Word) {s : State} (hs : Keeps F s) (nMram : F.mram = none := by assumption)
    (nSram : F.sram = none := by assumption) (nTakes : F.takes = none := by assumption) (nMode : F.mode = none := by assumption)
    (nTime : F.time = none := by assumption) (nLinks : F.links = none := by assumption) (nPairs : F.pairs = none := by assumption)
    (nPorts : F.ports = none := by assumption) (nTiles : F.tiles = none := by assumption) (nRuns : F.runs = none := by assumption)
    (nCaptures : F.captures = none := by assumption) (nSyns : F.syns = none := by assumption) (nLanes : F.lanes = none := by assumption)
    (nFw : F.fw = none := by assumption) :
    KeepsO F (execHlCtlWrite v n w s) := by
  unfold execHlCtlWrite
  apply keepsO_next
  with_reducible repeat' (first | assumption | apply keeps_busWrite)
theorem keeps_execPwrTargetWrite (v : View) (d : Domain) (w : Word) {s : State} (hs : Keeps F s) (nMram : F.mram = none := by assumption)
    (nSram : F.sram = none := by assumption) (nTakes : F.takes = none := by assumption) (nMode : F.mode = none := by assumption)
    (nTime : F.time = none := by assumption) (nLinks : F.links = none := by assumption) (nPairs : F.pairs = none := by assumption)
    (nPorts : F.ports = none := by assumption) (nTiles : F.tiles = none := by assumption) (nRuns : F.runs = none := by assumption)
    (nCaptures : F.captures = none := by assumption) (nSyns : F.syns = none := by assumption) (nLanes : F.lanes = none := by assumption)
    (nFw : F.fw = none := by assumption) :
    KeepsO F (execPwrTargetWrite v d w s) := by
  unfold execPwrTargetWrite
  apply keepsO_next
  with_reducible repeat' (first | assumption | apply keeps_busWrite)
theorem keeps_execPwrPlWrite (v : View) (oper : Bool) (w : Word) {s : State} (hs : Keeps F s) (nMram : F.mram = none := by assumption)
    (nSram : F.sram = none := by assumption) (nTakes : F.takes = none := by assumption) (nMode : F.mode = none := by assumption)
    (nTime : F.time = none := by assumption) (nLinks : F.links = none := by assumption) (nPairs : F.pairs = none := by assumption)
    (nPorts : F.ports = none := by assumption) (nTiles : F.tiles = none := by assumption) (nRuns : F.runs = none := by assumption)
    (nCaptures : F.captures = none := by assumption) (nSyns : F.syns = none := by assumption) (nLanes : F.lanes = none := by assumption)
    (nFw : F.fw = none := by assumption) :
    KeepsO F (execPwrPlWrite v oper w s) := by
  unfold execPwrPlWrite
  apply keepsO_next
  with_reducible repeat' (first | assumption | apply keeps_busWrite | apply keeps_ite | split | (dsimp only; split))
theorem keeps_execPerfCtlClear (v : View) (b : Fin 9) {s : State} (hs : Keeps F s) (nMram : F.mram = none := by assumption)
    (nSram : F.sram = none := by assumption) (nTakes : F.takes = none := by assumption) (nMode : F.mode = none := by assumption)
    (nTime : F.time = none := by assumption) (nLinks : F.links = none := by assumption) (nPairs : F.pairs = none := by assumption)
    (nPorts : F.ports = none := by assumption) (nTiles : F.tiles = none := by assumption) (nRuns : F.runs = none := by assumption)
    (nCaptures : F.captures = none := by assumption) (nSyns : F.syns = none := by assumption) (nLanes : F.lanes = none := by assumption)
    (nFw : F.fw = none := by assumption) :
    KeepsO F (execPerfCtlClear v b s) := by
  unfold execPerfCtlClear
  apply keepsO_next
  with_reducible repeat' (first | assumption | apply keeps_busWrite)
theorem keeps_execPerfCtlWinArm (v : View) (b : Fin 9) {s : State} (hs : Keeps F s) (nMram : F.mram = none := by assumption)
    (nSram : F.sram = none := by assumption) (nTakes : F.takes = none := by assumption) (nMode : F.mode = none := by assumption)
    (nTime : F.time = none := by assumption) (nLinks : F.links = none := by assumption) (nPairs : F.pairs = none := by assumption)
    (nPorts : F.ports = none := by assumption) (nTiles : F.tiles = none := by assumption) (nRuns : F.runs = none := by assumption)
    (nCaptures : F.captures = none := by assumption) (nSyns : F.syns = none := by assumption) (nLanes : F.lanes = none := by assumption)
    (nFw : F.fw = none := by assumption) :
    KeepsO F (execPerfCtlWinArm v b s) := by
  unfold execPerfCtlWinArm
  apply keepsO_next
  with_reducible repeat' (first | assumption | apply keeps_busWrite)
theorem keeps_execPerfCtlEnFreeze (v : View) (b : Fin 9) (en freeze : Bool) {s : State} (hs : Keeps F s) (nMram : F.mram = none := by assumption)
    (nSram : F.sram = none := by assumption) (nTakes : F.takes = none := by assumption) (nMode : F.mode = none := by assumption)
    (nTime : F.time = none := by assumption) (nLinks : F.links = none := by assumption) (nPairs : F.pairs = none := by assumption)
    (nPorts : F.ports = none := by assumption) (nTiles : F.tiles = none := by assumption) (nRuns : F.runs = none := by assumption)
    (nCaptures : F.captures = none := by assumption) (nSyns : F.syns = none := by assumption) (nLanes : F.lanes = none := by assumption)
    (nFw : F.fw = none := by assumption) :
    KeepsO F (execPerfCtlEnFreeze v b en freeze s) := by
  unfold execPerfCtlEnFreeze
  apply keepsO_next
  with_reducible repeat' (first | assumption | apply keeps_busWrite)
theorem keeps_execPerfSelWrite (v : View) (b : Fin 9) (n : BitVec 3) (w : Word) {s : State} (hs : Keeps F s)
    (nMram : F.mram = none := by assumption) (nSram : F.sram = none := by assumption) (nTakes : F.takes = none := by assumption)
    (nMode : F.mode = none := by assumption) (nTime : F.time = none := by assumption) (nLinks : F.links = none := by assumption)
    (nPairs : F.pairs = none := by assumption) (nPorts : F.ports = none := by assumption) (nTiles : F.tiles = none := by assumption)
    (nRuns : F.runs = none := by assumption) (nCaptures : F.captures = none := by assumption) (nSyns : F.syns = none := by assumption)
    (nLanes : F.lanes = none := by assumption) (nFw : F.fw = none := by assumption) :
    KeepsO F (execPerfSelWrite v b n w s) := by
  unfold execPerfSelWrite
  apply keepsO_next
  with_reducible repeat' (first | assumption | apply keeps_busWrite)
theorem keeps_stallTimeout (v : View) (a : Nat) (write : Bool) {s : State} (hs : Keeps F s) :
    Keeps F (stallTimeout v a write s) := by
  unfold stallTimeout
  with_reducible repeat' (first | assumption | apply keeps_aerNote | apply keeps_accessDone | apply keeps_accessError | apply keeps_stallOver
                                | apply keeps_emit | apply keeps_ite | split | (dsimp only; split))

end Sys2Proof.Machine
end

