-- ==== Sys2Proof/Laws/Keep5.lean ====
section
/-! SUPPORT. What every operation keeps: CmdEvent, CmdTake, CmdStore, Serial, Pcie, Firmware, RsMonitor, Step. -/
namespace Sys2Proof.Machine
variable {F : Fixed}

/-! ### CmdEvent -/

theorem keeps_actEvtSubscribe (c : Cmd) (e : Nat) {s : State} (hs : Keeps F s) :
    Keeps F (actEvtSubscribe c e s) := by
  unfold actEvtSubscribe
  with_reducible repeat' (first | assumption | apply keeps_complete | apply keeps_wrWide | apply keeps_wrF | apply keeps_evtRestart
                                | apply keeps_ite | split | (dsimp only; split))
theorem keeps_execEvtSubscribe (c : Cmd) {s : State} (hs : Keeps F s) :
    KeepsO F (execEvtSubscribe c s) := by
  unfold execEvtSubscribe
  apply keepsO_next
  with_reducible repeat' (first | assumption | (intro _) | apply keeps_command | apply keeps_actEvtSubscribe)
theorem keeps_actEvtReadLog (c : Cmd) (e : Nat) {s : State} (hs : Keeps F s) :
    Keeps F (actEvtReadLog c e s) := by
  unfold actEvtReadLog
  with_reducible repeat' (first | assumption | apply keeps_complete | apply keeps_ite | split | (dsimp only; split))
theorem keeps_execEvtReadLog (c : Cmd) {s : State} (hs : Keeps F s) :
    KeepsO F (execEvtReadLog c s) := by
  unfold execEvtReadLog
  apply keepsO_next
  with_reducible repeat' (first | assumption | (intro _) | apply keeps_command | apply keeps_actEvtReadLog)

/-! ### CmdTake -/

theorem keeps_actTakeList (c : Cmd) (e : Nat) {s : State} (hs : Keeps F s) :
    Keeps F (actTakeList c e s) := by
  unfold actTakeList
  with_reducible repeat' (first | assumption | apply keeps_complete)
theorem keeps_execTakeList (c : Cmd) {s : State} (hs : Keeps F s) :
    KeepsO F (execTakeList c s) := by
  unfold execTakeList
  apply keepsO_next
  with_reducible repeat' (first | assumption | (intro _) | apply keeps_command | apply keeps_actTakeList)
theorem keeps_actTakeRead (c : Cmd) (e : Nat) {s : State} (hs : Keeps F s) :
    Keeps F (actTakeRead c e s) := by
  unfold actTakeRead
  with_reducible repeat' (first | assumption | apply keeps_complete | apply keeps_takeWords | split | (dsimp only; split))
theorem keeps_execTakeRead (c : Cmd) {s : State} (hs : Keeps F s) :
    KeepsO F (execTakeRead c s) := by
  unfold execTakeRead
  apply keepsO_next
  with_reducible repeat' (first | assumption | (intro _) | apply keeps_command | apply keeps_actTakeRead)
theorem keeps_takeStore (c : Cmd) (e k : Nat) {s : State} (hs : Keeps F s) (nTakes : F.takes = none := by assumption)
    (nPairs : F.pairs = none := by assumption) (nTiles : F.tiles = none := by assumption) :
    Keeps F (takeStore c e k s) := by
  unfold takeStore
  with_reducible repeat' (first | assumption | apply keeps_complete | apply keeps_clearSlot | apply keeps_takeWords | apply keeps_writeTake
                                | apply keeps_keepRunning | apply keeps_askVerify | apply keeps_ite | split | (dsimp only; split))
theorem keeps_stepRelease (l k : Nat) {s : State} (hs : Keeps F s) (nPairs : F.pairs = none := by assumption) :
    Keeps F (stepRelease l k s) := by
  unfold stepRelease
  with_reducible repeat' (first | assumption | apply keeps_setSlot | apply keeps_modPair)
theorem keeps_actTakeWrite (c : Cmd) (e : Nat) {s : State} (hs : Keeps F s) (nTakes : F.takes = none := by assumption)
    (nPairs : F.pairs = none := by assumption) (nTiles : F.tiles = none := by assumption) :
    Keeps F (actTakeWrite c e s) := by
  unfold actTakeWrite
  with_reducible repeat' (first | assumption | apply keeps_complete | apply keeps_takeStore | apply keeps_stepRelease | apply keeps_ite | split
                                | (dsimp only; split))
theorem keeps_execTakeWrite (c : Cmd) {s : State} (hs : Keeps F s) (nTakes : F.takes = none := by assumption)
    (nPairs : F.pairs = none := by assumption) (nTiles : F.tiles = none := by assumption) :
    KeepsO F (execTakeWrite c s) := by
  unfold execTakeWrite
  apply keepsO_next
  with_reducible repeat' (first | assumption | (intro _) | apply keeps_command | apply keeps_actTakeWrite)
theorem keeps_actTakeVerify (c : Cmd) (e : Nat) {s : State} (hs : Keeps F s) (nTiles : F.tiles = none := by assumption) :
    Keeps F (actTakeVerify c e s) := by
  unfold actTakeVerify
  with_reducible repeat' (first | assumption | apply keeps_complete | apply keeps_keepRunning | apply keeps_askVerify | split | (dsimp only; split))
theorem keeps_execTakeVerify (c : Cmd) {s : State} (hs : Keeps F s) (nTiles : F.tiles = none := by assumption) :
    KeepsO F (execTakeVerify c s) := by
  unfold execTakeVerify
  apply keepsO_next
  with_reducible repeat' (first | assumption | (intro _) | apply keeps_command | apply keeps_actTakeVerify)
theorem keeps_cancelCut (l e : Nat) {s : State} (hs : Keeps F s) (nPairs : F.pairs = none := by assumption)
    (nTiles : F.tiles = none := by assumption) :
    Keeps F (cancelCut l e s) := by
  unfold cancelCut
  with_reducible repeat' (first | assumption | apply keeps_complete | apply keeps_cutAbort | split | (dsimp only; split))
theorem keeps_cutSet (l k m : Nat) (at' join await : Bool) (want : Word) (e : Nat) {s : State} (hs : Keeps F s)
    (nPairs : F.pairs = none := by assumption) (nTiles : F.tiles = none := by assumption) :
    Keeps F (cutSet l k m at' join await want e s) := by
  unfold cutSet
  with_reducible repeat' (first | assumption | apply keeps_keepRunning | apply keeps_setCut | apply keeps_complete | apply keeps_coordCut
                                | apply keeps_ite | split | (dsimp only; split))
theorem keeps_actTakeCut (c : Cmd) (e : Nat) {s : State} (hs : Keeps F s) (nPairs : F.pairs = none := by assumption)
    (nTiles : F.tiles = none := by assumption) :
    Keeps F (actTakeCut c e s) := by
  unfold actTakeCut
  with_reducible repeat' (first | assumption | apply keeps_complete | apply keeps_cancelCut | apply keeps_cutSet | apply keeps_ite | split
                                | (dsimp only; split))
theorem keeps_execTakeCut (c : Cmd) {s : State} (hs : Keeps F s) (nPairs : F.pairs = none := by assumption)
    (nTiles : F.tiles = none := by assumption) :
    KeepsO F (execTakeCut c s) := by
  unfold execTakeCut
  apply keepsO_next
  with_reducible repeat' (first | assumption | (intro _) | apply keeps_command | apply keeps_actTakeCut)
theorem keeps_actTakeGrade (c : Cmd) (e : Nat) {s : State} (hs : Keeps F s) (nRuns : F.runs = none := by assumption) :
    Keeps F (actTakeGrade c e s) := by
  unfold actTakeGrade
  with_reducible repeat' (first | assumption | apply keeps_complete | apply keeps_queueRun | apply keeps_keepRunning | split | (dsimp only; split))
theorem keeps_execTakeGrade (c : Cmd) {s : State} (hs : Keeps F s) (nRuns : F.runs = none := by assumption) :
    KeepsO F (execTakeGrade c s) := by
  unfold execTakeGrade
  apply keepsO_next
  with_reducible repeat' (first | assumption | (intro _) | apply keeps_command | apply keeps_actTakeGrade)

/-! ### CmdStore -/

theorem keeps_actContList (c : Cmd) (e : Nat) {s : State} (hs : Keeps F s) :
    Keeps F (actContList c e s) := by
  unfold actContList
  with_reducible repeat' (first | assumption | apply keeps_complete | split | (dsimp only; split))
theorem keeps_execContList (c : Cmd) {s : State} (hs : Keeps F s) :
    KeepsO F (execContList c s) := by
  unfold execContList
  apply keepsO_next
  with_reducible repeat' (first | assumption | (intro _) | apply keeps_command | apply keeps_actContList)
theorem keeps_actContRead (c : Cmd) (e : Nat) {s : State} (hs : Keeps F s) :
    Keeps F (actContRead c e s) := by
  unfold actContRead
  with_reducible repeat' (first | assumption | apply keeps_complete | apply keeps_contBadRead | apply keeps_ite | split | (dsimp only; split))
theorem keeps_execContRead (c : Cmd) {s : State} (hs : Keeps F s) :
    KeepsO F (execContRead c s) := by
  unfold execContRead
  apply keepsO_next
  with_reducible repeat' (first | assumption | (intro _) | apply keeps_command | apply keeps_actContRead)
theorem keeps_set_contRecs {s : State} {x0} (h : Keeps F s) (nRecs : F.recs = none := by assumption) : Keeps F { s with contRecs := x0 } :=
  ⟨h.1, h.2, h.3, h.4, h.5, h.6, h.7, fixes_recs h.8 nRecs⟩
theorem keeps_actContDelete (c : Cmd) (e : Nat) {s : State} (hs : Keeps F s) (nRecs : F.recs = none := by assumption) :
    Keeps F (actContDelete c e s) := by
  unfold actContDelete
  with_reducible repeat' (first | assumption | apply keeps_complete | apply keeps_ite | split | (dsimp only; split) | apply keeps_set_contRecs)
theorem keeps_execContDelete (c : Cmd) {s : State} (hs : Keeps F s) (nRecs : F.recs = none := by assumption) :
    KeepsO F (execContDelete c s) := by
  unfold execContDelete
  apply keepsO_next
  with_reducible repeat' (first | assumption | (intro _) | apply keeps_command | apply keeps_actContDelete)
theorem keeps_actCalRecordRead (c : Cmd) (e : Nat) {s : State} (hs : Keeps F s) :
    Keeps F (actCalRecordRead c e s) := by
  unfold actCalRecordRead
  with_reducible repeat' (first | assumption | apply keeps_complete | apply keeps_calRead | apply keeps_ite | apply keepsR_ite
                                | refine keepsR_eq (keeps_calRead _ _ ?_) (by assumption) | split | (dsimp only; split) | apply keeps_snd)
theorem keeps_execCalRecordRead (c : Cmd) {s : State} (hs : Keeps F s) :
    KeepsO F (execCalRecordRead c s) := by
  unfold execCalRecordRead
  apply keepsO_next
  with_reducible repeat' (first | assumption | (intro _) | apply keeps_command | apply keeps_actCalRecordRead)

/-! ### Serial -/

theorem keeps_set_sp {s : State} {x0} (h : Keeps F s) : Keeps F { s with sp := x0 } :=
  ⟨h.1, h.2, h.3, h.4, h.5, h.6, h.7, h.8⟩
theorem keeps_modSp (f : SpSt → SpSt) {s : State} (hs : Keeps F s) :
    Keeps F (modSp f s) := by
  unfold modSp
  with_reducible repeat' (first | assumption | apply keeps_set_sp)
theorem keeps_execBcfgSetup (w : Word) {s : State} (hs : Keeps F s) (nMram : F.mram = none := by assumption)
    (nSram : F.sram = none := by assumption) (nTakes : F.takes = none := by assumption) (nMode : F.mode = none := by assumption)
    (nTime : F.time = none := by assumption) (nLinks : F.links = none := by assumption) (nPairs : F.pairs = none := by assumption)
    (nPorts : F.ports = none := by assumption) (nTiles : F.tiles = none := by assumption) (nRuns : F.runs = none := by assumption)
    (nCaptures : F.captures = none := by assumption) (nSyns : F.syns = none := by assumption) (nLanes : F.lanes = none := by assumption)
    (nFw : F.fw = none := by assumption) :
    KeepsO F (execBcfgSetup w s) := by
  unfold execBcfgSetup
  apply keepsO_next
  with_reducible repeat' (first | assumption | apply keeps_busWrite)
theorem keeps_execBcfgCommit (w : Word) {s : State} (hs : Keeps F s) (nMram : F.mram = none := by assumption)
    (nSram : F.sram = none := by assumption) (nTakes : F.takes = none := by assumption) (nMode : F.mode = none := by assumption)
    (nTime : F.time = none := by assumption) (nLinks : F.links = none := by assumption) (nPairs : F.pairs = none := by assumption)
    (nPorts : F.ports = none := by assumption) (nTiles : F.tiles = none := by assumption) (nRuns : F.runs = none := by assumption)
    (nCaptures : F.captures = none := by assumption) (nSyns : F.syns = none := by assumption) (nLanes : F.lanes = none := by assumption)
    (nFw : F.fw = none := by assumption) :
    KeepsO F (execBcfgCommit w s) := by
  unfold execBcfgCommit
  apply keepsO_next
  with_reducible repeat' (first | assumption | apply keeps_busWrite)
theorem keeps_bcfgAccess (write : Option Word) {s : State} (hs : Keeps F s) (nMram : F.mram = none := by assumption)
    (nSram : F.sram = none := by assumption) (nTakes : F.takes = none := by assumption) (nMode : F.mode = none := by assumption)
    (nTime : F.time = none := by assumption) (nLinks : F.links = none := by assumption) (nPairs : F.pairs = none := by assumption)
    (nPorts : F.ports = none := by assumption) (nTiles : F.tiles = none := by assumption) (nRuns : F.runs = none := by assumption)
    (nCaptures : F.captures = none := by assumption) (nSyns : F.syns = none := by assumption) (nLanes : F.lanes = none := by assumption)
    (nFw : F.fw = none := by assumption) :
    Keeps F (bcfgAccess write s) := by
  unfold bcfgAccess
  with_reducible repeat' (first | assumption | apply keeps_busWrite | apply keeps_busRead | split | (dsimp only; split))
theorem keeps_execBcfgDataAccess (write : Option Word) {s : State} (hs : Keeps F s) (nMram : F.mram = none := by assumption)
    (nSram : F.sram = none := by assumption) (nTakes : F.takes = none := by assumption) (nMode : F.mode = none := by assumption)
    (nTime : F.time = none := by assumption) (nLinks : F.links = none := by assumption) (nPairs : F.pairs = none := by assumption)
    (nPorts : F.ports = none := by assumption) (nTiles : F.tiles = none := by assumption) (nRuns : F.runs = none := by assumption)
    (nCaptures : F.captures = none := by assumption) (nSyns : F.syns = none := by assumption) (nLanes : F.lanes = none := by assumption)
    (nFw : F.fw = none := by assumption) :
    KeepsO F (execBcfgDataAccess write s) := by
  unfold execBcfgDataAccess
  apply keepsO_next
  with_reducible repeat' (first | assumption | apply keeps_bcfgAccess)
theorem keeps_spFlag (k : Nat) {s : State} (hs : Keeps F s) :
    Keeps F (spFlag k s) := by
  unfold spFlag
  with_reducible repeat' (first | assumption | apply keeps_wrB)
theorem keeps_spOverrun {s : State} (hs : Keeps F s) :
    Keeps F (spOverrun s) := by
  unfold spOverrun
  with_reducible repeat' (first | assumption | apply keeps_spFlag)
theorem keeps_spAddrErr {s : State} (hs : Keeps F s) :
    Keeps F (spAddrErr s) := by
  unfold spAddrErr
  with_reducible repeat' (first | assumption | apply keeps_spFlag)
theorem keeps_spBusErr {s : State} (hs : Keeps F s) :
    Keeps F (spBusErr s) := by
  unfold spBusErr
  with_reducible repeat' (first | assumption | apply keeps_spFlag)
theorem keeps_spLate {s : State} (hs : Keeps F s) :
    Keeps F (spLate s) := by
  unfold spLate
  with_reducible repeat' (first | assumption | apply keeps_spFlag)
theorem keeps_ownRead (i : Nat) {s : State} (hs : Keeps F s) :
    KeepsR F (ownRead i s) := by
  unfold ownRead
  with_reducible repeat' (first | assumption | apply keeps_mboxRdata | apply keeps_ite | apply keepsR_ite
                                | refine keepsR_eq (keeps_mboxRdata ?_) (by assumption) | split | (dsimp only; split) | apply keeps_snd
                                | apply keepsR_mk)
theorem keeps_ownWrite (i : Nat) (w : Word) {s : State} (hs : Keeps F s) (nMram : F.mram = none := by assumption)
    (nSram : F.sram = none := by assumption) (nTakes : F.takes = none := by assumption) (nMode : F.mode = none := by assumption)
    (nTime : F.time = none := by assumption) (nLinks : F.links = none := by assumption) (nPairs : F.pairs = none := by assumption)
    (nPorts : F.ports = none := by assumption) (nTiles : F.tiles = none := by assumption) (nRuns : F.runs = none := by assumption)
    (nCaptures : F.captures = none := by assumption) (nSyns : F.syns = none := by assumption) (nLanes : F.lanes = none := by assumption)
    (nFw : F.fw = none := by assumption) :
    Keeps F (ownWrite i w s) := by
  unfold ownWrite
  with_reducible repeat' (first | assumption | apply keeps_serveWrite | apply keeps_mailboxCtlWrite
                                | refine keeps_modCmd_rest (fun _ => rfl) (fun _ => rfl) (fun _ => rfl) ?_ | apply keeps_done_filter
                                | apply keeps_mboxWdata | apply keeps_ite | split | (dsimp only; split))
theorem keeps_spPost (a : Nat) (w : Word) {s : State} (hs : Keeps F s) :
    Keeps F (spPost a w s) := by
  unfold spPost
  with_reducible repeat' (first | assumption | apply keeps_modSp | apply keeps_ite | split | (dsimp only; split))
theorem keeps_writeItem (x : SpItem × Word) {s : State} (hs : Keeps F s) (nMram : F.mram = none := by assumption)
    (nSram : F.sram = none := by assumption) (nTakes : F.takes = none := by assumption) (nMode : F.mode = none := by assumption)
    (nTime : F.time = none := by assumption) (nLinks : F.links = none := by assumption) (nPairs : F.pairs = none := by assumption)
    (nPorts : F.ports = none := by assumption) (nTiles : F.tiles = none := by assumption) (nRuns : F.runs = none := by assumption)
    (nCaptures : F.captures = none := by assumption) (nSyns : F.syns = none := by assumption) (nLanes : F.lanes = none := by assumption)
    (nFw : F.fw = none := by assumption) :
    Keeps F (writeItem x s) := by
  unfold writeItem
  with_reducible repeat' (first | assumption | apply keeps_spPost | apply keeps_ownWrite | apply keeps_spOverrun | apply keeps_spAddrErr | split
                                | (dsimp only; split) | apply keeps_snd)
theorem keeps_writeFrame (addressed : Bool) (start : Nat) (ws : List Word) {s : State} (hs : Keeps F s) (nMram : F.mram = none := by assumption)
    (nSram : F.sram = none := by assumption) (nTakes : F.takes = none := by assumption) (nMode : F.mode = none := by assumption)
    (nTime : F.time = none := by assumption) (nLinks : F.links = none := by assumption) (nPairs : F.pairs = none := by assumption)
    (nPorts : F.ports = none := by assumption) (nTiles : F.tiles = none := by assumption) (nRuns : F.runs = none := by assumption)
    (nCaptures : F.captures = none := by assumption) (nSyns : F.syns = none := by assumption) (nLanes : F.lanes = none := by assumption)
    (nFw : F.fw = none := by assumption) :
    Keeps F (writeFrame addressed start ws s) := by
  unfold writeFrame
  with_reducible repeat' (first | assumption | (intro _) | apply keeps_writeItem | apply keeps_modSp | apply keeps_foldl | apply keepsR_foldl)
theorem keeps_freeWord {s : State} (hs : Keeps F s) :
    KeepsR F (freeWord s) := by
  unfold freeWord
  with_reducible repeat' (first | assumption | apply keeps_draw | apply keepsR_ite | refine keepsR_eq (keeps_draw _ ?_) (by assumption) | split
                                | (dsimp only; split) | apply keeps_snd | apply keepsR_mk)
theorem keeps_freeWords (n : Nat) {s : State} (hs : Keeps F s) : KeepsR F (freeWords n s) := by
  induction n generalizing s with
  | zero => exact hs
  | succ n ih => exact ih (keeps_freeWord hs)
theorem keeps_readLate (x : SpItem) (r : ReadRun) {s : State} (hs : Keeps F s) :
    KeepsR F (readLate x r s) := by
  unfold readLate
  with_reducible repeat' (first | assumption | apply keeps_freeWord | apply keeps_spLate | apply keeps_spOverrun | apply keeps_spAddrErr
                                | apply keeps_ite | apply keepsR_ite | refine keepsR_eq (keeps_freeWord ?_) (by assumption) | split
                                | (dsimp only; split) | apply keeps_snd | apply keepsR_mk)
theorem keeps_readItem (x : SpItem) (slow : Bool) (r : ReadRun) {s : State} (hs : Keeps F s) :
    KeepsR F (readItem x slow r s) := by
  unfold readItem
  with_reducible repeat' (first | assumption | apply keeps_readLate | apply keeps_ownRead | apply keeps_spOverrun | apply keeps_spAddrErr
                                | apply keeps_readWord | apply keeps_spBusErr | apply keeps_ite | apply keepsR_ite
                                | refine keepsR_eq (keeps_readLate _ _ ?_) (by assumption) | refine keepsR_eq (keeps_ownRead _ ?_) (by assumption)
                                | refine keepsR_eq (keeps_readWord _ _ _ ?_) (by assumption) | split | (dsimp only; split) | apply keeps_snd
                                | apply keepsR_mk)
theorem keeps_readItems (late : Nat) (x : List SpItem) (j : Nat) (r : ReadRun) {s : State} (hs : Keeps F s) :
    KeepsR F (readItems late x j r s) := by
  induction x generalizing j r s with
  | nil => exact hs
  | cons x xs ih => exact ih _ _ (keeps_readItem _ _ _ hs)
theorem keeps_retryItems (x : List SpItem) (ws : List Word) (r : ReadRun) {s : State} (hs : Keeps F s) :
    KeepsR F (retryItems x ws r s) := by
  induction x generalizing ws r s with
  | nil => exact hs
  | cons x xs ih =>
    unfold retryItems
    split
    · exact ih _ _ (keeps_spOverrun hs)
    · exact ih _ _ (keeps_spAddrErr hs)
    · exact ih _ _ hs
    · exact ih _ _ (keeps_readLate _ _ hs)
theorem keeps_putHold (h : Option SpHold) {s : State} (hs : Keeps F s) :
    Keeps F (putHold h s) := by
  unfold putHold
  with_reducible repeat' (first | assumption | apply keeps_modSp)
theorem keeps_readEnd (addressed : Bool) (start n : Nat) (x : ReadRun × State) (hx : KeepsR F x) :
    Keeps F (readEnd addressed start n x) := by
  unfold readEnd
  with_reducible repeat' (first | assumption | apply keeps_emit | apply keeps_putHold | apply keeps_ite | exact keepsR_dest (by assumption)
                                | split | (dsimp only; split) | apply keeps_snd)
theorem keeps_readFrame (addressed : Bool) (start n late : Nat) {s : State} (hs : Keeps F s) :
    Keeps F (readFrame addressed start n late s) := by
  unfold readFrame
  with_reducible repeat' (first | assumption | apply keeps_retryItems | apply keeps_putHold | apply keeps_emit | apply keeps_freeWords
                                | apply keeps_spLate | apply keeps_readEnd | apply keeps_readItems | apply keeps_ite | apply keepsR_ite
                                | refine keepsR_eq (keeps_retryItems _ _ _ ?_) (by assumption)
                                | refine keepsR_eq (keeps_freeWords _ ?_) (by assumption)
                                | refine keepsR_eq (keeps_readItems _ _ _ _ ?_) (by assumption) | split | (dsimp only; split) | apply keeps_snd)
theorem keeps_statusRead {s : State} (hs : Keeps F s) :
    Keeps F (statusRead s) := by
  unfold statusRead
  with_reducible repeat' (first | assumption | apply keeps_emit | apply keeps_modSp)
theorem keeps_spFrame (f : SpFrame) {s : State} (hs : Keeps F s) (nMram : F.mram = none := by assumption) (nSram : F.sram = none := by assumption)
    (nTakes : F.takes = none := by assumption) (nMode : F.mode = none := by assumption) (nTime : F.time = none := by assumption)
    (nLinks : F.links = none := by assumption) (nPairs : F.pairs = none := by assumption) (nPorts : F.ports = none := by assumption)
    (nTiles : F.tiles = none := by assumption) (nRuns : F.runs = none := by assumption) (nCaptures : F.captures = none := by assumption)
    (nSyns : F.syns = none := by assumption) (nLanes : F.lanes = none := by assumption) (nFw : F.fw = none := by assumption) :
    Keeps F (spFrame f s) := by
  unfold spFrame
  with_reducible repeat' (first | assumption | apply keeps_readFrame | apply keeps_writeFrame | apply keeps_statusRead | apply keeps_ite | split
                                | (dsimp only; split))
theorem keeps_execSerialWindowedRead (i : BitVec 6) (n : BitVec 11) (late : Option (BitVec 11)) {s : State} (hs : Keeps F s)
    (nMram : F.mram = none := by assumption) (nSram : F.sram = none := by assumption) (nTakes : F.takes = none := by assumption)
    (nMode : F.mode = none := by assumption) (nTime : F.time = none := by assumption) (nLinks : F.links = none := by assumption)
    (nPairs : F.pairs = none := by assumption) (nPorts : F.ports = none := by assumption) (nTiles : F.tiles = none := by assumption)
    (nRuns : F.runs = none := by assumption) (nCaptures : F.captures = none := by assumption) (nSyns : F.syns = none := by assumption)
    (nLanes : F.lanes = none := by assumption) (nFw : F.fw = none := by assumption) :
    KeepsO F (execSerialWindowedRead i n late s) := by
  unfold execSerialWindowedRead
  apply keepsO_next
  with_reducible repeat' (first | assumption | apply keeps_spFrame)
theorem keeps_execSerialWindowedWrite (i : BitVec 6) (ws : List Word) {s : State} (hs : Keeps F s) (nMram : F.mram = none := by assumption)
    (nSram : F.sram = none := by assumption) (nTakes : F.takes = none := by assumption) (nMode : F.mode = none := by assumption)
    (nTime : F.time = none := by assumption) (nLinks : F.links = none := by assumption) (nPairs : F.pairs = none := by assumption)
    (nPorts : F.ports = none := by assumption) (nTiles : F.tiles = none := by assumption) (nRuns : F.runs = none := by assumption)
    (nCaptures : F.captures = none := by assumption) (nSyns : F.syns = none := by assumption) (nLanes : F.lanes = none := by assumption)
    (nFw : F.fw = none := by assumption) :
    KeepsO F (execSerialWindowedWrite i ws s) := by
  unfold execSerialWindowedWrite
  apply keepsO_next
  with_reducible repeat' (first | assumption | apply keeps_spFrame)
theorem keeps_execSerialAddressedFrame (rsvd : BitVec 5) (a : Word) (ws : Option (List Word)) (n : BitVec 11) (late : Option (BitVec 11))
    {s : State} (hs : Keeps F s) (nMram : F.mram = none := by assumption) (nSram : F.sram = none := by assumption)
    (nTakes : F.takes = none := by assumption) (nMode : F.mode = none := by assumption) (nTime : F.time = none := by assumption)
    (nLinks : F.links = none := by assumption) (nPairs : F.pairs = none := by assumption) (nPorts : F.ports = none := by assumption)
    (nTiles : F.tiles = none := by assumption) (nRuns : F.runs = none := by assumption) (nCaptures : F.captures = none := by assumption)
    (nSyns : F.syns = none := by assumption) (nLanes : F.lanes = none := by assumption) (nFw : F.fw = none := by assumption) :
    KeepsO F (execSerialAddressedFrame rsvd a ws n late s) := by
  unfold execSerialAddressedFrame
  apply keepsO_next
  with_reducible repeat' (first | assumption | apply keeps_spFrame | split | (dsimp only; split))
theorem keeps_execSerialStatusRead {s : State} (hs : Keeps F s) (nMram : F.mram = none := by assumption) (nSram : F.sram = none := by assumption)
    (nTakes : F.takes = none := by assumption) (nMode : F.mode = none := by assumption) (nTime : F.time = none := by assumption)
    (nLinks : F.links = none := by assumption) (nPairs : F.pairs = none := by assumption) (nPorts : F.ports = none := by assumption)
    (nTiles : F.tiles = none := by assumption) (nRuns : F.runs = none := by assumption) (nCaptures : F.captures = none := by assumption)
    (nSyns : F.syns = none := by assumption) (nLanes : F.lanes = none := by assumption) (nFw : F.fw = none := by assumption) :
    KeepsO F (execSerialStatusRead s) := by
  unfold execSerialStatusRead
  apply keepsO_next
  with_reducible repeat' (first | assumption | apply keeps_spFrame)
theorem keeps_serialRetry (n : Nat) {s : State} (hs : Keeps F s) :
    Keeps F (serialRetry n s) := by
  unfold serialRetry
  with_reducible repeat' (first | assumption | apply keeps_readFrame | apply keeps_ite | split | (dsimp only; split))
theorem keeps_execSerialRetry (n : BitVec 11) {s : State} (hs : Keeps F s) :
    KeepsO F (execSerialRetry n s) := by
  unfold execSerialRetry
  apply keepsO_next
  with_reducible repeat' (first | assumption | apply keeps_serialRetry)
theorem keeps_holdWord (w : Word) (error : Bool) {s : State} (hs : Keeps F s) :
    Keeps F (holdWord w error s) := by
  unfold holdWord
  with_reducible repeat' (first | assumption | apply keeps_modSp | apply keeps_spBusErr | apply keeps_ite | split | (dsimp only; split))
theorem keeps_heldReadDone {s : State} (hs : Keeps F s) :
    Keeps F (heldReadDone s) := by
  unfold heldReadDone
  with_reducible repeat' (first | assumption | apply keeps_readWord | apply keeps_holdWord | apply keeps_ite | apply keepsR_ite
                                | refine keepsR_eq (keeps_readWord _ _ _ ?_) (by assumption) | split | (dsimp only; split) | apply keeps_snd)
theorem keeps_execSerialHeldReadDone {s : State} (hs : Keeps F s) :
    KeepsO F (execSerialHeldReadDone s) := by
  unfold execSerialHeldReadDone
  apply keepsO_next
  with_reducible repeat' (first | assumption | apply keeps_heldReadDone)
theorem keeps_execSerialFrameIdleTimeout (f : SpFrame) {s : State} (hs : Keeps F s) (nMram : F.mram = none := by assumption)
    (nSram : F.sram = none := by assumption) (nTakes : F.takes = none := by assumption) (nMode : F.mode = none := by assumption)
    (nTime : F.time = none := by assumption) (nLinks : F.links = none := by assumption) (nPairs : F.pairs = none := by assumption)
    (nPorts : F.ports = none := by assumption) (nTiles : F.tiles = none := by assumption) (nRuns : F.runs = none := by assumption)
    (nCaptures : F.captures = none := by assumption) (nSyns : F.syns = none := by assumption) (nLanes : F.lanes = none := by assumption)
    (nFw : F.fw = none := by assumption) :
    KeepsO F (execSerialFrameIdleTimeout f s) := by
  unfold execSerialFrameIdleTimeout
  apply keepsO_next
  with_reducible repeat' (first | assumption | apply keeps_spFrame)
theorem keeps_writePosted {s : State} (hs : Keeps F s) (nMram : F.mram = none := by assumption) (nSram : F.sram = none := by assumption)
    (nTakes : F.takes = none := by assumption) (nMode : F.mode = none := by assumption) (nTime : F.time = none := by assumption)
    (nLinks : F.links = none := by assumption) (nPairs : F.pairs = none := by assumption) (nPorts : F.ports = none := by assumption)
    (nTiles : F.tiles = none := by assumption) (nRuns : F.runs = none := by assumption) (nCaptures : F.captures = none := by assumption)
    (nSyns : F.syns = none := by assumption) (nLanes : F.lanes = none := by assumption) (nFw : F.fw = none := by assumption) :
    Keeps F (writePosted s) := by
  unfold writePosted
  with_reducible repeat' (first | assumption | apply keeps_draw | apply keeps_writeWord | apply keeps_modSp | apply keeps_ite | apply keepsR_ite
                                | refine keepsR_eq (keeps_draw _ ?_) (by assumption)
                                | refine keepsR_eq (keeps_writeWord _ _ _ _ _ _ ?_) (by assumption) | split | (dsimp only; split)
                                | apply keeps_snd)
theorem keeps_execSerialWritePosted {s : State} (hs : Keeps F s) (nMram : F.mram = none := by assumption) (nSram : F.sram = none := by assumption)
    (nTakes : F.takes = none := by assumption) (nMode : F.mode = none := by assumption) (nTime : F.time = none := by assumption)
    (nLinks : F.links = none := by assumption) (nPairs : F.pairs = none := by assumption) (nPorts : F.ports = none := by assumption)
    (nTiles : F.tiles = none := by assumption) (nRuns : F.runs = none := by assumption) (nCaptures : F.captures = none := by assumption)
    (nSyns : F.syns = none := by assumption) (nLanes : F.lanes = none := by assumption) (nFw : F.fw = none := by assumption) :
    KeepsO F (execSerialWritePosted s) := by
  unfold execSerialWritePosted
  apply keepsO_next
  with_reducible repeat' (first | assumption | apply keeps_writePosted)
theorem keeps_serialStallTimeout (a : Nat) (write : Bool) {s : State} (hs : Keeps F s) :
    Keeps F (serialStallTimeout a write s) := by
  unfold serialStallTimeout
  with_reducible repeat' (first | assumption | apply keeps_accessDone | apply keeps_accessError | apply keeps_stallOver | apply keeps_modSp
                                | apply keeps_holdWord | apply keeps_ite | split | (dsimp only; split))
theorem keeps_accessTimeout (v : View) (a : Nat) (write : Bool) {s : State} (hs : Keeps F s) :
    Keeps F (accessTimeout v a write s) := by
  unfold accessTimeout
  with_reducible repeat' (first | assumption | apply keeps_serialStallTimeout | apply keeps_stallTimeout | apply keeps_ite | split
                                | (dsimp only; split))
theorem keeps_execAccessStallTimeout (v : View) (a : BitVec 29) (write : Bool) {s : State} (hs : Keeps F s) :
    KeepsO F (execAccessStallTimeout v a write s) := by
  unfold execAccessStallTimeout
  apply keepsO_next
  with_reducible repeat' (first | assumption | apply keeps_accessTimeout)

/-! ### Pcie -/

theorem keeps_modPcie (f : PcieSt → PcieSt) {s : State} (hs : Keeps F s) :
    Keeps F (modPcie f s) := by
  unfold modPcie
  with_reducible repeat' (first | assumption | apply keeps_set_pcie)
theorem keeps_ringsStop {s : State} (hs : Keeps F s) :
    Keeps F (ringsStop s) := by
  unfold ringsStop
  with_reducible repeat' (first | assumption | (intro _) | apply keeps_wrB | apply keeps_wrF | apply keeps_ldtCtlWrite | apply keeps_each)
theorem keeps_dmaStop {s : State} (hs : Keeps F s) : Keeps F (dmaStop s) := by
  unfold dmaStop
  refine keeps_modCmd hs.mailbox ?_ hs
  have h : tagsOk { s.cmd with
    inflight := s.cmd.inflight.filter (fun f => !onItsWay f)
    done := s.cmd.done.filter (fun d => !isRing d.cmd.path) } = true :=
    tagsOk_less hs.tags (List.filter_sublist ..) (List.filter_sublist ..)
  refine (tagsOk_congr ?_ ?_).trans h
  · exact map_if_etag (g := fun f => { f with orphan := true }) fun _ _ => rfl
  · rfl
theorem keeps_set_stalls_views_timeLatch {s : State} {x0} {x1} {x2} (h : Keeps F s)
    : Keeps F { s with stalls := x0, views := x1, timeLatch := x2 } :=
  ⟨h.1, h.2, h.3, h.4, h.5, h.6, h.7, h.8⟩
theorem keeps_viewReset {s : State} (hs : Keeps F s) :
    Keeps F (viewReset s) := by
  unfold viewReset
  with_reducible repeat' (first | assumption | apply keeps_releaseFloors | apply keeps_set_stalls_views_timeLatch)
theorem keeps_functionStop {s : State} (hs : Keeps F s) :
    Keeps F (functionStop s) := by
  unfold functionStop
  with_reducible repeat' (first | assumption | apply keeps_viewReset | apply keeps_dmaStop | apply keeps_ringsStop)
theorem keeps_set_regs_pcie {s : State} {x} (p : Nat × Word → Bool) (h : Keeps F s) :
    Keeps F { s with regs := s.regs.filter p, pcie := x } :=
  ⟨h.1, h.2, h.3, h.4, h.5, tabCanon_filter p h.6, h.7, h.8⟩
theorem keeps_configReset {s : State} (hs : Keeps F s) :
    Keeps F (configReset s) := by
  unfold configReset
  with_reducible repeat' (first | assumption | apply keeps_set_regs_pcie)
theorem keeps_functionReset (kind : BitVec 2) {s : State} (hs : Keeps F s) :
    Keeps F (functionReset kind s) := by
  unfold functionReset
  with_reducible repeat' (first | assumption | apply keeps_modPcie | apply keeps_configReset | apply keeps_functionStop | apply keeps_linkUp
                                | apply keeps_unitResetEvent | apply keeps_ite | split | (dsimp only; split))
theorem keeps_execFunctionReset (kind : BitVec 2) {s : State} (hs : Keeps F s) :
    KeepsO F (execFunctionReset kind s) := by
  unfold execFunctionReset
  apply keepsO_next
  with_reducible repeat' (first | assumption | apply keeps_functionReset)
theorem keeps_d3hotEntry {s : State} (hs : Keeps F s) :
    Keeps F (d3hotEntry s) := by
  unfold d3hotEntry
  with_reducible repeat' (first | assumption | apply keeps_modPcie | apply keeps_functionStop | apply keeps_ite | split | (dsimp only; split))
theorem keeps_execD3hotEntry {s : State} (hs : Keeps F s) :
    KeepsO F (execD3hotEntry s) := by
  unfold execD3hotEntry
  apply keepsO_next
  with_reducible repeat' (first | assumption | apply keeps_d3hotEntry)
theorem keeps_d0Return {s : State} (hs : Keeps F s) :
    Keeps F (d0Return s) := by
  unfold d0Return
  with_reducible repeat' (first | assumption | apply keeps_msixReleaseAll | apply keeps_modPcie | apply keeps_ite | split | (dsimp only; split))
theorem keeps_execD0Return {s : State} (hs : Keeps F s) :
    KeepsO F (execD0Return s) := by
  unfold execD0Return
  apply keepsO_next
  with_reducible repeat' (first | assumption | apply keeps_d0Return)
theorem keeps_busMasterSet (b : Bool) {s : State} (hs : Keeps F s) :
    Keeps F (busMasterSet b s) := by
  unfold busMasterSet
  with_reducible repeat' (first | assumption | apply keeps_msixReleaseAll | apply keeps_modPcie)
theorem keeps_execBusMasterEnableChange (b : Bool) {s : State} (hs : Keeps F s) :
    KeepsO F (execBusMasterEnableChange b s) := by
  unfold execBusMasterEnableChange
  apply keepsO_next
  with_reducible repeat' (first | assumption | apply keeps_busMasterSet | apply keeps_ite | split | (dsimp only; split))
theorem keeps_msixUnmask (v : Option (BitVec 9)) {s : State} (hs : Keeps F s) :
    Keeps F (msixUnmask v s) := by
  unfold msixUnmask
  with_reducible repeat' (first | assumption | apply keeps_msixMask | apply keeps_msixReleaseAll | apply keeps_modPcie | split
                                | (dsimp only; split))
theorem keeps_execMsixUnmask (v : Option (BitVec 9)) {s : State} (hs : Keeps F s) :
    KeepsO F (execMsixUnmask v s) := by
  unfold execMsixUnmask
  apply keepsO_next
  with_reducible repeat' (first | assumption | apply keeps_msixUnmask | apply keeps_ite | split | (dsimp only; split))
theorem keeps_inboundRequest (write : Option Word) (a : Option (BitVec 29)) (poisoned : Bool) {s : State} (hs : Keeps F s)
    (nMram : F.mram = none := by assumption) (nSram : F.sram = none := by assumption) (nTakes : F.takes = none := by assumption)
    (nMode : F.mode = none := by assumption) (nTime : F.time = none := by assumption) (nLinks : F.links = none := by assumption)
    (nPairs : F.pairs = none := by assumption) (nPorts : F.ports = none := by assumption) (nTiles : F.tiles = none := by assumption)
    (nRuns : F.runs = none := by assumption) (nCaptures : F.captures = none := by assumption) (nSyns : F.syns = none := by assumption)
    (nLanes : F.lanes = none := by assumption) (nFw : F.fw = none := by assumption) :
    Keeps F (inboundRequest write a poisoned s) := by
  unfold inboundRequest
  with_reducible repeat' (first | assumption | apply keeps_unsupported | apply keeps_busRead | apply keeps_accessError | apply keeps_aerNote
                                | apply keeps_busWrite | apply keeps_ite | split | (dsimp only; split))
theorem keeps_execPcieInboundRequest (write : Option Word) (a : Option (BitVec 29)) (poisoned : Bool) {s : State} (hs : Keeps F s)
    (nMram : F.mram = none := by assumption) (nSram : F.sram = none := by assumption) (nTakes : F.takes = none := by assumption)
    (nMode : F.mode = none := by assumption) (nTime : F.time = none := by assumption) (nLinks : F.links = none := by assumption)
    (nPairs : F.pairs = none := by assumption) (nPorts : F.ports = none := by assumption) (nTiles : F.tiles = none := by assumption)
    (nRuns : F.runs = none := by assumption) (nCaptures : F.captures = none := by assumption) (nSyns : F.syns = none := by assumption)
    (nLanes : F.lanes = none := by assumption) (nFw : F.fw = none := by assumption) :
    KeepsO F (execPcieInboundRequest write a poisoned s) := by
  unfold execPcieInboundRequest
  apply keepsO_next
  with_reducible repeat' (first | assumption | apply keeps_inboundRequest)
theorem keeps_cfgServe (r : CfgReq) {s : State} (hs : Keeps F s) :
    Keeps F (cfgServe r s) := by
  unfold cfgServe
  with_reducible repeat' (first | assumption | (intro _) | apply keeps_draw | apply keeps_emit | apply keeps_command | apply keeps_busMasterSet
                                | apply keeps_modPcie | apply keeps_msixReleaseAll | apply keeps_ite | apply keepsR_ite
                                | refine keepsR_eq (keeps_draw _ ?_) (by assumption) | split | (dsimp only; split) | apply keeps_snd)
theorem keeps_nowReady {s : State} (hs : Keeps F s) :
    KeepsR F (nowReady s) := by
  unfold nowReady
  with_reducible repeat' (first | assumption | apply keeps_draw | apply keeps_ite | apply keepsR_ite
                                | refine keepsR_eq (keeps_draw _ ?_) (by assumption) | split | (dsimp only; split) | apply keeps_snd
                                | apply keepsR_mk)
theorem keeps_configRequest (r : CfgReq) {s : State} (hs : Keeps F s) :
    Keeps F (configRequest r s) := by
  unfold configRequest
  with_reducible repeat' (first | assumption | apply keeps_nowReady | apply keeps_modPcie | apply keeps_linkUp | apply keeps_cfgServe
                                | apply keeps_emit | apply keeps_ite | apply keepsR_ite | refine keepsR_eq (keeps_nowReady ?_) (by assumption)
                                | split | (dsimp only; split) | apply keeps_snd)
theorem keeps_execPcieConfigRequest (r : CfgReq) {s : State} (hs : Keeps F s) :
    KeepsO F (execPcieConfigRequest r s) := by
  unfold execPcieConfigRequest
  apply keepsO_next
  with_reducible repeat' (first | assumption | apply keeps_configRequest)
theorem keeps_perstDeassert {s : State} (hs : Keeps F s) :
    Keeps F (perstDeassert s) := by
  unfold perstDeassert
  with_reducible repeat' (first | assumption | apply keeps_modPcie | apply keeps_ite | split | (dsimp only; split))
theorem keeps_execPerstNDeassertion {s : State} (hs : Keeps F s) :
    KeepsO F (execPerstNDeassertion s) := by
  unfold execPerstNDeassertion
  apply keepsO_next
  with_reducible repeat' (first | assumption | apply keeps_perstDeassert)
theorem keeps_aspmEntry {s : State} (hs : Keeps F s) :
    Keeps F (aspmEntry s) := by
  unfold aspmEntry
  with_reducible repeat' (first | assumption | apply keeps_modPcie | apply keeps_linkUp | apply keeps_ite | split | (dsimp only; split))
theorem keeps_execAspmL1Entry {s : State} (hs : Keeps F s) :
    KeepsO F (execAspmL1Entry s) := by
  unfold execAspmL1Entry
  apply keepsO_next
  with_reducible repeat' (first | assumption | apply keeps_aspmEntry)
theorem keeps_aspmExit {s : State} (hs : Keeps F s) :
    Keeps F (aspmExit s) := by
  unfold aspmExit
  with_reducible repeat' (first | assumption | apply keeps_modPcie)
theorem keeps_execAspmL1Exit {s : State} (hs : Keeps F s) :
    KeepsO F (execAspmL1Exit s) := by
  unfold execAspmL1Exit
  apply keepsO_next
  with_reducible repeat' (first | assumption | apply keeps_aspmExit)

/-! ### Firmware -/

theorem keeps_detach (f : InFlight) {s : State} (hs : Keeps F s) (nLinks : F.links = none := by assumption)
    (nPairs : F.pairs = none := by assumption) (nPorts : F.ports = none := by assumption) (nTiles : F.tiles = none := by assumption)
    (nRuns : F.runs = none := by assumption) (nCaptures : F.captures = none := by assumption) (nSyns : F.syns = none := by assumption)
    (nLanes : F.lanes = none := by assumption) (nFw : F.fw = none := by assumption) :
    Keeps F (detach f s) := by
  unfold detach
  with_reducible repeat' (first | assumption | apply keeps_modTile | apply keeps_modPair | apply keeps_putCaps | apply keeps_modPort
                                | apply keeps_modLane | apply keeps_modSyn | apply keeps_modDom | apply keeps_modFw | apply keeps_activationEnds
                                | apply keeps_ite | split | (dsimp only; split) | apply keeps_snd | apply keeps_set_chain
                                | apply keeps_set_plChanges)
theorem keeps_dropProfile (e l : Nat) {s : State} (hs : Keeps F s) (nRuns : F.runs = none := by assumption)
    (nCaptures : F.captures = none := by assumption) :
    Keeps F (dropProfile e l s) := by
  unfold dropProfile
  with_reducible repeat' (first | assumption | apply keeps_capDrop | apply keeps_putRuns | apply keeps_ite | split | (dsimp only; split))
theorem keeps_giveUp (f : InFlight) {s : State} (hs : Keeps F s) (nPairs : F.pairs = none := by assumption)
    (nTiles : F.tiles = none := by assumption) (nRuns : F.runs = none := by assumption) (nCaptures : F.captures = none := by assumption) :
    Keeps F (giveUp f s) := by
  unfold giveUp
  with_reducible repeat' (first | assumption | apply keeps_modTile | apply keeps_cutAbort | apply keeps_abortRun | apply keeps_dropProfile
                                | apply keeps_modDom | apply keeps_ite | split | (dsimp only; split))
theorem keeps_commandTimeout (e : Nat) {s : State} (hs : Keeps F s) (nLinks : F.links = none := by assumption)
    (nPairs : F.pairs = none := by assumption) (nPorts : F.ports = none := by assumption) (nTiles : F.tiles = none := by assumption)
    (nRuns : F.runs = none := by assumption) (nCaptures : F.captures = none := by assumption) (nSyns : F.syns = none := by assumption)
    (nLanes : F.lanes = none := by assumption) (nFw : F.fw = none := by assumption) :
    Keeps F (commandTimeout e s) := by
  unfold commandTimeout
  with_reducible repeat' (first | assumption | apply keeps_detach | apply keeps_giveUp | apply keeps_finish | apply keeps_ite | split
                                | (dsimp only; split))
theorem keeps_execCommandTimeoutExpiry (e : BitVec 12) {s : State} (hs : Keeps F s) (nLinks : F.links = none := by assumption)
    (nPairs : F.pairs = none := by assumption) (nPorts : F.ports = none := by assumption) (nTiles : F.tiles = none := by assumption)
    (nRuns : F.runs = none := by assumption) (nCaptures : F.captures = none := by assumption) (nSyns : F.syns = none := by assumption)
    (nLanes : F.lanes = none := by assumption) (nFw : F.fw = none := by assumption) :
    KeepsO F (execCommandTimeoutExpiry e s) := by
  unfold execCommandTimeoutExpiry
  apply keepsO_next
  with_reducible repeat' (first | assumption | apply keeps_commandTimeout)
theorem keeps_set_corrAt {s : State} {x0} (h : Keeps F s) : Keeps F { s with corrAt := x0 } :=
  ⟨h.1, h.2, h.3, h.4, h.5, h.6, h.7, h.8⟩
theorem keeps_memCorrected (b : MemBank) {s : State} (hs : Keeps F s) :
    Keeps F (memCorrected b s) := by
  unfold memCorrected
  with_reducible repeat' (first | assumption | apply keeps_count | apply keeps_raise | apply keeps_ite | split | (dsimp only; split)
                                | apply keeps_set_corrAt)
theorem keeps_restartDue (cause : Nat) {s : State} (hs : Keeps F s) (nFw : F.fw = none := by assumption) :
    Keeps F (restartDue cause s) := by
  unfold restartDue
  with_reducible repeat' (first | assumption | refine keeps_modCmd_rest (fun _ => rfl) (fun _ => rfl) (fun _ => rfl) ?_ | apply keeps_done_filter
                                | apply keeps_modFw | apply keeps_ite | split | (dsimp only; split))
theorem keeps_badWordRead (h : Holds) {s : State} (hs : Keeps F s) (nFw : F.fw = none := by assumption) :
    Keeps F (badWordRead h s) := by
  unfold badWordRead
  with_reducible repeat' (first | assumption | apply keeps_restartDue | apply keeps_ldtInvalidate | split | (dsimp only; split))
theorem keeps_wordDecoded (b : MemBank) (off : Nat) {s : State} (hs : Keeps F s) (nTakes : F.takes = none := by assumption) :
    Keeps F (wordDecoded b off s) := by
  unfold wordDecoded
  with_reducible repeat' (first | assumption | apply keeps_drawBytes | apply keeps_putTake | apply keeps_areaPut | apply keeps_foldInto
                                | apply keeps_ite | apply keepsR_ite | refine keepsR_eq (keeps_drawBytes _ _ ?_) (by assumption) | split
                                | (dsimp only; split) | apply keeps_snd)
theorem keeps_set_badWords {s : State} {x0} (h : Keeps F s) : Keeps F { s with badWords := x0 } :=
  ⟨h.1, h.2, h.3, h.4, h.5, h.6, h.7, h.8⟩
theorem keeps_memUncorrectable (b : MemBank) (off : Nat) {s : State} (hs : Keeps F s) (nTakes : F.takes = none := by assumption) :
    Keeps F (memUncorrectable b off s) := by
  unfold memUncorrectable
  with_reducible repeat' (first | assumption | apply keeps_wordDecoded | apply keeps_wr | apply keeps_count | apply keeps_raise | apply keeps_ite
                                | split | (dsimp only; split) | apply keeps_set_badWords)
theorem keeps_scrubRead (b : MemBank) (off : Nat) (found : Found) (rewritten : Bool) (h : Holds) {s : State} (hs : Keeps F s)
    (nTakes : F.takes = none := by assumption) (nFw : F.fw = none := by assumption) :
    Keeps F (scrubRead b off found rewritten h s) := by
  unfold scrubRead
  with_reducible repeat' (first | assumption | apply keeps_memCorrected | apply keeps_badWordRead | apply keeps_memUncorrectable | apply keeps_ite
                                | split | (dsimp only; split) | apply keeps_set_badWords)
theorem keeps_execScrubRead (b : MemBank) (off : BitVec 24) (found : Found) (rewritten : Bool) (h : Holds) {s : State} (hs : Keeps F s)
    (nTakes : F.takes = none := by assumption) (nFw : F.fw = none := by assumption) :
    KeepsO F (execScrubRead b off found rewritten h s) := by
  unfold execScrubRead
  apply keepsO_next
  with_reducible repeat' (first | assumption | apply keeps_scrubRead)
theorem keeps_tmrMismatch (a : Nat) (majority : Bool) (copyA : Word) {s : State} (hs : Keeps F s) :
    Keeps F (tmrMismatch a majority copyA s) := by
  unfold tmrMismatch
  with_reducible repeat' (first | assumption | apply keeps_wr | apply keeps_count | apply keeps_raise | apply keeps_ite | split
                                | (dsimp only; split))
theorem keeps_execTmrMismatch (a : BitVec 28) (majority : Bool) (copyA : Word) {s : State} (hs : Keeps F s) :
    KeepsO F (execTmrMismatch a majority copyA s) := by
  unfold execTmrMismatch
  apply keepsO_next
  with_reducible repeat' (first | assumption | apply keeps_tmrMismatch)
theorem keeps_graderStalls (g : Nat) {s : State} (hs : Keeps F s) (nTiles : F.tiles = none := by assumption)
    (nRuns : F.runs = none := by assumption) (nCaptures : F.captures = none := by assumption) :
    Keeps F (graderStalls g s) := by
  unfold graderStalls
  with_reducible repeat' (first | assumption | (intro _) | apply keeps_abortRun | apply keeps_capDrop | apply keeps_putRuns | apply keeps_complete
                                | apply keeps_each | apply keeps_foldl | apply keepsR_foldl)
theorem keeps_watchdog (beats : List Word) {s : State} (hs : Keeps F s) (nTiles : F.tiles = none := by assumption)
    (nRuns : F.runs = none := by assumption) (nCaptures : F.captures = none := by assumption) (nFw : F.fw = none := by assumption) :
    Keeps F (watchdog beats s) := by
  unfold watchdog
  with_reducible repeat' (first | assumption | (intro _) | apply keeps_modFw | apply keeps_restartDue | apply keeps_graderStalls
                                | apply keeps_each | apply keeps_ite | split | (dsimp only; split))
theorem keeps_execOperatorWatchdogCheck (beats : List Word) {s : State} (hs : Keeps F s) (nTiles : F.tiles = none := by assumption)
    (nRuns : F.runs = none := by assumption) (nCaptures : F.captures = none := by assumption) (nFw : F.fw = none := by assumption) :
    KeepsO F (execOperatorWatchdogCheck beats s) := by
  unfold execOperatorWatchdogCheck
  apply keepsO_next
  with_reducible repeat' (first | assumption | apply keeps_watchdog)
theorem keeps_execOperatorTrap (memory : Bool) {s : State} (hs : Keeps F s) (nFw : F.fw = none := by assumption) :
    KeepsO F (execOperatorTrap memory s) := by
  unfold execOperatorTrap
  apply keepsO_next
  with_reducible repeat' (first | assumption | apply keeps_restartDue | apply keeps_ite | split | (dsimp only; split))
theorem keeps_runsEnd {s : State} (hs : Keeps F s) (nTiles : F.tiles = none := by assumption) (nRuns : F.runs = none := by assumption)
    (nCaptures : F.captures = none := by assumption) :
    Keeps F (runsEnd s) := by
  unfold runsEnd
  with_reducible repeat' (first | assumption | (intro _) | apply keeps_capDrop | apply keeps_modTile | apply keeps_each | apply keeps_set_runs)
theorem keeps_commandsRestarted (keep : Nat) {s : State} (hs : Keeps F s) (nLinks : F.links = none := by assumption)
    (nPairs : F.pairs = none := by assumption) (nPorts : F.ports = none := by assumption) (nTiles : F.tiles = none := by assumption)
    (nRuns : F.runs = none := by assumption) (nCaptures : F.captures = none := by assumption) (nSyns : F.syns = none := by assumption)
    (nLanes : F.lanes = none := by assumption) (nFw : F.fw = none := by assumption) :
    Keeps F (commandsRestarted keep s) := by
  unfold commandsRestarted
  with_reducible repeat' (first | assumption | (intro _) | apply keeps_detach | apply keeps_finish | apply keeps_foldl | apply keepsR_foldl)
theorem keeps_linksRestart {s : State} (hs : Keeps F s) (nLinks : F.links = none := by assumption) (nPairs : F.pairs = none := by assumption)
    (nPorts : F.ports = none := by assumption) (nTiles : F.tiles = none := by assumption) (nRuns : F.runs = none := by assumption)
    (nCaptures : F.captures = none := by assumption) (nSyns : F.syns = none := by assumption) (nLanes : F.lanes = none := by assumption) :
    Keeps F (linksRestart s) := by
  unfold linksRestart
  with_reducible repeat' (first | assumption | (intro _) | apply keeps_depart | apply keeps_each | apply keeps_ite | split | (dsimp only; split))
theorem keeps_set_views_timeLatch {s : State} {x0} {x1} (h : Keeps F s) : Keeps F { s with views := x0, timeLatch := x1 } :=
  ⟨h.1, h.2, h.3, h.4, h.5, h.6, h.7, h.8⟩
theorem keeps_operatorStops (keep : Nat) {s : State} (hs : Keeps F s) (nLinks : F.links = none := by assumption)
    (nPairs : F.pairs = none := by assumption) (nPorts : F.ports = none := by assumption) (nTiles : F.tiles = none := by assumption)
    (nRuns : F.runs = none := by assumption) (nCaptures : F.captures = none := by assumption) (nSyns : F.syns = none := by assumption)
    (nLanes : F.lanes = none := by assumption) (nFw : F.fw = none := by assumption) :
    Keeps F (operatorStops keep s) := by
  unfold operatorStops
  with_reducible repeat' (first | assumption | apply keeps_releaseFloors | apply keeps_commandsRestarted | apply keeps_runsEnd
                                | apply keeps_linksRestart | refine keeps_modCmd_rest (fun _ => rfl) (fun _ => rfl) (fun _ => rfl) ?_
                                | apply keeps_done_filter | apply keeps_wrF | apply keeps_modFw | apply keeps_set_views_timeLatch)
theorem keeps_enterRecovery {s : State} (hs : Keeps F s) :
    Keeps F (enterRecovery s) := by
  unfold enterRecovery
  with_reducible repeat' (first | assumption | apply keeps_wrB)
theorem keeps_restartImage (cause crypto : Nat) {s : State} (hs : Keeps F s) (nFw : F.fw = none := by assumption) :
    Keeps F (restartImage cause crypto s) := by
  unfold restartImage
  with_reducible repeat' (first | assumption | apply keeps_verifyBank | apply keeps_unitResetEvent | apply keeps_raise | apply keeps_imageRuns
                                | apply keeps_enterRecovery | apply keeps_ite | apply keepsR_ite
                                | refine keepsR_eq (keeps_verifyBank _ _ ?_) (by assumption) | split | (dsimp only; split) | apply keeps_snd)
theorem keeps_restartGo (cause crypto : Nat) {s : State} (hs : Keeps F s) (nLinks : F.links = none := by assumption)
    (nPairs : F.pairs = none := by assumption) (nPorts : F.ports = none := by assumption) (nTiles : F.tiles = none := by assumption)
    (nRuns : F.runs = none := by assumption) (nCaptures : F.captures = none := by assumption) (nSyns : F.syns = none := by assumption)
    (nLanes : F.lanes = none := by assumption) (nFw : F.fw = none := by assumption) :
    Keeps F (restartGo cause crypto s) := by
  unfold restartGo
  with_reducible repeat' (first | assumption | apply keeps_operatorStops | apply keeps_modFw | apply keeps_raise | apply keeps_enterRecovery
                                | apply keeps_restartImage | apply keeps_ite | split | (dsimp only; split))
theorem keeps_operatorRestart (crypto : Nat) {s : State} (hs : Keeps F s) (nLinks : F.links = none := by assumption)
    (nPairs : F.pairs = none := by assumption) (nPorts : F.ports = none := by assumption) (nTiles : F.tiles = none := by assumption)
    (nRuns : F.runs = none := by assumption) (nCaptures : F.captures = none := by assumption) (nSyns : F.syns = none := by assumption)
    (nLanes : F.lanes = none := by assumption) (nFw : F.fw = none := by assumption) :
    Keeps F (operatorRestart crypto s) := by
  unfold operatorRestart
  with_reducible repeat' (first | assumption | apply keeps_beginWake | apply keeps_restartGo | apply keeps_ite | split | (dsimp only; split))
theorem keeps_execOperatorRestart (crypto : BitVec 3) {s : State} (hs : Keeps F s) (nLinks : F.links = none := by assumption)
    (nPairs : F.pairs = none := by assumption) (nPorts : F.ports = none := by assumption) (nTiles : F.tiles = none := by assumption)
    (nRuns : F.runs = none := by assumption) (nCaptures : F.captures = none := by assumption) (nSyns : F.syns = none := by assumption)
    (nLanes : F.lanes = none := by assumption) (nFw : F.fw = none := by assumption) :
    KeepsO F (execOperatorRestart crypto s) := by
  unfold execOperatorRestart
  apply keepsO_next
  with_reducible repeat' (first | assumption | apply keeps_operatorRestart)
theorem keeps_quiescentPoint (crypto : Nat) {s : State} (hs : Keeps F s) (nLinks : F.links = none := by assumption)
    (nPairs : F.pairs = none := by assumption) (nPorts : F.ports = none := by assumption) (nTiles : F.tiles = none := by assumption)
    (nRuns : F.runs = none := by assumption) (nCaptures : F.captures = none := by assumption) (nSyns : F.syns = none := by assumption)
    (nLanes : F.lanes = none := by assumption) (nFw : F.fw = none := by assumption) :
    Keeps F (quiescentPoint crypto s) := by
  unfold quiescentPoint
  with_reducible repeat' (first | assumption | (intro _) | apply keeps_beginWake | apply keeps_verifyBank | apply keeps_modFw
                                | apply keeps_verified | apply keeps_complete | apply keeps_activationEnds | apply keeps_operatorStops
                                | apply keeps_wrB | apply keeps_pairsToSyn | apply keeps_unitResetEvent | apply keeps_raise
                                | apply keeps_imageRuns | apply keeps_each | apply keeps_ite | apply keepsR_ite
                                | refine keepsR_eq (keeps_verifyBank _ _ ?_) (by assumption) | split | (dsimp only; split) | apply keeps_snd)
theorem keeps_execQuiescentPoint (crypto : BitVec 3) {s : State} (hs : Keeps F s) (nLinks : F.links = none := by assumption)
    (nPairs : F.pairs = none := by assumption) (nPorts : F.ports = none := by assumption) (nTiles : F.tiles = none := by assumption)
    (nRuns : F.runs = none := by assumption) (nCaptures : F.captures = none := by assumption) (nSyns : F.syns = none := by assumption)
    (nLanes : F.lanes = none := by assumption) (nFw : F.fw = none := by assumption) :
    KeepsO F (execQuiescentPoint crypto s) := by
  unfold execQuiescentPoint
  apply keepsO_next
  with_reducible repeat' (first | assumption | apply keeps_quiescentPoint)
theorem keeps_patchActivation {s : State} (hs : Keeps F s) (nFw : F.fw = none := by assumption) :
    Keeps F (patchActivation s) := by
  unfold patchActivation
  with_reducible repeat' (first | assumption | apply keeps_modFw | apply keeps_verified | apply keeps_complete | apply keeps_imageRuns
                                | apply keeps_wrB | apply keeps_ite | split | (dsimp only; split))
theorem keeps_execPatchActivation {s : State} (hs : Keeps F s) (nFw : F.fw = none := by assumption) :
    KeepsO F (execPatchActivation s) := by
  unfold execPatchActivation
  apply keepsO_next
  with_reducible repeat' (first | assumption | apply keeps_patchActivation)
theorem keeps_rollbackTimer (ty : Nat) {s : State} (hs : Keeps F s) (nFw : F.fw = none := by assumption) :
    Keeps F (rollbackTimer ty s) := by
  unfold rollbackTimer
  with_reducible repeat' (first | assumption | apply keeps_modFw | apply keeps_ite | split | (dsimp only; split))
theorem keeps_execRollbackFloorTimer (patch : Bool) {s : State} (hs : Keeps F s) (nFw : F.fw = none := by assumption) :
    KeepsO F (execRollbackFloorTimer patch s) := by
  unfold execRollbackFloorTimer
  apply keepsO_next
  with_reducible repeat' (first | assumption | apply keeps_rollbackTimer)
theorem keeps_supervisorRequest (v : View) (a : Nat) (w : Word) {s : State} (hs : Keeps F s) (nMram : F.mram = none := by assumption)
    (nSram : F.sram = none := by assumption) (nTakes : F.takes = none := by assumption) (nMode : F.mode = none := by assumption)
    (nTime : F.time = none := by assumption) (nLinks : F.links = none := by assumption) (nPairs : F.pairs = none := by assumption)
    (nPorts : F.ports = none := by assumption) (nTiles : F.tiles = none := by assumption) (nRuns : F.runs = none := by assumption)
    (nCaptures : F.captures = none := by assumption) (nSyns : F.syns = none := by assumption) (nLanes : F.lanes = none := by assumption)
    (nFw : F.fw = none := by assumption) :
    Keeps F (supervisorRequest v a w s) := by
  unfold supervisorRequest
  with_reducible repeat' (first | assumption | apply keeps_firewallRefusal | apply keeps_busWrite | apply keeps_ite | split | (dsimp only; split))
theorem keeps_execSupervisorRequest (v : View) (a : BitVec 28) (w : Word) {s : State} (hs : Keeps F s) (nMram : F.mram = none := by assumption)
    (nSram : F.sram = none := by assumption) (nTakes : F.takes = none := by assumption) (nMode : F.mode = none := by assumption)
    (nTime : F.time = none := by assumption) (nLinks : F.links = none := by assumption) (nPairs : F.pairs = none := by assumption)
    (nPorts : F.ports = none := by assumption) (nTiles : F.tiles = none := by assumption) (nRuns : F.runs = none := by assumption)
    (nCaptures : F.captures = none := by assumption) (nSyns : F.syns = none := by assumption) (nLanes : F.lanes = none := by assumption)
    (nFw : F.fw = none := by assumption) :
    KeepsO F (execSupervisorRequest v a w s) := by
  unfold execSupervisorRequest
  apply keepsO_next
  with_reducible repeat' (first | assumption | apply keeps_supervisorRequest)
theorem keeps_lockstepMismatch {s : State} (hs : Keeps F s) (nLinks : F.links = none := by assumption) (nPairs : F.pairs = none := by assumption)
    (nPorts : F.ports = none := by assumption) (nTiles : F.tiles = none := by assumption) (nRuns : F.runs = none := by assumption)
    (nCaptures : F.captures = none := by assumption) (nSyns : F.syns = none := by assumption) (nLanes : F.lanes = none := by assumption)
    (nFw : F.fw = none := by assumption) :
    Keeps F (lockstepMismatch s) := by
  unfold lockstepMismatch
  with_reducible repeat' (first | assumption | (intro _) | apply keeps_detach | apply keeps_complete | apply keeps_wrB | apply keeps_foldl
                                | apply keepsR_foldl | apply keeps_ite | split | (dsimp only; split))
theorem keeps_execLockstepMismatch {s : State} (hs : Keeps F s) (nLinks : F.links = none := by assumption)
    (nPairs : F.pairs = none := by assumption) (nPorts : F.ports = none := by assumption) (nTiles : F.tiles = none := by assumption)
    (nRuns : F.runs = none := by assumption) (nCaptures : F.captures = none := by assumption) (nSyns : F.syns = none := by assumption)
    (nLanes : F.lanes = none := by assumption) (nFw : F.fw = none := by assumption) :
    KeepsO F (execLockstepMismatch s) := by
  unfold execLockstepMismatch
  apply keepsO_next
  with_reducible repeat' (first | assumption | apply keeps_lockstepMismatch)

/-! ### RsMonitor -/

theorem keeps_rsCount (l dir : Nat) (n : List (BitVec 32)) {s : State} (hs : Keeps F s) (nPairs : F.pairs = none := by assumption) :
    Keeps F (rsCount l dir n s) := by
  unfold rsCount
  with_reducible repeat' (first | assumption | (intro _) | apply keeps_modPair | apply keeps_countWide | apply keeps_each | apply keeps_ite
                                | split | (dsimp only; split))
theorem keeps_rsLock (l dir : Nat) (n : List (BitVec 32)) {s : State} (hs : Keeps F s) (nPairs : F.pairs = none := by assumption) :
    Keeps F (rsLock l dir n s) := by
  unfold rsLock
  with_reducible repeat' (first | assumption | apply keeps_rsCount | apply keeps_wrB | apply keeps_ite | split | (dsimp only; split))
theorem keeps_execRsMonitorLock (l : Pair) (host : Bool) (n : List (BitVec 32)) {s : State} (hs : Keeps F s)
    (nPairs : F.pairs = none := by assumption) :
    KeepsO F (execRsMonitorLock l host n s) := by
  unfold execRsMonitorLock
  apply keepsO_next
  with_reducible repeat' (first | assumption | apply keeps_rsLock)
theorem keeps_rsLoss (l dir : Nat) (n : List (BitVec 32)) {s : State} (hs : Keeps F s) (nPairs : F.pairs = none := by assumption) :
    Keeps F (rsLoss l dir n s) := by
  unfold rsLoss
  with_reducible repeat' (first | assumption | apply keeps_orViews | apply keeps_wrB | apply keeps_rsCount | apply keeps_ite | split
                                | (dsimp only; split))
theorem keeps_execRsMonitorLockLoss (l : Pair) (host : Bool) (n : List (BitVec 32)) {s : State} (hs : Keeps F s)
    (nPairs : F.pairs = none := by assumption) :
    KeepsO F (execRsMonitorLockLoss l host n s) := by
  unfold execRsMonitorLockLoss
  apply keepsO_next
  with_reducible repeat' (first | assumption | apply keeps_rsLoss)

/-! ### Step -/

theorem keeps_set_time {s : State} {x0} (h : Keeps F s) (nTime : F.time = none := by assumption) : Keeps F { s with time := x0 } :=
  ⟨h.1, h.2, h.3, h.4, h.5, h.6, h.7, fixes_time h.8 nTime⟩
theorem keeps_idle {s : State} (hs : Keeps F s) (nTime : F.time = none := by assumption) :
    Keeps F (idle s) := by
  unfold idle
  with_reducible repeat' (first | assumption | apply keeps_idleCounts | apply keeps_ite | split | (dsimp only; split) | apply keeps_set_time)

end Sys2Proof.Machine
end

