-- ==== Sys2Proof/Laws/State.lean ====
section
/-! SUPPORT. Small laws of State: what a table holds after an update, what each named update leaves in every other field, and what reads
back after it. -/
namespace Sys2Proof.Laws
open Sys2Proof Sys2Proof.Machine

/-! ### Tables -/

theorem tabGet_tabErase {α : Type} (d : α) (t : Tab α) (n m : Nat) : tabGet d (tabErase t n) m = if m = n then d else tabGet d t m := by
  induction t with
  | nil => simp [tabErase, tabGet]
  | cons y t ih =>
    obtain ⟨k, v⟩ := y
    simp only [tabErase]
    by_cases h : n = k
    · subst h
      rw [if_pos rfl, ih]
      by_cases h' : m = n <;> simp [tabGet, h']
    · rw [if_neg h]
      simp only [tabGet, ih]
      by_cases h' : m = k
      · subst h'; simp [Ne.symm h]
      · simp [h']
theorem tabGet_tabInsert {α : Type} (d : α) (t : Tab α) (n m : Nat) (x : α) :
    tabGet d (tabInsert t n x) m = if m = n then x else tabGet d t m := by
  induction t with
  | nil => simp [tabInsert, tabGet]
  | cons y t ih =>
    obtain ⟨k, v⟩ := y
    simp only [tabInsert]
    by_cases h1 : n < k
    · simp [h1, tabGet]
    · by_cases h : n = k
      · subst h
        by_cases h' : m = n <;> simp [tabGet, h']
      · simp only [h1, h, if_false, tabGet, ih]
        by_cases h' : m = k
        · subst h'; simp [Ne.symm h]
        · simp [h']
theorem tabGet_tabPut {α : Type} [DecidableEq α] (d : α) (t : Tab α) (n m : Nat) (x : α) :
    tabGet d (tabPut d t n x) m = if m = n then x else tabGet d t m := by
  unfold tabPut
  split
  · rw [tabGet_tabErase]; subst_vars; rfl
  · exact tabGet_tabInsert ..
@[simp] theorem tabGet_tabPut_same {α : Type} [DecidableEq α] (d : α) (t : Tab α) (n : Nat) (x : α) : tabGet d (tabPut d t n x) n = x := by
  simp [tabGet_tabPut]
theorem tabGet_tabPut_other {α : Type} [DecidableEq α] (d e : α) (t : Tab α) {n m : Nat} (x : α) (h : m ≠ n) :
    tabGet e (tabPut d t n x) m = tabGet e t m := by
  unfold tabPut
  split
  · rw [tabGet_tabErase, if_neg h]
  · rw [tabGet_tabInsert, if_neg h]

/-! ### What reads back -/

@[simp] theorem rd_wr_same (a : Nat) (v : Word) (s : State) : rd (wr a v s) a = v := tabGet_tabPut_same ..
@[simp] theorem rd_wr_other {a b : Nat} (v : Word) (s : State) (h : b ≠ a) : rd (wr a v s) b = rd s b := tabGet_tabPut_other _ _ _ _ h
@[simp] theorem rd_count_same (a n : Nat) (s : State) : rd (count a n s) a = rd s a + BitVec.ofNat 32 n := rd_wr_same ..
@[simp] theorem rd_count_other {a b : Nat} (n : Nat) (s : State) (h : b ≠ a) : rd (count a n s) b = rd s b := rd_wr_other _ _ h
@[simp] theorem rd_wrF_same (a hi lo v : Nat) (s : State) : rd (wrF a hi lo v s) a = fieldPut (rd s a) hi lo v := rd_wr_same ..
@[simp] theorem rd_wrF_other {a b : Nat} (hi lo v : Nat) (s : State) (h : b ≠ a) : rd (wrF a hi lo v s) b = rd s b := rd_wr_other _ _ h
@[simp] theorem rd_wrB_same (a i : Nat) (b : Bool) (s : State) : rd (wrB a i b s) a = bitPut (rd s a) i b := rd_wr_same ..
@[simp] theorem rd_wrB_other {a b : Nat} (i : Nat) (x : Bool) (s : State) (h : b ≠ a) : rd (wrB a i x s) b = rd s b := rd_wr_other _ _ h
@[simp] theorem rdView_wrView_same (v : View) (a : Nat) (x : Word) (s : State) : rdView (wrView v a x s) v a = x := tabGet_tabPut_same ..
@[simp] theorem linkOf_putLink_same (l : Nat) (x : LinkSt) (s : State) : linkOf (putLink l x s) l = x := tabGet_tabPut_same ..
@[simp] theorem linkOf_putLink_other {l m : Nat} (x : LinkSt) (s : State) (h : m ≠ l) : linkOf (putLink l x s) m = linkOf s m :=
  tabGet_tabPut_other _ _ _ _ h
@[simp] theorem linkOf_modLink_same (l : Nat) (f : LinkSt → LinkSt) (s : State) : linkOf (modLink l f s) l = f (linkOf s l) := tabGet_tabPut_same ..
@[simp] theorem linkOf_modLink_other {l m : Nat} (f : LinkSt → LinkSt) (s : State) (h : m ≠ l) : linkOf (modLink l f s) m = linkOf s m :=
  tabGet_tabPut_other _ _ _ _ h
@[simp] theorem pairOf_putPair_same (l : Nat) (x : PairSt) (s : State) : pairOf (putPair l x s) l = x := tabGet_tabPut_same ..
@[simp] theorem pairOf_putPair_other {l m : Nat} (x : PairSt) (s : State) (h : m ≠ l) : pairOf (putPair l x s) m = pairOf s m :=
  tabGet_tabPut_other _ _ _ _ h
@[simp] theorem pairOf_modPair_same (l : Nat) (f : PairSt → PairSt) (s : State) : pairOf (modPair l f s) l = f (pairOf s l) := tabGet_tabPut_same ..
@[simp] theorem pairOf_modPair_other {l m : Nat} (f : PairSt → PairSt) (s : State) (h : m ≠ l) : pairOf (modPair l f s) m = pairOf s m :=
  tabGet_tabPut_other _ _ _ _ h
@[simp] theorem portOf_modPort_same (l : Nat) (f : PortSt → PortSt) (s : State) : portOf (modPort l f s) l = f (portOf s l) := tabGet_tabPut_same ..
@[simp] theorem portOf_modPort_other {l m : Nat} (f : PortSt → PortSt) (s : State) (h : m ≠ l) : portOf (modPort l f s) m = portOf s m :=
  tabGet_tabPut_other _ _ _ _ h
@[simp] theorem tileOf_modTile_same (l : Nat) (f : TileSt → TileSt) (s : State) : tileOf (modTile l f s) l = f (tileOf s l) := tabGet_tabPut_same ..
@[simp] theorem tileOf_modTile_other {l m : Nat} (f : TileSt → TileSt) (s : State) (h : m ≠ l) : tileOf (modTile l f s) m = tileOf s m :=
  tabGet_tabPut_other _ _ _ _ h
@[simp] theorem synOf_modSyn_same (l : Nat) (f : SynSt → SynSt) (s : State) : synOf (modSyn l f s) l = f (synOf s l) := tabGet_tabPut_same ..
@[simp] theorem synOf_modSyn_other {l m : Nat} (f : SynSt → SynSt) (s : State) (h : m ≠ l) : synOf (modSyn l f s) m = synOf s m :=
  tabGet_tabPut_other _ _ _ _ h
@[simp] theorem laneOf_modLane_same (l : Nat) (f : LaneSt → LaneSt) (s : State) : laneOf (modLane l f s) l = f (laneOf s l) := tabGet_tabPut_same ..
@[simp] theorem laneOf_modLane_other {l m : Nat} (f : LaneSt → LaneSt) (s : State) (h : m ≠ l) : laneOf (modLane l f s) m = laneOf s m :=
  tabGet_tabPut_other _ _ _ _ h
@[simp] theorem domOf_modDom_same (l : Nat) (f : DomSt → DomSt) (s : State) : domOf (modDom l f s) l = f (domOf s l) := tabGet_tabPut_same ..
@[simp] theorem domOf_modDom_other {l m : Nat} (f : DomSt → DomSt) (s : State) (h : m ≠ l) : domOf (modDom l f s) m = domOf s m :=
  tabGet_tabPut_other _ _ _ _ h
@[simp] theorem runsOf_putRuns_same (l : Nat) (x : List Run) (s : State) : runsOf (putRuns l x s) l = x := tabGet_tabPut_same ..
@[simp] theorem runsOf_putRuns_other {l m : Nat} (x : List Run) (s : State) (h : m ≠ l) : runsOf (putRuns l x s) m = runsOf s m :=
  tabGet_tabPut_other _ _ _ _ h
@[simp] theorem capsOf_putCaps_same (l : Nat) (x : List Capture) (s : State) : capsOf (putCaps l x s) l = x := tabGet_tabPut_same ..
@[simp] theorem capsOf_putCaps_other {l m : Nat} (x : List Capture) (s : State) (h : m ≠ l) : capsOf (putCaps l x s) m = capsOf s m :=
  tabGet_tabPut_other _ _ _ _ h

/-! ### What each update leaves -/

@[simp] theorem wr_pending (a : Nat) (v : Word) (s : State) : (wr a v s).pending = s.pending := by rfl
@[simp] theorem wr_mode (a : Nat) (v : Word) (s : State) : (wr a v s).mode = s.mode := by rfl
@[simp] theorem wr_time (a : Nat) (v : Word) (s : State) : (wr a v s).time = s.time := by rfl
@[simp] theorem wr_views (a : Nat) (v : Word) (s : State) : (wr a v s).views = s.views := by rfl
@[simp] theorem wr_held (a : Nat) (v : Word) (s : State) : (wr a v s).held = s.held := by rfl
@[simp] theorem wr_snapAt (a : Nat) (v : Word) (s : State) : (wr a v s).snapAt = s.snapAt := by rfl
@[simp] theorem wr_snapOff (a : Nat) (v : Word) (s : State) : (wr a v s).snapOff = s.snapOff := by rfl
@[simp] theorem wr_snapDone (a : Nat) (v : Word) (s : State) : (wr a v s).snapDone = s.snapDone := by rfl
@[simp] theorem wr_perfWins (a : Nat) (v : Word) (s : State) : (wr a v s).perfWins = s.perfWins := by rfl
@[simp] theorem wr_perfAcc (a : Nat) (v : Word) (s : State) : (wr a v s).perfAcc = s.perfAcc := by rfl
@[simp] theorem wr_timeLatch (a : Nat) (v : Word) (s : State) : (wr a v s).timeLatch = s.timeLatch := by rfl
@[simp] theorem wr_hostMem (a : Nat) (v : Word) (s : State) : (wr a v s).hostMem = s.hostMem := by rfl
@[simp] theorem wr_out (a : Nat) (v : Word) (s : State) : (wr a v s).out = s.out := by rfl
@[simp] theorem wr_fresh (a : Nat) (v : Word) (s : State) : (wr a v s).fresh = s.fresh := by rfl
@[simp] theorem wr_cmd (a : Nat) (v : Word) (s : State) : (wr a v s).cmd = s.cmd := by rfl
@[simp] theorem wr_evt (a : Nat) (v : Word) (s : State) : (wr a v s).evt = s.evt := by rfl
@[simp] theorem wr_pcie (a : Nat) (v : Word) (s : State) : (wr a v s).pcie = s.pcie := by rfl
@[simp] theorem wr_sp (a : Nat) (v : Word) (s : State) : (wr a v s).sp = s.sp := by rfl
@[simp] theorem wr_fw (a : Nat) (v : Word) (s : State) : (wr a v s).fw = s.fw := by rfl
@[simp] theorem wr_offPending (a : Nat) (v : Word) (s : State) : (wr a v s).offPending = s.offPending := by rfl
@[simp] theorem wr_hops (a : Nat) (v : Word) (s : State) : (wr a v s).hops = s.hops := by rfl
@[simp] theorem wr_pulse (a : Nat) (v : Word) (s : State) : (wr a v s).pulse = s.pulse := by rfl
@[simp] theorem wr_chain (a : Nat) (v : Word) (s : State) : (wr a v s).chain = s.chain := by rfl
@[simp] theorem wr_muxes (a : Nat) (v : Word) (s : State) : (wr a v s).muxes = s.muxes := by rfl
@[simp] theorem wr_muxFrozen (a : Nat) (v : Word) (s : State) : (wr a v s).muxFrozen = s.muxFrozen := by rfl
@[simp] theorem wr_bcfg (a : Nat) (v : Word) (s : State) : (wr a v s).bcfg = s.bcfg := by rfl
@[simp] theorem wr_rackBoot (a : Nat) (v : Word) (s : State) : (wr a v s).rackBoot = s.rackBoot := by rfl
@[simp] theorem wr_badWords (a : Nat) (v : Word) (s : State) : (wr a v s).badWords = s.badWords := by rfl
@[simp] theorem wr_corrAt (a : Nat) (v : Word) (s : State) : (wr a v s).corrAt = s.corrAt := by rfl
@[simp] theorem wr_rootWords (a : Nat) (v : Word) (s : State) : (wr a v s).rootWords = s.rootWords := by rfl
@[simp] theorem wr_rootWord (a : Nat) (v : Word) (s : State) : (wr a v s).rootWord = s.rootWord := by rfl
@[simp] theorem wr_rootPending (a : Nat) (v : Word) (s : State) : (wr a v s).rootPending = s.rootPending := by rfl
@[simp] theorem wr_badCores (a : Nat) (v : Word) (s : State) : (wr a v s).badCores = s.badCores := by rfl
@[simp] theorem wr_spread (a : Nat) (v : Word) (s : State) : (wr a v s).spread = s.spread := by rfl
@[simp] theorem wr_lastClap (a : Nat) (v : Word) (s : State) : (wr a v s).lastClap = s.lastClap := by rfl
@[simp] theorem wr_doms (a : Nat) (v : Word) (s : State) : (wr a v s).doms = s.doms := by rfl
@[simp] theorem wr_dips (a : Nat) (v : Word) (s : State) : (wr a v s).dips = s.dips := by rfl
@[simp] theorem wr_plChanges (a : Nat) (v : Word) (s : State) : (wr a v s).plChanges = s.plChanges := by rfl
@[simp] theorem wr_discards (a : Nat) (v : Word) (s : State) : (wr a v s).discards = s.discards := by rfl
@[simp] theorem wr_temps (a : Nat) (v : Word) (s : State) : (wr a v s).temps = s.temps := by rfl
@[simp] theorem wr_mram (a : Nat) (v : Word) (s : State) : (wr a v s).mram = s.mram := by rfl
@[simp] theorem wr_sram (a : Nat) (v : Word) (s : State) : (wr a v s).sram = s.sram := by rfl
@[simp] theorem wr_utilDiscard (a : Nat) (v : Word) (s : State) : (wr a v s).utilDiscard = s.utilDiscard := by rfl
@[simp] theorem wr_links (a : Nat) (v : Word) (s : State) : (wr a v s).links = s.links := by rfl
@[simp] theorem wr_pairs (a : Nat) (v : Word) (s : State) : (wr a v s).pairs = s.pairs := by rfl
@[simp] theorem wr_ports (a : Nat) (v : Word) (s : State) : (wr a v s).ports = s.ports := by rfl
@[simp] theorem wr_tiles (a : Nat) (v : Word) (s : State) : (wr a v s).tiles = s.tiles := by rfl
@[simp] theorem wr_takes (a : Nat) (v : Word) (s : State) : (wr a v s).takes = s.takes := by rfl
@[simp] theorem wr_runs (a : Nat) (v : Word) (s : State) : (wr a v s).runs = s.runs := by rfl
@[simp] theorem wr_captures (a : Nat) (v : Word) (s : State) : (wr a v s).captures = s.captures := by rfl
@[simp] theorem wr_stalls (a : Nat) (v : Word) (s : State) : (wr a v s).stalls = s.stalls := by rfl
@[simp] theorem wr_areas (a : Nat) (v : Word) (s : State) : (wr a v s).areas = s.areas := by rfl
@[simp] theorem wr_work (a : Nat) (v : Word) (s : State) : (wr a v s).work = s.work := by rfl
@[simp] theorem wr_syns (a : Nat) (v : Word) (s : State) : (wr a v s).syns = s.syns := by rfl
@[simp] theorem wr_lanes (a : Nat) (v : Word) (s : State) : (wr a v s).lanes = s.lanes := by rfl
@[simp] theorem wr_contRecs (a : Nat) (v : Word) (s : State) : (wr a v s).contRecs = s.contRecs := by rfl
@[simp] theorem wr_contUse (a : Nat) (v : Word) (s : State) : (wr a v s).contUse = s.contUse := by rfl
@[simp] theorem wr_contDrop (a : Nat) (v : Word) (s : State) : (wr a v s).contDrop = s.contDrop := by rfl
@[simp] theorem wr_contEvict (a : Nat) (v : Word) (s : State) : (wr a v s).contEvict = s.contEvict := by rfl
@[simp] theorem wr_contBad (a : Nat) (v : Word) (s : State) : (wr a v s).contBad = s.contBad := by rfl
@[simp] theorem wr_contStale (a : Nat) (v : Word) (s : State) : (wr a v s).contStale = s.contStale := by rfl
@[simp] theorem wr_contDue (a : Nat) (v : Word) (s : State) : (wr a v s).contDue = s.contDue := by rfl
@[simp] theorem rdView_wr (a : Nat) (v : Word) (s : State) (vw : View) (j : Nat) : rdView (wr a v s) vw j = rdView s vw j := by rfl
@[simp] theorem linkOf_wr (a : Nat) (v : Word) (s : State) (j : Nat) : linkOf (wr a v s) j = linkOf s j := by rfl
@[simp] theorem pairOf_wr (a : Nat) (v : Word) (s : State) (j : Nat) : pairOf (wr a v s) j = pairOf s j := by rfl
@[simp] theorem portOf_wr (a : Nat) (v : Word) (s : State) (j : Nat) : portOf (wr a v s) j = portOf s j := by rfl
@[simp] theorem tileOf_wr (a : Nat) (v : Word) (s : State) (j : Nat) : tileOf (wr a v s) j = tileOf s j := by rfl
@[simp] theorem synOf_wr (a : Nat) (v : Word) (s : State) (j : Nat) : synOf (wr a v s) j = synOf s j := by rfl
@[simp] theorem laneOf_wr (a : Nat) (v : Word) (s : State) (j : Nat) : laneOf (wr a v s) j = laneOf s j := by rfl
@[simp] theorem domOf_wr (a : Nat) (v : Word) (s : State) (j : Nat) : domOf (wr a v s) j = domOf s j := by rfl
@[simp] theorem runsOf_wr (a : Nat) (v : Word) (s : State) (j : Nat) : runsOf (wr a v s) j = runsOf s j := by rfl
@[simp] theorem capsOf_wr (a : Nat) (v : Word) (s : State) (j : Nat) : capsOf (wr a v s) j = capsOf s j := by rfl
@[simp] theorem wrF_pending (a hi lo v : Nat) (s : State) : (wrF a hi lo v s).pending = s.pending := by rfl
@[simp] theorem wrF_mode (a hi lo v : Nat) (s : State) : (wrF a hi lo v s).mode = s.mode := by rfl
@[simp] theorem wrF_time (a hi lo v : Nat) (s : State) : (wrF a hi lo v s).time = s.time := by rfl
@[simp] theorem wrF_views (a hi lo v : Nat) (s : State) : (wrF a hi lo v s).views = s.views := by rfl
@[simp] theorem wrF_held (a hi lo v : Nat) (s : State) : (wrF a hi lo v s).held = s.held := by rfl
@[simp] theorem wrF_snapAt (a hi lo v : Nat) (s : State) : (wrF a hi lo v s).snapAt = s.snapAt := by rfl
@[simp] theorem wrF_snapOff (a hi lo v : Nat) (s : State) : (wrF a hi lo v s).snapOff = s.snapOff := by rfl
@[simp] theorem wrF_snapDone (a hi lo v : Nat) (s : State) : (wrF a hi lo v s).snapDone = s.snapDone := by rfl
@[simp] theorem wrF_perfWins (a hi lo v : Nat) (s : State) : (wrF a hi lo v s).perfWins = s.perfWins := by rfl
@[simp] theorem wrF_perfAcc (a hi lo v : Nat) (s : State) : (wrF a hi lo v s).perfAcc = s.perfAcc := by rfl
@[simp] theorem wrF_timeLatch (a hi lo v : Nat) (s : State) : (wrF a hi lo v s).timeLatch = s.timeLatch := by rfl
@[simp] theorem wrF_hostMem (a hi lo v : Nat) (s : State) : (wrF a hi lo v s).hostMem = s.hostMem := by rfl
@[simp] theorem wrF_out (a hi lo v : Nat) (s : State) : (wrF a hi lo v s).out = s.out := by rfl
@[simp] theorem wrF_fresh (a hi lo v : Nat) (s : State) : (wrF a hi lo v s).fresh = s.fresh := by rfl
@[simp] theorem wrF_cmd (a hi lo v : Nat) (s : State) : (wrF a hi lo v s).cmd = s.cmd := by rfl
@[simp] theorem wrF_evt (a hi lo v : Nat) (s : State) : (wrF a hi lo v s).evt = s.evt := by rfl
@[simp] theorem wrF_pcie (a hi lo v : Nat) (s : State) : (wrF a hi lo v s).pcie = s.pcie := by rfl
@[simp] theorem wrF_sp (a hi lo v : Nat) (s : State) : (wrF a hi lo v s).sp = s.sp := by rfl
@[simp] theorem wrF_fw (a hi lo v : Nat) (s : State) : (wrF a hi lo v s).fw = s.fw := by rfl
@[simp] theorem wrF_offPending (a hi lo v : Nat) (s : State) : (wrF a hi lo v s).offPending = s.offPending := by rfl
@[simp] theorem wrF_hops (a hi lo v : Nat) (s : State) : (wrF a hi lo v s).hops = s.hops := by rfl
@[simp] theorem wrF_pulse (a hi lo v : Nat) (s : State) : (wrF a hi lo v s).pulse = s.pulse := by rfl
@[simp] theorem wrF_chain (a hi lo v : Nat) (s : State) : (wrF a hi lo v s).chain = s.chain := by rfl
@[simp] theorem wrF_muxes (a hi lo v : Nat) (s : State) : (wrF a hi lo v s).muxes = s.muxes := by rfl
@[simp] theorem wrF_muxFrozen (a hi lo v : Nat) (s : State) : (wrF a hi lo v s).muxFrozen = s.muxFrozen := by rfl
@[simp] theorem wrF_bcfg (a hi lo v : Nat) (s : State) : (wrF a hi lo v s).bcfg = s.bcfg := by rfl
@[simp] theorem wrF_rackBoot (a hi lo v : Nat) (s : State) : (wrF a hi lo v s).rackBoot = s.rackBoot := by rfl
@[simp] theorem wrF_badWords (a hi lo v : Nat) (s : State) : (wrF a hi lo v s).badWords = s.badWords := by rfl
@[simp] theorem wrF_corrAt (a hi lo v : Nat) (s : State) : (wrF a hi lo v s).corrAt = s.corrAt := by rfl
@[simp] theorem wrF_rootWords (a hi lo v : Nat) (s : State) : (wrF a hi lo v s).rootWords = s.rootWords := by rfl
@[simp] theorem wrF_rootWord (a hi lo v : Nat) (s : State) : (wrF a hi lo v s).rootWord = s.rootWord := by rfl
@[simp] theorem wrF_rootPending (a hi lo v : Nat) (s : State) : (wrF a hi lo v s).rootPending = s.rootPending := by rfl
@[simp] theorem wrF_badCores (a hi lo v : Nat) (s : State) : (wrF a hi lo v s).badCores = s.badCores := by rfl
@[simp] theorem wrF_spread (a hi lo v : Nat) (s : State) : (wrF a hi lo v s).spread = s.spread := by rfl
@[simp] theorem wrF_lastClap (a hi lo v : Nat) (s : State) : (wrF a hi lo v s).lastClap = s.lastClap := by rfl
@[simp] theorem wrF_doms (a hi lo v : Nat) (s : State) : (wrF a hi lo v s).doms = s.doms := by rfl
@[simp] theorem wrF_dips (a hi lo v : Nat) (s : State) : (wrF a hi lo v s).dips = s.dips := by rfl
@[simp] theorem wrF_plChanges (a hi lo v : Nat) (s : State) : (wrF a hi lo v s).plChanges = s.plChanges := by rfl
@[simp] theorem wrF_discards (a hi lo v : Nat) (s : State) : (wrF a hi lo v s).discards = s.discards := by rfl
@[simp] theorem wrF_temps (a hi lo v : Nat) (s : State) : (wrF a hi lo v s).temps = s.temps := by rfl
@[simp] theorem wrF_mram (a hi lo v : Nat) (s : State) : (wrF a hi lo v s).mram = s.mram := by rfl
@[simp] theorem wrF_sram (a hi lo v : Nat) (s : State) : (wrF a hi lo v s).sram = s.sram := by rfl
@[simp] theorem wrF_utilDiscard (a hi lo v : Nat) (s : State) : (wrF a hi lo v s).utilDiscard = s.utilDiscard := by rfl
@[simp] theorem wrF_links (a hi lo v : Nat) (s : State) : (wrF a hi lo v s).links = s.links := by rfl
@[simp] theorem wrF_pairs (a hi lo v : Nat) (s : State) : (wrF a hi lo v s).pairs = s.pairs := by rfl
@[simp] theorem wrF_ports (a hi lo v : Nat) (s : State) : (wrF a hi lo v s).ports = s.ports := by rfl
@[simp] theorem wrF_tiles (a hi lo v : Nat) (s : State) : (wrF a hi lo v s).tiles = s.tiles := by rfl
@[simp] theorem wrF_takes (a hi lo v : Nat) (s : State) : (wrF a hi lo v s).takes = s.takes := by rfl
@[simp] theorem wrF_runs (a hi lo v : Nat) (s : State) : (wrF a hi lo v s).runs = s.runs := by rfl
@[simp] theorem wrF_captures (a hi lo v : Nat) (s : State) : (wrF a hi lo v s).captures = s.captures := by rfl
@[simp] theorem wrF_stalls (a hi lo v : Nat) (s : State) : (wrF a hi lo v s).stalls = s.stalls := by rfl
@[simp] theorem wrF_areas (a hi lo v : Nat) (s : State) : (wrF a hi lo v s).areas = s.areas := by rfl
@[simp] theorem wrF_work (a hi lo v : Nat) (s : State) : (wrF a hi lo v s).work = s.work := by rfl
@[simp] theorem wrF_syns (a hi lo v : Nat) (s : State) : (wrF a hi lo v s).syns = s.syns := by rfl
@[simp] theorem wrF_lanes (a hi lo v : Nat) (s : State) : (wrF a hi lo v s).lanes = s.lanes := by rfl
@[simp] theorem wrF_contRecs (a hi lo v : Nat) (s : State) : (wrF a hi lo v s).contRecs = s.contRecs := by rfl
@[simp] theorem wrF_contUse (a hi lo v : Nat) (s : State) : (wrF a hi lo v s).contUse = s.contUse := by rfl
@[simp] theorem wrF_contDrop (a hi lo v : Nat) (s : State) : (wrF a hi lo v s).contDrop = s.contDrop := by rfl
@[simp] theorem wrF_contEvict (a hi lo v : Nat) (s : State) : (wrF a hi lo v s).contEvict = s.contEvict := by rfl
@[simp] theorem wrF_contBad (a hi lo v : Nat) (s : State) : (wrF a hi lo v s).contBad = s.contBad := by rfl
@[simp] theorem wrF_contStale (a hi lo v : Nat) (s : State) : (wrF a hi lo v s).contStale = s.contStale := by rfl
@[simp] theorem wrF_contDue (a hi lo v : Nat) (s : State) : (wrF a hi lo v s).contDue = s.contDue := by rfl
@[simp] theorem rdView_wrF (a hi lo v : Nat) (s : State) (vw : View) (j : Nat) : rdView (wrF a hi lo v s) vw j = rdView s vw j := by rfl
@[simp] theorem linkOf_wrF (a hi lo v : Nat) (s : State) (j : Nat) : linkOf (wrF a hi lo v s) j = linkOf s j := by rfl
@[simp] theorem pairOf_wrF (a hi lo v : Nat) (s : State) (j : Nat) : pairOf (wrF a hi lo v s) j = pairOf s j := by rfl
@[simp] theorem portOf_wrF (a hi lo v : Nat) (s : State) (j : Nat) : portOf (wrF a hi lo v s) j = portOf s j := by rfl
@[simp] theorem tileOf_wrF (a hi lo v : Nat) (s : State) (j : Nat) : tileOf (wrF a hi lo v s) j = tileOf s j := by rfl
@[simp] theorem synOf_wrF (a hi lo v : Nat) (s : State) (j : Nat) : synOf (wrF a hi lo v s) j = synOf s j := by rfl
@[simp] theorem laneOf_wrF (a hi lo v : Nat) (s : State) (j : Nat) : laneOf (wrF a hi lo v s) j = laneOf s j := by rfl
@[simp] theorem domOf_wrF (a hi lo v : Nat) (s : State) (j : Nat) : domOf (wrF a hi lo v s) j = domOf s j := by rfl
@[simp] theorem runsOf_wrF (a hi lo v : Nat) (s : State) (j : Nat) : runsOf (wrF a hi lo v s) j = runsOf s j := by rfl
@[simp] theorem capsOf_wrF (a hi lo v : Nat) (s : State) (j : Nat) : capsOf (wrF a hi lo v s) j = capsOf s j := by rfl
@[simp] theorem wrB_pending (a i : Nat) (b : Bool) (s : State) : (wrB a i b s).pending = s.pending := by rfl
@[simp] theorem wrB_mode (a i : Nat) (b : Bool) (s : State) : (wrB a i b s).mode = s.mode := by rfl
@[simp] theorem wrB_time (a i : Nat) (b : Bool) (s : State) : (wrB a i b s).time = s.time := by rfl
@[simp] theorem wrB_views (a i : Nat) (b : Bool) (s : State) : (wrB a i b s).views = s.views := by rfl
@[simp] theorem wrB_held (a i : Nat) (b : Bool) (s : State) : (wrB a i b s).held = s.held := by rfl
@[simp] theorem wrB_snapAt (a i : Nat) (b : Bool) (s : State) : (wrB a i b s).snapAt = s.snapAt := by rfl
@[simp] theorem wrB_snapOff (a i : Nat) (b : Bool) (s : State) : (wrB a i b s).snapOff = s.snapOff := by rfl
@[simp] theorem wrB_snapDone (a i : Nat) (b : Bool) (s : State) : (wrB a i b s).snapDone = s.snapDone := by rfl
@[simp] theorem wrB_perfWins (a i : Nat) (b : Bool) (s : State) : (wrB a i b s).perfWins = s.perfWins := by rfl
@[simp] theorem wrB_perfAcc (a i : Nat) (b : Bool) (s : State) : (wrB a i b s).perfAcc = s.perfAcc := by rfl
@[simp] theorem wrB_timeLatch (a i : Nat) (b : Bool) (s : State) : (wrB a i b s).timeLatch = s.timeLatch := by rfl
@[simp] theorem wrB_hostMem (a i : Nat) (b : Bool) (s : State) : (wrB a i b s).hostMem = s.hostMem := by rfl
@[simp] theorem wrB_out (a i : Nat) (b : Bool) (s : State) : (wrB a i b s).out = s.out := by rfl
@[simp] theorem wrB_fresh (a i : Nat) (b : Bool) (s : State) : (wrB a i b s).fresh = s.fresh := by rfl
@[simp] theorem wrB_cmd (a i : Nat) (b : Bool) (s : State) : (wrB a i b s).cmd = s.cmd := by rfl
@[simp] theorem wrB_evt (a i : Nat) (b : Bool) (s : State) : (wrB a i b s).evt = s.evt := by rfl
@[simp] theorem wrB_pcie (a i : Nat) (b : Bool) (s : State) : (wrB a i b s).pcie = s.pcie := by rfl
@[simp] theorem wrB_sp (a i : Nat) (b : Bool) (s : State) : (wrB a i b s).sp = s.sp := by rfl
@[simp] theorem wrB_fw (a i : Nat) (b : Bool) (s : State) : (wrB a i b s).fw = s.fw := by rfl
@[simp] theorem wrB_offPending (a i : Nat) (b : Bool) (s : State) : (wrB a i b s).offPending = s.offPending := by rfl
@[simp] theorem wrB_hops (a i : Nat) (b : Bool) (s : State) : (wrB a i b s).hops = s.hops := by rfl
@[simp] theorem wrB_pulse (a i : Nat) (b : Bool) (s : State) : (wrB a i b s).pulse = s.pulse := by rfl
@[simp] theorem wrB_chain (a i : Nat) (b : Bool) (s : State) : (wrB a i b s).chain = s.chain := by rfl
@[simp] theorem wrB_muxes (a i : Nat) (b : Bool) (s : State) : (wrB a i b s).muxes = s.muxes := by rfl
@[simp] theorem wrB_muxFrozen (a i : Nat) (b : Bool) (s : State) : (wrB a i b s).muxFrozen = s.muxFrozen := by rfl
@[simp] theorem wrB_bcfg (a i : Nat) (b : Bool) (s : State) : (wrB a i b s).bcfg = s.bcfg := by rfl
@[simp] theorem wrB_rackBoot (a i : Nat) (b : Bool) (s : State) : (wrB a i b s).rackBoot = s.rackBoot := by rfl
@[simp] theorem wrB_badWords (a i : Nat) (b : Bool) (s : State) : (wrB a i b s).badWords = s.badWords := by rfl
@[simp] theorem wrB_corrAt (a i : Nat) (b : Bool) (s : State) : (wrB a i b s).corrAt = s.corrAt := by rfl
@[simp] theorem wrB_rootWords (a i : Nat) (b : Bool) (s : State) : (wrB a i b s).rootWords = s.rootWords := by rfl
@[simp] theorem wrB_rootWord (a i : Nat) (b : Bool) (s : State) : (wrB a i b s).rootWord = s.rootWord := by rfl
@[simp] theorem wrB_rootPending (a i : Nat) (b : Bool) (s : State) : (wrB a i b s).rootPending = s.rootPending := by rfl
@[simp] theorem wrB_badCores (a i : Nat) (b : Bool) (s : State) : (wrB a i b s).badCores = s.badCores := by rfl
@[simp] theorem wrB_spread (a i : Nat) (b : Bool) (s : State) : (wrB a i b s).spread = s.spread := by rfl
@[simp] theorem wrB_lastClap (a i : Nat) (b : Bool) (s : State) : (wrB a i b s).lastClap = s.lastClap := by rfl
@[simp] theorem wrB_doms (a i : Nat) (b : Bool) (s : State) : (wrB a i b s).doms = s.doms := by rfl
@[simp] theorem wrB_dips (a i : Nat) (b : Bool) (s : State) : (wrB a i b s).dips = s.dips := by rfl
@[simp] theorem wrB_plChanges (a i : Nat) (b : Bool) (s : State) : (wrB a i b s).plChanges = s.plChanges := by rfl
@[simp] theorem wrB_discards (a i : Nat) (b : Bool) (s : State) : (wrB a i b s).discards = s.discards := by rfl
@[simp] theorem wrB_temps (a i : Nat) (b : Bool) (s : State) : (wrB a i b s).temps = s.temps := by rfl
@[simp] theorem wrB_mram (a i : Nat) (b : Bool) (s : State) : (wrB a i b s).mram = s.mram := by rfl
@[simp] theorem wrB_sram (a i : Nat) (b : Bool) (s : State) : (wrB a i b s).sram = s.sram := by rfl
@[simp] theorem wrB_utilDiscard (a i : Nat) (b : Bool) (s : State) : (wrB a i b s).utilDiscard = s.utilDiscard := by rfl
@[simp] theorem wrB_links (a i : Nat) (b : Bool) (s : State) : (wrB a i b s).links = s.links := by rfl
@[simp] theorem wrB_pairs (a i : Nat) (b : Bool) (s : State) : (wrB a i b s).pairs = s.pairs := by rfl
@[simp] theorem wrB_ports (a i : Nat) (b : Bool) (s : State) : (wrB a i b s).ports = s.ports := by rfl
@[simp] theorem wrB_tiles (a i : Nat) (b : Bool) (s : State) : (wrB a i b s).tiles = s.tiles := by rfl
@[simp] theorem wrB_takes (a i : Nat) (b : Bool) (s : State) : (wrB a i b s).takes = s.takes := by rfl
@[simp] theorem wrB_runs (a i : Nat) (b : Bool) (s : State) : (wrB a i b s).runs = s.runs := by rfl
@[simp] theorem wrB_captures (a i : Nat) (b : Bool) (s : State) : (wrB a i b s).captures = s.captures := by rfl
@[simp] theorem wrB_stalls (a i : Nat) (b : Bool) (s : State) : (wrB a i b s).stalls = s.stalls := by rfl
@[simp] theorem wrB_areas (a i : Nat) (b : Bool) (s : State) : (wrB a i b s).areas = s.areas := by rfl
@[simp] theorem wrB_work (a i : Nat) (b : Bool) (s : State) : (wrB a i b s).work = s.work := by rfl
@[simp] theorem wrB_syns (a i : Nat) (b : Bool) (s : State) : (wrB a i b s).syns = s.syns := by rfl
@[simp] theorem wrB_lanes (a i : Nat) (b : Bool) (s : State) : (wrB a i b s).lanes = s.lanes := by rfl
@[simp] theorem wrB_contRecs (a i : Nat) (b : Bool) (s : State) : (wrB a i b s).contRecs = s.contRecs := by rfl
@[simp] theorem wrB_contUse (a i : Nat) (b : Bool) (s : State) : (wrB a i b s).contUse = s.contUse := by rfl
@[simp] theorem wrB_contDrop (a i : Nat) (b : Bool) (s : State) : (wrB a i b s).contDrop = s.contDrop := by rfl
@[simp] theorem wrB_contEvict (a i : Nat) (b : Bool) (s : State) : (wrB a i b s).contEvict = s.contEvict := by rfl
@[simp] theorem wrB_contBad (a i : Nat) (b : Bool) (s : State) : (wrB a i b s).contBad = s.contBad := by rfl
@[simp] theorem wrB_contStale (a i : Nat) (b : Bool) (s : State) : (wrB a i b s).contStale = s.contStale := by rfl
@[simp] theorem wrB_contDue (a i : Nat) (b : Bool) (s : State) : (wrB a i b s).contDue = s.contDue := by rfl
@[simp] theorem rdView_wrB (a i : Nat) (b : Bool) (s : State) (vw : View) (j : Nat) : rdView (wrB a i b s) vw j = rdView s vw j := by rfl
@[simp] theorem linkOf_wrB (a i : Nat) (b : Bool) (s : State) (j : Nat) : linkOf (wrB a i b s) j = linkOf s j := by rfl
@[simp] theorem pairOf_wrB (a i : Nat) (b : Bool) (s : State) (j : Nat) : pairOf (wrB a i b s) j = pairOf s j := by rfl
@[simp] theorem portOf_wrB (a i : Nat) (b : Bool) (s : State) (j : Nat) : portOf (wrB a i b s) j = portOf s j := by rfl
@[simp] theorem tileOf_wrB (a i : Nat) (b : Bool) (s : State) (j : Nat) : tileOf (wrB a i b s) j = tileOf s j := by rfl
@[simp] theorem synOf_wrB (a i : Nat) (b : Bool) (s : State) (j : Nat) : synOf (wrB a i b s) j = synOf s j := by rfl
@[simp] theorem laneOf_wrB (a i : Nat) (b : Bool) (s : State) (j : Nat) : laneOf (wrB a i b s) j = laneOf s j := by rfl
@[simp] theorem domOf_wrB (a i : Nat) (b : Bool) (s : State) (j : Nat) : domOf (wrB a i b s) j = domOf s j := by rfl
@[simp] theorem runsOf_wrB (a i : Nat) (b : Bool) (s : State) (j : Nat) : runsOf (wrB a i b s) j = runsOf s j := by rfl
@[simp] theorem capsOf_wrB (a i : Nat) (b : Bool) (s : State) (j : Nat) : capsOf (wrB a i b s) j = capsOf s j := by rfl
@[simp] theorem count_pending (a n : Nat) (s : State) : (count a n s).pending = s.pending := by rfl
@[simp] theorem count_mode (a n : Nat) (s : State) : (count a n s).mode = s.mode := by rfl
@[simp] theorem count_time (a n : Nat) (s : State) : (count a n s).time = s.time := by rfl
@[simp] theorem count_views (a n : Nat) (s : State) : (count a n s).views = s.views := by rfl
@[simp] theorem count_held (a n : Nat) (s : State) : (count a n s).held = s.held := by rfl
@[simp] theorem count_snapAt (a n : Nat) (s : State) : (count a n s).snapAt = s.snapAt := by rfl
@[simp] theorem count_snapOff (a n : Nat) (s : State) : (count a n s).snapOff = s.snapOff := by rfl
@[simp] theorem count_snapDone (a n : Nat) (s : State) : (count a n s).snapDone = s.snapDone := by rfl
@[simp] theorem count_perfWins (a n : Nat) (s : State) : (count a n s).perfWins = s.perfWins := by rfl
@[simp] theorem count_perfAcc (a n : Nat) (s : State) : (count a n s).perfAcc = s.perfAcc := by rfl
@[simp] theorem count_timeLatch (a n : Nat) (s : State) : (count a n s).timeLatch = s.timeLatch := by rfl
@[simp] theorem count_hostMem (a n : Nat) (s : State) : (count a n s).hostMem = s.hostMem := by rfl
@[simp] theorem count_out (a n : Nat) (s : State) : (count a n s).out = s.out := by rfl
@[simp] theorem count_fresh (a n : Nat) (s : State) : (count a n s).fresh = s.fresh := by rfl
@[simp] theorem count_cmd (a n : Nat) (s : State) : (count a n s).cmd = s.cmd := by rfl
@[simp] theorem count_evt (a n : Nat) (s : State) : (count a n s).evt = s.evt := by rfl
@[simp] theorem count_pcie (a n : Nat) (s : State) : (count a n s).pcie = s.pcie := by rfl
@[simp] theorem count_sp (a n : Nat) (s : State) : (count a n s).sp = s.sp := by rfl
@[simp] theorem count_fw (a n : Nat) (s : State) : (count a n s).fw = s.fw := by rfl
@[simp] theorem count_offPending (a n : Nat) (s : State) : (count a n s).offPending = s.offPending := by rfl
@[simp] theorem count_hops (a n : Nat) (s : State) : (count a n s).hops = s.hops := by rfl
@[simp] theorem count_pulse (a n : Nat) (s : State) : (count a n s).pulse = s.pulse := by rfl
@[simp] theorem count_chain (a n : Nat) (s : State) : (count a n s).chain = s.chain := by rfl
@[simp] theorem count_muxes (a n : Nat) (s : State) : (count a n s).muxes = s.muxes := by rfl
@[simp] theorem count_muxFrozen (a n : Nat) (s : State) : (count a n s).muxFrozen = s.muxFrozen := by rfl
@[simp] theorem count_bcfg (a n : Nat) (s : State) : (count a n s).bcfg = s.bcfg := by rfl
@[simp] theorem count_rackBoot (a n : Nat) (s : State) : (count a n s).rackBoot = s.rackBoot := by rfl
@[simp] theorem count_badWords (a n : Nat) (s : State) : (count a n s).badWords = s.badWords := by rfl
@[simp] theorem count_corrAt (a n : Nat) (s : State) : (count a n s).corrAt = s.corrAt := by rfl
@[simp] theorem count_rootWords (a n : Nat) (s : State) : (count a n s).rootWords = s.rootWords := by rfl
@[simp] theorem count_rootWord (a n : Nat) (s : State) : (count a n s).rootWord = s.rootWord := by rfl
@[simp] theorem count_rootPending (a n : Nat) (s : State) : (count a n s).rootPending = s.rootPending := by rfl
@[simp] theorem count_badCores (a n : Nat) (s : State) : (count a n s).badCores = s.badCores := by rfl
@[simp] theorem count_spread (a n : Nat) (s : State) : (count a n s).spread = s.spread := by rfl
@[simp] theorem count_lastClap (a n : Nat) (s : State) : (count a n s).lastClap = s.lastClap := by rfl
@[simp] theorem count_doms (a n : Nat) (s : State) : (count a n s).doms = s.doms := by rfl
@[simp] theorem count_dips (a n : Nat) (s : State) : (count a n s).dips = s.dips := by rfl
@[simp] theorem count_plChanges (a n : Nat) (s : State) : (count a n s).plChanges = s.plChanges := by rfl
@[simp] theorem count_discards (a n : Nat) (s : State) : (count a n s).discards = s.discards := by rfl
@[simp] theorem count_temps (a n : Nat) (s : State) : (count a n s).temps = s.temps := by rfl
@[simp] theorem count_mram (a n : Nat) (s : State) : (count a n s).mram = s.mram := by rfl
@[simp] theorem count_sram (a n : Nat) (s : State) : (count a n s).sram = s.sram := by rfl
@[simp] theorem count_utilDiscard (a n : Nat) (s : State) : (count a n s).utilDiscard = s.utilDiscard := by rfl
@[simp] theorem count_links (a n : Nat) (s : State) : (count a n s).links = s.links := by rfl
@[simp] theorem count_pairs (a n : Nat) (s : State) : (count a n s).pairs = s.pairs := by rfl
@[simp] theorem count_ports (a n : Nat) (s : State) : (count a n s).ports = s.ports := by rfl
@[simp] theorem count_tiles (a n : Nat) (s : State) : (count a n s).tiles = s.tiles := by rfl
@[simp] theorem count_takes (a n : Nat) (s : State) : (count a n s).takes = s.takes := by rfl
@[simp] theorem count_runs (a n : Nat) (s : State) : (count a n s).runs = s.runs := by rfl
@[simp] theorem count_captures (a n : Nat) (s : State) : (count a n s).captures = s.captures := by rfl
@[simp] theorem count_stalls (a n : Nat) (s : State) : (count a n s).stalls = s.stalls := by rfl
@[simp] theorem count_areas (a n : Nat) (s : State) : (count a n s).areas = s.areas := by rfl
@[simp] theorem count_work (a n : Nat) (s : State) : (count a n s).work = s.work := by rfl
@[simp] theorem count_syns (a n : Nat) (s : State) : (count a n s).syns = s.syns := by rfl
@[simp] theorem count_lanes (a n : Nat) (s : State) : (count a n s).lanes = s.lanes := by rfl
@[simp] theorem count_contRecs (a n : Nat) (s : State) : (count a n s).contRecs = s.contRecs := by rfl
@[simp] theorem count_contUse (a n : Nat) (s : State) : (count a n s).contUse = s.contUse := by rfl
@[simp] theorem count_contDrop (a n : Nat) (s : State) : (count a n s).contDrop = s.contDrop := by rfl
@[simp] theorem count_contEvict (a n : Nat) (s : State) : (count a n s).contEvict = s.contEvict := by rfl
@[simp] theorem count_contBad (a n : Nat) (s : State) : (count a n s).contBad = s.contBad := by rfl
@[simp] theorem count_contStale (a n : Nat) (s : State) : (count a n s).contStale = s.contStale := by rfl
@[simp] theorem count_contDue (a n : Nat) (s : State) : (count a n s).contDue = s.contDue := by rfl
@[simp] theorem rdView_count (a n : Nat) (s : State) (vw : View) (j : Nat) : rdView (count a n s) vw j = rdView s vw j := by rfl
@[simp] theorem linkOf_count (a n : Nat) (s : State) (j : Nat) : linkOf (count a n s) j = linkOf s j := by rfl
@[simp] theorem pairOf_count (a n : Nat) (s : State) (j : Nat) : pairOf (count a n s) j = pairOf s j := by rfl
@[simp] theorem portOf_count (a n : Nat) (s : State) (j : Nat) : portOf (count a n s) j = portOf s j := by rfl
@[simp] theorem tileOf_count (a n : Nat) (s : State) (j : Nat) : tileOf (count a n s) j = tileOf s j := by rfl
@[simp] theorem synOf_count (a n : Nat) (s : State) (j : Nat) : synOf (count a n s) j = synOf s j := by rfl
@[simp] theorem laneOf_count (a n : Nat) (s : State) (j : Nat) : laneOf (count a n s) j = laneOf s j := by rfl
@[simp] theorem domOf_count (a n : Nat) (s : State) (j : Nat) : domOf (count a n s) j = domOf s j := by rfl
@[simp] theorem runsOf_count (a n : Nat) (s : State) (j : Nat) : runsOf (count a n s) j = runsOf s j := by rfl
@[simp] theorem capsOf_count (a n : Nat) (s : State) (j : Nat) : capsOf (count a n s) j = capsOf s j := by rfl
@[simp] theorem wrView_pending (v : View) (a : Nat) (x : Word) (s : State) : (wrView v a x s).pending = s.pending := by rfl
@[simp] theorem wrView_mode (v : View) (a : Nat) (x : Word) (s : State) : (wrView v a x s).mode = s.mode := by rfl
@[simp] theorem wrView_time (v : View) (a : Nat) (x : Word) (s : State) : (wrView v a x s).time = s.time := by rfl
@[simp] theorem wrView_regs (v : View) (a : Nat) (x : Word) (s : State) : (wrView v a x s).regs = s.regs := by rfl
@[simp] theorem wrView_held (v : View) (a : Nat) (x : Word) (s : State) : (wrView v a x s).held = s.held := by rfl
@[simp] theorem wrView_snapAt (v : View) (a : Nat) (x : Word) (s : State) : (wrView v a x s).snapAt = s.snapAt := by rfl
@[simp] theorem wrView_snapOff (v : View) (a : Nat) (x : Word) (s : State) : (wrView v a x s).snapOff = s.snapOff := by rfl
@[simp] theorem wrView_snapDone (v : View) (a : Nat) (x : Word) (s : State) : (wrView v a x s).snapDone = s.snapDone := by rfl
@[simp] theorem wrView_perfWins (v : View) (a : Nat) (x : Word) (s : State) : (wrView v a x s).perfWins = s.perfWins := by rfl
@[simp] theorem wrView_perfAcc (v : View) (a : Nat) (x : Word) (s : State) : (wrView v a x s).perfAcc = s.perfAcc := by rfl
@[simp] theorem wrView_timeLatch (v : View) (a : Nat) (x : Word) (s : State) : (wrView v a x s).timeLatch = s.timeLatch := by rfl
@[simp] theorem wrView_hostMem (v : View) (a : Nat) (x : Word) (s : State) : (wrView v a x s).hostMem = s.hostMem := by rfl
@[simp] theorem wrView_out (v : View) (a : Nat) (x : Word) (s : State) : (wrView v a x s).out = s.out := by rfl
@[simp] theorem wrView_fresh (v : View) (a : Nat) (x : Word) (s : State) : (wrView v a x s).fresh = s.fresh := by rfl
@[simp] theorem wrView_cmd (v : View) (a : Nat) (x : Word) (s : State) : (wrView v a x s).cmd = s.cmd := by rfl
@[simp] theorem wrView_evt (v : View) (a : Nat) (x : Word) (s : State) : (wrView v a x s).evt = s.evt := by rfl
@[simp] theorem wrView_pcie (v : View) (a : Nat) (x : Word) (s : State) : (wrView v a x s).pcie = s.pcie := by rfl
@[simp] theorem wrView_sp (v : View) (a : Nat) (x : Word) (s : State) : (wrView v a x s).sp = s.sp := by rfl
@[simp] theorem wrView_fw (v : View) (a : Nat) (x : Word) (s : State) : (wrView v a x s).fw = s.fw := by rfl
@[simp] theorem wrView_offPending (v : View) (a : Nat) (x : Word) (s : State) : (wrView v a x s).offPending = s.offPending := by rfl
@[simp] theorem wrView_hops (v : View) (a : Nat) (x : Word) (s : State) : (wrView v a x s).hops = s.hops := by rfl
@[simp] theorem wrView_pulse (v : View) (a : Nat) (x : Word) (s : State) : (wrView v a x s).pulse = s.pulse := by rfl
@[simp] theorem wrView_chain (v : View) (a : Nat) (x : Word) (s : State) : (wrView v a x s).chain = s.chain := by rfl
@[simp] theorem wrView_muxes (v : View) (a : Nat) (x : Word) (s : State) : (wrView v a x s).muxes = s.muxes := by rfl
@[simp] theorem wrView_muxFrozen (v : View) (a : Nat) (x : Word) (s : State) : (wrView v a x s).muxFrozen = s.muxFrozen := by rfl
@[simp] theorem wrView_bcfg (v : View) (a : Nat) (x : Word) (s : State) : (wrView v a x s).bcfg = s.bcfg := by rfl
@[simp] theorem wrView_rackBoot (v : View) (a : Nat) (x : Word) (s : State) : (wrView v a x s).rackBoot = s.rackBoot := by rfl
@[simp] theorem wrView_badWords (v : View) (a : Nat) (x : Word) (s : State) : (wrView v a x s).badWords = s.badWords := by rfl
@[simp] theorem wrView_corrAt (v : View) (a : Nat) (x : Word) (s : State) : (wrView v a x s).corrAt = s.corrAt := by rfl
@[simp] theorem wrView_rootWords (v : View) (a : Nat) (x : Word) (s : State) : (wrView v a x s).rootWords = s.rootWords := by rfl
@[simp] theorem wrView_rootWord (v : View) (a : Nat) (x : Word) (s : State) : (wrView v a x s).rootWord = s.rootWord := by rfl
@[simp] theorem wrView_rootPending (v : View) (a : Nat) (x : Word) (s : State) : (wrView v a x s).rootPending = s.rootPending := by rfl
@[simp] theorem wrView_badCores (v : View) (a : Nat) (x : Word) (s : State) : (wrView v a x s).badCores = s.badCores := by rfl
@[simp] theorem wrView_spread (v : View) (a : Nat) (x : Word) (s : State) : (wrView v a x s).spread = s.spread := by rfl
@[simp] theorem wrView_lastClap (v : View) (a : Nat) (x : Word) (s : State) : (wrView v a x s).lastClap = s.lastClap := by rfl
@[simp] theorem wrView_doms (v : View) (a : Nat) (x : Word) (s : State) : (wrView v a x s).doms = s.doms := by rfl
@[simp] theorem wrView_dips (v : View) (a : Nat) (x : Word) (s : State) : (wrView v a x s).dips = s.dips := by rfl
@[simp] theorem wrView_plChanges (v : View) (a : Nat) (x : Word) (s : State) : (wrView v a x s).plChanges = s.plChanges := by rfl
@[simp] theorem wrView_discards (v : View) (a : Nat) (x : Word) (s : State) : (wrView v a x s).discards = s.discards := by rfl
@[simp] theorem wrView_temps (v : View) (a : Nat) (x : Word) (s : State) : (wrView v a x s).temps = s.temps := by rfl
@[simp] theorem wrView_mram (v : View) (a : Nat) (x : Word) (s : State) : (wrView v a x s).mram = s.mram := by rfl
@[simp] theorem wrView_sram (v : View) (a : Nat) (x : Word) (s : State) : (wrView v a x s).sram = s.sram := by rfl
@[simp] theorem wrView_utilDiscard (v : View) (a : Nat) (x : Word) (s : State) : (wrView v a x s).utilDiscard = s.utilDiscard := by rfl
@[simp] theorem wrView_links (v : View) (a : Nat) (x : Word) (s : State) : (wrView v a x s).links = s.links := by rfl
@[simp] theorem wrView_pairs (v : View) (a : Nat) (x : Word) (s : State) : (wrView v a x s).pairs = s.pairs := by rfl
@[simp] theorem wrView_ports (v : View) (a : Nat) (x : Word) (s : State) : (wrView v a x s).ports = s.ports := by rfl
@[simp] theorem wrView_tiles (v : View) (a : Nat) (x : Word) (s : State) : (wrView v a x s).tiles = s.tiles := by rfl
@[simp] theorem wrView_takes (v : View) (a : Nat) (x : Word) (s : State) : (wrView v a x s).takes = s.takes := by rfl
@[simp] theorem wrView_runs (v : View) (a : Nat) (x : Word) (s : State) : (wrView v a x s).runs = s.runs := by rfl
@[simp] theorem wrView_captures (v : View) (a : Nat) (x : Word) (s : State) : (wrView v a x s).captures = s.captures := by rfl
@[simp] theorem wrView_stalls (v : View) (a : Nat) (x : Word) (s : State) : (wrView v a x s).stalls = s.stalls := by rfl
@[simp] theorem wrView_areas (v : View) (a : Nat) (x : Word) (s : State) : (wrView v a x s).areas = s.areas := by rfl
@[simp] theorem wrView_work (v : View) (a : Nat) (x : Word) (s : State) : (wrView v a x s).work = s.work := by rfl
@[simp] theorem wrView_syns (v : View) (a : Nat) (x : Word) (s : State) : (wrView v a x s).syns = s.syns := by rfl
@[simp] theorem wrView_lanes (v : View) (a : Nat) (x : Word) (s : State) : (wrView v a x s).lanes = s.lanes := by rfl
@[simp] theorem wrView_contRecs (v : View) (a : Nat) (x : Word) (s : State) : (wrView v a x s).contRecs = s.contRecs := by rfl
@[simp] theorem wrView_contUse (v : View) (a : Nat) (x : Word) (s : State) : (wrView v a x s).contUse = s.contUse := by rfl
@[simp] theorem wrView_contDrop (v : View) (a : Nat) (x : Word) (s : State) : (wrView v a x s).contDrop = s.contDrop := by rfl
@[simp] theorem wrView_contEvict (v : View) (a : Nat) (x : Word) (s : State) : (wrView v a x s).contEvict = s.contEvict := by rfl
@[simp] theorem wrView_contBad (v : View) (a : Nat) (x : Word) (s : State) : (wrView v a x s).contBad = s.contBad := by rfl
@[simp] theorem wrView_contStale (v : View) (a : Nat) (x : Word) (s : State) : (wrView v a x s).contStale = s.contStale := by rfl
@[simp] theorem wrView_contDue (v : View) (a : Nat) (x : Word) (s : State) : (wrView v a x s).contDue = s.contDue := by rfl
@[simp] theorem rd_wrView (v : View) (a : Nat) (x : Word) (s : State) (j : Nat) : rd (wrView v a x s) j = rd s j := by rfl
@[simp] theorem linkOf_wrView (v : View) (a : Nat) (x : Word) (s : State) (j : Nat) : linkOf (wrView v a x s) j = linkOf s j := by rfl
@[simp] theorem pairOf_wrView (v : View) (a : Nat) (x : Word) (s : State) (j : Nat) : pairOf (wrView v a x s) j = pairOf s j := by rfl
@[simp] theorem portOf_wrView (v : View) (a : Nat) (x : Word) (s : State) (j : Nat) : portOf (wrView v a x s) j = portOf s j := by rfl
@[simp] theorem tileOf_wrView (v : View) (a : Nat) (x : Word) (s : State) (j : Nat) : tileOf (wrView v a x s) j = tileOf s j := by rfl
@[simp] theorem synOf_wrView (v : View) (a : Nat) (x : Word) (s : State) (j : Nat) : synOf (wrView v a x s) j = synOf s j := by rfl
@[simp] theorem laneOf_wrView (v : View) (a : Nat) (x : Word) (s : State) (j : Nat) : laneOf (wrView v a x s) j = laneOf s j := by rfl
@[simp] theorem domOf_wrView (v : View) (a : Nat) (x : Word) (s : State) (j : Nat) : domOf (wrView v a x s) j = domOf s j := by rfl
@[simp] theorem runsOf_wrView (v : View) (a : Nat) (x : Word) (s : State) (j : Nat) : runsOf (wrView v a x s) j = runsOf s j := by rfl
@[simp] theorem capsOf_wrView (v : View) (a : Nat) (x : Word) (s : State) (j : Nat) : capsOf (wrView v a x s) j = capsOf s j := by rfl
@[simp] theorem hostWrite_pending (a : Nat) (b : List Byte) (s : State) : (hostWrite a b s).pending = s.pending := by rfl
@[simp] theorem hostWrite_mode (a : Nat) (b : List Byte) (s : State) : (hostWrite a b s).mode = s.mode := by rfl
@[simp] theorem hostWrite_time (a : Nat) (b : List Byte) (s : State) : (hostWrite a b s).time = s.time := by rfl
@[simp] theorem hostWrite_regs (a : Nat) (b : List Byte) (s : State) : (hostWrite a b s).regs = s.regs := by rfl
@[simp] theorem hostWrite_views (a : Nat) (b : List Byte) (s : State) : (hostWrite a b s).views = s.views := by rfl
@[simp] theorem hostWrite_held (a : Nat) (b : List Byte) (s : State) : (hostWrite a b s).held = s.held := by rfl
@[simp] theorem hostWrite_snapAt (a : Nat) (b : List Byte) (s : State) : (hostWrite a b s).snapAt = s.snapAt := by rfl
@[simp] theorem hostWrite_snapOff (a : Nat) (b : List Byte) (s : State) : (hostWrite a b s).snapOff = s.snapOff := by rfl
@[simp] theorem hostWrite_snapDone (a : Nat) (b : List Byte) (s : State) : (hostWrite a b s).snapDone = s.snapDone := by rfl
@[simp] theorem hostWrite_perfWins (a : Nat) (b : List Byte) (s : State) : (hostWrite a b s).perfWins = s.perfWins := by rfl
@[simp] theorem hostWrite_perfAcc (a : Nat) (b : List Byte) (s : State) : (hostWrite a b s).perfAcc = s.perfAcc := by rfl
@[simp] theorem hostWrite_timeLatch (a : Nat) (b : List Byte) (s : State) : (hostWrite a b s).timeLatch = s.timeLatch := by rfl
@[simp] theorem hostWrite_out (a : Nat) (b : List Byte) (s : State) : (hostWrite a b s).out = s.out := by rfl
@[simp] theorem hostWrite_fresh (a : Nat) (b : List Byte) (s : State) : (hostWrite a b s).fresh = s.fresh := by rfl
@[simp] theorem hostWrite_cmd (a : Nat) (b : List Byte) (s : State) : (hostWrite a b s).cmd = s.cmd := by rfl
@[simp] theorem hostWrite_evt (a : Nat) (b : List Byte) (s : State) : (hostWrite a b s).evt = s.evt := by rfl
@[simp] theorem hostWrite_pcie (a : Nat) (b : List Byte) (s : State) : (hostWrite a b s).pcie = s.pcie := by rfl
@[simp] theorem hostWrite_sp (a : Nat) (b : List Byte) (s : State) : (hostWrite a b s).sp = s.sp := by rfl
@[simp] theorem hostWrite_fw (a : Nat) (b : List Byte) (s : State) : (hostWrite a b s).fw = s.fw := by rfl
@[simp] theorem hostWrite_offPending (a : Nat) (b : List Byte) (s : State) : (hostWrite a b s).offPending = s.offPending := by rfl
@[simp] theorem hostWrite_hops (a : Nat) (b : List Byte) (s : State) : (hostWrite a b s).hops = s.hops := by rfl
@[simp] theorem hostWrite_pulse (a : Nat) (b : List Byte) (s : State) : (hostWrite a b s).pulse = s.pulse := by rfl
@[simp] theorem hostWrite_chain (a : Nat) (b : List Byte) (s : State) : (hostWrite a b s).chain = s.chain := by rfl
@[simp] theorem hostWrite_muxes (a : Nat) (b : List Byte) (s : State) : (hostWrite a b s).muxes = s.muxes := by rfl
@[simp] theorem hostWrite_muxFrozen (a : Nat) (b : List Byte) (s : State) : (hostWrite a b s).muxFrozen = s.muxFrozen := by rfl
@[simp] theorem hostWrite_bcfg (a : Nat) (b : List Byte) (s : State) : (hostWrite a b s).bcfg = s.bcfg := by rfl
@[simp] theorem hostWrite_rackBoot (a : Nat) (b : List Byte) (s : State) : (hostWrite a b s).rackBoot = s.rackBoot := by rfl
@[simp] theorem hostWrite_badWords (a : Nat) (b : List Byte) (s : State) : (hostWrite a b s).badWords = s.badWords := by rfl
@[simp] theorem hostWrite_corrAt (a : Nat) (b : List Byte) (s : State) : (hostWrite a b s).corrAt = s.corrAt := by rfl
@[simp] theorem hostWrite_rootWords (a : Nat) (b : List Byte) (s : State) : (hostWrite a b s).rootWords = s.rootWords := by rfl
@[simp] theorem hostWrite_rootWord (a : Nat) (b : List Byte) (s : State) : (hostWrite a b s).rootWord = s.rootWord := by rfl
@[simp] theorem hostWrite_rootPending (a : Nat) (b : List Byte) (s : State) : (hostWrite a b s).rootPending = s.rootPending := by rfl
@[simp] theorem hostWrite_badCores (a : Nat) (b : List Byte) (s : State) : (hostWrite a b s).badCores = s.badCores := by rfl
@[simp] theorem hostWrite_spread (a : Nat) (b : List Byte) (s : State) : (hostWrite a b s).spread = s.spread := by rfl
@[simp] theorem hostWrite_lastClap (a : Nat) (b : List Byte) (s : State) : (hostWrite a b s).lastClap = s.lastClap := by rfl
@[simp] theorem hostWrite_doms (a : Nat) (b : List Byte) (s : State) : (hostWrite a b s).doms = s.doms := by rfl
@[simp] theorem hostWrite_dips (a : Nat) (b : List Byte) (s : State) : (hostWrite a b s).dips = s.dips := by rfl
@[simp] theorem hostWrite_plChanges (a : Nat) (b : List Byte) (s : State) : (hostWrite a b s).plChanges = s.plChanges := by rfl
@[simp] theorem hostWrite_discards (a : Nat) (b : List Byte) (s : State) : (hostWrite a b s).discards = s.discards := by rfl
@[simp] theorem hostWrite_temps (a : Nat) (b : List Byte) (s : State) : (hostWrite a b s).temps = s.temps := by rfl
@[simp] theorem hostWrite_mram (a : Nat) (b : List Byte) (s : State) : (hostWrite a b s).mram = s.mram := by rfl
@[simp] theorem hostWrite_sram (a : Nat) (b : List Byte) (s : State) : (hostWrite a b s).sram = s.sram := by rfl
@[simp] theorem hostWrite_utilDiscard (a : Nat) (b : List Byte) (s : State) : (hostWrite a b s).utilDiscard = s.utilDiscard := by rfl
@[simp] theorem hostWrite_links (a : Nat) (b : List Byte) (s : State) : (hostWrite a b s).links = s.links := by rfl
@[simp] theorem hostWrite_pairs (a : Nat) (b : List Byte) (s : State) : (hostWrite a b s).pairs = s.pairs := by rfl
@[simp] theorem hostWrite_ports (a : Nat) (b : List Byte) (s : State) : (hostWrite a b s).ports = s.ports := by rfl
@[simp] theorem hostWrite_tiles (a : Nat) (b : List Byte) (s : State) : (hostWrite a b s).tiles = s.tiles := by rfl
@[simp] theorem hostWrite_takes (a : Nat) (b : List Byte) (s : State) : (hostWrite a b s).takes = s.takes := by rfl
@[simp] theorem hostWrite_runs (a : Nat) (b : List Byte) (s : State) : (hostWrite a b s).runs = s.runs := by rfl
@[simp] theorem hostWrite_captures (a : Nat) (b : List Byte) (s : State) : (hostWrite a b s).captures = s.captures := by rfl
@[simp] theorem hostWrite_stalls (a : Nat) (b : List Byte) (s : State) : (hostWrite a b s).stalls = s.stalls := by rfl
@[simp] theorem hostWrite_areas (a : Nat) (b : List Byte) (s : State) : (hostWrite a b s).areas = s.areas := by rfl
@[simp] theorem hostWrite_work (a : Nat) (b : List Byte) (s : State) : (hostWrite a b s).work = s.work := by rfl
@[simp] theorem hostWrite_syns (a : Nat) (b : List Byte) (s : State) : (hostWrite a b s).syns = s.syns := by rfl
@[simp] theorem hostWrite_lanes (a : Nat) (b : List Byte) (s : State) : (hostWrite a b s).lanes = s.lanes := by rfl
@[simp] theorem hostWrite_contRecs (a : Nat) (b : List Byte) (s : State) : (hostWrite a b s).contRecs = s.contRecs := by rfl
@[simp] theorem hostWrite_contUse (a : Nat) (b : List Byte) (s : State) : (hostWrite a b s).contUse = s.contUse := by rfl
@[simp] theorem hostWrite_contDrop (a : Nat) (b : List Byte) (s : State) : (hostWrite a b s).contDrop = s.contDrop := by rfl
@[simp] theorem hostWrite_contEvict (a : Nat) (b : List Byte) (s : State) : (hostWrite a b s).contEvict = s.contEvict := by rfl
@[simp] theorem hostWrite_contBad (a : Nat) (b : List Byte) (s : State) : (hostWrite a b s).contBad = s.contBad := by rfl
@[simp] theorem hostWrite_contStale (a : Nat) (b : List Byte) (s : State) : (hostWrite a b s).contStale = s.contStale := by rfl
@[simp] theorem hostWrite_contDue (a : Nat) (b : List Byte) (s : State) : (hostWrite a b s).contDue = s.contDue := by rfl
@[simp] theorem rd_hostWrite (a : Nat) (b : List Byte) (s : State) (j : Nat) : rd (hostWrite a b s) j = rd s j := by rfl
@[simp] theorem rdView_hostWrite (a : Nat) (b : List Byte) (s : State) (vw : View) (j : Nat) : rdView (hostWrite a b s) vw j = rdView s vw j := by rfl
@[simp] theorem linkOf_hostWrite (a : Nat) (b : List Byte) (s : State) (j : Nat) : linkOf (hostWrite a b s) j = linkOf s j := by rfl
@[simp] theorem pairOf_hostWrite (a : Nat) (b : List Byte) (s : State) (j : Nat) : pairOf (hostWrite a b s) j = pairOf s j := by rfl
@[simp] theorem portOf_hostWrite (a : Nat) (b : List Byte) (s : State) (j : Nat) : portOf (hostWrite a b s) j = portOf s j := by rfl
@[simp] theorem tileOf_hostWrite (a : Nat) (b : List Byte) (s : State) (j : Nat) : tileOf (hostWrite a b s) j = tileOf s j := by rfl
@[simp] theorem synOf_hostWrite (a : Nat) (b : List Byte) (s : State) (j : Nat) : synOf (hostWrite a b s) j = synOf s j := by rfl
@[simp] theorem laneOf_hostWrite (a : Nat) (b : List Byte) (s : State) (j : Nat) : laneOf (hostWrite a b s) j = laneOf s j := by rfl
@[simp] theorem domOf_hostWrite (a : Nat) (b : List Byte) (s : State) (j : Nat) : domOf (hostWrite a b s) j = domOf s j := by rfl
@[simp] theorem runsOf_hostWrite (a : Nat) (b : List Byte) (s : State) (j : Nat) : runsOf (hostWrite a b s) j = runsOf s j := by rfl
@[simp] theorem capsOf_hostWrite (a : Nat) (b : List Byte) (s : State) (j : Nat) : capsOf (hostWrite a b s) j = capsOf s j := by rfl
@[simp] theorem emit_pending (o : Machine.Output) (s : State) : (emit o s).pending = s.pending := by rfl
@[simp] theorem emit_mode (o : Machine.Output) (s : State) : (emit o s).mode = s.mode := by rfl
@[simp] theorem emit_time (o : Machine.Output) (s : State) : (emit o s).time = s.time := by rfl
@[simp] theorem emit_regs (o : Machine.Output) (s : State) : (emit o s).regs = s.regs := by rfl
@[simp] theorem emit_views (o : Machine.Output) (s : State) : (emit o s).views = s.views := by rfl
@[simp] theorem emit_held (o : Machine.Output) (s : State) : (emit o s).held = s.held := by rfl
@[simp] theorem emit_snapAt (o : Machine.Output) (s : State) : (emit o s).snapAt = s.snapAt := by rfl
@[simp] theorem emit_snapOff (o : Machine.Output) (s : State) : (emit o s).snapOff = s.snapOff := by rfl
@[simp] theorem emit_snapDone (o : Machine.Output) (s : State) : (emit o s).snapDone = s.snapDone := by rfl
@[simp] theorem emit_perfWins (o : Machine.Output) (s : State) : (emit o s).perfWins = s.perfWins := by rfl
@[simp] theorem emit_perfAcc (o : Machine.Output) (s : State) : (emit o s).perfAcc = s.perfAcc := by rfl
@[simp] theorem emit_timeLatch (o : Machine.Output) (s : State) : (emit o s).timeLatch = s.timeLatch := by rfl
@[simp] theorem emit_hostMem (o : Machine.Output) (s : State) : (emit o s).hostMem = s.hostMem := by rfl
@[simp] theorem emit_fresh (o : Machine.Output) (s : State) : (emit o s).fresh = s.fresh := by rfl
@[simp] theorem emit_cmd (o : Machine.Output) (s : State) : (emit o s).cmd = s.cmd := by rfl
@[simp] theorem emit_evt (o : Machine.Output) (s : State) : (emit o s).evt = s.evt := by rfl
@[simp] theorem emit_pcie (o : Machine.Output) (s : State) : (emit o s).pcie = s.pcie := by rfl
@[simp] theorem emit_sp (o : Machine.Output) (s : State) : (emit o s).sp = s.sp := by rfl
@[simp] theorem emit_fw (o : Machine.Output) (s : State) : (emit o s).fw = s.fw := by rfl
@[simp] theorem emit_offPending (o : Machine.Output) (s : State) : (emit o s).offPending = s.offPending := by rfl
@[simp] theorem emit_hops (o : Machine.Output) (s : State) : (emit o s).hops = s.hops := by rfl
@[simp] theorem emit_pulse (o : Machine.Output) (s : State) : (emit o s).pulse = s.pulse := by rfl
@[simp] theorem emit_chain (o : Machine.Output) (s : State) : (emit o s).chain = s.chain := by rfl
@[simp] theorem emit_muxes (o : Machine.Output) (s : State) : (emit o s).muxes = s.muxes := by rfl
@[simp] theorem emit_muxFrozen (o : Machine.Output) (s : State) : (emit o s).muxFrozen = s.muxFrozen := by rfl
@[simp] theorem emit_bcfg (o : Machine.Output) (s : State) : (emit o s).bcfg = s.bcfg := by rfl
@[simp] theorem emit_rackBoot (o : Machine.Output) (s : State) : (emit o s).rackBoot = s.rackBoot := by rfl
@[simp] theorem emit_badWords (o : Machine.Output) (s : State) : (emit o s).badWords = s.badWords := by rfl
@[simp] theorem emit_corrAt (o : Machine.Output) (s : State) : (emit o s).corrAt = s.corrAt := by rfl
@[simp] theorem emit_rootWords (o : Machine.Output) (s : State) : (emit o s).rootWords = s.rootWords := by rfl
@[simp] theorem emit_rootWord (o : Machine.Output) (s : State) : (emit o s).rootWord = s.rootWord := by rfl
@[simp] theorem emit_rootPending (o : Machine.Output) (s : State) : (emit o s).rootPending = s.rootPending := by rfl
@[simp] theorem emit_badCores (o : Machine.Output) (s : State) : (emit o s).badCores = s.badCores := by rfl
@[simp] theorem emit_spread (o : Machine.Output) (s : State) : (emit o s).spread = s.spread := by rfl
@[simp] theorem emit_lastClap (o : Machine.Output) (s : State) : (emit o s).lastClap = s.lastClap := by rfl
@[simp] theorem emit_doms (o : Machine.Output) (s : State) : (emit o s).doms = s.doms := by rfl
@[simp] theorem emit_dips (o : Machine.Output) (s : State) : (emit o s).dips = s.dips := by rfl
@[simp] theorem emit_plChanges (o : Machine.Output) (s : State) : (emit o s).plChanges = s.plChanges := by rfl
@[simp] theorem emit_discards (o : Machine.Output) (s : State) : (emit o s).discards = s.discards := by rfl
@[simp] theorem emit_temps (o : Machine.Output) (s : State) : (emit o s).temps = s.temps := by rfl
@[simp] theorem emit_mram (o : Machine.Output) (s : State) : (emit o s).mram = s.mram := by rfl
@[simp] theorem emit_sram (o : Machine.Output) (s : State) : (emit o s).sram = s.sram := by rfl
@[simp] theorem emit_utilDiscard (o : Machine.Output) (s : State) : (emit o s).utilDiscard = s.utilDiscard := by rfl
@[simp] theorem emit_links (o : Machine.Output) (s : State) : (emit o s).links = s.links := by rfl
@[simp] theorem emit_pairs (o : Machine.Output) (s : State) : (emit o s).pairs = s.pairs := by rfl
@[simp] theorem emit_ports (o : Machine.Output) (s : State) : (emit o s).ports = s.ports := by rfl
@[simp] theorem emit_tiles (o : Machine.Output) (s : State) : (emit o s).tiles = s.tiles := by rfl
@[simp] theorem emit_takes (o : Machine.Output) (s : State) : (emit o s).takes = s.takes := by rfl
@[simp] theorem emit_runs (o : Machine.Output) (s : State) : (emit o s).runs = s.runs := by rfl
@[simp] theorem emit_captures (o : Machine.Output) (s : State) : (emit o s).captures = s.captures := by rfl
@[simp] theorem emit_stalls (o : Machine.Output) (s : State) : (emit o s).stalls = s.stalls := by rfl
@[simp] theorem emit_areas (o : Machine.Output) (s : State) : (emit o s).areas = s.areas := by rfl
@[simp] theorem emit_work (o : Machine.Output) (s : State) : (emit o s).work = s.work := by rfl
@[simp] theorem emit_syns (o : Machine.Output) (s : State) : (emit o s).syns = s.syns := by rfl
@[simp] theorem emit_lanes (o : Machine.Output) (s : State) : (emit o s).lanes = s.lanes := by rfl
@[simp] theorem emit_contRecs (o : Machine.Output) (s : State) : (emit o s).contRecs = s.contRecs := by rfl
@[simp] theorem emit_contUse (o : Machine.Output) (s : State) : (emit o s).contUse = s.contUse := by rfl
@[simp] theorem emit_contDrop (o : Machine.Output) (s : State) : (emit o s).contDrop = s.contDrop := by rfl
@[simp] theorem emit_contEvict (o : Machine.Output) (s : State) : (emit o s).contEvict = s.contEvict := by rfl
@[simp] theorem emit_contBad (o : Machine.Output) (s : State) : (emit o s).contBad = s.contBad := by rfl
@[simp] theorem emit_contStale (o : Machine.Output) (s : State) : (emit o s).contStale = s.contStale := by rfl
@[simp] theorem emit_contDue (o : Machine.Output) (s : State) : (emit o s).contDue = s.contDue := by rfl
@[simp] theorem rd_emit (o : Machine.Output) (s : State) (j : Nat) : rd (emit o s) j = rd s j := by rfl
@[simp] theorem rdView_emit (o : Machine.Output) (s : State) (vw : View) (j : Nat) : rdView (emit o s) vw j = rdView s vw j := by rfl
@[simp] theorem linkOf_emit (o : Machine.Output) (s : State) (j : Nat) : linkOf (emit o s) j = linkOf s j := by rfl
@[simp] theorem pairOf_emit (o : Machine.Output) (s : State) (j : Nat) : pairOf (emit o s) j = pairOf s j := by rfl
@[simp] theorem portOf_emit (o : Machine.Output) (s : State) (j : Nat) : portOf (emit o s) j = portOf s j := by rfl
@[simp] theorem tileOf_emit (o : Machine.Output) (s : State) (j : Nat) : tileOf (emit o s) j = tileOf s j := by rfl
@[simp] theorem synOf_emit (o : Machine.Output) (s : State) (j : Nat) : synOf (emit o s) j = synOf s j := by rfl
@[simp] theorem laneOf_emit (o : Machine.Output) (s : State) (j : Nat) : laneOf (emit o s) j = laneOf s j := by rfl
@[simp] theorem domOf_emit (o : Machine.Output) (s : State) (j : Nat) : domOf (emit o s) j = domOf s j := by rfl
@[simp] theorem runsOf_emit (o : Machine.Output) (s : State) (j : Nat) : runsOf (emit o s) j = runsOf s j := by rfl
@[simp] theorem capsOf_emit (o : Machine.Output) (s : State) (j : Nat) : capsOf (emit o s) j = capsOf s j := by rfl
@[simp] theorem modCmd_pending (f : CmdSt → CmdSt) (s : State) : (modCmd f s).pending = s.pending := by rfl
@[simp] theorem modCmd_mode (f : CmdSt → CmdSt) (s : State) : (modCmd f s).mode = s.mode := by rfl
@[simp] theorem modCmd_time (f : CmdSt → CmdSt) (s : State) : (modCmd f s).time = s.time := by rfl
@[simp] theorem modCmd_regs (f : CmdSt → CmdSt) (s : State) : (modCmd f s).regs = s.regs := by rfl
@[simp] theorem modCmd_views (f : CmdSt → CmdSt) (s : State) : (modCmd f s).views = s.views := by rfl
@[simp] theorem modCmd_held (f : CmdSt → CmdSt) (s : State) : (modCmd f s).held = s.held := by rfl
@[simp] theorem modCmd_snapAt (f : CmdSt → CmdSt) (s : State) : (modCmd f s).snapAt = s.snapAt := by rfl
@[simp] theorem modCmd_snapOff (f : CmdSt → CmdSt) (s : State) : (modCmd f s).snapOff = s.snapOff := by rfl
@[simp] theorem modCmd_snapDone (f : CmdSt → CmdSt) (s : State) : (modCmd f s).snapDone = s.snapDone := by rfl
@[simp] theorem modCmd_perfWins (f : CmdSt → CmdSt) (s : State) : (modCmd f s).perfWins = s.perfWins := by rfl
@[simp] theorem modCmd_perfAcc (f : CmdSt → CmdSt) (s : State) : (modCmd f s).perfAcc = s.perfAcc := by rfl
@[simp] theorem modCmd_timeLatch (f : CmdSt → CmdSt) (s : State) : (modCmd f s).timeLatch = s.timeLatch := by rfl
@[simp] theorem modCmd_hostMem (f : CmdSt → CmdSt) (s : State) : (modCmd f s).hostMem = s.hostMem := by rfl
@[simp] theorem modCmd_out (f : CmdSt → CmdSt) (s : State) : (modCmd f s).out = s.out := by rfl
@[simp] theorem modCmd_fresh (f : CmdSt → CmdSt) (s : State) : (modCmd f s).fresh = s.fresh := by rfl
@[simp] theorem modCmd_evt (f : CmdSt → CmdSt) (s : State) : (modCmd f s).evt = s.evt := by rfl
@[simp] theorem modCmd_pcie (f : CmdSt → CmdSt) (s : State) : (modCmd f s).pcie = s.pcie := by rfl
@[simp] theorem modCmd_sp (f : CmdSt → CmdSt) (s : State) : (modCmd f s).sp = s.sp := by rfl
@[simp] theorem modCmd_fw (f : CmdSt → CmdSt) (s : State) : (modCmd f s).fw = s.fw := by rfl
@[simp] theorem modCmd_offPending (f : CmdSt → CmdSt) (s : State) : (modCmd f s).offPending = s.offPending := by rfl
@[simp] theorem modCmd_hops (f : CmdSt → CmdSt) (s : State) : (modCmd f s).hops = s.hops := by rfl
@[simp] theorem modCmd_pulse (f : CmdSt → CmdSt) (s : State) : (modCmd f s).pulse = s.pulse := by rfl
@[simp] theorem modCmd_chain (f : CmdSt → CmdSt) (s : State) : (modCmd f s).chain = s.chain := by rfl
@[simp] theorem modCmd_muxes (f : CmdSt → CmdSt) (s : State) : (modCmd f s).muxes = s.muxes := by rfl
@[simp] theorem modCmd_muxFrozen (f : CmdSt → CmdSt) (s : State) : (modCmd f s).muxFrozen = s.muxFrozen := by rfl
@[simp] theorem modCmd_bcfg (f : CmdSt → CmdSt) (s : State) : (modCmd f s).bcfg = s.bcfg := by rfl
@[simp] theorem modCmd_rackBoot (f : CmdSt → CmdSt) (s : State) : (modCmd f s).rackBoot = s.rackBoot := by rfl
@[simp] theorem modCmd_badWords (f : CmdSt → CmdSt) (s : State) : (modCmd f s).badWords = s.badWords := by rfl
@[simp] theorem modCmd_corrAt (f : CmdSt → CmdSt) (s : State) : (modCmd f s).corrAt = s.corrAt := by rfl
@[simp] theorem modCmd_rootWords (f : CmdSt → CmdSt) (s : State) : (modCmd f s).rootWords = s.rootWords := by rfl
@[simp] theorem modCmd_rootWord (f : CmdSt → CmdSt) (s : State) : (modCmd f s).rootWord = s.rootWord := by rfl
@[simp] theorem modCmd_rootPending (f : CmdSt → CmdSt) (s : State) : (modCmd f s).rootPending = s.rootPending := by rfl
@[simp] theorem modCmd_badCores (f : CmdSt → CmdSt) (s : State) : (modCmd f s).badCores = s.badCores := by rfl
@[simp] theorem modCmd_spread (f : CmdSt → CmdSt) (s : State) : (modCmd f s).spread = s.spread := by rfl
@[simp] theorem modCmd_lastClap (f : CmdSt → CmdSt) (s : State) : (modCmd f s).lastClap = s.lastClap := by rfl
@[simp] theorem modCmd_doms (f : CmdSt → CmdSt) (s : State) : (modCmd f s).doms = s.doms := by rfl
@[simp] theorem modCmd_dips (f : CmdSt → CmdSt) (s : State) : (modCmd f s).dips = s.dips := by rfl
@[simp] theorem modCmd_plChanges (f : CmdSt → CmdSt) (s : State) : (modCmd f s).plChanges = s.plChanges := by rfl
@[simp] theorem modCmd_discards (f : CmdSt → CmdSt) (s : State) : (modCmd f s).discards = s.discards := by rfl
@[simp] theorem modCmd_temps (f : CmdSt → CmdSt) (s : State) : (modCmd f s).temps = s.temps := by rfl
@[simp] theorem modCmd_mram (f : CmdSt → CmdSt) (s : State) : (modCmd f s).mram = s.mram := by rfl
@[simp] theorem modCmd_sram (f : CmdSt → CmdSt) (s : State) : (modCmd f s).sram = s.sram := by rfl
@[simp] theorem modCmd_utilDiscard (f : CmdSt → CmdSt) (s : State) : (modCmd f s).utilDiscard = s.utilDiscard := by rfl
@[simp] theorem modCmd_links (f : CmdSt → CmdSt) (s : State) : (modCmd f s).links = s.links := by rfl
@[simp] theorem modCmd_pairs (f : CmdSt → CmdSt) (s : State) : (modCmd f s).pairs = s.pairs := by rfl
@[simp] theorem modCmd_ports (f : CmdSt → CmdSt) (s : State) : (modCmd f s).ports = s.ports := by rfl
@[simp] theorem modCmd_tiles (f : CmdSt → CmdSt) (s : State) : (modCmd f s).tiles = s.tiles := by rfl
@[simp] theorem modCmd_takes (f : CmdSt → CmdSt) (s : State) : (modCmd f s).takes = s.takes := by rfl
@[simp] theorem modCmd_runs (f : CmdSt → CmdSt) (s : State) : (modCmd f s).runs = s.runs := by rfl
@[simp] theorem modCmd_captures (f : CmdSt → CmdSt) (s : State) : (modCmd f s).captures = s.captures := by rfl
@[simp] theorem modCmd_stalls (f : CmdSt → CmdSt) (s : State) : (modCmd f s).stalls = s.stalls := by rfl
@[simp] theorem modCmd_areas (f : CmdSt → CmdSt) (s : State) : (modCmd f s).areas = s.areas := by rfl
@[simp] theorem modCmd_work (f : CmdSt → CmdSt) (s : State) : (modCmd f s).work = s.work := by rfl
@[simp] theorem modCmd_syns (f : CmdSt → CmdSt) (s : State) : (modCmd f s).syns = s.syns := by rfl
@[simp] theorem modCmd_lanes (f : CmdSt → CmdSt) (s : State) : (modCmd f s).lanes = s.lanes := by rfl
@[simp] theorem modCmd_contRecs (f : CmdSt → CmdSt) (s : State) : (modCmd f s).contRecs = s.contRecs := by rfl
@[simp] theorem modCmd_contUse (f : CmdSt → CmdSt) (s : State) : (modCmd f s).contUse = s.contUse := by rfl
@[simp] theorem modCmd_contDrop (f : CmdSt → CmdSt) (s : State) : (modCmd f s).contDrop = s.contDrop := by rfl
@[simp] theorem modCmd_contEvict (f : CmdSt → CmdSt) (s : State) : (modCmd f s).contEvict = s.contEvict := by rfl
@[simp] theorem modCmd_contBad (f : CmdSt → CmdSt) (s : State) : (modCmd f s).contBad = s.contBad := by rfl
@[simp] theorem modCmd_contStale (f : CmdSt → CmdSt) (s : State) : (modCmd f s).contStale = s.contStale := by rfl
@[simp] theorem modCmd_contDue (f : CmdSt → CmdSt) (s : State) : (modCmd f s).contDue = s.contDue := by rfl
@[simp] theorem rd_modCmd (f : CmdSt → CmdSt) (s : State) (j : Nat) : rd (modCmd f s) j = rd s j := by rfl
@[simp] theorem rdView_modCmd (f : CmdSt → CmdSt) (s : State) (vw : View) (j : Nat) : rdView (modCmd f s) vw j = rdView s vw j := by rfl
@[simp] theorem linkOf_modCmd (f : CmdSt → CmdSt) (s : State) (j : Nat) : linkOf (modCmd f s) j = linkOf s j := by rfl
@[simp] theorem pairOf_modCmd (f : CmdSt → CmdSt) (s : State) (j : Nat) : pairOf (modCmd f s) j = pairOf s j := by rfl
@[simp] theorem portOf_modCmd (f : CmdSt → CmdSt) (s : State) (j : Nat) : portOf (modCmd f s) j = portOf s j := by rfl
@[simp] theorem tileOf_modCmd (f : CmdSt → CmdSt) (s : State) (j : Nat) : tileOf (modCmd f s) j = tileOf s j := by rfl
@[simp] theorem synOf_modCmd (f : CmdSt → CmdSt) (s : State) (j : Nat) : synOf (modCmd f s) j = synOf s j := by rfl
@[simp] theorem laneOf_modCmd (f : CmdSt → CmdSt) (s : State) (j : Nat) : laneOf (modCmd f s) j = laneOf s j := by rfl
@[simp] theorem domOf_modCmd (f : CmdSt → CmdSt) (s : State) (j : Nat) : domOf (modCmd f s) j = domOf s j := by rfl
@[simp] theorem runsOf_modCmd (f : CmdSt → CmdSt) (s : State) (j : Nat) : runsOf (modCmd f s) j = runsOf s j := by rfl
@[simp] theorem capsOf_modCmd (f : CmdSt → CmdSt) (s : State) (j : Nat) : capsOf (modCmd f s) j = capsOf s j := by rfl
@[simp] theorem modFw_pending (f : FwSt → FwSt) (s : State) : (modFw f s).pending = s.pending := by rfl
@[simp] theorem modFw_mode (f : FwSt → FwSt) (s : State) : (modFw f s).mode = s.mode := by rfl
@[simp] theorem modFw_time (f : FwSt → FwSt) (s : State) : (modFw f s).time = s.time := by rfl
@[simp] theorem modFw_regs (f : FwSt → FwSt) (s : State) : (modFw f s).regs = s.regs := by rfl
@[simp] theorem modFw_views (f : FwSt → FwSt) (s : State) : (modFw f s).views = s.views := by rfl
@[simp] theorem modFw_held (f : FwSt → FwSt) (s : State) : (modFw f s).held = s.held := by rfl
@[simp] theorem modFw_snapAt (f : FwSt → FwSt) (s : State) : (modFw f s).snapAt = s.snapAt := by rfl
@[simp] theorem modFw_snapOff (f : FwSt → FwSt) (s : State) : (modFw f s).snapOff = s.snapOff := by rfl
@[simp] theorem modFw_snapDone (f : FwSt → FwSt) (s : State) : (modFw f s).snapDone = s.snapDone := by rfl
@[simp] theorem modFw_perfWins (f : FwSt → FwSt) (s : State) : (modFw f s).perfWins = s.perfWins := by rfl
@[simp] theorem modFw_perfAcc (f : FwSt → FwSt) (s : State) : (modFw f s).perfAcc = s.perfAcc := by rfl
@[simp] theorem modFw_timeLatch (f : FwSt → FwSt) (s : State) : (modFw f s).timeLatch = s.timeLatch := by rfl
@[simp] theorem modFw_hostMem (f : FwSt → FwSt) (s : State) : (modFw f s).hostMem = s.hostMem := by rfl
@[simp] theorem modFw_out (f : FwSt → FwSt) (s : State) : (modFw f s).out = s.out := by rfl
@[simp] theorem modFw_fresh (f : FwSt → FwSt) (s : State) : (modFw f s).fresh = s.fresh := by rfl
@[simp] theorem modFw_cmd (f : FwSt → FwSt) (s : State) : (modFw f s).cmd = s.cmd := by rfl
@[simp] theorem modFw_evt (f : FwSt → FwSt) (s : State) : (modFw f s).evt = s.evt := by rfl
@[simp] theorem modFw_pcie (f : FwSt → FwSt) (s : State) : (modFw f s).pcie = s.pcie := by rfl
@[simp] theorem modFw_sp (f : FwSt → FwSt) (s : State) : (modFw f s).sp = s.sp := by rfl
@[simp] theorem modFw_offPending (f : FwSt → FwSt) (s : State) : (modFw f s).offPending = s.offPending := by rfl
@[simp] theorem modFw_hops (f : FwSt → FwSt) (s : State) : (modFw f s).hops = s.hops := by rfl
@[simp] theorem modFw_pulse (f : FwSt → FwSt) (s : State) : (modFw f s).pulse = s.pulse := by rfl
@[simp] theorem modFw_chain (f : FwSt → FwSt) (s : State) : (modFw f s).chain = s.chain := by rfl
@[simp] theorem modFw_muxes (f : FwSt → FwSt) (s : State) : (modFw f s).muxes = s.muxes := by rfl
@[simp] theorem modFw_muxFrozen (f : FwSt → FwSt) (s : State) : (modFw f s).muxFrozen = s.muxFrozen := by rfl
@[simp] theorem modFw_bcfg (f : FwSt → FwSt) (s : State) : (modFw f s).bcfg = s.bcfg := by rfl
@[simp] theorem modFw_rackBoot (f : FwSt → FwSt) (s : State) : (modFw f s).rackBoot = s.rackBoot := by rfl
@[simp] theorem modFw_badWords (f : FwSt → FwSt) (s : State) : (modFw f s).badWords = s.badWords := by rfl
@[simp] theorem modFw_corrAt (f : FwSt → FwSt) (s : State) : (modFw f s).corrAt = s.corrAt := by rfl
@[simp] theorem modFw_rootWords (f : FwSt → FwSt) (s : State) : (modFw f s).rootWords = s.rootWords := by rfl
@[simp] theorem modFw_rootWord (f : FwSt → FwSt) (s : State) : (modFw f s).rootWord = s.rootWord := by rfl
@[simp] theorem modFw_rootPending (f : FwSt → FwSt) (s : State) : (modFw f s).rootPending = s.rootPending := by rfl
@[simp] theorem modFw_badCores (f : FwSt → FwSt) (s : State) : (modFw f s).badCores = s.badCores := by rfl
@[simp] theorem modFw_spread (f : FwSt → FwSt) (s : State) : (modFw f s).spread = s.spread := by rfl
@[simp] theorem modFw_lastClap (f : FwSt → FwSt) (s : State) : (modFw f s).lastClap = s.lastClap := by rfl
@[simp] theorem modFw_doms (f : FwSt → FwSt) (s : State) : (modFw f s).doms = s.doms := by rfl
@[simp] theorem modFw_dips (f : FwSt → FwSt) (s : State) : (modFw f s).dips = s.dips := by rfl
@[simp] theorem modFw_plChanges (f : FwSt → FwSt) (s : State) : (modFw f s).plChanges = s.plChanges := by rfl
@[simp] theorem modFw_discards (f : FwSt → FwSt) (s : State) : (modFw f s).discards = s.discards := by rfl
@[simp] theorem modFw_temps (f : FwSt → FwSt) (s : State) : (modFw f s).temps = s.temps := by rfl
@[simp] theorem modFw_mram (f : FwSt → FwSt) (s : State) : (modFw f s).mram = s.mram := by rfl
@[simp] theorem modFw_sram (f : FwSt → FwSt) (s : State) : (modFw f s).sram = s.sram := by rfl
@[simp] theorem modFw_utilDiscard (f : FwSt → FwSt) (s : State) : (modFw f s).utilDiscard = s.utilDiscard := by rfl
@[simp] theorem modFw_links (f : FwSt → FwSt) (s : State) : (modFw f s).links = s.links := by rfl
@[simp] theorem modFw_pairs (f : FwSt → FwSt) (s : State) : (modFw f s).pairs = s.pairs := by rfl
@[simp] theorem modFw_ports (f : FwSt → FwSt) (s : State) : (modFw f s).ports = s.ports := by rfl
@[simp] theorem modFw_tiles (f : FwSt → FwSt) (s : State) : (modFw f s).tiles = s.tiles := by rfl
@[simp] theorem modFw_takes (f : FwSt → FwSt) (s : State) : (modFw f s).takes = s.takes := by rfl
@[simp] theorem modFw_runs (f : FwSt → FwSt) (s : State) : (modFw f s).runs = s.runs := by rfl
@[simp] theorem modFw_captures (f : FwSt → FwSt) (s : State) : (modFw f s).captures = s.captures := by rfl
@[simp] theorem modFw_stalls (f : FwSt → FwSt) (s : State) : (modFw f s).stalls = s.stalls := by rfl
@[simp] theorem modFw_areas (f : FwSt → FwSt) (s : State) : (modFw f s).areas = s.areas := by rfl
@[simp] theorem modFw_work (f : FwSt → FwSt) (s : State) : (modFw f s).work = s.work := by rfl
@[simp] theorem modFw_syns (f : FwSt → FwSt) (s : State) : (modFw f s).syns = s.syns := by rfl
@[simp] theorem modFw_lanes (f : FwSt → FwSt) (s : State) : (modFw f s).lanes = s.lanes := by rfl
@[simp] theorem modFw_contRecs (f : FwSt → FwSt) (s : State) : (modFw f s).contRecs = s.contRecs := by rfl
@[simp] theorem modFw_contUse (f : FwSt → FwSt) (s : State) : (modFw f s).contUse = s.contUse := by rfl
@[simp] theorem modFw_contDrop (f : FwSt → FwSt) (s : State) : (modFw f s).contDrop = s.contDrop := by rfl
@[simp] theorem modFw_contEvict (f : FwSt → FwSt) (s : State) : (modFw f s).contEvict = s.contEvict := by rfl
@[simp] theorem modFw_contBad (f : FwSt → FwSt) (s : State) : (modFw f s).contBad = s.contBad := by rfl
@[simp] theorem modFw_contStale (f : FwSt → FwSt) (s : State) : (modFw f s).contStale = s.contStale := by rfl
@[simp] theorem modFw_contDue (f : FwSt → FwSt) (s : State) : (modFw f s).contDue = s.contDue := by rfl
@[simp] theorem rd_modFw (f : FwSt → FwSt) (s : State) (j : Nat) : rd (modFw f s) j = rd s j := by rfl
@[simp] theorem rdView_modFw (f : FwSt → FwSt) (s : State) (vw : View) (j : Nat) : rdView (modFw f s) vw j = rdView s vw j := by rfl
@[simp] theorem linkOf_modFw (f : FwSt → FwSt) (s : State) (j : Nat) : linkOf (modFw f s) j = linkOf s j := by rfl
@[simp] theorem pairOf_modFw (f : FwSt → FwSt) (s : State) (j : Nat) : pairOf (modFw f s) j = pairOf s j := by rfl
@[simp] theorem portOf_modFw (f : FwSt → FwSt) (s : State) (j : Nat) : portOf (modFw f s) j = portOf s j := by rfl
@[simp] theorem tileOf_modFw (f : FwSt → FwSt) (s : State) (j : Nat) : tileOf (modFw f s) j = tileOf s j := by rfl
@[simp] theorem synOf_modFw (f : FwSt → FwSt) (s : State) (j : Nat) : synOf (modFw f s) j = synOf s j := by rfl
@[simp] theorem laneOf_modFw (f : FwSt → FwSt) (s : State) (j : Nat) : laneOf (modFw f s) j = laneOf s j := by rfl
@[simp] theorem domOf_modFw (f : FwSt → FwSt) (s : State) (j : Nat) : domOf (modFw f s) j = domOf s j := by rfl
@[simp] theorem runsOf_modFw (f : FwSt → FwSt) (s : State) (j : Nat) : runsOf (modFw f s) j = runsOf s j := by rfl
@[simp] theorem capsOf_modFw (f : FwSt → FwSt) (s : State) (j : Nat) : capsOf (modFw f s) j = capsOf s j := by rfl
@[simp] theorem modPcie_pending (f : PcieSt → PcieSt) (s : State) : (modPcie f s).pending = s.pending := by rfl
@[simp] theorem modPcie_mode (f : PcieSt → PcieSt) (s : State) : (modPcie f s).mode = s.mode := by rfl
@[simp] theorem modPcie_time (f : PcieSt → PcieSt) (s : State) : (modPcie f s).time = s.time := by rfl
@[simp] theorem modPcie_regs (f : PcieSt → PcieSt) (s : State) : (modPcie f s).regs = s.regs := by rfl
@[simp] theorem modPcie_views (f : PcieSt → PcieSt) (s : State) : (modPcie f s).views = s.views := by rfl
@[simp] theorem modPcie_held (f : PcieSt → PcieSt) (s : State) : (modPcie f s).held = s.held := by rfl
@[simp] theorem modPcie_snapAt (f : PcieSt → PcieSt) (s : State) : (modPcie f s).snapAt = s.snapAt := by rfl
@[simp] theorem modPcie_snapOff (f : PcieSt → PcieSt) (s : State) : (modPcie f s).snapOff = s.snapOff := by rfl
@[simp] theorem modPcie_snapDone (f : PcieSt → PcieSt) (s : State) : (modPcie f s).snapDone = s.snapDone := by rfl
@[simp] theorem modPcie_perfWins (f : PcieSt → PcieSt) (s : State) : (modPcie f s).perfWins = s.perfWins := by rfl
@[simp] theorem modPcie_perfAcc (f : PcieSt → PcieSt) (s : State) : (modPcie f s).perfAcc = s.perfAcc := by rfl
@[simp] theorem modPcie_timeLatch (f : PcieSt → PcieSt) (s : State) : (modPcie f s).timeLatch = s.timeLatch := by rfl
@[simp] theorem modPcie_hostMem (f : PcieSt → PcieSt) (s : State) : (modPcie f s).hostMem = s.hostMem := by rfl
@[simp] theorem modPcie_out (f : PcieSt → PcieSt) (s : State) : (modPcie f s).out = s.out := by rfl
@[simp] theorem modPcie_fresh (f : PcieSt → PcieSt) (s : State) : (modPcie f s).fresh = s.fresh := by rfl
@[simp] theorem modPcie_cmd (f : PcieSt → PcieSt) (s : State) : (modPcie f s).cmd = s.cmd := by rfl
@[simp] theorem modPcie_evt (f : PcieSt → PcieSt) (s : State) : (modPcie f s).evt = s.evt := by rfl
@[simp] theorem modPcie_sp (f : PcieSt → PcieSt) (s : State) : (modPcie f s).sp = s.sp := by rfl
@[simp] theorem modPcie_fw (f : PcieSt → PcieSt) (s : State) : (modPcie f s).fw = s.fw := by rfl
@[simp] theorem modPcie_offPending (f : PcieSt → PcieSt) (s : State) : (modPcie f s).offPending = s.offPending := by rfl
@[simp] theorem modPcie_hops (f : PcieSt → PcieSt) (s : State) : (modPcie f s).hops = s.hops := by rfl
@[simp] theorem modPcie_pulse (f : PcieSt → PcieSt) (s : State) : (modPcie f s).pulse = s.pulse := by rfl
@[simp] theorem modPcie_chain (f : PcieSt → PcieSt) (s : State) : (modPcie f s).chain = s.chain := by rfl
@[simp] theorem modPcie_muxes (f : PcieSt → PcieSt) (s : State) : (modPcie f s).muxes = s.muxes := by rfl
@[simp] theorem modPcie_muxFrozen (f : PcieSt → PcieSt) (s : State) : (modPcie f s).muxFrozen = s.muxFrozen := by rfl
@[simp] theorem modPcie_bcfg (f : PcieSt → PcieSt) (s : State) : (modPcie f s).bcfg = s.bcfg := by rfl
@[simp] theorem modPcie_rackBoot (f : PcieSt → PcieSt) (s : State) : (modPcie f s).rackBoot = s.rackBoot := by rfl
@[simp] theorem modPcie_badWords (f : PcieSt → PcieSt) (s : State) : (modPcie f s).badWords = s.badWords := by rfl
@[simp] theorem modPcie_corrAt (f : PcieSt → PcieSt) (s : State) : (modPcie f s).corrAt = s.corrAt := by rfl
@[simp] theorem modPcie_rootWords (f : PcieSt → PcieSt) (s : State) : (modPcie f s).rootWords = s.rootWords := by rfl
@[simp] theorem modPcie_rootWord (f : PcieSt → PcieSt) (s : State) : (modPcie f s).rootWord = s.rootWord := by rfl
@[simp] theorem modPcie_rootPending (f : PcieSt → PcieSt) (s : State) : (modPcie f s).rootPending = s.rootPending := by rfl
@[simp] theorem modPcie_badCores (f : PcieSt → PcieSt) (s : State) : (modPcie f s).badCores = s.badCores := by rfl
@[simp] theorem modPcie_spread (f : PcieSt → PcieSt) (s : State) : (modPcie f s).spread = s.spread := by rfl
@[simp] theorem modPcie_lastClap (f : PcieSt → PcieSt) (s : State) : (modPcie f s).lastClap = s.lastClap := by rfl
@[simp] theorem modPcie_doms (f : PcieSt → PcieSt) (s : State) : (modPcie f s).doms = s.doms := by rfl
@[simp] theorem modPcie_dips (f : PcieSt → PcieSt) (s : State) : (modPcie f s).dips = s.dips := by rfl
@[simp] theorem modPcie_plChanges (f : PcieSt → PcieSt) (s : State) : (modPcie f s).plChanges = s.plChanges := by rfl
@[simp] theorem modPcie_discards (f : PcieSt → PcieSt) (s : State) : (modPcie f s).discards = s.discards := by rfl
@[simp] theorem modPcie_temps (f : PcieSt → PcieSt) (s : State) : (modPcie f s).temps = s.temps := by rfl
@[simp] theorem modPcie_mram (f : PcieSt → PcieSt) (s : State) : (modPcie f s).mram = s.mram := by rfl
@[simp] theorem modPcie_sram (f : PcieSt → PcieSt) (s : State) : (modPcie f s).sram = s.sram := by rfl
@[simp] theorem modPcie_utilDiscard (f : PcieSt → PcieSt) (s : State) : (modPcie f s).utilDiscard = s.utilDiscard := by rfl
@[simp] theorem modPcie_links (f : PcieSt → PcieSt) (s : State) : (modPcie f s).links = s.links := by rfl
@[simp] theorem modPcie_pairs (f : PcieSt → PcieSt) (s : State) : (modPcie f s).pairs = s.pairs := by rfl
@[simp] theorem modPcie_ports (f : PcieSt → PcieSt) (s : State) : (modPcie f s).ports = s.ports := by rfl
@[simp] theorem modPcie_tiles (f : PcieSt → PcieSt) (s : State) : (modPcie f s).tiles = s.tiles := by rfl
@[simp] theorem modPcie_takes (f : PcieSt → PcieSt) (s : State) : (modPcie f s).takes = s.takes := by rfl
@[simp] theorem modPcie_runs (f : PcieSt → PcieSt) (s : State) : (modPcie f s).runs = s.runs := by rfl
@[simp] theorem modPcie_captures (f : PcieSt → PcieSt) (s : State) : (modPcie f s).captures = s.captures := by rfl
@[simp] theorem modPcie_stalls (f : PcieSt → PcieSt) (s : State) : (modPcie f s).stalls = s.stalls := by rfl
@[simp] theorem modPcie_areas (f : PcieSt → PcieSt) (s : State) : (modPcie f s).areas = s.areas := by rfl
@[simp] theorem modPcie_work (f : PcieSt → PcieSt) (s : State) : (modPcie f s).work = s.work := by rfl
@[simp] theorem modPcie_syns (f : PcieSt → PcieSt) (s : State) : (modPcie f s).syns = s.syns := by rfl
@[simp] theorem modPcie_lanes (f : PcieSt → PcieSt) (s : State) : (modPcie f s).lanes = s.lanes := by rfl
@[simp] theorem modPcie_contRecs (f : PcieSt → PcieSt) (s : State) : (modPcie f s).contRecs = s.contRecs := by rfl
@[simp] theorem modPcie_contUse (f : PcieSt → PcieSt) (s : State) : (modPcie f s).contUse = s.contUse := by rfl
@[simp] theorem modPcie_contDrop (f : PcieSt → PcieSt) (s : State) : (modPcie f s).contDrop = s.contDrop := by rfl
@[simp] theorem modPcie_contEvict (f : PcieSt → PcieSt) (s : State) : (modPcie f s).contEvict = s.contEvict := by rfl
@[simp] theorem modPcie_contBad (f : PcieSt → PcieSt) (s : State) : (modPcie f s).contBad = s.contBad := by rfl
@[simp] theorem modPcie_contStale (f : PcieSt → PcieSt) (s : State) : (modPcie f s).contStale = s.contStale := by rfl
@[simp] theorem modPcie_contDue (f : PcieSt → PcieSt) (s : State) : (modPcie f s).contDue = s.contDue := by rfl
@[simp] theorem rd_modPcie (f : PcieSt → PcieSt) (s : State) (j : Nat) : rd (modPcie f s) j = rd s j := by rfl
@[simp] theorem rdView_modPcie (f : PcieSt → PcieSt) (s : State) (vw : View) (j : Nat) : rdView (modPcie f s) vw j = rdView s vw j := by rfl
@[simp] theorem linkOf_modPcie (f : PcieSt → PcieSt) (s : State) (j : Nat) : linkOf (modPcie f s) j = linkOf s j := by rfl
@[simp] theorem pairOf_modPcie (f : PcieSt → PcieSt) (s : State) (j : Nat) : pairOf (modPcie f s) j = pairOf s j := by rfl
@[simp] theorem portOf_modPcie (f : PcieSt → PcieSt) (s : State) (j : Nat) : portOf (modPcie f s) j = portOf s j := by rfl
@[simp] theorem tileOf_modPcie (f : PcieSt → PcieSt) (s : State) (j : Nat) : tileOf (modPcie f s) j = tileOf s j := by rfl
@[simp] theorem synOf_modPcie (f : PcieSt → PcieSt) (s : State) (j : Nat) : synOf (modPcie f s) j = synOf s j := by rfl
@[simp] theorem laneOf_modPcie (f : PcieSt → PcieSt) (s : State) (j : Nat) : laneOf (modPcie f s) j = laneOf s j := by rfl
@[simp] theorem domOf_modPcie (f : PcieSt → PcieSt) (s : State) (j : Nat) : domOf (modPcie f s) j = domOf s j := by rfl
@[simp] theorem runsOf_modPcie (f : PcieSt → PcieSt) (s : State) (j : Nat) : runsOf (modPcie f s) j = runsOf s j := by rfl
@[simp] theorem capsOf_modPcie (f : PcieSt → PcieSt) (s : State) (j : Nat) : capsOf (modPcie f s) j = capsOf s j := by rfl
@[simp] theorem modSp_pending (f : SpSt → SpSt) (s : State) : (modSp f s).pending = s.pending := by rfl
@[simp] theorem modSp_mode (f : SpSt → SpSt) (s : State) : (modSp f s).mode = s.mode := by rfl
@[simp] theorem modSp_time (f : SpSt → SpSt) (s : State) : (modSp f s).time = s.time := by rfl
@[simp] theorem modSp_regs (f : SpSt → SpSt) (s : State) : (modSp f s).regs = s.regs := by rfl
@[simp] theorem modSp_views (f : SpSt → SpSt) (s : State) : (modSp f s).views = s.views := by rfl
@[simp] theorem modSp_held (f : SpSt → SpSt) (s : State) : (modSp f s).held = s.held := by rfl
@[simp] theorem modSp_snapAt (f : SpSt → SpSt) (s : State) : (modSp f s).snapAt = s.snapAt := by rfl
@[simp] theorem modSp_snapOff (f : SpSt → SpSt) (s : State) : (modSp f s).snapOff = s.snapOff := by rfl
@[simp] theorem modSp_snapDone (f : SpSt → SpSt) (s : State) : (modSp f s).snapDone = s.snapDone := by rfl
@[simp] theorem modSp_perfWins (f : SpSt → SpSt) (s : State) : (modSp f s).perfWins = s.perfWins := by rfl
@[simp] theorem modSp_perfAcc (f : SpSt → SpSt) (s : State) : (modSp f s).perfAcc = s.perfAcc := by rfl
@[simp] theorem modSp_timeLatch (f : SpSt → SpSt) (s : State) : (modSp f s).timeLatch = s.timeLatch := by rfl
@[simp] theorem modSp_hostMem (f : SpSt → SpSt) (s : State) : (modSp f s).hostMem = s.hostMem := by rfl
@[simp] theorem modSp_out (f : SpSt → SpSt) (s : State) : (modSp f s).out = s.out := by rfl
@[simp] theorem modSp_fresh (f : SpSt → SpSt) (s : State) : (modSp f s).fresh = s.fresh := by rfl
@[simp] theorem modSp_cmd (f : SpSt → SpSt) (s : State) : (modSp f s).cmd = s.cmd := by rfl
@[simp] theorem modSp_evt (f : SpSt → SpSt) (s : State) : (modSp f s).evt = s.evt := by rfl
@[simp] theorem modSp_pcie (f : SpSt → SpSt) (s : State) : (modSp f s).pcie = s.pcie := by rfl
@[simp] theorem modSp_fw (f : SpSt → SpSt) (s : State) : (modSp f s).fw = s.fw := by rfl
@[simp] theorem modSp_offPending (f : SpSt → SpSt) (s : State) : (modSp f s).offPending = s.offPending := by rfl
@[simp] theorem modSp_hops (f : SpSt → SpSt) (s : State) : (modSp f s).hops = s.hops := by rfl
@[simp] theorem modSp_pulse (f : SpSt → SpSt) (s : State) : (modSp f s).pulse = s.pulse := by rfl
@[simp] theorem modSp_chain (f : SpSt → SpSt) (s : State) : (modSp f s).chain = s.chain := by rfl
@[simp] theorem modSp_muxes (f : SpSt → SpSt) (s : State) : (modSp f s).muxes = s.muxes := by rfl
@[simp] theorem modSp_muxFrozen (f : SpSt → SpSt) (s : State) : (modSp f s).muxFrozen = s.muxFrozen := by rfl
@[simp] theorem modSp_bcfg (f : SpSt → SpSt) (s : State) : (modSp f s).bcfg = s.bcfg := by rfl
@[simp] theorem modSp_rackBoot (f : SpSt → SpSt) (s : State) : (modSp f s).rackBoot = s.rackBoot := by rfl
@[simp] theorem modSp_badWords (f : SpSt → SpSt) (s : State) : (modSp f s).badWords = s.badWords := by rfl
@[simp] theorem modSp_corrAt (f : SpSt → SpSt) (s : State) : (modSp f s).corrAt = s.corrAt := by rfl
@[simp] theorem modSp_rootWords (f : SpSt → SpSt) (s : State) : (modSp f s).rootWords = s.rootWords := by rfl
@[simp] theorem modSp_rootWord (f : SpSt → SpSt) (s : State) : (modSp f s).rootWord = s.rootWord := by rfl
@[simp] theorem modSp_rootPending (f : SpSt → SpSt) (s : State) : (modSp f s).rootPending = s.rootPending := by rfl
@[simp] theorem modSp_badCores (f : SpSt → SpSt) (s : State) : (modSp f s).badCores = s.badCores := by rfl
@[simp] theorem modSp_spread (f : SpSt → SpSt) (s : State) : (modSp f s).spread = s.spread := by rfl
@[simp] theorem modSp_lastClap (f : SpSt → SpSt) (s : State) : (modSp f s).lastClap = s.lastClap := by rfl
@[simp] theorem modSp_doms (f : SpSt → SpSt) (s : State) : (modSp f s).doms = s.doms := by rfl
@[simp] theorem modSp_dips (f : SpSt → SpSt) (s : State) : (modSp f s).dips = s.dips := by rfl
@[simp] theorem modSp_plChanges (f : SpSt → SpSt) (s : State) : (modSp f s).plChanges = s.plChanges := by rfl
@[simp] theorem modSp_discards (f : SpSt → SpSt) (s : State) : (modSp f s).discards = s.discards := by rfl
@[simp] theorem modSp_temps (f : SpSt → SpSt) (s : State) : (modSp f s).temps = s.temps := by rfl
@[simp] theorem modSp_mram (f : SpSt → SpSt) (s : State) : (modSp f s).mram = s.mram := by rfl
@[simp] theorem modSp_sram (f : SpSt → SpSt) (s : State) : (modSp f s).sram = s.sram := by rfl
@[simp] theorem modSp_utilDiscard (f : SpSt → SpSt) (s : State) : (modSp f s).utilDiscard = s.utilDiscard := by rfl
@[simp] theorem modSp_links (f : SpSt → SpSt) (s : State) : (modSp f s).links = s.links := by rfl
@[simp] theorem modSp_pairs (f : SpSt → SpSt) (s : State) : (modSp f s).pairs = s.pairs := by rfl
@[simp] theorem modSp_ports (f : SpSt → SpSt) (s : State) : (modSp f s).ports = s.ports := by rfl
@[simp] theorem modSp_tiles (f : SpSt → SpSt) (s : State) : (modSp f s).tiles = s.tiles := by rfl
@[simp] theorem modSp_takes (f : SpSt → SpSt) (s : State) : (modSp f s).takes = s.takes := by rfl
@[simp] theorem modSp_runs (f : SpSt → SpSt) (s : State) : (modSp f s).runs = s.runs := by rfl
@[simp] theorem modSp_captures (f : SpSt → SpSt) (s : State) : (modSp f s).captures = s.captures := by rfl
@[simp] theorem modSp_stalls (f : SpSt → SpSt) (s : State) : (modSp f s).stalls = s.stalls := by rfl
@[simp] theorem modSp_areas (f : SpSt → SpSt) (s : State) : (modSp f s).areas = s.areas := by rfl
@[simp] theorem modSp_work (f : SpSt → SpSt) (s : State) : (modSp f s).work = s.work := by rfl
@[simp] theorem modSp_syns (f : SpSt → SpSt) (s : State) : (modSp f s).syns = s.syns := by rfl
@[simp] theorem modSp_lanes (f : SpSt → SpSt) (s : State) : (modSp f s).lanes = s.lanes := by rfl
@[simp] theorem modSp_contRecs (f : SpSt → SpSt) (s : State) : (modSp f s).contRecs = s.contRecs := by rfl
@[simp] theorem modSp_contUse (f : SpSt → SpSt) (s : State) : (modSp f s).contUse = s.contUse := by rfl
@[simp] theorem modSp_contDrop (f : SpSt → SpSt) (s : State) : (modSp f s).contDrop = s.contDrop := by rfl
@[simp] theorem modSp_contEvict (f : SpSt → SpSt) (s : State) : (modSp f s).contEvict = s.contEvict := by rfl
@[simp] theorem modSp_contBad (f : SpSt → SpSt) (s : State) : (modSp f s).contBad = s.contBad := by rfl
@[simp] theorem modSp_contStale (f : SpSt → SpSt) (s : State) : (modSp f s).contStale = s.contStale := by rfl
@[simp] theorem modSp_contDue (f : SpSt → SpSt) (s : State) : (modSp f s).contDue = s.contDue := by rfl
@[simp] theorem rd_modSp (f : SpSt → SpSt) (s : State) (j : Nat) : rd (modSp f s) j = rd s j := by rfl
@[simp] theorem rdView_modSp (f : SpSt → SpSt) (s : State) (vw : View) (j : Nat) : rdView (modSp f s) vw j = rdView s vw j := by rfl
@[simp] theorem linkOf_modSp (f : SpSt → SpSt) (s : State) (j : Nat) : linkOf (modSp f s) j = linkOf s j := by rfl
@[simp] theorem pairOf_modSp (f : SpSt → SpSt) (s : State) (j : Nat) : pairOf (modSp f s) j = pairOf s j := by rfl
@[simp] theorem portOf_modSp (f : SpSt → SpSt) (s : State) (j : Nat) : portOf (modSp f s) j = portOf s j := by rfl
@[simp] theorem tileOf_modSp (f : SpSt → SpSt) (s : State) (j : Nat) : tileOf (modSp f s) j = tileOf s j := by rfl
@[simp] theorem synOf_modSp (f : SpSt → SpSt) (s : State) (j : Nat) : synOf (modSp f s) j = synOf s j := by rfl
@[simp] theorem laneOf_modSp (f : SpSt → SpSt) (s : State) (j : Nat) : laneOf (modSp f s) j = laneOf s j := by rfl
@[simp] theorem domOf_modSp (f : SpSt → SpSt) (s : State) (j : Nat) : domOf (modSp f s) j = domOf s j := by rfl
@[simp] theorem runsOf_modSp (f : SpSt → SpSt) (s : State) (j : Nat) : runsOf (modSp f s) j = runsOf s j := by rfl
@[simp] theorem capsOf_modSp (f : SpSt → SpSt) (s : State) (j : Nat) : capsOf (modSp f s) j = capsOf s j := by rfl
@[simp] theorem modChain_pending (f : ChainSt → ChainSt) (s : State) : (modChain f s).pending = s.pending := by rfl
@[simp] theorem modChain_mode (f : ChainSt → ChainSt) (s : State) : (modChain f s).mode = s.mode := by rfl
@[simp] theorem modChain_time (f : ChainSt → ChainSt) (s : State) : (modChain f s).time = s.time := by rfl
@[simp] theorem modChain_regs (f : ChainSt → ChainSt) (s : State) : (modChain f s).regs = s.regs := by rfl
@[simp] theorem modChain_views (f : ChainSt → ChainSt) (s : State) : (modChain f s).views = s.views := by rfl
@[simp] theorem modChain_held (f : ChainSt → ChainSt) (s : State) : (modChain f s).held = s.held := by rfl
@[simp] theorem modChain_snapAt (f : ChainSt → ChainSt) (s : State) : (modChain f s).snapAt = s.snapAt := by rfl
@[simp] theorem modChain_snapOff (f : ChainSt → ChainSt) (s : State) : (modChain f s).snapOff = s.snapOff := by rfl
@[simp] theorem modChain_snapDone (f : ChainSt → ChainSt) (s : State) : (modChain f s).snapDone = s.snapDone := by rfl
@[simp] theorem modChain_perfWins (f : ChainSt → ChainSt) (s : State) : (modChain f s).perfWins = s.perfWins := by rfl
@[simp] theorem modChain_perfAcc (f : ChainSt → ChainSt) (s : State) : (modChain f s).perfAcc = s.perfAcc := by rfl
@[simp] theorem modChain_timeLatch (f : ChainSt → ChainSt) (s : State) : (modChain f s).timeLatch = s.timeLatch := by rfl
@[simp] theorem modChain_hostMem (f : ChainSt → ChainSt) (s : State) : (modChain f s).hostMem = s.hostMem := by rfl
@[simp] theorem modChain_out (f : ChainSt → ChainSt) (s : State) : (modChain f s).out = s.out := by rfl
@[simp] theorem modChain_fresh (f : ChainSt → ChainSt) (s : State) : (modChain f s).fresh = s.fresh := by rfl
@[simp] theorem modChain_cmd (f : ChainSt → ChainSt) (s : State) : (modChain f s).cmd = s.cmd := by rfl
@[simp] theorem modChain_evt (f : ChainSt → ChainSt) (s : State) : (modChain f s).evt = s.evt := by rfl
@[simp] theorem modChain_pcie (f : ChainSt → ChainSt) (s : State) : (modChain f s).pcie = s.pcie := by rfl
@[simp] theorem modChain_sp (f : ChainSt → ChainSt) (s : State) : (modChain f s).sp = s.sp := by rfl
@[simp] theorem modChain_fw (f : ChainSt → ChainSt) (s : State) : (modChain f s).fw = s.fw := by rfl
@[simp] theorem modChain_offPending (f : ChainSt → ChainSt) (s : State) : (modChain f s).offPending = s.offPending := by rfl
@[simp] theorem modChain_hops (f : ChainSt → ChainSt) (s : State) : (modChain f s).hops = s.hops := by rfl
@[simp] theorem modChain_pulse (f : ChainSt → ChainSt) (s : State) : (modChain f s).pulse = s.pulse := by rfl
@[simp] theorem modChain_muxes (f : ChainSt → ChainSt) (s : State) : (modChain f s).muxes = s.muxes := by rfl
@[simp] theorem modChain_muxFrozen (f : ChainSt → ChainSt) (s : State) : (modChain f s).muxFrozen = s.muxFrozen := by rfl
@[simp] theorem modChain_bcfg (f : ChainSt → ChainSt) (s : State) : (modChain f s).bcfg = s.bcfg := by rfl
@[simp] theorem modChain_rackBoot (f : ChainSt → ChainSt) (s : State) : (modChain f s).rackBoot = s.rackBoot := by rfl
@[simp] theorem modChain_badWords (f : ChainSt → ChainSt) (s : State) : (modChain f s).badWords = s.badWords := by rfl
@[simp] theorem modChain_corrAt (f : ChainSt → ChainSt) (s : State) : (modChain f s).corrAt = s.corrAt := by rfl
@[simp] theorem modChain_rootWords (f : ChainSt → ChainSt) (s : State) : (modChain f s).rootWords = s.rootWords := by rfl
@[simp] theorem modChain_rootWord (f : ChainSt → ChainSt) (s : State) : (modChain f s).rootWord = s.rootWord := by rfl
@[simp] theorem modChain_rootPending (f : ChainSt → ChainSt) (s : State) : (modChain f s).rootPending = s.rootPending := by rfl
@[simp] theorem modChain_badCores (f : ChainSt → ChainSt) (s : State) : (modChain f s).badCores = s.badCores := by rfl
@[simp] theorem modChain_spread (f : ChainSt → ChainSt) (s : State) : (modChain f s).spread = s.spread := by rfl
@[simp] theorem modChain_lastClap (f : ChainSt → ChainSt) (s : State) : (modChain f s).lastClap = s.lastClap := by rfl
@[simp] theorem modChain_doms (f : ChainSt → ChainSt) (s : State) : (modChain f s).doms = s.doms := by rfl
@[simp] theorem modChain_dips (f : ChainSt → ChainSt) (s : State) : (modChain f s).dips = s.dips := by rfl
@[simp] theorem modChain_plChanges (f : ChainSt → ChainSt) (s : State) : (modChain f s).plChanges = s.plChanges := by rfl
@[simp] theorem modChain_discards (f : ChainSt → ChainSt) (s : State) : (modChain f s).discards = s.discards := by rfl
@[simp] theorem modChain_temps (f : ChainSt → ChainSt) (s : State) : (modChain f s).temps = s.temps := by rfl
@[simp] theorem modChain_mram (f : ChainSt → ChainSt) (s : State) : (modChain f s).mram = s.mram := by rfl
@[simp] theorem modChain_sram (f : ChainSt → ChainSt) (s : State) : (modChain f s).sram = s.sram := by rfl
@[simp] theorem modChain_utilDiscard (f : ChainSt → ChainSt) (s : State) : (modChain f s).utilDiscard = s.utilDiscard := by rfl
@[simp] theorem modChain_links (f : ChainSt → ChainSt) (s : State) : (modChain f s).links = s.links := by rfl
@[simp] theorem modChain_pairs (f : ChainSt → ChainSt) (s : State) : (modChain f s).pairs = s.pairs := by rfl
@[simp] theorem modChain_ports (f : ChainSt → ChainSt) (s : State) : (modChain f s).ports = s.ports := by rfl
@[simp] theorem modChain_tiles (f : ChainSt → ChainSt) (s : State) : (modChain f s).tiles = s.tiles := by rfl
@[simp] theorem modChain_takes (f : ChainSt → ChainSt) (s : State) : (modChain f s).takes = s.takes := by rfl
@[simp] theorem modChain_runs (f : ChainSt → ChainSt) (s : State) : (modChain f s).runs = s.runs := by rfl
@[simp] theorem modChain_captures (f : ChainSt → ChainSt) (s : State) : (modChain f s).captures = s.captures := by rfl
@[simp] theorem modChain_stalls (f : ChainSt → ChainSt) (s : State) : (modChain f s).stalls = s.stalls := by rfl
@[simp] theorem modChain_areas (f : ChainSt → ChainSt) (s : State) : (modChain f s).areas = s.areas := by rfl
@[simp] theorem modChain_work (f : ChainSt → ChainSt) (s : State) : (modChain f s).work = s.work := by rfl
@[simp] theorem modChain_syns (f : ChainSt → ChainSt) (s : State) : (modChain f s).syns = s.syns := by rfl
@[simp] theorem modChain_lanes (f : ChainSt → ChainSt) (s : State) : (modChain f s).lanes = s.lanes := by rfl
@[simp] theorem modChain_contRecs (f : ChainSt → ChainSt) (s : State) : (modChain f s).contRecs = s.contRecs := by rfl
@[simp] theorem modChain_contUse (f : ChainSt → ChainSt) (s : State) : (modChain f s).contUse = s.contUse := by rfl
@[simp] theorem modChain_contDrop (f : ChainSt → ChainSt) (s : State) : (modChain f s).contDrop = s.contDrop := by rfl
@[simp] theorem modChain_contEvict (f : ChainSt → ChainSt) (s : State) : (modChain f s).contEvict = s.contEvict := by rfl
@[simp] theorem modChain_contBad (f : ChainSt → ChainSt) (s : State) : (modChain f s).contBad = s.contBad := by rfl
@[simp] theorem modChain_contStale (f : ChainSt → ChainSt) (s : State) : (modChain f s).contStale = s.contStale := by rfl
@[simp] theorem modChain_contDue (f : ChainSt → ChainSt) (s : State) : (modChain f s).contDue = s.contDue := by rfl
@[simp] theorem rd_modChain (f : ChainSt → ChainSt) (s : State) (j : Nat) : rd (modChain f s) j = rd s j := by rfl
@[simp] theorem rdView_modChain (f : ChainSt → ChainSt) (s : State) (vw : View) (j : Nat) : rdView (modChain f s) vw j = rdView s vw j := by rfl
@[simp] theorem linkOf_modChain (f : ChainSt → ChainSt) (s : State) (j : Nat) : linkOf (modChain f s) j = linkOf s j := by rfl
@[simp] theorem pairOf_modChain (f : ChainSt → ChainSt) (s : State) (j : Nat) : pairOf (modChain f s) j = pairOf s j := by rfl
@[simp] theorem portOf_modChain (f : ChainSt → ChainSt) (s : State) (j : Nat) : portOf (modChain f s) j = portOf s j := by rfl
@[simp] theorem tileOf_modChain (f : ChainSt → ChainSt) (s : State) (j : Nat) : tileOf (modChain f s) j = tileOf s j := by rfl
@[simp] theorem synOf_modChain (f : ChainSt → ChainSt) (s : State) (j : Nat) : synOf (modChain f s) j = synOf s j := by rfl
@[simp] theorem laneOf_modChain (f : ChainSt → ChainSt) (s : State) (j : Nat) : laneOf (modChain f s) j = laneOf s j := by rfl
@[simp] theorem domOf_modChain (f : ChainSt → ChainSt) (s : State) (j : Nat) : domOf (modChain f s) j = domOf s j := by rfl
@[simp] theorem runsOf_modChain (f : ChainSt → ChainSt) (s : State) (j : Nat) : runsOf (modChain f s) j = runsOf s j := by rfl
@[simp] theorem capsOf_modChain (f : ChainSt → ChainSt) (s : State) (j : Nat) : capsOf (modChain f s) j = capsOf s j := by rfl
@[simp] theorem putLink_pending (l : Nat) (x : LinkSt) (s : State) : (putLink l x s).pending = s.pending := by rfl
@[simp] theorem putLink_mode (l : Nat) (x : LinkSt) (s : State) : (putLink l x s).mode = s.mode := by rfl
@[simp] theorem putLink_time (l : Nat) (x : LinkSt) (s : State) : (putLink l x s).time = s.time := by rfl
@[simp] theorem putLink_regs (l : Nat) (x : LinkSt) (s : State) : (putLink l x s).regs = s.regs := by rfl
@[simp] theorem putLink_views (l : Nat) (x : LinkSt) (s : State) : (putLink l x s).views = s.views := by rfl
@[simp] theorem putLink_held (l : Nat) (x : LinkSt) (s : State) : (putLink l x s).held = s.held := by rfl
@[simp] theorem putLink_snapAt (l : Nat) (x : LinkSt) (s : State) : (putLink l x s).snapAt = s.snapAt := by rfl
@[simp] theorem putLink_snapOff (l : Nat) (x : LinkSt) (s : State) : (putLink l x s).snapOff = s.snapOff := by rfl
@[simp] theorem putLink_snapDone (l : Nat) (x : LinkSt) (s : State) : (putLink l x s).snapDone = s.snapDone := by rfl
@[simp] theorem putLink_perfWins (l : Nat) (x : LinkSt) (s : State) : (putLink l x s).perfWins = s.perfWins := by rfl
@[simp] theorem putLink_perfAcc (l : Nat) (x : LinkSt) (s : State) : (putLink l x s).perfAcc = s.perfAcc := by rfl
@[simp] theorem putLink_timeLatch (l : Nat) (x : LinkSt) (s : State) : (putLink l x s).timeLatch = s.timeLatch := by rfl
@[simp] theorem putLink_hostMem (l : Nat) (x : LinkSt) (s : State) : (putLink l x s).hostMem = s.hostMem := by rfl
@[simp] theorem putLink_out (l : Nat) (x : LinkSt) (s : State) : (putLink l x s).out = s.out := by rfl
@[simp] theorem putLink_fresh (l : Nat) (x : LinkSt) (s : State) : (putLink l x s).fresh = s.fresh := by rfl
@[simp] theorem putLink_cmd (l : Nat) (x : LinkSt) (s : State) : (putLink l x s).cmd = s.cmd := by rfl
@[simp] theorem putLink_evt (l : Nat) (x : LinkSt) (s : State) : (putLink l x s).evt = s.evt := by rfl
@[simp] theorem putLink_pcie (l : Nat) (x : LinkSt) (s : State) : (putLink l x s).pcie = s.pcie := by rfl
@[simp] theorem putLink_sp (l : Nat) (x : LinkSt) (s : State) : (putLink l x s).sp = s.sp := by rfl
@[simp] theorem putLink_fw (l : Nat) (x : LinkSt) (s : State) : (putLink l x s).fw = s.fw := by rfl
@[simp] theorem putLink_offPending (l : Nat) (x : LinkSt) (s : State) : (putLink l x s).offPending = s.offPending := by rfl
@[simp] theorem putLink_hops (l : Nat) (x : LinkSt) (s : State) : (putLink l x s).hops = s.hops := by rfl
@[simp] theorem putLink_pulse (l : Nat) (x : LinkSt) (s : State) : (putLink l x s).pulse = s.pulse := by rfl
@[simp] theorem putLink_chain (l : Nat) (x : LinkSt) (s : State) : (putLink l x s).chain = s.chain := by rfl
@[simp] theorem putLink_muxes (l : Nat) (x : LinkSt) (s : State) : (putLink l x s).muxes = s.muxes := by rfl
@[simp] theorem putLink_muxFrozen (l : Nat) (x : LinkSt) (s : State) : (putLink l x s).muxFrozen = s.muxFrozen := by rfl
@[simp] theorem putLink_bcfg (l : Nat) (x : LinkSt) (s : State) : (putLink l x s).bcfg = s.bcfg := by rfl
@[simp] theorem putLink_rackBoot (l : Nat) (x : LinkSt) (s : State) : (putLink l x s).rackBoot = s.rackBoot := by rfl
@[simp] theorem putLink_badWords (l : Nat) (x : LinkSt) (s : State) : (putLink l x s).badWords = s.badWords := by rfl
@[simp] theorem putLink_corrAt (l : Nat) (x : LinkSt) (s : State) : (putLink l x s).corrAt = s.corrAt := by rfl
@[simp] theorem putLink_rootWords (l : Nat) (x : LinkSt) (s : State) : (putLink l x s).rootWords = s.rootWords := by rfl
@[simp] theorem putLink_rootWord (l : Nat) (x : LinkSt) (s : State) : (putLink l x s).rootWord = s.rootWord := by rfl
@[simp] theorem putLink_rootPending (l : Nat) (x : LinkSt) (s : State) : (putLink l x s).rootPending = s.rootPending := by rfl
@[simp] theorem putLink_badCores (l : Nat) (x : LinkSt) (s : State) : (putLink l x s).badCores = s.badCores := by rfl
@[simp] theorem putLink_spread (l : Nat) (x : LinkSt) (s : State) : (putLink l x s).spread = s.spread := by rfl
@[simp] theorem putLink_lastClap (l : Nat) (x : LinkSt) (s : State) : (putLink l x s).lastClap = s.lastClap := by rfl
@[simp] theorem putLink_doms (l : Nat) (x : LinkSt) (s : State) : (putLink l x s).doms = s.doms := by rfl
@[simp] theorem putLink_dips (l : Nat) (x : LinkSt) (s : State) : (putLink l x s).dips = s.dips := by rfl
@[simp] theorem putLink_plChanges (l : Nat) (x : LinkSt) (s : State) : (putLink l x s).plChanges = s.plChanges := by rfl
@[simp] theorem putLink_discards (l : Nat) (x : LinkSt) (s : State) : (putLink l x s).discards = s.discards := by rfl
@[simp] theorem putLink_temps (l : Nat) (x : LinkSt) (s : State) : (putLink l x s).temps = s.temps := by rfl
@[simp] theorem putLink_mram (l : Nat) (x : LinkSt) (s : State) : (putLink l x s).mram = s.mram := by rfl
@[simp] theorem putLink_sram (l : Nat) (x : LinkSt) (s : State) : (putLink l x s).sram = s.sram := by rfl
@[simp] theorem putLink_utilDiscard (l : Nat) (x : LinkSt) (s : State) : (putLink l x s).utilDiscard = s.utilDiscard := by rfl
@[simp] theorem putLink_pairs (l : Nat) (x : LinkSt) (s : State) : (putLink l x s).pairs = s.pairs := by rfl
@[simp] theorem putLink_ports (l : Nat) (x : LinkSt) (s : State) : (putLink l x s).ports = s.ports := by rfl
@[simp] theorem putLink_tiles (l : Nat) (x : LinkSt) (s : State) : (putLink l x s).tiles = s.tiles := by rfl
@[simp] theorem putLink_takes (l : Nat) (x : LinkSt) (s : State) : (putLink l x s).takes = s.takes := by rfl
@[simp] theorem putLink_runs (l : Nat) (x : LinkSt) (s : State) : (putLink l x s).runs = s.runs := by rfl
@[simp] theorem putLink_captures (l : Nat) (x : LinkSt) (s : State) : (putLink l x s).captures = s.captures := by rfl
@[simp] theorem putLink_stalls (l : Nat) (x : LinkSt) (s : State) : (putLink l x s).stalls = s.stalls := by rfl
@[simp] theorem putLink_areas (l : Nat) (x : LinkSt) (s : State) : (putLink l x s).areas = s.areas := by rfl
@[simp] theorem putLink_work (l : Nat) (x : LinkSt) (s : State) : (putLink l x s).work = s.work := by rfl
@[simp] theorem putLink_syns (l : Nat) (x : LinkSt) (s : State) : (putLink l x s).syns = s.syns := by rfl
@[simp] theorem putLink_lanes (l : Nat) (x : LinkSt) (s : State) : (putLink l x s).lanes = s.lanes := by rfl
@[simp] theorem putLink_contRecs (l : Nat) (x : LinkSt) (s : State) : (putLink l x s).contRecs = s.contRecs := by rfl
@[simp] theorem putLink_contUse (l : Nat) (x : LinkSt) (s : State) : (putLink l x s).contUse = s.contUse := by rfl
@[simp] theorem putLink_contDrop (l : Nat) (x : LinkSt) (s : State) : (putLink l x s).contDrop = s.contDrop := by rfl
@[simp] theorem putLink_contEvict (l : Nat) (x : LinkSt) (s : State) : (putLink l x s).contEvict = s.contEvict := by rfl
@[simp] theorem putLink_contBad (l : Nat) (x : LinkSt) (s : State) : (putLink l x s).contBad = s.contBad := by rfl
@[simp] theorem putLink_contStale (l : Nat) (x : LinkSt) (s : State) : (putLink l x s).contStale = s.contStale := by rfl
@[simp] theorem putLink_contDue (l : Nat) (x : LinkSt) (s : State) : (putLink l x s).contDue = s.contDue := by rfl
@[simp] theorem rd_putLink (l : Nat) (x : LinkSt) (s : State) (j : Nat) : rd (putLink l x s) j = rd s j := by rfl
@[simp] theorem rdView_putLink (l : Nat) (x : LinkSt) (s : State) (vw : View) (j : Nat) : rdView (putLink l x s) vw j = rdView s vw j := by rfl
@[simp] theorem pairOf_putLink (l : Nat) (x : LinkSt) (s : State) (j : Nat) : pairOf (putLink l x s) j = pairOf s j := by rfl
@[simp] theorem portOf_putLink (l : Nat) (x : LinkSt) (s : State) (j : Nat) : portOf (putLink l x s) j = portOf s j := by rfl
@[simp] theorem tileOf_putLink (l : Nat) (x : LinkSt) (s : State) (j : Nat) : tileOf (putLink l x s) j = tileOf s j := by rfl
@[simp] theorem synOf_putLink (l : Nat) (x : LinkSt) (s : State) (j : Nat) : synOf (putLink l x s) j = synOf s j := by rfl
@[simp] theorem laneOf_putLink (l : Nat) (x : LinkSt) (s : State) (j : Nat) : laneOf (putLink l x s) j = laneOf s j := by rfl
@[simp] theorem domOf_putLink (l : Nat) (x : LinkSt) (s : State) (j : Nat) : domOf (putLink l x s) j = domOf s j := by rfl
@[simp] theorem runsOf_putLink (l : Nat) (x : LinkSt) (s : State) (j : Nat) : runsOf (putLink l x s) j = runsOf s j := by rfl
@[simp] theorem capsOf_putLink (l : Nat) (x : LinkSt) (s : State) (j : Nat) : capsOf (putLink l x s) j = capsOf s j := by rfl
@[simp] theorem modLink_pending (l : Nat) (f : LinkSt → LinkSt) (s : State) : (modLink l f s).pending = s.pending := by rfl
@[simp] theorem modLink_mode (l : Nat) (f : LinkSt → LinkSt) (s : State) : (modLink l f s).mode = s.mode := by rfl
@[simp] theorem modLink_time (l : Nat) (f : LinkSt → LinkSt) (s : State) : (modLink l f s).time = s.time := by rfl
@[simp] theorem modLink_regs (l : Nat) (f : LinkSt → LinkSt) (s : State) : (modLink l f s).regs = s.regs := by rfl
@[simp] theorem modLink_views (l : Nat) (f : LinkSt → LinkSt) (s : State) : (modLink l f s).views = s.views := by rfl
@[simp] theorem modLink_held (l : Nat) (f : LinkSt → LinkSt) (s : State) : (modLink l f s).held = s.held := by rfl
@[simp] theorem modLink_snapAt (l : Nat) (f : LinkSt → LinkSt) (s : State) : (modLink l f s).snapAt = s.snapAt := by rfl
@[simp] theorem modLink_snapOff (l : Nat) (f : LinkSt → LinkSt) (s : State) : (modLink l f s).snapOff = s.snapOff := by rfl
@[simp] theorem modLink_snapDone (l : Nat) (f : LinkSt → LinkSt) (s : State) : (modLink l f s).snapDone = s.snapDone := by rfl
@[simp] theorem modLink_perfWins (l : Nat) (f : LinkSt → LinkSt) (s : State) : (modLink l f s).perfWins = s.perfWins := by rfl
@[simp] theorem modLink_perfAcc (l : Nat) (f : LinkSt → LinkSt) (s : State) : (modLink l f s).perfAcc = s.perfAcc := by rfl
@[simp] theorem modLink_timeLatch (l : Nat) (f : LinkSt → LinkSt) (s : State) : (modLink l f s).timeLatch = s.timeLatch := by rfl
@[simp] theorem modLink_hostMem (l : Nat) (f : LinkSt → LinkSt) (s : State) : (modLink l f s).hostMem = s.hostMem := by rfl
@[simp] theorem modLink_out (l : Nat) (f : LinkSt → LinkSt) (s : State) : (modLink l f s).out = s.out := by rfl
@[simp] theorem modLink_fresh (l : Nat) (f : LinkSt → LinkSt) (s : State) : (modLink l f s).fresh = s.fresh := by rfl
@[simp] theorem modLink_cmd (l : Nat) (f : LinkSt → LinkSt) (s : State) : (modLink l f s).cmd = s.cmd := by rfl
@[simp] theorem modLink_evt (l : Nat) (f : LinkSt → LinkSt) (s : State) : (modLink l f s).evt = s.evt := by rfl
@[simp] theorem modLink_pcie (l : Nat) (f : LinkSt → LinkSt) (s : State) : (modLink l f s).pcie = s.pcie := by rfl
@[simp] theorem modLink_sp (l : Nat) (f : LinkSt → LinkSt) (s : State) : (modLink l f s).sp = s.sp := by rfl
@[simp] theorem modLink_fw (l : Nat) (f : LinkSt → LinkSt) (s : State) : (modLink l f s).fw = s.fw := by rfl
@[simp] theorem modLink_offPending (l : Nat) (f : LinkSt → LinkSt) (s : State) : (modLink l f s).offPending = s.offPending := by rfl
@[simp] theorem modLink_hops (l : Nat) (f : LinkSt → LinkSt) (s : State) : (modLink l f s).hops = s.hops := by rfl
@[simp] theorem modLink_pulse (l : Nat) (f : LinkSt → LinkSt) (s : State) : (modLink l f s).pulse = s.pulse := by rfl
@[simp] theorem modLink_chain (l : Nat) (f : LinkSt → LinkSt) (s : State) : (modLink l f s).chain = s.chain := by rfl
@[simp] theorem modLink_muxes (l : Nat) (f : LinkSt → LinkSt) (s : State) : (modLink l f s).muxes = s.muxes := by rfl
@[simp] theorem modLink_muxFrozen (l : Nat) (f : LinkSt → LinkSt) (s : State) : (modLink l f s).muxFrozen = s.muxFrozen := by rfl
@[simp] theorem modLink_bcfg (l : Nat) (f : LinkSt → LinkSt) (s : State) : (modLink l f s).bcfg = s.bcfg := by rfl
@[simp] theorem modLink_rackBoot (l : Nat) (f : LinkSt → LinkSt) (s : State) : (modLink l f s).rackBoot = s.rackBoot := by rfl
@[simp] theorem modLink_badWords (l : Nat) (f : LinkSt → LinkSt) (s : State) : (modLink l f s).badWords = s.badWords := by rfl
@[simp] theorem modLink_corrAt (l : Nat) (f : LinkSt → LinkSt) (s : State) : (modLink l f s).corrAt = s.corrAt := by rfl
@[simp] theorem modLink_rootWords (l : Nat) (f : LinkSt → LinkSt) (s : State) : (modLink l f s).rootWords = s.rootWords := by rfl
@[simp] theorem modLink_rootWord (l : Nat) (f : LinkSt → LinkSt) (s : State) : (modLink l f s).rootWord = s.rootWord := by rfl
@[simp] theorem modLink_rootPending (l : Nat) (f : LinkSt → LinkSt) (s : State) : (modLink l f s).rootPending = s.rootPending := by rfl
@[simp] theorem modLink_badCores (l : Nat) (f : LinkSt → LinkSt) (s : State) : (modLink l f s).badCores = s.badCores := by rfl
@[simp] theorem modLink_spread (l : Nat) (f : LinkSt → LinkSt) (s : State) : (modLink l f s).spread = s.spread := by rfl
@[simp] theorem modLink_lastClap (l : Nat) (f : LinkSt → LinkSt) (s : State) : (modLink l f s).lastClap = s.lastClap := by rfl
@[simp] theorem modLink_doms (l : Nat) (f : LinkSt → LinkSt) (s : State) : (modLink l f s).doms = s.doms := by rfl
@[simp] theorem modLink_dips (l : Nat) (f : LinkSt → LinkSt) (s : State) : (modLink l f s).dips = s.dips := by rfl
@[simp] theorem modLink_plChanges (l : Nat) (f : LinkSt → LinkSt) (s : State) : (modLink l f s).plChanges = s.plChanges := by rfl
@[simp] theorem modLink_discards (l : Nat) (f : LinkSt → LinkSt) (s : State) : (modLink l f s).discards = s.discards := by rfl
@[simp] theorem modLink_temps (l : Nat) (f : LinkSt → LinkSt) (s : State) : (modLink l f s).temps = s.temps := by rfl
@[simp] theorem modLink_mram (l : Nat) (f : LinkSt → LinkSt) (s : State) : (modLink l f s).mram = s.mram := by rfl
@[simp] theorem modLink_sram (l : Nat) (f : LinkSt → LinkSt) (s : State) : (modLink l f s).sram = s.sram := by rfl
@[simp] theorem modLink_utilDiscard (l : Nat) (f : LinkSt → LinkSt) (s : State) : (modLink l f s).utilDiscard = s.utilDiscard := by rfl
@[simp] theorem modLink_pairs (l : Nat) (f : LinkSt → LinkSt) (s : State) : (modLink l f s).pairs = s.pairs := by rfl
@[simp] theorem modLink_ports (l : Nat) (f : LinkSt → LinkSt) (s : State) : (modLink l f s).ports = s.ports := by rfl
@[simp] theorem modLink_tiles (l : Nat) (f : LinkSt → LinkSt) (s : State) : (modLink l f s).tiles = s.tiles := by rfl
@[simp] theorem modLink_takes (l : Nat) (f : LinkSt → LinkSt) (s : State) : (modLink l f s).takes = s.takes := by rfl
@[simp] theorem modLink_runs (l : Nat) (f : LinkSt → LinkSt) (s : State) : (modLink l f s).runs = s.runs := by rfl
@[simp] theorem modLink_captures (l : Nat) (f : LinkSt → LinkSt) (s : State) : (modLink l f s).captures = s.captures := by rfl
@[simp] theorem modLink_stalls (l : Nat) (f : LinkSt → LinkSt) (s : State) : (modLink l f s).stalls = s.stalls := by rfl
@[simp] theorem modLink_areas (l : Nat) (f : LinkSt → LinkSt) (s : State) : (modLink l f s).areas = s.areas := by rfl
@[simp] theorem modLink_work (l : Nat) (f : LinkSt → LinkSt) (s : State) : (modLink l f s).work = s.work := by rfl
@[simp] theorem modLink_syns (l : Nat) (f : LinkSt → LinkSt) (s : State) : (modLink l f s).syns = s.syns := by rfl
@[simp] theorem modLink_lanes (l : Nat) (f : LinkSt → LinkSt) (s : State) : (modLink l f s).lanes = s.lanes := by rfl
@[simp] theorem modLink_contRecs (l : Nat) (f : LinkSt → LinkSt) (s : State) : (modLink l f s).contRecs = s.contRecs := by rfl
@[simp] theorem modLink_contUse (l : Nat) (f : LinkSt → LinkSt) (s : State) : (modLink l f s).contUse = s.contUse := by rfl
@[simp] theorem modLink_contDrop (l : Nat) (f : LinkSt → LinkSt) (s : State) : (modLink l f s).contDrop = s.contDrop := by rfl
@[simp] theorem modLink_contEvict (l : Nat) (f : LinkSt → LinkSt) (s : State) : (modLink l f s).contEvict = s.contEvict := by rfl
@[simp] theorem modLink_contBad (l : Nat) (f : LinkSt → LinkSt) (s : State) : (modLink l f s).contBad = s.contBad := by rfl
@[simp] theorem modLink_contStale (l : Nat) (f : LinkSt → LinkSt) (s : State) : (modLink l f s).contStale = s.contStale := by rfl
@[simp] theorem modLink_contDue (l : Nat) (f : LinkSt → LinkSt) (s : State) : (modLink l f s).contDue = s.contDue := by rfl
@[simp] theorem rd_modLink (l : Nat) (f : LinkSt → LinkSt) (s : State) (j : Nat) : rd (modLink l f s) j = rd s j := by rfl
@[simp] theorem rdView_modLink (l : Nat) (f : LinkSt → LinkSt) (s : State) (vw : View) (j : Nat) : rdView (modLink l f s) vw j = rdView s vw j := by rfl
@[simp] theorem pairOf_modLink (l : Nat) (f : LinkSt → LinkSt) (s : State) (j : Nat) : pairOf (modLink l f s) j = pairOf s j := by rfl
@[simp] theorem portOf_modLink (l : Nat) (f : LinkSt → LinkSt) (s : State) (j : Nat) : portOf (modLink l f s) j = portOf s j := by rfl
@[simp] theorem tileOf_modLink (l : Nat) (f : LinkSt → LinkSt) (s : State) (j : Nat) : tileOf (modLink l f s) j = tileOf s j := by rfl
@[simp] theorem synOf_modLink (l : Nat) (f : LinkSt → LinkSt) (s : State) (j : Nat) : synOf (modLink l f s) j = synOf s j := by rfl
@[simp] theorem laneOf_modLink (l : Nat) (f : LinkSt → LinkSt) (s : State) (j : Nat) : laneOf (modLink l f s) j = laneOf s j := by rfl
@[simp] theorem domOf_modLink (l : Nat) (f : LinkSt → LinkSt) (s : State) (j : Nat) : domOf (modLink l f s) j = domOf s j := by rfl
@[simp] theorem runsOf_modLink (l : Nat) (f : LinkSt → LinkSt) (s : State) (j : Nat) : runsOf (modLink l f s) j = runsOf s j := by rfl
@[simp] theorem capsOf_modLink (l : Nat) (f : LinkSt → LinkSt) (s : State) (j : Nat) : capsOf (modLink l f s) j = capsOf s j := by rfl
@[simp] theorem putPair_pending (l : Nat) (x : PairSt) (s : State) : (putPair l x s).pending = s.pending := by rfl
@[simp] theorem putPair_mode (l : Nat) (x : PairSt) (s : State) : (putPair l x s).mode = s.mode := by rfl
@[simp] theorem putPair_time (l : Nat) (x : PairSt) (s : State) : (putPair l x s).time = s.time := by rfl
@[simp] theorem putPair_regs (l : Nat) (x : PairSt) (s : State) : (putPair l x s).regs = s.regs := by rfl
@[simp] theorem putPair_views (l : Nat) (x : PairSt) (s : State) : (putPair l x s).views = s.views := by rfl
@[simp] theorem putPair_held (l : Nat) (x : PairSt) (s : State) : (putPair l x s).held = s.held := by rfl
@[simp] theorem putPair_snapAt (l : Nat) (x : PairSt) (s : State) : (putPair l x s).snapAt = s.snapAt := by rfl
@[simp] theorem putPair_snapOff (l : Nat) (x : PairSt) (s : State) : (putPair l x s).snapOff = s.snapOff := by rfl
@[simp] theorem putPair_snapDone (l : Nat) (x : PairSt) (s : State) : (putPair l x s).snapDone = s.snapDone := by rfl
@[simp] theorem putPair_perfWins (l : Nat) (x : PairSt) (s : State) : (putPair l x s).perfWins = s.perfWins := by rfl
@[simp] theorem putPair_perfAcc (l : Nat) (x : PairSt) (s : State) : (putPair l x s).perfAcc = s.perfAcc := by rfl
@[simp] theorem putPair_timeLatch (l : Nat) (x : PairSt) (s : State) : (putPair l x s).timeLatch = s.timeLatch := by rfl
@[simp] theorem putPair_hostMem (l : Nat) (x : PairSt) (s : State) : (putPair l x s).hostMem = s.hostMem := by rfl
@[simp] theorem putPair_out (l : Nat) (x : PairSt) (s : State) : (putPair l x s).out = s.out := by rfl
@[simp] theorem putPair_fresh (l : Nat) (x : PairSt) (s : State) : (putPair l x s).fresh = s.fresh := by rfl
@[simp] theorem putPair_cmd (l : Nat) (x : PairSt) (s : State) : (putPair l x s).cmd = s.cmd := by rfl
@[simp] theorem putPair_evt (l : Nat) (x : PairSt) (s : State) : (putPair l x s).evt = s.evt := by rfl
@[simp] theorem putPair_pcie (l : Nat) (x : PairSt) (s : State) : (putPair l x s).pcie = s.pcie := by rfl
@[simp] theorem putPair_sp (l : Nat) (x : PairSt) (s : State) : (putPair l x s).sp = s.sp := by rfl
@[simp] theorem putPair_fw (l : Nat) (x : PairSt) (s : State) : (putPair l x s).fw = s.fw := by rfl
@[simp] theorem putPair_offPending (l : Nat) (x : PairSt) (s : State) : (putPair l x s).offPending = s.offPending := by rfl
@[simp] theorem putPair_hops (l : Nat) (x : PairSt) (s : State) : (putPair l x s).hops = s.hops := by rfl
@[simp] theorem putPair_pulse (l : Nat) (x : PairSt) (s : State) : (putPair l x s).pulse = s.pulse := by rfl
@[simp] theorem putPair_chain (l : Nat) (x : PairSt) (s : State) : (putPair l x s).chain = s.chain := by rfl
@[simp] theorem putPair_muxes (l : Nat) (x : PairSt) (s : State) : (putPair l x s).muxes = s.muxes := by rfl
@[simp] theorem putPair_muxFrozen (l : Nat) (x : PairSt) (s : State) : (putPair l x s).muxFrozen = s.muxFrozen := by rfl
@[simp] theorem putPair_bcfg (l : Nat) (x : PairSt) (s : State) : (putPair l x s).bcfg = s.bcfg := by rfl
@[simp] theorem putPair_rackBoot (l : Nat) (x : PairSt) (s : State) : (putPair l x s).rackBoot = s.rackBoot := by rfl
@[simp] theorem putPair_badWords (l : Nat) (x : PairSt) (s : State) : (putPair l x s).badWords = s.badWords := by rfl
@[simp] theorem putPair_corrAt (l : Nat) (x : PairSt) (s : State) : (putPair l x s).corrAt = s.corrAt := by rfl
@[simp] theorem putPair_rootWords (l : Nat) (x : PairSt) (s : State) : (putPair l x s).rootWords = s.rootWords := by rfl
@[simp] theorem putPair_rootWord (l : Nat) (x : PairSt) (s : State) : (putPair l x s).rootWord = s.rootWord := by rfl
@[simp] theorem putPair_rootPending (l : Nat) (x : PairSt) (s : State) : (putPair l x s).rootPending = s.rootPending := by rfl
@[simp] theorem putPair_badCores (l : Nat) (x : PairSt) (s : State) : (putPair l x s).badCores = s.badCores := by rfl
@[simp] theorem putPair_spread (l : Nat) (x : PairSt) (s : State) : (putPair l x s).spread = s.spread := by rfl
@[simp] theorem putPair_lastClap (l : Nat) (x : PairSt) (s : State) : (putPair l x s).lastClap = s.lastClap := by rfl
@[simp] theorem putPair_doms (l : Nat) (x : PairSt) (s : State) : (putPair l x s).doms = s.doms := by rfl
@[simp] theorem putPair_dips (l : Nat) (x : PairSt) (s : State) : (putPair l x s).dips = s.dips := by rfl
@[simp] theorem putPair_plChanges (l : Nat) (x : PairSt) (s : State) : (putPair l x s).plChanges = s.plChanges := by rfl
@[simp] theorem putPair_discards (l : Nat) (x : PairSt) (s : State) : (putPair l x s).discards = s.discards := by rfl
@[simp] theorem putPair_temps (l : Nat) (x : PairSt) (s : State) : (putPair l x s).temps = s.temps := by rfl
@[simp] theorem putPair_mram (l : Nat) (x : PairSt) (s : State) : (putPair l x s).mram = s.mram := by rfl
@[simp] theorem putPair_sram (l : Nat) (x : PairSt) (s : State) : (putPair l x s).sram = s.sram := by rfl
@[simp] theorem putPair_utilDiscard (l : Nat) (x : PairSt) (s : State) : (putPair l x s).utilDiscard = s.utilDiscard := by rfl
@[simp] theorem putPair_links (l : Nat) (x : PairSt) (s : State) : (putPair l x s).links = s.links := by rfl
@[simp] theorem putPair_ports (l : Nat) (x : PairSt) (s : State) : (putPair l x s).ports = s.ports := by rfl
@[simp] theorem putPair_tiles (l : Nat) (x : PairSt) (s : State) : (putPair l x s).tiles = s.tiles := by rfl
@[simp] theorem putPair_takes (l : Nat) (x : PairSt) (s : State) : (putPair l x s).takes = s.takes := by rfl
@[simp] theorem putPair_runs (l : Nat) (x : PairSt) (s : State) : (putPair l x s).runs = s.runs := by rfl
@[simp] theorem putPair_captures (l : Nat) (x : PairSt) (s : State) : (putPair l x s).captures = s.captures := by rfl
@[simp] theorem putPair_stalls (l : Nat) (x : PairSt) (s : State) : (putPair l x s).stalls = s.stalls := by rfl
@[simp] theorem putPair_areas (l : Nat) (x : PairSt) (s : State) : (putPair l x s).areas = s.areas := by rfl
@[simp] theorem putPair_work (l : Nat) (x : PairSt) (s : State) : (putPair l x s).work = s.work := by rfl
@[simp] theorem putPair_syns (l : Nat) (x : PairSt) (s : State) : (putPair l x s).syns = s.syns := by rfl
@[simp] theorem putPair_lanes (l : Nat) (x : PairSt) (s : State) : (putPair l x s).lanes = s.lanes := by rfl
@[simp] theorem putPair_contRecs (l : Nat) (x : PairSt) (s : State) : (putPair l x s).contRecs = s.contRecs := by rfl
@[simp] theorem putPair_contUse (l : Nat) (x : PairSt) (s : State) : (putPair l x s).contUse = s.contUse := by rfl
@[simp] theorem putPair_contDrop (l : Nat) (x : PairSt) (s : State) : (putPair l x s).contDrop = s.contDrop := by rfl
@[simp] theorem putPair_contEvict (l : Nat) (x : PairSt) (s : State) : (putPair l x s).contEvict = s.contEvict := by rfl
@[simp] theorem putPair_contBad (l : Nat) (x : PairSt) (s : State) : (putPair l x s).contBad = s.contBad := by rfl
@[simp] theorem putPair_contStale (l : Nat) (x : PairSt) (s : State) : (putPair l x s).contStale = s.contStale := by rfl
@[simp] theorem putPair_contDue (l : Nat) (x : PairSt) (s : State) : (putPair l x s).contDue = s.contDue := by rfl
@[simp] theorem rd_putPair (l : Nat) (x : PairSt) (s : State) (j : Nat) : rd (putPair l x s) j = rd s j := by rfl
@[simp] theorem rdView_putPair (l : Nat) (x : PairSt) (s : State) (vw : View) (j : Nat) : rdView (putPair l x s) vw j = rdView s vw j := by rfl
@[simp] theorem linkOf_putPair (l : Nat) (x : PairSt) (s : State) (j : Nat) : linkOf (putPair l x s) j = linkOf s j := by rfl
@[simp] theorem portOf_putPair (l : Nat) (x : PairSt) (s : State) (j : Nat) : portOf (putPair l x s) j = portOf s j := by rfl
@[simp] theorem tileOf_putPair (l : Nat) (x : PairSt) (s : State) (j : Nat) : tileOf (putPair l x s) j = tileOf s j := by rfl
@[simp] theorem synOf_putPair (l : Nat) (x : PairSt) (s : State) (j : Nat) : synOf (putPair l x s) j = synOf s j := by rfl
@[simp] theorem laneOf_putPair (l : Nat) (x : PairSt) (s : State) (j : Nat) : laneOf (putPair l x s) j = laneOf s j := by rfl
@[simp] theorem domOf_putPair (l : Nat) (x : PairSt) (s : State) (j : Nat) : domOf (putPair l x s) j = domOf s j := by rfl
@[simp] theorem runsOf_putPair (l : Nat) (x : PairSt) (s : State) (j : Nat) : runsOf (putPair l x s) j = runsOf s j := by rfl
@[simp] theorem capsOf_putPair (l : Nat) (x : PairSt) (s : State) (j : Nat) : capsOf (putPair l x s) j = capsOf s j := by rfl
@[simp] theorem modPair_pending (l : Nat) (f : PairSt → PairSt) (s : State) : (modPair l f s).pending = s.pending := by rfl
@[simp] theorem modPair_mode (l : Nat) (f : PairSt → PairSt) (s : State) : (modPair l f s).mode = s.mode := by rfl
@[simp] theorem modPair_time (l : Nat) (f : PairSt → PairSt) (s : State) : (modPair l f s).time = s.time := by rfl
@[simp] theorem modPair_regs (l : Nat) (f : PairSt → PairSt) (s : State) : (modPair l f s).regs = s.regs := by rfl
@[simp] theorem modPair_views (l : Nat) (f : PairSt → PairSt) (s : State) : (modPair l f s).views = s.views := by rfl
@[simp] theorem modPair_held (l : Nat) (f : PairSt → PairSt) (s : State) : (modPair l f s).held = s.held := by rfl
@[simp] theorem modPair_snapAt (l : Nat) (f : PairSt → PairSt) (s : State) : (modPair l f s).snapAt = s.snapAt := by rfl
@[simp] theorem modPair_snapOff (l : Nat) (f : PairSt → PairSt) (s : State) : (modPair l f s).snapOff = s.snapOff := by rfl
@[simp] theorem modPair_snapDone (l : Nat) (f : PairSt → PairSt) (s : State) : (modPair l f s).snapDone = s.snapDone := by rfl
@[simp] theorem modPair_perfWins (l : Nat) (f : PairSt → PairSt) (s : State) : (modPair l f s).perfWins = s.perfWins := by rfl
@[simp] theorem modPair_perfAcc (l : Nat) (f : PairSt → PairSt) (s : State) : (modPair l f s).perfAcc = s.perfAcc := by rfl
@[simp] theorem modPair_timeLatch (l : Nat) (f : PairSt → PairSt) (s : State) : (modPair l f s).timeLatch = s.timeLatch := by rfl
@[simp] theorem modPair_hostMem (l : Nat) (f : PairSt → PairSt) (s : State) : (modPair l f s).hostMem = s.hostMem := by rfl
@[simp] theorem modPair_out (l : Nat) (f : PairSt → PairSt) (s : State) : (modPair l f s).out = s.out := by rfl
@[simp] theorem modPair_fresh (l : Nat) (f : PairSt → PairSt) (s : State) : (modPair l f s).fresh = s.fresh := by rfl
@[simp] theorem modPair_cmd (l : Nat) (f : PairSt → PairSt) (s : State) : (modPair l f s).cmd = s.cmd := by rfl
@[simp] theorem modPair_evt (l : Nat) (f : PairSt → PairSt) (s : State) : (modPair l f s).evt = s.evt := by rfl
@[simp] theorem modPair_pcie (l : Nat) (f : PairSt → PairSt) (s : State) : (modPair l f s).pcie = s.pcie := by rfl
@[simp] theorem modPair_sp (l : Nat) (f : PairSt → PairSt) (s : State) : (modPair l f s).sp = s.sp := by rfl
@[simp] theorem modPair_fw (l : Nat) (f : PairSt → PairSt) (s : State) : (modPair l f s).fw = s.fw := by rfl
@[simp] theorem modPair_offPending (l : Nat) (f : PairSt → PairSt) (s : State) : (modPair l f s).offPending = s.offPending := by rfl
@[simp] theorem modPair_hops (l : Nat) (f : PairSt → PairSt) (s : State) : (modPair l f s).hops = s.hops := by rfl
@[simp] theorem modPair_pulse (l : Nat) (f : PairSt → PairSt) (s : State) : (modPair l f s).pulse = s.pulse := by rfl
@[simp] theorem modPair_chain (l : Nat) (f : PairSt → PairSt) (s : State) : (modPair l f s).chain = s.chain := by rfl
@[simp] theorem modPair_muxes (l : Nat) (f : PairSt → PairSt) (s : State) : (modPair l f s).muxes = s.muxes := by rfl
@[simp] theorem modPair_muxFrozen (l : Nat) (f : PairSt → PairSt) (s : State) : (modPair l f s).muxFrozen = s.muxFrozen := by rfl
@[simp] theorem modPair_bcfg (l : Nat) (f : PairSt → PairSt) (s : State) : (modPair l f s).bcfg = s.bcfg := by rfl
@[simp] theorem modPair_rackBoot (l : Nat) (f : PairSt → PairSt) (s : State) : (modPair l f s).rackBoot = s.rackBoot := by rfl
@[simp] theorem modPair_badWords (l : Nat) (f : PairSt → PairSt) (s : State) : (modPair l f s).badWords = s.badWords := by rfl
@[simp] theorem modPair_corrAt (l : Nat) (f : PairSt → PairSt) (s : State) : (modPair l f s).corrAt = s.corrAt := by rfl
@[simp] theorem modPair_rootWords (l : Nat) (f : PairSt → PairSt) (s : State) : (modPair l f s).rootWords = s.rootWords := by rfl
@[simp] theorem modPair_rootWord (l : Nat) (f : PairSt → PairSt) (s : State) : (modPair l f s).rootWord = s.rootWord := by rfl
@[simp] theorem modPair_rootPending (l : Nat) (f : PairSt → PairSt) (s : State) : (modPair l f s).rootPending = s.rootPending := by rfl
@[simp] theorem modPair_badCores (l : Nat) (f : PairSt → PairSt) (s : State) : (modPair l f s).badCores = s.badCores := by rfl
@[simp] theorem modPair_spread (l : Nat) (f : PairSt → PairSt) (s : State) : (modPair l f s).spread = s.spread := by rfl
@[simp] theorem modPair_lastClap (l : Nat) (f : PairSt → PairSt) (s : State) : (modPair l f s).lastClap = s.lastClap := by rfl
@[simp] theorem modPair_doms (l : Nat) (f : PairSt → PairSt) (s : State) : (modPair l f s).doms = s.doms := by rfl
@[simp] theorem modPair_dips (l : Nat) (f : PairSt → PairSt) (s : State) : (modPair l f s).dips = s.dips := by rfl
@[simp] theorem modPair_plChanges (l : Nat) (f : PairSt → PairSt) (s : State) : (modPair l f s).plChanges = s.plChanges := by rfl
@[simp] theorem modPair_discards (l : Nat) (f : PairSt → PairSt) (s : State) : (modPair l f s).discards = s.discards := by rfl
@[simp] theorem modPair_temps (l : Nat) (f : PairSt → PairSt) (s : State) : (modPair l f s).temps = s.temps := by rfl
@[simp] theorem modPair_mram (l : Nat) (f : PairSt → PairSt) (s : State) : (modPair l f s).mram = s.mram := by rfl
@[simp] theorem modPair_sram (l : Nat) (f : PairSt → PairSt) (s : State) : (modPair l f s).sram = s.sram := by rfl
@[simp] theorem modPair_utilDiscard (l : Nat) (f : PairSt → PairSt) (s : State) : (modPair l f s).utilDiscard = s.utilDiscard := by rfl
@[simp] theorem modPair_links (l : Nat) (f : PairSt → PairSt) (s : State) : (modPair l f s).links = s.links := by rfl
@[simp] theorem modPair_ports (l : Nat) (f : PairSt → PairSt) (s : State) : (modPair l f s).ports = s.ports := by rfl
@[simp] theorem modPair_tiles (l : Nat) (f : PairSt → PairSt) (s : State) : (modPair l f s).tiles = s.tiles := by rfl
@[simp] theorem modPair_takes (l : Nat) (f : PairSt → PairSt) (s : State) : (modPair l f s).takes = s.takes := by rfl
@[simp] theorem modPair_runs (l : Nat) (f : PairSt → PairSt) (s : State) : (modPair l f s).runs = s.runs := by rfl
@[simp] theorem modPair_captures (l : Nat) (f : PairSt → PairSt) (s : State) : (modPair l f s).captures = s.captures := by rfl
@[simp] theorem modPair_stalls (l : Nat) (f : PairSt → PairSt) (s : State) : (modPair l f s).stalls = s.stalls := by rfl
@[simp] theorem modPair_areas (l : Nat) (f : PairSt → PairSt) (s : State) : (modPair l f s).areas = s.areas := by rfl
@[simp] theorem modPair_work (l : Nat) (f : PairSt → PairSt) (s : State) : (modPair l f s).work = s.work := by rfl
@[simp] theorem modPair_syns (l : Nat) (f : PairSt → PairSt) (s : State) : (modPair l f s).syns = s.syns := by rfl
@[simp] theorem modPair_lanes (l : Nat) (f : PairSt → PairSt) (s : State) : (modPair l f s).lanes = s.lanes := by rfl
@[simp] theorem modPair_contRecs (l : Nat) (f : PairSt → PairSt) (s : State) : (modPair l f s).contRecs = s.contRecs := by rfl
@[simp] theorem modPair_contUse (l : Nat) (f : PairSt → PairSt) (s : State) : (modPair l f s).contUse = s.contUse := by rfl
@[simp] theorem modPair_contDrop (l : Nat) (f : PairSt → PairSt) (s : State) : (modPair l f s).contDrop = s.contDrop := by rfl
@[simp] theorem modPair_contEvict (l : Nat) (f : PairSt → PairSt) (s : State) : (modPair l f s).contEvict = s.contEvict := by rfl
@[simp] theorem modPair_contBad (l : Nat) (f : PairSt → PairSt) (s : State) : (modPair l f s).contBad = s.contBad := by rfl
@[simp] theorem modPair_contStale (l : Nat) (f : PairSt → PairSt) (s : State) : (modPair l f s).contStale = s.contStale := by rfl
@[simp] theorem modPair_contDue (l : Nat) (f : PairSt → PairSt) (s : State) : (modPair l f s).contDue = s.contDue := by rfl
@[simp] theorem rd_modPair (l : Nat) (f : PairSt → PairSt) (s : State) (j : Nat) : rd (modPair l f s) j = rd s j := by rfl
@[simp] theorem rdView_modPair (l : Nat) (f : PairSt → PairSt) (s : State) (vw : View) (j : Nat) : rdView (modPair l f s) vw j = rdView s vw j := by rfl
@[simp] theorem linkOf_modPair (l : Nat) (f : PairSt → PairSt) (s : State) (j : Nat) : linkOf (modPair l f s) j = linkOf s j := by rfl
@[simp] theorem portOf_modPair (l : Nat) (f : PairSt → PairSt) (s : State) (j : Nat) : portOf (modPair l f s) j = portOf s j := by rfl
@[simp] theorem tileOf_modPair (l : Nat) (f : PairSt → PairSt) (s : State) (j : Nat) : tileOf (modPair l f s) j = tileOf s j := by rfl
@[simp] theorem synOf_modPair (l : Nat) (f : PairSt → PairSt) (s : State) (j : Nat) : synOf (modPair l f s) j = synOf s j := by rfl
@[simp] theorem laneOf_modPair (l : Nat) (f : PairSt → PairSt) (s : State) (j : Nat) : laneOf (modPair l f s) j = laneOf s j := by rfl
@[simp] theorem domOf_modPair (l : Nat) (f : PairSt → PairSt) (s : State) (j : Nat) : domOf (modPair l f s) j = domOf s j := by rfl
@[simp] theorem runsOf_modPair (l : Nat) (f : PairSt → PairSt) (s : State) (j : Nat) : runsOf (modPair l f s) j = runsOf s j := by rfl
@[simp] theorem capsOf_modPair (l : Nat) (f : PairSt → PairSt) (s : State) (j : Nat) : capsOf (modPair l f s) j = capsOf s j := by rfl
@[simp] theorem modPort_pending (p : Nat) (f : PortSt → PortSt) (s : State) : (modPort p f s).pending = s.pending := by rfl
@[simp] theorem modPort_mode (p : Nat) (f : PortSt → PortSt) (s : State) : (modPort p f s).mode = s.mode := by rfl
@[simp] theorem modPort_time (p : Nat) (f : PortSt → PortSt) (s : State) : (modPort p f s).time = s.time := by rfl
@[simp] theorem modPort_regs (p : Nat) (f : PortSt → PortSt) (s : State) : (modPort p f s).regs = s.regs := by rfl
@[simp] theorem modPort_views (p : Nat) (f : PortSt → PortSt) (s : State) : (modPort p f s).views = s.views := by rfl
@[simp] theorem modPort_held (p : Nat) (f : PortSt → PortSt) (s : State) : (modPort p f s).held = s.held := by rfl
@[simp] theorem modPort_snapAt (p : Nat) (f : PortSt → PortSt) (s : State) : (modPort p f s).snapAt = s.snapAt := by rfl
@[simp] theorem modPort_snapOff (p : Nat) (f : PortSt → PortSt) (s : State) : (modPort p f s).snapOff = s.snapOff := by rfl
@[simp] theorem modPort_snapDone (p : Nat) (f : PortSt → PortSt) (s : State) : (modPort p f s).snapDone = s.snapDone := by rfl
@[simp] theorem modPort_perfWins (p : Nat) (f : PortSt → PortSt) (s : State) : (modPort p f s).perfWins = s.perfWins := by rfl
@[simp] theorem modPort_perfAcc (p : Nat) (f : PortSt → PortSt) (s : State) : (modPort p f s).perfAcc = s.perfAcc := by rfl
@[simp] theorem modPort_timeLatch (p : Nat) (f : PortSt → PortSt) (s : State) : (modPort p f s).timeLatch = s.timeLatch := by rfl
@[simp] theorem modPort_hostMem (p : Nat) (f : PortSt → PortSt) (s : State) : (modPort p f s).hostMem = s.hostMem := by rfl
@[simp] theorem modPort_out (p : Nat) (f : PortSt → PortSt) (s : State) : (modPort p f s).out = s.out := by rfl
@[simp] theorem modPort_fresh (p : Nat) (f : PortSt → PortSt) (s : State) : (modPort p f s).fresh = s.fresh := by rfl
@[simp] theorem modPort_cmd (p : Nat) (f : PortSt → PortSt) (s : State) : (modPort p f s).cmd = s.cmd := by rfl
@[simp] theorem modPort_evt (p : Nat) (f : PortSt → PortSt) (s : State) : (modPort p f s).evt = s.evt := by rfl
@[simp] theorem modPort_pcie (p : Nat) (f : PortSt → PortSt) (s : State) : (modPort p f s).pcie = s.pcie := by rfl
@[simp] theorem modPort_sp (p : Nat) (f : PortSt → PortSt) (s : State) : (modPort p f s).sp = s.sp := by rfl
@[simp] theorem modPort_fw (p : Nat) (f : PortSt → PortSt) (s : State) : (modPort p f s).fw = s.fw := by rfl
@[simp] theorem modPort_offPending (p : Nat) (f : PortSt → PortSt) (s : State) : (modPort p f s).offPending = s.offPending := by rfl
@[simp] theorem modPort_hops (p : Nat) (f : PortSt → PortSt) (s : State) : (modPort p f s).hops = s.hops := by rfl
@[simp] theorem modPort_pulse (p : Nat) (f : PortSt → PortSt) (s : State) : (modPort p f s).pulse = s.pulse := by rfl
@[simp] theorem modPort_chain (p : Nat) (f : PortSt → PortSt) (s : State) : (modPort p f s).chain = s.chain := by rfl
@[simp] theorem modPort_muxes (p : Nat) (f : PortSt → PortSt) (s : State) : (modPort p f s).muxes = s.muxes := by rfl
@[simp] theorem modPort_muxFrozen (p : Nat) (f : PortSt → PortSt) (s : State) : (modPort p f s).muxFrozen = s.muxFrozen := by rfl
@[simp] theorem modPort_bcfg (p : Nat) (f : PortSt → PortSt) (s : State) : (modPort p f s).bcfg = s.bcfg := by rfl
@[simp] theorem modPort_rackBoot (p : Nat) (f : PortSt → PortSt) (s : State) : (modPort p f s).rackBoot = s.rackBoot := by rfl
@[simp] theorem modPort_badWords (p : Nat) (f : PortSt → PortSt) (s : State) : (modPort p f s).badWords = s.badWords := by rfl
@[simp] theorem modPort_corrAt (p : Nat) (f : PortSt → PortSt) (s : State) : (modPort p f s).corrAt = s.corrAt := by rfl
@[simp] theorem modPort_rootWords (p : Nat) (f : PortSt → PortSt) (s : State) : (modPort p f s).rootWords = s.rootWords := by rfl
@[simp] theorem modPort_rootWord (p : Nat) (f : PortSt → PortSt) (s : State) : (modPort p f s).rootWord = s.rootWord := by rfl
@[simp] theorem modPort_rootPending (p : Nat) (f : PortSt → PortSt) (s : State) : (modPort p f s).rootPending = s.rootPending := by rfl
@[simp] theorem modPort_badCores (p : Nat) (f : PortSt → PortSt) (s : State) : (modPort p f s).badCores = s.badCores := by rfl
@[simp] theorem modPort_spread (p : Nat) (f : PortSt → PortSt) (s : State) : (modPort p f s).spread = s.spread := by rfl
@[simp] theorem modPort_lastClap (p : Nat) (f : PortSt → PortSt) (s : State) : (modPort p f s).lastClap = s.lastClap := by rfl
@[simp] theorem modPort_doms (p : Nat) (f : PortSt → PortSt) (s : State) : (modPort p f s).doms = s.doms := by rfl
@[simp] theorem modPort_dips (p : Nat) (f : PortSt → PortSt) (s : State) : (modPort p f s).dips = s.dips := by rfl
@[simp] theorem modPort_plChanges (p : Nat) (f : PortSt → PortSt) (s : State) : (modPort p f s).plChanges = s.plChanges := by rfl
@[simp] theorem modPort_discards (p : Nat) (f : PortSt → PortSt) (s : State) : (modPort p f s).discards = s.discards := by rfl
@[simp] theorem modPort_temps (p : Nat) (f : PortSt → PortSt) (s : State) : (modPort p f s).temps = s.temps := by rfl
@[simp] theorem modPort_mram (p : Nat) (f : PortSt → PortSt) (s : State) : (modPort p f s).mram = s.mram := by rfl
@[simp] theorem modPort_sram (p : Nat) (f : PortSt → PortSt) (s : State) : (modPort p f s).sram = s.sram := by rfl
@[simp] theorem modPort_utilDiscard (p : Nat) (f : PortSt → PortSt) (s : State) : (modPort p f s).utilDiscard = s.utilDiscard := by rfl
@[simp] theorem modPort_links (p : Nat) (f : PortSt → PortSt) (s : State) : (modPort p f s).links = s.links := by rfl
@[simp] theorem modPort_pairs (p : Nat) (f : PortSt → PortSt) (s : State) : (modPort p f s).pairs = s.pairs := by rfl
@[simp] theorem modPort_tiles (p : Nat) (f : PortSt → PortSt) (s : State) : (modPort p f s).tiles = s.tiles := by rfl
@[simp] theorem modPort_takes (p : Nat) (f : PortSt → PortSt) (s : State) : (modPort p f s).takes = s.takes := by rfl
@[simp] theorem modPort_runs (p : Nat) (f : PortSt → PortSt) (s : State) : (modPort p f s).runs = s.runs := by rfl
@[simp] theorem modPort_captures (p : Nat) (f : PortSt → PortSt) (s : State) : (modPort p f s).captures = s.captures := by rfl
@[simp] theorem modPort_stalls (p : Nat) (f : PortSt → PortSt) (s : State) : (modPort p f s).stalls = s.stalls := by rfl
@[simp] theorem modPort_areas (p : Nat) (f : PortSt → PortSt) (s : State) : (modPort p f s).areas = s.areas := by rfl
@[simp] theorem modPort_work (p : Nat) (f : PortSt → PortSt) (s : State) : (modPort p f s).work = s.work := by rfl
@[simp] theorem modPort_syns (p : Nat) (f : PortSt → PortSt) (s : State) : (modPort p f s).syns = s.syns := by rfl
@[simp] theorem modPort_lanes (p : Nat) (f : PortSt → PortSt) (s : State) : (modPort p f s).lanes = s.lanes := by rfl
@[simp] theorem modPort_contRecs (p : Nat) (f : PortSt → PortSt) (s : State) : (modPort p f s).contRecs = s.contRecs := by rfl
@[simp] theorem modPort_contUse (p : Nat) (f : PortSt → PortSt) (s : State) : (modPort p f s).contUse = s.contUse := by rfl
@[simp] theorem modPort_contDrop (p : Nat) (f : PortSt → PortSt) (s : State) : (modPort p f s).contDrop = s.contDrop := by rfl
@[simp] theorem modPort_contEvict (p : Nat) (f : PortSt → PortSt) (s : State) : (modPort p f s).contEvict = s.contEvict := by rfl
@[simp] theorem modPort_contBad (p : Nat) (f : PortSt → PortSt) (s : State) : (modPort p f s).contBad = s.contBad := by rfl
@[simp] theorem modPort_contStale (p : Nat) (f : PortSt → PortSt) (s : State) : (modPort p f s).contStale = s.contStale := by rfl
@[simp] theorem modPort_contDue (p : Nat) (f : PortSt → PortSt) (s : State) : (modPort p f s).contDue = s.contDue := by rfl
@[simp] theorem rd_modPort (p : Nat) (f : PortSt → PortSt) (s : State) (j : Nat) : rd (modPort p f s) j = rd s j := by rfl
@[simp] theorem rdView_modPort (p : Nat) (f : PortSt → PortSt) (s : State) (vw : View) (j : Nat) : rdView (modPort p f s) vw j = rdView s vw j := by rfl
@[simp] theorem linkOf_modPort (p : Nat) (f : PortSt → PortSt) (s : State) (j : Nat) : linkOf (modPort p f s) j = linkOf s j := by rfl
@[simp] theorem pairOf_modPort (p : Nat) (f : PortSt → PortSt) (s : State) (j : Nat) : pairOf (modPort p f s) j = pairOf s j := by rfl
@[simp] theorem tileOf_modPort (p : Nat) (f : PortSt → PortSt) (s : State) (j : Nat) : tileOf (modPort p f s) j = tileOf s j := by rfl
@[simp] theorem synOf_modPort (p : Nat) (f : PortSt → PortSt) (s : State) (j : Nat) : synOf (modPort p f s) j = synOf s j := by rfl
@[simp] theorem laneOf_modPort (p : Nat) (f : PortSt → PortSt) (s : State) (j : Nat) : laneOf (modPort p f s) j = laneOf s j := by rfl
@[simp] theorem domOf_modPort (p : Nat) (f : PortSt → PortSt) (s : State) (j : Nat) : domOf (modPort p f s) j = domOf s j := by rfl
@[simp] theorem runsOf_modPort (p : Nat) (f : PortSt → PortSt) (s : State) (j : Nat) : runsOf (modPort p f s) j = runsOf s j := by rfl
@[simp] theorem capsOf_modPort (p : Nat) (f : PortSt → PortSt) (s : State) (j : Nat) : capsOf (modPort p f s) j = capsOf s j := by rfl
@[simp] theorem modTile_pending (t : Nat) (f : TileSt → TileSt) (s : State) : (modTile t f s).pending = s.pending := by rfl
@[simp] theorem modTile_mode (t : Nat) (f : TileSt → TileSt) (s : State) : (modTile t f s).mode = s.mode := by rfl
@[simp] theorem modTile_time (t : Nat) (f : TileSt → TileSt) (s : State) : (modTile t f s).time = s.time := by rfl
@[simp] theorem modTile_regs (t : Nat) (f : TileSt → TileSt) (s : State) : (modTile t f s).regs = s.regs := by rfl
@[simp] theorem modTile_views (t : Nat) (f : TileSt → TileSt) (s : State) : (modTile t f s).views = s.views := by rfl
@[simp] theorem modTile_held (t : Nat) (f : TileSt → TileSt) (s : State) : (modTile t f s).held = s.held := by rfl
@[simp] theorem modTile_snapAt (t : Nat) (f : TileSt → TileSt) (s : State) : (modTile t f s).snapAt = s.snapAt := by rfl
@[simp] theorem modTile_snapOff (t : Nat) (f : TileSt → TileSt) (s : State) : (modTile t f s).snapOff = s.snapOff := by rfl
@[simp] theorem modTile_snapDone (t : Nat) (f : TileSt → TileSt) (s : State) : (modTile t f s).snapDone = s.snapDone := by rfl
@[simp] theorem modTile_perfWins (t : Nat) (f : TileSt → TileSt) (s : State) : (modTile t f s).perfWins = s.perfWins := by rfl
@[simp] theorem modTile_perfAcc (t : Nat) (f : TileSt → TileSt) (s : State) : (modTile t f s).perfAcc = s.perfAcc := by rfl
@[simp] theorem modTile_timeLatch (t : Nat) (f : TileSt → TileSt) (s : State) : (modTile t f s).timeLatch = s.timeLatch := by rfl
@[simp] theorem modTile_hostMem (t : Nat) (f : TileSt → TileSt) (s : State) : (modTile t f s).hostMem = s.hostMem := by rfl
@[simp] theorem modTile_out (t : Nat) (f : TileSt → TileSt) (s : State) : (modTile t f s).out = s.out := by rfl
@[simp] theorem modTile_fresh (t : Nat) (f : TileSt → TileSt) (s : State) : (modTile t f s).fresh = s.fresh := by rfl
@[simp] theorem modTile_cmd (t : Nat) (f : TileSt → TileSt) (s : State) : (modTile t f s).cmd = s.cmd := by rfl
@[simp] theorem modTile_evt (t : Nat) (f : TileSt → TileSt) (s : State) : (modTile t f s).evt = s.evt := by rfl
@[simp] theorem modTile_pcie (t : Nat) (f : TileSt → TileSt) (s : State) : (modTile t f s).pcie = s.pcie := by rfl
@[simp] theorem modTile_sp (t : Nat) (f : TileSt → TileSt) (s : State) : (modTile t f s).sp = s.sp := by rfl
@[simp] theorem modTile_fw (t : Nat) (f : TileSt → TileSt) (s : State) : (modTile t f s).fw = s.fw := by rfl
@[simp] theorem modTile_offPending (t : Nat) (f : TileSt → TileSt) (s : State) : (modTile t f s).offPending = s.offPending := by rfl
@[simp] theorem modTile_hops (t : Nat) (f : TileSt → TileSt) (s : State) : (modTile t f s).hops = s.hops := by rfl
@[simp] theorem modTile_pulse (t : Nat) (f : TileSt → TileSt) (s : State) : (modTile t f s).pulse = s.pulse := by rfl
@[simp] theorem modTile_chain (t : Nat) (f : TileSt → TileSt) (s : State) : (modTile t f s).chain = s.chain := by rfl
@[simp] theorem modTile_muxes (t : Nat) (f : TileSt → TileSt) (s : State) : (modTile t f s).muxes = s.muxes := by rfl
@[simp] theorem modTile_muxFrozen (t : Nat) (f : TileSt → TileSt) (s : State) : (modTile t f s).muxFrozen = s.muxFrozen := by rfl
@[simp] theorem modTile_bcfg (t : Nat) (f : TileSt → TileSt) (s : State) : (modTile t f s).bcfg = s.bcfg := by rfl
@[simp] theorem modTile_rackBoot (t : Nat) (f : TileSt → TileSt) (s : State) : (modTile t f s).rackBoot = s.rackBoot := by rfl
@[simp] theorem modTile_badWords (t : Nat) (f : TileSt → TileSt) (s : State) : (modTile t f s).badWords = s.badWords := by rfl
@[simp] theorem modTile_corrAt (t : Nat) (f : TileSt → TileSt) (s : State) : (modTile t f s).corrAt = s.corrAt := by rfl
@[simp] theorem modTile_rootWords (t : Nat) (f : TileSt → TileSt) (s : State) : (modTile t f s).rootWords = s.rootWords := by rfl
@[simp] theorem modTile_rootWord (t : Nat) (f : TileSt → TileSt) (s : State) : (modTile t f s).rootWord = s.rootWord := by rfl
@[simp] theorem modTile_rootPending (t : Nat) (f : TileSt → TileSt) (s : State) : (modTile t f s).rootPending = s.rootPending := by rfl
@[simp] theorem modTile_badCores (t : Nat) (f : TileSt → TileSt) (s : State) : (modTile t f s).badCores = s.badCores := by rfl
@[simp] theorem modTile_spread (t : Nat) (f : TileSt → TileSt) (s : State) : (modTile t f s).spread = s.spread := by rfl
@[simp] theorem modTile_lastClap (t : Nat) (f : TileSt → TileSt) (s : State) : (modTile t f s).lastClap = s.lastClap := by rfl
@[simp] theorem modTile_doms (t : Nat) (f : TileSt → TileSt) (s : State) : (modTile t f s).doms = s.doms := by rfl
@[simp] theorem modTile_dips (t : Nat) (f : TileSt → TileSt) (s : State) : (modTile t f s).dips = s.dips := by rfl
@[simp] theorem modTile_plChanges (t : Nat) (f : TileSt → TileSt) (s : State) : (modTile t f s).plChanges = s.plChanges := by rfl
@[simp] theorem modTile_discards (t : Nat) (f : TileSt → TileSt) (s : State) : (modTile t f s).discards = s.discards := by rfl
@[simp] theorem modTile_temps (t : Nat) (f : TileSt → TileSt) (s : State) : (modTile t f s).temps = s.temps := by rfl
@[simp] theorem modTile_mram (t : Nat) (f : TileSt → TileSt) (s : State) : (modTile t f s).mram = s.mram := by rfl
@[simp] theorem modTile_sram (t : Nat) (f : TileSt → TileSt) (s : State) : (modTile t f s).sram = s.sram := by rfl
@[simp] theorem modTile_utilDiscard (t : Nat) (f : TileSt → TileSt) (s : State) : (modTile t f s).utilDiscard = s.utilDiscard := by rfl
@[simp] theorem modTile_links (t : Nat) (f : TileSt → TileSt) (s : State) : (modTile t f s).links = s.links := by rfl
@[simp] theorem modTile_pairs (t : Nat) (f : TileSt → TileSt) (s : State) : (modTile t f s).pairs = s.pairs := by rfl
@[simp] theorem modTile_ports (t : Nat) (f : TileSt → TileSt) (s : State) : (modTile t f s).ports = s.ports := by rfl
@[simp] theorem modTile_takes (t : Nat) (f : TileSt → TileSt) (s : State) : (modTile t f s).takes = s.takes := by rfl
@[simp] theorem modTile_runs (t : Nat) (f : TileSt → TileSt) (s : State) : (modTile t f s).runs = s.runs := by rfl
@[simp] theorem modTile_captures (t : Nat) (f : TileSt → TileSt) (s : State) : (modTile t f s).captures = s.captures := by rfl
@[simp] theorem modTile_stalls (t : Nat) (f : TileSt → TileSt) (s : State) : (modTile t f s).stalls = s.stalls := by rfl
@[simp] theorem modTile_areas (t : Nat) (f : TileSt → TileSt) (s : State) : (modTile t f s).areas = s.areas := by rfl
@[simp] theorem modTile_work (t : Nat) (f : TileSt → TileSt) (s : State) : (modTile t f s).work = s.work := by rfl
@[simp] theorem modTile_syns (t : Nat) (f : TileSt → TileSt) (s : State) : (modTile t f s).syns = s.syns := by rfl
@[simp] theorem modTile_lanes (t : Nat) (f : TileSt → TileSt) (s : State) : (modTile t f s).lanes = s.lanes := by rfl
@[simp] theorem modTile_contRecs (t : Nat) (f : TileSt → TileSt) (s : State) : (modTile t f s).contRecs = s.contRecs := by rfl
@[simp] theorem modTile_contUse (t : Nat) (f : TileSt → TileSt) (s : State) : (modTile t f s).contUse = s.contUse := by rfl
@[simp] theorem modTile_contDrop (t : Nat) (f : TileSt → TileSt) (s : State) : (modTile t f s).contDrop = s.contDrop := by rfl
@[simp] theorem modTile_contEvict (t : Nat) (f : TileSt → TileSt) (s : State) : (modTile t f s).contEvict = s.contEvict := by rfl
@[simp] theorem modTile_contBad (t : Nat) (f : TileSt → TileSt) (s : State) : (modTile t f s).contBad = s.contBad := by rfl
@[simp] theorem modTile_contStale (t : Nat) (f : TileSt → TileSt) (s : State) : (modTile t f s).contStale = s.contStale := by rfl
@[simp] theorem modTile_contDue (t : Nat) (f : TileSt → TileSt) (s : State) : (modTile t f s).contDue = s.contDue := by rfl
@[simp] theorem rd_modTile (t : Nat) (f : TileSt → TileSt) (s : State) (j : Nat) : rd (modTile t f s) j = rd s j := by rfl
@[simp] theorem rdView_modTile (t : Nat) (f : TileSt → TileSt) (s : State) (vw : View) (j : Nat) : rdView (modTile t f s) vw j = rdView s vw j := by rfl
@[simp] theorem linkOf_modTile (t : Nat) (f : TileSt → TileSt) (s : State) (j : Nat) : linkOf (modTile t f s) j = linkOf s j := by rfl
@[simp] theorem pairOf_modTile (t : Nat) (f : TileSt → TileSt) (s : State) (j : Nat) : pairOf (modTile t f s) j = pairOf s j := by rfl
@[simp] theorem portOf_modTile (t : Nat) (f : TileSt → TileSt) (s : State) (j : Nat) : portOf (modTile t f s) j = portOf s j := by rfl
@[simp] theorem synOf_modTile (t : Nat) (f : TileSt → TileSt) (s : State) (j : Nat) : synOf (modTile t f s) j = synOf s j := by rfl
@[simp] theorem laneOf_modTile (t : Nat) (f : TileSt → TileSt) (s : State) (j : Nat) : laneOf (modTile t f s) j = laneOf s j := by rfl
@[simp] theorem domOf_modTile (t : Nat) (f : TileSt → TileSt) (s : State) (j : Nat) : domOf (modTile t f s) j = domOf s j := by rfl
@[simp] theorem runsOf_modTile (t : Nat) (f : TileSt → TileSt) (s : State) (j : Nat) : runsOf (modTile t f s) j = runsOf s j := by rfl
@[simp] theorem capsOf_modTile (t : Nat) (f : TileSt → TileSt) (s : State) (j : Nat) : capsOf (modTile t f s) j = capsOf s j := by rfl
@[simp] theorem modSyn_pending (i : Nat) (f : SynSt → SynSt) (s : State) : (modSyn i f s).pending = s.pending := by rfl
@[simp] theorem modSyn_mode (i : Nat) (f : SynSt → SynSt) (s : State) : (modSyn i f s).mode = s.mode := by rfl
@[simp] theorem modSyn_time (i : Nat) (f : SynSt → SynSt) (s : State) : (modSyn i f s).time = s.time := by rfl
@[simp] theorem modSyn_regs (i : Nat) (f : SynSt → SynSt) (s : State) : (modSyn i f s).regs = s.regs := by rfl
@[simp] theorem modSyn_views (i : Nat) (f : SynSt → SynSt) (s : State) : (modSyn i f s).views = s.views := by rfl
@[simp] theorem modSyn_held (i : Nat) (f : SynSt → SynSt) (s : State) : (modSyn i f s).held = s.held := by rfl
@[simp] theorem modSyn_snapAt (i : Nat) (f : SynSt → SynSt) (s : State) : (modSyn i f s).snapAt = s.snapAt := by rfl
@[simp] theorem modSyn_snapOff (i : Nat) (f : SynSt → SynSt) (s : State) : (modSyn i f s).snapOff = s.snapOff := by rfl
@[simp] theorem modSyn_snapDone (i : Nat) (f : SynSt → SynSt) (s : State) : (modSyn i f s).snapDone = s.snapDone := by rfl
@[simp] theorem modSyn_perfWins (i : Nat) (f : SynSt → SynSt) (s : State) : (modSyn i f s).perfWins = s.perfWins := by rfl
@[simp] theorem modSyn_perfAcc (i : Nat) (f : SynSt → SynSt) (s : State) : (modSyn i f s).perfAcc = s.perfAcc := by rfl
@[simp] theorem modSyn_timeLatch (i : Nat) (f : SynSt → SynSt) (s : State) : (modSyn i f s).timeLatch = s.timeLatch := by rfl
@[simp] theorem modSyn_hostMem (i : Nat) (f : SynSt → SynSt) (s : State) : (modSyn i f s).hostMem = s.hostMem := by rfl
@[simp] theorem modSyn_out (i : Nat) (f : SynSt → SynSt) (s : State) : (modSyn i f s).out = s.out := by rfl
@[simp] theorem modSyn_fresh (i : Nat) (f : SynSt → SynSt) (s : State) : (modSyn i f s).fresh = s.fresh := by rfl
@[simp] theorem modSyn_cmd (i : Nat) (f : SynSt → SynSt) (s : State) : (modSyn i f s).cmd = s.cmd := by rfl
@[simp] theorem modSyn_evt (i : Nat) (f : SynSt → SynSt) (s : State) : (modSyn i f s).evt = s.evt := by rfl
@[simp] theorem modSyn_pcie (i : Nat) (f : SynSt → SynSt) (s : State) : (modSyn i f s).pcie = s.pcie := by rfl
@[simp] theorem modSyn_sp (i : Nat) (f : SynSt → SynSt) (s : State) : (modSyn i f s).sp = s.sp := by rfl
@[simp] theorem modSyn_fw (i : Nat) (f : SynSt → SynSt) (s : State) : (modSyn i f s).fw = s.fw := by rfl
@[simp] theorem modSyn_offPending (i : Nat) (f : SynSt → SynSt) (s : State) : (modSyn i f s).offPending = s.offPending := by rfl
@[simp] theorem modSyn_hops (i : Nat) (f : SynSt → SynSt) (s : State) : (modSyn i f s).hops = s.hops := by rfl
@[simp] theorem modSyn_pulse (i : Nat) (f : SynSt → SynSt) (s : State) : (modSyn i f s).pulse = s.pulse := by rfl
@[simp] theorem modSyn_chain (i : Nat) (f : SynSt → SynSt) (s : State) : (modSyn i f s).chain = s.chain := by rfl
@[simp] theorem modSyn_muxes (i : Nat) (f : SynSt → SynSt) (s : State) : (modSyn i f s).muxes = s.muxes := by rfl
@[simp] theorem modSyn_muxFrozen (i : Nat) (f : SynSt → SynSt) (s : State) : (modSyn i f s).muxFrozen = s.muxFrozen := by rfl
@[simp] theorem modSyn_bcfg (i : Nat) (f : SynSt → SynSt) (s : State) : (modSyn i f s).bcfg = s.bcfg := by rfl
@[simp] theorem modSyn_rackBoot (i : Nat) (f : SynSt → SynSt) (s : State) : (modSyn i f s).rackBoot = s.rackBoot := by rfl
@[simp] theorem modSyn_badWords (i : Nat) (f : SynSt → SynSt) (s : State) : (modSyn i f s).badWords = s.badWords := by rfl
@[simp] theorem modSyn_corrAt (i : Nat) (f : SynSt → SynSt) (s : State) : (modSyn i f s).corrAt = s.corrAt := by rfl
@[simp] theorem modSyn_rootWords (i : Nat) (f : SynSt → SynSt) (s : State) : (modSyn i f s).rootWords = s.rootWords := by rfl
@[simp] theorem modSyn_rootWord (i : Nat) (f : SynSt → SynSt) (s : State) : (modSyn i f s).rootWord = s.rootWord := by rfl
@[simp] theorem modSyn_rootPending (i : Nat) (f : SynSt → SynSt) (s : State) : (modSyn i f s).rootPending = s.rootPending := by rfl
@[simp] theorem modSyn_badCores (i : Nat) (f : SynSt → SynSt) (s : State) : (modSyn i f s).badCores = s.badCores := by rfl
@[simp] theorem modSyn_spread (i : Nat) (f : SynSt → SynSt) (s : State) : (modSyn i f s).spread = s.spread := by rfl
@[simp] theorem modSyn_lastClap (i : Nat) (f : SynSt → SynSt) (s : State) : (modSyn i f s).lastClap = s.lastClap := by rfl
@[simp] theorem modSyn_doms (i : Nat) (f : SynSt → SynSt) (s : State) : (modSyn i f s).doms = s.doms := by rfl
@[simp] theorem modSyn_dips (i : Nat) (f : SynSt → SynSt) (s : State) : (modSyn i f s).dips = s.dips := by rfl
@[simp] theorem modSyn_plChanges (i : Nat) (f : SynSt → SynSt) (s : State) : (modSyn i f s).plChanges = s.plChanges := by rfl
@[simp] theorem modSyn_discards (i : Nat) (f : SynSt → SynSt) (s : State) : (modSyn i f s).discards = s.discards := by rfl
@[simp] theorem modSyn_temps (i : Nat) (f : SynSt → SynSt) (s : State) : (modSyn i f s).temps = s.temps := by rfl
@[simp] theorem modSyn_mram (i : Nat) (f : SynSt → SynSt) (s : State) : (modSyn i f s).mram = s.mram := by rfl
@[simp] theorem modSyn_sram (i : Nat) (f : SynSt → SynSt) (s : State) : (modSyn i f s).sram = s.sram := by rfl
@[simp] theorem modSyn_utilDiscard (i : Nat) (f : SynSt → SynSt) (s : State) : (modSyn i f s).utilDiscard = s.utilDiscard := by rfl
@[simp] theorem modSyn_links (i : Nat) (f : SynSt → SynSt) (s : State) : (modSyn i f s).links = s.links := by rfl
@[simp] theorem modSyn_pairs (i : Nat) (f : SynSt → SynSt) (s : State) : (modSyn i f s).pairs = s.pairs := by rfl
@[simp] theorem modSyn_ports (i : Nat) (f : SynSt → SynSt) (s : State) : (modSyn i f s).ports = s.ports := by rfl
@[simp] theorem modSyn_tiles (i : Nat) (f : SynSt → SynSt) (s : State) : (modSyn i f s).tiles = s.tiles := by rfl
@[simp] theorem modSyn_takes (i : Nat) (f : SynSt → SynSt) (s : State) : (modSyn i f s).takes = s.takes := by rfl
@[simp] theorem modSyn_runs (i : Nat) (f : SynSt → SynSt) (s : State) : (modSyn i f s).runs = s.runs := by rfl
@[simp] theorem modSyn_captures (i : Nat) (f : SynSt → SynSt) (s : State) : (modSyn i f s).captures = s.captures := by rfl
@[simp] theorem modSyn_stalls (i : Nat) (f : SynSt → SynSt) (s : State) : (modSyn i f s).stalls = s.stalls := by rfl
@[simp] theorem modSyn_areas (i : Nat) (f : SynSt → SynSt) (s : State) : (modSyn i f s).areas = s.areas := by rfl
@[simp] theorem modSyn_work (i : Nat) (f : SynSt → SynSt) (s : State) : (modSyn i f s).work = s.work := by rfl
@[simp] theorem modSyn_lanes (i : Nat) (f : SynSt → SynSt) (s : State) : (modSyn i f s).lanes = s.lanes := by rfl
@[simp] theorem modSyn_contRecs (i : Nat) (f : SynSt → SynSt) (s : State) : (modSyn i f s).contRecs = s.contRecs := by rfl
@[simp] theorem modSyn_contUse (i : Nat) (f : SynSt → SynSt) (s : State) : (modSyn i f s).contUse = s.contUse := by rfl
@[simp] theorem modSyn_contDrop (i : Nat) (f : SynSt → SynSt) (s : State) : (modSyn i f s).contDrop = s.contDrop := by rfl
@[simp] theorem modSyn_contEvict (i : Nat) (f : SynSt → SynSt) (s : State) : (modSyn i f s).contEvict = s.contEvict := by rfl
@[simp] theorem modSyn_contBad (i : Nat) (f : SynSt → SynSt) (s : State) : (modSyn i f s).contBad = s.contBad := by rfl
@[simp] theorem modSyn_contStale (i : Nat) (f : SynSt → SynSt) (s : State) : (modSyn i f s).contStale = s.contStale := by rfl
@[simp] theorem modSyn_contDue (i : Nat) (f : SynSt → SynSt) (s : State) : (modSyn i f s).contDue = s.contDue := by rfl
@[simp] theorem rd_modSyn (i : Nat) (f : SynSt → SynSt) (s : State) (j : Nat) : rd (modSyn i f s) j = rd s j := by rfl
@[simp] theorem rdView_modSyn (i : Nat) (f : SynSt → SynSt) (s : State) (vw : View) (j : Nat) : rdView (modSyn i f s) vw j = rdView s vw j := by rfl
@[simp] theorem linkOf_modSyn (i : Nat) (f : SynSt → SynSt) (s : State) (j : Nat) : linkOf (modSyn i f s) j = linkOf s j := by rfl
@[simp] theorem pairOf_modSyn (i : Nat) (f : SynSt → SynSt) (s : State) (j : Nat) : pairOf (modSyn i f s) j = pairOf s j := by rfl
@[simp] theorem portOf_modSyn (i : Nat) (f : SynSt → SynSt) (s : State) (j : Nat) : portOf (modSyn i f s) j = portOf s j := by rfl
@[simp] theorem tileOf_modSyn (i : Nat) (f : SynSt → SynSt) (s : State) (j : Nat) : tileOf (modSyn i f s) j = tileOf s j := by rfl
@[simp] theorem laneOf_modSyn (i : Nat) (f : SynSt → SynSt) (s : State) (j : Nat) : laneOf (modSyn i f s) j = laneOf s j := by rfl
@[simp] theorem domOf_modSyn (i : Nat) (f : SynSt → SynSt) (s : State) (j : Nat) : domOf (modSyn i f s) j = domOf s j := by rfl
@[simp] theorem runsOf_modSyn (i : Nat) (f : SynSt → SynSt) (s : State) (j : Nat) : runsOf (modSyn i f s) j = runsOf s j := by rfl
@[simp] theorem capsOf_modSyn (i : Nat) (f : SynSt → SynSt) (s : State) (j : Nat) : capsOf (modSyn i f s) j = capsOf s j := by rfl
@[simp] theorem modLane_pending (n : Nat) (f : LaneSt → LaneSt) (s : State) : (modLane n f s).pending = s.pending := by rfl
@[simp] theorem modLane_mode (n : Nat) (f : LaneSt → LaneSt) (s : State) : (modLane n f s).mode = s.mode := by rfl
@[simp] theorem modLane_time (n : Nat) (f : LaneSt → LaneSt) (s : State) : (modLane n f s).time = s.time := by rfl
@[simp] theorem modLane_regs (n : Nat) (f : LaneSt → LaneSt) (s : State) : (modLane n f s).regs = s.regs := by rfl
@[simp] theorem modLane_views (n : Nat) (f : LaneSt → LaneSt) (s : State) : (modLane n f s).views = s.views := by rfl
@[simp] theorem modLane_held (n : Nat) (f : LaneSt → LaneSt) (s : State) : (modLane n f s).held = s.held := by rfl
@[simp] theorem modLane_snapAt (n : Nat) (f : LaneSt → LaneSt) (s : State) : (modLane n f s).snapAt = s.snapAt := by rfl
@[simp] theorem modLane_snapOff (n : Nat) (f : LaneSt → LaneSt) (s : State) : (modLane n f s).snapOff = s.snapOff := by rfl
@[simp] theorem modLane_snapDone (n : Nat) (f : LaneSt → LaneSt) (s : State) : (modLane n f s).snapDone = s.snapDone := by rfl
@[simp] theorem modLane_perfWins (n : Nat) (f : LaneSt → LaneSt) (s : State) : (modLane n f s).perfWins = s.perfWins := by rfl
@[simp] theorem modLane_perfAcc (n : Nat) (f : LaneSt → LaneSt) (s : State) : (modLane n f s).perfAcc = s.perfAcc := by rfl
@[simp] theorem modLane_timeLatch (n : Nat) (f : LaneSt → LaneSt) (s : State) : (modLane n f s).timeLatch = s.timeLatch := by rfl
@[simp] theorem modLane_hostMem (n : Nat) (f : LaneSt → LaneSt) (s : State) : (modLane n f s).hostMem = s.hostMem := by rfl
@[simp] theorem modLane_out (n : Nat) (f : LaneSt → LaneSt) (s : State) : (modLane n f s).out = s.out := by rfl
@[simp] theorem modLane_fresh (n : Nat) (f : LaneSt → LaneSt) (s : State) : (modLane n f s).fresh = s.fresh := by rfl
@[simp] theorem modLane_cmd (n : Nat) (f : LaneSt → LaneSt) (s : State) : (modLane n f s).cmd = s.cmd := by rfl
@[simp] theorem modLane_evt (n : Nat) (f : LaneSt → LaneSt) (s : State) : (modLane n f s).evt = s.evt := by rfl
@[simp] theorem modLane_pcie (n : Nat) (f : LaneSt → LaneSt) (s : State) : (modLane n f s).pcie = s.pcie := by rfl
@[simp] theorem modLane_sp (n : Nat) (f : LaneSt → LaneSt) (s : State) : (modLane n f s).sp = s.sp := by rfl
@[simp] theorem modLane_fw (n : Nat) (f : LaneSt → LaneSt) (s : State) : (modLane n f s).fw = s.fw := by rfl
@[simp] theorem modLane_offPending (n : Nat) (f : LaneSt → LaneSt) (s : State) : (modLane n f s).offPending = s.offPending := by rfl
@[simp] theorem modLane_hops (n : Nat) (f : LaneSt → LaneSt) (s : State) : (modLane n f s).hops = s.hops := by rfl
@[simp] theorem modLane_pulse (n : Nat) (f : LaneSt → LaneSt) (s : State) : (modLane n f s).pulse = s.pulse := by rfl
@[simp] theorem modLane_chain (n : Nat) (f : LaneSt → LaneSt) (s : State) : (modLane n f s).chain = s.chain := by rfl
@[simp] theorem modLane_muxes (n : Nat) (f : LaneSt → LaneSt) (s : State) : (modLane n f s).muxes = s.muxes := by rfl
@[simp] theorem modLane_muxFrozen (n : Nat) (f : LaneSt → LaneSt) (s : State) : (modLane n f s).muxFrozen = s.muxFrozen := by rfl
@[simp] theorem modLane_bcfg (n : Nat) (f : LaneSt → LaneSt) (s : State) : (modLane n f s).bcfg = s.bcfg := by rfl
@[simp] theorem modLane_rackBoot (n : Nat) (f : LaneSt → LaneSt) (s : State) : (modLane n f s).rackBoot = s.rackBoot := by rfl
@[simp] theorem modLane_badWords (n : Nat) (f : LaneSt → LaneSt) (s : State) : (modLane n f s).badWords = s.badWords := by rfl
@[simp] theorem modLane_corrAt (n : Nat) (f : LaneSt → LaneSt) (s : State) : (modLane n f s).corrAt = s.corrAt := by rfl
@[simp] theorem modLane_rootWords (n : Nat) (f : LaneSt → LaneSt) (s : State) : (modLane n f s).rootWords = s.rootWords := by rfl
@[simp] theorem modLane_rootWord (n : Nat) (f : LaneSt → LaneSt) (s : State) : (modLane n f s).rootWord = s.rootWord := by rfl
@[simp] theorem modLane_rootPending (n : Nat) (f : LaneSt → LaneSt) (s : State) : (modLane n f s).rootPending = s.rootPending := by rfl
@[simp] theorem modLane_badCores (n : Nat) (f : LaneSt → LaneSt) (s : State) : (modLane n f s).badCores = s.badCores := by rfl
@[simp] theorem modLane_spread (n : Nat) (f : LaneSt → LaneSt) (s : State) : (modLane n f s).spread = s.spread := by rfl
@[simp] theorem modLane_lastClap (n : Nat) (f : LaneSt → LaneSt) (s : State) : (modLane n f s).lastClap = s.lastClap := by rfl
@[simp] theorem modLane_doms (n : Nat) (f : LaneSt → LaneSt) (s : State) : (modLane n f s).doms = s.doms := by rfl
@[simp] theorem modLane_dips (n : Nat) (f : LaneSt → LaneSt) (s : State) : (modLane n f s).dips = s.dips := by rfl
@[simp] theorem modLane_plChanges (n : Nat) (f : LaneSt → LaneSt) (s : State) : (modLane n f s).plChanges = s.plChanges := by rfl
@[simp] theorem modLane_discards (n : Nat) (f : LaneSt → LaneSt) (s : State) : (modLane n f s).discards = s.discards := by rfl
@[simp] theorem modLane_temps (n : Nat) (f : LaneSt → LaneSt) (s : State) : (modLane n f s).temps = s.temps := by rfl
@[simp] theorem modLane_mram (n : Nat) (f : LaneSt → LaneSt) (s : State) : (modLane n f s).mram = s.mram := by rfl
@[simp] theorem modLane_sram (n : Nat) (f : LaneSt → LaneSt) (s : State) : (modLane n f s).sram = s.sram := by rfl
@[simp] theorem modLane_utilDiscard (n : Nat) (f : LaneSt → LaneSt) (s : State) : (modLane n f s).utilDiscard = s.utilDiscard := by rfl
@[simp] theorem modLane_links (n : Nat) (f : LaneSt → LaneSt) (s : State) : (modLane n f s).links = s.links := by rfl
@[simp] theorem modLane_pairs (n : Nat) (f : LaneSt → LaneSt) (s : State) : (modLane n f s).pairs = s.pairs := by rfl
@[simp] theorem modLane_ports (n : Nat) (f : LaneSt → LaneSt) (s : State) : (modLane n f s).ports = s.ports := by rfl
@[simp] theorem modLane_tiles (n : Nat) (f : LaneSt → LaneSt) (s : State) : (modLane n f s).tiles = s.tiles := by rfl
@[simp] theorem modLane_takes (n : Nat) (f : LaneSt → LaneSt) (s : State) : (modLane n f s).takes = s.takes := by rfl
@[simp] theorem modLane_runs (n : Nat) (f : LaneSt → LaneSt) (s : State) : (modLane n f s).runs = s.runs := by rfl
@[simp] theorem modLane_captures (n : Nat) (f : LaneSt → LaneSt) (s : State) : (modLane n f s).captures = s.captures := by rfl
@[simp] theorem modLane_stalls (n : Nat) (f : LaneSt → LaneSt) (s : State) : (modLane n f s).stalls = s.stalls := by rfl
@[simp] theorem modLane_areas (n : Nat) (f : LaneSt → LaneSt) (s : State) : (modLane n f s).areas = s.areas := by rfl
@[simp] theorem modLane_work (n : Nat) (f : LaneSt → LaneSt) (s : State) : (modLane n f s).work = s.work := by rfl
@[simp] theorem modLane_syns (n : Nat) (f : LaneSt → LaneSt) (s : State) : (modLane n f s).syns = s.syns := by rfl
@[simp] theorem modLane_contRecs (n : Nat) (f : LaneSt → LaneSt) (s : State) : (modLane n f s).contRecs = s.contRecs := by rfl
@[simp] theorem modLane_contUse (n : Nat) (f : LaneSt → LaneSt) (s : State) : (modLane n f s).contUse = s.contUse := by rfl
@[simp] theorem modLane_contDrop (n : Nat) (f : LaneSt → LaneSt) (s : State) : (modLane n f s).contDrop = s.contDrop := by rfl
@[simp] theorem modLane_contEvict (n : Nat) (f : LaneSt → LaneSt) (s : State) : (modLane n f s).contEvict = s.contEvict := by rfl
@[simp] theorem modLane_contBad (n : Nat) (f : LaneSt → LaneSt) (s : State) : (modLane n f s).contBad = s.contBad := by rfl
@[simp] theorem modLane_contStale (n : Nat) (f : LaneSt → LaneSt) (s : State) : (modLane n f s).contStale = s.contStale := by rfl
@[simp] theorem modLane_contDue (n : Nat) (f : LaneSt → LaneSt) (s : State) : (modLane n f s).contDue = s.contDue := by rfl
@[simp] theorem rd_modLane (n : Nat) (f : LaneSt → LaneSt) (s : State) (j : Nat) : rd (modLane n f s) j = rd s j := by rfl
@[simp] theorem rdView_modLane (n : Nat) (f : LaneSt → LaneSt) (s : State) (vw : View) (j : Nat) : rdView (modLane n f s) vw j = rdView s vw j := by rfl
@[simp] theorem linkOf_modLane (n : Nat) (f : LaneSt → LaneSt) (s : State) (j : Nat) : linkOf (modLane n f s) j = linkOf s j := by rfl
@[simp] theorem pairOf_modLane (n : Nat) (f : LaneSt → LaneSt) (s : State) (j : Nat) : pairOf (modLane n f s) j = pairOf s j := by rfl
@[simp] theorem portOf_modLane (n : Nat) (f : LaneSt → LaneSt) (s : State) (j : Nat) : portOf (modLane n f s) j = portOf s j := by rfl
@[simp] theorem tileOf_modLane (n : Nat) (f : LaneSt → LaneSt) (s : State) (j : Nat) : tileOf (modLane n f s) j = tileOf s j := by rfl
@[simp] theorem synOf_modLane (n : Nat) (f : LaneSt → LaneSt) (s : State) (j : Nat) : synOf (modLane n f s) j = synOf s j := by rfl
@[simp] theorem domOf_modLane (n : Nat) (f : LaneSt → LaneSt) (s : State) (j : Nat) : domOf (modLane n f s) j = domOf s j := by rfl
@[simp] theorem runsOf_modLane (n : Nat) (f : LaneSt → LaneSt) (s : State) (j : Nat) : runsOf (modLane n f s) j = runsOf s j := by rfl
@[simp] theorem capsOf_modLane (n : Nat) (f : LaneSt → LaneSt) (s : State) (j : Nat) : capsOf (modLane n f s) j = capsOf s j := by rfl
@[simp] theorem modDom_pending (d : Nat) (f : DomSt → DomSt) (s : State) : (modDom d f s).pending = s.pending := by rfl
@[simp] theorem modDom_mode (d : Nat) (f : DomSt → DomSt) (s : State) : (modDom d f s).mode = s.mode := by rfl
@[simp] theorem modDom_time (d : Nat) (f : DomSt → DomSt) (s : State) : (modDom d f s).time = s.time := by rfl
@[simp] theorem modDom_regs (d : Nat) (f : DomSt → DomSt) (s : State) : (modDom d f s).regs = s.regs := by rfl
@[simp] theorem modDom_views (d : Nat) (f : DomSt → DomSt) (s : State) : (modDom d f s).views = s.views := by rfl
@[simp] theorem modDom_held (d : Nat) (f : DomSt → DomSt) (s : State) : (modDom d f s).held = s.held := by rfl
@[simp] theorem modDom_snapAt (d : Nat) (f : DomSt → DomSt) (s : State) : (modDom d f s).snapAt = s.snapAt := by rfl
@[simp] theorem modDom_snapOff (d : Nat) (f : DomSt → DomSt) (s : State) : (modDom d f s).snapOff = s.snapOff := by rfl
@[simp] theorem modDom_snapDone (d : Nat) (f : DomSt → DomSt) (s : State) : (modDom d f s).snapDone = s.snapDone := by rfl
@[simp] theorem modDom_perfWins (d : Nat) (f : DomSt → DomSt) (s : State) : (modDom d f s).perfWins = s.perfWins := by rfl
@[simp] theorem modDom_perfAcc (d : Nat) (f : DomSt → DomSt) (s : State) : (modDom d f s).perfAcc = s.perfAcc := by rfl
@[simp] theorem modDom_timeLatch (d : Nat) (f : DomSt → DomSt) (s : State) : (modDom d f s).timeLatch = s.timeLatch := by rfl
@[simp] theorem modDom_hostMem (d : Nat) (f : DomSt → DomSt) (s : State) : (modDom d f s).hostMem = s.hostMem := by rfl
@[simp] theorem modDom_out (d : Nat) (f : DomSt → DomSt) (s : State) : (modDom d f s).out = s.out := by rfl
@[simp] theorem modDom_fresh (d : Nat) (f : DomSt → DomSt) (s : State) : (modDom d f s).fresh = s.fresh := by rfl
@[simp] theorem modDom_cmd (d : Nat) (f : DomSt → DomSt) (s : State) : (modDom d f s).cmd = s.cmd := by rfl
@[simp] theorem modDom_evt (d : Nat) (f : DomSt → DomSt) (s : State) : (modDom d f s).evt = s.evt := by rfl
@[simp] theorem modDom_pcie (d : Nat) (f : DomSt → DomSt) (s : State) : (modDom d f s).pcie = s.pcie := by rfl
@[simp] theorem modDom_sp (d : Nat) (f : DomSt → DomSt) (s : State) : (modDom d f s).sp = s.sp := by rfl
@[simp] theorem modDom_fw (d : Nat) (f : DomSt → DomSt) (s : State) : (modDom d f s).fw = s.fw := by rfl
@[simp] theorem modDom_offPending (d : Nat) (f : DomSt → DomSt) (s : State) : (modDom d f s).offPending = s.offPending := by rfl
@[simp] theorem modDom_hops (d : Nat) (f : DomSt → DomSt) (s : State) : (modDom d f s).hops = s.hops := by rfl
@[simp] theorem modDom_pulse (d : Nat) (f : DomSt → DomSt) (s : State) : (modDom d f s).pulse = s.pulse := by rfl
@[simp] theorem modDom_chain (d : Nat) (f : DomSt → DomSt) (s : State) : (modDom d f s).chain = s.chain := by rfl
@[simp] theorem modDom_muxes (d : Nat) (f : DomSt → DomSt) (s : State) : (modDom d f s).muxes = s.muxes := by rfl
@[simp] theorem modDom_muxFrozen (d : Nat) (f : DomSt → DomSt) (s : State) : (modDom d f s).muxFrozen = s.muxFrozen := by rfl
@[simp] theorem modDom_bcfg (d : Nat) (f : DomSt → DomSt) (s : State) : (modDom d f s).bcfg = s.bcfg := by rfl
@[simp] theorem modDom_rackBoot (d : Nat) (f : DomSt → DomSt) (s : State) : (modDom d f s).rackBoot = s.rackBoot := by rfl
@[simp] theorem modDom_badWords (d : Nat) (f : DomSt → DomSt) (s : State) : (modDom d f s).badWords = s.badWords := by rfl
@[simp] theorem modDom_corrAt (d : Nat) (f : DomSt → DomSt) (s : State) : (modDom d f s).corrAt = s.corrAt := by rfl
@[simp] theorem modDom_rootWords (d : Nat) (f : DomSt → DomSt) (s : State) : (modDom d f s).rootWords = s.rootWords := by rfl
@[simp] theorem modDom_rootWord (d : Nat) (f : DomSt → DomSt) (s : State) : (modDom d f s).rootWord = s.rootWord := by rfl
@[simp] theorem modDom_rootPending (d : Nat) (f : DomSt → DomSt) (s : State) : (modDom d f s).rootPending = s.rootPending := by rfl
@[simp] theorem modDom_badCores (d : Nat) (f : DomSt → DomSt) (s : State) : (modDom d f s).badCores = s.badCores := by rfl
@[simp] theorem modDom_spread (d : Nat) (f : DomSt → DomSt) (s : State) : (modDom d f s).spread = s.spread := by rfl
@[simp] theorem modDom_lastClap (d : Nat) (f : DomSt → DomSt) (s : State) : (modDom d f s).lastClap = s.lastClap := by rfl
@[simp] theorem modDom_dips (d : Nat) (f : DomSt → DomSt) (s : State) : (modDom d f s).dips = s.dips := by rfl
@[simp] theorem modDom_plChanges (d : Nat) (f : DomSt → DomSt) (s : State) : (modDom d f s).plChanges = s.plChanges := by rfl
@[simp] theorem modDom_discards (d : Nat) (f : DomSt → DomSt) (s : State) : (modDom d f s).discards = s.discards := by rfl
@[simp] theorem modDom_temps (d : Nat) (f : DomSt → DomSt) (s : State) : (modDom d f s).temps = s.temps := by rfl
@[simp] theorem modDom_mram (d : Nat) (f : DomSt → DomSt) (s : State) : (modDom d f s).mram = s.mram := by rfl
@[simp] theorem modDom_sram (d : Nat) (f : DomSt → DomSt) (s : State) : (modDom d f s).sram = s.sram := by rfl
@[simp] theorem modDom_utilDiscard (d : Nat) (f : DomSt → DomSt) (s : State) : (modDom d f s).utilDiscard = s.utilDiscard := by rfl
@[simp] theorem modDom_links (d : Nat) (f : DomSt → DomSt) (s : State) : (modDom d f s).links = s.links := by rfl
@[simp] theorem modDom_pairs (d : Nat) (f : DomSt → DomSt) (s : State) : (modDom d f s).pairs = s.pairs := by rfl
@[simp] theorem modDom_ports (d : Nat) (f : DomSt → DomSt) (s : State) : (modDom d f s).ports = s.ports := by rfl
@[simp] theorem modDom_tiles (d : Nat) (f : DomSt → DomSt) (s : State) : (modDom d f s).tiles = s.tiles := by rfl
@[simp] theorem modDom_takes (d : Nat) (f : DomSt → DomSt) (s : State) : (modDom d f s).takes = s.takes := by rfl
@[simp] theorem modDom_runs (d : Nat) (f : DomSt → DomSt) (s : State) : (modDom d f s).runs = s.runs := by rfl
@[simp] theorem modDom_captures (d : Nat) (f : DomSt → DomSt) (s : State) : (modDom d f s).captures = s.captures := by rfl
@[simp] theorem modDom_stalls (d : Nat) (f : DomSt → DomSt) (s : State) : (modDom d f s).stalls = s.stalls := by rfl
@[simp] theorem modDom_areas (d : Nat) (f : DomSt → DomSt) (s : State) : (modDom d f s).areas = s.areas := by rfl
@[simp] theorem modDom_work (d : Nat) (f : DomSt → DomSt) (s : State) : (modDom d f s).work = s.work := by rfl
@[simp] theorem modDom_syns (d : Nat) (f : DomSt → DomSt) (s : State) : (modDom d f s).syns = s.syns := by rfl
@[simp] theorem modDom_lanes (d : Nat) (f : DomSt → DomSt) (s : State) : (modDom d f s).lanes = s.lanes := by rfl
@[simp] theorem modDom_contRecs (d : Nat) (f : DomSt → DomSt) (s : State) : (modDom d f s).contRecs = s.contRecs := by rfl
@[simp] theorem modDom_contUse (d : Nat) (f : DomSt → DomSt) (s : State) : (modDom d f s).contUse = s.contUse := by rfl
@[simp] theorem modDom_contDrop (d : Nat) (f : DomSt → DomSt) (s : State) : (modDom d f s).contDrop = s.contDrop := by rfl
@[simp] theorem modDom_contEvict (d : Nat) (f : DomSt → DomSt) (s : State) : (modDom d f s).contEvict = s.contEvict := by rfl
@[simp] theorem modDom_contBad (d : Nat) (f : DomSt → DomSt) (s : State) : (modDom d f s).contBad = s.contBad := by rfl
@[simp] theorem modDom_contStale (d : Nat) (f : DomSt → DomSt) (s : State) : (modDom d f s).contStale = s.contStale := by rfl
@[simp] theorem modDom_contDue (d : Nat) (f : DomSt → DomSt) (s : State) : (modDom d f s).contDue = s.contDue := by rfl
@[simp] theorem rd_modDom (d : Nat) (f : DomSt → DomSt) (s : State) (j : Nat) : rd (modDom d f s) j = rd s j := by rfl
@[simp] theorem rdView_modDom (d : Nat) (f : DomSt → DomSt) (s : State) (vw : View) (j : Nat) : rdView (modDom d f s) vw j = rdView s vw j := by rfl
@[simp] theorem linkOf_modDom (d : Nat) (f : DomSt → DomSt) (s : State) (j : Nat) : linkOf (modDom d f s) j = linkOf s j := by rfl
@[simp] theorem pairOf_modDom (d : Nat) (f : DomSt → DomSt) (s : State) (j : Nat) : pairOf (modDom d f s) j = pairOf s j := by rfl
@[simp] theorem portOf_modDom (d : Nat) (f : DomSt → DomSt) (s : State) (j : Nat) : portOf (modDom d f s) j = portOf s j := by rfl
@[simp] theorem tileOf_modDom (d : Nat) (f : DomSt → DomSt) (s : State) (j : Nat) : tileOf (modDom d f s) j = tileOf s j := by rfl
@[simp] theorem synOf_modDom (d : Nat) (f : DomSt → DomSt) (s : State) (j : Nat) : synOf (modDom d f s) j = synOf s j := by rfl
@[simp] theorem laneOf_modDom (d : Nat) (f : DomSt → DomSt) (s : State) (j : Nat) : laneOf (modDom d f s) j = laneOf s j := by rfl
@[simp] theorem runsOf_modDom (d : Nat) (f : DomSt → DomSt) (s : State) (j : Nat) : runsOf (modDom d f s) j = runsOf s j := by rfl
@[simp] theorem capsOf_modDom (d : Nat) (f : DomSt → DomSt) (s : State) (j : Nat) : capsOf (modDom d f s) j = capsOf s j := by rfl
@[simp] theorem putTake_pending (l k : Nat) (t : List Byte) (s : State) : (putTake l k t s).pending = s.pending := by rfl
@[simp] theorem putTake_mode (l k : Nat) (t : List Byte) (s : State) : (putTake l k t s).mode = s.mode := by rfl
@[simp] theorem putTake_time (l k : Nat) (t : List Byte) (s : State) : (putTake l k t s).time = s.time := by rfl
@[simp] theorem putTake_regs (l k : Nat) (t : List Byte) (s : State) : (putTake l k t s).regs = s.regs := by rfl
@[simp] theorem putTake_views (l k : Nat) (t : List Byte) (s : State) : (putTake l k t s).views = s.views := by rfl
@[simp] theorem putTake_held (l k : Nat) (t : List Byte) (s : State) : (putTake l k t s).held = s.held := by rfl
@[simp] theorem putTake_snapAt (l k : Nat) (t : List Byte) (s : State) : (putTake l k t s).snapAt = s.snapAt := by rfl
@[simp] theorem putTake_snapOff (l k : Nat) (t : List Byte) (s : State) : (putTake l k t s).snapOff = s.snapOff := by rfl
@[simp] theorem putTake_snapDone (l k : Nat) (t : List Byte) (s : State) : (putTake l k t s).snapDone = s.snapDone := by rfl
@[simp] theorem putTake_perfWins (l k : Nat) (t : List Byte) (s : State) : (putTake l k t s).perfWins = s.perfWins := by rfl
@[simp] theorem putTake_perfAcc (l k : Nat) (t : List Byte) (s : State) : (putTake l k t s).perfAcc = s.perfAcc := by rfl
@[simp] theorem putTake_timeLatch (l k : Nat) (t : List Byte) (s : State) : (putTake l k t s).timeLatch = s.timeLatch := by rfl
@[simp] theorem putTake_hostMem (l k : Nat) (t : List Byte) (s : State) : (putTake l k t s).hostMem = s.hostMem := by rfl
@[simp] theorem putTake_out (l k : Nat) (t : List Byte) (s : State) : (putTake l k t s).out = s.out := by rfl
@[simp] theorem putTake_fresh (l k : Nat) (t : List Byte) (s : State) : (putTake l k t s).fresh = s.fresh := by rfl
@[simp] theorem putTake_cmd (l k : Nat) (t : List Byte) (s : State) : (putTake l k t s).cmd = s.cmd := by rfl
@[simp] theorem putTake_evt (l k : Nat) (t : List Byte) (s : State) : (putTake l k t s).evt = s.evt := by rfl
@[simp] theorem putTake_pcie (l k : Nat) (t : List Byte) (s : State) : (putTake l k t s).pcie = s.pcie := by rfl
@[simp] theorem putTake_sp (l k : Nat) (t : List Byte) (s : State) : (putTake l k t s).sp = s.sp := by rfl
@[simp] theorem putTake_fw (l k : Nat) (t : List Byte) (s : State) : (putTake l k t s).fw = s.fw := by rfl
@[simp] theorem putTake_offPending (l k : Nat) (t : List Byte) (s : State) : (putTake l k t s).offPending = s.offPending := by rfl
@[simp] theorem putTake_hops (l k : Nat) (t : List Byte) (s : State) : (putTake l k t s).hops = s.hops := by rfl
@[simp] theorem putTake_pulse (l k : Nat) (t : List Byte) (s : State) : (putTake l k t s).pulse = s.pulse := by rfl
@[simp] theorem putTake_chain (l k : Nat) (t : List Byte) (s : State) : (putTake l k t s).chain = s.chain := by rfl
@[simp] theorem putTake_muxes (l k : Nat) (t : List Byte) (s : State) : (putTake l k t s).muxes = s.muxes := by rfl
@[simp] theorem putTake_muxFrozen (l k : Nat) (t : List Byte) (s : State) : (putTake l k t s).muxFrozen = s.muxFrozen := by rfl
@[simp] theorem putTake_bcfg (l k : Nat) (t : List Byte) (s : State) : (putTake l k t s).bcfg = s.bcfg := by rfl
@[simp] theorem putTake_rackBoot (l k : Nat) (t : List Byte) (s : State) : (putTake l k t s).rackBoot = s.rackBoot := by rfl
@[simp] theorem putTake_badWords (l k : Nat) (t : List Byte) (s : State) : (putTake l k t s).badWords = s.badWords := by rfl
@[simp] theorem putTake_corrAt (l k : Nat) (t : List Byte) (s : State) : (putTake l k t s).corrAt = s.corrAt := by rfl
@[simp] theorem putTake_rootWords (l k : Nat) (t : List Byte) (s : State) : (putTake l k t s).rootWords = s.rootWords := by rfl
@[simp] theorem putTake_rootWord (l k : Nat) (t : List Byte) (s : State) : (putTake l k t s).rootWord = s.rootWord := by rfl
@[simp] theorem putTake_rootPending (l k : Nat) (t : List Byte) (s : State) : (putTake l k t s).rootPending = s.rootPending := by rfl
@[simp] theorem putTake_badCores (l k : Nat) (t : List Byte) (s : State) : (putTake l k t s).badCores = s.badCores := by rfl
@[simp] theorem putTake_spread (l k : Nat) (t : List Byte) (s : State) : (putTake l k t s).spread = s.spread := by rfl
@[simp] theorem putTake_lastClap (l k : Nat) (t : List Byte) (s : State) : (putTake l k t s).lastClap = s.lastClap := by rfl
@[simp] theorem putTake_doms (l k : Nat) (t : List Byte) (s : State) : (putTake l k t s).doms = s.doms := by rfl
@[simp] theorem putTake_dips (l k : Nat) (t : List Byte) (s : State) : (putTake l k t s).dips = s.dips := by rfl
@[simp] theorem putTake_plChanges (l k : Nat) (t : List Byte) (s : State) : (putTake l k t s).plChanges = s.plChanges := by rfl
@[simp] theorem putTake_discards (l k : Nat) (t : List Byte) (s : State) : (putTake l k t s).discards = s.discards := by rfl
@[simp] theorem putTake_temps (l k : Nat) (t : List Byte) (s : State) : (putTake l k t s).temps = s.temps := by rfl
@[simp] theorem putTake_mram (l k : Nat) (t : List Byte) (s : State) : (putTake l k t s).mram = s.mram := by rfl
@[simp] theorem putTake_sram (l k : Nat) (t : List Byte) (s : State) : (putTake l k t s).sram = s.sram := by rfl
@[simp] theorem putTake_utilDiscard (l k : Nat) (t : List Byte) (s : State) : (putTake l k t s).utilDiscard = s.utilDiscard := by rfl
@[simp] theorem putTake_links (l k : Nat) (t : List Byte) (s : State) : (putTake l k t s).links = s.links := by rfl
@[simp] theorem putTake_pairs (l k : Nat) (t : List Byte) (s : State) : (putTake l k t s).pairs = s.pairs := by rfl
@[simp] theorem putTake_ports (l k : Nat) (t : List Byte) (s : State) : (putTake l k t s).ports = s.ports := by rfl
@[simp] theorem putTake_tiles (l k : Nat) (t : List Byte) (s : State) : (putTake l k t s).tiles = s.tiles := by rfl
@[simp] theorem putTake_runs (l k : Nat) (t : List Byte) (s : State) : (putTake l k t s).runs = s.runs := by rfl
@[simp] theorem putTake_captures (l k : Nat) (t : List Byte) (s : State) : (putTake l k t s).captures = s.captures := by rfl
@[simp] theorem putTake_stalls (l k : Nat) (t : List Byte) (s : State) : (putTake l k t s).stalls = s.stalls := by rfl
@[simp] theorem putTake_areas (l k : Nat) (t : List Byte) (s : State) : (putTake l k t s).areas = s.areas := by rfl
@[simp] theorem putTake_work (l k : Nat) (t : List Byte) (s : State) : (putTake l k t s).work = s.work := by rfl
@[simp] theorem putTake_syns (l k : Nat) (t : List Byte) (s : State) : (putTake l k t s).syns = s.syns := by rfl
@[simp] theorem putTake_lanes (l k : Nat) (t : List Byte) (s : State) : (putTake l k t s).lanes = s.lanes := by rfl
@[simp] theorem putTake_contRecs (l k : Nat) (t : List Byte) (s : State) : (putTake l k t s).contRecs = s.contRecs := by rfl
@[simp] theorem putTake_contUse (l k : Nat) (t : List Byte) (s : State) : (putTake l k t s).contUse = s.contUse := by rfl
@[simp] theorem putTake_contDrop (l k : Nat) (t : List Byte) (s : State) : (putTake l k t s).contDrop = s.contDrop := by rfl
@[simp] theorem putTake_contEvict (l k : Nat) (t : List Byte) (s : State) : (putTake l k t s).contEvict = s.contEvict := by rfl
@[simp] theorem putTake_contBad (l k : Nat) (t : List Byte) (s : State) : (putTake l k t s).contBad = s.contBad := by rfl
@[simp] theorem putTake_contStale (l k : Nat) (t : List Byte) (s : State) : (putTake l k t s).contStale = s.contStale := by rfl
@[simp] theorem putTake_contDue (l k : Nat) (t : List Byte) (s : State) : (putTake l k t s).contDue = s.contDue := by rfl
@[simp] theorem rd_putTake (l k : Nat) (t : List Byte) (s : State) (j : Nat) : rd (putTake l k t s) j = rd s j := by rfl
@[simp] theorem rdView_putTake (l k : Nat) (t : List Byte) (s : State) (vw : View) (j : Nat) : rdView (putTake l k t s) vw j = rdView s vw j := by rfl
@[simp] theorem linkOf_putTake (l k : Nat) (t : List Byte) (s : State) (j : Nat) : linkOf (putTake l k t s) j = linkOf s j := by rfl
@[simp] theorem pairOf_putTake (l k : Nat) (t : List Byte) (s : State) (j : Nat) : pairOf (putTake l k t s) j = pairOf s j := by rfl
@[simp] theorem portOf_putTake (l k : Nat) (t : List Byte) (s : State) (j : Nat) : portOf (putTake l k t s) j = portOf s j := by rfl
@[simp] theorem tileOf_putTake (l k : Nat) (t : List Byte) (s : State) (j : Nat) : tileOf (putTake l k t s) j = tileOf s j := by rfl
@[simp] theorem synOf_putTake (l k : Nat) (t : List Byte) (s : State) (j : Nat) : synOf (putTake l k t s) j = synOf s j := by rfl
@[simp] theorem laneOf_putTake (l k : Nat) (t : List Byte) (s : State) (j : Nat) : laneOf (putTake l k t s) j = laneOf s j := by rfl
@[simp] theorem domOf_putTake (l k : Nat) (t : List Byte) (s : State) (j : Nat) : domOf (putTake l k t s) j = domOf s j := by rfl
@[simp] theorem runsOf_putTake (l k : Nat) (t : List Byte) (s : State) (j : Nat) : runsOf (putTake l k t s) j = runsOf s j := by rfl
@[simp] theorem capsOf_putTake (l k : Nat) (t : List Byte) (s : State) (j : Nat) : capsOf (putTake l k t s) j = capsOf s j := by rfl
@[simp] theorem putRuns_pending (g : Nat) (l : List Run) (s : State) : (putRuns g l s).pending = s.pending := by rfl
@[simp] theorem putRuns_mode (g : Nat) (l : List Run) (s : State) : (putRuns g l s).mode = s.mode := by rfl
@[simp] theorem putRuns_time (g : Nat) (l : List Run) (s : State) : (putRuns g l s).time = s.time := by rfl
@[simp] theorem putRuns_regs (g : Nat) (l : List Run) (s : State) : (putRuns g l s).regs = s.regs := by rfl
@[simp] theorem putRuns_views (g : Nat) (l : List Run) (s : State) : (putRuns g l s).views = s.views := by rfl
@[simp] theorem putRuns_held (g : Nat) (l : List Run) (s : State) : (putRuns g l s).held = s.held := by rfl
@[simp] theorem putRuns_snapAt (g : Nat) (l : List Run) (s : State) : (putRuns g l s).snapAt = s.snapAt := by rfl
@[simp] theorem putRuns_snapOff (g : Nat) (l : List Run) (s : State) : (putRuns g l s).snapOff = s.snapOff := by rfl
@[simp] theorem putRuns_snapDone (g : Nat) (l : List Run) (s : State) : (putRuns g l s).snapDone = s.snapDone := by rfl
@[simp] theorem putRuns_perfWins (g : Nat) (l : List Run) (s : State) : (putRuns g l s).perfWins = s.perfWins := by rfl
@[simp] theorem putRuns_perfAcc (g : Nat) (l : List Run) (s : State) : (putRuns g l s).perfAcc = s.perfAcc := by rfl
@[simp] theorem putRuns_timeLatch (g : Nat) (l : List Run) (s : State) : (putRuns g l s).timeLatch = s.timeLatch := by rfl
@[simp] theorem putRuns_hostMem (g : Nat) (l : List Run) (s : State) : (putRuns g l s).hostMem = s.hostMem := by rfl
@[simp] theorem putRuns_out (g : Nat) (l : List Run) (s : State) : (putRuns g l s).out = s.out := by rfl
@[simp] theorem putRuns_fresh (g : Nat) (l : List Run) (s : State) : (putRuns g l s).fresh = s.fresh := by rfl
@[simp] theorem putRuns_cmd (g : Nat) (l : List Run) (s : State) : (putRuns g l s).cmd = s.cmd := by rfl
@[simp] theorem putRuns_evt (g : Nat) (l : List Run) (s : State) : (putRuns g l s).evt = s.evt := by rfl
@[simp] theorem putRuns_pcie (g : Nat) (l : List Run) (s : State) : (putRuns g l s).pcie = s.pcie := by rfl
@[simp] theorem putRuns_sp (g : Nat) (l : List Run) (s : State) : (putRuns g l s).sp = s.sp := by rfl
@[simp] theorem putRuns_fw (g : Nat) (l : List Run) (s : State) : (putRuns g l s).fw = s.fw := by rfl
@[simp] theorem putRuns_offPending (g : Nat) (l : List Run) (s : State) : (putRuns g l s).offPending = s.offPending := by rfl
@[simp] theorem putRuns_hops (g : Nat) (l : List Run) (s : State) : (putRuns g l s).hops = s.hops := by rfl
@[simp] theorem putRuns_pulse (g : Nat) (l : List Run) (s : State) : (putRuns g l s).pulse = s.pulse := by rfl
@[simp] theorem putRuns_chain (g : Nat) (l : List Run) (s : State) : (putRuns g l s).chain = s.chain := by rfl
@[simp] theorem putRuns_muxes (g : Nat) (l : List Run) (s : State) : (putRuns g l s).muxes = s.muxes := by rfl
@[simp] theorem putRuns_muxFrozen (g : Nat) (l : List Run) (s : State) : (putRuns g l s).muxFrozen = s.muxFrozen := by rfl
@[simp] theorem putRuns_bcfg (g : Nat) (l : List Run) (s : State) : (putRuns g l s).bcfg = s.bcfg := by rfl
@[simp] theorem putRuns_rackBoot (g : Nat) (l : List Run) (s : State) : (putRuns g l s).rackBoot = s.rackBoot := by rfl
@[simp] theorem putRuns_badWords (g : Nat) (l : List Run) (s : State) : (putRuns g l s).badWords = s.badWords := by rfl
@[simp] theorem putRuns_corrAt (g : Nat) (l : List Run) (s : State) : (putRuns g l s).corrAt = s.corrAt := by rfl
@[simp] theorem putRuns_rootWords (g : Nat) (l : List Run) (s : State) : (putRuns g l s).rootWords = s.rootWords := by rfl
@[simp] theorem putRuns_rootWord (g : Nat) (l : List Run) (s : State) : (putRuns g l s).rootWord = s.rootWord := by rfl
@[simp] theorem putRuns_rootPending (g : Nat) (l : List Run) (s : State) : (putRuns g l s).rootPending = s.rootPending := by rfl
@[simp] theorem putRuns_badCores (g : Nat) (l : List Run) (s : State) : (putRuns g l s).badCores = s.badCores := by rfl
@[simp] theorem putRuns_spread (g : Nat) (l : List Run) (s : State) : (putRuns g l s).spread = s.spread := by rfl
@[simp] theorem putRuns_lastClap (g : Nat) (l : List Run) (s : State) : (putRuns g l s).lastClap = s.lastClap := by rfl
@[simp] theorem putRuns_doms (g : Nat) (l : List Run) (s : State) : (putRuns g l s).doms = s.doms := by rfl
@[simp] theorem putRuns_dips (g : Nat) (l : List Run) (s : State) : (putRuns g l s).dips = s.dips := by rfl
@[simp] theorem putRuns_plChanges (g : Nat) (l : List Run) (s : State) : (putRuns g l s).plChanges = s.plChanges := by rfl
@[simp] theorem putRuns_discards (g : Nat) (l : List Run) (s : State) : (putRuns g l s).discards = s.discards := by rfl
@[simp] theorem putRuns_temps (g : Nat) (l : List Run) (s : State) : (putRuns g l s).temps = s.temps := by rfl
@[simp] theorem putRuns_mram (g : Nat) (l : List Run) (s : State) : (putRuns g l s).mram = s.mram := by rfl
@[simp] theorem putRuns_sram (g : Nat) (l : List Run) (s : State) : (putRuns g l s).sram = s.sram := by rfl
@[simp] theorem putRuns_utilDiscard (g : Nat) (l : List Run) (s : State) : (putRuns g l s).utilDiscard = s.utilDiscard := by rfl
@[simp] theorem putRuns_links (g : Nat) (l : List Run) (s : State) : (putRuns g l s).links = s.links := by rfl
@[simp] theorem putRuns_pairs (g : Nat) (l : List Run) (s : State) : (putRuns g l s).pairs = s.pairs := by rfl
@[simp] theorem putRuns_ports (g : Nat) (l : List Run) (s : State) : (putRuns g l s).ports = s.ports := by rfl
@[simp] theorem putRuns_tiles (g : Nat) (l : List Run) (s : State) : (putRuns g l s).tiles = s.tiles := by rfl
@[simp] theorem putRuns_takes (g : Nat) (l : List Run) (s : State) : (putRuns g l s).takes = s.takes := by rfl
@[simp] theorem putRuns_captures (g : Nat) (l : List Run) (s : State) : (putRuns g l s).captures = s.captures := by rfl
@[simp] theorem putRuns_stalls (g : Nat) (l : List Run) (s : State) : (putRuns g l s).stalls = s.stalls := by rfl
@[simp] theorem putRuns_areas (g : Nat) (l : List Run) (s : State) : (putRuns g l s).areas = s.areas := by rfl
@[simp] theorem putRuns_work (g : Nat) (l : List Run) (s : State) : (putRuns g l s).work = s.work := by rfl
@[simp] theorem putRuns_syns (g : Nat) (l : List Run) (s : State) : (putRuns g l s).syns = s.syns := by rfl
@[simp] theorem putRuns_lanes (g : Nat) (l : List Run) (s : State) : (putRuns g l s).lanes = s.lanes := by rfl
@[simp] theorem putRuns_contRecs (g : Nat) (l : List Run) (s : State) : (putRuns g l s).contRecs = s.contRecs := by rfl
@[simp] theorem putRuns_contUse (g : Nat) (l : List Run) (s : State) : (putRuns g l s).contUse = s.contUse := by rfl
@[simp] theorem putRuns_contDrop (g : Nat) (l : List Run) (s : State) : (putRuns g l s).contDrop = s.contDrop := by rfl
@[simp] theorem putRuns_contEvict (g : Nat) (l : List Run) (s : State) : (putRuns g l s).contEvict = s.contEvict := by rfl
@[simp] theorem putRuns_contBad (g : Nat) (l : List Run) (s : State) : (putRuns g l s).contBad = s.contBad := by rfl
@[simp] theorem putRuns_contStale (g : Nat) (l : List Run) (s : State) : (putRuns g l s).contStale = s.contStale := by rfl
@[simp] theorem putRuns_contDue (g : Nat) (l : List Run) (s : State) : (putRuns g l s).contDue = s.contDue := by rfl
@[simp] theorem rd_putRuns (g : Nat) (l : List Run) (s : State) (j : Nat) : rd (putRuns g l s) j = rd s j := by rfl
@[simp] theorem rdView_putRuns (g : Nat) (l : List Run) (s : State) (vw : View) (j : Nat) : rdView (putRuns g l s) vw j = rdView s vw j := by rfl
@[simp] theorem linkOf_putRuns (g : Nat) (l : List Run) (s : State) (j : Nat) : linkOf (putRuns g l s) j = linkOf s j := by rfl
@[simp] theorem pairOf_putRuns (g : Nat) (l : List Run) (s : State) (j : Nat) : pairOf (putRuns g l s) j = pairOf s j := by rfl
@[simp] theorem portOf_putRuns (g : Nat) (l : List Run) (s : State) (j : Nat) : portOf (putRuns g l s) j = portOf s j := by rfl
@[simp] theorem tileOf_putRuns (g : Nat) (l : List Run) (s : State) (j : Nat) : tileOf (putRuns g l s) j = tileOf s j := by rfl
@[simp] theorem synOf_putRuns (g : Nat) (l : List Run) (s : State) (j : Nat) : synOf (putRuns g l s) j = synOf s j := by rfl
@[simp] theorem laneOf_putRuns (g : Nat) (l : List Run) (s : State) (j : Nat) : laneOf (putRuns g l s) j = laneOf s j := by rfl
@[simp] theorem domOf_putRuns (g : Nat) (l : List Run) (s : State) (j : Nat) : domOf (putRuns g l s) j = domOf s j := by rfl
@[simp] theorem capsOf_putRuns (g : Nat) (l : List Run) (s : State) (j : Nat) : capsOf (putRuns g l s) j = capsOf s j := by rfl
@[simp] theorem putCaps_pending (p : Nat) (l : List Capture) (s : State) : (putCaps p l s).pending = s.pending := by rfl
@[simp] theorem putCaps_mode (p : Nat) (l : List Capture) (s : State) : (putCaps p l s).mode = s.mode := by rfl
@[simp] theorem putCaps_time (p : Nat) (l : List Capture) (s : State) : (putCaps p l s).time = s.time := by rfl
@[simp] theorem putCaps_regs (p : Nat) (l : List Capture) (s : State) : (putCaps p l s).regs = s.regs := by rfl
@[simp] theorem putCaps_views (p : Nat) (l : List Capture) (s : State) : (putCaps p l s).views = s.views := by rfl
@[simp] theorem putCaps_held (p : Nat) (l : List Capture) (s : State) : (putCaps p l s).held = s.held := by rfl
@[simp] theorem putCaps_snapAt (p : Nat) (l : List Capture) (s : State) : (putCaps p l s).snapAt = s.snapAt := by rfl
@[simp] theorem putCaps_snapOff (p : Nat) (l : List Capture) (s : State) : (putCaps p l s).snapOff = s.snapOff := by rfl
@[simp] theorem putCaps_snapDone (p : Nat) (l : List Capture) (s : State) : (putCaps p l s).snapDone = s.snapDone := by rfl
@[simp] theorem putCaps_perfWins (p : Nat) (l : List Capture) (s : State) : (putCaps p l s).perfWins = s.perfWins := by rfl
@[simp] theorem putCaps_perfAcc (p : Nat) (l : List Capture) (s : State) : (putCaps p l s).perfAcc = s.perfAcc := by rfl
@[simp] theorem putCaps_timeLatch (p : Nat) (l : List Capture) (s : State) : (putCaps p l s).timeLatch = s.timeLatch := by rfl
@[simp] theorem putCaps_hostMem (p : Nat) (l : List Capture) (s : State) : (putCaps p l s).hostMem = s.hostMem := by rfl
@[simp] theorem putCaps_out (p : Nat) (l : List Capture) (s : State) : (putCaps p l s).out = s.out := by rfl
@[simp] theorem putCaps_fresh (p : Nat) (l : List Capture) (s : State) : (putCaps p l s).fresh = s.fresh := by rfl
@[simp] theorem putCaps_cmd (p : Nat) (l : List Capture) (s : State) : (putCaps p l s).cmd = s.cmd := by rfl
@[simp] theorem putCaps_evt (p : Nat) (l : List Capture) (s : State) : (putCaps p l s).evt = s.evt := by rfl
@[simp] theorem putCaps_pcie (p : Nat) (l : List Capture) (s : State) : (putCaps p l s).pcie = s.pcie := by rfl
@[simp] theorem putCaps_sp (p : Nat) (l : List Capture) (s : State) : (putCaps p l s).sp = s.sp := by rfl
@[simp] theorem putCaps_fw (p : Nat) (l : List Capture) (s : State) : (putCaps p l s).fw = s.fw := by rfl
@[simp] theorem putCaps_offPending (p : Nat) (l : List Capture) (s : State) : (putCaps p l s).offPending = s.offPending := by rfl
@[simp] theorem putCaps_hops (p : Nat) (l : List Capture) (s : State) : (putCaps p l s).hops = s.hops := by rfl
@[simp] theorem putCaps_pulse (p : Nat) (l : List Capture) (s : State) : (putCaps p l s).pulse = s.pulse := by rfl
@[simp] theorem putCaps_chain (p : Nat) (l : List Capture) (s : State) : (putCaps p l s).chain = s.chain := by rfl
@[simp] theorem putCaps_muxes (p : Nat) (l : List Capture) (s : State) : (putCaps p l s).muxes = s.muxes := by rfl
@[simp] theorem putCaps_muxFrozen (p : Nat) (l : List Capture) (s : State) : (putCaps p l s).muxFrozen = s.muxFrozen := by rfl
@[simp] theorem putCaps_bcfg (p : Nat) (l : List Capture) (s : State) : (putCaps p l s).bcfg = s.bcfg := by rfl
@[simp] theorem putCaps_rackBoot (p : Nat) (l : List Capture) (s : State) : (putCaps p l s).rackBoot = s.rackBoot := by rfl
@[simp] theorem putCaps_badWords (p : Nat) (l : List Capture) (s : State) : (putCaps p l s).badWords = s.badWords := by rfl
@[simp] theorem putCaps_corrAt (p : Nat) (l : List Capture) (s : State) : (putCaps p l s).corrAt = s.corrAt := by rfl
@[simp] theorem putCaps_rootWords (p : Nat) (l : List Capture) (s : State) : (putCaps p l s).rootWords = s.rootWords := by rfl
@[simp] theorem putCaps_rootWord (p : Nat) (l : List Capture) (s : State) : (putCaps p l s).rootWord = s.rootWord := by rfl
@[simp] theorem putCaps_rootPending (p : Nat) (l : List Capture) (s : State) : (putCaps p l s).rootPending = s.rootPending := by rfl
@[simp] theorem putCaps_badCores (p : Nat) (l : List Capture) (s : State) : (putCaps p l s).badCores = s.badCores := by rfl
@[simp] theorem putCaps_spread (p : Nat) (l : List Capture) (s : State) : (putCaps p l s).spread = s.spread := by rfl
@[simp] theorem putCaps_lastClap (p : Nat) (l : List Capture) (s : State) : (putCaps p l s).lastClap = s.lastClap := by rfl
@[simp] theorem putCaps_doms (p : Nat) (l : List Capture) (s : State) : (putCaps p l s).doms = s.doms := by rfl
@[simp] theorem putCaps_dips (p : Nat) (l : List Capture) (s : State) : (putCaps p l s).dips = s.dips := by rfl
@[simp] theorem putCaps_plChanges (p : Nat) (l : List Capture) (s : State) : (putCaps p l s).plChanges = s.plChanges := by rfl
@[simp] theorem putCaps_discards (p : Nat) (l : List Capture) (s : State) : (putCaps p l s).discards = s.discards := by rfl
@[simp] theorem putCaps_temps (p : Nat) (l : List Capture) (s : State) : (putCaps p l s).temps = s.temps := by rfl
@[simp] theorem putCaps_mram (p : Nat) (l : List Capture) (s : State) : (putCaps p l s).mram = s.mram := by rfl
@[simp] theorem putCaps_sram (p : Nat) (l : List Capture) (s : State) : (putCaps p l s).sram = s.sram := by rfl
@[simp] theorem putCaps_utilDiscard (p : Nat) (l : List Capture) (s : State) : (putCaps p l s).utilDiscard = s.utilDiscard := by rfl
@[simp] theorem putCaps_links (p : Nat) (l : List Capture) (s : State) : (putCaps p l s).links = s.links := by rfl
@[simp] theorem putCaps_pairs (p : Nat) (l : List Capture) (s : State) : (putCaps p l s).pairs = s.pairs := by rfl
@[simp] theorem putCaps_ports (p : Nat) (l : List Capture) (s : State) : (putCaps p l s).ports = s.ports := by rfl
@[simp] theorem putCaps_tiles (p : Nat) (l : List Capture) (s : State) : (putCaps p l s).tiles = s.tiles := by rfl
@[simp] theorem putCaps_takes (p : Nat) (l : List Capture) (s : State) : (putCaps p l s).takes = s.takes := by rfl
@[simp] theorem putCaps_runs (p : Nat) (l : List Capture) (s : State) : (putCaps p l s).runs = s.runs := by rfl
@[simp] theorem putCaps_stalls (p : Nat) (l : List Capture) (s : State) : (putCaps p l s).stalls = s.stalls := by rfl
@[simp] theorem putCaps_areas (p : Nat) (l : List Capture) (s : State) : (putCaps p l s).areas = s.areas := by rfl
@[simp] theorem putCaps_work (p : Nat) (l : List Capture) (s : State) : (putCaps p l s).work = s.work := by rfl
@[simp] theorem putCaps_syns (p : Nat) (l : List Capture) (s : State) : (putCaps p l s).syns = s.syns := by rfl
@[simp] theorem putCaps_lanes (p : Nat) (l : List Capture) (s : State) : (putCaps p l s).lanes = s.lanes := by rfl
@[simp] theorem putCaps_contRecs (p : Nat) (l : List Capture) (s : State) : (putCaps p l s).contRecs = s.contRecs := by rfl
@[simp] theorem putCaps_contUse (p : Nat) (l : List Capture) (s : State) : (putCaps p l s).contUse = s.contUse := by rfl
@[simp] theorem putCaps_contDrop (p : Nat) (l : List Capture) (s : State) : (putCaps p l s).contDrop = s.contDrop := by rfl
@[simp] theorem putCaps_contEvict (p : Nat) (l : List Capture) (s : State) : (putCaps p l s).contEvict = s.contEvict := by rfl
@[simp] theorem putCaps_contBad (p : Nat) (l : List Capture) (s : State) : (putCaps p l s).contBad = s.contBad := by rfl
@[simp] theorem putCaps_contStale (p : Nat) (l : List Capture) (s : State) : (putCaps p l s).contStale = s.contStale := by rfl
@[simp] theorem putCaps_contDue (p : Nat) (l : List Capture) (s : State) : (putCaps p l s).contDue = s.contDue := by rfl
@[simp] theorem rd_putCaps (p : Nat) (l : List Capture) (s : State) (j : Nat) : rd (putCaps p l s) j = rd s j := by rfl
@[simp] theorem rdView_putCaps (p : Nat) (l : List Capture) (s : State) (vw : View) (j : Nat) : rdView (putCaps p l s) vw j = rdView s vw j := by rfl
@[simp] theorem linkOf_putCaps (p : Nat) (l : List Capture) (s : State) (j : Nat) : linkOf (putCaps p l s) j = linkOf s j := by rfl
@[simp] theorem pairOf_putCaps (p : Nat) (l : List Capture) (s : State) (j : Nat) : pairOf (putCaps p l s) j = pairOf s j := by rfl
@[simp] theorem portOf_putCaps (p : Nat) (l : List Capture) (s : State) (j : Nat) : portOf (putCaps p l s) j = portOf s j := by rfl
@[simp] theorem tileOf_putCaps (p : Nat) (l : List Capture) (s : State) (j : Nat) : tileOf (putCaps p l s) j = tileOf s j := by rfl
@[simp] theorem synOf_putCaps (p : Nat) (l : List Capture) (s : State) (j : Nat) : synOf (putCaps p l s) j = synOf s j := by rfl
@[simp] theorem laneOf_putCaps (p : Nat) (l : List Capture) (s : State) (j : Nat) : laneOf (putCaps p l s) j = laneOf s j := by rfl
@[simp] theorem domOf_putCaps (p : Nat) (l : List Capture) (s : State) (j : Nat) : domOf (putCaps p l s) j = domOf s j := by rfl
@[simp] theorem runsOf_putCaps (p : Nat) (l : List Capture) (s : State) (j : Nat) : runsOf (putCaps p l s) j = runsOf s j := by rfl

/-! ### Raising an event -/

/-- Everything that raising an event can change. -/
theorem raise_writes (code : Nat) (unit : BitVec 16) (data : List Byte) (s : State) :
    ∃ e r o c, raise code unit data s = { s with evt := e, regs := r, out := o, chain := c } ∧
      ∀ a, a ≠ evtLastSeqR → a ≠ evtlogDropR → a ≠ evtFullCntR → a ≠ evtRingStatusR → a ≠ chainHopDropR → rd (raise code unit data s) a = rd s a := by
  have stage : ∀ (x : EvRec) (u : State), ∃ e r, stageRec x u = { u with evt := e, regs := r } ∧
      ∀ a, a ≠ evtFullCntR → a ≠ evtRingStatusR → rd (stageRec x u) a = rd u a := by
    intro x u
    unfold stageRec
    split
    · split
      · exact ⟨_, _, rfl, fun a _ _ => rfl⟩
      · exact ⟨_, _, rfl, fun a h1 h2 => (rd_wrB_other _ _ _ h2).trans (rd_count_other _ _ h1)⟩
    · exact ⟨_, _, rfl, fun a _ _ => rfl⟩
  have log : ∀ (x : EvRec) (u : State), ∃ e r, logPush x u = { u with evt := e, regs := r } ∧
      ∀ a, a ≠ evtlogDropR → rd (logPush x u) a = rd u a := by
    intro x u
    unfold logPush
    split
    · exact ⟨_, _, rfl, fun a _ => rfl⟩
    · exact ⟨_, _, rfl, fun a h => rd_count_other _ _ h⟩
  have send : ∀ (x : EvRec) (u : State), ∃ r o c, chainEvent x u = { u with regs := r, out := o, chain := c } ∧
      ∀ a, a ≠ chainHopDropR → rd (chainEvent x u) a = rd u a := by
    intro x u
    unfold chainEvent
    split
    · exact ⟨_, _, _, rfl, fun a _ => rfl⟩
    · split
      · exact ⟨_, _, _, rfl, fun a _ => rfl⟩
      · exact ⟨_, _, _, rfl, fun a h => rd_count_other _ _ h⟩
  unfold raise
  extract_lets n lg r e0 s1 s2 s3
  have h1 : ∃ e q, s1 = { s with evt := e, regs := q } ∧ ∀ a, a ≠ evtLastSeqR → rd s1 a = rd s a := ⟨_, _, rfl, fun a h => rd_wr_other _ _ h⟩
  obtain ⟨e1, q1, h1, g1⟩ := h1
  have h2 : ∃ e q, s2 = { s1 with evt := e, regs := q } ∧ ∀ a, a ≠ evtlogDropR → rd s2 a = rd s1 a := by
    by_cases h : lg = true
    · simp only [s2, h, if_true]; exact log r s1
    · simp only [s2, h]; exact ⟨_, _, rfl, fun a _ => rfl⟩
  obtain ⟨e2, q2, h2, g2⟩ := h2
  have h3 : ∃ q o c, s3 = { s2 with regs := q, out := o, chain := c } ∧ ∀ a, a ≠ chainHopDropR → rd s3 a = rd s2 a := by
    simp only [s3]
    split
    · exact send r s2
    · exact ⟨_, _, _, rfl, fun a _ => rfl⟩
  obtain ⟨q3, o3, c3, h3, g3⟩ := h3
  obtain ⟨e4, q4, h4, g4⟩ := stage r s3
  exact ⟨e4, q4, o3, c3, by rw [h4, h3, h2, h1], fun a d1 d2 d3 d4 d5 => by rw [g4 a d3 d4, g3 a d5, g2 a d2, g1 a d1]⟩
@[simp] theorem raise_pending (code : Nat) (unit : BitVec 16) (data : List Byte) (s : State) : (raise code unit data s).pending = s.pending := by
  obtain ⟨_, _, _, _, h, _⟩ := raise_writes code unit data s; rw [h]
@[simp] theorem raise_mode (code : Nat) (unit : BitVec 16) (data : List Byte) (s : State) : (raise code unit data s).mode = s.mode := by
  obtain ⟨_, _, _, _, h, _⟩ := raise_writes code unit data s; rw [h]
@[simp] theorem raise_time (code : Nat) (unit : BitVec 16) (data : List Byte) (s : State) : (raise code unit data s).time = s.time := by
  obtain ⟨_, _, _, _, h, _⟩ := raise_writes code unit data s; rw [h]
@[simp] theorem raise_views (code : Nat) (unit : BitVec 16) (data : List Byte) (s : State) : (raise code unit data s).views = s.views := by
  obtain ⟨_, _, _, _, h, _⟩ := raise_writes code unit data s; rw [h]
@[simp] theorem raise_held (code : Nat) (unit : BitVec 16) (data : List Byte) (s : State) : (raise code unit data s).held = s.held := by
  obtain ⟨_, _, _, _, h, _⟩ := raise_writes code unit data s; rw [h]
@[simp] theorem raise_snapAt (code : Nat) (unit : BitVec 16) (data : List Byte) (s : State) : (raise code unit data s).snapAt = s.snapAt := by
  obtain ⟨_, _, _, _, h, _⟩ := raise_writes code unit data s; rw [h]
@[simp] theorem raise_snapOff (code : Nat) (unit : BitVec 16) (data : List Byte) (s : State) : (raise code unit data s).snapOff = s.snapOff := by
  obtain ⟨_, _, _, _, h, _⟩ := raise_writes code unit data s; rw [h]
@[simp] theorem raise_snapDone (code : Nat) (unit : BitVec 16) (data : List Byte) (s : State) : (raise code unit data s).snapDone = s.snapDone := by
  obtain ⟨_, _, _, _, h, _⟩ := raise_writes code unit data s; rw [h]
@[simp] theorem raise_perfWins (code : Nat) (unit : BitVec 16) (data : List Byte) (s : State) : (raise code unit data s).perfWins = s.perfWins := by
  obtain ⟨_, _, _, _, h, _⟩ := raise_writes code unit data s; rw [h]
@[simp] theorem raise_perfAcc (code : Nat) (unit : BitVec 16) (data : List Byte) (s : State) : (raise code unit data s).perfAcc = s.perfAcc := by
  obtain ⟨_, _, _, _, h, _⟩ := raise_writes code unit data s; rw [h]
@[simp] theorem raise_timeLatch (code : Nat) (unit : BitVec 16) (data : List Byte) (s : State) : (raise code unit data s).timeLatch = s.timeLatch := by
  obtain ⟨_, _, _, _, h, _⟩ := raise_writes code unit data s; rw [h]
@[simp] theorem raise_hostMem (code : Nat) (unit : BitVec 16) (data : List Byte) (s : State) : (raise code unit data s).hostMem = s.hostMem := by
  obtain ⟨_, _, _, _, h, _⟩ := raise_writes code unit data s; rw [h]
@[simp] theorem raise_fresh (code : Nat) (unit : BitVec 16) (data : List Byte) (s : State) : (raise code unit data s).fresh = s.fresh := by
  obtain ⟨_, _, _, _, h, _⟩ := raise_writes code unit data s; rw [h]
@[simp] theorem raise_cmd (code : Nat) (unit : BitVec 16) (data : List Byte) (s : State) : (raise code unit data s).cmd = s.cmd := by
  obtain ⟨_, _, _, _, h, _⟩ := raise_writes code unit data s; rw [h]
@[simp] theorem raise_pcie (code : Nat) (unit : BitVec 16) (data : List Byte) (s : State) : (raise code unit data s).pcie = s.pcie := by
  obtain ⟨_, _, _, _, h, _⟩ := raise_writes code unit data s; rw [h]
@[simp] theorem raise_sp (code : Nat) (unit : BitVec 16) (data : List Byte) (s : State) : (raise code unit data s).sp = s.sp := by
  obtain ⟨_, _, _, _, h, _⟩ := raise_writes code unit data s; rw [h]
@[simp] theorem raise_fw (code : Nat) (unit : BitVec 16) (data : List Byte) (s : State) : (raise code unit data s).fw = s.fw := by
  obtain ⟨_, _, _, _, h, _⟩ := raise_writes code unit data s; rw [h]
@[simp] theorem raise_offPending (code : Nat) (unit : BitVec 16) (data : List Byte) (s : State) : (raise code unit data s).offPending = s.offPending := by
  obtain ⟨_, _, _, _, h, _⟩ := raise_writes code unit data s; rw [h]
@[simp] theorem raise_hops (code : Nat) (unit : BitVec 16) (data : List Byte) (s : State) : (raise code unit data s).hops = s.hops := by
  obtain ⟨_, _, _, _, h, _⟩ := raise_writes code unit data s; rw [h]
@[simp] theorem raise_pulse (code : Nat) (unit : BitVec 16) (data : List Byte) (s : State) : (raise code unit data s).pulse = s.pulse := by
  obtain ⟨_, _, _, _, h, _⟩ := raise_writes code unit data s; rw [h]
@[simp] theorem raise_muxes (code : Nat) (unit : BitVec 16) (data : List Byte) (s : State) : (raise code unit data s).muxes = s.muxes := by
  obtain ⟨_, _, _, _, h, _⟩ := raise_writes code unit data s; rw [h]
@[simp] theorem raise_muxFrozen (code : Nat) (unit : BitVec 16) (data : List Byte) (s : State) : (raise code unit data s).muxFrozen = s.muxFrozen := by
  obtain ⟨_, _, _, _, h, _⟩ := raise_writes code unit data s; rw [h]
@[simp] theorem raise_bcfg (code : Nat) (unit : BitVec 16) (data : List Byte) (s : State) : (raise code unit data s).bcfg = s.bcfg := by
  obtain ⟨_, _, _, _, h, _⟩ := raise_writes code unit data s; rw [h]
@[simp] theorem raise_rackBoot (code : Nat) (unit : BitVec 16) (data : List Byte) (s : State) : (raise code unit data s).rackBoot = s.rackBoot := by
  obtain ⟨_, _, _, _, h, _⟩ := raise_writes code unit data s; rw [h]
@[simp] theorem raise_badWords (code : Nat) (unit : BitVec 16) (data : List Byte) (s : State) : (raise code unit data s).badWords = s.badWords := by
  obtain ⟨_, _, _, _, h, _⟩ := raise_writes code unit data s; rw [h]
@[simp] theorem raise_corrAt (code : Nat) (unit : BitVec 16) (data : List Byte) (s : State) : (raise code unit data s).corrAt = s.corrAt := by
  obtain ⟨_, _, _, _, h, _⟩ := raise_writes code unit data s; rw [h]
@[simp] theorem raise_rootWords (code : Nat) (unit : BitVec 16) (data : List Byte) (s : State) : (raise code unit data s).rootWords = s.rootWords := by
  obtain ⟨_, _, _, _, h, _⟩ := raise_writes code unit data s; rw [h]
@[simp] theorem raise_rootWord (code : Nat) (unit : BitVec 16) (data : List Byte) (s : State) : (raise code unit data s).rootWord = s.rootWord := by
  obtain ⟨_, _, _, _, h, _⟩ := raise_writes code unit data s; rw [h]
@[simp] theorem raise_rootPending (code : Nat) (unit : BitVec 16) (data : List Byte) (s : State) : (raise code unit data s).rootPending = s.rootPending := by
  obtain ⟨_, _, _, _, h, _⟩ := raise_writes code unit data s; rw [h]
@[simp] theorem raise_badCores (code : Nat) (unit : BitVec 16) (data : List Byte) (s : State) : (raise code unit data s).badCores = s.badCores := by
  obtain ⟨_, _, _, _, h, _⟩ := raise_writes code unit data s; rw [h]
@[simp] theorem raise_spread (code : Nat) (unit : BitVec 16) (data : List Byte) (s : State) : (raise code unit data s).spread = s.spread := by
  obtain ⟨_, _, _, _, h, _⟩ := raise_writes code unit data s; rw [h]
@[simp] theorem raise_lastClap (code : Nat) (unit : BitVec 16) (data : List Byte) (s : State) : (raise code unit data s).lastClap = s.lastClap := by
  obtain ⟨_, _, _, _, h, _⟩ := raise_writes code unit data s; rw [h]
@[simp] theorem raise_doms (code : Nat) (unit : BitVec 16) (data : List Byte) (s : State) : (raise code unit data s).doms = s.doms := by
  obtain ⟨_, _, _, _, h, _⟩ := raise_writes code unit data s; rw [h]
@[simp] theorem raise_dips (code : Nat) (unit : BitVec 16) (data : List Byte) (s : State) : (raise code unit data s).dips = s.dips := by
  obtain ⟨_, _, _, _, h, _⟩ := raise_writes code unit data s; rw [h]
@[simp] theorem raise_plChanges (code : Nat) (unit : BitVec 16) (data : List Byte) (s : State) : (raise code unit data s).plChanges = s.plChanges := by
  obtain ⟨_, _, _, _, h, _⟩ := raise_writes code unit data s; rw [h]
@[simp] theorem raise_discards (code : Nat) (unit : BitVec 16) (data : List Byte) (s : State) : (raise code unit data s).discards = s.discards := by
  obtain ⟨_, _, _, _, h, _⟩ := raise_writes code unit data s; rw [h]
@[simp] theorem raise_temps (code : Nat) (unit : BitVec 16) (data : List Byte) (s : State) : (raise code unit data s).temps = s.temps := by
  obtain ⟨_, _, _, _, h, _⟩ := raise_writes code unit data s; rw [h]
@[simp] theorem raise_mram (code : Nat) (unit : BitVec 16) (data : List Byte) (s : State) : (raise code unit data s).mram = s.mram := by
  obtain ⟨_, _, _, _, h, _⟩ := raise_writes code unit data s; rw [h]
@[simp] theorem raise_sram (code : Nat) (unit : BitVec 16) (data : List Byte) (s : State) : (raise code unit data s).sram = s.sram := by
  obtain ⟨_, _, _, _, h, _⟩ := raise_writes code unit data s; rw [h]
@[simp] theorem raise_utilDiscard (code : Nat) (unit : BitVec 16) (data : List Byte) (s : State) : (raise code unit data s).utilDiscard = s.utilDiscard := by
  obtain ⟨_, _, _, _, h, _⟩ := raise_writes code unit data s; rw [h]
@[simp] theorem raise_links (code : Nat) (unit : BitVec 16) (data : List Byte) (s : State) : (raise code unit data s).links = s.links := by
  obtain ⟨_, _, _, _, h, _⟩ := raise_writes code unit data s; rw [h]
@[simp] theorem raise_pairs (code : Nat) (unit : BitVec 16) (data : List Byte) (s : State) : (raise code unit data s).pairs = s.pairs := by
  obtain ⟨_, _, _, _, h, _⟩ := raise_writes code unit data s; rw [h]
@[simp] theorem raise_ports (code : Nat) (unit : BitVec 16) (data : List Byte) (s : State) : (raise code unit data s).ports = s.ports := by
  obtain ⟨_, _, _, _, h, _⟩ := raise_writes code unit data s; rw [h]
@[simp] theorem raise_tiles (code : Nat) (unit : BitVec 16) (data : List Byte) (s : State) : (raise code unit data s).tiles = s.tiles := by
  obtain ⟨_, _, _, _, h, _⟩ := raise_writes code unit data s; rw [h]
@[simp] theorem raise_takes (code : Nat) (unit : BitVec 16) (data : List Byte) (s : State) : (raise code unit data s).takes = s.takes := by
  obtain ⟨_, _, _, _, h, _⟩ := raise_writes code unit data s; rw [h]
@[simp] theorem raise_runs (code : Nat) (unit : BitVec 16) (data : List Byte) (s : State) : (raise code unit data s).runs = s.runs := by
  obtain ⟨_, _, _, _, h, _⟩ := raise_writes code unit data s; rw [h]
@[simp] theorem raise_captures (code : Nat) (unit : BitVec 16) (data : List Byte) (s : State) : (raise code unit data s).captures = s.captures := by
  obtain ⟨_, _, _, _, h, _⟩ := raise_writes code unit data s; rw [h]
@[simp] theorem raise_stalls (code : Nat) (unit : BitVec 16) (data : List Byte) (s : State) : (raise code unit data s).stalls = s.stalls := by
  obtain ⟨_, _, _, _, h, _⟩ := raise_writes code unit data s; rw [h]
@[simp] theorem raise_areas (code : Nat) (unit : BitVec 16) (data : List Byte) (s : State) : (raise code unit data s).areas = s.areas := by
  obtain ⟨_, _, _, _, h, _⟩ := raise_writes code unit data s; rw [h]
@[simp] theorem raise_work (code : Nat) (unit : BitVec 16) (data : List Byte) (s : State) : (raise code unit data s).work = s.work := by
  obtain ⟨_, _, _, _, h, _⟩ := raise_writes code unit data s; rw [h]
@[simp] theorem raise_syns (code : Nat) (unit : BitVec 16) (data : List Byte) (s : State) : (raise code unit data s).syns = s.syns := by
  obtain ⟨_, _, _, _, h, _⟩ := raise_writes code unit data s; rw [h]
@[simp] theorem raise_lanes (code : Nat) (unit : BitVec 16) (data : List Byte) (s : State) : (raise code unit data s).lanes = s.lanes := by
  obtain ⟨_, _, _, _, h, _⟩ := raise_writes code unit data s; rw [h]
@[simp] theorem raise_contRecs (code : Nat) (unit : BitVec 16) (data : List Byte) (s : State) : (raise code unit data s).contRecs = s.contRecs := by
  obtain ⟨_, _, _, _, h, _⟩ := raise_writes code unit data s; rw [h]
@[simp] theorem raise_contUse (code : Nat) (unit : BitVec 16) (data : List Byte) (s : State) : (raise code unit data s).contUse = s.contUse := by
  obtain ⟨_, _, _, _, h, _⟩ := raise_writes code unit data s; rw [h]
@[simp] theorem raise_contDrop (code : Nat) (unit : BitVec 16) (data : List Byte) (s : State) : (raise code unit data s).contDrop = s.contDrop := by
  obtain ⟨_, _, _, _, h, _⟩ := raise_writes code unit data s; rw [h]
@[simp] theorem raise_contEvict (code : Nat) (unit : BitVec 16) (data : List Byte) (s : State) : (raise code unit data s).contEvict = s.contEvict := by
  obtain ⟨_, _, _, _, h, _⟩ := raise_writes code unit data s; rw [h]
@[simp] theorem raise_contBad (code : Nat) (unit : BitVec 16) (data : List Byte) (s : State) : (raise code unit data s).contBad = s.contBad := by
  obtain ⟨_, _, _, _, h, _⟩ := raise_writes code unit data s; rw [h]
@[simp] theorem raise_contStale (code : Nat) (unit : BitVec 16) (data : List Byte) (s : State) : (raise code unit data s).contStale = s.contStale := by
  obtain ⟨_, _, _, _, h, _⟩ := raise_writes code unit data s; rw [h]
@[simp] theorem raise_contDue (code : Nat) (unit : BitVec 16) (data : List Byte) (s : State) : (raise code unit data s).contDue = s.contDue := by
  obtain ⟨_, _, _, _, h, _⟩ := raise_writes code unit data s; rw [h]
@[simp] theorem linkOf_raise (code : Nat) (unit : BitVec 16) (data : List Byte) (s : State) (j : Nat) :
    linkOf (raise code unit data s) j = linkOf s j := by
  unfold linkOf; rw [raise_links]
@[simp] theorem pairOf_raise (code : Nat) (unit : BitVec 16) (data : List Byte) (s : State) (j : Nat) :
    pairOf (raise code unit data s) j = pairOf s j := by
  unfold pairOf; rw [raise_pairs]
@[simp] theorem portOf_raise (code : Nat) (unit : BitVec 16) (data : List Byte) (s : State) (j : Nat) :
    portOf (raise code unit data s) j = portOf s j := by
  unfold portOf; rw [raise_ports]
@[simp] theorem tileOf_raise (code : Nat) (unit : BitVec 16) (data : List Byte) (s : State) (j : Nat) :
    tileOf (raise code unit data s) j = tileOf s j := by
  unfold tileOf; rw [raise_tiles]
@[simp] theorem synOf_raise (code : Nat) (unit : BitVec 16) (data : List Byte) (s : State) (j : Nat) :
    synOf (raise code unit data s) j = synOf s j := by
  unfold synOf; rw [raise_syns]
@[simp] theorem laneOf_raise (code : Nat) (unit : BitVec 16) (data : List Byte) (s : State) (j : Nat) :
    laneOf (raise code unit data s) j = laneOf s j := by
  unfold laneOf; rw [raise_lanes]
@[simp] theorem domOf_raise (code : Nat) (unit : BitVec 16) (data : List Byte) (s : State) (j : Nat) :
    domOf (raise code unit data s) j = domOf s j := by
  unfold domOf; rw [raise_doms]
@[simp] theorem runsOf_raise (code : Nat) (unit : BitVec 16) (data : List Byte) (s : State) (j : Nat) :
    runsOf (raise code unit data s) j = runsOf s j := by
  unfold runsOf; rw [raise_runs]
@[simp] theorem capsOf_raise (code : Nat) (unit : BitVec 16) (data : List Byte) (s : State) (j : Nat) :
    capsOf (raise code unit data s) j = capsOf s j := by
  unfold capsOf; rw [raise_captures]

end Sys2Proof.Laws
end

