-- ==== Sys2Proof/Machine/PairPath.lean ====
section
/-! DEFINITION. The transmit and receive paths of a pair as its state sets them: what it drives the line with, its sampling instants, and
stages 1 to 11 of R61 in their order under its active bank. No row brings single symbols or samples (chapters 02, 03, 08). -/
namespace Sys2Proof.Machine

/-! ### What a pair drives the line with (R27, R143, R146, R148, R205, R207, R240, R243, R256, R410) -/

inductive Drive where
  | zero        -- zero differential output
  | dme         -- Clause 73 DME
  | beacon      -- beacon frames
  | superframe  -- superframes of FDX
  | compat      -- the symbols of a COMPAT transmit pair
  | test        -- the sequence of CABLE_TEST
deriving DecidableEq, Repr

/-- The pair of a port that a CABLE_TEST measures: the lowest one left. -/
def testedPair (s : State) (p : Nat) : Option Nat :=
  ((List.range 8).find? (fun k => (portOf s p).cableMask.getLsbD k)).map (fun k => 8 * p + k)

def drives (s : State) (l : Nat) : Drive :=
  if s.mode ≠ .running ∨ lineRuns s l = false ∨ txDisabled s l = true then .zero
  else if cableBusy s (l / 8) then (if testedPair s (l / 8) = some l ∧ atFdxClock s (l / 8) = true then .test else .zero)
  else match linkOfPair s l with
    | none => .zero
    | some m =>
      if digitalLoop s m then .zero
      else if (pairOf s l).txOn then .superframe
      else if sendsBeacon s m l then .beacon
      else if sendsDme s m l then .dme
      else if isCompat (modeOf s m) && trainOrUp (linkOf s m).state && txPair s l && (activePairs s m).contains l then .compat
      else .zero

/-- The DAC code that a pair launches for symbol n of its levels: the transmit part of its active bank, or the settings of a cable test. -/
def launched (s : State) (l : Nat) (a : List Int) (n : Int) : Int :=
  match drives s l with
  | .zero => 0
  | .test => dacCode (zeros 0x40 ++ testTransmit) (levelAt a) n
  | _ => let t := (pairOf s l).active.tx; dacCode t (levelAt (precodedLevels t a)) n

/-- The levels of a superframe before its rows: the slate and the quiet interval (R31, R34). -/
def slateLevels (p : PairSt) : List Int := slateSymbols p ++ injectionSymbols p.inject

/-! ### Sampling (R61, R66 to R68, R72, R249) -/

/-- A COMPAT receive pair: its sampling clock turns. -/
def turning (s : State) (l : Nat) : Bool := onCompat s l && !txPair s l
/-- The receive rotation of a pair in symbols, in steps of 1/256. -/
def receiveRotation (s : State) (l : Nat) : Rat :=
  if turning s l then (((pairOf s l).rotPos * 256).floor : Rat) / 256 else 0
/-- 4 fs in symbol periods: 114.0625 GBd in FDX, 106.25 GBd in COMPAT. -/
def skewStep (compat : Bool) : Rat := if compat then 17 / 40000 else 73 / 160000
def trimSkew (t : List Byte) (k : Nat) : Int := signed 10 (leAt t (0x80 + 4 * k) 4)
/-- The instant of sample n, in symbol periods of the port synthesizer's phase: sample n is at position n of the pair's superframe or period,
and slice n mod 64 takes it (R67, R68). -/
def samplingInstant (s : State) (l : Nat) (n : Int) : Rat :=
  let t := (pairOf s l).active.ana
  (n : Rat) + receiveRotation s l + (tkAdcPhase t : Rat) / 256 + (trimSkew t (n % 64).toNat : Rat) * skewStep (onCompat s l)
/-- The five hybrid trims. -/
def hybridCodes (t : List Byte) : List Nat := [leAt t 0x50 1, leAt t 0x51 1, leAt t 0x52 1, leAt t 0x53 1 % 64, leAt t 0x54 1]
/-- Stage 1: the line less the replica of the own driver, with the gain of RX_PGA in steps of 0.25 dB (R66). -/
def hybridOut (t : List Byte) (line : Rat → Rat) (u : Int → Int) (x : Rat) : Rat :=
  Config.linearGain (25 * (leAt t 0x62 2 % 64)) * (line x - Config.hybridReplica (hybridCodes t) u x)
/-- Stage 2: the 8-bit sample n. DESIGN CHOICE: log 173. -/
def sampleOf (s : State) (l : Nat) (line : Rat → Rat) (u : Int → Int) (n : Int) : Int :=
  max (-128) (min 127 (roundRat (hybridOut (pairOf s l).active.ana line u (samplingInstant s l n))))

/-! ### Stages 3 to 11 under the active bank (R61, R69 to R80, R249) -/

/-- A pair's receive path runs: it is idle on a COMPAT transmit pair (R80). -/
def receives (s : State) (l : Nat) : Bool := lineRuns s l && !(onCompat s l && txPair s l)
/-- The DAC codes of the port's pairs, as the NEXT canceller of a pair takes them: a turning pair takes them at its own instants. -/
def aggressorCodes (s : State) (l : Nat) (u : Nat → Int → Int) (q : Nat) (n : Int) : Rat :=
  if turning s l then Config.resample (u q) ((n : Rat) + receiveRotation s l) else (u q n : Rat)
/-- r[n], from the line and from the levels that the port's pairs send. -/
def residualOf (s : State) (l : Nat) (line : Rat → Rat) (a : Nat → List Int) (n : Int) : Rat :=
  let u (q : Nat) : Int → Int := launched s (l / 8 * 8 + q) (a q)
  residual (pairOf s l).active.dig (l % 8) (n % 64).toNat (sampleOf s l line (u (l % 8)) n) (u (l % 8)) (aggressorCodes s l u) n
/-- The interpolator's whole phase, in symbols: the rotation is its coarse part (R72). -/
def interpolatorPhase (s : State) (l : Nat) : Rat := receiveRotation s l + ((pairOf s l).phi : Rat) / 1024
/-- y[m]: the samples already lie at the rotated instants, and φ carries the rest. -/
def interpolated (s : State) (l : Nat) (line : Rat → Rat) (a : Nat → List Int) (m : Int) : Rat :=
  interpolate (residualOf s l line a) (pairOf s l).phi m
/-- The decisions that a pair's FEXT canceller takes: those of a neighbor whose link is not UP, or which receives nothing, are zero (R77, R80). -/
def neighborDecisions (s : State) (l : Nat) (b : Nat → Int → Int) (q : Nat) (m : Int) : Int :=
  let k := l / 8 * 8 + q
  if k = l ∨ (pairLinkIn s k (fun z => z == .up) && receives s k) = true then b q m else 0
/-- v[m], from the decisions so far of the port's pairs. -/
def slicerInputOf (s : State) (l : Nat) (line : Rat → Rat) (a : Nat → List Int) (b : Nat → Int → Int) (m : Int) : Rat :=
  let t := (pairOf s l).active.dig
  slicerIn t (l % 8) (equalized t (interpolated s l line a)) (neighborDecisions s l b) m
/-- lev[m] and e[m]: the decision and the slicer error. -/
def decisionOf (s : State) (l : Nat) (line : Rat → Rat) (a : Nat → List Int) (b : Nat → Int → Int) (m : Int) : Int × Rat :=
  let t := (pairOf s l).active.dig
  let v := slicerInputOf s l line a b m
  (slice t v, slicerError t v)
/-- Stage 11 of an FDX pair: the outcome of the codeword that starts at symbol m. -/
def codewordOf (s : State) (l : Nat) (line : Rat → Rat) (a : Nat → List Int) (b : Nat → Int → Int) (rank : Nat → Nat) (m : Int) : InnerResult :=
  innerResult (pairOf s l).active.dig ((List.range 64).map (fun (i : Nat) => slicerInputOf s l line a b (m + (i : Int)))) rank

/-- RX_PRECODE of DEC_CFG. -/
def rxPrecode (t : List Byte) : Bool := (leAt t 0x70 2).testBit 8
/-- The 1/(1 + D) mod 4 decoder on symbol values, from the value before: what the precoder took (R80). PRESUMED: log 145. -/
def unprecode : Nat → List Nat → List Nat
  | _, [] => []
  | last, v :: t => (v + last) % 4 :: unprecode v t
/-- The stream symbols of a COMPAT receive pair, from its decisions: there is no inner code (R80). -/
def streamSymbols (t : List Byte) (last : Nat) (lev : List Int) : List Nat :=
  let v := lev.map (fun x => ((x + 3) / 2).toNat)
  if rxPrecode t then unprecode last v else v

end Sys2Proof.Machine
end

