-- ==== Sys2Proof/Tests/Slice0.lean ====
section
/-! SUPPORT. Small checks of the model: an ill-formed term for each check of well-formedness, single steps, and for every statement that
has hypotheses a state and operands that meet them, one for each of its clauses. -/
namespace Sys2Proof.Tests
open Sys2Proof Sys2Proof.Machine
set_option Elab.async false
set_option maxRecDepth 100000
set_option linter.unusedVariables false

/-! ### States that the checks start from -/

def S0 : State := modPair 0 (fun x => { x with onSyn := true }) (wr (tileClkStatusR 0) 0 (wr (tileClkEnR 0) 0xF (wr clkEnR 0x1F { State.reset with mode := .running })))
def cm (cls : BitVec 4) (idx : BitVec 12) (p : List Byte) : Cmd := { cls := cls, idx := idx, paramLen := BitVec.ofNat 16 p.length, inl := decide (p.length ≤ 40), params := p }
def xp (c : Cmd) : Cmd := { c with expert := true }
def lk (st : LState) (s : State) : State := modLink 0 (fun _ => { state := st, mode := 1, mask := 1, runMode := 1, runMask := 1 }) s
def contRec : List Byte := let r := leBytes 4 0x544E4F43 ++ leBytes 2 0x0100 ++ zeros 506; r.take 0x3C ++ leBytes 4 (crc32 (r.take 0x3C ++ zeros 4 ++ r.drop 0x40)) ++ r.drop 0x40
def SC : State := { S0 with contRecs := [(0, contRec)] }
def SV : State := modFw (fun f => { f with verifying := some (1, 3), headers := [(1, leBytes 4 0x4650524F ++ leBytes 2 0x0100 ++ [1] ++ zeros 505)] }) S0
def ent0 : List Byte := let r : List Byte := zeros 252; r ++ leBytes 4 (crc32 r)
def ent1 : List Byte := let r : List Byte := [1, 1] ++ zeros 250; r ++ leBytes 4 (crc32 r)
def SM : State := wr chainStateR 7 S0
def SP : State := { S0 with pcie := { perstN := true, ready := true, memSpace := true, busMaster := true } }
def fl (n : BitVec 6) (st : Stage) : State := modCmd (fun x => { x with inflight := [{ etag := 0, cmd := { path := .ring n, timeout := 1 }, stage := st }] }) SP
def dn (s : State) : State := modCmd (fun x => { x with done := [{ etag := 0, cmd := { path := .ring 0 }, status := 0, result := [] }] }) s
def rec1 : EvRec := { seq := 1, code := 0x0001, unit := 0, time := 0, data := zeros 8, origin := 0x3F, logged := true }
def ent2 : List Byte := zeros 0x28 ++ leBytes 8 64 ++ leBytes 2 1 ++ zeros 206
def hold1 : SpHold := { addressed := false, start := 0, n := 1, words := [7] }
def hold2 : SpHold := { addressed := false, start := 0, n := 1, todo := [0] }
def rec0 : List Byte := let r := leBytes 4 0x47464342 ++ leBytes 2 0x0100 ++ leBytes 2 0x0280 ++ zeros 0x274; r ++ leBytes 4 (crc32 r)
def dip1 : Dip := { since := 0, low := 160 }
def going (d g : Nat) : State := modDom d (fun x => { x with going := g }) (wrB (domBase d + 4) 3 true S0)
def mx1 : MuxSwitch := { mux := 3, inst := 511, old := 0, new := 1 }
def mx2 : MuxSwitch := { mux := 2, inst := 7, old := 0, new := 1 }
def SS : State := modPort 0 (fun x => { x with fixedRole := some true }) (wr (synStatusR 0) 2 (modPair 0 (fun x => { x with adopted := true }) (lk .up S0)))
def SR : State := modPair 0 (fun x => { x with sfLock := true }) (lk .up S0)
def cut1 : Cut := { slot := 1, sf := 9, coord := true }
def quiet1 : QuietReq := { sf := 0, refresh := 0, mine := true }
def neg (md exp pref : Nat) : State := modLink 0 (fun x => { x with state := .negotiate, mode := md, mask := 1, pol := { rolePref := 1, expSerial := exp }, offer := { pages := 3, modes := 15, pref := pref } }) S0
def lk0 (st : LState) (s : State) : State := modLink 0 (fun _ => { state := st, mode := 1, mask := 1 }) s
def beac (w : Nat) : BitVec 128 := let x := 0xF2C5 * 2 ^ 112 + w * 2 ^ 16; BitVec.ofNat 128 (x + beaconCrc x)
def trn (ph : Nat) (sl : Bool) : State := modPair 0 (fun x => { x with cutDone := true }) (modLink 0 (fun x => { x with road := 1, phase := ph, slave := sl }) (lk .train S0))
def cpt (st : LState) : State := modLink 0 (fun x => { x with state := st, mode := 0x11, mask := 0x11, runMode := 0x11, runMask := 0x11 }) S0
def req1 : LoadReq := { pair := 0, slot := 1, fill := false }
def calUp : State := modLink 0 (fun x => { x with pol := { flags := 2 } }) (wr (slotStateR 0) 4 (lk .up S0))
def rn (r : Run) : State := { lk .up S0 with runs := [(0, [r])] }
def run1 : Run := { pair := 0, cls := 1, started := true, retake := true, segs := 8 }
def caps (c : Capture) : State := { S0 with captures := [(0, [c])] }
def flU : InFlight := { etag := 0, opcode := 0x0403, stage := .running, cmd := { cls := 3, params := zeros 12 ++ leBytes 4 64 ++ zeros 4 } }
def flE : InFlight := { etag := 0, opcode := 0x0504, stage := .running, cmd := { cls := 5, idx := 4, params := zeros 8 ++ [0, 20, 0, 0, 1, 0, 1, 1] ++ zeros 8 } }
def runP : Run := { pair := 0, cls := 3, profile := true, started := true, fails := 1, slots := [255] }
def rnd : State := { lk .down S0 with runs := [(0, [runP])] }
def mk1 : Nat := let u := mkSync + 1 * 2 ^ 88; u + (crc8 (bitList u 64 119)).toNat * 2 ^ 120
def lane (n st : Nat) : State := wr (hlStatus n) (BitVec.ofNat 32 st) (wrB (hlCtl n) 15 true S0)
def goodHdr : List Byte := leBytes 4 0x4650524F ++ leBytes 2 0x0100 ++ [1] ++ zeros 505
def actv (h : List Byte) : State := modFw (fun f => { f with activating := some 0, headers := [(1, h)] }) S0
def SW : State := wr chainStateR 0xFF00 S0
def fwd1 : InFlight := { etag := 0, stage := .forwarded, cmd := { chainAddr := 5 } }
def fwd2 : InFlight := { etag := 0, stage := .running, waitFor := 32 }
def tf0 : TimeFrame := { tTx := 0, corr := 0, decl := 0, nundecl := 1, unaddr := 0, fabric := true, share := 0, present := 0, serial := 0 }
def ef0 : EpochFrame := { kind := 0, id := 1, time := 0, action := 3, pll := false, slot := 0, ack := 0, busy := 0, reject := 0 }
def epf : InFlight := { etag := 0, opcode := 0x0B04, stage := .running, aux := 1, cmd := { cls := 9, params := zeros 8 ++ [3, 0, 0, 0, 0, 0, 0, 0] } }
def ep1 : Epoch := { id := 1, time := 0, action := 3 }

/-! ### Ill-formed commands -/

theorem test_wf_params : Instr.wellFormed (.devIdentify { paramLen := 1 }) = false ∧ Instr.wellFormed (.devIdentify {}) = true := by decide +kernel
theorem test_wf_ldt_entry : Instr.wellFormed (.linkConfigure {} (some [0])) = false ∧ Instr.wellFormed (.linkRefresh {} (some [0])) = false ∧
    Instr.wellFormed (.ldtCacheFill 0 (some [])) = false ∧ Instr.wellFormed (.ldtCacheFill 0 (some (zeros 256))) = true := by decide +kernel
theorem test_wf_host_read : Instr.wellFormed (.slotFetchDone (.slot 0) (some (zeros 63))) = false ∧
    Instr.wellFormed (.slotFetchDone (.params 0) (some (zeros 16385))) = false ∧ Instr.wellFormed (.slotFetchDone (.ldt 0) (some [])) = false ∧
    Instr.wellFormed (.slotFetchDone (.slot 0) (some (zeros 64))) = true := by decide +kernel
theorem test_wf_serial : Instr.wellFormed (.serialWindowedWrite 0 (List.replicate 2048 0)) = false ∧
    Instr.wellFormed (.serialAddressedFrame 0 0 (some (List.replicate 2048 0)) 0 none) = false ∧
    Instr.wellFormed (.serialFrameIdleTimeout (.windowedWrite 0 (List.replicate 2048 0))) = false ∧
    Instr.wellFormed (.serialFrameIdleTimeout (.addressedWrite 0 0 (List.replicate 2048 0))) = false := by decide +kernel
theorem test_wf_boot : Instr.wellFormed (.deviceBoot true [] []) = false ∧
    Instr.wellFormed (.deviceBoot true [] (List.replicate 4 ([], 0))) = false ∧
    Instr.wellFormed (.deviceBoot true [] (List.replicate 4 (zeros 512, 0))) = true := by decide +kernel
theorem test_wf_sensors : Instr.wellFormed (.thermAlert 98 0) = false ∧ Instr.wellFormed (.thermCrit 98 0) = false ∧
    Instr.wellFormed (.thermClear []) = false ∧ Instr.wellFormed (.perfLevelChangeDone 17) = false := by decide +kernel
theorem test_wf_results : Instr.wellFormed (.gradingRunEnd 0 [] [] []) = false ∧ Instr.wellFormed (.rushesCaptureDone 0 []) = false ∧
    Instr.wellFormed (.cableTestPairDone 0 [] 0 0 []) = false ∧ Instr.wellFormed (.utilWindowEnd 0 [] 0) = false ∧
    Instr.wellFormed (.cableProfileComputed 0 (List.replicate 9 { clusters := [], loss := [], next := [], skew := 0, energy := 0 })) = false ∧ Instr.wellFormed (.operatorWatchdogCheck []) = false := by decide +kernel
theorem test_wf_lists : Instr.wellFormed (.acnanScheduledMarker 0 []) = false ∧ Instr.wellFormed (.rsMonitorLock 0 true []) = false ∧
    Instr.wellFormed (.rsMonitorLockLoss 0 true []) = false ∧ Instr.wellFormed (.resetComplete 4 0) = false := by decide +kernel
theorem test_wf_chain : Instr.wellFormed (.cmdFrame .good 0 { paramLen := 1 }) = false ∧
    Instr.wellFormed (.replyFrame .good 0 0 0 (zeros 8193)) = false := by decide +kernel

/-! ### Single operations and steps

The expected values stand in the spec's worked examples or follow from its rules by hand. -/

/-- The worked example of 01: the register block of pair 413 and its take slot 2. -/
theorem test_pair_413 : pairBase 413 = 0x07460000 ∧ takeBase 413 2 = 0x07AEA000 := by decide
/-- The examples of 07, 08 and 16: unit IDs. -/
theorem test_unit_ids : unitLane 409 = 0x5199 ∧ unitPll 51 = 0x7033 ∧ unitPll 70 = 0x7046 ∧ unitLink 413 = 0x419D := by decide
/-- The example of 12: the cache set of link 408. -/
theorem test_ldt_set : ldtSet 408 = 20 := by decide
/-- The example of 05: an RMS of 40.3 of 128 is latched as LEVEL 0x050. -/
theorem test_level : levelOf 1663068 = 0x50 := by decide +kernel
/-- The example of 04: 0x0000_000B lies 18 superframes after 0xFFFF_FFF9. -/
theorem test_sf_future : sfFuture 0x0000000B 0xFFFFFFF9 = true ∧ sfFuture 0xFFFFFFF9 0x0000000B = false := by decide
/-- The example of 11: the idle timers of a port. -/
theorem test_timers : timerOf 0x00A0280A 1 = 10 ∧ timerOf 0x00A0280A 2 = 10 ∧ timerOf 0x00A0280A 3 = 10 := by decide
/-- The check value of the CRC-32 of IEEE 802.3, over the digits 1 to 9. -/
theorem test_crc32 : crc32 [0x31, 0x32, 0x33, 0x34, 0x35, 0x36, 0x37, 0x38, 0x39] = 0xCBF43926 := by decide +kernel
/-- One bit 0 through the register of R38: 0xFF shifted, with the polynomial fed in. -/
theorem test_crc8 : crc8 [false] = 0xF9 ∧ crc8 [true] = 0xFE := by decide
/-- A row header with copy A damaged is read from copy B (R42). -/
theorem test_row_header : headerRead (rowHeader 254 8223 7 true false false ^^^ 1) = some (254, 8223) ∧
    headerFlags (rowHeader 254 8223 7 true false false) = some (true, false, false) := by decide +kernel
/-- The example of 18: U of the manager's own link. -/
theorem test_chain_share : (undeclared { tTx := 0, corr := 285000, decl := 15600, nundecl := 0, unaddr := 0, fabric := true, share := 0, present := 0, serial := 0 } 315800 SM).chain.share = 15200 := by decide +kernel

/-- The state of an outcome, and the reset state for a stop. -/
def after (o : Out State) : State := match o with
  | .next t => t
  | _ => State.reset
theorem test_reset_wf : State.reset.wf = true := by decide +kernel
/-- An idle device in reset stays as it is; a command in front is taken. -/
theorem test_step_idle : after (step State.reset) = State.reset ∧ (after (step { S0 with pending := [.snapshotComplete, .slotFetch] })).pending = [.slotFetch] := by
  decide +kernel
/-- No word spells a command: the table gives its rows no bits. -/
theorem test_no_words : decodeTableWord 32 0 = none ∧ State.reset.withFetchWord 32 0 = State.reset := ⟨rfl, rfl⟩
/-- DEV_TIME_SET sets device time, little-endian (R348). -/
theorem test_dev_time_set : (after (exec (.devTimeSet (cm 0 0 [1, 2, 0, 0, 0, 0, 0, 0])) S0)).time = 0x201 := by decide +kernel
/-- A reserved field that is not 0 ends the command with BAD_PARAM (R327). -/
theorem test_reserved_field : (after (exec (.devStatus { rsvd := true, path := .chain }) S0)).out.any (fun o => match o with
    | .chainReply _ st _ => st == stBadParam
    | _ => false) = true := by decide +kernel
/-- DEV_OFF over the chain ends with PRIVILEGE (R345). -/
theorem test_chain_privilege : (after (exec (.devOff { path := .chain }) S0)).out.any (fun o => match o with
    | .chainReply _ st _ => st == stPrivilege
    | _ => false) = true := by decide +kernel
/-- A supervisor write of LOCK_CTL sets bits and clears none (R401). -/
theorem test_lock_ctl : rd (after (exec (.lockCtlWrite .supervisor 2) (wr lockCtlR 1 S0))) lockCtlR = 3 := by decide +kernel
/-- The same write from the host's view changes nothing and is logged. -/
theorem test_lock_ctl_host : rd (after (exec (.lockCtlWrite .pcie 2) (wr lockCtlR 1 SP))) lockCtlR = 1 := by decide +kernel
/-- A read of DEV_TIME_LO latches the upper half for its view (R409). -/
theorem test_time_latch : (after (exec (.devTimeLoRead .serial) { S0 with time := 0x700000001 })).timeLatch = [(1, 7)] := by decide +kernel
/-- Words that exceed the gearbox queue are counted (R44). -/
theorem test_gbx_overflow : rd (after (exec (.gbxOverflow 511 3) (wr (gbxOverflowR 511) 0xFFFFFFFE S0))) (gbxOverflowR 511) = 1 := by decide +kernel
/-- The interpolator is held at its lower limit (R74). -/
theorem test_interp_limit : (pairOf (after (exec (.interpLimit 5 false 9 true) S0)) 5).phi = -8192 := by decide +kernel

/-- The transmit block of the worked example of chapter 03. -/
def exampleTx : List Byte := zeros 0x40 ++ [0, 0, 0, 0xFC, 0, 0x34, 0, 0xF8, 0, 0, 0, 0, 0x84, 3]
theorem test_dac_codes : dacCode exampleTx (fun _ => 3) 0 = 70 ∧ dacCode exampleTx (fun n => if n = 0 then 3 else -3) 0 = 112 := by
  decide +kernel
/-- The first output bits and base symbols that R33 writes out. -/
theorem test_training_pattern : prbs13 prbs13Seed 8 = [false, true, true, false, true, true, false, true] ∧
    trainingBase.take 4 = [-1, 3, 1, -1] := by decide +kernel

/-- The totals of R503: the balls of each rail, and the signals. -/
theorem test_ball_rails : ballCount (List.range' 1 95) (· == .vddCore) = 983 := by decide +kernel
/-- The worked example of 20: the balls of pair 413. -/
theorem test_balls_413 : ballAt 92 19 = .pair 51 5 false ∧ ballAt 92 18 = .pair 51 5 true ∧ ballAt 90 16 = .hrx 51 2 false ∧
    ballAt 88 15 = .htx 51 2 true ∧ ballName 92 19 = "DU19" := by decide +kernel

/-! ### Witnesses -/

theorem some1 {α : Type} {o : Option α} {P : α → Prop} [DecidablePred P] (h : (o.any fun x => decide (P x)) = true) : ∃ x, o = some x ∧ P x := by
  cases o with
  | none => simp at h
  | some x => exact ⟨x, rfl, by simpa using h⟩
theorem some10 {α : Type} {o : Option α} (h : o.isSome = true) : ∃ x, o = some x := Option.isSome_iff_exists.mp h
theorem some2 {α β : Type} {o : Option (α × β)} {P : α → β → Prop} [∀ a b, Decidable (P a b)]
    (h : (o.any fun x => decide (P x.1 x.2)) = true) : ∃ a b, o = some (a, b) ∧ P a b := by
  cases o with
  | none => simp at h
  | some x => exact ⟨x.1, x.2, rfl, by simpa using h⟩
theorem some20 {α β : Type} {o : Option (α × β)} (h : o.isSome = true) : ∃ a b, o = some (a, b) := by
  cases o with
  | none => simp at h
  | some x => exact ⟨x.1, x.2, rfl⟩
theorem get1 {α : Type} {o : Option α} (h : o.isSome = true) : o = some (o.get h) := (Option.some_get h).symm
theorem get2 {α β : Type} {o : Option (α × β)} (h : o.isSome = true) : o = some ((o.get h).1, (o.get h).2) := (Option.some_get h).symm
theorem getT {β : Type} {o : Bool × β} (h : o.1 = true) : o = (true, o.2) := by rw [← h]
theorem someTrue {β : Type} {o : Bool × β} {P : β → Prop} [DecidablePred P] (h : (o.1 && decide (P o.2)) = true) : ∃ u, o = (true, u) ∧ P u := by
  obtain ⟨b, u⟩ := o
  simp only [Bool.and_eq_true, decide_eq_true_eq] at h
  obtain ⟨rfl, h⟩ := h
  exact ⟨u, rfl, h⟩
theorem someTrue0 {β : Type} {o : Bool × β} (h : o.1 = true) : ∃ u, o = (true, u) := by
  obtain ⟨b, u⟩ := o
  cases h
  exact ⟨u, rfl⟩

theorem witness_StepKeeps : ∃ s t : State, s.wf = true ∧ step s = .next t := ⟨State.reset, _, by decide +kernel, rfl⟩
theorem witness_CommandsWriteOnlyTheirState : ∃ (k : Kind) (i : Instr) (s t : State), s.wf = true ∧ exec i s = .next t ∧ mayWrite k i = false :=
  ⟨.mram, .takeList {}, State.reset, _, by decide +kernel, rfl, rfl⟩
/-- One state and command for each check of R327, and for a command that is not for this device alone. -/
theorem witness_CommandChecksInOrder :
    let ready (i : Instr) (o : OpSpec) (c : Cmd) (s : State) (last : State → InFlight → Prop) : Prop :=
      ∃ f u, claimTag s o.opcode c = some (f, u) ∧ commandOf i = some (o, c) ∧ s.mode = .running ∧ s.cmd.stopped = false ∧
        blocked u f = false ∧ last u f
    let passes (o : OpSpec) (c : Cmd) (u : State) : Prop :=
      placeOf u c = .here ∧ c.rsvd = false ∧ reservedParam o.opcode c = false ∧ expertOk o.level c.expert = true ∧
        (c.expert = true → rdB u cmdPathCfgR (pathBit c.path) = true)
    let known (o : OpSpec) (c : Cmd) (u : State) : Prop := passes o c u ∧ lengthOk o c = true ∧ unitOk u o c = true
    let on (o : OpSpec) (c : Cmd) (u : State) : Prop := known o c u ∧ (c.path = .chain → o.onChain = true) ∧
      (unitDomain c.cls.toNat c.idx.toNat).any (fun d => domState u d == 4) = false
    (∃ c s, ready (.devStatus c) opDevStatus c s (fun u _ => placeOf u c = .unaddressed)) ∧
    (∃ c s, ready (.devStatus c) opDevStatus c s (fun u _ => placeOf u c = .chainDown)) ∧
    (∃ c s, ready (.devStatus c) opDevStatus c s (fun u _ => placeOf u c = .everywhere ∧ opDevStatus.maxResult ≠ 0)) ∧
    (∃ c s, ready (.devStatus c) opDevStatus c s (fun u _ => placeOf u c = .forward ∧ chainHolds u = false)) ∧
    (∃ c s, ready (.devStatus c) opDevStatus c s (fun u _ => placeOf u c = .here ∧ expertOk opDevStatus.level c.expert = false)) ∧
    (∃ c s, ready (.linkUp c) opLinkUpSpec c s (fun u _ => placeOf u c = .here ∧ reservedParam opLinkUpSpec.opcode c = true)) ∧
    (∃ c s, ready (.linkTrainStep c) opLinkTrainStep c s (fun u _ => placeOf u c = .here ∧ c.rsvd = false ∧
      reservedParam opLinkTrainStep.opcode c = false ∧
      expertOk opLinkTrainStep.level c.expert = true ∧ c.expert = true ∧ rdB u cmdPathCfgR (pathBit c.path) = false)) ∧
    (∃ c s, ready (.devStatus c) opDevStatus c s (fun u _ => passes opDevStatus c u ∧ lengthOk opDevStatus c = false)) ∧
    (∃ c s, ready (.pwrStatus c) opPwrStatus c s (fun u _ => passes opPwrStatus c u ∧ lengthOk opPwrStatus c = true ∧ unitOk u opPwrStatus c = false)) ∧
    (∃ c s, ready (.devOff c) opDevOff c s (fun u _ => known opDevOff c u ∧ c.path = .chain ∧ opDevOff.onChain = false)) ∧
    (∃ c s, ready (.cntRead c) opCntRead c s (fun u _ => known opCntRead c u ∧
      (unitDomain c.cls.toNat c.idx.toNat).any (fun d => domState u d == 4) = true)) ∧
    (∃ c s, ready (.devOff c) opDevOff c s (fun u _ => on opDevOff c u ∧ inRecovery u = true ∧ opDevOff.recovery = false)) ∧
    (∃ c s, ready (.linkStatus c) opLinkStatus c s (fun u _ => on opLinkStatus c u ∧
      (tileOfUnit c.cls.toNat c.idx.toNat).any (fun t => (tileOf u t).resetting) = true)) ∧
    (∃ c s, ready (.devOff c) opDevOff c s (fun u _ => on opDevOff c u ∧ rdB u fwStateR 4 = true ∧
      needsSupervisor opDevOff.opcode c = true)) := by
  refine ⟨⟨{ chainAddr := 62 }, SW, ?_⟩, ⟨{ chainAddr := 5 }, wr chainStateR 3 S0, ?_⟩, ⟨{ chainAddr := 63 }, SM, ?_⟩,
    ⟨{ chainAddr := 5 }, SM, ?_⟩, ⟨{ expert := true }, S0, ?_⟩, ⟨cm 4 0 [2, 0, 0, 0], lk .down S0, ?_⟩,
    ⟨{ cls := 4, expert := true, paramLen := 4, params := zeros 4 }, wr cmdPathCfgR 0 (lk .down S0), ?_⟩, ⟨cm 0 0 (zeros 4), S0, ?_⟩,
    ⟨cm 8 80 [], S0, ?_⟩, ⟨{ path := .chain, chainAddr := 63 }, wr chainStateR 0x502 S0, ?_⟩, ⟨cm 1 7 (zeros 4), wr (domBase 71 + 4) 4 S0, ?_⟩,
    ⟨{}, wrB fwStateR 2 true S0, ?_⟩, ⟨cm 4 0 [], modTile 0 (fun x => { x with resetting := true }) (lk .down S0), ?_⟩,
    ⟨{}, wrB fwStateR 4 true S0, ?_⟩⟩ <;> exact some2 (by decide +kernel)
theorem witness_ChainPrivilege :
    (∃ (c : Cmd) (s : State), ∃ f u, claimTag s opDevOff.opcode c = some (f, u) ∧ c.path = .chain ∧ s.mode = .running ∧ s.cmd.stopped = false ∧
      placeOf u c = .here ∧ c.rsvd = false ∧ reservedParam opDevOff.opcode c = false ∧ c.expert = false ∧ lengthOk opDevOff c = true ∧ unitOk u opDevOff c = true) ∧
    (∃ (c : Cmd) (s : State), ∃ f u, claimTag s opFwStage.opcode c = some (f, u) ∧ c.path = .chain ∧ s.mode = .running ∧ s.cmd.stopped = false ∧
      placeOf u c = .here ∧ c.rsvd = false ∧ reservedParam opFwStage.opcode c = false ∧ c.expert = false ∧ lengthOk opFwStage c = true ∧ unitOk u opFwStage c = true) ∧
    (∃ (c : Cmd) (s : State), ∃ f u, claimTag s opFwActivate.opcode c = some (f, u) ∧ c.path = .chain ∧ s.mode = .running ∧
      s.cmd.stopped = false ∧ placeOf u c = .here ∧ c.rsvd = false ∧ reservedParam opFwActivate.opcode c = false ∧ c.expert = false ∧ lengthOk opFwActivate c = true ∧
      unitOk u opFwActivate c = true) :=
  ⟨⟨{ path := .chain }, S0, some2 (by decide +kernel)⟩,
   ⟨{ cm 0 0 (zeros 24) with path := .chain, chainAddr := 63 }, S0, some2 (by decide +kernel)⟩,
   ⟨{ cm 0 0 (zeros 4) with path := .chain }, S0, some2 (by decide +kernel)⟩⟩
theorem witness_DeviceTimeShadow :
    (∃ (v : View) (s : State), reads v devTimeLoR s = true) ∧
    (∃ (v : View) (s : State) (w : Word) (k : Nat), reads v devTimeHiR s = true ∧ s.timeLatch.find? (fun e => e.1 == viewNum v) = some (k, w)) ∧
    (∃ (v : View) (s : State), reads v devTimeHiR s = true ∧ s.timeLatch.find? (fun e => e.1 == viewNum v) = none) :=
  ⟨⟨.pcie, SP, by decide +kernel⟩, ⟨.serial, { S0 with timeLatch := [(1, 7)] }, 7, 1, by decide +kernel⟩,
   ⟨.serial, { S0 with timeLatch := [(0, 7)] }, by decide +kernel⟩⟩
theorem witness_PerfSelPrivilege :
    (∃ (b : Fin 9) (n : BitVec 3) (i : RegInfo) (s : State), writes .supervisor (perfSel b.val n.toNat) i s = true) ∧
    (∃ (v : View) (b : Fin 9) (n : BitVec 3) (w : Word) (i : RegInfo) (s : State), writes v (perfSel b.val n.toNat) i s = true ∧
      v ≠ .supervisor ∧ bitGet w 11 = true) ∧
    (∃ (v : View) (b : Fin 9) (n : BitVec 3) (w : Word) (i : RegInfo) (s : State), writes v (perfSel b.val n.toNat) i s = true ∧
      v ≠ .supervisor ∧ bitGet w 11 = false) :=
  ⟨⟨0, 7, (regInfo (perfSel 0 7)).getD {}, S0, by decide +kernel⟩,
   ⟨.pcie, 8, 7, 0xFFFFFFFF, (regInfo (perfSel 8 7)).getD {}, wr (tileClkEnR 7) 1 SP, by decide +kernel⟩,
   ⟨.operator, 8, 0, 0xFFFFF7FF, (regInfo (perfSel 8 0)).getD {}, wr (tileClkEnR 7) 1 S0, by decide +kernel⟩⟩
theorem witness_InterpolatorLimit : ∃ s : State, s.mode = .running := ⟨S0, rfl⟩
theorem witness_GearboxOverflow : ∃ (l : Pair) (s u : State), s.mode = .running ∧ (pairOf s l.toNat).quiet = false ∧
    (pairOf s l.toNat).xqOff = false ∧ u = modPair l.toNat (fun p => { p with queue := queueRoom }) s :=
  ⟨511, lk .up S0, _, by decide +kernel, by decide +kernel, by decide +kernel, rfl⟩
theorem witness_RowHeaderFill : ∃ (l : Pair) (h : BitVec 120) (s : State) (m : Nat) (good : Nat → Prop), (hears s l.toNat = some m ∧
    (pairOf s l.toNat).sfLock = true ∧ trainOrUp (linkOf s m).state = true) ∧
    (∀ i, good i ↔ crc8 (bitList h.toNat (34 * i) (34 * i + 25)) = h.extractLsb' (34 * i + 26) 8 ∧
      (h.extractLsb' (34 * i) 8).toNat ≠ 255 ∧ (h.extractLsb' (34 * i + 8) 14).toNat ≤ 8223) :=
  ⟨0, 0, SR, 0, fun i => _, by decide +kernel, fun i => Iff.rfl⟩
theorem witness_StoreFrames :
    (∃ (n : Ring) (s v : State) (c : Completion) (a : Nat), s.cmd.done.find? (fun c => pathCq s c.cmd.path == some n.toNat) = some c ∧
      exec (.statusSlotWrite n) s = .next v ∧ rdWide s (cqBase n.toNat) + 32 * cqTail s n.toNat + 32 ≤ a ∧ c.result.length ≤ 16) ∧
    (∃ (c : Cmd) (chunk : Option (List Byte)) (s u v : State) (e : Nat) (b : List Byte) (a : Nat), startOf opFwStage c s = some (e, u) ∧
      stageChunk c chunk u = some b ∧ exec (.fwStage c chunk) s = .next v ∧
      bankBase (stagingBank u (leAt c.params 16 1)) + leAt c.params 8 4 + b.length ≤ a) ∧
    (∃ (o : BitVec 10) (w : Word) (s v : State) (a : Nat), exec (.mailboxBufferWrite o w) s = .next v ∧ 4 * o.toNat + 4 ≤ a) := by
  refine ⟨⟨0, dn SP, _, { etag := 0, cmd := { path := .ring 0 }, status := 0, result := [] }, 32, by decide +kernel, rfl, by decide +kernel, by decide⟩, ?_,
    ⟨1023, 7, S0, _, 4096, rfl, by decide⟩⟩
  have h : ∃ e u, startOf opFwStage (cm 0 0 (zeros 24)) S0 = some (e, u) ∧ (stageChunk (cm 0 0 (zeros 24)) (some []) u).isSome = true :=
    some2 (by decide +kernel)
  obtain ⟨e, u, h1, h2⟩ := h
  obtain ⟨b, hb⟩ := Option.isSome_iff_exists.mp h2
  exact ⟨_, _, _, u, _, e, b, _, h1, hb, rfl, Nat.le_refl _⟩

theorem witness_WireCodes : (∃ c : List Bool, c.length = 120) ∧ (∃ i : Nat, i < 128) ∧ (∃ i j : Nat, i < j ∧ j < 128) ∧
    (∃ t : List Byte, rangeFault t = none) ∧
    (∃ t : List Byte, ∃ a : Int → Int, ((s16s t 0x40 6).map Int.natAbs).sum ≤ 16384 ∧ txAmpl t ≤ 1024 ∧ ∀ k, (a k).natAbs ≤ 3) :=
  ⟨⟨List.replicate 120 true, rfl⟩, ⟨127, by omega⟩, ⟨0, 127, by omega, by omega⟩,
   ⟨zeros 12 ++ [1], by decide +kernel⟩, ⟨zeros 64 ++ [0x00, 0x40] ++ zeros 10 ++ [0x00, 0x04], fun _ => -3, by decide +kernel, by decide +kernel, fun _ => by simp⟩⟩

/-- A word of MODE 0 with divide ratio n, its predivider 1, is within R260 where n crystal periods give a VCO frequency of its range. -/
theorem rackWord_ok {s : State} {n : Nat} {w f : Word} (h0 : fieldGet w 1 0 = 0) (h1 : fieldGet w 2 2 = 0) (h2 : fieldGet w 8 3 = 0)
    (h3 : fieldGet w 21 12 = n) (hf : f = 0) (hn : 14 ≤ n ∧ n ≤ 660) (hl : 5600000000000 ≤ Config.xtalFreq * n)
    (hh : Config.xtalFreq * n ≤ 6600000000000) : rackWordOk s w f = true := by
  have hx : 25000000000 ≤ Config.xtalFreq ∧ Config.xtalFreq ≤ 52000000000 := by
    have := Config.xtalCode.isLt
    unfold Config.xtalFreq; omega
  subst hf h3
  simp only [rackWordOk, slotVco, modeFreq, srcFreq, freqAtLeast, freqAtMost, h0, h1, h2]
  simp only [Bool.and_eq_true, decide_eq_true_eq]
  refine ⟨⟨⟨⟨hn, ?_⟩, ?_⟩, ?_⟩, ?_⟩
  · simp; omega
  · simp; omega
  · rw [show (0 : Word).toNat = 0 from rfl]
    calc 5600000000000 * ((0 + 1) * 2 ^ 32) ≤ (Config.xtalFreq * fieldGet w 21 12) * 2 ^ 32 := by omega
      _ = _ := by simp [Nat.mul_assoc]
  · rw [show (0 : Word).toNat = 0 from rfl]
    calc _ = (Config.xtalFreq * fieldGet w 21 12) * 2 ^ 32 := by simp [Nat.mul_assoc]
      _ ≤ _ := by omega
/-- CLK_PLL_PROGRAM of the first rack PLL: slot 0 with a divide ratio, without activation. -/
def pllWord (n : Nat) : Cmd := xp (cm 7 72 (zeros 4 ++ leBytes 4 (n * 4096) ++ zeros 4))
theorem pll_word {n : Nat} (hk : ∃ (e : Nat) (u : State), startOf opClkPllProgram (pllWord n) S0 = some (e, u) ∧
      72 ≤ (pllWord n).idx.toNat ∧ leAt (pllWord n).params 0 1 ≤ 15 ∧
      leAt (pllWord n).params 1 1 ≤ 1 ∧ leAt (pllWord n).params 2 2 = 0 ∧ (BitVec.ofNat 32 (leAt (pllWord n).params 4 4)).toNat < 2 ^ 22 ∧
      fieldGet (BitVec.ofNat 32 (leAt (pllWord n).params 4 4)) 11 9 ≤ 5 ∧ rackEnabled u (pllWord n).idx.toNat = true ∧
      rackBusy u (pllWord n).idx.toNat = false ∧ locked u 0 = false ∧ rackInUse u (pllWord n).idx.toNat = false)
    (hw : ∀ u, rackWordOk u (BitVec.ofNat 32 (leAt (pllWord n).params 4 4)) (BitVec.ofNat 32 (leAt (pllWord n).params 8 4)) = true) :
    ∃ (c : Cmd) (s u v : State) (e : Nat) (on active : Bool), startOf opClkPllProgram c s = some (e, u) ∧ 72 ≤ c.idx.toNat ∧
      leAt c.params 0 1 ≤ 15 ∧ leAt c.params 1 1 ≤ 1 ∧ leAt c.params 2 2 = 0 ∧ (BitVec.ofNat 32 (leAt c.params 4 4)).toNat < 2 ^ 22 ∧
      fieldGet (BitVec.ofNat 32 (leAt c.params 4 4)) 11 9 ≤ 5 ∧ rackEnabled u c.idx.toNat = true ∧ rackBusy u c.idx.toNat = false ∧
      rackWordOk u (BitVec.ofNat 32 (leAt c.params 4 4)) (BitVec.ofNat 32 (leAt c.params 8 4)) = true ∧ locked u 0 = false ∧
      on = (rackState u c.idx.toNat != 0) ∧ active = (on && leAt c.params 0 1 == rdF u (rackCtl c.idx.toNat) 3 0) ∧
      (leAt c.params 1 1 = 1 ∨ active = true → rackInUse u c.idx.toNat = false) ∧
      v = wr (rackSlotR c.idx.toNat (leAt c.params 0 1) + 4) (BitVec.ofNat 32 (leAt c.params 8 4))
        (wrF (rackSlotR c.idx.toNat (leAt c.params 0 1)) 21 0 (BitVec.ofNat 32 (leAt c.params 4 4)).toNat u) := by
  obtain ⟨e, u, h, h1, h2, h3, h4, h5, h6, h7, h8, h9, h10⟩ := hk
  exact ⟨_, _, u, _, e, _, _, h, h1, h2, h3, h4, h5, h6, h7, h8, hw u, h9, rfl, rfl, fun _ => h10, rfl⟩
/-- The program of a rack PLL: whatever crystal is fitted, a divide ratio puts the VCO in its range. -/
theorem witness_ClockProgramOfARackPll :
    ∃ (c : Cmd) (s u v : State) (e : Nat) (on active : Bool), startOf opClkPllProgram c s = some (e, u) ∧ 72 ≤ c.idx.toNat ∧
      leAt c.params 0 1 ≤ 15 ∧ leAt c.params 1 1 ≤ 1 ∧ leAt c.params 2 2 = 0 ∧ (BitVec.ofNat 32 (leAt c.params 4 4)).toNat < 2 ^ 22 ∧
      fieldGet (BitVec.ofNat 32 (leAt c.params 4 4)) 11 9 ≤ 5 ∧ rackEnabled u c.idx.toNat = true ∧ rackBusy u c.idx.toNat = false ∧
      rackWordOk u (BitVec.ofNat 32 (leAt c.params 4 4)) (BitVec.ofNat 32 (leAt c.params 8 4)) = true ∧ locked u 0 = false ∧
      on = (rackState u c.idx.toNat != 0) ∧ active = (on && leAt c.params 0 1 == rdF u (rackCtl c.idx.toNat) 3 0) ∧
      (leAt c.params 1 1 = 1 ∨ active = true → rackInUse u c.idx.toNat = false) ∧
      v = wr (rackSlotR c.idx.toNat (leAt c.params 0 1) + 4) (BitVec.ofNat 32 (leAt c.params 8 4))
        (wrF (rackSlotR c.idx.toNat (leAt c.params 0 1)) 21 0 (BitVec.ofNat 32 (leAt c.params 4 4)).toNat u) := by
  have hx : 25000000000 ≤ Config.xtalFreq ∧ Config.xtalFreq ≤ 52000000000 := by
    have := Config.xtalCode.isLt
    unfold Config.xtalFreq; omega
  have : Config.xtalFreq ≤ 29460000000 ∨ (29460000000 < Config.xtalFreq ∧ Config.xtalFreq ≤ 34500000000) ∨
      (34500000000 < Config.xtalFreq ∧ Config.xtalFreq ≤ 40400000000) ∨ (40400000000 < Config.xtalFreq ∧ Config.xtalFreq ≤ 47470000000) ∨
      47470000000 < Config.xtalFreq := by omega
  rcases this with h | h | h | h | h
  · exact pll_word (n := 224) (some2 (by decide +kernel)) (fun u => rackWord_ok (n := 224) (by decide) (by decide) (by decide) (by decide) (by decide) (by decide) (by omega) (by omega))
  · exact pll_word (n := 191) (some2 (by decide +kernel)) (fun u => rackWord_ok (n := 191) (by decide) (by decide) (by decide) (by decide) (by decide) (by decide) (by omega) (by omega))
  · exact pll_word (n := 163) (some2 (by decide +kernel)) (fun u => rackWord_ok (n := 163) (by decide) (by decide) (by decide) (by decide) (by decide) (by decide) (by omega) (by omega))
  · exact pll_word (n := 139) (some2 (by decide +kernel)) (fun u => rackWord_ok (n := 139) (by decide) (by decide) (by decide) (by decide) (by decide) (by decide) (by omega) (by omega))
  · exact pll_word (n := 118) (some2 (by decide +kernel)) (fun u => rackWord_ok (n := 118) (by decide) (by decide) (by decide) (by decide) (by decide) (by decide) (by omega) (by omega))

theorem witness_DeviceAndEventCommandsComplete :
    (∃ c : Cmd, ∃ s : State, ∃ e : Nat, ∃ u : State, (startOf opDevIdentify c s = some (e, u))) ∧
    (∃ c : Cmd, ∃ s : State, ∃ e : Nat, ∃ u : State, (startOf opDevStatus c s = some (e, u))) ∧
    (∃ c : Cmd, ∃ s : State, ∃ e : Nat, ∃ u : State, (startOf opDevOff c s = some (e, u)) ∧ anyLinkActive u = false ∧ anyHold u = false) ∧
    (∃ c : Cmd, ∃ s : State, ∃ e : Nat, ∃ u : State, (startOf opDevTimeSet c s = some (e, u)) ∧ (rdB u chainStateR 1 = false ∨ rdB u chainStateR 0 = true) ∧ actionPending u = false) ∧
    (∃ c : Cmd, ∃ s : State, ∃ e : Nat, ∃ u : State, (startOf opDevLockQuery c s = some (e, u))) ∧
    (∃ c : Cmd, ∃ s : State, ∃ e : Nat, ∃ u : State, (startOf opEvtSubscribe c s = some (e, u)) ∧ evtSubscribeBad c = false ∧ leAt c.params 8 1 ≠ 0) ∧
    (∃ c : Cmd, ∃ s : State, ∃ e : Nat, ∃ u : State, (startOf opEvtSubscribe c s = some (e, u)) ∧ evtSubscribeBad c = false ∧ leAt c.params 8 1 = 0) ∧
    (∃ c : Cmd, ∃ s : State, ∃ e : Nat, ∃ u : State, (startOf (opEvtReadLog c) c s = some (e, u)) ∧ 0 < leAt c.params 4 2 ∧ leAt c.params 4 2 ≤ 2047 ∧ leAt c.params 6 2 = 0 ∧ mramReady u = true ∧ seqGe (BitVec.ofNat 32 (leAt c.params 0 4)) (logOldest u) = true) :=
  ⟨⟨(cm 0 0 []), S0, some20 (by decide +kernel)⟩,
   ⟨(cm 0 0 []), S0, some20 (by decide +kernel)⟩,
   ⟨(cm 0 0 []), S0, some2 (by decide +kernel)⟩,
   ⟨(cm 0 0 [5, 0, 0, 0, 0, 0, 0, 0]), S0, some2 (by decide +kernel)⟩,
   ⟨(cm 0 0 []), S0, some20 (by decide +kernel)⟩,
   ⟨(cm 0 0 [0, 16, 0, 0, 0, 0, 0, 0, 4, 0, 7, 0, 0, 0, 0, 0, 1, 0, 0, 0, 0, 0, 0, 0]), S0, some2 (by decide +kernel)⟩,
   ⟨(cm 0 0 (zeros 24)), (modFw (fun f => { f with verifying := some (1, 3) }) S0), some2 (by decide +kernel)⟩,
   ⟨(cm 0 0 [5, 0, 0, 0, 1, 0, 0, 0]), S0, some2 (by decide +kernel)⟩⟩
theorem witness_StoreCommandsComplete :
    (∃ c : Cmd, ∃ s : State, ∃ e : Nat, ∃ u : State, (startOf (opContList c) c s = some (e, u)) ∧ 0 < contListMax c ∧ contListMax c ≤ 2048 ∧ mramReady u = true) ∧
    (∃ c : Cmd, ∃ s : State, ∃ e : Nat, ∃ u : State, (startOf opContRead c s = some (e, u)) ∧ ∃ i : Nat, (contNamed c.params u = some i) ∧ contNameBad c.params = false ∧ mramReady u = true) ∧
    (∃ c : Cmd, ∃ s : State, ∃ e : Nat, ∃ u : State, (startOf opContDelete c s = some (e, u)) ∧ ∃ i : Nat, (contNamed c.params u = some i) ∧ leAt c.params 0 1 ≠ 2 ∧ contNameBad c.params = false ∧ mramReady u = true ∧ mramHold u = false) ∧
    (∃ c : Cmd, ∃ s : State, ∃ e : Nat, ∃ u : State, (startOf opContDelete c s = some (e, u)) ∧ leAt c.params 0 1 = 2 ∧ zeroFrom c.params 1 = true ∧ mramReady u = true ∧ mramHold u = false) ∧
    (∃ c : Cmd, ∃ s : State, ∃ e : Nat, ∃ u : State, (startOf opCalRecordRead c s = some (e, u)) ∧ leAt c.params 0 2 < 512 ∧ (linkOfPair u (leAt c.params 0 2)).isSome ∧ leAt c.params 2 1 < 4 ∧ leAt c.params 3 1 = 0 ∧ mramReady u = true) :=
  ⟨⟨(cm 0 0 [0, 0, 1, 0]), SC, some2 (by decide +kernel)⟩,
   ⟨(cm 0 0 [0, 0, 0, 0, 0, 0, 0, 0, 0, 0, 0, 0]), SC, _, _, get2 (by decide +kernel), some1 (by decide +kernel)⟩,
   ⟨(cm 0 0 [0, 0, 0, 0, 0, 0, 0, 0, 0, 0, 0, 0]), SC, _, _, get2 (by decide +kernel), some1 (by decide +kernel)⟩,
   ⟨(cm 0 0 [2, 0, 0, 0, 0, 0, 0, 0, 0, 0, 0, 0]), SC, some2 (by decide +kernel)⟩,
   ⟨(cm 0 0 [0, 0, 1, 0]), (lk .down S0), some2 (by decide +kernel)⟩⟩
theorem witness_FirmwareCommandsComplete :
    (∃ c : Cmd, ∃ chunk : Option (List Byte), ∃ s : State, ∃ e : Nat, ∃ u : State, (startOf opFwStage c s = some (e, u)) ∧ ∃ b : List Byte, (stageChunk c chunk u = some b) ∧ fwStageBad c = false ∧ u.fw.activating = none ∧ u.fw.patching = none ∧ u.fw.verifying = none ∧ leAt c.params 8 4 + leAt c.params 12 4 ≤ bankSize (stagingBank u (leAt c.params 16 1)) ∧ mramReady u = true ∧ mramHold u = false ∧ leAt c.params 17 1 = 0) ∧
    (∃ c : Cmd, ∃ chunk : Option (List Byte), ∃ s : State, ∃ e : Nat, ∃ u : State, (startOf opFwStage c s = some (e, u)) ∧ ∃ b : List Byte, (stageChunk c chunk u = some b) ∧ fwStageBad c = false ∧ u.fw.activating = none ∧ u.fw.patching = none ∧ u.fw.verifying = none ∧ leAt c.params 8 4 + leAt c.params 12 4 ≤ bankSize (stagingBank u (leAt c.params 16 1)) ∧ mramReady u = true ∧ mramHold u = false ∧ leAt c.params 17 1 = 1) ∧
    (∃ x : BitVec 3, ∃ s : State, ∃ u : State, ∃ b : Nat, ∃ e : Nat, (s.fw.verifying = some (b, e)) ∧ verifyBank b x.toNat s = (0, u)) ∧
    (∃ x : BitVec 3, ∃ s : State, ∃ b : Nat, ∃ e : Nat, ∃ code : Nat, ∃ u : State, (verifyBank b x.toNat s = (code, u)) ∧ s.fw.verifying = some (b, e) ∧ code ≠ 0) ∧
    (∃ c : Cmd, ∃ s : State, ∃ e : Nat, ∃ u : State, (startOf opFwActivate c s = some (e, u)) ∧ leAt c.params 0 1 = 0 ∧ zeroFrom c.params 1 = true ∧ u.fw.activating = none ∧ u.fw.patching = none ∧ u.fw.verified.contains (stagingBank u 0) = true) ∧
    (∃ c : Cmd, ∃ s : State, ∃ e : Nat, ∃ u : State, (startOf opFwActivate c s = some (e, u)) ∧ leAt c.params 0 1 = 1 ∧ zeroFrom c.params 1 = true ∧ u.fw.activating = none ∧ u.fw.patching = none ∧ u.fw.verified.contains (stagingBank u 1) = true) ∧
    (∃ c : Cmd, ∃ s : State, ∃ e : Nat, ∃ u : State, (startOf opFwStatus c s = some (e, u))) :=
  ⟨⟨(cm 0 0 ([0, 0, 0, 0, 0, 0, 0, 0, 0, 0, 0, 0, 2, 0, 0, 0, 0, 0, 0, 0, 0, 0, 0, 0])), (some [1, 2]), (modFw (fun f => { f with verified := [1] }) S0), _, _, get2 (by decide +kernel), some1 (by decide +kernel)⟩,
   ⟨(cm 0 0 ([0, 0, 0, 0, 0, 0, 0, 0, 0, 0, 0, 0, 2, 0, 0, 0, 0, 1] ++ zeros 6)), (some [1, 2]), (modFw (fun f => { f with verified := [1] }) S0), _, _, get2 (by decide +kernel), some1 (by decide +kernel)⟩,
   ⟨0, SV, SV, some2 (by decide +kernel)⟩,
   ⟨0, (modFw (fun f => { f with verifying := some (1, 3) }) S0), 1, 3, _, _, rfl, by decide +kernel⟩,
   ⟨(cm 0 0 [0, 0, 0, 0]), (modFw (fun f => { f with verified := [1] }) S0), some2 (by decide +kernel)⟩,
   ⟨(cm 0 0 [1, 0, 0, 0]), (modFw (fun f => { f with verified := [0, 1, 2, 3] }) S0), some2 (by decide +kernel)⟩,
   ⟨(cm 0 0 []), SV, some20 (by decide +kernel)⟩⟩
theorem witness_LinkSettingsComplete :
    (∃ c : Cmd, ∃ b : List Byte, ∃ s : State, ∃ e : Nat, ∃ u : State, (startOf opLinkConfigure c s = some (e, u)) ∧ zeroFrom c.params 1 = true ∧ leAt c.params 0 1 ≤ 1 ∧ ldtEnabled u = true ∧ ldtCrcOk b = true ∧ entryRanges b = true ∧ modeOk (leAt b 0 1) (leAt b 2 1) = true ∧ leAt b 0 1 ≠ 0 ∧ pairSet (leAt b 0 1) (c.idx.toNat % 8) = some (BitVec.ofNat 8 (leAt b 1 1)) ∧ configRefused u c.idx.toNat c b = false) ∧
    (∃ c : Cmd, ∃ b : List Byte, ∃ s : State, ∃ e : Nat, ∃ u : State, (startOf opLinkConfigure c s = some (e, u)) ∧ zeroFrom c.params 1 = true ∧ leAt c.params 0 1 ≤ 1 ∧ ldtEnabled u = true ∧ ldtCrcOk b = true ∧ entryRanges b = true ∧ modeOk 0 (leAt b 2 1) = true ∧ leAt b 0 1 = 0 ∧ configRefused u c.idx.toNat c b = false) ∧
    (∃ c : Cmd, ∃ b : List Byte, ∃ s : State, ∃ e : Nat, ∃ u : State, (startOf opLinkRefresh c s = some (e, u)) ∧ ldtEnabled u = true ∧ ldtCrcOk b = true ∧ entryRanges b = true) ∧
    (∃ c : Cmd, ∃ s : State, ∃ e : Nat, ∃ u : State, (startOf opLinkQuietPolicy c s = some (e, u)) ∧ c.paramLen = 0) ∧
    (∃ c : Cmd, ∃ s : State, ∃ e : Nat, ∃ u : State, (startOf opLinkQuietPolicy c s = some (e, u)) ∧ ∃ p : Policy, (p = (linkOf u c.idx.toNat).pol) ∧ ∃ v : State, (v = modLink c.idx.toNat (fun x => { x with override := true, pol := { p with flags := (p.flags &&& ~~~0x20) ||| BitVec.ofNat 8 (32 * leAt c.params 0 1), quietRefresh := orDefault (leAt c.params 1 1) 8 } }) u) ∧ c.paramLen ≠ 0 ∧ leAt c.params 0 1 ≤ 1 ∧ leAt c.params 1 1 ≤ 127 ∧ leAt c.params 2 2 = 0) ∧
    (∃ c : Cmd, ∃ s : State, ∃ e : Nat, ∃ u : State, (startOf opTakePolicy c s = some (e, u)) ∧ c.paramLen = 0) ∧
    (∃ c : Cmd, ∃ s : State, ∃ e : Nat, ∃ u : State, (startOf opTakePolicy c s = some (e, u)) ∧ ∃ m : Nat, (m = (linkOfPair u c.idx.toNat).getD c.idx.toNat) ∧ ∃ p : Policy, (p = (linkOf u m).pol) ∧ ∃ v : State, (v = modLink m (fun x => { x with override := true, pol := { p with flags := (p.flags &&& ~~~0x1E) ||| BitVec.ofNat 8 (2 * leAt c.params 0 1), calDelta := orDefault (leAt c.params 1 1) 6, retakeTol := if leAt c.params 2 1 = 0 then -30 else s8 (leAt c.params 2 1), txLead := orDefault (leAt c.params 3 1) 16, calPeriod := leAt c.params 4 2 } }) u) ∧ c.paramLen ≠ 0 ∧ takePolicyBad c.params = false) ∧
    (∃ c : Cmd, ∃ s : State, ∃ e : Nat, ∃ u : State, (startOf opLinkForceRole c s = some (e, u)) ∧ leAt c.params 0 1 ≤ 2 ∧ leAt c.params 1 1 ≤ 1 ∧ leAt c.params 2 2 = 0 ∧ (fdxOut u (c.idx.toNat / 8) = [] ∨ leAt c.params 0 1 = 0 ∨ (portOf u (c.idx.toNat / 8)).fixedRole.all (fun r => r == (leAt c.params 0 1 == 2)) = true)) :=
  ⟨⟨(cm 4 0 []), ent1, (wr ldtCtlR 1 S0), some2 (by decide +kernel)⟩,
   ⟨(cm 4 0 []), ent0, (wr ldtCtlR 1 S0), some2 (by decide +kernel)⟩,
   ⟨(cm 4 0 []), ent1, (wr ldtCtlR 1 (lk .up S0)), some2 (by decide +kernel)⟩,
   ⟨(cm 4 0 []), (wr ldtCtlR 1 (lk .up S0)), some2 (by decide +kernel)⟩,
   ⟨(cm 4 0 [1, 127, 0, 0]), (wr ldtCtlR 1 (lk .up S0)), _, _, get2 (by decide +kernel), _, rfl, _, rfl, by decide +kernel⟩,
   ⟨(cm 4 0 []), (wr ldtCtlR 1 (lk .up S0)), some2 (by decide +kernel)⟩,
   ⟨(cm 4 0 [15, 6, 226, 16, 60, 0, 0, 0]), (lk .up S0), _, _, get2 (by decide +kernel), _, rfl, _, rfl, _, rfl, by decide +kernel⟩,
   ⟨(xp (cm 4 0 [2, 1, 0, 0])), (wr ldtCtlR 1 (lk .up S0)), some2 (by decide +kernel)⟩⟩
theorem witness_LinkMovesComplete :
    (∃ c : Cmd, ∃ s : State, ∃ e : Nat, ∃ u : State, (startOf opLinkUpSpec c s = some (e, u)) ∧ ∃ m : Nat, (m = c.idx.toNat) ∧ ∃ w : State, (w = modLink m (fun x => { x with relinks := 0 }) (keepRunning e m (if leAt c.params 0 1 = 1 then modLink m (fun x => { x with noCont := true }) u else u))) ∧ zeroFrom c.params 1 = true ∧ leAt c.params 0 1 ≤ 1 ∧ cableBusy u (m / 8) = false ∧ synState u (m / 8) ≠ 4 ∧ running u opcLinkUp 4 m = [] ∧ (linkOf u m).state = .down) ∧
    (∃ c : Cmd, ∃ s : State, ∃ e : Nat, ∃ u : State, (startOf opLinkUpSpec c s = some (e, u)) ∧ ∃ m : Nat, (m = c.idx.toNat) ∧ ∃ w : State, (w = modLink m (fun x => { x with relinks := 0 }) (keepRunning e m (if leAt c.params 0 1 = 1 then modLink m (fun x => { x with noCont := true }) u else u))) ∧ zeroFrom c.params 1 = true ∧ leAt c.params 0 1 ≤ 1 ∧ cableBusy u (m / 8) = false ∧ synState u (m / 8) ≠ 4 ∧ running u opcLinkUp 4 m = [] ∧ (linkOf u m).state = .holdoff) ∧
    (∃ c : Cmd, ∃ s : State, ∃ e : Nat, ∃ u : State, (startOf opLinkUpSpec c s = some (e, u)) ∧ ∃ m : Nat, (m = c.idx.toNat) ∧ ∃ w : State, (w = modLink m (fun x => { x with relinks := 0 }) (keepRunning e m (if leAt c.params 0 1 = 1 then modLink m (fun x => { x with noCont := true }) u else u))) ∧ zeroFrom c.params 1 = true ∧ leAt c.params 0 1 ≤ 1 ∧ cableBusy u (m / 8) = false ∧ synState u (m / 8) ≠ 4 ∧ running u opcLinkUp 4 m = [] ∧ ((linkOf u m).state = .listen ∨ (linkOf u m).state = .negotiate ∨ (linkOf u m).state = .train)) ∧
    (∃ c : Cmd, ∃ s : State, ∃ e : Nat, ∃ u : State, (startOf opLinkUpSpec c s = some (e, u)) ∧ ∃ m : Nat, (m = c.idx.toNat) ∧ ∃ w : State, (w = modLink m (fun x => { x with relinks := 0 }) (keepRunning e m (if leAt c.params 0 1 = 1 then modLink m (fun x => { x with noCont := true }) u else u))) ∧ zeroFrom c.params 1 = true ∧ leAt c.params 0 1 ≤ 1 ∧ cableBusy u (m / 8) = false ∧ synState u (m / 8) ≠ 4 ∧ running u opcLinkUp 4 m = [] ∧ (linkOf u m).state = .up) ∧
    (∃ c : Cmd, ∃ s : State, ∃ e : Nat, ∃ u : State, (startOf opLinkDownSpec c s = some (e, u)) ∧ ∃ m : Nat, (m = c.idx.toNat) ∧ ∃ w : State, (w = keepRunning e m u) ∧ ((linkOf u m).state = .train ∨ (linkOf u m).state = .up)) ∧
    (∃ c : Cmd, ∃ s : State, ∃ e : Nat, ∃ u : State, (startOf opLinkDownSpec c s = some (e, u)) ∧ ∃ m : Nat, (m = c.idx.toNat) ∧ ∃ w : State, (w = keepRunning e m u) ∧ (linkOf u m).state = .leaving) ∧
    (∃ c : Cmd, ∃ s : State, ∃ e : Nat, ∃ u : State, (startOf opLinkDownSpec c s = some (e, u)) ∧ ∃ m : Nat, (m = c.idx.toNat) ∧ ∃ w : State, (w = keepRunning e m u) ∧ ((linkOf u m).state = .listen ∨ (linkOf u m).state = .negotiate ∨ (linkOf u m).state = .holdoff)) ∧
    (∃ c : Cmd, ∃ s : State, ∃ e : Nat, ∃ u : State, (startOf opLinkDownSpec c s = some (e, u)) ∧ ∃ m : Nat, (m = c.idx.toNat) ∧ ∃ w : State, (w = keepRunning e m u) ∧ (linkOf u m).state = .down) ∧
    (∃ c : Cmd, ∃ s : State, ∃ e : Nat, ∃ u : State, (startOf opLinkStatus c s = some (e, u))) ∧
    (∃ c : Cmd, ∃ s : State, ∃ e : Nat, ∃ u : State, (startOf opLinkTrainStep c s = some (e, u)) ∧ ∃ m : Nat, (m = c.idx.toNat) ∧ zeroFrom c.params 1 = true ∧ leAt c.params 0 1 = 0 ∧ ((linkOf u m).state = .down ∨ (linkOf u m).state = .listen)) ∧
    (∃ c : Cmd, ∃ s : State, ∃ e : Nat, ∃ u : State, (startOf opLinkTrainStep c s = some (e, u)) ∧ ∃ m : Nat, (m = c.idx.toNat) ∧ zeroFrom c.params 1 = true ∧ leAt c.params 0 1 = 1 ∧ (linkOf u m).heldAt = true) ∧
    (∃ c : Cmd, ∃ s : State, ∃ e : Nat, ∃ u : State, (startOf opLinkTrainStep c s = some (e, u)) ∧ ∃ m : Nat, (m = c.idx.toNat) ∧ zeroFrom c.params 1 = true ∧ leAt c.params 0 1 = 2 ∧ (linkOf u m).heldAt = false) ∧
    (∃ c : Cmd, ∃ s : State, ∃ e : Nat, ∃ u : State, (startOf opLinkTrainStep c s = some (e, u)) ∧ ∃ m : Nat, (m = c.idx.toNat) ∧ zeroFrom c.params 1 = true ∧ leAt c.params 0 1 = 2 ∧ (linkOf u m).heldAt = true) :=
  ⟨⟨(cm 4 0 []), (lk .down S0), _, _, get2 (by decide +kernel), _, rfl, _, rfl, by decide +kernel⟩,
   ⟨(cm 4 0 []), (lk .holdoff S0), _, _, get2 (by decide +kernel), _, rfl, _, rfl, by decide +kernel⟩,
   ⟨(cm 4 0 []), (lk .train S0), _, _, get2 (by decide +kernel), _, rfl, _, rfl, by decide +kernel⟩,
   ⟨(cm 4 0 []), (lk .up S0), _, _, get2 (by decide +kernel), _, rfl, _, rfl, by decide +kernel⟩,
   ⟨(cm 4 0 []), (lk .up S0), _, _, get2 (by decide +kernel), _, rfl, _, rfl, by decide +kernel⟩,
   ⟨(cm 4 0 []), (lk .leaving S0), _, _, get2 (by decide +kernel), _, rfl, _, rfl, by decide +kernel⟩,
   ⟨(cm 4 0 []), (lk .holdoff S0), _, _, get2 (by decide +kernel), _, rfl, _, rfl, by decide +kernel⟩,
   ⟨(cm 4 0 []), (lk .down S0), _, _, get2 (by decide +kernel), _, rfl, _, rfl, by decide +kernel⟩,
   ⟨(cm 4 0 []), (lk .holdoff S0), some20 (by decide +kernel)⟩,
   ⟨(xp (cm 4 0 [0, 0, 0, 0])), (lk .down S0), _, _, get2 (by decide +kernel), _, rfl, by decide +kernel⟩,
   ⟨(xp (cm 4 0 [1, 0, 0, 0])), (modLink 0 (fun x => { x with heldAt := true, hold := true }) (lk .train S0)), _, _, get2 (by decide +kernel), _, rfl, by decide +kernel⟩,
   ⟨(xp (cm 4 0 [2, 0, 0, 0])), (lk .holdoff S0), _, _, get2 (by decide +kernel), _, rfl, by decide +kernel⟩,
   ⟨(xp (cm 4 0 [2, 0, 0, 0])), (modLink 0 (fun x => { x with heldAt := true, hold := true }) (lk .train S0)), _, _, get2 (by decide +kernel), _, rfl, by decide +kernel⟩⟩
theorem witness_TakeCommandsComplete :
    (∃ c : Cmd, ∃ s : State, ∃ e : Nat, ∃ u : State, (startOf opTakeList c s = some (e, u))) ∧
    (∃ c : Cmd, ∃ s : State, ∃ e : Nat, ∃ u : State, (startOf (opTakeRead c) c s = some (e, u)) ∧ leAt c.params 0 1 ≤ 7 ∧ 16 * leAt c.params 1 1 + readLen c.params ≤ 4096 ∧ slotCode u c.idx.toNat (leAt c.params 0 1) ≠ slEmpty) ∧
    (∃ c : Cmd, ∃ s : State, ∃ e : Nat, ∃ u : State, (startOf (opTakeWrite c) c s = some (e, u)) ∧ ∃ l : Nat, (l = c.idx.toNat) ∧ ∃ k : Nat, (k = leAt c.params 0 1) ∧ ∃ w : State, (w = (if stepSlot u l k (cmdLink u c) then stepRelease l k u else u)) ∧ ∃ prev : Nat, (prev = slotCode w l k) ∧ ∃ v : State, (v = takeWords 0x22 0 l k 4096 (writeTake l k (c.params.drop 8) w)) ∧ k ≤ 7 ∧ leAt c.params 2 6 = 0 ∧ loaderHas u l k = false ∧ prev ≠ slScheduled ∧ prev ≠ slActive ∧ leAt c.params 1 1 = 0) ∧
    (∃ c : Cmd, ∃ s : State, ∃ e : Nat, ∃ u : State, (startOf (opTakeWrite c) c s = some (e, u)) ∧ ∃ l : Nat, (l = c.idx.toNat) ∧ ∃ k : Nat, (k = leAt c.params 0 1) ∧ ∃ w : State, (w = (if stepSlot u l k (cmdLink u c) then stepRelease l k u else u)) ∧ ∃ prev : Nat, (prev = slotCode w l k) ∧ ∃ v : State, (v = takeWords 0x22 0 l k 4096 (writeTake l k (c.params.drop 8) w)) ∧ k ≤ 7 ∧ leAt c.params 2 6 = 0 ∧ loaderHas u l k = false ∧ prev ≠ slScheduled ∧ prev ≠ slActive ∧ leAt c.params 1 1 = 1) ∧
    (∃ c : Cmd, ∃ s : State, ∃ e : Nat, ∃ u : State, (startOf (opTakeWrite c) c s = some (e, u)) ∧ ∃ l : Nat, (l = c.idx.toNat) ∧ ∃ k : Nat, (k = leAt c.params 0 1) ∧ ∃ w : State, (w = (if stepSlot u l k (cmdLink u c) then stepRelease l k u else u)) ∧ ∃ prev : Nat, (prev = slotCode w l k) ∧ ∃ v : State, (v = takeWords 0x22 0 l k 4096 (writeTake l k (c.params.drop 8) w)) ∧ k ≤ 7 ∧ leAt c.params 2 6 = 0 ∧ loaderHas u l k = false ∧ prev ≠ slScheduled ∧ prev ≠ slActive ∧ leAt c.params 1 1 = 2) ∧
    (∃ c : Cmd, ∃ s : State, ∃ e : Nat, ∃ u : State, (startOf (opTakeWrite c) c s = some (e, u)) ∧ ∃ l : Nat, (l = c.idx.toNat) ∧ ∃ k : Nat, (anySlot u l = some k) ∧ ∃ v : State, (v = takeWords 0x22 0 l k 4096 (writeTake l k (c.params.drop 8) u)) ∧ leAt c.params 0 1 = 0xFF ∧ leAt c.params 2 6 = 0 ∧ loaderHas u l k = false ∧ leAt c.params 1 1 = 0) ∧
    (∃ c : Cmd, ∃ s : State, ∃ e : Nat, ∃ u : State, (startOf (opTakeWrite c) c s = some (e, u)) ∧ ∃ l : Nat, (l = c.idx.toNat) ∧ ∃ k : Nat, (anySlot u l = some k) ∧ ∃ v : State, (v = takeWords 0x22 0 l k 4096 (writeTake l k (c.params.drop 8) u)) ∧ leAt c.params 0 1 = 0xFF ∧ leAt c.params 2 6 = 0 ∧ loaderHas u l k = false ∧ leAt c.params 1 1 = 2) ∧
    (∃ c : Cmd, ∃ s : State, ∃ e : Nat, ∃ u : State, (startOf opTakeVerify c s = some (e, u)) ∧ leAt c.params 0 1 ≤ 7 ∧ zeroFrom c.params 1 = true ∧ slotCode u c.idx.toNat (leAt c.params 0 1) ≠ slEmpty ∧ slotCode u c.idx.toNat (leAt c.params 0 1) ≠ slScheduled ∧ slotCode u c.idx.toNat (leAt c.params 0 1) ≠ slActive) ∧
    (∃ c : Cmd, ∃ s : State, ∃ e : Nat, ∃ u : State, (startOf opTakeCut c s = some (e, u)) ∧ ∃ k : Cut, ((pairOf u c.idx.toNat).cut = some k) ∧ leAt c.params 1 1 = 8 ∧ leAt c.params 2 2 = 0) ∧
    (∃ c : Cmd, ∃ s : State, ∃ e : Nat, ∃ u : State, (startOf opTakeCut c s = some (e, u)) ∧ ∃ l : Nat, (l = c.idx.toNat) ∧ ∃ k : Nat, (k = leAt c.params 0 1) ∧ ∃ want : BitVec 32, (want = BitVec.ofNat 32 (leAt c.params 4 4)) ∧ k ≤ 7 ∧ leAt c.params 2 2 = 0 ∧ ((linkOf u (cmdLink u c)).state = .up ∨ (linkOf u (cmdLink u c)).heldAt = true) ∧ slotCode u l k = slVerified ∧ (pairOf u l).cut = none ∧ leAt c.params 1 1 = 0 ∧ cutsLocal u l k (cmdLink u c) = true) ∧
    (∃ c : Cmd, ∃ s : State, ∃ e : Nat, ∃ u : State, (startOf opTakeCut c s = some (e, u)) ∧ ∃ l : Nat, (l = c.idx.toNat) ∧ ∃ k : Nat, (k = leAt c.params 0 1) ∧ ∃ want : BitVec 32, (want = BitVec.ofNat 32 (leAt c.params 4 4)) ∧ k ≤ 7 ∧ leAt c.params 2 2 = 0 ∧ ((linkOf u (cmdLink u c)).state = .up ∨ (linkOf u (cmdLink u c)).heldAt = true) ∧ slotCode u l k = slVerified ∧ (pairOf u l).cut = none ∧ leAt c.params 1 1 = 1 ∧ cutsLocal u l k (cmdLink u c) = true ∧ sfFuture want (curSf u l) = true ∧ 2 ≤ sfDiff want (curSf u l)) ∧
    (∃ c : Cmd, ∃ s : State, ∃ e : Nat, ∃ u : State, (startOf opTakeCut c s = some (e, u)) ∧ ∃ l : Nat, (l = c.idx.toNat) ∧ ∃ k : Nat, (k = leAt c.params 0 1) ∧ ∃ want : BitVec 32, (want = BitVec.ofNat 32 (leAt c.params 4 4)) ∧ k ≤ 7 ∧ leAt c.params 2 2 = 0 ∧ ((linkOf u (cmdLink u c)).state = .up ∨ (linkOf u (cmdLink u c)).heldAt = true) ∧ slotCode u l k = slVerified ∧ (pairOf u l).cut = none ∧ leAt c.params 1 1 = 4 ∧ isFdx (modeOf u (cmdLink u c)) = true) ∧
    (∃ c : Cmd, ∃ s : State, ∃ e : Nat, ∃ u : State, (startOf opTakeCut c s = some (e, u)) ∧ ∃ l : Nat, (l = c.idx.toNat) ∧ ∃ k : Nat, (k = leAt c.params 0 1) ∧ ∃ want : BitVec 32, (want = BitVec.ofNat 32 (leAt c.params 4 4)) ∧ k ≤ 7 ∧ leAt c.params 2 2 = 0 ∧ ((linkOf u (cmdLink u c)).state = .up ∨ (linkOf u (cmdLink u c)).heldAt = true) ∧ slotCode u l k = slVerified ∧ (pairOf u l).cut = none ∧ leAt c.params 1 1 = 2 ∧ isFdx (modeOf u (cmdLink u c)) = true ∧ linkMismatch u (cmdLink u c) = false ∧ (linkOf u (cmdLink u c)).pol.txLead ≤ 255) ∧
    (∃ c : Cmd, ∃ s : State, ∃ e : Nat, ∃ u : State, (startOf opTakeGrade c s = some (e, u)) ∧ leAt c.params 0 1 ≤ 1 ∧ zeroFrom c.params 1 = true ∧ (linkOf u (cmdLink u c)).state = .up ∧ graderOn u (groupOf c.idx.toNat) = true ∧ hasRun u c.idx.toNat = false) :=
  ⟨⟨(cm 4 0 []), (lk .up S0), some20 (by decide +kernel)⟩,
   ⟨(cm 4 0 [7, 255, 1, 0]), (wr (slotStateR 0) 0x20000000 (lk .up S0)), some2 (by decide +kernel)⟩,
   ⟨{ xp (cm 4 0 (7 :: zeros 4103)) with path := .ring 0 }, (lk .up S0), _, _, get2 (by decide +kernel), _, rfl, _, rfl, _, rfl, _, rfl, _, rfl, by decide +kernel⟩,
   ⟨{ xp (cm 4 0 [7, 1, 0, 0, 0, 0, 0, 0]) with path := .ring 0 }, (lk .up S0), _, _, get2 (by decide +kernel), _, rfl, _, rfl, _, rfl, _, rfl, _, rfl, by decide +kernel⟩,
   ⟨{ xp (cm 4 0 ([7, 2] ++ zeros 4102)) with path := .ring 0 }, (lk .up S0), _, _, get2 (by decide +kernel), _, rfl, _, rfl, _, rfl, _, rfl, _, rfl, by decide +kernel⟩,
   ⟨{ xp (cm 4 0 (255 :: zeros 4103)) with path := .ring 0 }, (lk .up S0), _, _, get2 (by decide +kernel), _, rfl, _, get1 (by decide +kernel), _, rfl, by decide +kernel⟩,
   ⟨{ xp (cm 4 0 ([255, 2] ++ zeros 4102)) with path := .ring 0 }, (lk .up S0), _, _, get2 (by decide +kernel), _, rfl, _, get1 (by decide +kernel), _, rfl, by decide +kernel⟩,
   ⟨(xp (cm 4 0 [7, 0, 0, 0])), (wr (slotStateR 0) 0x20000000 (lk .up S0)), some2 (by decide +kernel)⟩,
   ⟨(xp (cm 4 0 [0, 8, 0, 0, 0, 0, 0, 0])), (modPair 0 (fun x => { x with cut := some { slot := 1, sf := 9 } }) (lk .up S0)), _, _, get2 (by decide +kernel), some1 (by decide +kernel)⟩,
   ⟨(xp (cm 4 0 [1, 0, 0, 0, 0, 0, 0, 0])), (wr (slotStateR 0) 0x24 (lk .up S0)), _, _, get2 (by decide +kernel), _, rfl, _, rfl, _, rfl, by decide +kernel⟩,
   ⟨(xp (cm 4 0 [7, 1, 0, 0, 4, 0, 0, 0])), (wr (slotStateR 0) 0x20000004 (lk .up S0)), _, _, get2 (by decide +kernel), _, rfl, _, rfl, _, rfl, by decide +kernel⟩,
   ⟨(xp (cm 4 0 [7, 4, 0, 0, 4, 0, 0, 0])), (wr (slotStateR 0) 0x20000000 (lk .up S0)), _, _, get2 (by decide +kernel), _, rfl, _, rfl, _, rfl, by decide +kernel⟩,
   ⟨(xp (cm 4 0 [7, 2, 0, 0, 4, 0, 0, 0])), (wr (slotStateR 0) 0x20000000 (lk .up S0)), _, _, get2 (by decide +kernel), _, rfl, _, rfl, _, rfl, by decide +kernel⟩,
   ⟨(cm 4 0 []), (lk .up S0), some2 (by decide +kernel)⟩⟩
theorem witness_CaptureCommandsComplete :
    (∃ c : Cmd, ∃ s : State, ∃ e : Nat, ∃ u : State, (startOf opRushesArm c s = some (e, u)) ∧ armBad c c.idx.toNat u = none) ∧
    (∃ c : Cmd, ∃ s : State, ∃ e : Nat, ∃ u : State, (startOf opRushesStatus c s = some (e, u))) ∧
    (∃ c : Cmd, ∃ s : State, ∃ e : Nat, ∃ u : State, (startOf opRushesUpload c s = some (e, u)) ∧ leAt c.params 0 8 % 64 = 0 ∧ leAt c.params 16 1 ≤ 1 ∧ zeroFrom c.params 17 = true ∧ rushesOn u c.idx.toNat = true ∧ (doneCapture u c.idx.toNat).isSome ∧ leAt c.params 8 4 + leAt c.params 12 4 ≤ 295168) ∧
    (∃ c : Cmd, ∃ s : State, ∃ e : Nat, ∃ u : State, (startOf opCableProfile c s = some (e, u)) ∧ (cableParams c.params 0).1 = false ∧ leAt c.params 3 1 = 0 ∧ (linkOf u c.idx.toNat).state = .up ∧ graderOn u (groupOf c.idx.toNat) = true) ∧
    (∃ c : Cmd, ∃ s : State, ∃ e : Nat, ∃ u : State, (startOf (opCableTest c) c s = some (e, u)) ∧ (cableParams c.params 2).1 = false ∧ zeroFrom c.params 5 = true ∧ cableBusy u c.idx.toNat = false ∧ (∀ m ∈ portLinks u c.idx.toNat, (linkOf u m).state = .down) ∧ capsOf u c.idx.toNat = [] ∧ activationPending u = false ∧ leAt c.params 0 1 = 0) ∧
    (∃ c : Cmd, ∃ s : State, ∃ e : Nat, ∃ u : State, (startOf (opCableTest c) c s = some (e, u)) ∧ (cableParams c.params 2).1 = false ∧ zeroFrom c.params 5 = true ∧ cableBusy u c.idx.toNat = false ∧ (∀ m ∈ portLinks u c.idx.toNat, (linkOf u m).state = .down) ∧ capsOf u c.idx.toNat = [] ∧ activationPending u = false ∧ leAt c.params 0 1 ≠ 0) :=
  ⟨⟨(cm 3 0 ([4, 7, 15, 16] ++ zeros 16)), { S0 with captures := [(0, [{ owner := 0, state := 3 }])] }, some2 (by decide +kernel)⟩,
   ⟨(cm 2 0 []), { S0 with captures := [(0, [{ owner := 0, state := 3 }])] }, some20 (by decide +kernel)⟩,
   ⟨(cm 3 0 (zeros 8 ++ zeros 4 ++ leBytes 4 295168 ++ zeros 4)), { S0 with captures := [(0, [{ owner := 0, state := 3 }])] }, some2 (by decide +kernel)⟩,
   ⟨{ cm 4 0 [0, 0, 0, 0] with path := .ring 0 }, (lk .up S0), some2 (by decide +kernel)⟩,
   ⟨{ cm 3 0 [0, 0, 0, 0, 0, 0, 0, 0] with path := .ring 0 }, (lk .down S0), some2 (by decide +kernel)⟩,
   ⟨(cm 3 0 [0x81, 0, 0, 0, 0, 0, 0, 0]), (lk .down S0), some2 (by decide +kernel)⟩⟩
theorem witness_DiagnosticAndCounterCommandsComplete :
    (∃ c : Cmd, ∃ s : State, ∃ e : Nat, ∃ u : State, (startOf opPairSnr c s = some (e, u))) ∧
    (∃ c : Cmd, ∃ s : State, ∃ e : Nat, ∃ u : State, (startOf opEyeScan c s = some (e, u)) ∧ zeroFrom c.params 16 = true ∧ laneIsTx c.idx.toNat = false ∧ (eyeGrid c.params).isSome ∧ (laneOf u c.idx.toNat).scan = none ∧ (laneOf u c.idx.toNat).auto = none) ∧
    (∃ c : Cmd, ∃ s : State, ∃ e : Nat, ∃ u : State, (startOf opLoopback c s = some (e, u)) ∧ c.cls = 3 ∧ zeroFrom c.params 1 = true ∧ leAt c.params 0 1 = 0) ∧
    (∃ c : Cmd, ∃ s : State, ∃ e : Nat, ∃ u : State, (startOf opLoopback c s = some (e, u)) ∧ c.cls = 3 ∧ zeroFrom c.params 1 = true ∧ leAt c.params 0 1 = 1) ∧
    (∃ c : Cmd, ∃ s : State, ∃ e : Nat, ∃ u : State, (startOf opLoopback c s = some (e, u)) ∧ ∃ v : State, (v = modLink c.idx.toNat (fun x => { x with loopback := leAt c.params 0 1 }) u) ∧ c.cls = 4 ∧ zeroFrom c.params 1 = true ∧ leAt c.params 0 1 = 0) ∧
    (∃ c : Cmd, ∃ s : State, ∃ e : Nat, ∃ u : State, (startOf opLoopback c s = some (e, u)) ∧ ∃ v : State, (v = modLink c.idx.toNat (fun x => { x with loopback := leAt c.params 0 1 }) u) ∧ c.cls = 4 ∧ zeroFrom c.params 1 = true ∧ leAt c.params 0 1 = 2 ∧ (linkOf u c.idx.toNat).state = .up) ∧
    (∃ c : Cmd, ∃ s : State, ∃ e : Nat, ∃ u : State, (startOf opLoopback c s = some (e, u)) ∧ ∃ v : State, (v = modLink c.idx.toNat (fun x => { x with loopback := leAt c.params 0 1 }) u) ∧ c.cls = 4 ∧ zeroFrom c.params 1 = true ∧ leAt c.params 0 1 = 3 ∧ (linkOf u c.idx.toNat).state = .down ∧ isFdx (linkOf u c.idx.toNat).mode = true) ∧
    (∃ c : Cmd, ∃ s : State, ∃ e : Nat, ∃ u : State, (startOf opCntSnapshot c s = some (e, u))) ∧
    (∃ c : Cmd, ∃ s : State, ∃ e : Nat, ∃ u : State, (startOf opCntRead c s = some (e, u)) ∧ zeroFrom c.params 1 = true ∧ countersGated u c.cls.toNat c.idx.toNat = false ∧ leAt c.params 0 1 = 0) ∧
    (∃ c : Cmd, ∃ s : State, ∃ e : Nat, ∃ u : State, (startOf opCntRead c s = some (e, u)) ∧ zeroFrom c.params 1 = true ∧ countersGated u c.cls.toNat c.idx.toNat = false ∧ leAt c.params 0 1 = 1 ∧ u.snapDone = true) ∧
    (∃ c : Cmd, ∃ s : State, ∃ e : Nat, ∃ u : State, (startOf opCntClear c s = some (e, u))) ∧
    (∃ c : Cmd, ∃ s : State, ∃ e : Nat, ∃ u : State, (startOf opUtilWindow c s = some (e, u)) ∧ zeroFrom c.params 1 = true ∧ leAt c.params 0 1 ≤ 20) :=
  ⟨⟨(cm 4 0 []), (lk .up S0), some20 (by decide +kernel)⟩,
   ⟨(cm 5 4 (zeros 8 ++ [2, 30, 192, 63, 1, 0, 255, 1] ++ zeros 8)), (lk .up S0), some2 (by decide +kernel)⟩,
   ⟨(cm 3 0 [0, 0, 0, 0]), (lk .up S0), some2 (by decide +kernel)⟩,
   ⟨(cm 3 0 [1, 0, 0, 0]), (lk .up S0), some2 (by decide +kernel)⟩,
   ⟨{ cm 4 0 [0, 0, 0, 0] with path := .ring 0 }, (lk .up S0), _, _, get2 (by decide +kernel), _, rfl, by decide +kernel⟩,
   ⟨(cm 4 0 [2, 0, 0, 0]), (lk .up S0), _, _, get2 (by decide +kernel), _, rfl, by decide +kernel⟩,
   ⟨(cm 4 0 [3, 0, 0, 0]), (lk .down S0), _, _, get2 (by decide +kernel), _, rfl, by decide +kernel⟩,
   ⟨(cm 0 0 []), (lk .up S0), some20 (by decide +kernel)⟩,
   ⟨(cm 4 0 [0, 0, 0, 0]), (lk .up S0), some2 (by decide +kernel)⟩,
   ⟨(cm 0 0 [1, 0, 0, 0]), { S0 with snapDone := true }, some2 (by decide +kernel)⟩,
   ⟨(cm 0 0 []), (lk .up S0), some20 (by decide +kernel)⟩,
   ⟨(cm 3 63 [20, 0, 0, 0]), (lk .up S0), some2 (by decide +kernel)⟩⟩
theorem witness_ClockCommandsComplete :
    (∃ c : Cmd, ∃ s : State, ∃ cfg : Word, ∃ ph : Word, ∃ ret : Bool, ∃ e : Nat, ∃ u : State, (startOf (opClkOutputSet c) c s = some (e, u)) ∧ ∃ v : State, (v = outPhaseWrite c.idx.toNat ph (outCfgWrite c.idx.toNat cfg u)) ∧ outParamsBad c = false ∧ outRequest u c.idx.toNat c = some (cfg, ph, ret) ∧ rackEnabled u (outSrc u c.idx.toNat) = true ∧ rackEnabled u (72 + fieldGet cfg 0 0) = true ∧ (ret = true → rackState u (72 + fieldGet cfg 0 0) = 3) ∧ outLocked u c.idx.toNat cfg ph = false ∧ (followedLocked u c.idx.toNat = true → freqEq (outFreq u c.idx.toNat) (outFreqAfter u c.idx.toNat cfg ret) = true)) ∧
    (∃ c : Cmd, ∃ s : State, ∃ e : Nat, ∃ u : State, (startOf opClkPllProgram c s = some (e, u)) ∧ ∃ p : Nat, (p = (if 2 ≤ leAt c.params 1 1 then bitsOf (leAt c.params 4 4) 11 8 + 1 else rdF u (synCtl c.idx.toNat) 3 0 + 1)) ∧ ∃ v : State, (v = (if 2 ≤ leAt c.params 1 1 then each (List.range 4) (fun j => wrB (synSlotR c.idx.toNat j) 14 false) (wrF (synCtl c.idx.toNat) 3 0 (p - 1) u) else u)) ∧ ∃ w : State, (w = synWordWrite c.idx.toNat (leAt c.params 0 1) true (BitVec.ofNat 32 (leAt c.params 8 4)) (synWordWrite c.idx.toNat (leAt c.params 0 1) false (BitVec.ofNat 32 (leAt c.params 4 4)) v)) ∧ c.idx.toNat < 72 ∧ leAt c.params 0 1 ≤ 3 ∧ leAt c.params 1 1 ≤ 3 ∧ leAt c.params 2 2 = 0 ∧ leAt c.params 4 4 < 4096 ∧ synBusy u c.idx.toNat = false ∧ (leAt c.params 1 1 ≠ 0 ∨ leAt c.params 0 1 = synActive u c.idx.toNat → synInUse u c.idx.toNat = false) ∧ (leAt c.params 1 1 % 2 = 1 → synState u c.idx.toNat ≠ 0)) ∧
    (∃ c : Cmd, ∃ s : State, ∃ e : Nat, ∃ u : State, (startOf opClkHop c s = some (e, u)) ∧ leAt c.params 1 3 = 0 ∧ c.idx.toNat < 72 ∧ c.paramLen = 4 ∧ leAt c.params 0 1 ≤ 3 ∧ synState u c.idx.toNat ≠ 0 ∧ synBusy u c.idx.toNat = false ∧ synInUse u c.idx.toNat = false) ∧
    (∃ c : Cmd, ∃ s : State, ∃ e : Nat, ∃ u : State, (startOf opClkHop c s = some (e, u)) ∧ leAt c.params 1 3 = 0 ∧ 72 ≤ c.idx.toNat ∧ leAt c.params 0 1 ≤ 15 ∧ rackEnabled u c.idx.toNat = true ∧ rackState u c.idx.toNat ≠ 0 ∧ rackBusy u c.idx.toNat = false ∧ rackInUse u c.idx.toNat = false ∧ c.paramLen = 4) ∧
    (∃ c : Cmd, ∃ s : State, ∃ e : Nat, ∃ u : State, (startOf opClkHop c s = some (e, u)) ∧ leAt c.params 1 3 = 0 ∧ 72 ≤ c.idx.toNat ∧ leAt c.params 0 1 ≤ 15 ∧ rackEnabled u c.idx.toNat = true ∧ rackState u c.idx.toNat ≠ 0 ∧ rackBusy u c.idx.toNat = false ∧ rackInUse u c.idx.toNat = false ∧ c.paramLen = 12 ∧ u.time.toNat + 100000 ≤ leAt c.params 4 8 ∧ hopScheduled u c.idx.toNat = false) ∧
    (∃ c : Cmd, ∃ s : State, ∃ e : Nat, ∃ u : State, (startOf opClkStep c s = some (e, u)) ∧ (signed 32 (leAt c.params 0 4)).natAbs ≤ 2 ^ 20 ∧ (c.idx.toNat < 72 ∨ rackEnabled u c.idx.toNat = true) ∧ stepRefused u c.idx.toNat = false) ∧
    (∃ c : Cmd, ∃ s : State, ∃ e : Nat, ∃ u : State, (startOf opClkSpread c s = some (e, u)) ∧ leAt c.params 0 1 ≤ 2 ∧ leAt c.params 3 1 = 0 ∧ leAt c.params 1 1 ≤ (if leAt c.params 0 1 = 2 then 25 else 50) ∧ 60 ≤ leAt c.params 2 1 ∧ leAt c.params 2 1 ≤ 126 ∧ rackEnabled u (outSrc u c.idx.toNat) = true ∧ rdB u (outBase c.idx.toNat) 3 = false ∧ (followers u c.idx.toNat).any (tileCompat u) = false ∧ (leAt c.params 0 1 = 2 → followers u c.idx.toNat = [])) ∧
    (∃ c : Cmd, ∃ s : State, ∃ e : Nat, ∃ u : State, (startOf opClkSyncArm c s = some (e, u)) ∧ ∃ v : State, (v = each ((List.range 16).filter (fun n => (leAt c.params 0 2).testBit n)) (fun n => wrB (outBase n) 6 true) (wrB clapCtlR 0 true u)) ∧ leAt c.params 2 2 = 0 ∧ (∀ n, n < 16 → (leAt c.params 0 2).testBit n = true → rackEnabled u (outSrc u n) = true) ∧ c.paramLen = 4) ∧
    (∃ c : Cmd, ∃ s : State, ∃ e : Nat, ∃ u : State, (startOf opClkSyncArm c s = some (e, u)) ∧ ∃ v : State, (v = each ((List.range 16).filter (fun n => (leAt c.params 0 2).testBit n)) (fun n => wrB (outBase n) 6 true) (wrB clapCtlR 0 true u)) ∧ leAt c.params 2 2 = 0 ∧ (∀ n, n < 16 → (leAt c.params 0 2).testBit n = true → rackEnabled u (outSrc u n) = true) ∧ c.paramLen = 12 ∧ rdB u chainStateR 0 = true ∧ u.time.toNat + 100000 ≤ leAt c.params 4 8 ∧ rdB u clapCtlR 2 = true ∧ pulseScheduled u = false) ∧
    (∃ c : Cmd, ∃ step : BitVec 16, ∃ diff : Word, ∃ s : State, ∃ e : Nat, ∃ u : State, (startOf opClkRefSelect c s = some (e, u)) ∧ c.cls = 0 ∧ c.expert = false ∧ leAt c.params 0 1 = 1 ∧ leAt c.params 1 1 ≤ 2 ∧ leAt c.params 2 2 = 0 ∧ rootSrcOk u (leAt c.params 1 1) = true ∧ (locked u 0 = true → leAt c.params 1 1 = rdF u clkRootSrcR 1 0)) ∧
    (∃ c : Cmd, ∃ step : BitVec 16, ∃ diff : Word, ∃ s : State, ∃ e : Nat, ∃ u : State, (startOf opClkRefSelect c s = some (e, u)) ∧ ∃ v : State, (v = (if c.expert then wrF refSelR 7 6 (leAt c.params 2 1 / 2) (wrF refSelR 1 1 (leAt c.params 2 1 % 2) u) else u)) ∧ c.cls = 0 ∧ leAt c.params 0 1 = 0 ∧ leAt c.params 1 1 ≤ 1 ∧ leAt c.params 2 1 ≤ (if c.expert then 7 else 0) ∧ leAt c.params 3 1 = 0 ∧ refOk u (leAt c.params 1 1) = true ∧ locked u 0 = false) ∧
    (∃ c : Cmd, ∃ step : BitVec 16, ∃ diff : Word, ∃ s : State, ∃ e : Nat, ∃ u : State, (startOf opClkRefSelect c s = some (e, u)) ∧ c.cls = 7 ∧ 64 ≤ c.idx.toNat ∧ c.idx.toNat ≤ 71 ∧ c.expert = false ∧ leAt c.params 0 1 ≤ 1 ∧ leAt c.params 1 1 ≤ 15 ∧ (leAt c.params 0 1 = 0 → leAt c.params 1 1 = 0) ∧ leAt c.params 2 2 = 0 ∧ locked u 0 = false ∧ tileLaneLocked u (c.idx.toNat - 64) = false ∧ (leAt c.params 0 1 = 1 → fieldGet (spreadOf u (leAt c.params 1 1)) 1 0 ≠ 2 ∧ (tileCompat u (c.idx.toNat - 64) = true → spreadMode u (leAt c.params 1 1) = 0))) ∧
    (∃ c : Cmd, ∃ s : State, ∃ e : Nat, ∃ u : State, (startOf (opClkStatus c) c s = some (e, u)) ∧ c.cls = 0) ∧
    (∃ c : Cmd, ∃ s : State, ∃ e : Nat, ∃ u : State, (startOf (opClkStatus c) c s = some (e, u)) ∧ c.cls = 6 ∧ rackEnabled u (outSrc u c.idx.toNat) = true) ∧
    (∃ c : Cmd, ∃ s : State, ∃ e : Nat, ∃ u : State, (startOf (opClkStatus c) c s = some (e, u)) ∧ c.cls = 7 ∧ c.idx.toNat < 72) ∧
    (∃ c : Cmd, ∃ s : State, ∃ e : Nat, ∃ u : State, (startOf (opClkStatus c) c s = some (e, u)) ∧ c.cls = 7 ∧ 72 ≤ c.idx.toNat ∧ rackEnabled u c.idx.toNat = true) :=
  ⟨⟨(xp (cm 6 0 [0, 0, 0, 16, 0, 0, 0, 16, 0, 0, 0, 0])), (wr (synStatusR 0) 2 S0), 0xFFF00, 0xFFF0000, false, _, _, get2 (by decide +kernel), _, rfl, by decide +kernel⟩,
   ⟨(xp (cm 7 0 [1, 0, 0, 0, 160, 0, 0, 0, 0, 0, 0, 0])), (wr (synStatusR 0) 2 S0), _, _, get2 (by decide +kernel), _, rfl, _, rfl, _, rfl, by decide +kernel⟩,
   ⟨(cm 7 0 [3, 0, 0, 0]), (wr (synStatusR 0) 2 S0), some2 (by decide +kernel)⟩,
   ⟨(cm 7 72 [3, 0, 0, 0]), (wr (rackBase 72 + 4) 3 (wrB (rackBase 72) 4 true S0)), some2 (by decide +kernel)⟩,
   ⟨(cm 7 72 ([3, 0, 0, 0] ++ leBytes 8 1000000)), (wr (rackBase 72 + 4) 3 (wrB (rackBase 72) 4 true S0)), some2 (by decide +kernel)⟩,
   ⟨(cm 7 0 [3, 0, 0, 0]), (wr (synStatusR 0) 2 S0), some2 (by decide +kernel)⟩,
   ⟨(cm 6 0 [1, 50, 60, 0]), (wr (synStatusR 0) 2 S0), some2 (by decide +kernel)⟩,
   ⟨(cm 0 0 [255, 255, 0, 0]), (orViews clkMonStatusR 3 (wr clkMonStatusR 0x1F S0)), _, _, get2 (by decide +kernel), _, rfl, by decide +kernel⟩,
   ⟨(cm 0 0 ([255, 255, 0, 0] ++ leBytes 8 1000000)), (wr (rackBase 72 + 4) 3 (wrB (rackBase 72) 4 true (wrB clapCtlR 2 true SM))), _, _, get2 (by decide +kernel), _, rfl, by decide +kernel⟩,
   ⟨(cm 0 0 [1, 2, 0, 0]), 0, 0, (orViews clkMonStatusR 3 (wr clkMonStatusR 0x1F S0)), some2 (by decide +kernel)⟩,
   ⟨(cm 0 0 [0, 1, 0, 0]), 0, 0, (orViews clkMonStatusR 3 (wr clkMonStatusR 0x1F S0)), _, _, get2 (by decide +kernel), _, rfl, by decide +kernel⟩,
   ⟨(cm 7 64 [0, 0, 0, 0]), 0, 0, S0, some2 (by decide +kernel)⟩,
   ⟨(cm 0 0 []), (orViews clkMonStatusR 3 (wr clkMonStatusR 0x1F S0)), some2 (by decide +kernel)⟩,
   ⟨(cm 6 0 []), (orViews clkMonStatusR 3 (wr clkMonStatusR 0x1F S0)), some2 (by decide +kernel)⟩,
   ⟨(cm 7 3 []), (orViews clkMonStatusR 3 (wr clkMonStatusR 0x1F S0)), some2 (by decide +kernel)⟩,
   ⟨(cm 7 72 []), (orViews clkMonStatusR 3 (wr clkMonStatusR 0x1F S0)), some2 (by decide +kernel)⟩⟩
theorem witness_PowerCommandsComplete :
    (∃ c : Cmd, ∃ s : State, ∃ e : Nat, ∃ u : State, (startOf opPwrStateSet c s = some (e, u)) ∧ zeroFrom c.params 1 = true ∧ leAt c.params 0 1 ≤ 4 ∧ accepts c.idx.toNat (leAt c.params 0 1) = true ∧ c.expert = false) ∧
    (∃ c : Cmd, ∃ s : State, ∃ e : Nat, ∃ u : State, (startOf opPwrStateSet c s = some (e, u)) ∧ zeroFrom c.params 1 = true ∧ leAt c.params 0 1 ≤ 4 ∧ accepts c.idx.toNat (leAt c.params 0 1) = true ∧ c.expert = true) ∧
    (∃ c : Cmd, ∃ s : State, ∃ e : Nat, ∃ u : State, (startOf opPwrPolicy c s = some (e, u)) ∧ ∃ v : State, (v = wrB (domBase c.idx.toNat) 3 (leAt c.params 4 1 == 1) (wr (domBase c.idx.toNat + 8) (BitVec.ofNat 32 (leAt c.params 0 4)) u)) ∧ timersOk c.idx.toNat (BitVec.ofNat 32 (leAt c.params 0 4)) = true ∧ leAt c.params 4 1 ≤ 1 ∧ leAt c.params 9 1 ≤ 1 ∧ leAt c.params 5 3 = 0 ∧ leAt c.params 10 2 = 0 ∧ (c.idx.toNat = 72 → leAt c.params 4 1 = 0) ∧ (leAt c.params 9 1 = 1 → retainMask c.idx.toNat ≠ 0 ∧ BitVec.ofNat 32 (leAt c.params 8 1) &&& ~~~(retainMask c.idx.toNat) = 0) ∧ (locked u 2 = true → rd u (domBase c.idx.toNat + 8) = BitVec.ofNat 32 (leAt c.params 0 4) ∧ rdB u (domBase c.idx.toNat) 3 = (leAt c.params 4 1 == 1) ∧ (leAt c.params 9 1 = 1 → rd u (domBase c.idx.toNat + 0x14) = BitVec.ofNat 32 (leAt c.params 8 1)))) ∧
    (∃ c : Cmd, ∃ s : State, ∃ n : Nat, ∃ e : Nat, ∃ u : State, (startOf opPwrLevelSet c s = some (e, u)) ∧ leAt c.params 0 1 ≤ 3 ∧ zeroFrom c.params 1 = true ∧ (c.cls = 2 ∧ n = c.idx.toNat ∨ c.cls = 8 ∧ c.idx = 73 ∧ n = 16) ∧ plBusy u n = false) ∧
    (∃ c : Cmd, ∃ s : State, ∃ e : Nat, ∃ u : State, (startOf opPwrStatus c s = some (e, u)) ∧ c.cls = 8) ∧
    (∃ c : Cmd, ∃ s : State, ∃ e : Nat, ∃ u : State, (startOf opPwrStatus c s = some (e, u)) ∧ c.cls = 0) ∧
    (∃ c : Cmd, ∃ s : State, ∃ e : Nat, ∃ u : State, (startOf opPwrKeepAwake c s = some (e, u)) ∧ leAt c.params 0 1 ≤ 4 ∧ zeroFrom c.params 1 = true) :=
  ⟨⟨(cm 8 0 [4, 0, 0, 0]), S0, some2 (by decide +kernel)⟩,
   ⟨(xp (cm 8 0 [4, 0, 0, 0])), (modFw (fun f => { f with verifying := some (1, 3) }) S0), some2 (by decide +kernel)⟩,
   ⟨(cm 8 72 (zeros 12)), S0, _, _, get2 (by decide +kernel), _, rfl, by decide +kernel⟩,
   ⟨(cm 8 73 [2, 0, 0, 0]), S0, 16, some2 (by decide +kernel)⟩,
   ⟨(cm 8 79 []), S0, some2 (by decide +kernel)⟩,
   ⟨{}, S0, some2 (by decide +kernel)⟩,
   ⟨(cm 8 0 [4, 0, 0, 0]), S0, some2 (by decide +kernel)⟩⟩
theorem witness_ChainAndHostLaneCommandsComplete :
    (∃ c : Cmd, ∃ s : State, ∃ e : Nat, ∃ u : State, (startOf opChainEnumerate c s = some (e, u)) ∧ rdB u clkEnR 1 = true ∧ isManager u = true ∧ twoManagers u = false ∧ u.chain.enum = none ∧ u.cmd.inflight.any (fun f => f.stage == .forwarded || f.waitFor != 0) = false) ∧
    (∃ c : Cmd, ∃ s : State, ∃ e : Nat, ∃ u : State, (startOf opChainStatus c s = some (e, u)) ∧ rdB u clkEnR 1 = true) ∧
    (∃ c : Cmd, ∃ s : State, ∃ x : Bool, ∃ z : Bool, ∃ e : Nat, ∃ u : State, (startOf opChainEpoch c s = some (e, u)) ∧ ∃ y : Bool, (y = false) ∧ ∃ f : EpochFrame, (f = { kind := 0, id := u.chain.nextId, time := BitVec.ofNat 64 (leAt c.params 0 8), action := BitVec.ofNat 2 (leAt c.params 8 1), pll := leAt c.params 9 1 == 73, slot := BitVec.ofNat 4 (leAt c.params 10 1), ack := 1, busy := 0, reject := setBit 0 0 z }) ∧ epochBad c = false ∧ leAt c.params 8 1 ≠ 4 ∧ u.time.toNat + 1000000 ≤ leAt c.params 0 8 ∧ rdB u clkEnR 1 = true ∧ epochAnswer u (leAt c.params 8 1) (leAt c.params 9 1) = (x, y, z) ∧ isManager u = true ∧ twoManagers u = false) ∧
    (∃ c : Cmd, ∃ s : State, ∃ e : Nat, ∃ u : State, (startOf opChainEpoch c s = some (e, u)) ∧ ∃ id : Word, (id = BitVec.ofNat 32 (leAt c.params 12 4)) ∧ epochBad c = false ∧ leAt c.params 8 1 = 4 ∧ rdB u clkEnR 1 = true ∧ isManager u = true ∧ twoManagers u = false) ∧
    (∃ c : Cmd, ∃ s : State, ∃ e : Nat, ∃ u : State, (startOf opHlConfigure c s = some (e, u)) ∧ (c.expert = true ∨ (leAt c.params 0 1 ≤ 3 ∧ zeroFrom c.params 1 = true)) ∧ (∀ n ∈ cmdLanes c, laneIsTx n = true ∨ fieldGet (hlNew u n (hlRequest c)) 4 0 ≤ 28) ∧ (∀ n ∈ cmdLanes c, lanePresent u n = true → fieldGet (hlNew u n (hlRequest c)) 12 0 = rdF u (hlCtl n) 12 0)) ∧
    (∃ c : Cmd, ∃ s : State, ∃ e : Nat, ∃ u : State, (startOf opHlStatus c s = some (e, u))) ∧
    (∃ c : Cmd, ∃ s : State, ∃ e : Nat, ∃ u : State, (startOf opHlCtleSet c s = some (e, u)) ∧ zeroFrom c.params 1 = true ∧ laneIsTx c.idx.toNat = false ∧ (laneOf u c.idx.toNat).scan = none ∧ (laneOf u c.idx.toNat).auto = none ∧ leAt c.params 0 1 ≤ 28) ∧
    (∃ c : Cmd, ∃ s : State, ∃ e : Nat, ∃ u : State, (startOf opHlCtleSet c s = some (e, u)) ∧ zeroFrom c.params 1 = true ∧ laneIsTx c.idx.toNat = false ∧ (laneOf u c.idx.toNat).scan = none ∧ (laneOf u c.idx.toNat).auto = none ∧ leAt c.params 0 1 = 0xFF ∧ lanePresent u c.idx.toNat = false) :=
  ⟨⟨(cm 9 0 []), SM, some2 (by decide +kernel)⟩,
   ⟨(cm 9 0 []), SM, some2 (by decide +kernel)⟩,
   ⟨(cm 9 0 (leBytes 8 1000000 ++ [2, 73, 15, 0, 0, 0, 0, 0])), SM, true, true, _, _, get2 (by decide +kernel), _, rfl, _, rfl, by decide +kernel⟩,
   ⟨(cm 9 0 (zeros 8 ++ [4, 0, 0, 0, 1, 0, 0, 0])), SM, _, _, get2 (by decide +kernel), _, rfl, by decide +kernel⟩,
   ⟨(cm 3 63 [3, 0, 0, 0]), S0, some2 (by decide +kernel)⟩,
   ⟨(cm 5 511 []), S0, some20 (by decide +kernel)⟩,
   ⟨(cm 5 511 [28, 0, 0, 0]), S0, some2 (by decide +kernel)⟩,
   ⟨(cm 5 511 [255, 0, 0, 0]), (modFw (fun f => { f with verifying := some (1, 3) }) S0), some2 (by decide +kernel)⟩⟩
theorem witness_SubmissionRows :
    (∃ n : Ring, ∃ v : Word, ∃ s : State, ∃ u : State, (servedAt .pcie (sqTailDb n.toNat) s = (true, u)) ∧ sqEnabled u n.toNat = true ∧ fieldGet v 11 0 < sqSize u n.toNat) ∧
    (∃ s : State, ∃ n : Nat, (nextRing s = some n) ∧ ∃ u : State, (u = modCmd (fun c => { c with inflight := c.inflight ++ [{ etag := freeTag s, cmd := { path := .ring (BitVec.ofNat 6 n) }, stage := .fetching, aux := sqHead s n }], rrRing := n, rrLeft := if s.cmd.rrRing = n ∧ s.cmd.rrLeft ≠ 0 then s.cmd.rrLeft - 1 else rdF s (sqBase n + 8) 13 10 }) s) ∧ s.mode = .running ∧ s.cmd.stopped = false ∧ s.cmd.mboxWaits = false ∧ dmaOk s = true ∧ tagsFree s ≠ 0) ∧
    (∃ s : State, s.mode = .running ∧ s.cmd.stopped = false ∧ s.cmd.mboxWaits = true ∧ tagsFree s ≠ 0) ∧
    (∃ e : BitVec 12, ∃ b : List Byte, ∃ s : State, ∃ f : InFlight, (s.cmd.inflight.find? (fun f => f.etag == e.toNat && f.stage == .fetching) = some f)) ∧
    (∃ e : BitVec 12, ∃ b : List Byte, ∃ s : State, ∃ f : InFlight, (s.cmd.inflight.find? (fun f => f.etag == e.toNat && f.stage == .loading) = some f) ∧ ∃ p : List Byte, (p = (b ++ zeros f.cmd.paramLen.toNat).take f.cmd.paramLen.toNat)) ∧
    (∃ e : BitVec 12, ∃ s : State, ∃ n : Ring, ∃ f : InFlight, (s.cmd.inflight.find? (fun f => f.etag == e.toNat && f.stage == .fetching) = some f) ∧ f.cmd.path = .ring n) ∧
    (∃ e : BitVec 12, ∃ s : State, ∃ f : InFlight, (s.cmd.inflight.find? (fun f => f.etag == e.toNat && f.stage == .loading) = some f)) ∧
    (∃ l : Pair, ∃ s : State, ∃ v : State, (v = count ldtCrcErrR 1 (modCmd (fun c => { c with ldtFills := c.ldtFills.filter (fun x => x != l.toNat), ldtBad := c.ldtBad ++ [l.toNat] }) s)) ∧ ldtAsked s l.toNat = true ∧ ldtEnabled s = true) ∧
    (∃ e : BitVec 12, ∃ s : State, ∃ f : InFlight, (s.cmd.inflight.find? (fun f => f.etag == e.toNat) = some f) ∧ s.mode = .running ∧ f.cmd.timeout ≠ 0 ∧ f.stage ≠ .fetching) :=
  ⟨⟨63, 15, (wr (sqBase 63 + 8) 0x8004 SP), someTrue (by decide +kernel)⟩,
   ⟨(wr (sqTailDb 3) 1 (wr (sqBase 3 + 8) 0x8004 SP)), _, get1 (by decide +kernel), _, rfl, by decide +kernel⟩,
   ⟨(modCmd (fun x => { x with mboxWaits := true }) S0), by decide +kernel⟩,
   ⟨0, [], (fl 0 .fetching), some10 (by decide +kernel)⟩,
   ⟨0, ent0, (modCmd (fun x => { x with inflight := [{ etag := 0, cmd := { path := .ring 0, paramLen := 4, timeout := 1 }, stage := .loading }] }) SP), _, get1 (by decide +kernel), _, rfl⟩,
   ⟨0, (fl 0 .fetching), 0, some1 (by decide +kernel)⟩,
   ⟨0, (modCmd (fun x => { x with inflight := [{ etag := 0, cmd := { path := .ring 0, paramLen := 4, timeout := 1 }, stage := .loading }] }) SP), some10 (by decide +kernel)⟩,
   ⟨0, (wr ldtCtlR 1 (modCmd (fun x => { x with ldtFills := [0] }) S0)), _, rfl, by decide +kernel⟩,
   ⟨0, (fl 0 .ready), some1 (by decide +kernel)⟩⟩
theorem witness_CompletionAndEventRows :
    (∃ n : Ring, ∃ s : State, ∃ c : Completion, (s.cmd.done.find? (fun c => pathCq s c.cmd.path == some n.toNat) = some c) ∧ ∃ a : State, (a = (if c.result.length ≤ 16 then s else hostWriteBy 5 c.cmd.buf.toNat c.result s)) ∧ ∃ b : State, (b = hostWriteBy 5 (rdWide a (cqBase n.toNat) + 32 * cqTail s n.toNat) (statusSlot c.cmd.tag (rdB s (cqBase n.toNat + 0xC) 12) c.status c.result c.cmd.buf) a) ∧ ∃ k : Nat, (k = (cqTail s n.toNat + 1) % cqSize b n.toNat) ∧ ∃ w : State, (w = wrF (cqBase n.toNat + 0xC) 11 0 k (wrB (cqBase n.toNat + 0xC) 12 (if k = 0 then !rdB s (cqBase n.toNat + 0xC) 12 else rdB s (cqBase n.toNat + 0xC) 12) b)) ∧ ∃ t : State, (t = modCmd (fun x => { x with done := x.done.filter (fun d => d.etag != c.etag) }) w) ∧ ∃ v : State, (v = (if c.cmd.notify then raiseMsix (rdF t (cqBase n.toNat + 8) 12 4) (modCmd (fun x => { x with unraised := x.unraised.filter (fun q => q != n.toNat) }) t) else if t.cmd.unraised.contains n.toNat then t else modCmd (fun x => { x with unraised := x.unraised ++ [n.toNat] }) t)) ∧ cqEnabled s n.toNat = true ∧ cqFull s n.toNat = false ∧ dmaOk s = true) ∧
    (∃ n : Ring, ∃ w : Word, ∃ s : State, ∃ u : State, (servedAt .pcie (cqHeadDb n.toNat) s = (true, u)) ∧ cqEnabled u n.toNat = true ∧ fieldGet w 11 0 < cqSize u n.toNat ∧ ringDist (cqSize u n.toNat) (cqHead u n.toNat) (fieldGet w 11 0) ≤ ringDist (cqSize u n.toNat) (cqHead u n.toNat) (cqTail u n.toNat)) ∧
    (∃ n : Ring, ∃ s : State, s.cmd.unraised.contains n.toNat = true ∧ rdF s (cqBase n.toNat + 8) 31 16 ≠ 0) ∧
    (∃ w : Word, ∃ s : State, ∃ u : State, (servedAt .pcie evtHeadDb s = (true, u)) ∧ ∃ v : State, (v = wr evtHeadDb (BitVec.ofNat 32 (fieldGet w 15 0)) { u with evt := { u.evt with outstanding := false } }) ∧ ringEnabled u = true ∧ fieldGet w 15 0 < evtSize u ∧ ringDist (evtSize u) (evtHead u) (fieldGet w 15 0) ≤ ringDist (evtSize u) (evtHead u) (evtTail u)) ∧
    (∃ s : State, ∃ u : State, ∃ r : EvRec, ∃ q : List EvRec, s.evt.staging = r :: q ∧ ringEnabled s = true ∧ dmaOk s = true ∧ maskBit s evtClassLoR (r.code.toNat / 256) = false) ∧
    (∃ s : State, ∃ u : State, ∃ r : EvRec, ∃ q : List EvRec, s.evt.staging = r :: q ∧ ringEnabled s = true ∧ dmaOk s = true ∧ maskBit s evtClassLoR (r.code.toNat / 256) = true ∧ maskVerdict s r = .wait) ∧
    (∃ s : State, ∃ r : EvRec, ∃ q : List EvRec, ∃ u : State, (u = (if maskVerdict s r = .withhold then maskUse r s else if evtFull s then ringDrop (maskUse r s) else evtWrite r (maskUse r s))) ∧ s.evt.staging = r :: q ∧ ringEnabled s = true ∧ dmaOk s = true ∧ maskBit s evtClassLoR (r.code.toNat / 256) = true ∧ maskVerdict s r ≠ .wait) ∧
    (∃ s : State, ∃ r : EvRec, ∃ q : List EvRec, s.evt.logBuf = r :: q ∧ domState s 79 = 0 ∧ rdB s clkEnR 4 = true ∧ mramHold s = false ∧ supHalted s = false) ∧
    (∃ l : Pair, ∃ s : State, ∃ u : State, (u = ldtUse l.toNat s) ∧ ∃ b : List Byte, (ldtFind u l.toNat = some b) ∧ ∃ v : State, (v = hostWriteBy 7 (dmaAddrOf b + 32) ((linkPairs u l.toNat).flatMap (recordEntry u)) u) ∧ s.mode = .running ∧ isLink s l.toNat = true ∧ dmaAddrOf b ≠ 0 ∧ dmaPeriodOf b ≠ 0 ∧ dmaOk u = true) :=
  ⟨⟨0, (wr (cqBase 0 + 8) 0x8004 (wr (cqBase 0 + 4) 0 (dn SP))), _, get1 (by decide +kernel), _, rfl, _, rfl, _, rfl, _, rfl, _, rfl, _, rfl, by decide +kernel⟩,
   ⟨0, 0, (wr (cqBase 0 + 8) 0x8004 (dn SP)), someTrue (by decide +kernel)⟩,
   ⟨5, (wr (cqBase 5 + 8) 0x10000 (modCmd (fun x => { x with unraised := [5] }) S0)), by decide +kernel⟩,
   ⟨1, (wr evtRingStatusR 0x10001 (wr evtRingCfgR 4 SP)), _, getT (by decide +kernel), _, rfl, by decide +kernel⟩,
   ⟨{ wr (evtRingCfgR) 4 SP with evt := { staging := [rec1] } }, (wr evtRingStatusR 0x10001 (wr evtRingCfgR 4 SP)), rec1, [], by decide +kernel⟩,
   ⟨{ wr ldtCtlR 1 (wr evtClassLoR 0xFFFFFFFF (wr evtRingCfgR 4 (lk .up SP))) with evt := { staging := [{ rec1 with code := 0x0101, unit := 0x4000 }] } }, S0, { rec1 with code := 0x0101, unit := 0x4000 }, [], by decide +kernel⟩,
   ⟨{ wr evtClassLoR 0xFFFFFFFF (wr evtRingCfgR 4 SP) with evt := { staging := [rec1] } }, rec1, [], _, rfl, by decide +kernel⟩,
   ⟨{ S0 with evt := { logBuf := [rec1] } }, rec1, [], by decide +kernel⟩,
   ⟨0, (ldtStore 0 ent2 (wr ldtCtlR 1 (lk .up SP))), _, rfl, _, get1 (by decide +kernel), _, rfl, by decide +kernel⟩⟩
theorem witness_RingConfigAndMailboxRows :
    (∃ v : View, ∃ n : Ring, ∃ w : Word, ∃ s : State, ∃ u : State, (servedAt v (sqBase n.toNat + 8) s = (true, u)) ∧ sqEnabled u n.toNat = false ∧ log2Ok (w &&& 0xBFFF) = true ∧ bitGet w 15 = true ∧ cqEnabled u (fieldGet (w &&& 0xBFFF) 9 4) = true) ∧
    (∃ v : View, ∃ n : Ring, ∃ w : Word, ∃ s : State, ∃ u : State, (servedAt v (sqBase n.toNat + 8) s = (true, u)) ∧ sqEnabled u n.toNat = false ∧ log2Ok (w &&& 0xBFFF) = true ∧ bitGet w 15 = false ∧ w &&& 0xBFFF ≠ rd u (sqBase n.toNat + 8)) ∧
    (∃ v : View, ∃ n : Ring, ∃ w : Word, ∃ s : State, ∃ u : State, (servedAt v (sqBase n.toNat + 8) s = (true, u)) ∧ sqEnabled u n.toNat = true ∧ ((w &&& 0xBFFF) ^^^ rd u (sqBase n.toNat + 8)) &&& 0x7FFF = 0 ∧ bitGet w 15 = false) ∧
    (∃ v : View, ∃ n : Ring, ∃ w : Word, ∃ s : State, ∃ u : State, (servedAt v (cqBase n.toNat + 8) s = (true, u)) ∧ cqEnabled u n.toNat = false ∧ log2Ok (w &&& 0xFFFF9FFF) = true ∧ bitGet w 15 = true) ∧
    (∃ v : View, ∃ n : Ring, ∃ w : Word, ∃ s : State, ∃ u : State, (servedAt v (cqBase n.toNat + 8) s = (true, u)) ∧ cqEnabled u n.toNat = false ∧ log2Ok (w &&& 0xFFFF9FFF) = true ∧ bitGet w 15 = false ∧ w &&& 0xFFFF9FFF ≠ rd u (cqBase n.toNat + 8)) ∧
    (∃ v : View, ∃ n : Ring, ∃ w : Word, ∃ s : State, ∃ u : State, (servedAt v (cqBase n.toNat + 8) s = (true, u)) ∧ cqEnabled u n.toNat = true ∧ ((w &&& 0xFFFF9FFF) ^^^ rd u (cqBase n.toNat + 8)) &&& 0xFFFF7FFF = 0 ∧ bitGet w 15 = false ∧ cqBusy u n.toNat = false) ∧
    (∃ v : View, ∃ w : Word, ∃ s : State, ∃ u : State, (servedAt v ldtCtlR s = (true, u))) ∧
    (∃ l : Pair, ∃ data : Option (List Byte), ∃ s : State, ∃ u : State, (u = modCmd (fun c => { c with ldtFills := c.ldtFills.filter (fun x => x != l.toNat) }) s) ∧ ∃ v : State, (v = (if data.isSome then dmaRead 5 256 u else u)) ∧ ldtAsked s l.toNat = true ∧ ldtEnabled s = true) ∧
    (∃ v : View, ∃ k : Fin 3, ∃ w : Word, ∃ s : State, ∃ u : State, (servedAt v (evtBaseLoR + 4 * k.val) s = (true, u)) ∧ ringEnabled u = false ∧ k ≠ 2) ∧
    (∃ v : View, ∃ w : Word, ∃ s : State, ∃ u : State, (servedAt v evtRingCfgR s = (true, u)) ∧ ringEnabled u = false ∧ fieldGet w 4 0 = 0) ∧
    (∃ v : View, ∃ w : Word, ∃ s : State, ∃ u : State, (servedAt v evtRingCfgR s = (true, u)) ∧ ringEnabled u = false ∧ 4 ≤ fieldGet w 4 0 ∧ fieldGet w 4 0 ≤ 16) ∧
    (∃ v : View, ∃ w : Word, ∃ s : State, ∃ u : State, (servedAt v evtRingCfgR s = (true, u)) ∧ ringEnabled u = true ∧ fieldGet w 4 0 = 0 ∧ fieldGet w 16 8 = rdF u evtRingCfgR 16 8) ∧
    (∃ ser : Bool, ∃ w : Word, ∃ s : State, ∃ a : State, (a = (if bitGet w 3 then wrB mailboxCtlR 3 false (wrF mailboxCtlR 24 16 (fieldGet w 24 16) s) else wrF mailboxCtlR 24 16 (fieldGet w 24 16) s)) ∧ s.mode = .running ∧ bitGet w 0 = false) ∧
    (∃ ser : Bool, ∃ w : Word, ∃ s : State, ∃ a : State, (a = (if bitGet w 3 then wrB mailboxCtlR 3 false (wrF mailboxCtlR 24 16 (fieldGet w 24 16) s) else wrF mailboxCtlR 24 16 (fieldGet w 24 16) s)) ∧ s.mode = .running ∧ bitGet w 0 = true ∧ rdB a mailboxCtlR 1 = true) ∧
    (∃ ser : Bool, ∃ w : Word, ∃ s : State, ∃ a : State, (a = (if bitGet w 3 then wrB mailboxCtlR 3 false (wrF mailboxCtlR 24 16 (fieldGet w 24 16) s) else wrF mailboxCtlR 24 16 (fieldGet w 24 16) s)) ∧ ∃ u : State, (u = modCmd (fun c => { c with mboxMute := false }) (wrB mailboxCtlR 1 true (wrB mailboxCtlR 2 false (wrB mailboxCtlR 4 ser a)))) ∧ ∃ b : State, (b = (if ser then beginWake 73 (beginWake 74 u) else beginWake 73 (beginWake 74 (beginWake 76 u)))) ∧ s.mode = .running ∧ bitGet w 0 = true ∧ rdB a mailboxCtlR 1 = false) ∧
    (∃ o : BitVec 10, ∃ w : Word, ∃ s : State, s.mode = .running ∧ rdB s mailboxCtlR 1 = false) ∧
    (∃ o : BitVec 10, ∃ w : Word, ∃ s : State, s.mode = .running ∧ rdB s mailboxCtlR 1 = true) ∧
    (∃ w : Word, ∃ s : State, s.mode = .running) ∧
    (∃ s : State, s.mode = .running) :=
  ⟨⟨.pcie, 0, 0x800C, (wr (cqBase 0 + 8) 0x8004 SP), someTrue (by decide +kernel)⟩,
   ⟨.pcie, 0, 4, (wr (cqBase 0 + 8) 0x8004 SP), someTrue (by decide +kernel)⟩,
   ⟨.pcie, 63, 4, (wr (sqBase 63 + 8) 0x8004 SP), someTrue (by decide +kernel)⟩,
   ⟨.pcie, 0, 0x800C, SP, someTrue (by decide +kernel)⟩,
   ⟨.pcie, 0, 8, SP, someTrue (by decide +kernel)⟩,
   ⟨.pcie, 0, 4, (wr (cqBase 0 + 8) 0x8004 SP), someTrue (by decide +kernel)⟩,
   ⟨.pcie, 0x800C, (wr (cqBase 0 + 8) 0x8004 SP), someTrue0 (by decide +kernel)⟩,
   ⟨0, none, (wr ldtCtlR 1 (modCmd (fun x => { x with ldtFills := [0] }) S0)), _, rfl, _, rfl, by decide +kernel⟩,
   ⟨.pcie, 0, 0x800C, (wr (cqBase 0 + 8) 0x8004 SP), someTrue (by decide +kernel)⟩,
   ⟨.pcie, 0, (wr (cqBase 0 + 8) 0x8004 SP), someTrue (by decide +kernel)⟩,
   ⟨.pcie, 0x800C, (wr (cqBase 0 + 8) 0x8004 SP), someTrue (by decide +kernel)⟩,
   ⟨.pcie, 0, (wr evtRingStatusR 0x10001 (wr evtRingCfgR 4 SP)), someTrue (by decide +kernel)⟩,
   ⟨false, 0, (wr mailboxCtlR 2 S0), _, rfl, by decide +kernel⟩,
   ⟨false, 1, (wr mailboxCtlR 2 S0), _, rfl, by decide +kernel⟩,
   ⟨false, 1, S0, _, rfl, _, rfl, _, rfl, by decide +kernel⟩,
   ⟨1023, 1, S0, by decide +kernel⟩,
   ⟨1023, 1, (wr mailboxCtlR 2 S0), by decide +kernel⟩,
   ⟨1, (wr mailboxCtlR 2 S0), by decide +kernel⟩,
   ⟨(wr mailboxCtlR 2 S0), by decide +kernel⟩⟩
theorem witness_UnitControlWrites :
    (∃ v : View, ∃ p : Port, ∃ i : RegInfo, ∃ s : State, writes v (portBase p.toNat) i s = true) ∧
    (∃ v : View, ∃ p : Port, ∃ b : Bool, ∃ i : RegInfo, ∃ s : State, ∃ u : State, (u = served v (portBase p.toNat) true s) ∧ writes v (portBase p.toNat) i s = true ∧ (rdB u (portBase p.toNat) 0 = b ∨ ∀ l ∈ portLinks u p.toNat, (linkOf u l).state = .down)) ∧
    (∃ v : View, ∃ p : Port, ∃ b : Bool, ∃ i : RegInfo, ∃ s : State, ∃ l : Nat, ∃ u : State, (u = served v (portBase p.toNat) true s) ∧ writes v (portBase p.toNat) i s = true ∧ rdB u (portBase p.toNat) 0 = !b ∧ l ∈ portLinks u p.toNat ∧ (linkOf u l).state ≠ .down) ∧
    (∃ v : View, ∃ l : Pair, ∃ i : RegInfo, ∃ s : State, writes v (pairBase l.toNat) i s = true) ∧
    (∃ v : View, ∃ l : Pair, ∃ b : Bool, ∃ i : RegInfo, ∃ s : State, writes v (pairBase l.toNat) i s = true) ∧
    (∃ v : View, ∃ l : Pair, ∃ b : Bool, ∃ i : RegInfo, ∃ s : State, ∃ u : State, (u = served v (pairBase l.toNat) true s) ∧ ∃ w : State, (w = lineMux l.toNat (wrB (pairBase l.toNat) 2 b u)) ∧ writes v (pairBase l.toNat) i s = true) ∧
    (∃ v : View, ∃ t : Tile, ∃ i : RegInfo, ∃ s : State, writes v (tileBase t.toNat) i s = true) ∧
    (∃ v : View, ∃ i : RegInfo, ∃ s : State, ∃ u : State, (u = served v chainCtlR true s) ∧ writes v chainCtlR i s = true) ∧
    (∃ v : View, ∃ i : RegInfo, ∃ s : State, ∃ u : State, (u = served v devResetCtlR true s) ∧ writes v devResetCtlR i s = true ∧ supHalted u = false) ∧
    (∃ v : View, ∃ i : RegInfo, ∃ s : State, ∃ u : State, (u = served v devResetCtlR true s) ∧ writes v devResetCtlR i s = true ∧ supHalted u = true) ∧
    (∃ v : View, ∃ w : Word, ∃ i : RegInfo, ∃ s : State, writes v devResetCtlR i s = true ∧ w ≠ 0x15120) :=
  ⟨⟨.supervisor, 63, (regInfo ((portBase (63 : Port).toNat))).getD {}, (lk .up S0), by decide +kernel⟩,
   ⟨.supervisor, 63, true, (regInfo ((portBase (63 : Port).toNat))).getD {}, (lk .up S0), _, rfl, by decide +kernel⟩,
   ⟨.supervisor, 0, true, (regInfo ((portBase (0 : Port).toNat))).getD {}, (lk .up S0), 0, _, rfl, by decide +kernel⟩,
   ⟨.supervisor, 511, (regInfo ((pairBase (511 : Pair).toNat))).getD {}, (lk .up S0), by decide +kernel⟩,
   ⟨.supervisor, 511, true, (regInfo ((pairBase (511 : Pair).toNat))).getD {}, (lk .up S0), by decide +kernel⟩,
   ⟨.supervisor, 511, true, (regInfo ((pairBase (511 : Pair).toNat))).getD {}, (lk .up S0), _, rfl, _, rfl, by decide +kernel⟩,
   ⟨.supervisor, 7, (regInfo ((tileBase (7 : Tile).toNat))).getD {}, (lk .up S0), by decide +kernel⟩,
   ⟨.supervisor, (regInfo (chainCtlR)).getD {}, (lk .up S0), _, rfl, by decide +kernel⟩,
   ⟨.supervisor, (regInfo (devResetCtlR)).getD {}, (lk .up S0), _, rfl, by decide +kernel⟩,
   ⟨.supervisor, (regInfo (devResetCtlR)).getD {}, (wrB fwStateR 4 true SP), _, rfl, by decide +kernel⟩,
   ⟨.supervisor, 0x5120, (regInfo (devResetCtlR)).getD {}, (lk .up S0), by decide +kernel⟩⟩
theorem witness_HubAccesses :
    (∃ v : View, ∃ w : Word, ∃ i : RegInfo, ∃ s : State, ∃ u : State, (u = served v lockCtlR true s) ∧ writes v lockCtlR i s = true) ∧
    (∃ v : View, ∃ i : RegInfo, ∃ s : State, ∃ u : State, (u = wrView v snapCtlR (rdView s v snapCtlR &&& 2) (served v snapCtlR true s)) ∧ writes v snapCtlR i s = true) ∧
    (∃ v : View, ∃ b : Bool, ∃ i : RegInfo, ∃ s : State, writes v snapCtlR i s = true) ∧
    (∃ s : State, ∃ u : State, (u = wr64 snapTimeLoR s.snapAt (count snapSeqR 1 (wrB snapCtlR 2 false { s with snapDone := true }))) ∧ s.mode = .running ∧ rdB s snapCtlR 2 = true) ∧
    (∃ v : View, ∃ a : BitVec 29, ∃ w : Word, ∃ i : RegInfo, ∃ s : State, ∃ u : State, (u = served v a.toNat true s) ∧ ∃ x : Word, ∃ t : State, ((x, t) = keepReserved v a.toNat (rd u a.toNat) w u) ∧ writes v a.toNat i s = true ∧ a.toNat ≠ refSelR) ∧
    (∃ v : View, ∃ w : Word, ∃ i : RegInfo, ∃ s : State, ∃ x : BitVec 64, ∃ u : State, ((x, u) = draw 15 s) ∧ writes v refSelR i u = true) ∧
    (∃ v : View, ∃ a : BitVec 29, ∃ w : Word, ∃ s : State, reaches s v a.toNat = true ∧ a.toNat % 4 = 0 ∧ a.toNat ≠ refSelR ∧ verdict s v a.toNat true = .serve ∧ regInfo a.toNat = none) ∧
    (∃ v : View, ∃ a : BitVec 29, ∃ w : Word, ∃ s : State, reaches s v a.toNat = true) ∧
    (∃ v : View, ∃ w : Word, ∃ i : RegInfo, ∃ s : State, ∃ u : State, (u = served v spIrqEnR true s) ∧ writes v spIrqEnR i s = true) ∧
    (∃ v : View, ∃ a : BitVec 29, ∃ s : State, ∃ x : Word, ∃ u : State, ((x, u) = readValue v a.toNat (windowWords v a.toNat false s)) ∧ reads v a.toNat s = true) ∧
    (∃ v : View, ∃ a : BitVec 29, ∃ s : State, ∃ i : RegInfo, (regInfo a.toNat = some i) ∧ reads v a.toNat s = true ∧ a.toNat ≠ bcfgDataR ∧ a.toNat ≠ devTimeLoR ∧ a.toNat ≠ devTimeHiR ∧ freeRead s a.toNat = false ∧ inTakes a.toNat = false ∧ inRushes a.toNat = false ∧ i.rc ≠ 0) ∧
    (∃ v : View, ∃ a : BitVec 29, ∃ s : State, reaches s v a.toNat = true) ∧
    (∃ v : View, ∃ s : State, reads v devTimeLoR s = true) :=
  ⟨⟨.supervisor, 0, (regInfo (lockCtlR)).getD {}, SP, _, rfl, by decide +kernel⟩,
   ⟨.pcie, (regInfo (snapCtlR)).getD {}, SP, _, rfl, by decide +kernel⟩,
   ⟨.pcie, false, (regInfo (snapCtlR)).getD {}, SP, by decide +kernel⟩,
   ⟨(wr snapCtlR 4 S0), _, rfl, by decide +kernel⟩,
   ⟨.pcie, 0x60004, 0, (regInfo ((0x60004 : BitVec 29).toNat)).getD {}, SP, _, rfl, _, _, rfl, by decide +kernel⟩,
   ⟨.pcie, 0, (regInfo (refSelR)).getD {}, SP, _, _, rfl, by decide +kernel⟩,
   ⟨.supervisor, 0x880000, 1, S0, by decide +kernel⟩,
   ⟨.pcie, 0x60004, 0, SP, by decide +kernel⟩,
   ⟨.pcie, 0, (regInfo (spIrqEnR)).getD {}, SP, _, rfl, by decide +kernel⟩,
   ⟨.pcie, 0x60004, SP, _, _, rfl, by decide +kernel⟩,
   ⟨.pcie, 0x30044, SP, some1 (by decide +kernel)⟩,
   ⟨.pcie, 0x60004, SP, by decide +kernel⟩,
   ⟨.pcie, SP, by decide +kernel⟩⟩
theorem witness_SynthesizerWrites :
    (∃ v : View, ∃ x : Pll, ∃ k : BitVec 2, ∃ i : RegInfo, ∃ s : State, x.val < 72 ∧ writes v (synCtl x.val) i s = true) ∧
    (∃ v : View, ∃ x : Pll, ∃ bw : BitVec 2, ∃ i : RegInfo, ∃ s : State, x.val < 72 ∧ writes v (synCtl x.val) i s = true) ∧
    (∃ v : View, ∃ x : Pll, ∃ m1 : BitVec 4, ∃ i : RegInfo, ∃ s : State, x.val < 72 ∧ writes v (synCtl x.val) i s = true) ∧
    (∃ v : View, ∃ x : Pll, ∃ k : BitVec 2, ∃ frac : Bool, ∃ w : Word, ∃ i : RegInfo, ∃ s : State, ∃ a : Nat, (a = synSlotR x.val k.toNat + (if frac then 4 else 0)) ∧ x.val < 72 ∧ writes v a i s = true) ∧
    (∃ v : View, ∃ x : Pll, ∃ k : BitVec 2, ∃ bw : BitVec 2, ∃ m1 : BitVec 4, ∃ frac : Bool, ∃ w : Word, ∃ s : State, 72 ≤ x.val) ∧
    (∃ v : View, ∃ w : Word, ∃ step : BitVec 16, ∃ diff : Word, ∃ i : RegInfo, ∃ s : State, ∃ u : State, (u = wrF refSelR 7 6 (fieldGet w 7 6) (wrF refSelR 1 1 (fieldGet w 1 1) (served v refSelR true s))) ∧ writes v refSelR i s = true ∧ rdF (served v refSelR true s) refSelR 0 0 ≠ fieldGet w 0 0 ∧ refOk u (fieldGet w 0 0) = true) ∧
    (∃ v : View, ∃ w : Word, ∃ step : BitVec 16, ∃ diff : Word, ∃ i : RegInfo, ∃ s : State, ∃ u : State, (u = wrF refSelR 7 6 (fieldGet w 7 6) (wrF refSelR 1 1 (fieldGet w 1 1) (served v refSelR true s))) ∧ writes v refSelR i s = true ∧ (rdF (served v refSelR true s) refSelR 0 0 = fieldGet w 0 0 ∨ refOk u (fieldGet w 0 0) = false)) ∧
    (∃ v : View, ∃ osb : Bool, ∃ k : BitVec 4, ∃ i : RegInfo, ∃ s : State, writes v (rackCtl (72 + b2n osb)) i s = true) ∧
    (∃ v : View, ∃ osb : Bool, ∃ frac : Bool, ∃ k : BitVec 4, ∃ w : Word, ∃ i : RegInfo, ∃ s : State, ∃ a : Nat, (a = rackSlotR (72 + b2n osb) k.toNat + (if frac then 4 else 0)) ∧ ∃ u : State, (u = served v a true s) ∧ ∃ x : Word, ∃ t : State, ((x, t) = keepReserved v a (rd u a) w u) ∧ writes v a i s = true) ∧
    (∃ v : View, ∃ osb : Bool, ∃ b : Bool, ∃ i : RegInfo, ∃ s : State, writes v (rackCtl (72 + b2n osb)) i s = true) :=
  ⟨⟨.supervisor, 71, 3, (regInfo ((synCtl (71 : Pll).val))).getD {}, (wr clkMonStatusR 0x1F S0), by decide +kernel⟩,
   ⟨.supervisor, 71, 3, (regInfo ((synCtl (71 : Pll).val))).getD {}, (wr clkMonStatusR 0x1F S0), by decide +kernel⟩,
   ⟨.supervisor, 71, 15, (regInfo ((synCtl (71 : Pll).val))).getD {}, (wr clkMonStatusR 0x1F S0), by decide +kernel⟩,
   ⟨.supervisor, 71, 3, true, 1, (regInfo (synSlotR 71 3 + 4)).getD {}, (wr clkMonStatusR 0x1F S0), _, rfl, by decide +kernel⟩,
   ⟨.supervisor, 72, 0, 0, 0, false, 0, S0, by decide +kernel⟩,
   ⟨.supervisor, 1, 0, 1, (regInfo (refSelR)).getD {}, (wr clkMonStatusR 0x1F S0), _, rfl, by decide +kernel⟩,
   ⟨.supervisor, 1, 0, 1, (regInfo (refSelR)).getD {}, (wr clkMonStatusR 0x1C S0), _, rfl, by decide +kernel⟩,
   ⟨.supervisor, true, 15, (regInfo ((rackCtl (72 + b2n (true : Bool))))).getD {}, (wr clkMonStatusR 0x1F S0), by decide +kernel⟩,
   ⟨.supervisor, true, true, 15, 1, (regInfo (rackSlotR 73 15 + 4)).getD {}, (wr clkMonStatusR 0x1F S0), _, rfl, _, rfl, _, _, rfl, by decide +kernel⟩,
   ⟨.supervisor, true, true, (regInfo ((rackCtl (72 + b2n (true : Bool))))).getD {}, (wr clkMonStatusR 0x1F S0), by decide +kernel⟩⟩
theorem witness_OutputAndPowerWrites :
    (∃ v : View, ∃ n : BitVec 4, ∃ x : BitVec 12, ∃ i : RegInfo, ∃ s : State, ∃ u : State, (u = served v (outBase n.toNat) true s) ∧ writes v (outBase n.toNat) i s = true) ∧
    (∃ v : View, ∃ n : BitVec 4, ∃ x : BitVec 12, ∃ i : RegInfo, ∃ s : State, ∃ u : State, (u = served v (outBase n.toNat + 4) true s) ∧ writes v (outBase n.toNat + 4) i s = true) ∧
    (∃ v : View, ∃ n : BitVec 4, ∃ fmt : BitVec 2, ∃ src : Bool, ∃ i : RegInfo, ∃ s : State, ∃ u : State, (u = served v (outBase n.toNat) true s) ∧ writes v (outBase n.toNat) i s = true) ∧
    (∃ v : View, ∃ n : BitVec 4, ∃ i : RegInfo, ∃ s : State, writes v (outBase n.toNat + 0xC) i s = true) ∧
    (∃ v : View, ∃ n : BitVec 4, ∃ w : Word, ∃ i : RegInfo, ∃ s : State, ∃ u : State, (u = served v (outBase n.toNat + 8) true s) ∧ ∃ x : Word, ∃ t : State, ((x, t) = keepReserved v (outBase n.toNat + 8) (rd u (outBase n.toNat + 8)) w u) ∧ writes v (outBase n.toNat + 8) i s = true) ∧
    (∃ n : BitVec 4, ∃ s : State, s.mode = .running ∧ outState s n.toNat = 1) ∧
    (∃ v : View, ∃ n : Lane, ∃ w : Word, ∃ i : RegInfo, ∃ s : State, ∃ u : State, (u = served v (hlCtl n.toNat) true s) ∧ ∃ x : Word, ∃ t : State, ((x, t) = keepReserved v (hlCtl n.toNat) (rd u (hlCtl n.toNat)) w u) ∧ writes v (hlCtl n.toNat) i s = true) ∧
    (∃ v : View, ∃ d : Domain, ∃ w : Word, ∃ i : RegInfo, ∃ s : State, ∃ u : State, (u = served v (domBase d.val) true s) ∧ writes v (domBase d.val) i s = true ∧ fieldGet w 2 0 ≤ 4 ∧ accepts d.val (fieldGet w 2 0) = true) ∧
    (∃ v : View, ∃ d : Domain, ∃ w : Word, ∃ i : RegInfo, ∃ s : State, ∃ u : State, (u = served v (domBase d.val) true s) ∧ writes v (domBase d.val) i s = true ∧ (4 < fieldGet w 2 0 ∨ accepts d.val (fieldGet w 2 0) = false)) ∧
    (∃ v : View, ∃ w : Word, ∃ i : RegInfo, ∃ s : State, writes v pwrPlOperR i s = true) ∧
    (∃ v : View, ∃ w : Word, ∃ i : RegInfo, ∃ s : State, writes v pwrPlGraderR i s = true) :=
  ⟨⟨.supervisor, 15, 4095, (regInfo ((outBase (15 : BitVec 4).toNat))).getD {}, S0, _, rfl, by decide +kernel⟩,
   ⟨.supervisor, 15, 4095, (regInfo ((outBase (15 : BitVec 4).toNat + 4))).getD {}, S0, _, rfl, by decide +kernel⟩,
   ⟨.supervisor, 15, 3, true, (regInfo ((outBase (15 : BitVec 4).toNat))).getD {}, S0, _, rfl, by decide +kernel⟩,
   ⟨.supervisor, 15, (regInfo ((outBase (15 : BitVec 4).toNat + 0xC))).getD {}, S0, by decide +kernel⟩,
   ⟨.supervisor, 15, 4, (regInfo ((outBase (15 : BitVec 4).toNat + 8))).getD {}, S0, _, rfl, _, _, rfl, by decide +kernel⟩,
   ⟨3, (wr (outBase 3 + 0x10) 1 S0), by decide +kernel⟩,
   ⟨.supervisor, 511, 4, (regInfo ((hlCtl (511 : Lane).toNat))).getD {}, S0, _, rfl, _, _, rfl, by decide +kernel⟩,
   ⟨.supervisor, 0, 4, (regInfo ((domBase (0 : Domain).val))).getD {}, S0, _, rfl, by decide +kernel⟩,
   ⟨.supervisor, 0, 0xFFFFFFFF, (regInfo ((domBase (0 : Domain).val))).getD {}, S0, _, rfl, by decide +kernel⟩,
   ⟨.supervisor, 4, (regInfo (pwrPlOperR)).getD {}, S0, by decide +kernel⟩,
   ⟨.supervisor, 4, (regInfo (pwrPlGraderR)).getD {}, S0, by decide +kernel⟩⟩
theorem witness_PerformanceRows :
    (∃ v : View, ∃ b : Fin 9, ∃ i : RegInfo, ∃ s : State, writes v (perfBase b.val) i s = true) ∧
    (∃ v : View, ∃ b : Fin 9, ∃ i : RegInfo, ∃ s : State, writes v (perfBase b.val) i s = true) ∧
    (∃ v : View, ∃ b : Fin 9, ∃ en : Bool, ∃ freeze : Bool, ∃ i : RegInfo, ∃ s : State, writes v (perfBase b.val) i s = true) ∧
    (∃ v : View, ∃ b : Fin 9, ∃ n : BitVec 3, ∃ w : Word, ∃ i : RegInfo, ∃ s : State, ∃ u : State, (u = served v (perfSel b.val n.toNat) true s) ∧ writes v (perfSel b.val n.toNat) i s = true ∧ bitGet w 11 = false) ∧
    (∃ b : Fin 9, ∃ s : State, ∃ k : Nat, ∃ x : PerfWin, (s.perfWins.find? (fun e => e.1 == b.val) = some (k, x)) ∧ s.mode = .running ∧ x.opened = false) ∧
    (∃ b : Fin 9, ∃ s : State, ∃ k : Nat, ∃ x : PerfWin, (s.perfWins.find? (fun e => e.1 == b.val) = some (k, x)) ∧ s.mode = .running ∧ x.opened = true) ∧
    (∃ b : Fin 9, ∃ s : State, s.mode = .running ∧ perfCounts s b.val = true) ∧
    (∃ b : Fin 9, ∃ n : Fin 9, ∃ s : State, s.mode = .running ∧ perfCounts s b.val = true ∧ n ≠ 0) :=
  ⟨⟨.pcie, 8, (regInfo ((perfBase (8 : Fin 9).val))).getD {}, (wr (tileClkEnR 7) 1 SP), by decide +kernel⟩,
   ⟨.pcie, 8, (regInfo ((perfBase (8 : Fin 9).val))).getD {}, (wr (tileClkEnR 7) 1 SP), by decide +kernel⟩,
   ⟨.pcie, 8, false, false, (regInfo ((perfBase (8 : Fin 9).val))).getD {}, (wr (tileClkEnR 7) 1 SP), by decide +kernel⟩,
   ⟨.pcie, 8, 7, 0, (regInfo ((perfSel (8 : Fin 9).val (7 : BitVec 3).toNat))).getD {}, (wr (tileClkEnR 7) 1 SP), _, rfl, by decide +kernel⟩,
   ⟨8, { S0 with perfWins := [(8, {})] }, some2 (by decide +kernel)⟩,
   ⟨8, { S0 with perfWins := [(8, { opened := true })] }, some2 (by decide +kernel)⟩,
   ⟨0, (wr (perfBase 0) 1 S0), by decide +kernel⟩,
   ⟨0, 8, (wr (perfBase 0) 1 S0), by decide +kernel⟩⟩
theorem witness_SerialRows :
    (∃ i : BitVec 6, ∃ n : BitVec 11, ∃ late : Option (BitVec 11), ∃ s : State, s.mode = .running) ∧
    (∃ i : BitVec 6, ∃ s : State, ∃ t : State, ∃ a : Nat, ∃ w : Word, ∃ e : Bool, s.mode = .running ∧ windowItem s i.toNat 0 = .bar a ∧ heldFrame s false i.toNat 1 = none ∧ s.sp.queue = [] ∧ readWord .serial a true (putHold none s) = (some (w, e), t)) ∧
    (∃ i : BitVec 6, ∃ ws : List Word, ∃ s : State, s.mode = .running) ∧
    (∃ i : BitVec 6, ∃ s : State, ∃ a : Nat, ∃ w : Word, s.mode = .running ∧ windowItem s i.toNat 0 = .bar a ∧ s.sp.queue.length < 1024) ∧
    (∃ i : BitVec 6, ∃ s : State, ∃ a : Nat, ∃ w : Word, s.mode = .running ∧ windowItem s i.toNat 0 = .bar a ∧ 1024 ≤ s.sp.queue.length) ∧
    (∃ a : Word, ∃ w : Word, ∃ s : State, s.mode = .running ∧ 2 ≤ rdF s spFrameConfigR 2 1 ∧ s.sp.queue.length < 1024 ∧ spItem (a.toNat / 4 * 4) = .bar (a.toNat / 4 * 4)) ∧
    (∃ a : Word, ∃ ws : List Word, ∃ n : BitVec 11, ∃ late : Option (BitVec 11), ∃ s : State, s.mode = .running) ∧
    (∃ a : Word, ∃ n : BitVec 11, ∃ late : Option (BitVec 11), ∃ s : State, s.mode = .running) ∧
    (∃ r : BitVec 5, ∃ a : Word, ∃ ws : Option (List Word), ∃ n : BitVec 11, ∃ late : Option (BitVec 11), ∃ s : State, r ≠ 0) ∧
    (∃ s : State, s.mode = .running) ∧
    (∃ s : State, ∃ n : BitVec 11, ∃ h : SpHold, (s.sp.hold = some h) ∧ s.mode = .running) ∧
    (∃ s : State, ∃ a : Nat, ∃ w : Word, ∃ h : SpHold, (s.sp.hold = some h) ∧ s.mode = .running ∧ h.addressed = false ∧ h.todo = [] ∧ 1 ≤ h.n ∧ h.words = [w] ∧ windowItem s h.start 0 = .bar a) ∧
    (∃ s : State, ∃ n : BitVec 11, ∃ h : SpHold, (s.sp.hold = some h) ∧ ∃ b : List Byte, ∃ u : State, ((b, u) = freeWords n.toNat s) ∧ s.mode = .running ∧ h.todo ≠ [] ∧ n.toNat ≤ h.n) ∧
    (∃ s : State, ∃ n : BitVec 11, s.sp.hold = none) ∧
    (∃ i : BitVec 6, ∃ s : State, ∃ a : Nat, ∃ w : Word, s.mode = .running ∧ windowItem s i.toNat 0 = .bar a ∧ s.sp.queue.length < 1024) ∧
    (∃ i : BitVec 6, ∃ z : BitVec 5, ∃ a : Word, ∃ n : BitVec 11, ∃ late : Option (BitVec 11), ∃ w : Option (List Word), ∃ ws : List Word, ∃ s : State, s.mode ≠ .running) ∧
    (∃ s : State, ∃ t : State, ∃ a : Nat, ∃ q : List Nat, ∃ w : Word, ∃ e : Bool, ∃ h : SpHold, (s.sp.hold = some h) ∧ s.mode = .running ∧ h.todo = a :: q ∧ s.sp.queue = [] ∧ readWord .serial a true s = (some (w, e), t)) ∧
    (∃ s : State, ∃ t : State, ∃ a : Nat, ∃ q : List Nat, ∃ w : Word, ∃ h : SpHold, (s.sp.hold = some h) ∧ s.mode = .running ∧ h.todo = a :: q ∧ s.sp.queue = [] ∧ readWord .serial a true s = (some (w, false), t)) ∧
    (∃ s : State, (s.sp.hold = none ∨ s.sp.queue ≠ [])) ∧
    (∃ s : State, ∃ a : Nat, ∃ w : Word, ∃ q : List (Nat × Word), ∃ i : RegInfo, ∃ u : State, (u = modSp (fun y => { y with queue := q }) s) ∧ ∃ v : State, (v = served .serial a true u) ∧ ∃ x : Word, ∃ t : State, ((x, t) = keepReserved .serial a (rd v a) w v) ∧ s.mode = .running ∧ s.sp.queue = (a, w) :: q ∧ a ≠ refSelR ∧ (a = bcfgCtlR → bcfgPends w s = false) ∧ writes .serial a i u = true) ∧
    (∃ s : State, ∃ a : Nat, ∃ c : Nat, ∃ w : Word, ∃ q : List (Nat × Word), ∃ u : State, (u = modSp (fun y => { y with queue := q }) s) ∧ s.mode = .running ∧ s.sp.queue = (a, w) :: q ∧ a ≠ refSelR ∧ a ≠ bcfgCtlR ∧ a % 4 = 0 ∧ reaches u .serial a = true ∧ verdict u .serial a true = .fail c) ∧
    (∃ s : State, ∃ a : Nat, ∃ w : Word, ∃ q : List (Nat × Word), ∃ u : State, (u = modSp (fun y => { y with queue := q }) s) ∧ s.mode = .running ∧ s.sp.queue = (a, w) :: q ∧ a ≠ refSelR ∧ a % 4 = 0 ∧ reaches u .serial a = true ∧ verdict u .serial a true = .stall) ∧
    (∃ s : State, s.sp.queue = []) ∧
    (∃ v : View, ∃ a : BitVec 29, ∃ s : State, ∃ u : State, (u = (if v = .pcie then aerNote 15 a.toNat false s else s)) ∧ v ≠ .serial ∧ reaches s v a.toNat = true ∧ verdict s v a.toNat false = .stall) ∧
    (∃ v : View, ∃ a : BitVec 29, ∃ s : State, v ≠ .serial ∧ reaches s v a.toNat = true ∧ verdict s v a.toNat true = .stall) ∧
    (∃ v : View, ∃ a : BitVec 29, ∃ b : Bool, ∃ s : State, verdict s v a.toNat b ≠ .stall) ∧
    (∃ a : BitVec 29, ∃ s : State, ∃ w : Word, ∃ q : List (Nat × Word), ∃ u : State, (u = modSp (fun x => { x with queue := q }) s) ∧ s.mode = .running ∧ s.sp.queue = (a.toNat, w) :: q ∧ verdict s .serial a.toNat true = .stall) ∧
    (∃ a : BitVec 29, ∃ s : State, ∃ q : List Nat, ∃ h : SpHold, (s.sp.hold = some h) ∧ s.mode = .running ∧ h.todo = a.toNat :: q ∧ verdict s .serial a.toNat false = .stall) ∧
    (∃ w : Word, ∃ i : RegInfo, ∃ s : State, ∃ u : State, (u = served .serial bcfgCtlR true s) ∧ writes .serial bcfgCtlR i s = true ∧ bitGet w 17 = false) ∧
    (∃ w : Word, ∃ i : RegInfo, ∃ s : State, ∃ u : State, (u = served .serial bcfgCtlR true s) ∧ ∃ r : List Byte, (u.bcfg = some r) ∧ writes .serial bcfgCtlR i s = true ∧ bcfgKey w = true ∧ recordOk r = true ∧ domState u 79 ≠ 4 ∧ rdB u clkEnR 4 = true ∧ rdB u fwStateR 4 = false ∧ commitWaits u = false) ∧
    (∃ w : Word, ∃ i : RegInfo, ∃ s : State, ∃ u : State, (u = served .serial bcfgCtlR true s) ∧ ∃ r : List Byte, (u.bcfg = some r) ∧ writes .serial bcfgCtlR i s = true ∧ bcfgKey w = true ∧ recordOk r = true ∧ domState u 79 ≠ 4 ∧ rdB u clkEnR 4 = true ∧ rdB u fwStateR 4 = false ∧ commitWaits u = true) ∧
    (∃ w : Word, ∃ i : RegInfo, ∃ s : State, ∃ u : State, (u = served .serial bcfgCtlR true s) ∧ ∃ r : List Byte, (u.bcfg = some r) ∧ writes .serial bcfgCtlR i s = true ∧ bcfgKey w = true ∧ (recordOk r = false ∨ domState u 79 = 4 ∨ rdB u clkEnR 4 = false ∨ rdB u fwStateR 4 = true)) ∧
    (∃ w : Word, ∃ i : RegInfo, ∃ s : State, ∃ u : State, (u = served .serial bcfgCtlR true s) ∧ writes .serial bcfgCtlR i s = true ∧ (bcfgKey w = false ∨ u.bcfg = none)) ∧
    (∃ w : Word, ∃ i : RegInfo, ∃ s : State, ∃ u : State, (u = served .serial bcfgDataR true s) ∧ ∃ r : List Byte, (u.bcfg = some r) ∧ writes .serial bcfgDataR i s = true) ∧
    (∃ w : Word, ∃ i : RegInfo, ∃ s : State, ∃ u : State, (u = served .serial bcfgDataR true s) ∧ writes .serial bcfgDataR i s = true ∧ u.bcfg = none) ∧
    (∃ s : State, reads .serial bcfgDataR s = true) :=
  ⟨⟨55, 0, none, (readWord .serial 0 true (putHold none S0)).2, by decide +kernel⟩,
   ⟨0, (readWord .serial 0 true (putHold none S0)).2, (readWord .serial 0 true (putHold none S0)).2, 0, 0x00A15120, false, by decide +kernel⟩,
   ⟨55, [], (readWord .serial 0 true (putHold none S0)).2, by decide +kernel⟩,
   ⟨55, (readWord .serial 0 true (putHold none S0)).2, 220, 0x00A15120, by decide +kernel⟩,
   ⟨0, (wr windowBaseR 0x01100000 (modSp (fun y => { y with queue := List.replicate 1024 (0, 0) }) S0)), 0x01100000, 0, by decide +kernel⟩,
   ⟨0x00A15120, 0x00A15120, (readWord .serial 0 true (putHold none S0)).2, by decide +kernel⟩,
   ⟨0x00A15120, [], 0, none, (readWord .serial 0 true (putHold none S0)).2, by decide +kernel⟩,
   ⟨0x00A15120, 0, none, (readWord .serial 0 true (putHold none S0)).2, by decide +kernel⟩,
   ⟨31, 0x00A15120, none, 0, none, (readWord .serial 0 true (putHold none S0)).2, by decide +kernel⟩,
   ⟨(readWord .serial 0 true (putHold none S0)).2, by decide +kernel⟩,
   ⟨(modSp (fun y => { y with hold := some hold1 }) S0), 0, some1 (by decide +kernel)⟩,
   ⟨(modSp (fun y => { y with hold := some hold1 }) S0), 0, 7, some1 (by decide +kernel)⟩,
   ⟨(modSp (fun y => { y with hold := some hold2 }) S0), 0, _, get1 (by decide +kernel), _, _, rfl, by decide +kernel⟩,
   ⟨(readWord .serial 0 true (putHold none S0)).2, 0, by decide +kernel⟩,
   ⟨55, (readWord .serial 0 true (putHold none S0)).2, 220, 0x00A15120, by decide +kernel⟩,
   ⟨55, 31, 0x00A15120, 0, none, none, [], { S0 with mode := .off }, by decide +kernel⟩,
   ⟨(modSp (fun y => { y with hold := some hold2 }) S0), (modSp (fun y => { y with hold := some hold2 }) S0), 0, [], 0x00A15120, false, some1 (by decide +kernel)⟩,
   ⟨(modSp (fun y => { y with hold := some hold2 }) S0), (modSp (fun y => { y with hold := some hold2 }) S0), 0, [], 0x00A15120, some1 (by decide +kernel)⟩,
   ⟨(modSp (fun y => { y with queue := [(spIrqEnR, 3)] }) S0), by decide +kernel⟩,
   ⟨(modSp (fun y => { y with queue := [(spIrqEnR, 3)] }) S0), spIrqEnR, 3, [], (regInfo ((spIrqEnR : Nat))).getD {}, _, rfl, _, rfl, _, _, rfl, by decide +kernel⟩,
   ⟨(modSp (fun y => { y with queue := [(0x20001C, 3)] }) S0), 0x20001C, 8, 3, [], _, rfl, by decide +kernel⟩,
   ⟨(modSp (fun y => { y with queue := [(0x01100000, 3)] }) (wrB (domBase 0 + 4) 3 true S0)), 0x01100000, 3, [], _, rfl, by decide +kernel⟩,
   ⟨(modSp (fun y => { y with hold := some hold2 }) S0), by decide +kernel⟩,
   ⟨.operator, 0x01100000, (wrB (domBase 0 + 4) 3 true S0), _, rfl, by decide +kernel⟩,
   ⟨.operator, 0x01100000, (wrB (domBase 0 + 4) 3 true S0), by decide +kernel⟩,
   ⟨.operator, 0x01100000, false, (modSp (fun y => { y with hold := some hold2 }) S0), by decide +kernel⟩,
   ⟨0x01100000, (modSp (fun y => { y with queue := [(0x01100000, 3)] }) (wrB (domBase 0 + 4) 3 true S0)), 3, [], _, rfl, by decide +kernel⟩,
   ⟨0x01100000, (modSp (fun y => { y with hold := some { addressed := false, start := 0, n := 1, todo := [0x01100000] } }) (wrB (domBase 0 + 4) 3 true S0)), [], some1 (by decide +kernel)⟩,
   ⟨0x00A15120, (regInfo (bcfgCtlR)).getD {}, (modSp (fun y => { y with hold := some hold2 }) S0), _, rfl, by decide +kernel⟩,
   ⟨0x00A15120, (regInfo (bcfgCtlR)).getD {}, { S0 with bcfg := some rec0 }, _, rfl, some1 (by decide +kernel)⟩,
   ⟨0x00A15120, (regInfo (bcfgCtlR)).getD {}, { wrF (domBase 79 + 4) 2 0 1 S0 with bcfg := some rec0 }, _, rfl, some1 (by decide +kernel)⟩,
   ⟨0x00A15120, (regInfo (bcfgCtlR)).getD {}, { S0 with bcfg := some [] }, _, rfl, some1 (by decide +kernel)⟩,
   ⟨0x00A15120, (regInfo (bcfgCtlR)).getD {}, (modSp (fun y => { y with hold := some hold2 }) S0), _, rfl, by decide +kernel⟩,
   ⟨0x00A15120, (regInfo (bcfgDataR)).getD {}, { S0 with bcfg := some rec0 }, _, rfl, some1 (by decide +kernel)⟩,
   ⟨0x00A15120, (regInfo (bcfgDataR)).getD {}, (modSp (fun y => { y with hold := some hold2 }) S0), _, rfl, by decide +kernel⟩,
   ⟨(modSp (fun y => { y with hold := some hold2 }) S0), by decide +kernel⟩⟩
theorem witness_PcieRows :
    (∃ k : BitVec 2, ∃ s : State, s.mode = .running ∧ k.toNat < 2) ∧
    (∃ s : State, s.mode = .running) ∧
    (∃ s : State, ∃ u : State, (u = modPcie (fun p => { p with perstN := false, ready := false, waitFrom := none }) s) ∧ s.mode = .running) ∧
    (∃ k : BitVec 2, ∃ s : State, s.mode ≠ .running) ∧
    (∃ k : BitVec 2, ∃ s : State, s.mode = .running) ∧
    (∃ s : State, s.mode = .running ∧ s.pcie.d3hot = false) ∧
    (∃ s : State, s.pcie.d3hot = true) ∧
    (∃ s : State, s.mode = .running) ∧
    (∃ b : Bool, ∃ s : State, s.mode = .running) ∧
    (∃ v : BitVec 9, ∃ s : State, s.mode = .running) ∧
    (∃ s : State, s.mode = .running) ∧
    (∃ p : Bool, ∃ a : BitVec 29, ∃ s : State, ∃ x : Word, ∃ u : State, ((x, u) = readValue .pcie a.toNat (windowWords .pcie a.toNat false s)) ∧ reads .pcie a.toNat s = true) ∧
    (∃ w : Word, ∃ a : BitVec 29, ∃ i : RegInfo, ∃ s : State, ∃ u : State, (u = served .pcie a.toNat true s) ∧ ∃ x : Word, ∃ t : State, ((x, t) = keepReserved .pcie a.toNat (rd u a.toNat) w u) ∧ writes .pcie a.toNat i s = true ∧ a.toNat ≠ refSelR) ∧
    (∃ w : Word, ∃ a : BitVec 29, ∃ s : State, reaches s .pcie a.toNat = true) ∧
    (∃ w : Option Word, ∃ p : Bool, ∃ s : State, s.mode = .running) ∧
    (∃ w : Option Word, ∃ a : BitVec 29, ∃ p : Bool, ∃ s : State, s.mode = .running ∧ reaches s .pcie a.toNat = false ∧ a.toNat ≠ refSelR) ∧
    (∃ r : CfgReq, ∃ s : State, ∃ u : State, (nowReady (modPcie (fun p => { p with linkUp := true }) s) = (true, u)) ∧ s.mode = .running ∧ s.pcie.perstN = true) ∧
    (∃ r : CfgReq, ∃ s : State, ∃ u : State, s.mode = .running ∧ s.pcie.perstN = true ∧ nowReady (modPcie (fun p => { p with linkUp := true }) s) = (false, u)) ∧
    (∃ r : CfgReq, ∃ s : State, s.pcie.perstN = false) ∧
    (∃ b : Bool, ∃ m : Bool, ∃ s : State, s.mode = .running ∧ s.pcie.perstN = true ∧ s.pcie.ready = true ∧ s.pcie.waitFrom = none) ∧
    (∃ hi : Bool, ∃ s : State, s.mode = .running ∧ s.pcie.perstN = true ∧ s.pcie.ready = true ∧ s.pcie.waitFrom = none) ∧
    (∃ e : Bool, ∃ m : Bool, ∃ s : State, s.mode = .running ∧ s.pcie.perstN = true ∧ s.pcie.ready = true ∧ s.pcie.waitFrom = none) ∧
    (∃ s : State, s.pcie.perstN = false) ∧
    (∃ s : State, s.pcie.perstN = true) ∧
    (∃ s : State, s.mode = .running ∧ s.pcie.perstN = true) ∧
    (∃ s : State, s.pcie.perstN = false) :=
  ⟨⟨1, SP, by decide +kernel⟩,
   ⟨SP, by decide +kernel⟩,
   ⟨SP, _, rfl, by decide +kernel⟩,
   ⟨1, { S0 with mode := .off }, by decide +kernel⟩,
   ⟨1, SP, by decide +kernel⟩,
   ⟨SP, by decide +kernel⟩,
   ⟨{ S0 with pcie := { d3hot := true } }, by decide +kernel⟩,
   ⟨SP, by decide +kernel⟩,
   ⟨false, SP, by decide +kernel⟩,
   ⟨0, SP, by decide +kernel⟩,
   ⟨SP, by decide +kernel⟩,
   ⟨false, 0, SP, _, _, rfl, by decide +kernel⟩,
   ⟨0, 0, (regInfo ((0 : BitVec 29).toNat)).getD {}, SP, _, rfl, _, _, rfl, by decide +kernel⟩,
   ⟨0, 0, SP, by decide +kernel⟩,
   ⟨none, false, SP, by decide +kernel⟩,
   ⟨none, 0, false, { S0 with pcie := { bootAt := some 0 } }, by decide +kernel⟩,
   ⟨(.command true true), { S0 with pcie := { perstN := true, ready := true } }, someTrue (by decide +kernel)⟩,
   ⟨(.command true true), { S0 with pcie := { perstN := true } }, (modPcie (fun p => { p with linkUp := true }) { S0 with pcie := { perstN := true } }), by decide +kernel⟩,
   ⟨(.command true true), S0, by decide +kernel⟩,
   ⟨false, false, SP, by decide +kernel⟩,
   ⟨false, SP, by decide +kernel⟩,
   ⟨false, false, SP, by decide +kernel⟩,
   ⟨{ S0 with pcie := { bootAt := some 0 } }, by decide +kernel⟩,
   ⟨SP, by decide +kernel⟩,
   ⟨SP, by decide +kernel⟩,
   ⟨{ S0 with pcie := { bootAt := some 0 } }, by decide +kernel⟩⟩
theorem witness_DeviceResetAndBootRows :
    (∃ m : DevMode, ∃ c : Nat, ∃ s : State, c < 8) ∧
    (∃ m : Bool, ∃ p : List (BitVec 4), ∃ x : List (List Byte × BitVec 3), ∃ s : State, s.mode = .inReset) ∧
    (∃ m : Bool, ∃ p : List (BitVec 4), ∃ x : List (List Byte × BitVec 3), ∃ s : State, ∃ c : Nat → Nat, (c = (fun b => (x.getD b ([], 0)).2.toNat)) ∧ ∃ u : State, (u = bootPatch c (factoryHeaders (x.map Prod.fst) (wrB devStrapsR 0 m (wrB clkRootSrcR 5 (s.badCores.contains 0) { s with mode := .running })))) ∧ ∃ r : List Byte, (r = storedRecord u) ∧ ∃ v : State, (v = applyRack r (bootRoot r (p.foldl (fun s y => monPass y.toNat 0 s) (wrB bcfgCtlR 19 true (applyBoard r u))))) ∧ ∃ w : State, (w = { v with pcie := { v.pcie with bootAt := some v.time, subsys := BitVec.ofNat 32 (leAt r 8 4), waitFrom := if v.pcie.perstN then some v.time else none } }) ∧ ∃ k : Nat, (k = rdF w devResetCauseR 2 0) ∧ s.mode = .inReset ∧ recordOk r = true) ∧
    (∃ m : Bool, ∃ p : List (BitVec 4), ∃ x : List (List Byte × BitVec 3), ∃ s : State, ∃ c : Nat → Nat, (c = (fun b => (x.getD b ([], 0)).2.toNat)) ∧ ∃ u : State, (u = bootPatch c (factoryHeaders (x.map Prod.fst) (wrB devStrapsR 0 m (wrB clkRootSrcR 5 (s.badCores.contains 0) { s with mode := .running })))) ∧ ∃ v : State, (v = p.foldl (fun s y => monPass y.toNat 0 s) (wrB bcfgCtlR 19 false (bootWithout u))) ∧ ∃ w : State, (w = { v with pcie := { v.pcie with bootAt := some v.time, subsys := Config.vendorId.setWidth 32 ||| 0x51200000, waitFrom := if v.pcie.perstN then some v.time else none } }) ∧ ∃ k : Nat, (k = rdF w devResetCauseR 2 0) ∧ s.mode = .inReset ∧ recordOk (storedRecord u) = false) ∧
    (∃ m : Bool, ∃ p : List (BitVec 4), ∃ x : List (List Byte × BitVec 3), ∃ s : State, s.mode ≠ .inReset) ∧
    (∃ s : State, ∃ src : Nat, (s.rootPending = some src) ∧ s.mode = .running ∧ rootSrcOk s src = true) ∧
    (∃ s : State, s.rootPending = none) ∧
    (∃ s : State, ∃ src : Nat, (s.rootPending = some src) ∧ s.mode = .running) ∧
    (∃ x : Pll, ∃ s : State, s.mode = .running ∧ s.rackBoot.contains x.val = true ∧ rackInputOk s x.val = true) ∧
    (∃ x : Pll, ∃ s : State, (s.rackBoot.contains x.val = false ∨ rackInputOk s x.val = false)) ∧
    (∃ t : Tile, ∃ s : State, s.mode = .running) :=
  ⟨⟨.off, 7, { S0 with mode := .off }, by decide +kernel⟩,
   ⟨false, [], [], State.reset, by decide +kernel⟩,
   ⟨false, [], [], { State.reset with mram := putBytes0 [] recordBase rec0 }, _, rfl, _, rfl, _, rfl, _, rfl, _, rfl, _, rfl, by decide +kernel⟩,
   ⟨false, [], [], State.reset, _, rfl, _, rfl, _, rfl, _, rfl, _, rfl, by decide +kernel⟩,
   ⟨false, [], [], { S0 with rootPending := some 0 }, by decide +kernel⟩,
   ⟨{ S0 with rootPending := some 0 }, some1 (by decide +kernel)⟩,
   ⟨State.reset, by decide +kernel⟩,
   ⟨{ S0 with rootPending := some 0 }, some1 (by decide +kernel)⟩,
   ⟨73, { wr clkMonStatusR 0x1F S0 with rackBoot := [73] }, by decide +kernel⟩,
   ⟨73, State.reset, by decide +kernel⟩,
   ⟨7, { S0 with rootPending := some 0 }, by decide +kernel⟩⟩
theorem witness_MonitorRows :
    (∃ rail : BitVec 3, ∃ low : BitVec 9, ∃ s : State, ∃ u : State, (u = railMin rail.toNat low.toNat { s with dips := tabInsert s.dips rail.toNat { since := s.time, low := low.toNat } }) ∧ s.mode = .running ∧ rdB s pwrSupplyStatusR rail.toNat = false ∧ belowLevel (warnLevel rail.toNat) low.toNat = true) ∧
    (∃ rail : BitVec 3, ∃ low : BitVec 9, ∃ s : State, (rdB s pwrSupplyStatusR rail.toNat = true ∨ belowLevel (warnLevel rail.toNat) low.toNat = false)) ∧
    (∃ rail : BitVec 3, ∃ low : BitVec 9, ∃ s : State, ∃ x : Dip, (dipFind s rail.toNat = some x) ∧ ∃ u : State, (u = railMin rail.toNat (min x.low low.toNat) (wrB pwrSupplyStatusR rail.toNat false { s with dips := tabErase s.dips rail.toNat })) ∧ rdB u pwrSupplyStatusR (8 + rail.toNat) = false) ∧
    (∃ rail : BitVec 3, ∃ low : BitVec 9, ∃ s : State, ∃ x : Dip, (dipFind s rail.toNat = some x) ∧ ∃ u : State, (u = railMin rail.toNat (min x.low low.toNat) (wrB pwrSupplyStatusR rail.toNat false { s with dips := tabErase s.dips rail.toNat })) ∧ rdB u pwrSupplyStatusR (8 + rail.toNat) = true) ∧
    (∃ rail : BitVec 3, ∃ low : BitVec 9, ∃ s : State, dipFind s rail.toNat = none) ∧
    (∃ rail : BitVec 3, ∃ low : BitVec 9, ∃ s : State, ∃ x : Dip, (dipFind s rail.toNat = some x) ∧ ∃ u : State, (u = railMin rail.toNat (min x.low low.toNat) { s with dips := tabInsert s.dips rail.toNat { x with low := min x.low low.toNat } }) ∧ s.mode = .running ∧ rail ≠ 6 ∧ belowLevel (resetLevel rail.toNat) low.toNat = true) ∧
    (∃ rail : BitVec 3, ∃ low : BitVec 9, ∃ s : State, (rail = 6 ∨ belowLevel (resetLevel rail.toNat) low.toNat = false)) ∧
    (∃ i : BitVec 7, ∃ t : BitVec 16, ∃ s : State, ∃ u : State, (u = setTemp i.toNat t s) ∧ s.mode = .running ∧ i.toNat < 98) ∧
    (∃ ts : List (BitVec 16), ∃ s : State, ∃ u : State, (u = each (List.range 98) (fun i s => match ts[i]? with | some t => setTemp i t s | none => s) s) ∧ s.mode = .running ∧ rdB u thermStatusR 0 = true ∧ (∀ i < 98, tempOf u i < talert u - 16 * (rdF u thermCfgR 11 8 : Int))) ∧
    (∃ ts : List (BitVec 16), ∃ s : State, ∃ k : Nat, ∃ u : State, (u = each (List.range 98) (fun i s => match ts[i]? with | some t => setTemp i t s | none => s) s) ∧ s.mode = .running ∧ k < 98 ∧ (rdB u thermStatusR 0 = false ∨ talert u - 16 * (rdF u thermCfgR 11 8 : Int) ≤ tempOf u k)) ∧
    (∃ i : BitVec 7, ∃ t : BitVec 16, ∃ s : State, ∃ u : State, (u = setTemp i.toNat t s) ∧ s.mode = .running ∧ i.toNat < 98 ∧ 1840 ≤ t.toInt ∧ rdB u thermStatusR 1 = false) ∧
    (∃ i : BitVec 7, ∃ t : BitVec 16, ∃ s : State, ∃ u : State, (u = setTemp i.toNat t s) ∧ s.mode = .running ∧ i.toNat < 98 ∧ rdB u thermStatusR 1 = true ∧ (∀ k < 98, tempOf u k < 1760)) ∧
    (∃ i : BitVec 7, ∃ t : BitVec 16, ∃ s : State, ∃ k : Nat, ∃ u : State, (u = setTemp i.toNat t s) ∧ s.mode = .running ∧ i.toNat < 98 ∧ k < 98 ∧ ((t.toInt < 1840 ∧ rdB u thermStatusR 1 = false) ∨ (rdB u thermStatusR 1 = true ∧ 1760 ≤ tempOf u k))) :=
  ⟨⟨7, 0, { S0 with dips := [(0, dip1)] }, _, rfl, by decide +kernel⟩,
   ⟨0, 0, (wrB pwrSupplyStatusR 0 true S0), by decide +kernel⟩,
   ⟨0, 0, { S0 with dips := [(0, dip1)] }, _, get1 (by decide +kernel), _, rfl, by decide +kernel⟩,
   ⟨0, 0, { wrB pwrSupplyStatusR 8 true S0 with dips := [(0, dip1)] }, _, get1 (by decide +kernel), _, rfl, by decide +kernel⟩,
   ⟨7, 0, { S0 with dips := [(0, dip1)] }, by decide +kernel⟩,
   ⟨0, 0, { S0 with dips := [(0, dip1)] }, _, get1 (by decide +kernel), _, rfl, by decide +kernel⟩,
   ⟨6, 0, S0, by decide +kernel⟩,
   ⟨97, 1600, { S0 with dips := [(0, dip1)] }, _, rfl, by decide +kernel⟩,
   ⟨[], (wr thermStatusR 1 S0), _, rfl, by decide +kernel⟩,
   ⟨[], { S0 with dips := [(0, dip1)] }, 0, _, rfl, by decide +kernel⟩,
   ⟨97, 1840, { S0 with dips := [(0, dip1)] }, _, rfl, by decide +kernel⟩,
   ⟨97, 1600, (wr thermStatusR 2 S0), _, rfl, by decide +kernel⟩,
   ⟨97, 1600, { S0 with dips := [(0, dip1)] }, 0, _, rfl, by decide +kernel⟩⟩
theorem witness_PowerRows :
    (∃ d : Domain, ∃ st : BitVec 2, ∃ s : State, s.mode = .running ∧ 1 ≤ st.toNat ∧ rdB s (domBase d.val) 3 = true ∧ timerOf (rd s (domBase d.val + 8)) st.toNat ≠ 0 ∧ accepts d.val st.toNat = true ∧ domState s d.val < st.toNat ∧ domIdle s d.val = true ∧ supHalted s = false ∧ refuserMask s d.val st.toNat = 0) ∧
    (∃ d : Domain, ∃ st : BitVec 2, ∃ s : State, ∃ m : Nat, (m = refuserMask s d.val st.toNat) ∧ s.mode = .running ∧ 1 ≤ st.toNat ∧ rdB s (domBase d.val) 3 = true ∧ timerOf (rd s (domBase d.val + 8)) st.toNat ≠ 0 ∧ accepts d.val st.toNat = true ∧ domState s d.val < st.toNat ∧ domIdle s d.val = true ∧ supHalted s = false ∧ m ≠ 0) ∧
    (∃ d : Domain, ∃ st : BitVec 2, ∃ s : State, (st = 0 ∨ rdB s (domBase d.val) 3 = false ∨ timerOf (rd s (domBase d.val + 8)) st.toNat = 0 ∨ accepts d.val st.toNat = false ∨ st.toNat ≤ domState s d.val ∨ domIdle s d.val = false)) ∧
    (∃ d : Domain, ∃ s : State, s.mode = .running ∧ domBusy s d.val = true ∧ (domOf s d.val).going ≠ 0) ∧
    (∃ d : Domain, ∃ s : State, (domBusy s d.val = false ∨ (domOf s d.val).going = 0)) ∧
    (∃ d : Domain, ∃ s : State, ∃ x : DomSt, (x = domOf s d.val) ∧ ∃ u : State, (u = (if 3 ≤ x.going then domLost d.val (x.going == 4) s else s)) ∧ s.mode = .running ∧ supHalted s = false ∧ domBusy s d.val = true ∧ x.going ≠ 0) ∧
    (∃ d : Domain, ∃ edge : Bool, ∃ late : Bool, ∃ s : State, s.mode = .running ∧ (late = false ∨ domBusy s d.val = false ∨ (domOf s d.val).going = 0)) ∧
    (∃ d : Domain, ∃ s : State, s.mode = .running ∧ domBusy s d.val = true ∧ (domOf s d.val).going ≠ 0) ∧
    (∃ d : Domain, ∃ s : State, ∃ x : DomSt, (x = domOf s d.val) ∧ ∃ u : State, (u = modDom d.val (fun _ => {}) (wrB (domBase d.val + 4) 3 false (wrF (domBase d.val + 4) 2 0 0 s))) ∧ ∃ v : State, (v = (if 3 ≤ domState s d.val then domPowered d.val (domState s d.val == 4) u else u)) ∧ ∃ w : State, (w = (if isTileDom d.val then each (domPorts d.val) (fun p s => if (domOf s p).wakeAt then wakeOne p s else s) v else v)) ∧ s.mode = .running ∧ supHalted s = false ∧ domBusy s d.val = true ∧ x.going = 0) ∧
    (∃ d : Domain, ∃ s : State, (domBusy s d.val = false ∨ (domOf s d.val).going ≠ 0)) ∧
    (∃ d : Domain, ∃ s : State, supHalted s = true) ∧
    (∃ n : BitVec 5, ∃ s : State, ∃ x : PlChange, (s.plChanges.find? (fun y => y.unit == n.toNat) = some x) ∧ ∃ u : State, (u = { s with plChanges := s.plChanges.filter (fun y => y.unit != n.toNat) })) ∧
    (∃ n : BitVec 5, ∃ s : State, s.plChanges.find? (fun y => y.unit == n.toNat) = none) :=
  ⟨⟨63, 3, (wr (domBase 63 + 8) 0x3FF00000 (wr (domBase 63) 8 S0)), by decide +kernel⟩,
   ⟨78, 2, (wrB (rackCtl 72) 4 true (wr (domBase 78 + 8) 0x3FFFFFFF (wr (domBase 78) 8 S0))), _, rfl, by decide +kernel⟩,
   ⟨63, 3, (going 79 2), by decide +kernel⟩,
   ⟨79, (going 79 2), by decide +kernel⟩,
   ⟨63, (wr (domBase 63 + 8) 0x3FF00000 (wr (domBase 63) 8 S0)), by decide +kernel⟩,
   ⟨79, (going 79 2), _, rfl, _, rfl, by decide +kernel⟩,
   ⟨63, false, false, (wr (domBase 63 + 8) 0x3FF00000 (wr (domBase 63) 8 S0)), by decide +kernel⟩,
   ⟨79, (going 79 2), by decide +kernel⟩,
   ⟨0, (wrB (domBase 0 + 4) 3 true (wrF (domBase 0 + 4) 2 0 2 S0)), _, rfl, _, rfl, _, rfl, _, rfl, by decide +kernel⟩,
   ⟨63, (wr (domBase 63 + 8) 0x3FF00000 (wr (domBase 63) 8 S0)), by decide +kernel⟩,
   ⟨63, (wrB fwStateR 4 true SP), by decide +kernel⟩,
   ⟨16, { S0 with plChanges := [{ unit := 16, tag := none }] }, _, get1 (by decide +kernel), _, rfl⟩,
   ⟨16, (wr (domBase 63 + 8) 0x3FF00000 (wr (domBase 63) 8 S0)), by decide +kernel⟩⟩
theorem witness_ClockMonitorRows :
    (∃ x : BitVec 4, ∃ dev : Word, ∃ step : BitVec 16, ∃ diff : Word, ∃ s : State, s.mode = .running ∧ monSource x.toNat = true ∧ monOk s x.toNat = true) ∧
    (∃ x : BitVec 4, ∃ dev : Word, ∃ step : BitVec 16, ∃ diff : Word, ∃ s : State, s.mode = .running ∧ monSource x.toNat = true ∧ monOk s x.toNat = true ∧ monLimit s x.toNat < dev.toInt.natAbs) ∧
    (∃ x : BitVec 4, ∃ dev : Word, ∃ step : BitVec 16, ∃ diff : Word, ∃ s : State, s.mode = .running ∧ 8 ≤ x.toNat ∧ monOk s x.toNat = true) ∧
    (∃ x : BitVec 4, ∃ dev : Word, ∃ step : BitVec 16, ∃ diff : Word, ∃ s : State, (monSource x.toNat = false ∨ monOk s x.toNat = false ∨ dev.toInt.natAbs ≤ monLimit s x.toNat)) ∧
    (∃ x : BitVec 4, ∃ dev : Word, ∃ step : BitVec 16, ∃ diff : Word, ∃ s : State, (monSource x.toNat = false ∨ monOk s x.toNat = false)) ∧
    (∃ x : BitVec 4, ∃ dev : Word, ∃ s : State, s.mode = .running ∧ monSource x.toNat = true ∧ monOk s x.toNat = false ∧ dev.toInt.natAbs ≤ monLimit s x.toNat) ∧
    (∃ x : BitVec 4, ∃ dev : Word, ∃ s : State, (monSource x.toNat = false ∨ monOk s x.toNat = true ∨ monLimit s x.toNat < dev.toInt.natAbs)) ∧
    (∃ s : State, s.mode = .running) ∧
    (∃ d : BitVec 16, ∃ s : State, s.mode = .running ∧ rootInput s = 0 ∧ selectorOk s = true ∧ chainAddr s = none) ∧
    (∃ d : BitVec 16, ∃ s : State, (rootInput s ≠ 0 ∨ selectorOk s = false ∨ chainAddr s ≠ none)) ∧
    (∃ t : Tile, ∃ s : State, s.mode = .running ∧ rdB s (tileClkStatusR t.toNat) 0 = true ∧ monOk s (8 + t.toNat) = true) ∧
    (∃ t : Tile, ∃ s : State, (rdB s (tileClkStatusR t.toNat) 0 = false ∨ monOk s (8 + t.toNat) = false)) ∧
    (∃ dev : Word, ∃ s : State, ∃ c : Nat, (c = rdF s clkRootSrcR 5 5) ∧ s.mode = .running ∧ monOk s (3 + c) = true) ∧
    (∃ dev : Word, ∃ s : State, ∃ c : Nat, (c = rdF s clkRootSrcR 5 5) ∧ s.mode = .running ∧ monOk s (3 + c) = false) ∧
    (∃ mux : Fin 6, ∃ l : Pair, ∃ s : State, ∃ m : MuxSwitch, (muxFind s mux.val l.toNat = some m)) ∧
    (∃ mux : Fin 6, ∃ l : Pair, ∃ s : State, ∃ m : MuxSwitch, (muxFind s mux.val l.toNat = some m) ∧ ∃ u : State, (u = muxForced mux.val l.toNat 2 s) ∧ ∃ v : State, (v = { u with muxFrozen := (mux.val, l.toNat) :: u.muxFrozen.filter (fun f => f != (mux.val, l.toNat)) }) ∧ mux.val ≠ 5) ∧
    (∃ l : Pair, ∃ s : State, ∃ m : MuxSwitch, (muxFind s 5 l.toNat = some m)) ∧
    (∃ mux : Fin 6, ∃ l : Pair, ∃ b : Bool, ∃ s : State, muxFind s mux.val l.toNat = none) :=
  ⟨⟨15, 0, 0, 0, (wr (tileClkStatusR 7) 2 S0), by decide +kernel⟩,
   ⟨0, 0x7FFFFFFF, 0, 0, (wr clkMonStatusR 0x1F S0), by decide +kernel⟩,
   ⟨15, 0, 0, 0, (wr (tileClkStatusR 7) 2 S0), by decide +kernel⟩,
   ⟨15, 0, 0, 0, (wr (tileClkStatusR 7) 2 S0), by decide +kernel⟩,
   ⟨15, 0, 0, 0, (wr (tileClkStatusR 0) 2 S0), by decide +kernel⟩,
   ⟨15, 0, (wr (tileClkStatusR 0) 2 S0), by decide +kernel⟩,
   ⟨15, 0, (wr (tileClkStatusR 7) 2 S0), by decide +kernel⟩,
   ⟨(wr (tileClkStatusR 7) 2 S0), by decide +kernel⟩,
   ⟨0, (wr clkMonStatusR 0x1F S0), by decide +kernel⟩,
   ⟨0, (wr (tileClkStatusR 7) 2 S0), by decide +kernel⟩,
   ⟨7, (wr (tileClkStatusR 7) 3 S0), by decide +kernel⟩,
   ⟨7, (wr (tileClkStatusR 7) 2 S0), by decide +kernel⟩,
   ⟨0, (wr (tileClkStatusR 7) 2 S0), _, rfl, by decide +kernel⟩,
   ⟨0, (wr clkMonStatusR 0 S0), _, rfl, by decide +kernel⟩,
   ⟨3, 511, { S0 with muxes := [mx1] }, some10 (by decide +kernel)⟩,
   ⟨3, 511, { S0 with muxes := [mx1] }, _, get1 (by decide +kernel), _, rfl, _, rfl, by decide +kernel⟩,
   ⟨0, { S0 with muxes := [{ mux := 5, inst := 0, old := 0, new := 1 }] }, some10 (by decide +kernel)⟩,
   ⟨3, 511, false, (wr (tileClkStatusR 7) 2 S0), by decide +kernel⟩⟩
theorem witness_SynthesizerRows :
    (∃ i : Pll, ∃ s : State, s.mode = .running ∧ 64 ≤ i.val ∧ i.val < 72 ∧ (synOf s i.val).masked = false) ∧
    (∃ i : Pll, ∃ s : State, s.mode = .running ∧ i.val < 64 ∧ (synOf s i.val).masked = false ∧ synState s i.val ≠ 0 ∧ synState s i.val ≠ 4) ∧
    (∃ i : Pll, ∃ s : State, (72 ≤ i.val ∨ (synOf s i.val).masked = true ∨ synState s i.val = 0 ∨ synState s i.val = 4)) ∧
    (∃ i : Pll, ∃ m : Byte, ∃ s : State, ∃ u : State, (u = wrF (synStatusR i.val) 23 16 m.toNat s) ∧ s.mode = .running ∧ i.val < 72 ∧ synState s i.val ≠ 0) ∧
    (∃ i : Pll, ∃ m : Byte, ∃ s : State, i.val < 72 ∧ synState s i.val = 0) ∧
    (∃ i : Pll, ∃ m : Byte, ∃ s : State, s.mode = .running ∧ 72 ≤ i.val) ∧
    (∃ i : Pll, ∃ band : BitVec 6, ∃ other : BitVec 6, ∃ fresh : Bool, ∃ s : State, s.mode = .running ∧ 64 ≤ i.val ∧ i.val < 72) ∧
    (∃ i : Pll, ∃ band : BitVec 6, ∃ other : BitVec 6, ∃ fresh : Bool, ∃ s : State, ∃ t : State, (t = synHopDone i.val band.toNat other.toNat fresh s) ∧ s.mode = .running ∧ i.val < 64) ∧
    (∃ i : Pll, ∃ band : BitVec 6, ∃ other : BitVec 6, ∃ fresh : Bool, ∃ s : State, 72 ≤ i.val) ∧
    (∃ p : Port, ∃ q : BitVec 15, ∃ s : State, ∃ im : Rat, ∃ phim : Rat, ∃ u : State, (((im, phim), u) = periodMeans p.toNat (rotatePairs p.toNat s)) ∧ ∃ t : State, (t = periodBegin p.toNat u) ∧ s.mode = .running ∧ synState s p.toNat = 2 ∧ steerMode t p.toNat = 2) ∧
    (∃ p : Port, ∃ q : BitVec 15, ∃ s : State, ∃ im : Rat, ∃ phim : Rat, ∃ u : State, (((im, phim), u) = periodMeans p.toNat (rotatePairs p.toNat s)) ∧ ∃ t : State, (t = periodBegin p.toNat u) ∧ s.mode = .running ∧ synState s p.toNat = 2 ∧ steerMode t p.toNat = 3) ∧
    (∃ p : Port, ∃ q : BitVec 15, ∃ s : State, ∃ im : Rat, ∃ phim : Rat, ∃ u : State, (((im, phim), u) = periodMeans p.toNat (rotatePairs p.toNat s)) ∧ ∃ t : State, (t = periodBegin p.toNat u) ∧ ∃ v : State, (v = steerBy p.toNat (compatStep t p.toNat q.toNat) t) ∧ s.mode = .running ∧ synState s p.toNat = 2 ∧ steerMode t p.toNat = 4) ∧
    (∃ p : Port, ∃ q : BitVec 15, ∃ s : State, ∃ u : State, ∃ im : Rat, ∃ phim : Rat, ∃ t : State, (t = periodBegin p.toNat u) ∧ s.mode = .running ∧ synState s p.toNat = 2 ∧ ((im, phim), u) = periodMeans p.toNat (rotatePairs p.toNat s) ∧ (steerMode t p.toNat ≤ 1 ∨ 5 ≤ steerMode t p.toNat)) ∧
    (∃ p : Port, ∃ q : BitVec 15, ∃ s : State, synState s p.toNat ≠ 2) ∧
    (∃ i : Pll, ∃ s : State, ∃ e : Nat, ∃ d : Int, ∃ q : List (Nat × Int), ∃ u : State, (u = modSyn i.val (fun x => { x with steps := q }) s) ∧ s.mode = .running ∧ (synOf s i.val).steps = (e, d) :: q ∧ i.val < 72 ∧ stepRefused u i.val = false) ∧
    (∃ i : Pll, ∃ s : State, ∃ e : Nat, ∃ d : Int, ∃ q : List (Nat × Int), ∃ u : State, (u = modSyn i.val (fun x => { x with steps := q }) s) ∧ s.mode = .running ∧ (synOf s i.val).steps = (e, d) :: q ∧ 72 ≤ i.val ∧ stepRefused u i.val = false) ∧
    (∃ i : Pll, ∃ s : State, ∃ e : Nat, ∃ d : Int, ∃ q : List (Nat × Int), ∃ u : State, (u = modSyn i.val (fun x => { x with steps := q }) s) ∧ s.mode = .running ∧ (synOf s i.val).steps = (e, d) :: q ∧ stepRefused u i.val = true) ∧
    (∃ i : Pll, ∃ s : State, (synOf s i.val).steps = []) ∧
    (∃ p : Port, ∃ s : State, ∃ u : State, (u = smallStep p.toNat (towardZero (synSteer s p.toNat)) s) ∧ s.mode = .running ∧ (portOf s p.toNat).ramp = true) ∧
    (∃ p : Port, ∃ s : State, (portOf s p.toNat).ramp = false) ∧
    (∃ p : Port, ∃ s : State, ∃ u : State, (u = remeasured p.toNat s) ∧ ∃ z : Int, ((synOf u p.toNat).acquire = some z) ∧ ∃ d : Int, (d = max (-(2 ^ 20)) (min (2 ^ 20) z)) ∧ s.mode = .running) ∧
    (∃ p : Port, ∃ s : State, s.mode = .running ∧ (synOf (remeasured p.toNat s) p.toNat).acquire = none) :=
  ⟨⟨64, (wr (synStatusR 63) 2 S0), by decide +kernel⟩,
   ⟨63, (wr (synStatusR 63) 2 S0), by decide +kernel⟩,
   ⟨64, (wr (synStatusR 63) 2 S0), by decide +kernel⟩,
   ⟨63, 31, (wr (synStatusR 63) 2 S0), _, rfl, by decide +kernel⟩,
   ⟨64, 31, (wr (synStatusR 63) 2 S0), by decide +kernel⟩,
   ⟨72, 31, (wr (synStatusR 63) 2 S0), by decide +kernel⟩,
   ⟨64, 0, 0, false, (wr (synStatusR 63) 2 S0), by decide +kernel⟩,
   ⟨63, 0, 0, false, (wr (synStatusR 63) 2 S0), _, rfl, by decide +kernel⟩,
   ⟨72, 0, 0, false, (wr (synStatusR 63) 2 S0), by decide +kernel⟩,
   ⟨0, 0, (modSyn 0 (fun x => { x with loopPair := some 7 }) SS), (periodMeans (0 : Port).toNat (rotatePairs (0 : Port).toNat (modSyn 0 (fun x => { x with loopPair := some 7 }) SS : State))).1.1, (periodMeans (0 : Port).toNat (rotatePairs (0 : Port).toNat (modSyn 0 (fun x => { x with loopPair := some 7 }) SS : State))).1.2, (periodMeans (0 : Port).toNat (rotatePairs (0 : Port).toNat (modSyn 0 (fun x => { x with loopPair := some 7 }) SS : State))).2, rfl, _, rfl, by decide +kernel⟩,
   ⟨0, 0, (modPort 0 (fun x => { x with locked := true }) (modSyn 0 (fun x => { x with loopPair := some 7 }) SS)), (periodMeans (0 : Port).toNat (rotatePairs (0 : Port).toNat (modPort 0 (fun x => { x with locked := true }) (modSyn 0 (fun x => { x with loopPair := some 7 }) SS) : State))).1.1, (periodMeans (0 : Port).toNat (rotatePairs (0 : Port).toNat (modPort 0 (fun x => { x with locked := true }) (modSyn 0 (fun x => { x with loopPair := some 7 }) SS) : State))).1.2, (periodMeans (0 : Port).toNat (rotatePairs (0 : Port).toNat (modPort 0 (fun x => { x with locked := true }) (modSyn 0 (fun x => { x with loopPair := some 7 }) SS) : State))).2, rfl, _, rfl, by decide +kernel⟩,
   ⟨0, 0, (modSyn 0 (fun x => { x with loopPair := some 63 }) (modLink 0 (fun x => { x with mask := 1, runMask := 1 }) (wr (synStatusR 0) 2 (cpt .up)))), (periodMeans (0 : Port).toNat (rotatePairs (0 : Port).toNat (modSyn 0 (fun x => { x with loopPair := some 63 }) (modLink 0 (fun x => { x with mask := 1, runMask := 1 }) (wr (synStatusR 0) 2 (cpt .up))) : State))).1.1, (periodMeans (0 : Port).toNat (rotatePairs (0 : Port).toNat (modSyn 0 (fun x => { x with loopPair := some 63 }) (modLink 0 (fun x => { x with mask := 1, runMask := 1 }) (wr (synStatusR 0) 2 (cpt .up))) : State))).1.2, (periodMeans (0 : Port).toNat (rotatePairs (0 : Port).toNat (modSyn 0 (fun x => { x with loopPair := some 63 }) (modLink 0 (fun x => { x with mask := 1, runMask := 1 }) (wr (synStatusR 0) 2 (cpt .up))) : State))).2, rfl, _, rfl, _, rfl, by decide +kernel⟩,
   ⟨0, 0, (modSyn 0 (fun x => { x with steps := [(0, 5)] }) (wr (synStatusR 0) 2 S0)), (modSyn 0 (fun x => { x with steps := [(0, 5)] }) (wr (synStatusR 0) 2 S0)), 0, 0, _, rfl, by decide +kernel⟩,
   ⟨0, 0, (wr (synStatusR 63) 2 S0), by decide +kernel⟩,
   ⟨0, (modSyn 0 (fun x => { x with steps := [(0, 5)] }) (wr (synStatusR 0) 2 S0)), 0, 5, [], _, rfl, by decide +kernel⟩,
   ⟨72, (modSyn 72 (fun x => { x with steps := [(0, 5)] }) (wr (rackBase 72 + 4) 3 (wrB (rackBase 72) 4 true S0))), 0, 5, [], _, rfl, by decide +kernel⟩,
   ⟨72, (modSyn 72 (fun x => { x with steps := [(0, 5)] }) (wr (rackSlotR 72 0) 1 S0)), 0, 5, [], _, rfl, by decide +kernel⟩,
   ⟨64, (wr (synStatusR 63) 2 S0), by decide +kernel⟩,
   ⟨0, (wr (synSteerR 0) 0x200000 (modPort 0 (fun x => { x with ramp := true }) S0)), _, rfl, by decide +kernel⟩,
   ⟨0, (wr (synStatusR 63) 2 S0), by decide +kernel⟩,
   ⟨0, (modSyn 0 (fun x => { x with acquire := some (-1048576) }) S0), _, rfl, _, get1 (by decide +kernel), _, rfl, by decide +kernel⟩,
   ⟨0, (wr (synStatusR 63) 2 S0), by decide +kernel⟩⟩
theorem witness_RackRows :
    (∃ i : Pll, ∃ s : State, s.mode = .running ∧ rackPll i.val = true ∧ (rackState s i.val = 3 ∨ rackState s i.val = 6) ∧ rackInputOk s i.val = false) ∧
    (∃ i : Pll, ∃ s : State, s.mode = .running ∧ rackPll i.val = true ∧ rackState s i.val = 5 ∧ rackInputOk s i.val = true) ∧
    (∃ i : Pll, ∃ s : State, s.mode = .running ∧ rackPll i.val = true ∧ (rackState s i.val = 3 ∨ rackState s i.val = 5)) ∧
    (∃ i : Pll, ∃ s : State, s.mode = .running ∧ rackPll i.val = true ∧ rackState s i.val = 6) ∧
    (∃ i : Pll, ∃ s : State, rackPll i.val = false) ∧
    (∃ src : BitVec 2, ∃ s : State, ∃ n : Nat, ∃ q : List Nat, ∃ u : State, (u = bypassEvent 72 (rdF s (outStatus n) 7 6) (each (n :: q) (fun n s => setOutState n 3 s) s)) ∧ s.mode = .running ∧ bypassOk s src.toNat = false ∧ (pllOuts s 72).filter (fun n => outState s n == 2 && bypSrc s n == src.toNat) = n :: q ∧ (pllOuts u 73).filter (fun n => outState u n == 2 && bypSrc u n == src.toNat) = []) ∧
    (∃ src : BitVec 2, ∃ s : State, ∃ n : Nat, ∃ q : List Nat, s.mode = .running ∧ bypassOk s src.toNat = false ∧ (pllOuts s 72).filter (fun n => outState s n == 2 && bypSrc s n == src.toNat) = [] ∧ (pllOuts s 73).filter (fun n => outState s n == 2 && bypSrc s n == src.toNat) = n :: q) ∧
    (∃ src : BitVec 2, ∃ s : State, ∃ n : Nat, ∃ k : Nat, ∃ q : List Nat, ∃ r : List Nat, ∃ u : State, (u = bypassEvent 72 (rdF s (outStatus n) 7 6) (each (n :: q) (fun n s => setOutState n 3 s) s)) ∧ s.mode = .running ∧ bypassOk s src.toNat = false ∧ (pllOuts s 72).filter (fun n => outState s n == 2 && bypSrc s n == src.toNat) = n :: q ∧ (pllOuts u 73).filter (fun n => outState u n == 2 && bypSrc u n == src.toNat) = k :: r) ∧
    (∃ src : BitVec 2, ∃ s : State, bypassOk s src.toNat = true) ∧
    (∃ i : Pll, ∃ band : BitVec 6, ∃ s : State, ∃ x : SynSt, (x = synOf s i.val) ∧ s.mode = .running ∧ rackPll i.val = true ∧ rackBusy s i.val = true ∧ x.search = false ∧ x.enabling = false) ∧
    (∃ i : Pll, ∃ band : BitVec 6, ∃ fresh : Bool, ∃ s : State, ∃ x : SynSt, (x = synOf s i.val) ∧ ∃ u : State, (u = wrF (rackStatus i.val) 7 4 x.target (setRackState i.val 3 (wrB (rackSlotR i.val x.target) 28 true (wrF (rackSlotR i.val x.target) 27 22 band.toNat s)))) ∧ ∃ v : State, (v = (if x.enabling then u else count (rackBase i.val + 0x1C) 1 (count (rackBase i.val + 0x18) 1 u))) ∧ s.mode = .running ∧ rackPll i.val = true ∧ rackBusy s i.val = true ∧ (x.search = true ∨ fresh = true)) ∧
    (∃ i : Pll, ∃ band : BitVec 6, ∃ fresh : Bool, ∃ s : State, (rackPll i.val = false ∨ rackBusy s i.val = false)) ∧
    (∃ s : State, ∃ outs : List Nat, (outs = (List.range 16).filter (fun n => rdB s (outBase n) 6 && outUsed s n && outState s n == 1)) ∧ ∃ u : State, (u = each outs (fun n s => each (followers s n) (fun t s => if hostSynLocked s t then tileLanesLost t (modSyn (64 + t) (fun x => { x with masked := true }) s) else s) (wrB (outStatus n) 3 true (wrB (outBase n) 6 false (spreadTop n s)))) { s with lastClap := some s.time }) ∧ s.mode = .running ∧ domRuns s 78 = true ∧ rdB s clapCtlR 0 = true ∧ s.lastClap.all (fun t => decide (1000 ≤ (s.time - t).toNat)) = true) ∧
    (∃ s : State, ∃ t : BitVec 64, (s.lastClap = some t) ∧ s.mode = .running ∧ domRuns s 78 = true ∧ rdB s clapCtlR 0 = true ∧ (s.time - t).toNat < 1000) ∧
    (∃ s : State, s.mode = .running ∧ domRuns s 78 = false) ∧
    (∃ s : State, domRuns s 78 = true ∧ rdB s clapCtlR 0 = false) :=
  ⟨⟨72, (wr (rackBase 72 + 4) 3 S0), by decide +kernel⟩,
   ⟨73, (wr clkMonStatusR 0x1F (wr (rackBase 73 + 4) 5 S0)), by decide +kernel⟩,
   ⟨72, (wr (rackBase 72 + 4) 3 S0), by decide +kernel⟩,
   ⟨73, (wr (rackBase 73 + 4) 6 S0), by decide +kernel⟩,
   ⟨0, (wr (rackBase 72 + 4) 3 S0), by decide +kernel⟩,
   ⟨1, (wr (outBase 3 + 0x10) 2 (wr (outBase 3) 0x10 S0)), 3, [], _, rfl, by decide +kernel⟩,
   ⟨2, (wr (outBase 3 + 0x10) 2 (wr (outBase 3) 0x21 (wr clkMonStatusR 0 S0))), 3, [], by decide +kernel⟩,
   ⟨1, (wr (outBase 4 + 0x10) 2 (wr (outBase 4) 0x10 (wr (outBase 3 + 0x10) 2 (wr (outBase 3) 0x11 (wr clkMonStatusR 0 S0))))), 4, 3, [], [], _, rfl, by decide +kernel⟩,
   ⟨1, (wr clkMonStatusR 0x1F (wr (rackBase 73 + 4) 5 S0)), by decide +kernel⟩,
   ⟨72, 0, (wr (rackBase 72 + 4) 1 S0), _, rfl, by decide +kernel⟩,
   ⟨72, 0, true, (wr (rackBase 72 + 4) 1 S0), _, rfl, _, rfl, _, rfl, by decide +kernel⟩,
   ⟨72, 0, false, (wr (rackBase 72 + 4) 3 S0), by decide +kernel⟩,
   ⟨(wr clapCtlR 1 S0), _, rfl, _, rfl, by decide +kernel⟩,
   ⟨{ wr clapCtlR 1 S0 with lastClap := some 0, time := 999 }, some1 (by decide +kernel)⟩,
   ⟨(wrF (domBase 78 + 4) 2 0 1 S0), by decide +kernel⟩,
   ⟨(wr (rackBase 72 + 4) 3 S0), by decide +kernel⟩⟩
theorem witness_TransmitRows :
    (∃ l : Pair, ∃ bad : BitVec 2, ∃ lpi : Bool, ∃ s : State, ∃ m : Nat, (m = (linkOfPair s l.toNat).getD l.toNat) ∧ ∃ u : State, (u = trainStart l.toNat m (modPair l.toNat (fun p => { p with sf := p.sf + 1, ownLpi := lpi, farLpiLast := p.farLpi }) s)) ∧ ∃ v : State, (v = modPair l.toNat (fun p => { p with farLpi := p.sfLock }) (sendSlate l.toNat (quietStart l.toNat m (partnerTxStart l.toNat m (cutDecide l.toNat (bad.getLsbD 1) u))))) ∧ ∃ w : State, (w = (if (linkOf v m).state = .leaving ∧ bitGet (pairOf v l.toNat).sf 0 = false ∧ (activePairs v m).head? = some l.toNat then modLink m (fun x => { x with evenCounts := x.evenCounts + 1 }) v else v)) ∧ s.mode = .running ∧ (pairOf s l.toNat).txOn = true ∧ lineFrozen s l.toNat = false ∧ (pairOf u l.toNat).txOn = true) ∧
    (∃ l : Pair, ∃ bad : BitVec 2, ∃ lpi : Bool, ∃ s : State, ∃ m : Nat, (m = (linkOfPair s l.toNat).getD l.toNat) ∧ ∃ u : State, (u = trainStart l.toNat m (modPair l.toNat (fun p => { p with sf := p.sf + 1, ownLpi := lpi, farLpiLast := p.farLpi }) s)) ∧ s.mode = .running ∧ (pairOf s l.toNat).txOn = true ∧ lineFrozen s l.toNat = false ∧ (pairOf u l.toNat).txOn = false) ∧
    (∃ l : Pair, ∃ bad : BitVec 2, ∃ lpi : Bool, ∃ s : State, ((pairOf s l.toNat).txOn = false ∨ lineFrozen s l.toNat = true)) ∧
    (∃ l : Pair, ∃ s : State, ∃ x : Exchange, ((pairOf s l.toNat).exch = some x) ∧ s.mode = .running ∧ lineFrozen s l.toNat = false) ∧
    (∃ l : Pair, ∃ s : State, ((pairOf s l.toNat).exch = none ∨ lineFrozen s l.toNat = true)) ∧
    (∃ p : Port, ∃ bad : BitVec 8, ∃ badNext : BitVec 8, ∃ s : State, ∃ u : State, (u = modPort p.toNat (fun x => { x with period := x.period + 1 }) s) ∧ s.mode = .running ∧ (portOf s p.toNat).periodOn = true ∧ lineFrozen s (8 * p.toNat) = false) ∧
    (∃ p : Port, ∃ bad : BitVec 8, ∃ badNext : BitVec 8, ∃ s : State, ((portOf s p.toNat).periodOn = false ∨ lineFrozen s (8 * p.toNat) = true)) ∧
    (∃ l : Pair, ∃ lpi : Bool, ∃ s : State, ∃ m : Nat, (m = (linkOfPair s l.toNat).getD l.toNat) ∧ s.mode = .running ∧ (pairOf s l.toNat).txOn = true ∧ lineFrozen s l.toNat = false ∧ sendsBody s l.toNat m = false) ∧
    (∃ l : Pair, ∃ lpi : Bool, ∃ s : State, ∃ up : Bool, ∃ p : PairSt, (p = pairOf s l.toNat) ∧ ∃ m : Nat, (m = (linkOfPair s l.toNat).getD l.toNat) ∧ ∃ a : Bool, (a = (if p.quiet then false else !up || (if remoteLoop s m then p.rxAbsent else p.absent || p.xqOff))) ∧ ∃ i : Bool, (i = (p.quiet || (up && (if remoteLoop s m then p.rxLpi else lpi)))) ∧ s.mode = .running ∧ p.txOn = true ∧ lineFrozen s l.toNat = false ∧ sendsBody s l.toNat m = true ∧ up = ((linkOf s m).state == .up || digitalLoop s m) ∧ (a = true ∨ p.quiet = true)) ∧
    (∃ l : Pair, ∃ lpi : Bool, ∃ s : State, ∃ p : PairSt, (p = pairOf s l.toNat) ∧ ∃ m : Nat, (m = (linkOfPair s l.toNat).getD l.toNat) ∧ ∃ x : BitVec 64, ∃ u : State, ((x, u) = draw 7 s) ∧ ∃ f : Nat, ∃ q : Nat, ((f, q) = rowFill p.queue (x.toNat % 32768) (x.toNat / 32768)) ∧ s.mode = .running ∧ p.txOn = true ∧ lineFrozen s l.toNat = false ∧ sendsBody s l.toNat m = true ∧ p.quiet = false ∧ ((linkOf s m).state = .up ∨ digitalLoop s m = true) ∧ (if remoteLoop s m then p.rxAbsent else p.absent || p.xqOff) = false) ∧
    (∃ l : Pair, ∃ s : State, s.mode = .running) ∧
    (∃ l : Pair, ∃ n : BitVec 16, ∃ s : State, s.mode = .running ∧ (pairOf s l.toNat).quiet = false ∧ (pairOf s l.toNat).xqOff = false) ∧
    (∃ l : Pair, ∃ n : BitVec 16, ∃ s : State, ((pairOf s l.toNat).quiet = true ∨ (pairOf s l.toNat).xqOff = true)) :=
  ⟨⟨0, 0, false, (modPair 0 (fun x => { x with txOn := true }) (lk .up S0)), _, rfl, _, rfl, _, rfl, _, rfl, by decide +kernel⟩,
   ⟨0, 0, false, (modPair 0 (fun x => { x with txOn := true, rowLost := true, sf := 1 }) (trn 4 true)), _, rfl, _, rfl, by decide +kernel⟩,
   ⟨511, 0, false, (modPair 0 (fun x => { x with txOn := true }) (lk .up S0)), by decide +kernel⟩,
   ⟨0, (modPair 0 (fun x => { x with exch := some { slot := 1, sf := 4 } }) S0), some1 (by decide +kernel)⟩,
   ⟨511, (modPair 0 (fun x => { x with txOn := true }) (lk .up S0)), by decide +kernel⟩,
   ⟨0, 0, 0, (modPort 0 (fun x => { x with periodOn := true }) S0), _, rfl, by decide +kernel⟩,
   ⟨0, 0, 0, (modPair 0 (fun x => { x with txOn := true }) (lk .up S0)), by decide +kernel⟩,
   ⟨0, false, (modPair 0 (fun x => { x with txOn := true, quiet := true }) (lk .up S0)), _, rfl, by decide +kernel⟩,
   ⟨0, false, (modPair 0 (fun x => { x with txOn := true }) (lk .up S0)), true, _, rfl, _, rfl, _, rfl, _, rfl, by decide +kernel⟩,
   ⟨0, false, (modPair 0 (fun x => { x with txOn := true, absent := false }) (lk .up S0)), _, rfl, _, rfl, _, _, rfl, _, _, rfl, by decide +kernel⟩,
   ⟨511, (modPair 0 (fun x => { x with txOn := true }) (lk .up S0)), by decide +kernel⟩,
   ⟨511, 0, (modPair 0 (fun x => { x with txOn := true }) (lk .up S0)), by decide +kernel⟩,
   ⟨511, 0, (modPair 511 (fun x => { x with xqOff := true }) S0), by decide +kernel⟩⟩
theorem witness_ReceiveAndMeasurementRows :
    (∃ l : Pair, ∃ n : BitVec 7, ∃ sp : Bool, ∃ ms : Word, ∃ s : State, hears s l.toNat = none) ∧
    (∃ l : Pair, ∃ n : BitVec 7, ∃ sp : Bool, ∃ ms : Word, ∃ s : State, ∃ m : Nat, (hears s l.toNat = some m) ∧ (pairOf s l.toNat).sfLock = false ∧ 8 < n.toNat ∧ n.toNat < 56) ∧
    (∃ l : Pair, ∃ n : BitVec 7, ∃ sp : Bool, ∃ inv : Bool, ∃ ms : Word, ∃ s : State, ∃ m : Nat, (hears s l.toNat = some m) ∧ ∃ u : State, (u = (if (pairOf s l.toNat).found = some inv ∧ sp = true then sfGain l.toNat m inv s else modPair l.toNat (fun p => { p with found := some inv }) s)) ∧ (pairOf s l.toNat).sfLock = false ∧ (inv = false ∧ 56 ≤ n.toNat ∨ inv = true ∧ n.toNat ≤ 8)) ∧
    (∃ l : Pair, ∃ n : BitVec 7, ∃ sp : Bool, ∃ ms : Word, ∃ s : State, ∃ m : Nat, (hears s l.toNat = some m) ∧ ∃ p : PairSt, (p = pairOf s l.toNat) ∧ p.sfLock = true ∧ (p.inverted = false ∧ 56 ≤ n.toNat ∨ p.inverted = true ∧ n.toNat ≤ 8)) ∧
    (∃ l : Pair, ∃ n : BitVec 7, ∃ sp : Bool, ∃ ms : Word, ∃ s : State, ∃ m : Nat, (hears s l.toNat = some m) ∧ ∃ p : PairSt, (p = pairOf s l.toNat) ∧ p.sfLock = true ∧ (p.inverted = false ∧ n.toNat < 56 ∨ p.inverted = true ∧ 8 < n.toNat)) ∧
    (∃ l : Pair, ∃ s : State, ∃ m : Nat, (hears s l.toNat = some m)) ∧
    (∃ l : Pair, ∃ r : BitVec 14, ∃ h : BitVec 120, ∃ s : State, ∃ m : Nat, (hears s l.toNat = some m) ∧ ∃ u : State, (u = (if digitalLoop s m then countWide (innerCwR l.toNat) 64 255 s else innerRow l.toNat s)) ∧ ∃ v : State, (v = (if r = 0 then modPair l.toNat (fun p => { p with rxScr := scramblerSeed p.farPair p.sf }) u else u)) ∧ ∃ w : State, (w = (match headerRead h with | some (f, _) => modPair l.toNat (fun p => { p with rxFill := f, rxRow := r.toNat }) v | none => count (rowHdrLostR l.toNat) 1 (modPair l.toNat (fun p => { p with rxRow := r.toNat, rowLost := p.rowLost || ((linkOf v m).phase == 4 && !sfFuture (linkOf v m).phaseSf p.sf) }) v))) ∧ ∃ x : State, (x = perfTally (l.toNat / 64) 0x2A (pairUnit l.toNat) (254 - (pairOf w l.toNat).rxFill) w) ∧ ∃ y : State, (y = modPair l.toNat (fun p => { p with farLpi := p.farLpi && p.rxLpi }) (match headerFlags h with | some (a, i, b) => rxFlags l.toNat a i b x | none => x)) ∧ (pairOf s l.toNat).sfLock = true ∧ (trainOrUp (linkOf s m).state || digitalLoop s m) = true) ∧
    (∃ l : Pair, ∃ r : BitVec 14, ∃ h : BitVec 120, ∃ s : State, (hears s l.toNat = none ∨ (pairOf s l.toNat).sfLock = false)) ∧
    (∃ l : Pair, ∃ s : State, s.mode = .running ∧ (pairOf s l.toNat).quiet = true) ∧
    (∃ l : Pair, ∃ s : State, (pairOf s l.toNat).quiet = false) ∧
    (∃ l : Pair, ∃ e : BitVec 48, ∃ s : State, ∃ m : Nat, (linkOfPair s l.toNat = some m) ∧ s.mode = .running ∧ lineRuns s l.toNat = true ∧ (activePairs s m).contains l.toNat = true ∧ trainOrUp (linkOf s m).state = true ∧ (isFdx (modeOf s m) = true → (pairOf s l.toNat).sfLock = true ∧ ((pairOf s l.toNat).quiet = false ∨ (pairOf s l.toNat).refreshing = true)) ∧ (isCompat (modeOf s m) = true → txPair s l.toNat = false)) ∧
    (∃ l : Pair, ∃ e : BitVec 48, ∃ s : State, ∃ m : Nat, (linkOfPair s l.toNat = some m) ∧ (lineRuns s l.toNat = false ∨ (activePairs s m).contains l.toNat = false ∨ trainOrUp (linkOf s m).state = false ∨ (isFdx (modeOf s m) = true ∧ ((pairOf s l.toNat).sfLock = false ∨ ((pairOf s l.toNat).quiet = true ∧ (pairOf s l.toNat).refreshing = false))) ∨ (isCompat (modeOf s m) = true ∧ txPair s l.toNat = true))) ∧
    (∃ l : Pair, ∃ high : Bool, ∃ n : Word, ∃ s : State, s.mode = .running) :=
  ⟨⟨0, 64, true, 0, (modPair 0 (fun x => { x with quiet := true }) S0), by decide +kernel⟩,
   ⟨0, 9, true, 0, (lk .leaving S0), some1 (by decide +kernel)⟩,
   ⟨0, 64, true, false, 0, (lk .leaving S0), _, get1 (by decide +kernel), _, rfl, by decide +kernel⟩,
   ⟨0, 64, true, 0, (modPair 0 (fun x => { x with sfLock := true, missed := 2 }) (lk .train S0)), _, get1 (by decide +kernel), _, rfl, by decide +kernel⟩,
   ⟨0, 9, true, 0, (modPair 0 (fun x => { x with sfLock := true, missed := 2 }) (lk .train S0)), _, get1 (by decide +kernel), _, rfl, by decide +kernel⟩,
   ⟨0, (lk .leaving S0), some10 (by decide +kernel)⟩,
   ⟨0, 0, (rowHeader 254 8223 7 true false false), (modPair 0 (fun x => { x with sfLock := true, missed := 2 }) (lk .train S0)), _, get1 (by decide +kernel), _, rfl, _, rfl, _, rfl, _, rfl, _, rfl, by decide +kernel⟩,
   ⟨0, 0, (rowHeader 254 8223 7 true false false), (lk .leaving S0), by decide +kernel⟩,
   ⟨0, (modPair 0 (fun x => { x with quiet := true }) S0), by decide +kernel⟩,
   ⟨0, (lk .leaving S0), by decide +kernel⟩,
   ⟨0, 0, SR, some1 (by decide +kernel)⟩,
   ⟨0, 0, (lk .down S0), some1 (by decide +kernel)⟩,
   ⟨0, false, 0, SR, by decide +kernel⟩⟩
theorem witness_SlateRows :
    (∃ l : Pair, ∃ msg : BitVec 64, ∃ off : BitVec 7, ∃ s : State, (hears s l.toNat = none ∨ (pairOf s l.toNat).sfLock = false)) ∧
    (∃ l : Pair, ∃ msg : BitVec 64, ∃ off : BitVec 7, ∃ s : State, ∃ m : Nat, (hears s l.toNat = some m) ∧ (pairOf s l.toNat).sfLock = true ∧ slateCrcOk msg = false) ∧
    (∃ l : Pair, ∃ msg : BitVec 64, ∃ off : BitVec 7, ∃ s : State, ∃ m : Nat, (hears s l.toNat = some m) ∧ (pairOf s l.toNat).sfLock = true ∧ slateCrcOk msg = true ∧ (slateType msg = 0 ∨ 7 ≤ slateType msg)) ∧
    (∃ l : Pair, ∃ msg : BitVec 64, ∃ off : BitVec 7, ∃ s : State, ∃ m : Nat, (hears s l.toNat = some m) ∧ (pairOf s l.toNat).sfLock = true ∧ slateCrcOk msg = true ∧ slateType msg = 1 ∧ trainOrUp (linkOf s m).state = true) ∧
    (∃ l : Pair, ∃ msg : BitVec 64, ∃ off : BitVec 7, ∃ s : State, ∃ m : Nat, (hears s l.toNat = some m) ∧ (pairOf s l.toNat).sfLock = true ∧ slateCrcOk msg = true ∧ slateType msg = 1 ∧ trainOrUp (linkOf s m).state = false) ∧
    (∃ l : Pair, ∃ msg : BitVec 64, ∃ off : BitVec 7, ∃ s : State, ∃ m : Nat, (hears s l.toNat = some m) ∧ (pairOf s l.toNat).sfLock = true ∧ slateCrcOk msg = true ∧ slateType msg = 1 ∧ (linkOf s m).state = .up ∧ slateField msg 43 42 = 3) ∧
    (∃ l : Pair, ∃ msg : BitVec 64, ∃ s : State, ∃ m : Nat, (hears s l.toNat = some m) ∧ (pairOf s l.toNat).sfLock = true ∧ slateCrcOk msg = true ∧ slateType msg = 2) ∧
    (∃ l : Pair, ∃ msg : BitVec 64, ∃ s : State, ∃ m : Nat, (hears s l.toNat = some m) ∧ (pairOf s l.toNat).sfLock = true ∧ slateCrcOk msg = true ∧ slateType msg = 2 ∧ trainOrUp (linkOf s m).state = true ∧ (pairOf s l.toNat).answer.all (fun a => a.sf != slateSf msg || a.seq != slateField msg 39 36) = true ∧ (pairOf s l.toNat).cut.all (fun c => !c.coord || !c.sent || c.acked) = true) ∧
    (∃ l : Pair, ∃ msg : BitVec 64, ∃ s : State, ∃ m : Nat, (hears s l.toNat = some m) ∧ ∃ c : Cut, ((pairOf s l.toNat).cut = some c) ∧ (pairOf s l.toNat).sfLock = true ∧ slateCrcOk msg = true ∧ slateType msg = 3 ∧ trainOrUp (linkOf s m).state = true) ∧
    (∃ l : Pair, ∃ msg : BitVec 64, ∃ s : State, ∃ m : Nat, (hears s l.toNat = some m) ∧ (pairOf s l.toNat).sfLock = true ∧ slateCrcOk msg = true ∧ slateType msg = 3 ∧ (trainOrUp (linkOf s m).state = false ∨ (pairOf s l.toNat).cut = none)) ∧
    (∃ l : Pair, ∃ msg : BitVec 64, ∃ s : State, ∃ m : Nat, (hears s l.toNat = some m) ∧ (pairOf s l.toNat).sfLock = true ∧ slateCrcOk msg = true ∧ (slateType msg = 4 ∨ slateType msg = 5)) ∧
    (∃ l : Pair, ∃ msg : BitVec 64, ∃ s : State, ∃ m : Nat, (hears s l.toNat = some m) ∧ (pairOf s l.toNat).sfLock = true ∧ slateCrcOk msg = true ∧ slateType msg = 6 ∧ (linkOf s m).state = .up ∧ slateField msg 5 4 = 1) ∧
    (∃ l : Pair, ∃ msg : BitVec 64, ∃ s : State, ∃ m : Nat, (hears s l.toNat = some m) ∧ ∃ q : QuietReq, ((pairOf s l.toNat).quietReq = some q) ∧ (pairOf s l.toNat).sfLock = true ∧ slateCrcOk msg = true ∧ slateType msg = 6 ∧ (linkOf s m).state = .up ∧ slateField msg 5 4 ≠ 1) ∧
    (∃ l : Pair, ∃ msg : BitVec 64, ∃ s : State, ∃ m : Nat, (hears s l.toNat = some m) ∧ (pairOf s l.toNat).sfLock = true ∧ slateCrcOk msg = true ∧ slateType msg = 6 ∧ ((linkOf s m).state ≠ .up ∨ (slateField msg 5 4 ≠ 1 ∧ (pairOf s l.toNat).quietReq = none))) ∧
    (∃ l : Pair, ∃ msg : BitVec 64, ∃ off : BitVec 7, ∃ s : State, ∃ m : Nat, (hears s l.toNat = some m) ∧ ∃ t : Nat, (t = slateType msg) ∧ (pairOf s l.toNat).sfLock = true ∧ slateCrcOk msg = true ∧ 1 ≤ t ∧ t < 7 ∧ t ≠ 1) ∧
    (∃ l : Pair, ∃ msg : BitVec 64, ∃ off : BitVec 7, ∃ s : State, ∃ m : Nat, (hears s l.toNat = some m) ∧ ∃ t : Nat, (t = slateType msg) ∧ (pairOf s l.toNat).sfLock = true ∧ slateCrcOk msg = true ∧ 1 ≤ t ∧ t < 7 ∧ t ≠ 2) ∧
    (∃ l : Pair, ∃ msg : BitVec 64, ∃ off : BitVec 7, ∃ s : State, ∃ m : Nat, (hears s l.toNat = some m) ∧ ∃ t : Nat, (t = slateType msg) ∧ (pairOf s l.toNat).sfLock = true ∧ slateCrcOk msg = true ∧ 1 ≤ t ∧ t < 7 ∧ t ≠ 3) ∧
    (∃ l : Pair, ∃ msg : BitVec 64, ∃ off : BitVec 7, ∃ s : State, ∃ m : Nat, (hears s l.toNat = some m) ∧ ∃ t : Nat, (t = slateType msg) ∧ (pairOf s l.toNat).sfLock = true ∧ slateCrcOk msg = true ∧ 1 ≤ t ∧ t < 7 ∧ t ≠ 4 ∧ t ≠ 5) ∧
    (∃ l : Pair, ∃ msg : BitVec 64, ∃ off : BitVec 7, ∃ s : State, ∃ m : Nat, (hears s l.toNat = some m) ∧ ∃ t : Nat, (t = slateType msg) ∧ (pairOf s l.toNat).sfLock = true ∧ slateCrcOk msg = true ∧ 1 ≤ t ∧ t < 7 ∧ t ≠ 6) :=
  ⟨⟨0, 1, 0, S0, by decide +kernel⟩,
   ⟨0, 1, 0, SR, some1 (by decide +kernel)⟩,
   ⟨0, (slateMsg 7 0), 0, SR, some1 (by decide +kernel)⟩,
   ⟨0, (slateMsg 1 0), 0, SR, some1 (by decide +kernel)⟩,
   ⟨0, (slateMsg 1 0), 0, (modPair 0 (fun x => { x with sfLock := true }) (modLink 0 (fun x => { x with road := 3, slave := true }) (lk .listen S0))), some1 (by decide +kernel)⟩,
   ⟨0, (slateMsg 1 0xC000000000), 0, SR, some1 (by decide +kernel)⟩,
   ⟨0, (slateMsg 2 9), SR, some1 (by decide +kernel)⟩,
   ⟨0, (slateMsg 2 9), SR, some1 (by decide +kernel)⟩,
   ⟨0, (slateMsg 3 9), (modPair 0 (fun x => { x with cut := some cut1 }) SR), _, get1 (by decide +kernel), some1 (by decide +kernel)⟩,
   ⟨0, (slateMsg 3 9), SR, some1 (by decide +kernel)⟩,
   ⟨0, (slateMsg 4 0), SR, some1 (by decide +kernel)⟩,
   ⟨0, (slateMsg 6 1), SR, some1 (by decide +kernel)⟩,
   ⟨0, (slateMsg 6 2), (modPair 0 (fun x => { x with quietReq := some quiet1 }) SR), _, get1 (by decide +kernel), some1 (by decide +kernel)⟩,
   ⟨0, (slateMsg 6 1), (modPair 0 (fun x => { x with sfLock := true, missed := 2 }) (lk .train S0)), some1 (by decide +kernel)⟩,
   ⟨0, (slateMsg 2 9), 0, SR, _, get1 (by decide +kernel), _, rfl, by decide +kernel⟩,
   ⟨0, (slateMsg 1 0), 0, SR, _, get1 (by decide +kernel), _, rfl, by decide +kernel⟩,
   ⟨0, (slateMsg 1 0), 0, SR, _, get1 (by decide +kernel), _, rfl, by decide +kernel⟩,
   ⟨0, (slateMsg 1 0), 0, SR, _, get1 (by decide +kernel), _, rfl, by decide +kernel⟩,
   ⟨0, (slateMsg 1 0), 0, SR, _, get1 (by decide +kernel), _, rfl, by decide +kernel⟩⟩
theorem witness_NegotiationRows :
    (∃ l : Pair, ∃ page : Page, ∃ ms : Word, ∃ s : State, ∃ m : Nat, (dmeLink s l.toNat = some m) ∧ ∃ u : State, (u = modLink m (fun x => { x with beacons := false, offer := offerPage x.offer (l.toNat % 8) page }) (modPair l.toNat (fun p => { p with detect := 1 }) (latchLevel l.toNat 2 ms.toNat (timeStamp s) s))) ∧ s.mode = .running) ∧
    (∃ l : Pair, ∃ page : Page, ∃ ms : Word, ∃ s : State, s.mode = .running ∧ dmeLink s l.toNat = none) ∧
    (∃ m : Pair, ∃ off : Word, ∃ s : State, ∃ pref : Bool, (roleOf s m.toNat = some pref) ∧ s.mode = .running ∧ (linkOf s m.toNat).state = .negotiate ∧ fdxChoice s m.toNat ≠ 0 ∧ unexpected (linkOf s m.toNat) = false) ∧
    (∃ m : Pair, ∃ off : Word, ∃ s : State, s.mode = .running ∧ (linkOf s m.toNat).state = .negotiate ∧ fdxChoice s m.toNat ≠ 0 ∧ unexpected (linkOf s m.toNat) = true) ∧
    (∃ m : Pair, ∃ off : Word, ∃ s : State, s.mode = .running ∧ (linkOf s m.toNat).state = .negotiate ∧ fdxChoice s m.toNat ≠ 0 ∧ unexpected (linkOf s m.toNat) = false ∧ roleOf s m.toNat = none) ∧
    (∃ m : Pair, ∃ off : Word, ∃ s : State, s.mode = .running ∧ (linkOf s m.toNat).state = .negotiate ∧ fdxChoice s m.toNat = 0 ∧ compatChoice s m.toNat ≠ 0) ∧
    (∃ m : Pair, ∃ off : Word, ∃ s : State, s.mode = .running ∧ (linkOf s m.toNat).state = .negotiate ∧ fdxChoice s m.toNat = 0 ∧ compatChoice s m.toNat = 0) ∧
    (∃ m : Pair, ∃ off : Word, ∃ s : State, (linkOf s m.toNat).state ≠ .negotiate) ∧
    (∃ m : Pair, ∃ f : BitVec 8, ∃ s : State, ∃ x : LinkSt, (x = linkOf s m.toNat) ∧ ∃ u : State, (u = each ((linkPairs s m.toNat).filter (fun l => f.getLsbD (l % 8) && lineRuns s l)) (fun l s => modPair l (fun p => { p with detect := 3 }) s) s) ∧ ∃ n : Nat, (n = x.mode - 0x10) ∧ s.mode = .running ∧ x.state = .listen ∧ f ≠ 0 ∧ isCompat x.mode = true ∧ x.mode ≠ 0x80 ∧ n ≠ 0 ∧ (linkPairs u m.toNat).any (fun l => !txPair u l && f.getLsbD (l % 8)) = true) ∧
    (∃ m : Pair, ∃ f : BitVec 8, ∃ s : State, ∃ x : LinkSt, (x = linkOf s m.toNat) ∧ ∃ u : State, (u = each ((linkPairs s m.toNat).filter (fun l => f.getLsbD (l % 8) && lineRuns s l)) (fun l s => modPair l (fun p => { p with detect := 3 }) s) s) ∧ ∃ c : Nat, (c = firedRun u m.toNat f) ∧ ∃ n : Nat, (n = (if c = 4 then 4 else if 2 ≤ c then 2 else c)) ∧ s.mode = .running ∧ x.state = .listen ∧ f ≠ 0 ∧ x.mode = 0x80 ∧ n ≠ 0) ∧
    (∃ m : Pair, ∃ f : BitVec 8, ∃ s : State, ∃ x : LinkSt, (x = linkOf s m.toNat) ∧ ∃ u : State, (u = each ((linkPairs s m.toNat).filter (fun l => f.getLsbD (l % 8) && lineRuns s l)) (fun l s => modPair l (fun p => { p with detect := 3 }) s) s) ∧ s.mode = .running ∧ x.state = .listen ∧ f ≠ 0 ∧ ((isCompat x.mode = false ∧ x.mode ≠ 0x80) ∨ (x.mode = 0x80 ∧ firedRun u m.toNat f = 0) ∨ (x.mode ≠ 0x80 ∧ (linkPairs u m.toNat).any (fun l => !txPair u l && f.getLsbD (l % 8)) = false))) ∧
    (∃ m : Pair, ∃ f : BitVec 8, ∃ s : State, ((linkOf s m.toNat).state ≠ .listen ∨ f = 0)) :=
  ⟨⟨0, (.base 0 false), 0, (lk .listen S0), _, get1 (by decide +kernel), _, rfl, by decide +kernel⟩,
   ⟨0, (.base 0 false), 0, (modLink 0 (fun x => { x with state := .negotiate, mode := 0x11, mask := 0x11, runMode := 0, offer := { base := true, compat := 1 } }) S0), by decide +kernel⟩,
   ⟨0, 0, (neg 1 0 2), some1 (by decide +kernel)⟩,
   ⟨0, 0, (neg 1 7 0), by decide +kernel⟩,
   ⟨0, 0, (modLink 0 (fun x => { x with offer := { x.offer with forced := true, pref := 1 } }) (modPort 0 (fun x => { x with force := some (1, true) }) (neg 1 0 1))), by decide +kernel⟩,
   ⟨0, 0, (modLink 0 (fun x => { x with state := .negotiate, mode := 0x11, mask := 0x11, runMode := 0, offer := { base := true, compat := 1 } }) S0), by decide +kernel⟩,
   ⟨0, 0, (lk .negotiate S0), by decide +kernel⟩,
   ⟨0, 0, (lk .listen S0), by decide +kernel⟩,
   ⟨0, 255, (modLink 0 (fun x => { x with state := .listen, mode := 0x11, mask := 0x11 }) S0), _, rfl, _, rfl, _, rfl, by decide +kernel⟩,
   ⟨0, 255, (modLink 0 (fun x => { x with state := .listen, mode := 0x80, mask := 1, runMask := 0 }) S0), _, rfl, _, rfl, _, rfl, _, rfl, by decide +kernel⟩,
   ⟨0, 255, (lk .listen S0), _, rfl, _, rfl, by decide +kernel⟩,
   ⟨0, 255, (neg 1 0 2), by decide +kernel⟩⟩
theorem witness_RoadRows :
    (∃ l : Pair, ∃ b : BitVec 128, ∃ ms : Word, ∃ s : State, ∃ m : Nat, (linkOfPair s l.toNat = some m) ∧ ∃ x : LinkSt, (x = linkOf s m) ∧ ∃ u : State, (u = modPair l.toNat (fun p => { p with detect := 2 }) (latchLevel l.toNat 3 ms.toNat (timeStamp s) s)) ∧ s.mode = .running ∧ x.state = .listen ∧ lineRuns s l.toNat = true ∧ beaconOn s m = true ∧ beaconOk b = true) ∧
    (∃ l : Pair, ∃ b : BitVec 128, ∃ ms : Word, ∃ s : State, ∃ m : Nat, (linkOfPair s l.toNat = some m) ∧ ((linkOf s m).state ≠ .listen ∨ lineRuns s l.toNat = false ∨ beaconOn s m = false ∨ beaconOk b = false)) ∧
    (∃ l : Pair, ∃ b : BitVec 128, ∃ ms : Word, ∃ s : State, linkOfPair s l.toNat = none) ∧
    (∃ m : Pair, ∃ s : State, s.mode = .running ∧ (linkOf s m.toNat).state = .listen) ∧
    (∃ m : Pair, ∃ s : State, (linkOf s m.toNat).state ≠ .listen) ∧
    (∃ m : Pair, ∃ off : Word, ∃ s : State, ∃ pref : Bool, (roleOf s m.toNat = some pref) ∧ ∃ slave : Bool, (slave = portRole s m.toNat pref) ∧ ∃ v : State, (v = fdxStart m.toNat 3 slave off.toInt (modLink m.toNat (fun x => { x with road := 2, runMode := x.mode, runMask := x.mask }) s)) ∧ s.mode = .running ∧ activationPending s = false ∧ (linkOf s m.toNat).state = .listen ∧ (linkOf s m.toNat).beacons = true ∧ (∀ l ∈ linkPairs s m.toNat, (pairOf s l).beaconOk = true)) ∧
    (∃ m : Pair, ∃ off : Word, ∃ s : State, s.mode = .running ∧ activationPending s = false ∧ (linkOf s m.toNat).state = .listen ∧ (linkOf s m.toNat).beacons = true ∧ (∀ l ∈ linkPairs s m.toNat, (pairOf s l).beaconOk = true) ∧ roleOf s m.toNat = none) ∧
    (∃ m : Pair, ∃ off : Word, ∃ s : State, ∃ l : Nat, (activationPending s = true ∨ (linkOf s m.toNat).state ≠ .listen ∨ (linkOf s m.toNat).beacons = false ∨ (l ∈ linkPairs s m.toNat ∧ (pairOf s l).beaconOk = false))) ∧
    (∃ m : Pair, ∃ s : State, s.mode = .running ∧ joinListen (linkOf s m.toNat) = true ∧ (linkOf s m.toNat).slave = true ∧ (∀ l ∈ activePairs s m.toNat, (pairOf s l).sfLock = true)) ∧
    (∃ m : Pair, ∃ s : State, ∃ l : Nat, (joinListen (linkOf s m.toNat) = false ∨ (linkOf s m.toNat).slave = false ∨ (l ∈ activePairs s m.toNat ∧ (pairOf s l).sfLock = false))) :=
  ⟨⟨0, (beac 0), 0, (lk0 .listen S0), _, get1 (by decide +kernel), _, rfl, _, rfl, by decide +kernel⟩,
   ⟨0, (beac 0), 0, (lk .down S0), some1 (by decide +kernel)⟩,
   ⟨0, (beac 0), 0, S0, by decide +kernel⟩,
   ⟨0, (lk0 .listen S0), by decide +kernel⟩,
   ⟨0, S0, by decide +kernel⟩,
   ⟨0, 0, (modPair 0 (fun x => { x with beaconOk := true }) (modLink 0 (fun x => { x with beacons := true, pol := { rolePref := 1 } }) (lk0 .listen S0))), _, get1 (by decide +kernel), _, rfl, _, rfl, by decide +kernel⟩,
   ⟨0, 0, (modPair 0 (fun x => { x with beaconOk := true }) (modLink 0 (fun x => { x with beacons := true, pol := { rolePref := 1, flags := 0 }, offer := { forced := true, pref := 1 } }) (modPort 0 (fun x => { x with force := some (1, true) }) (lk0 .listen S0)))), by decide +kernel⟩,
   ⟨0, 0, (lk0 .listen S0), 0, by decide +kernel⟩,
   ⟨0, (modPair 0 (fun x => { x with sfLock := true }) (modLink 0 (fun x => { x with road := 3, slave := true }) (lk .listen S0))), by decide +kernel⟩,
   ⟨0, (lk0 .listen S0), 0, by decide +kernel⟩⟩
theorem witness_TrainingRows :
    (∃ m : Pair, ∃ s : State, s.mode = .running ∧ (linkOf s m.toNat).state = .train ∧ (linkOf s m.toNat).slave = false ∧ isFdx (modeOf s m.toNat) = true ∧ ((linkOf s m.toNat).road = 1 ∧ (linkOf s m.toNat).phase = 1 ∨ (linkOf s m.toNat).road = 2 ∧ (linkOf s m.toNat).phase = 4)) ∧
    (∃ m : Pair, ∃ s : State, ((linkOf s m.toNat).state ≠ .train ∨ (linkOf s m.toNat).slave = true ∨ ¬((linkOf s m.toNat).road = 1 ∧ (linkOf s m.toNat).phase = 1 ∨ (linkOf s m.toNat).road = 2 ∧ (linkOf s m.toNat).phase = 4))) ∧
    (∃ m : Pair, ∃ s : State, s.mode = .running ∧ (linkOf s m.toNat).state = .train ∧ (linkOf s m.toNat).slave = true ∧ ((linkOf s m.toNat).road = 1 ∧ (linkOf s m.toNat).phase = 1 ∧ allCut s m.toNat = true ∨ (linkOf s m.toNat).road = 2 ∧ (linkOf s m.toNat).phase = 6)) ∧
    (∃ m : Pair, ∃ s : State, ((linkOf s m.toNat).state ≠ .train ∨ (linkOf s m.toNat).slave = false)) ∧
    (∃ m : Pair, ∃ s : State, s.mode = .running ∧ (linkOf s m.toNat).state = .train ∧ (linkOf s m.toNat).phase = 1 ∧ (linkOf s m.toNat).heldAt = false ∧ (linkOf s m.toNat).hold = false ∧ allCut s m.toNat = true) ∧
    (∃ m : Pair, ∃ s : State, s.mode = .running ∧ (linkOf s m.toNat).state = .train ∧ (linkOf s m.toNat).phase ≠ 0 ∧ (linkOf s m.toNat).heldAt = false ∧ phaseDone s m.toNat = true) ∧
    (∃ m : Pair, ∃ s : State, ((linkOf s m.toNat).state ≠ .train ∨ (linkOf s m.toNat).phase = 0 ∨ (linkOf s m.toNat).heldAt = true ∨ phaseDone s m.toNat = false)) ∧
    (∃ m : Pair, ∃ s : State, s.mode = .running ∧ (linkOf s m.toNat).state = .train ∧ (linkOf s m.toNat).phase ≠ 0 ∧ (linkOf s m.toNat).phase ≠ 2 ∧ (linkOf s m.toNat).heldAt = false) ∧
    (∃ m : Pair, ∃ s : State, ((linkOf s m.toNat).state ≠ .train ∨ (linkOf s m.toNat).phase = 0 ∨ (linkOf s m.toNat).phase = 2 ∨ (linkOf s m.toNat).heldAt = true)) ∧
    (∃ l : Pair, ∃ e : BitVec 48, ∃ s : State, ∃ m : Nat, (linkOfPair s l.toNat = some m) ∧ ∃ ok : Bool, (ok = (decide (50 * (linkOf s m).trainPol.snrMin ≤ snrOf 1 e.toNat) && rd s (rowHdrLostR l.toNat) == (pairOf s l.toNat).qHdr && rd s (interpLimitR l.toNat) == (pairOf s l.toNat).qLim && (pairOf s l.toNat).sfLock)) ∧ s.mode = .running ∧ (linkOf s m).state = .train ∧ (linkOf s m).phase = 6 ∧ (activePairs s m).contains l.toNat = true) ∧
    (∃ l : Pair, ∃ e : BitVec 48, ∃ s : State, (linkOfPair s l.toNat).all (fun m => (linkOf s m).state != .train || (linkOf s m).phase != 6 || !(activePairs s m).contains l.toNat) = true) :=
  ⟨⟨0, (trn 1 false), by decide +kernel⟩,
   ⟨0, (trn 1 true), by decide +kernel⟩,
   ⟨0, (trn 1 true), by decide +kernel⟩,
   ⟨0, (trn 1 false), by decide +kernel⟩,
   ⟨0, (trn 1 false), by decide +kernel⟩,
   ⟨0, (trn 1 false), by decide +kernel⟩,
   ⟨0, (trn 6 true), by decide +kernel⟩,
   ⟨0, (trn 1 false), by decide +kernel⟩,
   ⟨0, S0, by decide +kernel⟩,
   ⟨0, 1, (trn 6 true), _, get1 (by decide +kernel), _, rfl, by decide +kernel⟩,
   ⟨0, 1, (trn 1 false), by decide +kernel⟩⟩
theorem witness_CompatAndLeavingRows :
    (∃ l : Pair, ∃ tx : BitVec 128, ∃ s : State, ∃ m : Nat, (linkOfPair s l.toNat = some m) ∧ ∃ t : List Byte, ∃ u : State, ((t, u) = requestTake l.toNat m (leBytes 16 tx.toNat) s) ∧ ∃ k : Nat, (anySlot u l.toNat = some k) ∧ ∃ v : State, (v = takeWords 0x22 0 l.toNat k 4096 (writeTake l.toNat k t u)) ∧ ∃ w : State, (w = entryCut l.toNat k (setSlot l.toNat k slVerified false v)) ∧ s.mode = .running ∧ (linkOf s m).state = .train ∧ isCompat (modeOf s m) = true ∧ (activePairs s m).contains l.toNat = true ∧ txPair s l.toNat = true) ∧
    (∃ l : Pair, ∃ tx : BitVec 128, ∃ s : State, ∃ m : Nat, (linkOfPair s l.toNat = some m) ∧ ∃ t : List Byte, ∃ u : State, ((t, u) = requestTake l.toNat m (leBytes 16 tx.toNat) s) ∧ s.mode = .running ∧ (linkOf s m).state = .train ∧ isCompat (modeOf s m) = true ∧ (activePairs s m).contains l.toNat = true ∧ txPair s l.toNat = true ∧ anySlot u l.toNat = none) ∧
    (∃ l : Pair, ∃ tx : BitVec 128, ∃ s : State, (linkOfPair s l.toNat).all (fun m => (linkOf s m).state != .train || !isCompat (modeOf s m) || !(activePairs s m).contains l.toNat || !txPair s l.toNat) = true) ∧
    (∃ m : Pair, ∃ s : State, compatTrains s m.toNat = true ∧ (∀ l ∈ activePairs s m.toNat, laneTrained s l = true)) ∧
    (∃ m : Pair, ∃ s : State, ∃ l : Nat, (compatTrains s m.toNat = false ∨ (l ∈ activePairs s m.toNat ∧ laneTrained s l = false))) ∧
    (∃ l : Pair, ∃ s : State, ∃ m : Nat, (linkOfPair s l.toNat = some m)) ∧
    (∃ l : Pair, ∃ s : State, linkOfPair s l.toNat = none) ∧
    (∃ m : Pair, ∃ s : State, s.mode = .running ∧ (isFdx (modeOf s m.toNat) = false ∨ 2 ≤ (linkOf s m.toNat).evenCounts ∨ (activePairs s m.toNat).any (fun l => (pairOf s l).txOn) = false)) ∧
    (∃ m : Pair, ∃ s : State, isFdx (modeOf s m.toNat) = true ∧ (linkOf s m.toNat).evenCounts < 2 ∧ (activePairs s m.toNat).any (fun l => (pairOf s l).txOn) = true) ∧
    (∃ m : Pair, ∃ s : State, s.mode = .running ∧ (linkOf s m.toNat).state = .holdoff ∧ ((linkOf s m.toNat).synthWait = false ∨ synState s (m.toNat / 8) = 2)) ∧
    (∃ m : Pair, ∃ s : State, ((linkOf s m.toNat).state ≠ .holdoff ∨ ((linkOf s m.toNat).synthWait = true ∧ synState s (m.toNat / 8) ≠ 2))) :=
  ⟨⟨0, 0, (cpt .train), _, get1 (by decide +kernel), _, _, rfl, _, get1 (by decide +kernel), _, rfl, _, rfl, by decide +kernel⟩,
   ⟨0, 0, (wr (slotStateR 0) 0x11111111 (cpt .train)), _, get1 (by decide +kernel), _, _, rfl, by decide +kernel⟩,
   ⟨4, 0, (cpt .train), by decide +kernel⟩,
   ⟨0, (modPair 4 (fun x => { x with onSyn := true, rxReady := true }) (modPair 0 (fun x => { x with rxReady := true }) (cpt .train))), by decide +kernel⟩,
   ⟨4, (cpt .train), 0, by decide +kernel⟩,
   ⟨4, (cpt .train), some10 (by decide +kernel)⟩,
   ⟨4, (modLink 0 (fun x => { x with evenCounts := 2 }) (lk .leaving S0)), by decide +kernel⟩,
   ⟨4, (cpt .train), by decide +kernel⟩,
   ⟨0, (modPair 0 (fun x => { x with txOn := true }) (lk .up S0)), by decide +kernel⟩,
   ⟨0, (lk .holdoff S0), by decide +kernel⟩,
   ⟨4, (cpt .train), by decide +kernel⟩⟩
theorem witness_GradingRows :
    (∃ t : Tile, ∃ s : State, ∃ r : LoadReq, ∃ q : List LoadReq, s.mode = .running ∧ (tileOf s t.toNat).resetting = false ∧ (tileOf s t.toNat).loader = r :: q) ∧
    (∃ t : Tile, ∃ s : State, ((tileOf s t.toNat).resetting = true ∨ (tileOf s t.toNat).loader = [])) ∧
    (∃ t : Tile, ∃ s : State, ∃ r : LoadReq, ∃ q : List LoadReq, s.mode = .running ∧ (tileOf s t.toNat).resetting = false ∧ mramHold s = false ∧ (tileOf s t.toNat).loader = r :: q) ∧
    (∃ t : Tile, ∃ s : State, mramHold s = true) ∧
    (∃ l : Pair, ∃ t : BitVec 16, ∃ s : State, ∃ u : State, (u = timerWake (holdEnds l.toNat { s with temps := tabPut 0 s.temps (l.toNat / 8) t })) ∧ ∃ m : Nat, (linkOfPair u l.toNat = some m) ∧ ∃ b : List Byte, (activeTake u l.toNat = some b)) ∧
    (∃ l : Pair, ∃ t : BitVec 16, ∃ s : State, ∃ u : State, (u = timerWake (holdEnds l.toNat { s with temps := tabPut 0 s.temps (l.toNat / 8) t })) ∧ (linkOfPair u l.toNat = none ∨ activeTake u l.toNat = none)) ∧
    (∃ l : Pair, ∃ s : State, ∃ u : State, (u = timerWake s) ∧ ∃ m : Nat, (linkOfPair u l.toNat = some m) ∧ ∃ b : List Byte, (activeTake u l.toNat = some b)) ∧
    (∃ l : Pair, ∃ s : State, ∃ u : State, (u = timerWake s) ∧ (linkOfPair u l.toNat = none ∨ activeTake u l.toNat = none)) ∧
    (∃ g : Group, ∃ s : State, ∃ r : Run, (nextRun s g.toNat = some r) ∧ ∃ f : Run → Run, ∃ u : State, ((f, u) = runStart r s) ∧ s.mode = .running ∧ graderOn s g.toNat = true ∧ (runsOf s g.toNat).any (fun r => r.started) = false) ∧
    (∃ g : Group, ∃ s : State, (graderOn s g.toNat = false ∨ (runsOf s g.toNat).any (fun r => r.started) = true ∨ nextRun s g.toNat = none)) ∧
    (∃ g : Group, ∃ s : State, ∃ r : Run, ((runsOf s g.toNat).find? (fun r => r.started && !r.profile) = some r) ∧ ∃ c : Capture, ((capsOf s (r.pair / 8)).find? (fun c => c.owner == 1 && c.pair == r.pair && c.state == 3) = some c) ∧ ∃ u : State, (u = foldInto g.toNat (capDrop (r.pair / 8) (fun c => c.owner == 1 && c.pair == r.pair) (areaWords 0x21 (0xB + g.toNat % 2) (r.pair / 8) 0 recordLen s))) ∧ s.mode = .running ∧ graderOn s g.toNat = true) ∧
    (∃ g : Group, ∃ s : State, (graderOn s g.toNat = false ∨ (runsOf s g.toNat).find? (fun r => r.started && !r.profile) = none)) ∧
    (∃ g : Group, ∃ s : State, ∃ r : Run, ((runsOf s g.toNat).find? (fun r => r.started && !r.profile) = some r) ∧ (capsOf s (r.pair / 8)).find? (fun c => c.owner == 1 && c.pair == r.pair && c.state == 3) = none) ∧
    (∃ l : Pair, ∃ a : List Byte, ∃ b : List Byte, ∃ cs : List Cluster, ∃ s : State, ∃ r : Run, (findRun s l.toNat = some r) ∧ ∃ m : Nat, (linkOfPair s l.toNat = some m) ∧ s.mode = .running ∧ r.started = true ∧ r.retake = true ∧ r.segs = 8) ∧
    (∃ l : Pair, ∃ a : List Byte, ∃ b : List Byte, ∃ cs : List Cluster, ∃ s : State, (linkOfPair s l.toNat = none ∨ (findRun s l.toNat).all (fun r => !r.started || !r.retake || r.segs != 8) = true)) :=
  ⟨⟨0, (modTile 0 (fun x => { x with loader := [req1] }) S0), req1, [], by decide +kernel⟩,
   ⟨0, calUp, by decide +kernel⟩,
   ⟨0, (modTile 0 (fun x => { x with loader := [req1] }) S0), req1, [], by decide +kernel⟩,
   ⟨0, (wrB pwrSupplyStatusR 16 true S0), by decide +kernel⟩,
   ⟨0, 49, calUp, _, rfl, _, get1 (by decide +kernel), some10 (by decide +kernel)⟩,
   ⟨0, 49, (modTile 0 (fun x => { x with loader := [req1] }) S0), _, rfl, by decide +kernel⟩,
   ⟨0, calUp, _, rfl, _, get1 (by decide +kernel), some10 (by decide +kernel)⟩,
   ⟨0, (modTile 0 (fun x => { x with loader := [req1] }) S0), _, rfl, by decide +kernel⟩,
   ⟨0, (rn { pair := 0, cls := 1, retake := true }), _, get1 (by decide +kernel), _, _, rfl, by decide +kernel⟩,
   ⟨0, (modTile 0 (fun x => { x with loader := [req1] }) S0), by decide +kernel⟩,
   ⟨0, { rn { pair := 0, cls := 1, started := true, segs := 6 } with captures := [(0, [{ owner := 1, state := 3 }])] }, _, get1 (by decide +kernel), _, get1 (by decide +kernel), _, rfl, by decide +kernel⟩,
   ⟨0, (modTile 0 (fun x => { x with loader := [req1] }) S0), by decide +kernel⟩,
   ⟨0, (rn run1), some1 (by decide +kernel)⟩,
   ⟨0, (takeAt calUp 0 0), (takeAt calUp 0 0), [], (rn run1), _, get1 (by decide +kernel), some1 (by decide +kernel)⟩,
   ⟨0, (takeAt calUp 0 0), (takeAt calUp 0 0), [], (modTile 0 (fun x => { x with loader := [req1] }) S0), by decide +kernel⟩⟩
theorem witness_CaptureRows :
    (∃ m : Pair, ∃ s : State, s.mode = .running ∧ s.contDue.contains m.toNat = true ∧ mramReady s = false) ∧
    (∃ m : Pair, ∃ s : State, s.contDue.contains m.toNat = true ∧ mramReady s = true ∧ (mramHold s = true ∨ supHalted s = true)) ∧
    (∃ m : Pair, ∃ s : State, s.contDue.contains m.toNat = false) ∧
    (∃ m : Pair, ∃ s : State, ∃ i : Nat, ∃ e : Bool, ((i, e) = contPlace s (linkOf s m.toNat).serial (linkOf s m.toNat).port (m.toNat / 8)) ∧ ∃ b : List Byte, ∃ u : State, ((b, u) = contRecord m.toNat (s.contUse + 1) (contEvicted e i s)) ∧ s.mode = .running ∧ s.contDue.contains m.toNat = true ∧ mramReady s = true ∧ mramHold s = false ∧ supHalted s = false) ∧
    (∃ p : Port, ∃ pos : BitVec 27, ∃ ring : BitVec 14, ∃ s : State, ∃ c : Capture, ∃ q : List Capture, ∃ x : Nat × Nat, (x = captureFirst ((eight (8 * p.toNat)).any (fun l => (pairOf s l).txOn)) c pos.toNat ring.toNat) ∧ ∃ h : List Byte, ∃ u : State, ((h, u) = segHeader p.toNat c pos.toNat x.1 x.2 s) ∧ s.mode = .running ∧ capsOf s p.toNat = c :: q ∧ c.state = 1 ∧ triggerCame s p.toNat c pos.toNat = true ∧ retakeSpaced s p.toNat c x.1 = true) ∧
    (∃ p : Port, ∃ pos : BitVec 27, ∃ ring : BitVec 14, ∃ s : State, (capsOf s p.toNat).head?.all (fun c => c.state != 1 || !triggerCame s p.toNat c pos.toNat || !retakeSpaced s p.toNat c (captureFirst ((eight (8 * p.toNat)).any (fun l => (pairOf s l).txOn)) c pos.toNat ring.toNat).1) = true) ∧
    (∃ p : Port, ∃ data : List Byte, ∃ s : State, ∃ c : Capture, ∃ q : List Capture, ∃ d : Capture, (d = { c with header := c.header.take 0x5C ++ leBytes 1 (c.live.toNat &&& liveMask s p.toNat) ++ c.header.drop 0x5D }) ∧ ∃ u : State, (u = areaWords 0x22 0xD p.toNat 0 recordLen (areaPut p.toNat 0 (segRecord d data) (putCaps p.toNat ({ d with state := 3, etag := none } :: q) s))) ∧ s.mode = .running ∧ capsOf s p.toNat = c :: q ∧ c.state = 2) ∧
    (∃ p : Port, ∃ data : List Byte, ∃ s : State, (capsOf s p.toNat).head?.all (fun c => c.state != 2) = true) ∧
    (∃ p : Port, ∃ s : State, ∃ c : Capture, ∃ q : List Capture, s.mode = .running ∧ capsOf s p.toNat = c :: q) ∧
    (∃ p : Port, ∃ s : State, capsOf s p.toNat = []) ∧
    (∃ p : Port, ∃ s : State, ∃ f : InFlight, ((running s 0x0403 3 p.toNat).head? = some f) ∧ ∃ c : Capture, (doneCapture s p.toNat = some c) ∧ ∃ off : Nat, (off = leAt f.cmd.params 8 4) ∧ ∃ len : Nat, (len = (if leAt f.cmd.params 12 4 = 0 then recordLen - off else leAt f.cmd.params 12 4)) ∧ ∃ b : List Byte, ∃ u : State, ((b, u) = areaRead p.toNat off len (areaWords 0x21 0xE p.toNat off len s)) ∧ ∃ v : State, (v = hostWriteBy 0xE (leAt f.cmd.params 0 8) b u) ∧ s.mode = .running) ∧
    (∃ p : Port, ∃ s : State, ∃ f : InFlight, ((running s 0x0403 3 p.toNat).head? = some f) ∧ doneCapture s p.toNat = none) ∧
    (∃ p : Port, ∃ s : State, running s 0x0403 3 p.toNat = []) :=
  ⟨⟨511, (wr clkEnR 0 { S0 with contDue := [511] }), by decide +kernel⟩,
   ⟨511, (wrB fwStateR 4 true { S0 with contDue := [511] }), by decide +kernel⟩,
   ⟨511, (caps { owner := 0, state := 1 }), by decide +kernel⟩,
   ⟨511, { S0 with contDue := [511] }, _, _, rfl, _, _, rfl, by decide +kernel⟩,
   ⟨0, 0, 0, (caps { owner := 0, state := 1, trigger := 1 }), { owner := 0, state := 1, trigger := 1 }, [], _, rfl, _, _, rfl, by decide +kernel⟩,
   ⟨0, 0, 0, (wr clkEnR 0 { S0 with contDue := [511] }), by decide +kernel⟩,
   ⟨0, [], (caps { owner := 0, state := 2 }), { owner := 0, state := 2 }, [], _, rfl, _, rfl, by decide +kernel⟩,
   ⟨0, [], (wr clkEnR 0 { S0 with contDue := [511] }), by decide +kernel⟩,
   ⟨0, (caps { owner := 0, state := 1 }), { owner := 0, state := 1 }, [], by decide +kernel⟩,
   ⟨0, (wr clkEnR 0 { S0 with contDue := [511] }), by decide +kernel⟩,
   ⟨0, (modCmd (fun x => { x with inflight := [flU] }) (caps { owner := 0, state := 3 })), _, get1 (by decide +kernel), _, get1 (by decide +kernel), _, rfl, _, rfl, _, _, rfl, _, rfl, by decide +kernel⟩,
   ⟨0, (modPort 0 (fun x => { x with cableTest := some 0, cableMask := 0x80 }) (modCmd (fun x => { x with inflight := [flU] }) S0)), some1 (by decide +kernel)⟩,
   ⟨0, (wr clkEnR 0 { S0 with contDue := [511] }), by decide +kernel⟩⟩
theorem witness_DiagnosticRows :
    (∃ p : Port, ∃ cs : List Cluster, ∃ far : BitVec 2, ∃ len : Word, ∃ next : List (BitVec 16), ∃ s : State, ∃ x : PortSt, (x = portOf s p.toNat) ∧ ∃ e : Nat, (x.cableTest = some e) ∧ ∃ k : Nat, ((List.range 8).find? (fun j => x.cableMask.getLsbD j) = some k) ∧ ∃ c : Cmd, (c = ((s.cmd.inflight.find? (fun f => f.etag == e)).map (fun f => f.cmd)).getD {}) ∧ ∃ bad : Bool, ∃ d : Nat, ∃ vp : Nat, ((bad, d, vp) = cableParams c.params 2) ∧ ∃ out : List Byte, (out = x.cableOut ++ cableRecord s (8 * p.toNat + k) d vp cs far.toNat len.toNat) ∧ ∃ nx : List Byte, (nx = x.cableNext ++ ((List.range 8).filter (fun j => decide (k < j) && (leAt c.params 0 1).testBit j)).flatMap (fun j => leBytes 1 k ++ leBytes 1 j ++ leBytes 2 (next.getD j 0).toNat)) ∧ ∃ left : BitVec 8, (left = x.cableMask &&& ~~~(BitVec.ofNat 8 (2 ^ k))) ∧ ∃ u : State, (u = modPort p.toNat (fun x => { x with cableTest := none, cableMask := 0, cableOut := [], cableNext := [] }) s) ∧ s.mode = .running ∧ atFdxClock s p.toNat = true) ∧
    (∃ p : Port, ∃ cs : List Cluster, ∃ far : BitVec 2, ∃ len : Word, ∃ next : List (BitVec 16), ∃ s : State, ((portOf s p.toNat).cableTest = none ∨ (portOf s p.toNat).cableMask = 0 ∨ atFdxClock s p.toNat = false)) ∧
    (∃ n : Lane, ∃ k : Word, ∃ s : State, ∃ e : Nat, ((laneOf s n.toNat).scan = some e) ∧ ∃ f : InFlight, (s.cmd.inflight.find? (fun x => x.etag == e) = some f) ∧ ∃ g : List Int × List Nat × Nat, (eyeGrid f.cmd.params = some g) ∧ ∃ u : State, (u = hostWriteBy 5 (leAt f.cmd.params 0 8 + 4 * (laneOf s n.toNat).scanPoint) (leBytes 4 k.toNat) s) ∧ s.mode = .running) ∧
    (∃ n : Lane, ∃ k : Word, ∃ s : State, ∃ x : LaneSt, (x = laneOf s n.toNat) ∧ ∃ e : Nat, (x.auto = some e) ∧ ∃ u : State, (u = (if x.autoArea < k.toNat ∨ x.scanPoint = 0 then modLane n.toNat (fun y => { y with autoBest := x.scanPoint, autoArea := k.toNat }) s else s)) ∧ s.mode = .running ∧ x.scan = none) ∧
    (∃ n : Lane, ∃ k : Word, ∃ s : State, (laneOf s n.toNat).scan = none ∧ (laneOf s n.toNat).auto = none) ∧
    (∃ p : Port, ∃ cs : List (BitVec 48), ∃ um : BitVec 8, ∃ s : State, ∃ counted : Nat → Nat → Bool, ∃ u : State, (u = wrF (utilR p.toNat 0) 31 16 (rdF s (utilR p.toNat 0) 31 16 + 1) s) ∧ ∃ un : Nat, (un = ((List.range 8).filter (fun k => !(counted k 0 && counted k 1))).foldl (fun a k => a + 2 ^ k) 0) ∧ s.mode = .running ∧ utilBoundary s p.toNat = true ∧ s.utilDiscard.contains p.toNat = false ∧ (∀ k dir, counted k dir = (!um.getLsbD k && streamMonitored u p.toNat k dir))) ∧
    (∃ p : Port, ∃ cs : List (BitVec 48), ∃ um : BitVec 8, ∃ s : State, ∃ u : State, (u = wrF (utilR p.toNat 0) 31 16 (rdF s (utilR p.toNat 0) 31 16 + 1) s) ∧ s.mode = .running ∧ utilBoundary s p.toNat = true ∧ s.utilDiscard.contains p.toNat = true) ∧
    (∃ p : Port, ∃ cs : List (BitVec 48), ∃ um : BitVec 8, ∃ s : State, utilBoundary s p.toNat = false) ∧
    (∃ g : Group, ∃ recs : List PairMeasure, ∃ s : State, ∃ r : Run, ((runsOf s g.toNat).find? (fun r => r.profile && r.started) = some r) ∧ ∃ c : Capture, ((capsOf s (r.pair / 8)).find? (fun c => c.owner == 2 && c.state == 3) = some c) ∧ ∃ now : List Nat, (now = (activePairs s r.pair).map (fun l => (pairOf s l).cuts)) ∧ ∃ seen : List Nat, (seen = (if r.fails = 0 then (activePairs s r.pair).map (fun l => c.cuts.getD (l % 8) 0) else r.slots)) ∧ ∃ u : State, (u = capDrop (r.pair / 8) (fun c => c.owner == 2) (putRuns g.toNat ((runsOf s g.toNat).filter (fun q => q != r)) s)) ∧ ∃ bad : Bool, ∃ d : Nat, ∃ vp : Nat, ((bad, d, vp) = cableParams (((s.cmd.inflight.find? (fun f => f.etag == r.etag)).map (fun f => f.cmd.params)).getD []) 0) ∧ ∃ body : List Byte, (body = (((activePairs s r.pair).zip (List.range 8)).map (fun x => profileRecord s r.pair x.1 d vp (recs.getD x.2 ⟨[], [], [], 0, 0⟩))).flatten) ∧ s.mode = .running ∧ (linkOf s r.pair).state = .up) ∧
    (∃ g : Group, ∃ recs : List PairMeasure, ∃ s : State, ∃ r : Run, ((runsOf s g.toNat).find? (fun r => r.profile && r.started) = some r) ∧ ∃ c : Capture, ((capsOf s (r.pair / 8)).find? (fun c => c.owner == 2 && c.state == 3) = some c) ∧ s.mode = .running ∧ (linkOf s r.pair).state ≠ .up) ∧
    (∃ g : Group, ∃ recs : List PairMeasure, ∃ s : State, (runsOf s g.toNat).find? (fun r => r.profile && r.started) = none) :=
  ⟨⟨0, [], 0, 0, [], (modPort 0 (fun x => { x with cableTest := some 0, cableMask := 0x80 }) (modCmd (fun x => { x with inflight := [flU] }) (wr (synStatusR 0) 2 S0))), _, rfl, _, get1 (by decide +kernel), _, get1 (by decide +kernel), _, rfl, _, _, _, rfl, _, rfl, _, rfl, _, rfl, _, rfl, by decide +kernel⟩,
   ⟨63, [], 0, 0, [], (modPort 0 (fun x => { x with cableTest := some 0, cableMask := 0x80 }) (modCmd (fun x => { x with inflight := [flU] }) S0)), by decide +kernel⟩,
   ⟨4, 0, (modLane 4 (fun x => { x with scan := some 0 }) (modCmd (fun x => { x with inflight := [flE] }) S0)), _, get1 (by decide +kernel), _, get1 (by decide +kernel), _, get1 (by decide +kernel), _, rfl, by decide +kernel⟩,
   ⟨4, 0, (modLane 4 (fun x => { x with auto := some 0 }) S0), _, rfl, _, get1 (by decide +kernel), _, rfl, by decide +kernel⟩,
   ⟨4, 0, (modPort 0 (fun x => { x with cableTest := some 0, cableMask := 0x80 }) (modCmd (fun x => { x with inflight := [flU] }) S0)), by decide +kernel⟩,
   ⟨0, [], 0, S0, fun k dir => (!(0 : BitVec 8).getLsbD k && streamMonitored (wrF (utilR 0 0) 31 16 (rdF S0 (utilR 0 0) 31 16 + 1) S0) 0 k dir), _, rfl, _, rfl, rfl, by decide +kernel, by decide +kernel, fun _ _ => rfl⟩,
   ⟨63, [], 0, { S0 with utilDiscard := [63] }, _, rfl, by decide +kernel⟩,
   ⟨63, [], 0, { wr clapCtlR 1 S0 with lastClap := some 0, time := 999 }, by decide +kernel⟩,
   ⟨0, [], { modLink 0 (fun x => { x with state := .up }) rnd with captures := [(0, [{ owner := 2, state := 3 }])] }, _, get1 (by decide +kernel), _, get1 (by decide +kernel), _, rfl, _, rfl, _, rfl, _, _, _, rfl, _, rfl, by decide +kernel⟩,
   ⟨0, [], { rnd with captures := [(0, [{ owner := 2, state := 3 }])] }, _, get1 (by decide +kernel), some1 (by decide +kernel)⟩,
   ⟨0, [], (modPort 0 (fun x => { x with cableTest := some 0, cableMask := 0x80 }) (modCmd (fun x => { x with inflight := [flU] }) S0)), by decide +kernel⟩⟩
theorem witness_HostLaneRows :
    (∃ n : Lane, ∃ p : BitVec 512, ∃ t : Word, ∃ k : BitVec 16, ∃ a : HalfSign, ∃ b : HalfSign, ∃ s : State, ∃ v : State, (v = halvesIn n.toNat b (halvesIn n.toNat a (count (hlStuffErr n.toNat) k.toNat s))) ∧ ∃ u : Nat, (mkDecode (if (laneOf v n.toNat).invLevels then ~~~p else p) = some u) ∧ ∃ w : State, (w = keepMarker n.toNat u t v) ∧ s.mode = .running ∧ laneIsTx n.toNat = false ∧ laneEnabled s n.toNat = true ∧ laneState s n.toNat = 2) ∧
    (∃ n : Lane, ∃ p : BitVec 512, ∃ t : Word, ∃ k : BitVec 16, ∃ a : HalfSign, ∃ b : HalfSign, ∃ s : State, ∃ v : State, (v = halvesIn n.toNat b (halvesIn n.toNat a (count (hlStuffErr n.toNat) k.toNat s))) ∧ s.mode = .running ∧ laneIsTx n.toNat = false ∧ laneEnabled s n.toNat = true ∧ laneState s n.toNat = 2 ∧ mkDecode (if (laneOf v n.toNat).invLevels then ~~~p else p) = none) ∧
    (∃ n : Lane, ∃ p : BitVec 512, ∃ t : Word, ∃ k : BitVec 16, ∃ a : HalfSign, ∃ b : HalfSign, ∃ s : State, s.mode = .running ∧ laneIsTx n.toNat = false ∧ laneEnabled s n.toNat = true ∧ (laneState s n.toNat = 1 ∨ laneState s n.toNat = 4)) ∧
    (∃ n : Lane, ∃ p : BitVec 512, ∃ t : Word, ∃ k : BitVec 16, ∃ a : HalfSign, ∃ b : HalfSign, ∃ s : State, ∃ u : Nat, (mkDecode (if mkInverted p then ~~~p else p) = some u) ∧ s.mode = .running ∧ laneIsTx n.toNat = false ∧ laneEnabled s n.toNat = true ∧ laneState s n.toNat = 1 ∧ (laneOf s n.toNat).settled = false ∧ u.testBit 66 = true ∧ laneState (laneFault n.toNat 2 s) n.toNat ≠ 2) ∧
    (∃ n : Lane, ∃ p : BitVec 512, ∃ t : Word, ∃ k : BitVec 16, ∃ a : HalfSign, ∃ b : HalfSign, ∃ s : State, (s.mode ≠ .running ∨ laneIsTx n.toNat = true ∨ laneEnabled s n.toNat = false ∨ laneState s n.toNat = 0 ∨ laneState s n.toNat = 3 ∨ 5 ≤ laneState s n.toNat)) ∧
    (∃ n : Lane, ∃ s : State, s.mode = .running ∧ laneIsTx n.toNat = false ∧ laneState s n.toNat = 2) ∧
    (∃ n : Lane, ∃ s : State, rxLocked s n.toNat = true) ∧
    (∃ n : Lane, ∃ s : State, ∃ u : State, (u = modLane n.toNat (fun x => { x with searching := false }) s) ∧ rxLocked s n.toNat = true ∧ (laneOf s n.toNat).searching = true) ∧
    (∃ n : Lane, ∃ k : Word, ∃ s : State, rxLocked s n.toNat = true) ∧
    (∃ n : Lane, ∃ b : Bool, ∃ k : Word, ∃ s : State, rxLocked s n.toNat = false) ∧
    (∃ n : Lane, ∃ b : Bool, ∃ s : State, (laneOf s n.toNat).searching = false) ∧
    (∃ p : Port, ∃ f : List Word, ∃ s : State, s.mode = .running) ∧
    (∃ l : Pair, ∃ w : Word, ∃ s : State, s.mode = .running) ∧
    (∃ p : Port, ∃ f : List Word, ∃ l : Pair, ∃ w : Word, ∃ s : State, s.mode ≠ .running) :=
  ⟨⟨4, (BitVec.ofNat 512 mk1), 0, 0, .data, .data, (lane 4 2), _, rfl, _, get1 (by decide +kernel), _, rfl, by decide +kernel⟩,
   ⟨4, 0, 0, 0, .data, .data, (lane 4 2), _, rfl, by decide +kernel⟩,
   ⟨4, (BitVec.ofNat 512 mk1), 0, 0, .data, .data, (lane 4 1), by decide +kernel⟩,
   ⟨4, (markerPayload (markerUnit 0 true false false false 0 1)), 0, 0, .data, .data, (lane 4 1), some1 (by decide +kernel)⟩,
   ⟨4, (BitVec.ofNat 512 mk1), 0, 0, .data, .data, (lane 511 2), by decide +kernel⟩,
   ⟨4, (lane 4 2), by decide +kernel⟩,
   ⟨4, (lane 4 2), by decide +kernel⟩,
   ⟨4, (modLane 4 (fun x => { x with searching := true }) (lane 4 2)), _, rfl, by decide +kernel⟩,
   ⟨4, 0, (lane 4 2), by decide +kernel⟩,
   ⟨4, false, 0, (lane 511 2), by decide +kernel⟩,
   ⟨4, false, (lane 4 2), by decide +kernel⟩,
   ⟨63, [], (lane 507 2), by decide +kernel⟩,
   ⟨511, 0, (lane 507 2), by decide +kernel⟩,
   ⟨63, [], 511, 0, { S0 with mode := .off }, by decide +kernel⟩⟩
theorem witness_ResetAndMonitorRows :
    (∃ k : BitVec 3, ∃ u : Pair, ∃ s : State, k.toNat < 5) ∧
    (∃ l : Pair, ∃ n : Word, ∃ s : State, s.mode = .running ∧ ((pairOf s l.toNat).xqOff = true ∨ queueHalf s l.toNat = true)) ∧
    (∃ l : Pair, ∃ n : Word, ∃ s : State, (s.mode ≠ .running ∨ (pairOf s l.toNat).xqOff = false ∧ queueHalf s l.toNat = false)) ∧
    (∃ l : Pair, ∃ n : List (BitVec 32), ∃ s : State, rsInstance s l.toNat 0 = true) ∧
    (∃ l : Pair, ∃ n : List (BitVec 32), ∃ s : State, rsInstance s l.toNat 1 = true ∧ (rsSet (wrB (rsMonStatusR l.toNat 1) 0 true s) l.toNat 1).any (fun k => !(pairOf s k).rsOpen) = true) :=
  ⟨⟨0, 511, (modPair 511 (fun x => { x with restarting := true }) S0), by decide +kernel⟩,
   ⟨511, 0, (modPair 511 (fun x => { x with restarting := true }) S0), by decide +kernel⟩,
   ⟨511, 0, (wr (rsMonStatusR 511 1) 4 S0), by decide +kernel⟩,
   ⟨0, [], (wr (rsMonStatusR 0 0) 4 S0), by decide +kernel⟩,
   ⟨0, [], (modPair 0 (fun x => { x with rsOpen := false }) (wr (rsMonStatusR 0 1) 4 S0)), by decide +kernel⟩⟩
theorem witness_IntegrityRows :
    (∃ b : MemBank, ∃ off : BitVec 24, ∃ x : Bool, ∃ h : Holds, ∃ s : State, s.mode = .running ∧ bankPowered s b = true) ∧
    (∃ b : MemBank, ∃ off : BitVec 24, ∃ x : Bool, ∃ h : Holds, ∃ s : State, ∃ u : State, (u = { s with badWords := s.badWords.filter (fun x => x != (bankKey b, bankWord b off.toNat)) }) ∧ ∃ v : State, (v = count (bankRegs b) 1 u) ∧ s.mode = .running ∧ bankPowered s b = true ∧ (v.corrAt.find? (fun e => e.1 == bankKey b)).all (fun e => decide (e.2.toNat + 1000000000 ≤ v.time.toNat)) = true) ∧
    (∃ b : MemBank, ∃ off : BitVec 24, ∃ x : Bool, ∃ h : Holds, ∃ s : State, ∃ u : State, (u = { s with badWords := s.badWords.filter (fun x => x != (bankKey b, bankWord b off.toNat)) }) ∧ ∃ v : State, (v = count (bankRegs b) 1 u) ∧ s.mode = .running ∧ bankPowered s b = true ∧ (v.corrAt.find? (fun e => e.1 == bankKey b)).any (fun e => decide (v.time.toNat < e.2.toNat + 1000000000)) = true) ∧
    (∃ b : MemBank, ∃ off : BitVec 24, ∃ x : Bool, ∃ h : Holds, ∃ s : State, ∃ v : State, ∃ u : State, (u = (if x then { s with badWords := s.badWords.filter (fun x => x != (bankKey b, bankWord b off.toNat)) } else s)) ∧ s.mode = .running ∧ bankPowered s b = true ∧ (u.badWords.contains (bankKey b, bankWord b off.toNat) = true → v = u) ∧ (u.badWords.contains (bankKey b, bankWord b off.toNat) = false → v = raise 0x0006 (bankUnit b) (bankName b) (wr (bankRegs b + 8) (BitVec.ofNat 32 (bankAddr b off.toNat)) (count (bankRegs b + 4) 1 (wordDecoded b off.toNat { u with badWords := u.badWords ++ [(bankKey b, bankWord b off.toNat)] }))))) ∧
    (∃ b : MemBank, ∃ off : BitVec 24, ∃ f : Found, ∃ x : Bool, ∃ h : Holds, ∃ s : State, (s.mode ≠ .running ∨ bankPowered s b = false)) ∧
    (∃ a : BitVec 28, ∃ x : Word, ∃ s : State, s.mode = .running ∧ tmrBits a.toNat ≠ 0 ∧ (addrDomain a.toNat).any (fun d => domState s d == 4) = false) ∧
    (∃ a : BitVec 28, ∃ m : Bool, ∃ x : Word, ∃ s : State, (tmrBits a.toNat = 0 ∨ (addrDomain a.toNat).any (fun d => domState s d == 4) = true)) ∧
    (∃ s : State, s.mode = .running) :=
  ⟨⟨(.port 63), 0, false, .other, S0, by decide +kernel⟩,
   ⟨(.port 63), 0, false, .other, S0, _, rfl, _, rfl, by decide +kernel⟩,
   ⟨(.hub 0), 0, false, .other, { S0 with corrAt := [(0, 0)], time := 5 }, _, rfl, _, rfl, by decide +kernel⟩,
   ⟨(.hub 0), 0, true, .other, S0, (raise 0x0006 (bankUnit (.hub 0)) (bankName (.hub 0)) (wr (bankRegs (.hub 0) + 8) (BitVec.ofNat 32 (bankAddr (.hub 0) 0)) (count (bankRegs (.hub 0) + 4) 1 (wordDecoded (.hub 0) 0 { S0 with badWords := S0.badWords ++ [(bankKey (.hub 0), bankWord (.hub 0) 0)] })))), _, rfl, by decide +kernel⟩,
   ⟨(.port 63), 0, .clean, false, .other, { S0 with mode := .off }, by decide +kernel⟩,
   ⟨0x20000, 0, S0, by decide +kernel⟩,
   ⟨0, false, 0, S0, by decide +kernel⟩,
   ⟨S0, by decide +kernel⟩⟩
theorem witness_OperatorRows :
    (∃ b : List Word, ∃ s : State, ∃ u : State, (u = modFw (fun f => { f with heartbeats := (List.range 20).map (fun k => (k, (b.getD k 0).toNat)) }) s) ∧ s.mode = .running ∧ rdB s operWdtCfgR 7 = true ∧ inRecovery s = false ∧ supHalted s = false ∧ s.fw.restarting = none ∧ s.fw.patching = none) ∧
    (∃ b : List Word, ∃ s : State, (rdB s operWdtCfgR 7 = false ∨ inRecovery s = true ∨ supHalted s = true ∨ s.fw.restarting.isSome = true ∨ s.fw.patching.isSome = true)) ∧
    (∃ c : BitVec 3, ∃ s : State, ∃ x : Nat, (s.fw.restarting = some x) ∧ ∃ u : State, (u = operatorStops noTag (modFw (fun f => { f with restartTimes := restartsNow s }) s)) ∧ s.mode = .running ∧ supHalted s = false ∧ (domRuns s 79 = true ∨ domState s 79 = 4 ∨ rdB s clkEnR 4 = false)) ∧
    (∃ c : BitVec 3, ∃ s : State, ∃ x : Nat, (s.fw.restarting = some x) ∧ s.mode = .running ∧ supHalted s = false ∧ domRuns s 79 = false ∧ domState s 79 ≠ 4 ∧ rdB s clkEnR 4 = true) ∧
    (∃ c : BitVec 3, ∃ s : State, (s.fw.restarting = none ∨ supHalted s = true)) ∧
    (∃ c : BitVec 3, ∃ s : State, ∃ e : Nat, (s.fw.activating = some e) ∧ ∃ k : Nat, ∃ u : State, ((k, u) = (if domState s 79 = 4 ∨ rdB s clkEnR 4 = false then (1, s) else verifyBank (stagingBank s 0) c.toNat s)) ∧ ∃ v : State, (v = modFw (fun f => { f with activating := none, verified := f.verified.filter (fun x => x != stagingBank s 0) }) u) ∧ ∃ t : State, (t = operatorStops e (wrB fwStateR 2 false (wrB fwStateR 0 (stagingBank s 0 == 1) v))) ∧ s.mode = .running ∧ supHalted s = false ∧ s.fw.restarting = none ∧ quiescent s = true ∧ (domRuns s 79 = true ∨ domState s 79 = 4 ∨ rdB s clkEnR 4 = false)) ∧
    (∃ c : BitVec 3, ∃ s : State, ∃ e : Nat, (s.fw.activating = some e) ∧ s.mode = .running ∧ supHalted s = false ∧ s.fw.restarting = none ∧ quiescent s = true ∧ domRuns s 79 = false ∧ domState s 79 ≠ 4 ∧ rdB s clkEnR 4 = true) ∧
    (∃ c : BitVec 3, ∃ s : State, (s.fw.activating = none ∨ supHalted s = true ∨ s.fw.restarting.isSome = true ∨ quiescent s = false)) ∧
    (∃ s : State, ∃ e : Nat, (s.fw.patching = some e) ∧ ∃ u : State, (u = modFw (fun f => { f with patching := none, verified := f.verified.filter (fun x => x != stagingBank s 1) }) s) ∧ s.mode = .running ∧ supHalted s = false) ∧
    (∃ s : State, (s.fw.patching = none ∨ supHalted s = true)) ∧
    (∃ y : Bool, ∃ s : State, ∃ n : Nat, (n = leAt (tabGet [] s.fw.headers (activeBank s (b2n y))) 0xC 2)) ∧
    (∃ v : View, ∃ a : BitVec 28, ∃ w : Word, ∃ s : State, s.mode = .running ∧ supHalted s = false ∧ pathRefused v a.toNat w s = true) ∧
    (∃ v : View, ∃ a : BitVec 28, ∃ w : Word, ∃ s : State, s.mode = .running ∧ supHalted s = false ∧ pathRefused v a.toNat w s = false ∧ changesLocked a.toNat w s = true) ∧
    (∃ v : View, ∃ a : BitVec 28, ∃ w : Word, ∃ s : State, supHalted s = true) ∧
    (∃ v : View, ∃ a : BitVec 28, ∃ w : Word, ∃ i : RegInfo, ∃ s : State, ∃ u : State, (u = served .supervisor a.toNat true s) ∧ ∃ k : Word × State, (k = keepReserved .supervisor a.toNat (rd u a.toNat) w u) ∧ s.mode = .running ∧ supHalted s = false ∧ pathRefused v a.toNat w s = false ∧ changesLocked a.toNat w s = false ∧ a.toNat ≠ refSelR ∧ writes .supervisor a.toNat i s = true) :=
  ⟨⟨[], (modFw (fun f => { f with heartbeats := [(3, 0)] }) (wr operWdtCfgR 0x8A S0)), _, rfl, by decide +kernel⟩,
   ⟨[], (modFw (fun f => { f with restarting := some 1 }) S0), by decide +kernel⟩,
   ⟨0, (modFw (fun f => { f with restarting := some 1 }) S0), _, get1 (by decide +kernel), _, rfl, by decide +kernel⟩,
   ⟨0, (modFw (fun f => { f with restarting := some 1 }) (wrF (domBase 79 + 4) 2 0 1 S0)), some1 (by decide +kernel)⟩,
   ⟨0, (modFw (fun f => { f with heartbeats := [(3, 0)] }) (wr operWdtCfgR 0x8A S0)), by decide +kernel⟩,
   ⟨0, (actv []), _, get1 (by decide +kernel), _, _, rfl, _, rfl, _, rfl, by decide +kernel⟩,
   ⟨0, (modFw (fun f => { f with activating := some 0 }) (wrF (domBase 79 + 4) 2 0 1 S0)), some1 (by decide +kernel)⟩,
   ⟨0, (modFw (fun f => { f with heartbeats := [(3, 0)] }) (wr operWdtCfgR 0x8A S0)), by decide +kernel⟩,
   ⟨(modFw (fun f => { f with patching := some 0 }) S0), _, get1 (by decide +kernel), _, rfl, by decide +kernel⟩,
   ⟨(modFw (fun f => { f with heartbeats := [(3, 0)] }) (wr operWdtCfgR 0x8A S0)), by decide +kernel⟩,
   ⟨false, (modFw (fun f => { f with heartbeats := [(3, 0)] }) (wr operWdtCfgR 0x8A S0)), _, rfl⟩,
   ⟨.pcie, 0x100200, 0, (modFw (fun f => { f with heartbeats := [(3, 0)] }) (wr operWdtCfgR 0x8A S0)), by decide +kernel⟩,
   ⟨.pcie, (BitVec.ofNat 28 (rackSlotR 72 0)), 1, (wr lockCtlR 1 S0), by decide +kernel⟩,
   ⟨.pcie, 0x100200, 0, (wrB fwStateR 4 true SP), by decide +kernel⟩,
   ⟨.pcie, 0x60004, 0, (regInfo ((0x60004 : BitVec 28).toNat)).getD {}, (modFw (fun f => { f with heartbeats := [(3, 0)] }) (wr operWdtCfgR 0x8A S0)), _, rfl, _, rfl, by decide +kernel⟩⟩
theorem witness_EnumerationAndForwardingRows :
    (∃ v : Byte, ∃ s : State, chainRuns s = true ∧ isManager s = false) ∧
    (∃ v : Byte, ∃ s : State, ∃ e : Nat, chainRuns s = true ∧ isManager s = true ∧ s.chain.enum = some (e, 1)) ∧
    (∃ v : Byte, ∃ s : State, isManager s = true ∧ s.chain.enum.all (fun x => x.2 != 1) = true ∧ chainRuns s = true) ∧
    (∃ s : State, chainRuns s = true ∧ isManager s = false) ∧
    (∃ s : State, ∃ e : Nat, ∃ n : Nat, (n = s.chain.token - 1) ∧ ∃ u : State, (u = wrB chainStateR 6 (decide (62 < n)) (wrF chainStateR 23 16 (min n 62) (modChain (fun c => { c with enum := none, lost := 0 }) s))) ∧ chainRuns s = true ∧ isManager s = true ∧ s.chain.enum = some (e, 2)) ∧
    (∃ s : State, isManager s = true ∧ s.chain.enum.all (fun x => x.2 != 2) = true ∧ chainRuns s = true) ∧
    (∃ s : State, ∃ e : Nat, ∃ k : Nat, (s.chain.enum = some (e, k))) ∧
    (∃ s : State, s.chain.enum = none) ∧
    (∃ v : Byte, ∃ s : State, chainRuns s = true) ∧
    (∃ f : Fate, ∃ v : Byte, ∃ s : State, chainRuns s = false) ∧
    (∃ op : BitVec 16, ∃ c : Cmd, ∃ s : State, chainRuns s = true ∧ tagsFree s = 0) ∧
    (∃ op : BitVec 16, ∃ c : Cmd, ∃ s : State, ∃ g : InFlight, (g = { etag := freeTag s, opcode := op.toNat, cmd := { c with path := .chain } }) ∧ chainRuns s = true ∧ tagsFree s ≠ 0) ∧
    (∃ e : BitVec 12, ∃ a : BitVec 6, ∃ st : BitVec 16, ∃ r : List Byte, ∃ s : State, chainRuns s = true ∧ s.cmd.inflight.find? (fun g => g.etag == e.toNat) = none) ∧
    (∃ e : BitVec 12, ∃ a : BitVec 6, ∃ st : BitVec 16, ∃ r : List Byte, ∃ s : State, ∃ g : InFlight, (s.cmd.inflight.find? (fun g => g.etag == e.toNat) = some g) ∧ chainRuns s = true ∧ g.waitFor.testBit a.toNat = false) ∧
    (∃ e : BitVec 12, ∃ a : BitVec 6, ∃ st : BitVec 16, ∃ r : List Byte, ∃ s : State, ∃ g : InFlight, (s.cmd.inflight.find? (fun g => g.etag == e.toNat) = some g) ∧ chainRuns s = true ∧ g.waitFor.testBit a.toNat = true) ∧
    (∃ a : BitVec 6, ∃ n : Word, ∃ k : BitVec 16, ∃ u : BitVec 16, ∃ t : BitVec 64, ∃ d : BitVec 64, ∃ b : Bool, ∃ s : State, chainRuns s = true ∧ isManager s = true) ∧
    (∃ a : BitVec 6, ∃ n : Word, ∃ k : BitVec 16, ∃ u : BitVec 16, ∃ t : BitVec 64, ∃ d : BitVec 64, ∃ b : Bool, ∃ s : State, chainRuns s = true ∧ isManager s = false) ∧
    (∃ op : BitVec 16, ∃ c : Cmd, ∃ e : BitVec 12, ∃ a : BitVec 6, ∃ st : BitVec 16, ∃ r : List Byte, ∃ n : Word, ∃ k : BitVec 16, ∃ u : BitVec 16, ∃ t : BitVec 64, ∃ d : BitVec 64, ∃ b : Bool, ∃ f : Fate, ∃ s : State, ∃ v : State, (v = (if chainRuns s = false then s else if f = .badCrc then count chainCrcErrR 1 s else count chainHopDropR 1 s)) ∧ f ≠ .good) ∧
    (∃ op : BitVec 16, ∃ c : Cmd, ∃ e : BitVec 12, ∃ a : BitVec 6, ∃ st : BitVec 16, ∃ r : List Byte, ∃ n : Word, ∃ k : BitVec 16, ∃ u : BitVec 16, ∃ t : BitVec 64, ∃ d : BitVec 64, ∃ b : Bool, ∃ s : State, chainRuns s = false) :=
  ⟨⟨62, SW, by decide +kernel⟩,
   ⟨62, (modChain (fun c => { c with enum := some (0, 1) }) SM), 0, by decide +kernel⟩,
   ⟨62, (modChain (fun c => { c with enum := some (0, 2) }) SM), by decide +kernel⟩,
   ⟨SW, by decide +kernel⟩,
   ⟨(modChain (fun c => { c with enum := some (0, 2) }) SM), 0, _, rfl, _, rfl, by decide +kernel⟩,
   ⟨(modChain (fun c => { c with enum := some (0, 1) }) SM), by decide +kernel⟩,
   ⟨(modChain (fun c => { c with enum := some (0, 1) }) SM), some20 (by decide +kernel)⟩,
   ⟨SW, by decide +kernel⟩,
   ⟨62, SW, by decide +kernel⟩,
   ⟨.good, 62, { S0 with mode := .off }, by decide +kernel⟩,
   ⟨0x101, {}, (modCmd (fun x => { x with inflight := List.replicate 4096 { etag := 0 } }) SW), by decide +kernel⟩,
   ⟨0x101, {}, SW, _, rfl, by decide +kernel⟩,
   ⟨0, 5, 0x101, [], SW, by decide +kernel⟩,
   ⟨0, 5, 0x101, [], (modCmd (fun x => { x with inflight := List.replicate 4096 { etag := 0 } }) SW), some1 (by decide +kernel)⟩,
   ⟨0, 5, 0x101, [], (modCmd (fun x => { x with inflight := [fwd2] }) SM), some1 (by decide +kernel)⟩,
   ⟨5, 0, 0x101, 0x101, 0, 0, false, SM, by decide +kernel⟩,
   ⟨5, 0, 0x101, 0x101, 0, 0, false, (modCmd (fun x => { x with inflight := List.replicate 4096 { etag := 0 } }) SW), by decide +kernel⟩,
   ⟨0x101, {}, 0, 5, 0x101, [], 0, 0x101, 0x101, 0, 0, false, .badCrc, (modCmd (fun x => { x with inflight := List.replicate 4096 { etag := 0 } }) SW), _, rfl, by decide +kernel⟩,
   ⟨0x101, {}, 0, 5, 0x101, [], 0, 0x101, 0x101, 0, 0, false, { S0 with mode := .off }, by decide +kernel⟩⟩
theorem witness_ChainTimeRows :
    (∃ f : TimeFrame, ∃ r : Word, ∃ s : State, chainRuns s = true ∧ isManager s = true) ∧
    (∃ f : TimeFrame, ∃ r : Word, ∃ s : State, chainRuns s = true ∧ isManager s = false ∧ isAddressed s = false) ∧
    (∃ f : TimeFrame, ∃ r : Word, ∃ s : State, ∃ off : Int, (off = chainEstimate f s - s.time.toNat * 1000) ∧ ∃ u : State, (u = wr chainTimeOfsR (BitVec.ofInt 32 off) (timePass f r.toNat s)) ∧ chainRuns s = true ∧ isManager s = false ∧ isAddressed s = true) ∧
    (∃ f : TimeFrame, ∃ r : Word, ∃ s : State, ∃ u : State, (u = modChain (fun c => { c with returns := c.returns + 1 }) (presence f.present (undeclared f r.toNat (wr chainRtR (BitVec.ofNat 32 r.toNat) s)))) ∧ chainRuns s = true ∧ isManager s = true ∧ (u.chain.returns < 2 ∨ rdB u chainStateR 2 = true)) ∧
    (∃ f : TimeFrame, ∃ r : Word, ∃ s : State, ∃ u : State, (u = modChain (fun c => { c with returns := c.returns + 1 }) (presence f.present (undeclared f r.toNat (wr chainRtR (BitVec.ofNat 32 r.toNat) s)))) ∧ chainRuns s = true ∧ isManager s = true ∧ 2 ≤ u.chain.returns ∧ rdB u chainStateR 2 = false ∧ u.chain.broken = true) ∧
    (∃ f : TimeFrame, ∃ r : Word, ∃ s : State, ∃ u : State, (u = modChain (fun c => { c with returns := c.returns + 1 }) (presence f.present (undeclared f r.toNat (wr chainRtR (BitVec.ofNat 32 r.toNat) s)))) ∧ chainRuns s = true ∧ isManager s = true ∧ 2 ≤ u.chain.returns ∧ rdB u chainStateR 2 = false ∧ u.chain.broken = false) ∧
    (∃ f : TimeFrame, ∃ r : Word, ∃ s : State, isManager s = false ∧ chainRuns s = true) ∧
    (∃ s : State, ∃ u : State, (u = modChain (fun c => { c with returns := 0 }) s) ∧ ∃ v : State, (v = (if rdB u chainStateR 2 then forwardedDown (raise 0x0D08 unitDev (leBytes 1 0xFF) (modChain (fun c => { c with broken := true }) (wrB chainStateR 2 false u))) else u))) ∧
    (∃ b : Byte, ∃ s : State, ∃ u : State, (u = modChain (fun c => { c with returns := 0 }) s) ∧ ∃ v : State, (v = (if rdB u chainStateR 2 then forwardedDown (raise 0x0D08 unitDev (leBytes 1 b.toNat) (modChain (fun c => { c with broken := true }) (wrB chainStateR 2 false u))) else u)) ∧ chainRuns s = true) ∧
    (∃ f : TimeFrame, ∃ r : Word, ∃ b : Byte, ∃ t : Fate, ∃ s : State, ∃ v : State, (v = (if chainRuns s = false then s else if t = .badCrc then count chainCrcErrR 1 s else count chainHopDropR 1 s)) ∧ (t ≠ .good ∨ chainRuns s = false)) :=
  ⟨⟨tf0, 0, SM, by decide +kernel⟩,
   ⟨tf0, 0, SW, by decide +kernel⟩,
   ⟨tf0, 0, (wr chainStateR 2 SW), _, rfl, _, rfl, by decide +kernel⟩,
   ⟨tf0, 0, SM, _, rfl, by decide +kernel⟩,
   ⟨tf0, 0, (modChain (fun c => { c with returns := 1, broken := true }) (wr chainInDelayR 1 (wr chainStateR 3 SM))), _, rfl, by decide +kernel⟩,
   ⟨tf0, 0, (modChain (fun c => { c with returns := 1 }) (wr chainInDelayR 1 (wr chainStateR 3 SM))), _, rfl, by decide +kernel⟩,
   ⟨tf0, 0, SW, by decide +kernel⟩,
   ⟨SM, _, rfl, _, rfl⟩,
   ⟨0, SM, _, rfl, _, rfl, by decide +kernel⟩,
   ⟨tf0, 0, 0, .good, (wr clkEnR 0 S0), _, rfl, by decide +kernel⟩⟩
theorem witness_EpochRows :
    (∃ f : EpochFrame, ∃ s : State, chainRuns s = true ∧ chainAddr s = none) ∧
    (∃ f : EpochFrame, ∃ s : State, ∃ a : Nat, (chainAddr s = some a) ∧ chainRuns s = true ∧ isManager s = true) ∧
    (∃ f : EpochFrame, ∃ s : State, ∃ a : Nat, (chainAddr s = some a) ∧ chainRuns s = true ∧ isManager s = false ∧ f.kind = 2) ∧
    (∃ f : EpochFrame, ∃ s : State, ∃ a : Nat, (chainAddr s = some a) ∧ chainRuns s = true ∧ isManager s = false ∧ f.kind = 1) ∧
    (∃ f : EpochFrame, ∃ s : State, ∃ x : Bool, ∃ y : Bool, ∃ z : Bool, ∃ a : Nat, (chainAddr s = some a) ∧ chainRuns s = true ∧ isManager s = false ∧ f.kind ≠ 1 ∧ f.kind ≠ 2 ∧ epochAnswer s f.action.toNat (72 + b2n f.pll) = (x, y, z)) ∧
    (∃ f : EpochFrame, ∃ s : State, chainRuns s = true ∧ epochCommand s f.id = none) ∧
    (∃ f : EpochFrame, ∃ s : State, ∃ g : InFlight, (epochCommand s f.id = some g) ∧ chainRuns s = true ∧ leAt g.cmd.params 8 1 = 4) ∧
    (∃ f : EpochFrame, ∃ s : State, ∃ g : InFlight, (epochCommand s f.id = some g) ∧ chainRuns s = true ∧ leAt g.cmd.params 8 1 ≠ 4 ∧ (f.busy ≠ 0 ∨ f.reject ≠ 0)) ∧
    (∃ f : EpochFrame, ∃ s : State, ∃ g : InFlight, (epochCommand s f.id = some g) ∧ chainRuns s = true ∧ leAt g.cmd.params 8 1 ≠ 4 ∧ f.busy = 0 ∧ f.reject = 0) ∧
    (∃ f : EpochFrame, ∃ t : Fate, ∃ s : State, ∃ v : State, (v = (if chainRuns s = false then s else if t = .badCrc then count chainCrcErrR 1 s else count chainHopDropR 1 s)) ∧ (t ≠ .good ∨ chainRuns s = false)) ∧
    (∃ id : Word, ∃ s : State, ∃ g : InFlight, (epochCommand s id = some g)) ∧
    (∃ id : Word, ∃ s : State, epochCommand s id = none) ∧
    (∃ id : Word, ∃ s : State, ∃ x : Epoch, (epochOf s id = some x)) ∧
    (∃ id : Word, ∃ s : State, epochOf s id = none) ∧
    (∃ s : State, ∃ t : BitVec 64, (s.pulse = some t)) ∧
    (∃ s : State, s.pulse = none) ∧
    (∃ i : Pll, ∃ s : State, ∃ j : Nat, ∃ k : Nat, ∃ t : BitVec 64, ∃ u : State, (u = { s with hops := tabErase s.hops i.val }) ∧ s.hops.find? (fun h => h.1 == i.val) = some (j, k, t)) ∧
    (∃ i : Pll, ∃ s : State, ∃ u : State, (u = { s with hops := tabErase s.hops i.val }) ∧ s.hops.find? (fun h => h.1 == i.val) = none) :=
  ⟨⟨{ ef0 with kind := 2 }, (modChain (fun c => { c with epochs := [ep1] }) SW), by decide +kernel⟩,
   ⟨{ ef0 with kind := 2 }, (modCmd (fun x => { x with inflight := [epf] }) SM), some1 (by decide +kernel)⟩,
   ⟨{ ef0 with kind := 2 }, (wr chainStateR 0x502 SW), some1 (by decide +kernel)⟩,
   ⟨{ ef0 with kind := 1 }, (wr chainStateR 0x502 SW), some1 (by decide +kernel)⟩,
   ⟨ef0, (wr chainStateR 0x502 SW), true, false, false, some1 (by decide +kernel)⟩,
   ⟨{ ef0 with kind := 2 }, (wr chainStateR 0x502 SW), by decide +kernel⟩,
   ⟨{ ef0 with kind := 2 }, (modCmd (fun x => { x with inflight := [{ epf with cmd := { cls := 9, params := zeros 8 ++ [4, 0, 0, 0, 0, 0, 0, 0] } }] }) SM), some1 (by decide +kernel)⟩,
   ⟨{ ef0 with busy := 1 }, (modCmd (fun x => { x with inflight := [epf] }) SM), some1 (by decide +kernel)⟩,
   ⟨{ ef0 with kind := 2 }, (modCmd (fun x => { x with inflight := [epf] }) SM), some1 (by decide +kernel)⟩,
   ⟨{ ef0 with kind := 2 }, .good, { S0 with mode := .off }, _, rfl, by decide +kernel⟩,
   ⟨1, (modCmd (fun x => { x with inflight := [epf] }) SM), some10 (by decide +kernel)⟩,
   ⟨1, (wr chainStateR 0x502 SW), by decide +kernel⟩,
   ⟨1, (modChain (fun c => { c with epochs := [ep1] }) SW), some10 (by decide +kernel)⟩,
   ⟨1, (wr chainStateR 0x502 SW), by decide +kernel⟩,
   ⟨{ S0 with pulse := some 0 }, some10 (by decide +kernel)⟩,
   ⟨(wr chainStateR 0x502 SW), by decide +kernel⟩,
   ⟨73, { wr (rackBase 73 + 4) 3 S0 with hops := [(73, 4, 0)] }, 73, 4, 0, _, rfl, by decide +kernel⟩,
   ⟨73, (wr chainStateR 0x502 SW), _, rfl, by decide +kernel⟩⟩

end Sys2Proof.Tests
end

section
/-! PROOFS. The gearbox overflow (R44) and the row header (R42). -/
namespace Sys2Proof.Proofs
open Sys2Proof Sys2Proof.Machine Sys2Proof.Laws

/-! ### Where the registers of a pair lie (R389, R390) -/

/-- The registers of a pair lie above the hub's. -/
theorem tile_le_pairBase (l : Nat) : 0x1000000 ≤ pairBase l := by
  unfold pairBase portBase tileBase; omega

/-- Pair blocks begin at multiples of 64 KB. -/
theorem pairBase_mod (l : Nat) : pairBase l % 0x10000 = 0 := by
  unfold pairBase portBase tileBase; omega

theorem tile_le_synCtl (i : Nat) : 0x1000000 ≤ synCtl i := by
  unfold synCtl synBase portBase tileBase; split <;> omega

/-- A synthesizer block has the place in its 64 KB that no register of a pair has. -/
theorem synCtl_mod (i : Nat) : synCtl i % 0x10000 = 0x1000 := by
  unfold synCtl synBase portBase tileBase; split <;> omega

theorem hlBreak_mod (n : Nat) : 0x2000 ≤ hlBreak n % 0x10000 := by
  unfold hlBreak laneBase portBase tileBase; omega

theorem synCtl_ne_gbxOverflowR (i l : Nat) : synCtl i ≠ gbxOverflowR l := by
  have hs := synCtl_mod i
  have hp := pairBase_mod l
  unfold gbxOverflowR; omega

theorem rowHdrLostR_ne_hlBreak (l n : Nat) : rowHdrLostR l ≠ hlBreak n := by
  have hb := hlBreak_mod n
  have hp := pairBase_mod l
  unfold rowHdrLostR; omega

theorem rowHdrLostR_ne_quietWakeR (l : Nat) : rowHdrLostR l ≠ quietWakeR l := by
  unfold rowHdrLostR quietWakeR; omega

/-! ### What an event and a wide counter leave -/

/-- An event changes no register above the event collector's but the counter of events that the chain drops. -/
theorem rd_raise_other {code : Nat} {unit : BitVec 16} {data : List Byte} {s : State} {a : Nat}
    (ha : 0x30020 ≤ a) (hc : a ≠ chainHopDropR) : rd (raise code unit data s) a = rd s a := by
  obtain ⟨_, _, _, _, _, h⟩ := raise_writes code unit data s
  exact h a (by unfold evtLastSeqR; omega) (by unfold evtlogDropR; omega) (by unfold evtFullCntR; omega)
    (by unfold evtRingStatusR; omega) hc

/-- An event changes no register of a tile. -/
theorem rd_raise_tile {code : Nat} {unit : BitVec 16} {data : List Byte} {s : State} {a : Nat} (ha : 0x1000000 ≤ a) :
    rd (raise code unit data s) a = rd s a :=
  rd_raise_other (by omega) (by unfold chainHopDropR; omega)

theorem rd_countWide_other {a b : Nat} (w n : Nat) (s : State) (h : b ≠ a) (h' : b ≠ a + 4) : rd (countWide a w n s) b = rd s b := by
  rw [countWide, wrWide, rd_wr_other _ _ h', rd_wr_other _ _ h]

theorem pairOf_countWide (a w n : Nat) (s : State) (j : Nat) : pairOf (countWide a w n s) j = pairOf s j := by
  rw [countWide, wrWide, pairOf_wr, pairOf_wr]

/-! ### The gearbox overflow (R44) -/

/-- The words dropped at a full queue, of a pair that is neither quiet nor in reset. -/
theorem exec_gbxOverflow_drops {l : Pair} {n : BitVec 16} {s : State} (hm : s.mode = .running) (hq : (pairOf s l.toNat).quiet = false)
    (hx : (pairOf s l.toNat).xqOff = false) : exec (.gbxOverflow l n) s =
      .next (raise 0x0602 (pairUnit l.toNat) [] (count (gbxOverflowR l.toNat) n.toNat
        (modPair l.toNat (fun p => { p with queue := queueRoom }) s))) := by
  show Host.Outcome.next (gbxOverflow l.toNat n.toNat s) = _
  have hdrops : ¬ (s.mode ≠ .running ∨ (pairOf s l.toNat).quiet = true ∨ (pairOf s l.toNat).xqOff = true) := by
    rw [hm, hq, hx]; decide
  rw [gbxOverflow, if_neg hdrops]

/-- Settles O11: the row counts in a register of the pair and raises an event, and neither writes a register of a clock. -/
theorem gearboxOverflow : Obligations.GearboxOverflow := by
  unfold Obligations.GearboxOverflow
  rintro l n s u hm hq hx rfl
  have hrack : ∀ i < 2, 0x40000 ≤ rackBase (72 + i) ∧ rackBase (72 + i) < 0x50000 := by
    intro i hi; unfold rackBase; omega
  have hpair : 0x1000000 ≤ gbxOverflowR l.toNat := by
    have := tile_le_pairBase l.toNat; unfold gbxOverflowR; omega
  refine ⟨_, exec_gbxOverflow_drops hm hq hx, rfl, ?counted, ?syns, ?synCtl, ?rack⟩
  case counted => rw [rd_raise_tile hpair, rd_count_same, rd_modPair]
  case syns => rw [raise_syns, count_syns, modPair_syns]
  case synCtl =>
    intro i _
    rw [rd_raise_tile (tile_le_synCtl i), rd_count_other _ _ (synCtl_ne_gbxOverflowR i _), rd_modPair]
  case rack =>
    intro i hi
    have hr := hrack i hi
    rw [rd_raise_other (by omega) (by unfold chainHopDropR; omega), rd_count_other _ _ (by omega), rd_modPair]

/-! ### Fields of a row header (R38) -/

theorem testBit_bitsOf (n hi lo i : Nat) : (bitsOf n hi lo).testBit i = (decide (i < hi + 1 - lo) && n.testBit (lo + i)) := by
  rw [bitsOf, Nat.testBit_mod_two_pow, Nat.testBit_div_two_pow, Nat.add_comm i lo]

/-- Bits of a field are bits of the number. -/
theorem bitsOf_bitsOf {n a w hi lo : Nat} (h : hi ≤ w) : bitsOf (bitsOf n (a + w) a) hi lo = bitsOf n (a + hi) (a + lo) := by
  refine Nat.eq_of_testBit_eq fun i => ?_
  rw [testBit_bitsOf, testBit_bitsOf, testBit_bitsOf, show a + hi + 1 - (a + lo) = hi + 1 - lo by omega]
  by_cases hin : i < hi + 1 - lo
  · have hlt : lo + i < a + w + 1 - a := by omega
    rw [decide_eq_true hin, decide_eq_true hlt, Bool.true_and, Bool.true_and, Bool.true_and, Nat.add_assoc]
  · simp only [hin, decide_false, Bool.false_and]

theorem bitList_bitsOf {n a w hi : Nat} (h : hi ≤ w) : bitList (bitsOf n (a + w) a) 0 hi = bitList n a (a + hi) := by
  simp only [bitList, show a + hi + 1 - a = hi + 1 - 0 by omega]
  refine List.map_congr_left fun i hi' => ?_
  have hlt : i < a + w + 1 - a := by have := List.mem_range.mp hi'; omega
  simp only [testBit_bitsOf, Nat.zero_add, hlt, decide_true, Bool.true_and]

theorem toNat_extractLsb'_eq_bitsOf {w : Nat} (h : BitVec w) (lo k : Nat) :
    (h.extractLsb' lo (k + 1)).toNat = bitsOf h.toNat (lo + k) lo := by
  rw [BitVec.extractLsb'_toNat, Nat.shiftRight_eq_div_pow, bitsOf, show lo + k + 1 - lo = k + 1 by omega]

/-- Copy `i` of a row header qualifies: its CRC checks, its fill count is not 255 and its row is not above 8,223 (R42). -/
def copyGood (h : BitVec 120) (i : Nat) : Bool :=
  crc8 (bitList h.toNat (34 * i) (34 * i + 25)) == h.extractLsb' (34 * i + 26) 8 && (h.extractLsb' (34 * i) 8).toNat != 255
    && decide ((h.extractLsb' (34 * i + 8) 14).toNat ≤ 8223)

theorem copyGood_iff (h : BitVec 120) (i : Nat) : copyGood h i = true ↔
    crc8 (bitList h.toNat (34 * i) (34 * i + 25)) = h.extractLsb' (34 * i + 26) 8 ∧ (h.extractLsb' (34 * i) 8).toNat ≠ 255 ∧
      (h.extractLsb' (34 * i + 8) 14).toNat ≤ 8223 := by
  simp only [copyGood, Bool.and_eq_true, beq_iff_eq, bne_iff_ne, decide_eq_true_eq, and_assoc]

/-- The fill count and the row of copy `i`. -/
def copyFields (h : BitVec 120) (i : Nat) : Nat × Nat := ((h.extractLsb' (34 * i) 8).toNat, (h.extractLsb' (34 * i + 8) 14).toNat)

/-- A header is read from the first copy that qualifies. -/
theorem headerRead_eq (h : BitVec 120) : headerRead h = ([0, 1, 2].find? (copyGood h)).map (copyFields h) := by
  unfold headerRead
  extract_lets copy good
  have hbits : ∀ i lo k, lo + k ≤ 33 → bitsOf (copy i) (lo + k) lo = (h.extractLsb' (34 * i + lo) (k + 1)).toNat := by
    intro i lo k hk
    rw [toNat_extractLsb'_eq_bitsOf, bitsOf_bitsOf hk, Nat.add_assoc]
  have hcrc : ∀ i, bitList (copy i) 0 25 = bitList h.toNat (34 * i) (34 * i + 25) := fun i => bitList_bitsOf (by omega)
  have hgood : good ∘ copy = copyGood h := by
    funext i
    simp only [Function.comp_apply, good, copyGood, hcrc, hbits i 26 7 (by omega), hbits i 0 7 (by omega), hbits i 8 13 (by omega)]
    rw [Bool.eq_iff_iff]
    simp only [Bool.and_eq_true, beq_iff_eq, bne_iff_ne, BitVec.toNat_inj]
    rfl
  have hfields : (fun c => (bitsOf c 7 0, bitsOf c 21 8)) ∘ copy = copyFields h := by
    funext i
    exact Prod.ext (hbits i 0 7 (by omega)) (hbits i 8 13 (by omega))
  rw [show [copy 0, copy 1, copy 2] = [0, 1, 2].map copy from rfl, List.find?_map, Option.map_map, hgood, hfields]

theorem headerRead_eq_copyA {h : BitVec 120} (h0 : copyGood h 0 = true) : headerRead h = some (copyFields h 0) := by
  rw [headerRead_eq, List.find?_cons_of_pos h0, Option.map_some]

theorem headerRead_eq_copyB {h : BitVec 120} (h0 : copyGood h 0 = false) (h1 : copyGood h 1 = true) :
    headerRead h = some (copyFields h 1) := by
  simp only [headerRead_eq, List.find?_cons, h0, h1, Option.map_some]

theorem headerRead_eq_copyC {h : BitVec 120} (h0 : copyGood h 0 = false) (h1 : copyGood h 1 = false) (h2 : copyGood h 2 = true) :
    headerRead h = some (copyFields h 2) := by
  simp only [headerRead_eq, List.find?_cons, h0, h1, h2, Option.map_some]

/-- A header with a copy that qualifies is read. -/
theorem headerRead_of_copyGood {h : BitVec 120} (hany : copyGood h 0 = true ∨ copyGood h 1 = true ∨ copyGood h 2 = true) :
    ∃ g, headerRead h = some g := by
  rw [headerRead_eq, ← Option.isSome_iff_exists, Option.isSome_map, List.find?_isSome]
  rcases hany with h0 | h1 | h2
  · exact ⟨0, by decide, h0⟩
  · exact ⟨1, by decide, h1⟩
  · exact ⟨2, by decide, h2⟩

theorem headerRead_eq_none {h : BitVec 120} (h0 : copyGood h 0 = false) (h1 : copyGood h 1 = false) (h2 : copyGood h 2 = false) :
    headerRead h = none := by
  simp only [headerRead_eq, List.find?_cons, List.find?_nil, h0, h1, h2, Option.map_none]

/-- The flags of a header are taken when CRC_F checks. -/
theorem headerFlags_eq (h : BitVec 120) : headerFlags h = if crc8 (bitList h.toNat 102 107) = h.extractLsb' 108 8
    then some (h.getLsbD 102, h.getLsbD 103, h.getLsbD 104) else none := by
  unfold headerFlags
  rw [← toNat_extractLsb'_eq_bitsOf h 108 7]
  simp only [BitVec.toNat_inj]

/-! ### What a row header changes of what a header shows -/

/-- What a receiver takes from row headers, and its count of headers lost. -/
structure HeaderView where
  fill : Nat
  absent : Bool
  lpi : Bool
  underrun : Bool
  lost : Word

/-- The view of a pair in a state. -/
def headerView (l : Nat) (s : State) : HeaderView :=
  { fill := (pairOf s l).rxFill, absent := (pairOf s l).rxAbsent, lpi := (pairOf s l).rxLpi, underrun := (pairOf s l).rxUnderrun,
    lost := rd s (rowHdrLostR l) }

/-- A fill count is taken, or the header is counted as lost (R42). -/
def HeaderView.takeFill (v : HeaderView) : Option (Nat × Nat) → HeaderView
  | some (f, _) => { v with fill := f }
  | none => { v with lost := v.lost + 1 }

/-- The flags are taken, or kept (R42). -/
def HeaderView.takeFlags (v : HeaderView) : Option (Bool × Bool × Bool) → HeaderView
  | some (a, i, u) => { v with absent := a, lpi := i, underrun := u }
  | none => v

theorem HeaderView.takeFlags_fill (v : HeaderView) (o : Option (Bool × Bool × Bool)) : (v.takeFlags o).fill = v.fill := by
  cases o <;> rfl

theorem HeaderView.takeFlags_lost (v : HeaderView) (o : Option (Bool × Bool × Bool)) : (v.takeFlags o).lost = v.lost := by
  cases o <;> rfl

/-- The flags do not depend on the fill count. -/
theorem HeaderView.takeFill_flags (v : HeaderView) (g : Option (Nat × Nat)) :
    (v.takeFill g).absent = v.absent ∧ (v.takeFill g).lpi = v.lpi ∧ (v.takeFill g).underrun = v.underrun := by
  cases g <;> exact ⟨rfl, rfl, rfl⟩

/-- A view depends on the pair and on its counter of headers lost. -/
theorem headerView_congr {l : Nat} {s t : State} (hp : pairOf t l = pairOf s l) (hr : rd t (rowHdrLostR l) = rd s (rowHdrLostR l)) :
    headerView l t = headerView l s := by
  simp only [headerView, hp, hr]

/-- An update of the pair's state that keeps what headers give. -/
theorem headerView_modPair {l : Nat} {f : PairSt → PairSt} (s : State) (hfill : ∀ p, (f p).rxFill = p.rxFill)
    (habs : ∀ p, (f p).rxAbsent = p.rxAbsent) (hlpi : ∀ p, (f p).rxLpi = p.rxLpi) (hund : ∀ p, (f p).rxUnderrun = p.rxUnderrun) :
    headerView l (modPair l f s) = headerView l s := by
  simp only [headerView, pairOf_modPair_same, rd_modPair, hfill, habs, hlpi, hund]

theorem headerView_count {l a : Nat} (n : Nat) (s : State) (h : rowHdrLostR l ≠ a) : headerView l (count a n s) = headerView l s :=
  headerView_congr (by unfold pairOf; rw [count_pairs]) (rd_count_other n s h)

theorem headerView_countWide {l a : Nat} (w n : Nat) (s : State) (h : rowHdrLostR l ≠ a) (h' : rowHdrLostR l ≠ a + 4) :
    headerView l (countWide a w n s) = headerView l s :=
  headerView_congr (pairOf_countWide ..) (rd_countWide_other w n s h h')

/-- The counters of a row's codewords are not that of headers lost. -/
theorem headerView_innerRow (l : Nat) (s : State) : headerView l (innerRow l s) = headerView l s := by
  have hcount : ∀ (o w n : Nat) (u : State), o < 0x11C → headerView l (countWide (pairBase l + o) w n u) = headerView l u := by
    intro o w n u ho
    exact headerView_countWide w n u (by unfold rowHdrLostR; omega) (by unfold rowHdrLostR; omega)
  unfold innerRow innerUncorrR innerChaseR innerCorrR innerCwR
  rw [hcount _ _ _ _ (by omega), hcount _ _ _ _ (by omega), hcount _ _ _ _ (by omega), hcount _ _ _ _ (by omega)]
  rfl

theorem headerView_breakDue (l : Nat) (s : State) : headerView l (breakDue l s) = headerView l s := by
  have hlane : ∀ n f (u : State), headerView l (modLane n f u) = headerView l u := fun _ _ _ => rfl
  unfold breakDue
  rw [hlane]
  split
  · exact headerView_count _ s (rowHdrLostR_ne_hlBreak l _)
  · rfl

theorem headerView_rxFlags (l : Nat) (a i u : Bool) (s : State) :
    headerView l (rxFlags l a i u s) = (headerView l s).takeFlags (some (a, i, u)) := by
  have hflags : headerView l (modPair l (fun p => { p with rxAbsent := a, rxLpi := i, rxUnderrun := u }) s) =
      (headerView l s).takeFlags (some (a, i, u)) := by
    simp only [headerView, pairOf_modPair_same, rd_modPair, HeaderView.takeFlags]
  unfold rxFlags
  split
  · rw [headerView_breakDue, hflags]
  · exact hflags

theorem headerView_quietWake (l : Nat) (s : State) : headerView l (quietWake l s) = headerView l s := by
  unfold quietWake
  split
  · rw [headerView_count _ _ (rowHdrLostR_ne_quietWakeR l), headerView_breakDue, headerView_modPair] <;> exact fun _ => rfl
  · rfl

/-- What a row header changes of a pair in superframe lock, of a link in TRAIN or UP (R42). -/
theorem headerView_rowHeaderIn {l r m : Nat} {h : BitVec 120} {s : State} (hm : hears s l = some m) (hlock : (pairOf s l).sfLock = true)
    (hup : trainOrUp (linkOf s m).state = true) :
    headerView l (rowHeaderIn l r h s) = ((headerView l s).takeFill (headerRead h)).takeFlags (headerFlags h) := by
  unfold rowHeaderIn
  simp -zeta only [hm, hlock, hup, Bool.not_true, Bool.true_or, Bool.or_self, Bool.false_eq_true, if_false]
  extract_lets got counted seeded filled tallied flagged met p
  have hcounted : headerView l counted = headerView l s := by
    simp only [counted]
    split
    · exact headerView_countWide _ _ s (by unfold rowHdrLostR innerCwR; omega) (by unfold rowHdrLostR innerCwR; omega)
    · exact headerView_innerRow l s
  have hseeded : headerView l seeded = headerView l counted := by
    simp only [seeded]
    split
    · exact headerView_modPair _ (fun _ => rfl) (fun _ => rfl) (fun _ => rfl) (fun _ => rfl)
    · rfl
  have hfilled : headerView l filled = (headerView l seeded).takeFill got := by
    cases hg : got with
    | some g => simp only [filled, hg, headerView, pairOf_modPair_same, rd_modPair, HeaderView.takeFill]
    | none => simp only [filled, hg, headerView, pairOf_count, pairOf_modPair_same, rd_count_same, rd_modPair, HeaderView.takeFill,
      BitVec.ofNat_eq_ofNat]
  have htallied : headerView l tallied = headerView l filled := rfl
  have hflagged : headerView l flagged = (headerView l tallied).takeFlags (headerFlags h) := by
    cases hf : headerFlags h with
    | some g => simp only [flagged, hf, headerView_rxFlags]
    | none => simp only [flagged, hf, HeaderView.takeFlags]
  have hmet : headerView l met = headerView l flagged :=
    headerView_modPair _ (fun _ => rfl) (fun _ => rfl) (fun _ => rfl) (fun _ => rfl)
  have hend : headerView l met = ((headerView l s).takeFill got).takeFlags (headerFlags h) := by
    rw [hmet, hflagged, htallied, hfilled, hseeded, hcounted]
  split
  · rw [headerView_quietWake, hend]
  · exact hend

/-- Settles O15: the header is read from its first copy that qualifies, and the view of the pair takes what was read. -/
theorem rowHeaderFill : Obligations.RowHeaderFill := by
  unfold Obligations.RowHeaderFill
  intro l r h s m good hm hlock hup hgood
  have hcopy : ∀ i, good i ↔ copyGood h i = true := fun i => (hgood i).trans (copyGood_iff h i).symm
  have hview := headerView_rowHeaderIn (r := r.toNat) (h := h) hm hlock hup
  have hfill := congrArg HeaderView.fill hview
  have hlost := congrArg HeaderView.lost hview
  rw [HeaderView.takeFlags_fill] at hfill
  rw [HeaderView.takeFlags_lost] at hlost
  simp only [hcopy, Bool.not_eq_true]
  refine ⟨rowHeaderIn l.toNat r.toNat h s, rfl, ?copyA, ?copyB, ?copyC, ?found, ?lost, ?flags, ?noFlags⟩
  case copyA =>
    intro h0
    rw [headerRead_eq_copyA h0] at hfill
    exact hfill
  case copyB =>
    intro h0 h1
    rw [headerRead_eq_copyB h0 h1] at hfill
    exact hfill
  case copyC =>
    intro h0 h1 h2
    rw [headerRead_eq_copyC h0 h1 h2] at hfill
    exact hfill
  case found =>
    intro hany
    obtain ⟨g, hg⟩ := headerRead_of_copyGood hany
    rw [hg] at hlost
    exact hlost
  case lost =>
    intro h0 h1 h2
    rw [headerRead_eq_none h0 h1 h2] at hfill hlost
    exact ⟨hfill, hlost⟩
  case flags =>
    intro hcrc
    rw [headerFlags_eq, if_pos hcrc] at hview
    exact ⟨congrArg HeaderView.absent hview, congrArg HeaderView.lpi hview, congrArg HeaderView.underrun hview⟩
  case noFlags =>
    intro hcrc
    rw [headerFlags_eq, if_neg hcrc] at hview
    obtain ⟨habs, hlpi, hund⟩ := HeaderView.takeFill_flags (headerView l.toNat s) (headerRead h)
    exact ⟨(congrArg HeaderView.absent hview).trans habs, (congrArg HeaderView.lpi hview).trans hlpi,
      (congrArg HeaderView.underrun hview).trans hund⟩

end Sys2Proof.Proofs
end

section
/-! PROOFS. The interpolator at its limit (R74). -/
namespace Sys2Proof.Proofs
open Sys2Proof Sys2Proof.Machine Sys2Proof.Laws

/-- The state with the phase held at a limit and the symbols held counted, before any event. -/
def heldAtLimit (l : Pair) (high : Bool) (n : Word) (s : State) : State :=
  count (interpLimitR l.toNat) n.toNat (modPair l.toNat (fun p => { p with phi := if high then 8191 else -8192 }) s)

theorem exec_interpLimit {l : Pair} {high first : Bool} {n : Word} {s : State} (hm : s.mode = .running) :
    exec (.interpLimit l high n first) s = .next (if first then raise 0x0603 (pairUnit l.toNat) [] (heldAtLimit l high n s)
      else heldAtLimit l high n s) := by
  show Host.Outcome.next (interpHit l.toNat high n.toNat first s) = _
  rw [interpHit, if_neg (not_not_intro hm), heldAtLimit]

/-- An event that is raised or not leaves the pairs, the links and the registers of the tiles. -/
theorem raise_if_keeps (first : Bool) (code : Nat) (unit : BitVec 16) (u : State) {a : Nat} (ha : 0x1000000 ≤ a) (l : Nat) :
    pairOf (if first then raise code unit [] u else u) l = pairOf u l ∧ rd (if first then raise code unit [] u else u) a = rd u a ∧
      (if first then raise code unit [] u else u).links = u.links := by
  cases first with
  | true => exact ⟨pairOf_raise .., rd_raise_tile ha, raise_links ..⟩
  | false => exact ⟨rfl, rfl, rfl⟩

/-- Settles O14: holding the phase and counting touches one field of the pair and one of its counters, and the event of an excursion's
start neither. -/
theorem interpolatorLimit : Obligations.InterpolatorLimit := by
  unfold Obligations.InterpolatorLimit
  intro l high first n s hm
  have hreg : 0x1000000 ≤ interpLimitR l.toNat := by
    have := tile_le_pairBase l.toNat; unfold interpLimitR; omega
  obtain ⟨hpair, hcnt, hlinks⟩ := raise_if_keeps first 0x0603 (pairUnit l.toNat) (heldAtLimit l high n s) hreg l.toNat
  have hheld : pairOf (heldAtLimit l high n s) l.toNat =
      { pairOf s l.toNat with phi := if high then 8191 else -8192 } := by
    rw [heldAtLimit, pairOf_count, pairOf_modPair_same]
  have hcounted : rd (heldAtLimit l high n s) (interpLimitR l.toNat) = rd s (interpLimitR l.toNat) + n := by
    rw [heldAtLimit, rd_count_same, rd_modPair, BitVec.ofNat_toNat, BitVec.setWidth_eq]
  refine ⟨_, heldAtLimit l high n s, exec_interpLimit hm, rfl, ?event, ?phase, ?counted, ?links, ?active, ?standby⟩
  case event => rw [heldAtLimit, count_evt, modPair_evt]
  case phase => rw [hpair, hheld]
  case counted => rw [hcnt, hcounted]
  case links => rw [hlinks, heldAtLimit, count_links, modPair_links]
  case active => rw [hpair, hheld]
  case standby => rw [hpair, hheld]

end Sys2Proof.Proofs
end

section
/-! PROOFS. The codes of the wires: the inner code (R29), the scrambler (R41), the DAC codes (R63) and the stuffing (R214). -/
namespace Sys2Proof.Proofs
open Sys2Proof Sys2Proof.Machine

/-! ### The inner code (R29) -/

/-- A step that is linear in the state and the item gives a fold that is linear in the list. -/
theorem foldl_zipWith_of_linear {α β : Type} (f : β → α → β) (add : β → β → β) (op : α → α → α)
    (hlin : ∀ r r' b b', f (add r r') (op b b') = add (f r b) (f r' b')) :
    ∀ (c e : List α) (r r' : β), c.length = e.length →
      (List.zipWith op c e).foldl f (add r r') = add (c.foldl f r) (e.foldl f r')
  | [], [], _, _, _ => rfl
  | b :: c, b' :: e, r, r', h => by
    rw [List.zipWith_cons_cons, List.foldl_cons, List.foldl_cons, List.foldl_cons, hlin]
    exact foldl_zipWith_of_linear f add op hlin c e _ _ (Nat.succ.inj h)

/-- The single-error pattern of position `i` in `n` bits. -/
def unitError (n i : Nat) : List Bool := flipBit (List.replicate n false) i

@[simp] theorem length_flipBit (c : List Bool) (i : Nat) : (flipBit c i).length = c.length := List.length_modify ..

theorem length_unitError (n i : Nat) : (unitError n i).length = n := by
  rw [unitError, length_flipBit, List.length_replicate]

theorem flipBit_flipBit (c : List Bool) (i : Nat) : flipBit (flipBit c i) i = c := by
  refine List.ext_getElem (by simp) fun k _ _ => ?_
  by_cases hk : i = k <;> simp [flipBit, hk]

/-- Inverting a bit adds a single-error pattern. -/
theorem flipBit_eq_zipWith (c : List Bool) (i : Nat) : flipBit c i = List.zipWith xor c (unitError c.length i) := by
  refine List.ext_getElem (by simp [length_unitError]) fun k _ _ => ?_
  by_cases hk : i = k <;> simp [flipBit, unitError, hk]

/-- The feedback of a division step is added where the carry is 1. -/
theorem innerStep_eq (r : BitVec 7) (b : Bool) :
    innerStep r b = (r <<< 1) ^^^ (if r.getLsbD 6 ^^ b then 0x09 else 0) := by
  unfold innerStep
  split
  · rfl
  · rw [BitVec.ofNat_eq_ofNat, BitVec.xor_zero]

theorem innerStep_linear (r r' : BitVec 7) (b b' : Bool) :
    innerStep (r ^^^ r') (b ^^ b') = innerStep r b ^^^ innerStep r' b' := by
  have hfeedback : ∀ x x' y y' : Bool, (if (x ^^ x') ^^ (y ^^ y') then 0x09 else 0 : BitVec 7) =
      (if x ^^ y then 0x09 else 0) ^^^ (if x' ^^ y' then 0x09 else 0) := by decide
  rw [innerStep_eq, innerStep_eq, innerStep_eq, BitVec.getLsbD_xor, hfeedback, BitVec.shiftLeft_xor_distrib]
  ac_rfl

/-- A bit shifted in below a word. -/
def shiftIn (a : BitVec 7) (b : Bool) : BitVec 7 := (a <<< 1) ||| BitVec.ofNat 7 (b2n b)

/-- The bit shifted in falls on a zero. -/
theorem shiftIn_eq : ∀ (a : BitVec 7) (b : Bool), shiftIn a b = (a <<< 1) ^^^ BitVec.ofNat 7 (b2n b) := by decide +kernel

theorem shiftIn_linear (r r' : BitVec 7) (b b' : Bool) : shiftIn (r ^^^ r') (b ^^ b') = shiftIn r b ^^^ shiftIn r' b' := by
  have hbit : ∀ y y' : Bool, BitVec.ofNat 7 (b2n (y ^^ y')) = BitVec.ofNat 7 (b2n y) ^^^ BitVec.ofNat 7 (b2n y') := by decide
  rw [shiftIn_eq, shiftIn_eq, shiftIn_eq, hbit, BitVec.shiftLeft_xor_distrib]
  ac_rfl

/-- The bits of a word, shifted in one by one, give the word. -/
theorem foldl_shiftIn_bitsDown : ∀ r : BitVec 7, (bitsDown r).foldl shiftIn 0 = r := by decide +kernel

/-- A syndrome compares the remainder of the information bits with the seven check bits. -/
theorem innerSyndrome_eq (c : List Bool) :
    innerSyndrome c = innerRem (c.take 120) ^^^ ((c.drop 120).take 7).foldl shiftIn 0 := rfl

theorem innerSyndrome_zipWith {c e : List Bool} (h : c.length = e.length) :
    innerSyndrome (List.zipWith xor c e) = innerSyndrome c ^^^ innerSyndrome e := by
  have hrem : innerRem (List.zipWith xor (c.take 120) (e.take 120)) = innerRem (c.take 120) ^^^ innerRem (e.take 120) :=
    foldl_zipWith_of_linear innerStep (· ^^^ ·) xor innerStep_linear _ _ 0 0 (by simp [h])
  have hcheck : (List.zipWith xor ((c.drop 120).take 7) ((e.drop 120).take 7)).foldl shiftIn 0 =
      ((c.drop 120).take 7).foldl shiftIn 0 ^^^ ((e.drop 120).take 7).foldl shiftIn 0 :=
    foldl_zipWith_of_linear shiftIn (· ^^^ ·) xor shiftIn_linear _ _ 0 0 (by simp [h])
  simp only [innerSyndrome_eq, List.take_zipWith, List.drop_zipWith, hrem, hcheck]
  ac_rfl

theorem parityOf_zipWith {c e : List Bool} (h : c.length = e.length) :
    parityOf (List.zipWith xor c e) = (parityOf c ^^ parityOf e) :=
  foldl_zipWith_of_linear (fun a b => a ^^ b) xor xor (by decide) c e false false h

/-- Inverting a bit of a word adds the syndrome of that error. -/
theorem innerSyndrome_flipBit {c : List Bool} (hc : c.length = 128) (i : Nat) :
    innerSyndrome (flipBit c i) = innerSyndrome c ^^^ errorSyndrome i := by
  rw [flipBit_eq_zipWith, hc, innerSyndrome_zipWith (by rw [hc, length_unitError])]
  rfl

theorem parityOf_unitError : ∀ i < 128, parityOf (unitError 128 i) = true := by decide +kernel

theorem parityOf_flipBit {c : List Bool} (hc : c.length = 128) {i : Nat} (hi : i < 128) :
    parityOf (flipBit c i) = !parityOf c := by
  rw [flipBit_eq_zipWith, hc, parityOf_zipWith (by rw [hc, length_unitError]), parityOf_unitError i hi, Bool.xor_true]

/-- The polynomial of R29 has order 127: the 127 errors of the cyclic part and the error of the parity bit differ in their syndromes. -/
theorem errorSyndromes_nodup : ((List.range 128).map errorSyndrome).Nodup := by decide +kernel

theorem errorSyndrome_ne {i j : Nat} (hij : i < j) (hj : j < 128) : errorSyndrome i ≠ errorSyndrome j := by
  have hlen : ((List.range 128).map errorSyndrome).length = 128 := by rw [List.length_map, List.length_range]
  have hne := List.pairwise_iff_getElem.mp errorSyndromes_nodup i j (by omega) (by omega) hij
  rwa [List.getElem_map, List.getElem_map, List.getElem_range, List.getElem_range] at hne

/-- The parity bit stands outside the cyclic part. -/
theorem errorSyndrome_parityBit : errorSyndrome 127 = 0 := by decide +kernel

/-- Every other error has a cyclic syndrome. -/
theorem errorSyndrome_ne_zero {i : Nat} (hi : i < 127) : errorSyndrome i ≠ 0 := by
  rw [← errorSyndrome_parityBit]
  exact errorSyndrome_ne hi (by decide)

/-- The decoder's search finds the position of a single error. -/
theorem find?_errorSyndrome {i : Nat} (hi : i < 127) :
    (List.range 127).find? (fun k => errorSyndrome k == errorSyndrome i) = some i := by
  refine List.find?_range_eq_some.mpr ⟨beq_self_eq_true _, List.mem_range.mpr hi, fun k hk => ?_⟩
  rw [beq_false_of_ne (errorSyndrome_ne hk (by omega)), Bool.not_false]

theorem length_innerEncode {c : List Bool} (hc : c.length = 120) : (innerEncode c).length = 128 := by
  simp [innerEncode, bitsDown, hc]

theorem isCodeword_iff (c : List Bool) : isCodeword c = true ↔ innerSyndrome c = 0 ∧ parityOf c = false := by
  rw [isCodeword, Bool.and_eq_true, beq_iff_eq, Bool.not_eq_true']

theorem isCodeword_innerEncode {c : List Bool} (hc : c.length = 120) : isCodeword (innerEncode c) = true := by
  have hcheck : (bitsDown (innerRem c)).length = 7 := by simp [bitsDown]
  refine (isCodeword_iff _).mpr ⟨?syndrome, ?parity⟩
  case syndrome =>
    have hinfo : (innerEncode c).take 120 = c := by
      rw [innerEncode, List.append_assoc, List.take_left' hc]
    have hbits : ((innerEncode c).drop 120).take 7 = bitsDown (innerRem c) := by
      rw [innerEncode, List.append_assoc, List.drop_left' hc, List.take_left' hcheck]
    rw [innerSyndrome_eq, hinfo, hbits, foldl_shiftIn_bitsDown, BitVec.xor_self]
    rfl
  case parity =>
    have hlast : ∀ b : List Bool, parityOf (b ++ [parityOf b]) = false := by
      intro b
      rw [parityOf, List.foldl_append, List.foldl_cons, List.foldl_nil]
      exact Bool.xor_self _
    exact hlast _

/-- The decoder corrects a codeword with one bit inverted (R79). -/
theorem innerDecode_flipBit {c : List Bool} (hlen : c.length = 128) (hc : isCodeword c = true) {i : Nat} (hi : i < 128) :
    innerDecode (flipBit c i) = (c, .corrected) := by
  obtain ⟨hsyn, hpar⟩ := (isCodeword_iff c).mp hc
  have hodd : parityOf (flipBit c i) = true := by rw [parityOf_flipBit hlen hi, hpar, Bool.not_false]
  have herr : innerSyndrome (flipBit c i) = errorSyndrome i := by
    rw [innerSyndrome_flipBit hlen, hsyn, BitVec.ofNat_eq_ofNat, BitVec.zero_xor]
  simp only [innerDecode, hodd, herr, if_true]
  by_cases hlast : i = 127
  · rw [hlast, if_pos errorSyndrome_parityBit, flipBit_flipBit]
  · have hcyclic : i < 127 := by omega
    rw [if_neg (errorSyndrome_ne_zero hcyclic), find?_errorSyndrome hcyclic]
    simp only [flipBit_flipBit]

/-- The decoder detects a codeword with two bits inverted (R79). -/
theorem innerDecode_flipBit_flipBit {c : List Bool} (hlen : c.length = 128) (hc : isCodeword c = true) {i j : Nat} (hij : i < j)
    (hj : j < 128) : (innerDecode (flipBit (flipBit c i) j)).2 = .detected := by
  obtain ⟨hsyn, hpar⟩ := (isCodeword_iff c).mp hc
  have hi : i < 128 := Nat.lt_trans hij hj
  have hlen' : (flipBit c i).length = 128 := by rw [length_flipBit, hlen]
  have heven : parityOf (flipBit (flipBit c i) j) = false := by
    rw [parityOf_flipBit hlen' hj, parityOf_flipBit hlen hi, hpar, Bool.not_false, Bool.not_true]
  have herr : innerSyndrome (flipBit (flipBit c i) j) ≠ 0 := by
    rw [innerSyndrome_flipBit hlen', innerSyndrome_flipBit hlen, hsyn, BitVec.ofNat_eq_ofNat, BitVec.zero_xor]
    exact fun h => errorSyndrome_ne hij hj (BitVec.xor_eq_zero_iff.mp h)
  simp only [innerDecode, heven, Bool.false_eq_true, if_false, if_neg herr]

/-! ### The scrambler (R41) -/

/-- The scrambler's bits do not depend on what they are added to, so adding them twice takes them out. -/
theorem scrambleBits_scrambleBits (x : BitVec 23) (bits : List Bool) :
    (scrambleBits x (scrambleBits x bits).1).1 = bits := by
  induction bits generalizing x with
  | nil => rfl
  | cons b t ih => simp only [scrambleBits, ih, Bool.xor_assoc, Bool.xor_self, Bool.xor_false]

/-! ### DAC codes (R63) -/

/-- Loader check 0x08 holds the sum of the taps and the amplitude within their limits (R101). -/
theorem transmit_limits_of_rangeFault {t : List Byte} (h : rangeFault t = none) :
    ((s16s t 0x40 6).map Int.natAbs).sum ≤ 16384 ∧ txAmpl t ≤ 1024 := by
  rw [rangeFault, Option.map_eq_none_iff, List.find?_eq_none] at h
  have htaps := h (0x040, decide (16384 < ((s16s t 0x40 6).map Int.natAbs).sum)) (by simp)
  have hampl := h (0x04C, decide (1024 < leAt t 0x4C 2 % 2048)) (by simp)
  rw [decide_eq_true_eq, Nat.not_lt] at htaps hampl
  exact ⟨htaps, hampl⟩

/-- A sum of products with factors of magnitude at most `m`. -/
theorem natAbs_sum_mul_le {ι : Type} (c x : ι → Int) {m : Nat} (hx : ∀ i, (x i).natAbs ≤ m) (l : List ι) :
    (l.map (fun i => c i * x i)).sum.natAbs ≤ (l.map (fun i => (c i).natAbs)).sum * m := by
  induction l with
  | nil => simp
  | cons i l ih =>
    simp only [List.map_cons, List.sum_cons]
    calc (c i * x i + (l.map (fun i => c i * x i)).sum).natAbs
        ≤ (c i * x i).natAbs + (l.map (fun i => c i * x i)).sum.natAbs := Int.natAbs_add_le ..
      _ ≤ (c i).natAbs * m + (l.map (fun i => (c i).natAbs)).sum * m := by
        rw [Int.natAbs_mul]; exact Nat.add_le_add (Nat.mul_le_mul_left _ (hx i)) ih
      _ = _ := (Nat.add_mul ..).symm

/-- Rounding a quotient does not take it past a whole number. -/
theorem natAbs_roundDiv_le {a : Int} {b m : Nat} (hb : 0 < b) (h : a.natAbs ≤ m * b) : (roundDiv a b).natAbs ≤ m := by
  have hround : ∀ z : Int, 0 ≤ z → z ≤ m * b → 0 ≤ (2 * z + b) / (2 * b) ∧ (2 * z + b) / (2 * b) ≤ m := by
    intro z h0 hz
    have hmul : ((m : Int) + 1) * (2 * b) = 2 * (m * b) + 2 * b := by rw [Int.add_mul, Int.mul_left_comm, Int.one_mul]
    have hlt : (2 * z + b) / (2 * b) < m + 1 := Int.ediv_lt_of_lt_mul (by omega) (by omega)
    exact ⟨Int.ediv_nonneg (by omega) (by omega), by omega⟩
  have habs : (a.natAbs : Int) ≤ (m : Int) * b := Int.ofNat_le.mpr h
  unfold roundDiv
  split
  case isTrue h0 => have := hround a h0 (by omega); omega
  case isFalse h0 => have := hround (-a) (by omega) (by omega); omega

/-- The sum of the TX FIR within its taps' limit. -/
theorem natAbs_txSum_le {t : List Byte} {a : Int → Int} (n : Int) (htaps : ((s16s t 0x40 6).map Int.natAbs).sum ≤ 16384)
    (ha : ∀ k, (a k).natAbs ≤ 3) : (txSum t a n).natAbs ≤ 16384 * 3 := by
  have hsum : ((List.range 6).map (fun i => (txTap t i).natAbs)).sum ≤ 16384 := by
    rw [s16s, List.map_map] at htaps
    exact htaps
  exact Nat.le_trans (natAbs_sum_mul_le (txTap t) (fun i => a (n + 2 - (i : Int))) (fun i => ha _) (List.range 6))
    (Nat.mul_le_mul_right 3 hsum)

/-- Within those limits the driver never clips (R63). -/
theorem natAbs_dacCode_le {t : List Byte} {a : Int → Int} (n : Int) (htaps : ((s16s t 0x40 6).map Int.natAbs).sum ≤ 16384)
    (hampl : txAmpl t ≤ 1024) (ha : ∀ k, (a k).natAbs ≤ 3) : (dacCode t a n).natAbs ≤ 127 := by
  refine natAbs_roundDiv_le (by decide) ?_
  calc ((txAmpl t : Int) * 127 * txSum t a n).natAbs = txAmpl t * 127 * (txSum t a n).natAbs := by
        rw [Int.natAbs_mul, Int.natAbs_mul, Int.natAbs_natCast]; rfl
    _ ≤ 1024 * 127 * (16384 * 3) := Nat.mul_le_mul (Nat.mul_le_mul_right 127 hampl) (natAbs_txSum_le n htaps ha)
    _ = 127 * (3 * 2 ^ 24) := rfl

/-! ### Stuffing (R214) -/

/-- A stuff symbol ends the run before it. -/
theorem stuff_ne (a : Int) : (if 0 < a then -3 else 3) ≠ a := by
  split <;> omega

/-- Before a run is full a receiver keeps the symbol. -/
theorem unstuffed_keep {last a : Int} {run : Nat} (t : List Int) (h : run ≠ 8) : unstuffed last run (a :: t) =
    (a :: (unstuffed a (if a = last then run + 1 else 1) t).1, (unstuffed a (if a = last then run + 1 else 1) t).2) := by
  rw [unstuffed, if_neg h]

/-- After a full run it drops the symbol, and counts no error where the symbol has another level. -/
theorem unstuffed_drop {last k : Int} (t : List Int) (h : k ≠ last) : unstuffed last 8 (k :: t) = unstuffed k 1 t := by
  rw [unstuffed, if_pos rfl, beq_false_of_ne h]
  rfl

/-- While fewer than eight symbols of a level have gone out, a receiver that stands where its sender stands takes the stuffing out. -/
theorem unstuffed_stuffed (l : List Int) (last : Int) (run : Nat) (hrun : run < 8) :
    unstuffed last run (stuffed last run l) = (l, 0) := by
  induction l generalizing last run with
  | nil => rfl
  | cons a t ih =>
    unfold stuffed
    extract_lets n k
    split
    case isTrue h8 =>
      have hn : (if a = last then run + 1 else 1) = 8 := h8
      rw [unstuffed_keep _ (Nat.ne_of_lt hrun), hn, unstuffed_drop _ (stuff_ne a), ih k 1 (by decide)]
    case isFalse h8 =>
      have hn : n ≤ 8 := by simp only [n]; split <;> omega
      have hkept : unstuffed a (if a = last then run + 1 else 1) (stuffed a n t) = (t, 0) := ih a n (by omega)
      rw [unstuffed_keep _ (Nat.ne_of_lt hrun), hkept]

/-- Settles O60: the inner code by the linearity of its syndrome, the scrambler by adding the same bits twice, the DAC codes by the sum of the
taps' magnitudes, the stuffing by a receiver that counts the run its sender counts. -/
theorem wireCodes : Obligations.WireCodes := by
  unfold Obligations.WireCodes
  refine ⟨?inner, scrambleBits_scrambleBits, fun t => transmit_limits_of_rangeFault,
    fun t a n htaps hampl ha => natAbs_dacCode_le n htaps hampl ha, fun l => unstuffed_stuffed l 0 0 (by decide)⟩
  intro c hc
  have hlen := length_innerEncode hc
  have hword := isCodeword_innerEncode hc
  exact ⟨hword, fun i hi => innerDecode_flipBit hlen hword hi, fun i j hij hj => innerDecode_flipBit_flipBit hlen hword hij hj⟩

end Sys2Proof.Proofs
end

section
/-! PROOFS. The commands that the chain does not carry out (R345). -/
namespace Sys2Proof.Proofs
open Sys2Proof Sys2Proof.Machine

/-! ### A command that fails a check (R327) -/

/-- The entry that holds a command's engine tag holds the command. -/
theorem claimTag_cmd {s u : State} {op : Nat} {c : Cmd} {f : InFlight} (h : claimTag s op c = some (f, u)) : f.cmd = c := by
  unfold claimTag at h
  split at h
  case h_1 g hg =>
    cases h
    have hfetched := List.find?_some hg
    simp only [Bool.and_eq_true, beq_iff_eq] at hfetched
    exact hfetched.1.2
  case h_2 =>
    split at h
    · cases h
    · rw [Option.some.injEq, Prod.mk.injEq] at h
      rw [← h.1]

/-- Only commands of a ring wait for one another (R324, R325). -/
theorem blocked_chain {u : State} {f : InFlight} (h : f.cmd.path = .chain) : blocked u f = false := by
  rw [blocked, h]

/-- A command for this device that nothing holds back is checked here. -/
theorem command_here {o : OpSpec} {c : Cmd} {act : Nat → State → State} {s u : State} {f : InFlight} (hrun : s.mode = .running)
    (hstop : s.cmd.stopped = false) (htag : claimTag s o.opcode c = some (f, u)) (hfree : blocked u f = false)
    (hhere : placeOf u c = .here) : command o c act s = runHere o c f act u := by
  simp only [command, hrun, hstop, htag, hfree, hhere, ne_eq, not_true, decide_false, Bool.or_self, Bool.false_eq_true, if_false]

/-- The first check that fails gives the status, with no result. -/
theorem runHere_fails {o : OpSpec} {c : Cmd} {f : InFlight} {u : State} {st : Nat} (act : Nat → State → State)
    (h : firstFailure u o c = some st) : runHere o c f act u = complete f.etag st [] u := by
  rw [runHere, h]

/-- The chain's check fails once those before it have passed, for a basic command that only a device's own paths may bring. -/
theorem firstFailure_chain {u : State} {o : OpSpec} {c : Cmd} (hlevel : o.level = .basic) (hown : o.onChain = false)
    (hpath : c.path = .chain) (hrsvd : c.rsvd = false) (hparam : reservedParam o.opcode c = false) (hbasic : c.expert = false)
    (hlen : lengthOk o c = true) (hunit : unitOk u o c = true) : firstFailure u o c = some stPrivilege := by
  have hexpert : expertOk o.level c.expert = true := by rw [hlevel, hbasic]; rfl
  have hchain : (c.path == .chain && !o.onChain) = true := by rw [hpath, hown]; rfl
  rw [firstFailure, if_neg (by simp [hrsvd, hparam, hexpert]), if_neg (by simp [hbasic]), if_neg (by simp [hlen]),
    if_neg (by simp [hunit]), if_pos hchain]

/-- Settles O8: a command that came over the chain waits for no other, and of its checks the chain's is the first to fail. -/
theorem chainPrivilege : Obligations.ChainPrivilege := by
  unfold Obligations.ChainPrivilege
  intro i o c s u f hrow hpath hrun hstop htag hhere hrsvd hparam hbasic hlen hunit
  have hfree : blocked u f = false := blocked_chain (by rw [claimTag_cmd htag, hpath])
  have hrefused (hlevel : o.level = .basic) (hown : o.onChain = false) (act : Nat → State → State) :
      command o c act s = complete f.etag stPrivilege [] u :=
    (command_here hrun hstop htag hfree hhere).trans
      (runHere_fails act (firstFailure_chain hlevel hown hpath hrsvd hparam hbasic hlen hunit))
  rcases hrow with ⟨rfl, rfl⟩ | ⟨chunk, rfl, rfl⟩ | ⟨rfl, rfl⟩
  case inl => exact congrArg Host.Outcome.next (hrefused rfl rfl actDevOff)
  case inr.inl => exact congrArg Host.Outcome.next (hrefused rfl rfl (actFwStage c chunk))
  case inr.inr => exact congrArg Host.Outcome.next (hrefused rfl rfl (actFwActivate c))

end Sys2Proof.Proofs
end

section
/-! PROOFS. The privilege bit of PERF_SEL (R413). -/
namespace Sys2Proof.Proofs
open Sys2Proof Sys2Proof.Machine Sys2Proof.Laws

/-! ### Writes of a counter block (R389, R390, R411) -/

/-- The block of a tile stands in the tile's space. -/
theorem perfBase_succ (t : Nat) : perfBase (t + 1) = tileBase t + 0x2000 := rfl

/-- The hub's block begins above every hub register that has a meaning of its own, but the rings and the lane driver tables. -/
theorem hubWrite_perf {v : View} {i : RegInfo} {o : Nat} {w diff : Word} {step : BitVec 16} {s : State} (ho : o < 0x1000) :
    hubWrite v i (perfBase 0 + o) w step diff s = perfWrite v i 0 o w s := by
  have hbase : perfBase 0 = 0x70000 := rfl
  simp (disch := omega) only [hubWrite, hbase, snapCtlR, lockCtlR, devStrapsR, devResetCtlR, clkRootSrcR, clkEnR, refSelR, pwrPlOperR,
    pwrPlGraderR, evtBaseLoR, evtBaseHiR, evtRingCfgR, chainCtlR, spFrameConfigR, bcfgCtlR, bcfgDataR, if_neg, if_pos,
    Nat.add_sub_cancel_left]

/-- A tile's block lies between its synthesizer and its ports. -/
theorem tileWrite_perf {v : View} {i : RegInfo} {t o : Nat} {w : Word} {s : State} (ho : o < 0x1000) :
    tileWrite v i (perfBase (t + 1) + o) w s = perfWrite v i (t + 1) o w s := by
  have htile : (perfBase (t + 1) + o) / 0x1000000 - 1 = t := by rw [perfBase_succ, tileBase]; omega
  have hoff : (perfBase (t + 1) + o) % 0x1000000 = 0x2000 + o := by rw [perfBase_succ, tileBase]; omega
  simp (disch := omega) only [tileWrite, htile, hoff, if_neg, if_pos, Nat.add_sub_cancel_left]

/-- A write of a register in one of the nine counter blocks is the block's. -/
theorem regWrite_perf {v : View} {i : RegInfo} {b o : Nat} {w diff : Word} {step : BitVec 16} {s : State} (hb : b < 9)
    (ho : o < 0x1000) : regWrite v i (perfBase b + o) w step diff s = perfWrite v i b o w s := by
  cases b with
  | zero => exact (regWrite_hub (by rw [show perfBase 0 = 0x70000 from rfl]; omega)).trans (hubWrite_perf ho)
  | succ t =>
    have hlo : 0x1000000 ≤ perfBase (t + 1) + o := by rw [perfBase_succ, tileBase]; omega
    have hhi : perfBase (t + 1) + o < 0x10000000 := by rw [perfBase_succ, tileBase]; omega
    exact (regWrite_tile hlo hhi).trans (tileWrite_perf ho)

/-- A counter block is no part of a port. -/
theorem addrPort_perf (b : Nat) {o : Nat} (ho : o < 0x1000) : addrPort (perfBase b + o) = none := by
  have hport : ¬ (0x1000000 ≤ perfBase b + o ∧ 0x100000 ≤ (perfBase b + o) % 0x1000000 ∧ (perfBase b + o) % 0x1000000 < 0x900000) := by
    unfold perfBase tileBase; split <;> omega
  rw [addrPort, inPort, decide_eq_false hport, if_neg Bool.false_ne_true]

/-- No register of a counter block has a reserved code. -/
theorem codeFields_perf (b : Nat) {o : Nat} (ho : o < 0x1000) : codeFields (perfBase b + o) = [] := by
  have hrack : 0x41200 ≤ perfBase b + o := by unfold perfBase tileBase; split <;> omega
  simp (disch := omega) only [codeFields, addrPort_perf b ho, Option.isSome_none, Bool.false_eq_true, false_and, if_false, if_neg]

/-- A served write of a register in a counter block does what the block does with it. -/
theorem busWrite_perf {v : View} {i : RegInfo} {b o : Nat} {w : Word} {s : State} (hb : b < 9) (ho : o < 0x1000)
    (h : writes v (perfBase b + o) i s = true) :
    busWrite v (perfBase b + o) w s = perfWrite v i b o w (served v (perfBase b + o) true s) := by
  have hne : perfBase b + o ≠ refSelR := by unfold perfBase tileBase refSelR; split <;> omega
  exact (busWrite_plain h (codeFields_perf b ho) hne).trans (regWrite_perf hb ho)

/-! ### PERF_SEL (R413) -/

/-- The block takes a write of the selection of its counter `n` as one of PERF_SEL. -/
theorem perfWrite_sel {v : View} {i : RegInfo} {b n : Nat} {w : Word} {s : State} :
    perfWrite v i b (0x40 + 0x20 * n) w s = perfSelWrite v b n w s := by
  have hn : (0x40 + 0x20 * n - 0x40) / 0x20 = n := by omega
  simp (disch := omega) only [perfWrite, hn, if_neg, if_pos]

/-- A word without PRIV bit 3, or from the supervisor view, is stored. -/
theorem perfSelWrite_stored {v : View} {b n : Nat} {w : Word} {s : State} (h : bitGet w 11 = false ∨ v = .supervisor) :
    perfSelWrite v b n w s = wr (perfSel b n) (w &&& 0xFFFFF) s := by
  have hallowed : (bitGet w 11 && v != .supervisor) = false := by
    rcases h with hbit | rfl
    · rw [hbit, Bool.false_and]
    · rw [bne_self_eq_false, Bool.and_false]
  rw [perfSelWrite, hallowed, if_neg Bool.false_ne_true]

/-- A word with PRIV bit 3 from another view is stored without it, and the refusal is counted and logged. -/
theorem perfSelWrite_refused {v : View} {b n : Nat} {w : Word} {s : State} (hbit : bitGet w 11 = true) (hv : v ≠ .supervisor) :
    perfSelWrite v b n w s = firewallRefusal v (perfSel b n) true (wr (perfSel b n) (w &&& 0xFF7FF) s) := by
  rw [perfSelWrite, hbit, Bool.true_and, if_pos (bne_iff_ne.mpr hv)]

/-- The row of a served write is the write of PERF_SEL in the state in which the access has completed. -/
theorem exec_perfSelWrite {v : View} {b : Fin 9} {n : BitVec 3} {w : Word} {i : RegInfo} {s : State}
    (h : writes v (perfSel b.val n.toNat) i s = true) :
    exec (.perfSelWrite v b n w) s = .next (perfSelWrite v b.val n.toNat w (served v (perfSel b.val n.toNat) true s)) := by
  have hoff : 0x40 + 0x20 * n.toNat < 0x1000 := by have := n.isLt; omega
  have hplace : perfSel b.val n.toNat = perfBase b.val + (0x40 + 0x20 * n.toNat) := Nat.add_assoc ..
  rw [hplace] at h
  calc exec (.perfSelWrite v b n w) s
    _ = .next (busWrite v (perfSel b.val n.toNat) w s) := rfl
    _ = _ := by rw [hplace, busWrite_perf b.isLt hoff h, perfWrite_sel]

/-- Settles O10: the row writes PERF_SEL in the block, which stores the word as it is unless bit 3 of PRIV comes from a view but the
supervisor's. -/
theorem perfSelPrivilege : Obligations.PerfSelPrivilege := by
  unfold Obligations.PerfSelPrivilege
  refine ⟨fun b n w i s h => ?_, fun v b n w i s h hv => ⟨fun hbit => ?_, fun hbit => ?_⟩⟩
  · rw [exec_perfSelWrite h, perfSelWrite_stored (.inr rfl)]
  · rw [exec_perfSelWrite h, perfSelWrite_refused hbit hv]
  · rw [exec_perfSelWrite h, perfSelWrite_stored (.inl hbit)]

end Sys2Proof.Proofs
end

section
/-! The step as a whole: every command keeps the device well formed, takes only itself from the queue, and writes no kind of state that the
tables of Safety do not give it. The three follow from one lemma over the commands, `exec_keeps`. -/
namespace Sys2Proof.Proofs
open Sys2Proof Sys2Proof.Machine

/-- A kind of state whose value is not given is free to change. -/
def FreeIn (F : Fixed) : Kind → Prop
  | .host => F.host = none
  | .mram => F.mram = none
  | .sram => F.sram = none
  | .takes => F.takes = none
  | .recs => F.recs = none
  | .mode => F.mode = none
  | .time => F.time = none
  | .links => F.links = none
  | .pairs => F.pairs = none
  | .ports => F.ports = none
  | .tiles => F.tiles = none
  | .runs => F.runs = none
  | .captures => F.captures = none
  | .syns => F.syns = none
  | .lanes => F.lanes = none
  | .fw => F.fw = none

/-- A command keeps what it keeps as long as the kinds of state that it may write are free. -/
theorem exec_keeps {F : Fixed} {s : State} (hs : Keeps F s) :
    ∀ i : Instr, (∀ k, mayWrite k i = true → FreeIn F k) → KeepsO F (exec i s)
  | .devIdentify c, _ => keeps_execDevIdentify c hs
  | .devStatus c, _ => keeps_execDevStatus c hs
  | .devOff c, _ => keeps_execDevOff c hs
  | .devTimeSet c, free => keeps_execDevTimeSet c hs (free .time rfl)
  | .devLockQuery c, _ => keeps_execDevLockQuery c hs
  | .linkConfigure c entry, free => keeps_execLinkConfigure c entry hs (free .links rfl)
  | .linkUp c, free => keeps_execLinkUp c hs (free .takes rfl) (free .links rfl) (free .pairs rfl) (free .ports rfl)
  | .linkDown c, free => keeps_execLinkDown c hs (free .links rfl) (free .pairs rfl) (free .ports rfl) (free .tiles rfl)
      (free .runs rfl) (free .captures rfl) (free .syns rfl) (free .lanes rfl)
  | .linkStatus c, _ => keeps_execLinkStatus c hs
  | .linkRefresh c entry, free => keeps_execLinkRefresh c entry hs (free .links rfl)
  | .linkQuietPolicy c, free => keeps_execLinkQuietPolicy c hs (free .links rfl)
  | .linkForceRole c, free => keeps_execLinkForceRole c hs (free .ports rfl)
  | .linkTrainStep c, free => keeps_execLinkTrainStep c hs (free .links rfl) (free .pairs rfl) (free .runs rfl) (free .lanes rfl)
  | .takeList c, _ => keeps_execTakeList c hs
  | .takeRead c, _ => keeps_execTakeRead c hs
  | .takeWrite c, free => keeps_execTakeWrite c hs (free .takes rfl) (free .pairs rfl) (free .tiles rfl)
  | .takeVerify c, free => keeps_execTakeVerify c hs (free .tiles rfl)
  | .takeCut c, free => keeps_execTakeCut c hs (free .pairs rfl) (free .tiles rfl)
  | .takeGrade c, free => keeps_execTakeGrade c hs (free .runs rfl)
  | .takePolicy c, free => keeps_execTakePolicy c hs (free .links rfl)
  | .rushesArm c, free => keeps_execRushesArm c hs (free .captures rfl)
  | .rushesStatus c, _ => keeps_execRushesStatus c hs
  | .rushesUpload c, _ => keeps_execRushesUpload c hs
  | .cableProfile c, free => keeps_execCableProfile c hs (free .runs rfl)
  | .cableTest c, free => keeps_execCableTest c hs (free .pairs rfl) (free .ports rfl) (free .syns rfl) (free .lanes rfl)
  | .pairSnr c, _ => keeps_execPairSnr c hs
  | .eyeScan c, free => keeps_execEyeScan c hs (free .lanes rfl)
  | .loopback c, free => keeps_execLoopback c hs (free .links rfl) (free .pairs rfl) (free .ports rfl) (free .lanes rfl)
  | .clkOutputSet c, free => keeps_execClkOutputSet c hs (free .pairs rfl) (free .lanes rfl)
  | .clkPllProgram c, free => keeps_execClkPllProgram c hs (free .pairs rfl) (free .syns rfl) (free .lanes rfl)
  | .clkHop c, free => keeps_execClkHop c hs (free .pairs rfl) (free .syns rfl) (free .lanes rfl)
  | .clkStep c, free => keeps_execClkStep c hs (free .syns rfl)
  | .clkSpread c, _ => keeps_execClkSpread c hs
  | .clkSyncArm c, _ => keeps_execClkSyncArm c hs
  | .clkRefSelect c step diff, free => keeps_execClkRefSelect c step diff hs (free .pairs rfl) (free .ports rfl)
  | .clkStatus c, _ => keeps_execClkStatus c hs
  | .pwrStateSet c, _ => keeps_execPwrStateSet c hs
  | .pwrPolicy c, _ => keeps_execPwrPolicy c hs
  | .pwrLevelSet c, free => keeps_execPwrLevelSet c hs (free .pairs rfl)
  | .pwrStatus c, _ => keeps_execPwrStatus c hs
  | .pwrKeepAwake c, _ => keeps_execPwrKeepAwake c hs
  | .cntSnapshot c, _ => keeps_execCntSnapshot c hs
  | .cntRead c, _ => keeps_execCntRead c hs
  | .cntClear c, free => keeps_execCntClear c hs (free .pairs rfl)
  | .utilWindow c, _ => keeps_execUtilWindow c hs
  | .contList c, _ => keeps_execContList c hs
  | .contRead c, _ => keeps_execContRead c hs
  | .contDelete c, free => keeps_execContDelete c hs (free .recs rfl)
  | .calRecordRead c, _ => keeps_execCalRecordRead c hs
  | .fwStage c chunk, free => keeps_execFwStage c chunk hs (free .mram rfl) (free .fw rfl)
  | .fwActivate c, free => keeps_execFwActivate c hs (free .fw rfl)
  | .fwStatus c, _ => keeps_execFwStatus c hs
  | .chainEnumerate c, _ => keeps_execChainEnumerate c hs
  | .chainStatus c, _ => keeps_execChainStatus c hs
  | .chainEpoch c, _ => keeps_execChainEpoch c hs
  | .evtSubscribe c, _ => keeps_execEvtSubscribe c hs
  | .evtReadLog c, _ => keeps_execEvtReadLog c hs
  | .hlConfigure c, free => keeps_execHlConfigure c hs (free .pairs rfl) (free .lanes rfl)
  | .hlStatus c, _ => keeps_execHlStatus c hs
  | .hlCtleSet c, free => keeps_execHlCtleSet c hs (free .lanes rfl)
  | .commandTimeoutExpiry e, free => keeps_execCommandTimeoutExpiry e hs (free .links rfl) (free .pairs rfl) (free .ports rfl)
      (free .tiles rfl) (free .runs rfl) (free .captures rfl) (free .syns rfl) (free .lanes rfl) (free .fw rfl)
  | .sqTailDoorbell n v, _ => keeps_execSqTailDoorbell n v hs
  | .slotFetch, _ => keeps_execSlotFetch hs
  | .slotFetchDone r data, _ => keeps_execSlotFetchDone r data hs
  | .hostReadCompletionTimeout r, _ => keeps_execHostReadCompletionTimeout r hs
  | .statusSlotWrite n, free => keeps_execStatusSlotWrite n hs (free .host rfl)
  | .cqHeadDoorbell n v, _ => keeps_execCqHeadDoorbell n v hs
  | .cqCoalesceExpiry n, _ => keeps_execCqCoalesceExpiry n hs
  | .sqCfgWrite v n w, _ => keeps_execSqCfgWrite v n w hs
  | .cqCfgWrite v n w, _ => keeps_execCqCfgWrite v n w hs
  | .ldtCtlWrite v w, _ => keeps_execLdtCtlWrite v w hs
  | .ldtCacheFill l data, _ => keeps_execLdtCacheFill l data hs
  | .mailboxGo serial w, _ => keeps_execMailboxGo serial w hs
  | .mailboxBufferWrite word w, _ => keeps_execMailboxBufferWrite word w hs
  | .mboxWdata w, _ => keeps_execMboxWdata w hs
  | .mboxRdata, _ => keeps_execMboxRdata hs
  | .eventRingHeadDoorbell w, _ => keeps_execEventRingHeadDoorbell w hs
  | .evtRingCfgWrite v reg w, _ => keeps_execEvtRingCfgWrite v reg w hs
  | .eventRecordDelivery, free => keeps_execEventRecordDelivery hs (free .host rfl)
  | .eventLogWrite, _ => keeps_execEventLogWrite hs
  | .counterRecordPeriod l, free => keeps_execCounterRecordPeriod l hs (free .host rfl) (free .links rfl)
  | .registerWrite v a w whole, free => keeps_execRegisterWrite v a w whole hs (free .mram rfl) (free .sram rfl) (free .takes rfl)
      (free .mode rfl) (free .time rfl) (free .links rfl) (free .pairs rfl) (free .ports rfl) (free .tiles rfl) (free .runs rfl)
      (free .captures rfl) (free .syns rfl) (free .lanes rfl) (free .fw rfl)
  | .clearOnRead v a whole, _ => keeps_execClearOnRead v a whole hs
  | .devTimeLoRead v, _ => keeps_execDevTimeLoRead v hs
  | .snapCtlGo v, free => keeps_execSnapCtlGo v hs (free .mram rfl) (free .sram rfl) (free .takes rfl) (free .mode rfl) (free .time rfl)
      (free .links rfl) (free .pairs rfl) (free .ports rfl) (free .tiles rfl) (free .runs rfl) (free .captures rfl) (free .syns rfl)
      (free .lanes rfl) (free .fw rfl)
  | .snapCtlHeld v b, free => keeps_execSnapCtlHeld v b hs (free .mram rfl) (free .sram rfl) (free .takes rfl) (free .mode rfl)
      (free .time rfl) (free .links rfl) (free .pairs rfl) (free .ports rfl) (free .tiles rfl) (free .runs rfl) (free .captures rfl)
      (free .syns rfl) (free .lanes rfl) (free .fw rfl)
  | .snapshotComplete, _ => keeps_execSnapshotComplete hs
  | .lockCtlWrite v w, free => keeps_execLockCtlWrite v w hs (free .mram rfl) (free .sram rfl) (free .takes rfl) (free .mode rfl)
      (free .time rfl) (free .links rfl) (free .pairs rfl) (free .ports rfl) (free .tiles rfl) (free .runs rfl) (free .captures rfl)
      (free .syns rfl) (free .lanes rfl) (free .fw rfl)
  | .portReset v p, free => keeps_execPortReset v p hs (free .mram rfl) (free .sram rfl) (free .takes rfl) (free .mode rfl)
      (free .time rfl) (free .links rfl) (free .pairs rfl) (free .ports rfl) (free .tiles rfl) (free .runs rfl) (free .captures rfl)
      (free .syns rfl) (free .lanes rfl) (free .fw rfl)
  | .pairSwapWrite v p b, free => keeps_execPairSwapWrite v p b hs (free .mram rfl) (free .sram rfl) (free .takes rfl) (free .mode rfl)
      (free .time rfl) (free .links rfl) (free .pairs rfl) (free .ports rfl) (free .tiles rfl) (free .runs rfl) (free .captures rfl)
      (free .syns rfl) (free .lanes rfl) (free .fw rfl)
  | .pairRestart v l, free => keeps_execPairRestart v l hs (free .mram rfl) (free .sram rfl) (free .takes rfl) (free .mode rfl)
      (free .time rfl) (free .links rfl) (free .pairs rfl) (free .ports rfl) (free .tiles rfl) (free .runs rfl) (free .captures rfl)
      (free .syns rfl) (free .lanes rfl) (free .fw rfl)
  | .txDisableWrite v l b, free => keeps_execTxDisableWrite v l b hs (free .mram rfl) (free .sram rfl) (free .takes rfl)
      (free .mode rfl) (free .time rfl) (free .links rfl) (free .pairs rfl) (free .ports rfl) (free .tiles rfl) (free .runs rfl)
      (free .captures rfl) (free .syns rfl) (free .lanes rfl) (free .fw rfl)
  | .clkSynWrite v l b, free => keeps_execClkSynWrite v l b hs (free .mram rfl) (free .sram rfl) (free .takes rfl) (free .mode rfl)
      (free .time rfl) (free .links rfl) (free .pairs rfl) (free .ports rfl) (free .tiles rfl) (free .runs rfl) (free .captures rfl)
      (free .syns rfl) (free .lanes rfl) (free .fw rfl)
  | .tileReset v t, free => keeps_execTileReset v t hs (free .mram rfl) (free .sram rfl) (free .takes rfl) (free .mode rfl)
      (free .time rfl) (free .links rfl) (free .pairs rfl) (free .ports rfl) (free .tiles rfl) (free .runs rfl) (free .captures rfl)
      (free .syns rfl) (free .lanes rfl) (free .fw rfl)
  | .devResetCtlWrite v w, free => keeps_execDevResetCtlWrite v w hs (free .mram rfl) (free .sram rfl) (free .takes rfl)
      (free .mode rfl) (free .time rfl) (free .links rfl) (free .pairs rfl) (free .ports rfl) (free .tiles rfl) (free .runs rfl)
      (free .captures rfl) (free .syns rfl) (free .lanes rfl) (free .fw rfl)
  | .chainRestart v, free => keeps_execChainRestart v hs (free .mram rfl) (free .sram rfl) (free .takes rfl) (free .mode rfl)
      (free .time rfl) (free .links rfl) (free .pairs rfl) (free .ports rfl) (free .tiles rfl) (free .runs rfl) (free .captures rfl)
      (free .syns rfl) (free .lanes rfl) (free .fw rfl)
  | .refSelWrite v w step diff, free => keeps_execRefSelWrite v w step diff hs (free .mram rfl) (free .sram rfl) (free .takes rfl)
      (free .mode rfl) (free .time rfl) (free .links rfl) (free .pairs rfl) (free .ports rfl) (free .tiles rfl) (free .runs rfl)
      (free .captures rfl) (free .syns rfl) (free .lanes rfl) (free .fw rfl)
  | .synSlotWrite v ix k, free => keeps_execSynSlotWrite v ix k hs (free .mram rfl) (free .sram rfl) (free .takes rfl) (free .mode rfl)
      (free .time rfl) (free .links rfl) (free .pairs rfl) (free .ports rfl) (free .tiles rfl) (free .runs rfl) (free .captures rfl)
      (free .syns rfl) (free .lanes rfl) (free .fw rfl)
  | .synBwWrite v ix bw, free => keeps_execSynBwWrite v ix bw hs (free .mram rfl) (free .sram rfl) (free .takes rfl) (free .mode rfl)
      (free .time rfl) (free .links rfl) (free .pairs rfl) (free .ports rfl) (free .tiles rfl) (free .runs rfl) (free .captures rfl)
      (free .syns rfl) (free .lanes rfl) (free .fw rfl)
  | .synPredivWrite v ix m1, free => keeps_execSynPredivWrite v ix m1 hs (free .mram rfl) (free .sram rfl) (free .takes rfl)
      (free .mode rfl) (free .time rfl) (free .links rfl) (free .pairs rfl) (free .ports rfl) (free .tiles rfl) (free .runs rfl)
      (free .captures rfl) (free .syns rfl) (free .lanes rfl) (free .fw rfl)
  | .synSlotWordWrite v ix k frac w, free => keeps_execSynSlotWordWrite v ix k frac w hs (free .mram rfl) (free .sram rfl)
      (free .takes rfl) (free .mode rfl) (free .time rfl) (free .links rfl) (free .pairs rfl) (free .ports rfl) (free .tiles rfl)
      (free .runs rfl) (free .captures rfl) (free .syns rfl) (free .lanes rfl) (free .fw rfl)
  | .rcSlotWrite v osb k word, free => keeps_execRcSlotWrite v osb k word hs (free .mram rfl) (free .sram rfl) (free .takes rfl)
      (free .mode rfl) (free .time rfl) (free .links rfl) (free .pairs rfl) (free .ports rfl) (free .tiles rfl) (free .runs rfl)
      (free .captures rfl) (free .syns rfl) (free .lanes rfl) (free .fw rfl)
  | .rcEnableWrite v osb b, free => keeps_execRcEnableWrite v osb b hs (free .mram rfl) (free .sram rfl) (free .takes rfl)
      (free .mode rfl) (free .time rfl) (free .links rfl) (free .pairs rfl) (free .ports rfl) (free .tiles rfl) (free .runs rfl)
      (free .captures rfl) (free .syns rfl) (free .lanes rfl) (free .fw rfl)
  | .outDivPhaseWrite v n phase x, free => keeps_execOutDivPhaseWrite v n phase x hs (free .mram rfl) (free .sram rfl) (free .takes rfl)
      (free .mode rfl) (free .time rfl) (free .links rfl) (free .pairs rfl) (free .ports rfl) (free .tiles rfl) (free .runs rfl)
      (free .captures rfl) (free .syns rfl) (free .lanes rfl) (free .fw rfl)
  | .outFmtSrcWrite v n fmt src, free => keeps_execOutFmtSrcWrite v n fmt src hs (free .mram rfl) (free .sram rfl) (free .takes rfl)
      (free .mode rfl) (free .time rfl) (free .links rfl) (free .pairs rfl) (free .ports rfl) (free .tiles rfl) (free .runs rfl)
      (free .captures rfl) (free .syns rfl) (free .lanes rfl) (free .fw rfl)
  | .outCtlReturn v n, free => keeps_execOutCtlReturn v n hs (free .mram rfl) (free .sram rfl) (free .takes rfl) (free .mode rfl)
      (free .time rfl) (free .links rfl) (free .pairs rfl) (free .ports rfl) (free .tiles rfl) (free .runs rfl) (free .captures rfl)
      (free .syns rfl) (free .lanes rfl) (free .fw rfl)
  | .outSpreadWrite v n w, free => keeps_execOutSpreadWrite v n w hs (free .mram rfl) (free .sram rfl) (free .takes rfl)
      (free .mode rfl) (free .time rfl) (free .links rfl) (free .pairs rfl) (free .ports rfl) (free .tiles rfl) (free .runs rfl)
      (free .captures rfl) (free .syns rfl) (free .lanes rfl) (free .fw rfl)
  | .spreadTop n, _ => keeps_execSpreadTop n hs
  | .hlCtlWrite v n w, free => keeps_execHlCtlWrite v n w hs (free .mram rfl) (free .sram rfl) (free .takes rfl) (free .mode rfl)
      (free .time rfl) (free .links rfl) (free .pairs rfl) (free .ports rfl) (free .tiles rfl) (free .runs rfl) (free .captures rfl)
      (free .syns rfl) (free .lanes rfl) (free .fw rfl)
  | .pwrTargetWrite v d w, free => keeps_execPwrTargetWrite v d w hs (free .mram rfl) (free .sram rfl) (free .takes rfl)
      (free .mode rfl) (free .time rfl) (free .links rfl) (free .pairs rfl) (free .ports rfl) (free .tiles rfl) (free .runs rfl)
      (free .captures rfl) (free .syns rfl) (free .lanes rfl) (free .fw rfl)
  | .pwrPlWrite v oper w, free => keeps_execPwrPlWrite v oper w hs (free .mram rfl) (free .sram rfl) (free .takes rfl) (free .mode rfl)
      (free .time rfl) (free .links rfl) (free .pairs rfl) (free .ports rfl) (free .tiles rfl) (free .runs rfl) (free .captures rfl)
      (free .syns rfl) (free .lanes rfl) (free .fw rfl)
  | .perfCtlClear v b, free => keeps_execPerfCtlClear v b hs (free .mram rfl) (free .sram rfl) (free .takes rfl) (free .mode rfl)
      (free .time rfl) (free .links rfl) (free .pairs rfl) (free .ports rfl) (free .tiles rfl) (free .runs rfl) (free .captures rfl)
      (free .syns rfl) (free .lanes rfl) (free .fw rfl)
  | .perfCtlWinArm v b, free => keeps_execPerfCtlWinArm v b hs (free .mram rfl) (free .sram rfl) (free .takes rfl) (free .mode rfl)
      (free .time rfl) (free .links rfl) (free .pairs rfl) (free .ports rfl) (free .tiles rfl) (free .runs rfl) (free .captures rfl)
      (free .syns rfl) (free .lanes rfl) (free .fw rfl)
  | .perfCtlEnFreeze v b en freeze, free => keeps_execPerfCtlEnFreeze v b en freeze hs (free .mram rfl) (free .sram rfl)
      (free .takes rfl) (free .mode rfl) (free .time rfl) (free .links rfl) (free .pairs rfl) (free .ports rfl) (free .tiles rfl)
      (free .runs rfl) (free .captures rfl) (free .syns rfl) (free .lanes rfl) (free .fw rfl)
  | .perfSelWrite v b n w, free => keeps_execPerfSelWrite v b n w hs (free .mram rfl) (free .sram rfl) (free .takes rfl)
      (free .mode rfl) (free .time rfl) (free .links rfl) (free .pairs rfl) (free .ports rfl) (free .tiles rfl) (free .runs rfl)
      (free .captures rfl) (free .syns rfl) (free .lanes rfl) (free .fw rfl)
  | .perfWindowStart b, _ => keeps_execPerfWindowStart b hs
  | .perfWindowEnd b, _ => keeps_execPerfWindowEnd b hs
  | .perfOverflow b n, _ => keeps_execPerfOverflow b n hs
  | .bcfgSetup w, free => keeps_execBcfgSetup w hs (free .mram rfl) (free .sram rfl) (free .takes rfl) (free .mode rfl) (free .time rfl)
      (free .links rfl) (free .pairs rfl) (free .ports rfl) (free .tiles rfl) (free .runs rfl) (free .captures rfl) (free .syns rfl)
      (free .lanes rfl) (free .fw rfl)
  | .bcfgCommit w, free => keeps_execBcfgCommit w hs (free .mram rfl) (free .sram rfl) (free .takes rfl) (free .mode rfl)
      (free .time rfl) (free .links rfl) (free .pairs rfl) (free .ports rfl) (free .tiles rfl) (free .runs rfl) (free .captures rfl)
      (free .syns rfl) (free .lanes rfl) (free .fw rfl)
  | .bcfgDataAccess write, free => keeps_execBcfgDataAccess write hs (free .mram rfl) (free .sram rfl) (free .takes rfl)
      (free .mode rfl) (free .time rfl) (free .links rfl) (free .pairs rfl) (free .ports rfl) (free .tiles rfl) (free .runs rfl)
      (free .captures rfl) (free .syns rfl) (free .lanes rfl) (free .fw rfl)
  | .serialWindowedRead ix n late, free => keeps_execSerialWindowedRead ix n late hs (free .mram rfl) (free .sram rfl) (free .takes rfl)
      (free .mode rfl) (free .time rfl) (free .links rfl) (free .pairs rfl) (free .ports rfl) (free .tiles rfl) (free .runs rfl)
      (free .captures rfl) (free .syns rfl) (free .lanes rfl) (free .fw rfl)
  | .serialWindowedWrite ix ws, free => keeps_execSerialWindowedWrite ix ws hs (free .mram rfl) (free .sram rfl) (free .takes rfl)
      (free .mode rfl) (free .time rfl) (free .links rfl) (free .pairs rfl) (free .ports rfl) (free .tiles rfl) (free .runs rfl)
      (free .captures rfl) (free .syns rfl) (free .lanes rfl) (free .fw rfl)
  | .serialAddressedFrame rsvd a ws n late, free => keeps_execSerialAddressedFrame rsvd a ws n late hs (free .mram rfl) (free .sram rfl)
      (free .takes rfl) (free .mode rfl) (free .time rfl) (free .links rfl) (free .pairs rfl) (free .ports rfl) (free .tiles rfl)
      (free .runs rfl) (free .captures rfl) (free .syns rfl) (free .lanes rfl) (free .fw rfl)
  | .serialStatusRead, free => keeps_execSerialStatusRead hs (free .mram rfl) (free .sram rfl) (free .takes rfl) (free .mode rfl)
      (free .time rfl) (free .links rfl) (free .pairs rfl) (free .ports rfl) (free .tiles rfl) (free .runs rfl) (free .captures rfl)
      (free .syns rfl) (free .lanes rfl) (free .fw rfl)
  | .serialRetry n, _ => keeps_execSerialRetry n hs
  | .serialHeldReadDone, _ => keeps_execSerialHeldReadDone hs
  | .serialFrameIdleTimeout f, free => keeps_execSerialFrameIdleTimeout f hs (free .mram rfl) (free .sram rfl) (free .takes rfl)
      (free .mode rfl) (free .time rfl) (free .links rfl) (free .pairs rfl) (free .ports rfl) (free .tiles rfl) (free .runs rfl)
      (free .captures rfl) (free .syns rfl) (free .lanes rfl) (free .fw rfl)
  | .serialWritePosted, free => keeps_execSerialWritePosted hs (free .mram rfl) (free .sram rfl) (free .takes rfl) (free .mode rfl)
      (free .time rfl) (free .links rfl) (free .pairs rfl) (free .ports rfl) (free .tiles rfl) (free .runs rfl) (free .captures rfl)
      (free .syns rfl) (free .lanes rfl) (free .fw rfl)
  | .accessStallTimeout v a write, _ => keeps_execAccessStallTimeout v a write hs
  | .functionReset kind, _ => keeps_execFunctionReset kind hs
  | .d3hotEntry, _ => keeps_execD3hotEntry hs
  | .d0Return, _ => keeps_execD0Return hs
  | .busMasterEnableChange b, _ => keeps_execBusMasterEnableChange b hs
  | .msixUnmask v, _ => keeps_execMsixUnmask v hs
  | .pcieInboundRequest write a poisoned, free => keeps_execPcieInboundRequest write a poisoned hs (free .mram rfl) (free .sram rfl)
      (free .takes rfl) (free .mode rfl) (free .time rfl) (free .links rfl) (free .pairs rfl) (free .ports rfl) (free .tiles rfl)
      (free .runs rfl) (free .captures rfl) (free .syns rfl) (free .lanes rfl) (free .fw rfl)
  | .pcieConfigRequest r, _ => keeps_execPcieConfigRequest r hs
  | .powerOnReset, free => keeps_execPowerOnReset hs (free .sram rfl) (free .takes rfl) (free .mode rfl) (free .time rfl)
      (free .links rfl) (free .pairs rfl) (free .ports rfl) (free .tiles rfl) (free .runs rfl) (free .captures rfl) (free .syns rfl)
      (free .lanes rfl) (free .fw rfl)
  | .resetNPulse, free => keeps_execResetNPulse hs (free .sram rfl) (free .takes rfl) (free .mode rfl) (free .time rfl)
      (free .links rfl) (free .pairs rfl) (free .ports rfl) (free .tiles rfl) (free .runs rfl) (free .captures rfl) (free .syns rfl)
      (free .lanes rfl) (free .fw rfl)
  | .wakePin, free => keeps_execWakePin hs (free .sram rfl) (free .takes rfl) (free .mode rfl) (free .time rfl) (free .links rfl)
      (free .pairs rfl) (free .ports rfl) (free .tiles rfl) (free .runs rfl) (free .captures rfl) (free .syns rfl) (free .lanes rfl)
      (free .fw rfl)
  | .deviceBoot mgr passing imgs, free => keeps_execDeviceBoot mgr passing imgs hs (free .mode rfl) (free .pairs rfl) (free .syns rfl)
      (free .fw rfl)
  | .refWaitExpiry, _ => keeps_execRefWaitExpiry hs
  | .pendingRootSwitch, free => keeps_execPendingRootSwitch hs (free .pairs rfl)
  | .rackPllBootEnable ix, free => keeps_execRackPllBootEnable ix hs (free .syns rfl)
  | .tileSynthEnable t, free => keeps_execTileSynthEnable t hs (free .pairs rfl) (free .syns rfl) (free .lanes rfl)
  | .supplyDipStart rail low, _ => keeps_execSupplyDipStart rail low hs
  | .supplyDipRecovery rail low, _ => keeps_execSupplyDipRecovery rail low hs
  | .mramHoldEnd, _ => keeps_execMramHoldEnd hs
  | .supplyLow rail low, _ => keeps_execSupplyLow rail low hs
  | .vddAonLow, free => keeps_execVddAonLow hs (free .sram rfl) (free .takes rfl) (free .mode rfl) (free .time rfl) (free .links rfl)
      (free .pairs rfl) (free .ports rfl) (free .tiles rfl) (free .runs rfl) (free .captures rfl) (free .syns rfl) (free .lanes rfl)
      (free .fw rfl)
  | .thermAlert ix t, _ => keeps_execThermAlert ix t hs
  | .thermClear ts, _ => keeps_execThermClear ts hs
  | .thermCrit ix t, _ => keeps_execThermCrit ix t hs
  | .powerIdleTimerExpiry d st, _ => keeps_execPowerIdleTimerExpiry d st hs
  | .powerDrainTimeout d, _ => keeps_execPowerDrainTimeout d hs
  | .powerEntryComplete d, free => keeps_execPowerEntryComplete d hs (free .takes rfl) (free .links rfl) (free .pairs rfl)
      (free .ports rfl) (free .tiles rfl) (free .runs rfl) (free .captures rfl) (free .syns rfl) (free .lanes rfl)
  | .wakeRequest d edge late, _ => keeps_execWakeRequest d edge late hs
  | .domainReady d, free => keeps_execDomainReady d hs (free .pairs rfl) (free .syns rfl) (free .lanes rfl)
  | .perfLevelChangeDone u, _ => keeps_execPerfLevelChangeDone u hs
  | .deviceOffEntry, free => keeps_execDeviceOffEntry hs (free .sram rfl) (free .takes rfl) (free .mode rfl) (free .time rfl)
      (free .links rfl) (free .pairs rfl) (free .ports rfl) (free .tiles rfl) (free .runs rfl) (free .captures rfl) (free .syns rfl)
      (free .lanes rfl) (free .fw rfl)
  | .refNoEdges src dev step diff, free => keeps_execRefNoEdges src dev step diff hs (free .links rfl) (free .pairs rfl)
      (free .ports rfl) (free .tiles rfl) (free .runs rfl) (free .captures rfl) (free .syns rfl) (free .lanes rfl)
  | .refFrequencyFault src dev step diff, free => keeps_execRefFrequencyFault src dev step diff hs (free .links rfl) (free .pairs rfl)
      (free .ports rfl) (free .tiles rfl) (free .runs rfl) (free .captures rfl) (free .syns rfl) (free .lanes rfl)
  | .monitorPass src dev, _ => keeps_execMonitorPass src dev hs
  | .refSlewEnd, _ => keeps_execRefSlewEnd hs
  | .deviceTimeCorrection d, free => keeps_execDeviceTimeCorrection d hs (free .time rfl)
  | .tileRootReturn t, free => keeps_execTileRootReturn t hs (free .pairs rfl)
  | .aonCoreFailover dev, free => keeps_execAonCoreFailover dev hs (free .links rfl) (free .pairs rfl) (free .ports rfl)
      (free .tiles rfl) (free .runs rfl) (free .captures rfl) (free .syns rfl) (free .lanes rfl)
  | .bothCoresDead, free => keeps_execBothCoresDead hs (free .sram rfl) (free .takes rfl) (free .mode rfl) (free .time rfl)
      (free .links rfl) (free .pairs rfl) (free .ports rfl) (free .tiles rfl) (free .runs rfl) (free .captures rfl) (free .syns rfl)
      (free .lanes rfl) (free .fw rfl)
  | .muxWatchdogForce mux inst, free => keeps_execMuxWatchdogForce mux inst hs (free .pairs rfl)
  | .muxNewDead mux inst oldAlive, free => keeps_execMuxNewDead mux inst oldAlive hs (free .pairs rfl)
  | .muxSwitchDone mux inst, free => keeps_execMuxSwitchDone mux inst hs (free .pairs rfl)
  | .synthLossOfLock ix, free => keeps_execSynthLossOfLock ix hs (free .links rfl) (free .pairs rfl) (free .ports rfl) (free .tiles rfl)
      (free .runs rfl) (free .captures rfl) (free .syns rfl) (free .lanes rfl)
  | .synthMarginLow ix m, free => keeps_execSynthMarginLow ix m hs (free .syns rfl)
  | .synthHopDone ix band other fresh, free => keeps_execSynthHopDone ix band other fresh hs (free .pairs rfl) (free .syns rfl)
      (free .lanes rfl)
  | .steeringPeriod p q, free => keeps_execSteeringPeriod p q hs (free .links rfl) (free .pairs rfl) (free .ports rfl) (free .syns rfl)
  | .smallStepApplied ix, free => keeps_execSmallStepApplied ix hs (free .syns rfl)
  | .steerRamp p, free => keeps_execSteerRamp p hs (free .ports rfl) (free .syns rfl)
  | .acquireRamp p, free => keeps_execAcquireRamp p hs (free .syns rfl)
  | .rackPllRefLost ix, free => keeps_execRackPllRefLost ix hs (free .pairs rfl)
  | .rackPllRefReturn ix, _ => keeps_execRackPllRefReturn ix hs
  | .rackPllUnlock ix, free => keeps_execRackPllUnlock ix hs (free .pairs rfl)
  | .rackPllRelock ix, _ => keeps_execRackPllRelock ix hs
  | .bypassInputFail src, _ => keeps_execBypassInputFail src hs
  | .rackHopDone ix band fresh, free => keeps_execRackHopDone ix band fresh hs (free .syns rfl)
  | .clapperPulse, free => keeps_execClapperPulse hs (free .pairs rfl) (free .syns rfl) (free .lanes rfl)
  | .clapperRideThroughEnd t, free => keeps_execClapperRideThroughEnd t hs (free .syns rfl)
  | .superframeStart l bad lpi, free => keeps_execSuperframeStart l bad lpi hs (free .takes rfl) (free .links rfl) (free .pairs rfl)
      (free .ports rfl) (free .tiles rfl) (free .runs rfl) (free .captures rfl) (free .syns rfl) (free .lanes rfl)
  | .txBankExchange l, free => keeps_execTxBankExchange l hs (free .pairs rfl)
  | .rxAnalogExchange l, free => keeps_execRxAnalogExchange l hs (free .pairs rfl)
  | .rxDigitalExchange l, free => keeps_execRxDigitalExchange l hs (free .pairs rfl)
  | .compatPeriodBoundary p bad badNext, free => keeps_execCompatPeriodBoundary p bad badNext hs (free .pairs rfl) (free .ports rfl)
      (free .tiles rfl)
  | .rowStart l lpi, free => keeps_execRowStart l lpi hs (free .pairs rfl)
  | .txUnderrun l, free => keeps_execTxUnderrun l hs (free .pairs rfl)
  | .gbxOverflow l n, free => keeps_execGbxOverflow l n hs (free .pairs rfl)
  | .syncWordReceived l n spaced ms, free => keeps_execSyncWordReceived l n spaced ms hs (free .links rfl) (free .pairs rfl)
      (free .ports rfl) (free .tiles rfl) (free .runs rfl) (free .captures rfl) (free .syns rfl) (free .lanes rfl)
  | .sfLockLoss l, free => keeps_execSfLockLoss l hs (free .links rfl) (free .pairs rfl) (free .ports rfl) (free .tiles rfl)
      (free .runs rfl) (free .captures rfl) (free .syns rfl) (free .lanes rfl)
  | .rowHeaderReceived l r h, free => keeps_execRowHeaderReceived l r h hs (free .pairs rfl) (free .lanes rfl)
  | .countReceived l msg off, free => keeps_execCountReceived l msg off hs (free .links rfl) (free .pairs rfl) (free .ports rfl)
      (free .tiles rfl) (free .runs rfl) (free .captures rfl) (free .syns rfl) (free .lanes rfl)
  | .cutNoticeReceived l msg, free => keeps_execCutNoticeReceived l msg hs (free .pairs rfl) (free .tiles rfl)
  | .cutAckReceived l msg, free => keeps_execCutAckReceived l msg hs (free .pairs rfl) (free .tiles rfl)
  | .identityReceived l msg, free => keeps_execIdentityReceived l msg hs (free .pairs rfl)
  | .quietMessageReceived l msg, free => keeps_execQuietMessageReceived l msg hs (free .pairs rfl)
  | .snrMeasurement l e held, free => keeps_execSnrMeasurement l e held hs (free .pairs rfl)
  | .interpLimit l high n first, free => keeps_execInterpLimit l high n first hs (free .pairs rfl)
  | .quietWake l, free => keeps_execQuietWake l hs (free .pairs rfl) (free .lanes rfl)
  | .clause73Page l page ms, free => keeps_execClause73Page l page ms hs (free .links rfl) (free .pairs rfl)
  | .negotiationResolution m off, free => keeps_execNegotiationResolution m off hs (free .takes rfl) (free .links rfl) (free .pairs rfl)
      (free .ports rfl) (free .tiles rfl) (free .runs rfl) (free .captures rfl) (free .syns rfl) (free .lanes rfl)
  | .beaconDetect l b ms, free => keeps_execBeaconDetect l b ms hs (free .links rfl) (free .pairs rfl)
  | .beaconWindowExpiry m, free => keeps_execBeaconWindowExpiry m hs (free .links rfl)
  | .fastRoadEntry m off, free => keeps_execFastRoadEntry m off hs (free .takes rfl) (free .recs rfl) (free .links rfl)
      (free .pairs rfl) (free .ports rfl) (free .tiles rfl) (free .runs rfl) (free .captures rfl) (free .syns rfl) (free .lanes rfl)
  | .compatParallelDetect m fired, free => keeps_execCompatParallelDetect m fired hs (free .links rfl) (free .pairs rfl)
      (free .ports rfl) (free .tiles rfl) (free .runs rfl) (free .captures rfl) (free .syns rfl) (free .lanes rfl)
  | .masterSuperframeZero m, free => keeps_execMasterSuperframeZero m hs (free .pairs rfl)
  | .joinRoadLock m, free => keeps_execJoinRoadLock m hs (free .takes rfl) (free .links rfl) (free .pairs rfl) (free .ports rfl)
      (free .tiles rfl) (free .runs rfl) (free .captures rfl) (free .syns rfl) (free .lanes rfl)
  | .timingDecision m, free => keeps_execTimingDecision m hs (free .links rfl) (free .ports rfl) (free .syns rfl)
  | .trainingPhaseEnd m, free => keeps_execTrainingPhaseEnd m hs (free .links rfl) (free .pairs rfl) (free .runs rfl) (free .lanes rfl)
  | .trainingPhaseLimit m, free => keeps_execTrainingPhaseLimit m hs (free .links rfl) (free .pairs rfl) (free .ports rfl)
      (free .tiles rfl) (free .runs rfl) (free .captures rfl) (free .syns rfl) (free .lanes rfl)
  | .qualificationWindow l e, free => keeps_execQualificationWindow l e hs (free .links rfl) (free .pairs rfl) (free .runs rfl)
      (free .lanes rfl)
  | .compatTrainingRequest l tx, free => keeps_execCompatTrainingRequest l tx hs (free .takes rfl) (free .pairs rfl)
  | .compatTrainingComplete m, free => keeps_execCompatTrainingComplete m hs (free .links rfl) (free .pairs rfl) (free .ports rfl)
      (free .runs rfl) (free .lanes rfl)
  | .compatTrainingTimeout m, free => keeps_execCompatTrainingTimeout m hs (free .links rfl) (free .pairs rfl) (free .ports rfl)
      (free .tiles rfl) (free .runs rfl) (free .captures rfl) (free .syns rfl) (free .lanes rfl)
  | .compatSignalLost l, free => keeps_execCompatSignalLost l hs (free .links rfl) (free .pairs rfl) (free .ports rfl) (free .tiles rfl)
      (free .runs rfl) (free .captures rfl) (free .syns rfl) (free .lanes rfl)
  | .leavingEnd m, free => keeps_execLeavingEnd m hs (free .takes rfl) (free .links rfl) (free .pairs rfl) (free .ports rfl)
      (free .syns rfl) (free .lanes rfl)
  | .holdoffExpiry m, free => keeps_execHoldoffExpiry m hs (free .takes rfl) (free .links rfl) (free .pairs rfl) (free .ports rfl)
  | .takeVerification t, free => keeps_execTakeVerification t hs (free .links rfl) (free .pairs rfl) (free .ports rfl) (free .tiles rfl)
      (free .runs rfl) (free .captures rfl) (free .syns rfl) (free .lanes rfl)
  | .bankFill t, free => keeps_execBankFill t hs (free .pairs rfl) (free .tiles rfl)
  | .gradingTemperatureEval l t, free => keeps_execGradingTemperatureEval l t hs (free .pairs rfl) (free .runs rfl)
  | .gradingTimerExpiry l, free => keeps_execGradingTimerExpiry l hs (free .runs rfl)
  | .gradingPassStart g, free => keeps_execGradingPassStart g hs (free .runs rfl) (free .captures rfl)
  | .gradingSegmentFold g, free => keeps_execGradingSegmentFold g hs (free .runs rfl) (free .captures rfl)
  | .gradingRunEnd l take retake clusters, free => keeps_execGradingRunEnd l take retake clusters hs (free .takes rfl) (free .links rfl)
      (free .pairs rfl) (free .ports rfl) (free .tiles rfl) (free .runs rfl) (free .captures rfl) (free .syns rfl) (free .lanes rfl)
  | .continuityRecordWrite m, free => keeps_execContinuityRecordWrite m hs (free .recs rfl)
  | .rushesCaptureStart p pos trig, free => keeps_execRushesCaptureStart p pos trig hs (free .pairs rfl) (free .captures rfl)
  | .rushesCaptureDone p data, free => keeps_execRushesCaptureDone p data hs (free .captures rfl)
  | .rushesHeld p, free => keeps_execRushesHeld p hs (free .captures rfl)
  | .rushesUploadDone p, free => keeps_execRushesUploadDone p hs (free .host rfl) (free .captures rfl)
  | .cableTestPairDone p clusters far length next, free => keeps_execCableTestPairDone p clusters far length next hs (free .ports rfl)
  | .eyeScanPoint n k, free => keeps_execEyeScanPoint n k hs (free .host rfl) (free .lanes rfl)
  | .utilWindowEnd p counts unmon, _ => keeps_execUtilWindowEnd p counts unmon hs
  | .acnanMarkerReceived n p t errs a b, free => keeps_execAcnanMarkerReceived n p t errs a b hs (free .pairs rfl) (free .lanes rfl)
  | .acnanInvalidHeader n second, free => keeps_execAcnanInvalidHeader n second hs (free .lanes rfl)
  | .acnanSlipSearchEnd n found, free => keeps_execAcnanSlipSearchEnd n found hs (free .pairs rfl) (free .lanes rfl)
  | .acnanMarkerLost n, free => keeps_execAcnanMarkerLost n hs (free .pairs rfl) (free .lanes rfl)
  | .acnanElasticSlip n, _ => keeps_execAcnanElasticSlip n hs
  | .acnanScheduledMarker p fills, free => keeps_execAcnanScheduledMarker p fills hs (free .pairs rfl) (free .ports rfl) (free .lanes rfl)
  | .acnanStuffOverflow n, free => keeps_execAcnanStuffOverflow n hs (free .ports rfl) (free .lanes rfl)
  | .hlGbxOverflow l words, free => keeps_execHlGbxOverflow l words hs (free .pairs rfl) (free .lanes rfl)
  | .acnanLaneSleep n, free => keeps_execAcnanLaneSleep n hs (free .ports rfl) (free .lanes rfl)
  | .acnanLaneWake n, free => keeps_execAcnanLaneWake n hs (free .pairs rfl) (free .lanes rfl)
  | .acnanRxAsleep n blocks, free => keeps_execAcnanRxAsleep n blocks hs (free .pairs rfl) (free .lanes rfl)
  | .acnanSignalDetect n, _ => keeps_execAcnanSignalDetect n hs
  | .gearboxResetHandshake bridge u n, free => keeps_execGearboxResetHandshake bridge u n hs (free .pairs rfl) (free .lanes rfl)
  | .gearboxHandshakeEnd l, free => keeps_execGearboxHandshakeEnd l hs (free .pairs rfl)
  | .resetComplete kind u, free => keeps_execResetComplete kind u hs (free .pairs rfl) (free .ports rfl) (free .tiles rfl)
      (free .syns rfl) (free .lanes rfl)
  | .scrubRead b off found rewritten h, free => keeps_execScrubRead b off found rewritten h hs (free .takes rfl) (free .fw rfl)
  | .tmrMismatch a majority copyA, _ => keeps_execTmrMismatch a majority copyA hs
  | .operatorWatchdogCheck beats, free => keeps_execOperatorWatchdogCheck beats hs (free .tiles rfl) (free .runs rfl)
      (free .captures rfl) (free .fw rfl)
  | .operatorTrap memory, free => keeps_execOperatorTrap memory hs (free .fw rfl)
  | .operatorRestart crypto, free => keeps_execOperatorRestart crypto hs (free .links rfl) (free .pairs rfl) (free .ports rfl)
      (free .tiles rfl) (free .runs rfl) (free .captures rfl) (free .syns rfl) (free .lanes rfl) (free .fw rfl)
  | .rollbackFloorTimer patch, free => keeps_execRollbackFloorTimer patch hs (free .fw rfl)
  | .quiescentPoint crypto, free => keeps_execQuiescentPoint crypto hs (free .links rfl) (free .pairs rfl) (free .ports rfl)
      (free .tiles rfl) (free .runs rfl) (free .captures rfl) (free .syns rfl) (free .lanes rfl) (free .fw rfl)
  | .patchActivation, free => keeps_execPatchActivation hs (free .fw rfl)
  | .supervisorRequest v a w, free => keeps_execSupervisorRequest v a w hs (free .mram rfl) (free .sram rfl) (free .takes rfl)
      (free .mode rfl) (free .time rfl) (free .links rfl) (free .pairs rfl) (free .ports rfl) (free .tiles rfl) (free .runs rfl)
      (free .captures rfl) (free .syns rfl) (free .lanes rfl) (free .fw rfl)
  | .lockstepMismatch, free => keeps_execLockstepMismatch hs (free .links rfl) (free .pairs rfl) (free .ports rfl) (free .tiles rfl)
      (free .runs rfl) (free .captures rfl) (free .syns rfl) (free .lanes rfl) (free .fw rfl)
  | .tokenFrame f v, _ => keeps_execTokenFrame f v hs
  | .commitFrame f, _ => keeps_execCommitFrame f hs
  | .enumerationTimeout, _ => keeps_execEnumerationTimeout hs
  | .cmdFrame f op c, _ => keeps_execCmdFrame f op c hs
  | .replyFrame f e addr status result, _ => keeps_execReplyFrame f e addr status result hs
  | .eventFrame fate addr seq code unit time data logged, _ => keeps_execEventFrame fate addr seq code unit time data logged hs
  | .timeFrameSend, _ => keeps_execTimeFrameSend hs
  | .timeFrameReceived fate f res, free => keeps_execTimeFrameReceived fate f res hs (free .time rfl) (free .syns rfl)
  | .timeFrameReturn fate f rt, _ => keeps_execTimeFrameReturn fate f rt hs
  | .chainTimeTimeout, _ => keeps_execChainTimeTimeout hs
  | .epochFrame fate f, _ => keeps_execEpochFrame fate f hs
  | .epochFrameReturn fate f, _ => keeps_execEpochFrameReturn fate f hs
  | .epochReturnTimeout id, _ => keeps_execEpochReturnTimeout id hs
  | .epochUnconfirmedDiscard id, _ => keeps_execEpochUnconfirmedDiscard id hs
  | .epochFire id, free => keeps_execEpochFire id hs (free .syns rfl)
  | .scheduledHopFire ix, free => keeps_execScheduledHopFire ix hs (free .syns rfl)
  | .chainInLoss, _ => keeps_execChainInLoss hs
  | .inLossFrameSend, _ => keeps_execInLossFrameSend hs
  | .inLossFrame f src, _ => keeps_execInLossFrame f src hs
  | .ringBrokenTimeout, _ => keeps_execRingBrokenTimeout hs
  | .chainInRelock, _ => keeps_execChainInRelock hs
  | .fabricStatusTimeout, _ => keeps_execFabricStatusTimeout hs
  | .rsMonitorLock l host n, free => keeps_execRsMonitorLock l host n hs (free .pairs rfl)
  | .rsMonitorLockLoss l host n, free => keeps_execRsMonitorLockLoss l host n hs (free .pairs rfl)
  | .perstNDeassertion, _ => keeps_execPerstNDeassertion hs
  | .aspmL1Entry, _ => keeps_execAspmL1Entry hs
  | .aspmL1Exit, _ => keeps_execAspmL1Exit hs
  | .cableProfileComputed g recs, free => keeps_execCableProfileComputed g recs hs (free .runs rfl) (free .captures rfl)
  | .finalChunkVerified crypto, free => keeps_execFinalChunkVerified crypto hs (free .fw rfl)

theorem keeps_of_exec {F : Fixed} {i : Instr} {s t : State} (hs : Keeps F s) (hfree : ∀ k, mayWrite k i = true → FreeIn F k)
    (h : exec i s = .next t) : Keeps F t := by
  have hk := exec_keeps hs i hfree
  rwa [h] at hk

/-- Only the queue is given. -/
def queueOnly (q : List Instr) : Fixed := { waiting := q }

theorem freeIn_queueOnly (q : List Instr) (k : Kind) : FreeIn (queueOnly q) k := by cases k <;> rfl

theorem keeps_queueOnly {s : State} (h : s.wf = true) : Keeps (queueOnly s.pending) s :=
  keeps_of_wf rfl (by simp [Fixes, queueOnly]) h

/-- A step keeps the device well formed and leaves the rest of the queue. -/
theorem step_keeps {s t : State} (hwf : s.wf = true) (hstep : step s = .next t) : Keeps (queueOnly s.pending.tail) t := by
  unfold step at hstep
  split at hstep
  case h_1 hq =>
    cases hstep
    have hk := keeps_queueOnly hwf
    rw [hq] at hk ⊢
    exact keeps_idle hk rfl
  case h_2 c rest hq =>
    rw [hq]
    exact keeps_of_exec (keeps_queueOnly (s := { s with pending := rest }) hwf) (fun k _ => freeIn_queueOnly _ k) hstep

/-- Settles O4: the invariant is the first part of what a step keeps. -/
theorem everyStepKeepsTheDeviceWellFormed : Obligations.EveryStepKeepsTheDeviceWellFormed :=
  fun _ _ hwf hstep => keeps_wf (step_keeps hwf hstep)

/-- Settles O5: the queue is the second. -/
theorem everyStepTakesOneCommand : Obligations.EveryStepTakesOneCommand :=
  fun _ _ hwf hstep => (step_keeps hwf hstep).queue

/-- The queue and the state of one kind are given. -/
def kindOnly (s : State) : Kind → Fixed
  | .host => { waiting := s.pending, host := some s.hostMem }
  | .mram => { waiting := s.pending, mram := some s.mram }
  | .sram => { waiting := s.pending, sram := some s.sram }
  | .takes => { waiting := s.pending, takes := some s.takes }
  | .recs => { waiting := s.pending, recs := some s.contRecs }
  | .mode => { waiting := s.pending, mode := some s.mode }
  | .time => { waiting := s.pending, time := some s.time }
  | .links => { waiting := s.pending, links := some s.links }
  | .pairs => { waiting := s.pending, pairs := some s.pairs }
  | .ports => { waiting := s.pending, ports := some s.ports }
  | .tiles => { waiting := s.pending, tiles := some s.tiles }
  | .runs => { waiting := s.pending, runs := some s.runs }
  | .captures => { waiting := s.pending, captures := some s.captures }
  | .syns => { waiting := s.pending, syns := some s.syns }
  | .lanes => { waiting := s.pending, lanes := some s.lanes }
  | .fw => { waiting := s.pending, fw := some s.fw }

theorem freeIn_kindOnly {s : State} {j k : Kind} (h : j ≠ k) : FreeIn (kindOnly s k) j := by
  cases j <;> cases k <;> first | rfl | exact absurd rfl h

theorem keeps_kindOnly {s : State} (k : Kind) (h : s.wf = true) : Keeps (kindOnly s k) s :=
  keeps_of_wf (by cases k <;> rfl) (by cases k <;> simp [Fixes, kindOnly]) h

theorem sameKind_of_keeps {s t : State} {k : Kind} (h : Keeps (kindOnly s k) t) : sameKind k s t := by
  obtain ⟨host, mram, sram, takes, recs, mode, time, links, pairs, ports, tiles, runs, captures, syns, lanes, fw⟩ := h.fixed
  cases k with
  | host => exact host _ rfl
  | mram => exact mram _ rfl
  | sram => exact sram _ rfl
  | takes => exact takes _ rfl
  | recs => exact recs _ rfl
  | mode => exact mode _ rfl
  | time => exact time _ rfl
  | links => exact links _ rfl
  | pairs => exact pairs _ rfl
  | ports => exact ports _ rfl
  | tiles => exact tiles _ rfl
  | runs => exact runs _ rfl
  | captures => exact captures _ rfl
  | syns => exact syns _ rfl
  | lanes => exact lanes _ rfl
  | fw => exact fw _ rfl

/-- Settles O6: with the one kind given that the command may not write, all it may write is free. -/
theorem commandsWriteOnlyTheirState : Obligations.CommandsWriteOnlyTheirState := by
  intro k i s t hwf hexec hno
  have hfree : ∀ j, mayWrite j i = true → FreeIn (kindOnly s k) j := fun j hj =>
    freeIn_kindOnly (by rintro rfl; rw [hno] at hj; cases hj)
  exact sameKind_of_keeps (keeps_of_exec (keeps_kindOnly k hwf) hfree hexec)

/-- Settles O1. -/
theorem stepRunsTheCommandInFront : Obligations.StepRunsTheCommandInFront := fun _ _ => rfl

/-- Every row answers a next state: its meaning is one by definition. -/
theorem exec_next (i : Instr) (s : State) : ∃ t, exec i s = .next t := by
  cases i <;> exact ⟨_, rfl⟩

/-- Settles O2: with no command waiting by `idle`, with one by its row. -/
theorem everyStepAnswersANextState : Obligations.EveryStepAnswersANextState := by
  intro s
  unfold step
  split
  · exact ⟨_, rfl⟩
  · exact exec_next _ _

/-- Settles O3. -/
theorem resetIsWellFormed : Obligations.ResetIsWellFormed := by
  unfold Obligations.ResetIsWellFormed
  decide

end Sys2Proof.Proofs
end

section
/-! What a storing row leaves of the memories (R320, R365, R435): the bytes outside the ones it writes. -/
namespace Sys2Proof.Proofs
open Sys2Proof Sys2Proof.Machine Sys2Proof.Laws

/-! ### Folds and byte memories -/

/-- What every step of a fold leaves as it is, the fold leaves. -/
theorem foldl_fixes {α β γ : Type} {f : β → α → β} (g : β → γ) (l : List α) (s : β) (h : ∀ s, ∀ x ∈ l, g (f s x) = g s) :
    g (l.foldl f s) = g s := by
  induction l generalizing s with
  | nil => rfl
  | cons x l ih => exact (ih _ fun s y hy => h s y (List.mem_cons_of_mem _ hy)).trans (h s x List.mem_cons_self)

/-- A run of bytes leaves every byte outside it. -/
theorem tabGet_putBytes_outside {m : Tab Byte} {a x : Nat} {b : List Byte} (h : x < a ∨ a + b.length ≤ x) :
    tabGet 0 (putBytes m a b) x = tabGet 0 m x := by
  induction b generalizing m a with
  | nil => rfl
  | cons y t ih =>
    rw [List.length_cons] at h
    rw [putBytes, ih (by omega), tabGet_tabInsert, if_neg (by omega)]

theorem tabGet_putBytes0_outside {m : Tab Byte} {a x : Nat} {b : List Byte} (h : x < a ∨ a + b.length ≤ x) :
    tabGet 0 (putBytes0 m a b) x = tabGet 0 m x := by
  induction b generalizing m a with
  | nil => rfl
  | cons y t ih =>
    rw [List.length_cons] at h
    rw [putBytes0, ih (by omega), tabGet_tabPut_other _ _ _ _ (by omega)]

@[simp] theorem length_leBytes (n v : Nat) : (leBytes n v).length = n := by
  induction n generalizing v with
  | zero => rfl
  | succ n ih => simp [leBytes, ih]

@[simp] theorem length_zeros (n : Nat) : (zeros n).length = n := List.length_replicate

/-- A status slot has 32 bytes (R320). -/
theorem length_statusSlot (tag : BitVec 12) (phase : Bool) (status : Nat) (result : List Byte) (buf : BitVec 64) :
    (statusSlot tag phase status result buf).length = 32 := by
  by_cases h : result.length ≤ 16
  · simp only [statusSlot, if_pos h, List.length_append, length_leBytes, length_zeros]; omega
  · simp [statusSlot, h]

/-! ### What the command engine leaves -/

/-- A state differs from another in registers, events, what is sent, and the command engine, the PCIe function and the chain port alone. -/
def EngineOnly (s t : State) : Prop :=
  ∃ regs evt out cmd pcie chain, t = { s with regs := regs, evt := evt, out := out, cmd := cmd, pcie := pcie, chain := chain }

theorem EngineOnly.refl (s : State) : EngineOnly s s := ⟨_, _, _, _, _, _, rfl⟩

theorem EngineOnly.trans {s t u : State} (h : EngineOnly s t) (h' : EngineOnly t u) : EngineOnly s u := by
  obtain ⟨_, _, _, _, _, _, rfl⟩ := h
  obtain ⟨_, _, _, _, _, _, rfl⟩ := h'
  exact ⟨_, _, _, _, _, _, rfl⟩

theorem EngineOnly.hostMem {s t : State} (h : EngineOnly s t) : t.hostMem = s.hostMem := by
  obtain ⟨_, _, _, _, _, _, rfl⟩ := h; rfl

theorem EngineOnly.mram {s t : State} (h : EngineOnly s t) : t.mram = s.mram := by
  obtain ⟨_, _, _, _, _, _, rfl⟩ := h; rfl

theorem engineOnly_raise (code : Nat) (unit : BitVec 16) (data : List Byte) (s : State) : EngineOnly s (raise code unit data s) := by
  obtain ⟨e, r, o, c, h, _⟩ := raise_writes code unit data s
  exact ⟨r, e, o, _, _, c, h⟩

theorem engineOnly_perfIrq (b : Nat) (was : Word) (s : State) : EngineOnly s (perfIrq b was s) := by
  unfold perfIrq
  dsimp only
  split
  · exact engineOnly_raise _ _ _ _
  · exact .refl s

theorem engineOnly_wr (a : Nat) (v : Word) (s : State) : EngineOnly s (wr a v s) := ⟨_, _, _, _, _, _, rfl⟩

theorem engineOnly_perfAdd (b fuel n k : Nat) (s : State) : EngineOnly s (perfAdd b fuel n k s) := by
  induction fuel generalizing n k s with
  | zero => exact .refl s
  | succ fuel ih =>
    have hval : EngineOnly s (wrWide (perfPc b n) 48 (rdWide s (perfPc b n) + k) s) := (engineOnly_wr ..).trans (engineOnly_wr ..)
    rw [perfAdd]
    dsimp only
    split
    · split
      · exact (hval.trans (engineOnly_wr ..)).trans (ih ..)
      · exact hval.trans (engineOnly_wr ..)
    · exact hval

theorem engineOnly_foldl {α : Type} {f : State → α → State} (hf : ∀ s x, EngineOnly s (f s x)) (l : List α) (s : State) :
    EngineOnly s (l.foldl f s) := by
  induction l generalizing s with
  | nil => exact .refl s
  | cons x l ih => exact (hf s x).trans (ih _)

theorem engineOnly_perfCount (b k : Nat) (e : PerfEvent) (s : State) : EngineOnly s (perfCount b k e s) := by
  unfold perfCount
  split
  · refine (engineOnly_foldl (fun s n => ?_) _ s).trans (engineOnly_perfIrq ..)
    split
    · exact engineOnly_perfAdd ..
    · exact .refl s
  · exact .refl s

theorem engineOnly_modCmd (f : CmdSt → CmdSt) (s : State) : EngineOnly s (modCmd f s) := ⟨_, _, _, _, _, _, rfl⟩

theorem engineOnly_raiseMsix (v : Nat) (s : State) : EngineOnly s (raiseMsix v s) := by
  unfold raiseMsix
  split
  · split
    · exact ⟨_, _, _, _, _, _, rfl⟩
    · exact ⟨_, _, _, _, _, _, rfl⟩
  · exact .refl s

theorem engineOnly_cqStalls (n : Nat) (s : State) : EngineOnly s (cqStalls n s) := by
  unfold cqStalls
  dsimp only
  split
  · exact ⟨_, _, _, _, _, _, rfl⟩
  · exact ⟨_, _, _, _, _, _, rfl⟩

theorem engineOnly_mailboxComplete (serial : Bool) (c : Cmd) (status : Nat) (result : List Byte) (s : State) :
    EngineOnly s (mailboxComplete serial c status result s) := by
  unfold mailboxComplete
  extract_lets slot long stored done
  have hdone : EngineOnly s done := ⟨_, _, _, _, _, _, rfl⟩
  split
  · exact hdone
  · exact hdone.trans (engineOnly_raiseMsix ..)

theorem engineOnly_finish (f : InFlight) (status : Nat) (result : List Byte) (s : State) : EngineOnly s (finish f status result s) := by
  unfold finish
  split
  · exact .refl s
  · extract_lets ended counted c
    have hcounted : EngineOnly s counted := (engineOnly_modCmd _ s).trans (engineOnly_perfCount ..)
    split
    · extract_lets q
      split
      · exact hcounted.trans ((engineOnly_modCmd ..).trans (engineOnly_cqStalls ..))
      · exact hcounted
    · exact hcounted.trans (engineOnly_mailboxComplete ..)
    · exact hcounted.trans (engineOnly_mailboxComplete ..)
    · exact hcounted.trans ⟨_, _, _, _, _, _, rfl⟩

/-- A command that completes changes nothing outside the command engine and what it sends. -/
theorem engineOnly_complete (e status : Nat) (result : List Byte) (s : State) : EngineOnly s (complete e status result s) := by
  unfold complete
  split
  · exact .refl s
  · split
    · exact engineOnly_finish ..
    · unfold answer
      dsimp only
      split
      · exact engineOnly_finish ..
      · exact engineOnly_modCmd ..

/-! ### Counting an event in a block (R411) -/

theorem rd_wrWide_other {a x : Nat} (w v : Nat) (s : State) (h : x ≠ a) (h' : x ≠ a + 4) : rd (wrWide a w v s) x = rd s x := by
  rw [wrWide, rd_wr_other _ _ h', rd_wr_other _ _ h]

/-- An addition to a counter changes no register outside its block. -/
theorem rd_perfAdd_outside {b fuel n k x : Nat} {s : State} (hn : n < 8) (h : x < perfBase b ∨ perfBase b + 0x1000 ≤ x) :
    rd (perfAdd b fuel n k s) x = rd s x := by
  have hovf : x ≠ perfOvf b := by unfold perfOvf; omega
  induction fuel generalizing n k s with
  | zero => rfl
  | succ fuel ih =>
    have hpc : x ≠ perfPc b n ∧ x ≠ perfPc b n + 4 := by unfold perfPc; omega
    rw [perfAdd]
    dsimp only
    split
    · split
      · rw [ih (by omega), rd_wrB_other _ _ _ hovf, rd_wrWide_other _ _ _ hpc.1 hpc.2]
      · rw [rd_wrB_other _ _ _ hovf, rd_wrWide_other _ _ _ hpc.1 hpc.2]
    · rw [rd_wrWide_other _ _ _ hpc.1 hpc.2]

/-- An event counted in a block changes no register outside the block and the event collector. -/
theorem rd_perfCount_outside {b k x : Nat} {e : PerfEvent} {s : State} (h : x < perfBase b ∨ perfBase b + 0x1000 ≤ x)
    (hevt : 0x30020 ≤ x) (hchain : x ≠ chainHopDropR) : rd (perfCount b k e s) x = rd s x := by
  have hirq : ∀ was u, rd (perfIrq b was u) x = rd u x := by
    intro was u; unfold perfIrq; dsimp only; split
    · exact rd_raise_other hevt hchain
    · rfl
  unfold perfCount
  split
  · rw [hirq]
    refine foldl_fixes (rd · x) _ _ fun s n hn => ?_
    split
    · exact rd_perfAdd_outside (List.mem_range.mp hn) h
    · rfl
  · rfl

/-! ### Bytes written to host memory -/

/-- A completion ring's registers lie outside what a write to host memory counts in. -/
theorem rdWide_cqBase_hostWriteBy (m a : Nat) (b : List Byte) (s : State) (n : Nat) :
    rdWide (hostWriteBy m a b s) (cqBase n) = rdWide s (cqBase n) := by
  have hrd : ∀ x, 0x81000 ≤ x → rd (hostWriteBy m a b s) x = rd s x := fun x hx =>
    rd_perfCount_outside (.inr (by unfold perfBase; simp; omega)) (by omega) (by unfold chainHopDropR; omega)
  have hbase : 0x81000 ≤ cqBase n := by unfold cqBase; omega
  rw [rdWide, hrd _ hbase, hrd _ (by omega)]; rfl

theorem tabGet_hostWriteBy_outside {m a x : Nat} {b : List Byte} {s : State} (h : x < a ∨ a + b.length ≤ x) :
    tabGet 0 (hostWriteBy m a b s).hostMem x = tabGet 0 s.hostMem x := by
  rw [hostWriteBy, (engineOnly_perfCount ..).hostMem]; exact tabGet_putBytes_outside h

/-- A status slot, and a long result before it, are all that a completion writes to host memory. -/
theorem tabGet_statusSlotWrite_outside {n x : Nat} {s : State} {c : Completion}
    (hc : s.cmd.done.find? (fun c => pathCq s c.cmd.path == some n) = some c)
    (hslot : x < rdWide s (cqBase n) + 32 * cqTail s n ∨ rdWide s (cqBase n) + 32 * cqTail s n + 32 ≤ x)
    (hres : c.result.length ≤ 16 ∨ x < c.cmd.buf.toNat ∨ c.cmd.buf.toNat + c.result.length ≤ x) :
    tabGet 0 (statusSlotWrite n s).hostMem x = tabGet 0 s.hostMem x := by
  rw [statusSlotWrite, hc]
  dsimp only
  split
  · rfl
  · have hslot' : ∀ u, rdWide u (cqBase n) = rdWide s (cqBase n) →
        tabGet 0 (hostWriteBy 5 (rdWide u (cqBase n) + 32 * cqTail s n)
          (statusSlot c.cmd.tag (rdB s (cqBase n + 0xC) 12) c.status c.result c.cmd.buf) u).hostMem x = tabGet 0 u.hostMem x :=
      fun u hu => tabGet_hostWriteBy_outside (by rw [length_statusSlot, hu]; exact hslot)
    have hraised : ∀ (p q : Prop) [Decidable p] [Decidable q] (v : Nat) (f g : CmdSt → CmdSt) (t : State),
        EngineOnly t (if p then raiseMsix v (modCmd f t) else if q then t else modCmd g t) := by
      intros; split
      · exact (engineOnly_modCmd ..).trans (engineOnly_raiseMsix ..)
      · split
        · exact .refl _
        · exact engineOnly_modCmd ..
    rw [(engineOnly_cqStalls ..).hostMem, (hraised ..).hostMem, modCmd_hostMem, wrF_hostMem, wrB_hostMem]
    split
    · exact hslot' s rfl
    · rw [hslot' _ (rdWide_cqBase_hostWriteBy ..)]
      exact tabGet_hostWriteBy_outside (by omega)

/-! ### The chunk of an image, and a word of the mailbox buffer -/

/-- FW_STAGE changes no byte of MRAM but those of its chunk. -/
theorem tabGet_actFwStage_outside {c : Cmd} {chunk : Option (List Byte)} {e x : Nat} {b : List Byte} {u : State}
    (hb : stageChunk c chunk u = some b) (hx : x < bankBase (stagingBank u (leAt c.params 16 1)) + leAt c.params 8 4 ∨
      bankBase (stagingBank u (leAt c.params 16 1)) + leAt c.params 8 4 + b.length ≤ x) :
    tabGet 0 (actFwStage c chunk e u).mram x = tabGet 0 u.mram x := by
  have hfails : ∀ st, tabGet 0 (complete e st [] u).mram x = tabGet 0 u.mram x := fun st => by rw [(engineOnly_complete ..).mram]
  unfold actFwStage
  rw [hb]
  extract_lets off len bank
  iterate 4 (split; exact hfails _)
  split
  · rfl
  · dsimp -zeta only
    extract_lets stored first n hdr noted
    split
    · exact tabGet_putBytes0_outside hx
    · rw [(engineOnly_complete ..).mram]
      exact tabGet_putBytes0_outside hx

/-- A word written to the mailbox buffer at its own index changes no other byte. -/
theorem tabGet_mailboxBufWrite_outside {o x : Nat} {w : Word} {s : State} (ho : o < 1024) (hx : x < 4 * o ∨ 4 * o + 4 ≤ x) :
    tabGet 0 (mailboxBufWrite (4 * o) w s).cmd.mailbox x = tabGet 0 s.cmd.mailbox x := by
  unfold mailboxBufWrite
  split
  · rfl
  · exact tabGet_putBytes0_outside (by rw [length_leBytes]; omega)

/-- Settles O13: each of the three rows writes one run of bytes, or two. -/
theorem storeFrames : Obligations.StoreFrames := by
  refine ⟨fun n s v c a hc hexec hslot hres => ?_, fun c chunk s u v e b a hstart hb hexec ha => ?_, fun o w s v a hexec ha => ?_⟩
  · obtain rfl : statusSlotWrite n.toNat s = v := Host.Outcome.next.inj hexec
    exact tabGet_statusSlotWrite_outside hc hslot hres
  · obtain rfl : command opFwStage c (actFwStage c chunk) s = v := Host.Outcome.next.inj hexec
    rw [command_starts hstart]
    exact tabGet_actFwStage_outside hb ha
  · obtain rfl : (if s.mode ≠ .running then s else mailboxBufWrite (4 * o.toNat) w s) = v := Host.Outcome.next.inj hexec
    split
    · rfl
    · exact tabGet_mailboxBufWrite_outside o.isLt ha

end Sys2Proof.Proofs
end

section
/-! The machine after reset (R477 to R481), and the checks of a Cerop command in their order (R327). -/
namespace Sys2Proof.Proofs
open Sys2Proof Sys2Proof.Machine Sys2Proof.Laws

/-! ### Reset -/

/-- No submission or completion ring is enabled by its reset value. -/
theorem rings_disabled_after_reset : ∀ n < 64, sqEnabled State.reset n = false ∧ cqEnabled State.reset n = false := by decide +kernel

/-- Settles O12: with no entry in any table, every register reads its reset value and every link its default. -/
theorem resetValues : Obligations.ResetValues :=
  ⟨rfl, rfl, rfl, rfl, rfl, rfl, rfl, rfl, rfl, rfl, rfl, rfl, fun _ => rfl, fun _ => ⟨rfl, rfl⟩, rings_disabled_after_reset⟩

/-! ### The checks of a command -/

/-- Every row that is a Cerop command runs through the checks of R327. -/
theorem exec_of_commandOf {i : Instr} {o : OpSpec} {c : Cmd} (h : commandOf i = some (o, c)) :
    ∃ act, ∀ s, exec i s = .next (command o c act s) := by
  cases i <;> first | (cases h; exact ⟨_, fun _ => rfl⟩) | cases h

/-- Where a command that holds its tag and that nothing holds back goes (R330). -/
theorem command_placed {o : OpSpec} {c : Cmd} {act : Nat → State → State} {s u : State} {f : InFlight} (hrun : s.mode = .running)
    (hstop : s.cmd.stopped = false) (htag : claimTag s o.opcode c = some (f, u)) (hfree : blocked u f = false) :
    (placeOf u c = .unaddressed → command o c act s = complete f.etag stUnaddressed [] u) ∧
    (placeOf u c = .chainDown → command o c act s = complete f.etag stChainDown [] u) ∧
    (placeOf u c = .everywhere → o.maxResult ≠ 0 → command o c act s = complete f.etag stBadParam [] u) ∧
    (placeOf u c = .forward → chainHolds u = false → command o c act s =
      emit (.forward f.etag c.chainAddr.toNat) (modFlight f.etag (fun g => { g with stage := .forwarded }) u)) := by
  have hgo : ¬((s.mode ≠ .running || s.cmd.stopped) = true) := by simp [hrun, hstop]
  have hgo' : ¬(blocked u f = true) := by simp [hfree]
  refine ⟨fun h => ?_, fun h => ?_, fun h hres => ?_, fun h hfwd => ?_⟩
  · simp only [command, if_neg hgo, htag, if_neg hgo', h]
  · simp only [command, if_neg hgo, htag, if_neg hgo', h]
  · simp only [command, if_neg hgo, htag, if_neg hgo', h, if_pos hres]
  · simp only [command, if_neg hgo, htag, if_neg hgo', h, hfwd, Bool.false_eq_true, if_false]

/-- The checks of a command for this device, each under the condition that those before it have passed. -/
theorem firstFailure_order (u : State) (o : OpSpec) (c : Cmd) :
    ((c.rsvd = true ∨ reservedParam o.opcode c = true ∨ expertOk o.level c.expert = false) → firstFailure u o c = some stBadParam) ∧
    (c.rsvd = false → reservedParam o.opcode c = false → expertOk o.level c.expert = true →
      (c.expert = true → rdB u cmdPathCfgR (pathBit c.path) = false → firstFailure u o c = some stLocked) ∧
      ((c.expert = true → rdB u cmdPathCfgR (pathBit c.path) = true) →
        (lengthOk o c = false → firstFailure u o c = some stBadLength) ∧
        (lengthOk o c = true →
          (unitOk u o c = false → firstFailure u o c = some stNoUnit) ∧
          (unitOk u o c = true →
            (c.path = .chain → o.onChain = false → firstFailure u o c = some stPrivilege) ∧
            ((c.path = .chain → o.onChain = true) →
              ((unitDomain c.cls.toNat c.idx.toNat).any (fun d => domState u d == 4) = true → firstFailure u o c = some stUnitOff) ∧
              ((unitDomain c.cls.toNat c.idx.toNat).any (fun d => domState u d == 4) = false →
                ((inRecovery u = true ∧ o.recovery = false) ∨
                  (tileOfUnit c.cls.toNat c.idx.toNat).any (fun t => (tileOf u t).resetting) = true ∨
                  (rdB u fwStateR 4 = true ∧ needsSupervisor o.opcode c = true)) →
                firstFailure u o c = some stNotReady)))))) := by
  unfold firstFailure
  refine ⟨fun h => if_pos ?_, fun hrsvd hparam hexpert => ?_⟩
  · rcases h with h | h | h <;> simp [h]
  rw [if_neg (by simp [hrsvd, hparam, hexpert])]
  refine ⟨fun hx hlock => if_pos (by simp [hx, hlock]), fun hlock => ?_⟩
  rw [if_neg (by simpa using hlock)]
  refine ⟨fun hlen => if_pos (by simp [hlen]), fun hlen => ?_⟩
  rw [if_neg (by simp [hlen])]
  refine ⟨fun hunit => if_pos (by simp [hunit]), fun hunit => ?_⟩
  rw [if_neg (by simp [hunit])]
  refine ⟨fun hpath hown => if_pos (by simp [hpath, hown]), fun hown => ?_⟩
  rw [if_neg (by simpa using hown)]
  refine ⟨fun hoff => if_pos hoff, fun hoff hnot => ?_⟩
  rw [if_neg (by rw [hoff]; exact Bool.false_ne_true)]
  rcases hnot with ⟨hrec, hno⟩ | hreset | ⟨hhalt, hneeds⟩
  · exact if_pos (by simp [hrec, hno])
  · rw [if_pos hreset, ite_self]
  · have hsup : (rdB u fwStateR 4 && needsSupervisor o.opcode c) = true := by rw [hhalt, hneeds]; rfl
    rw [if_pos hsup, ite_self, ite_self]

/-- Settles O7: the place of a command, then its first failure, decide what its row answers. -/
theorem commandChecksInOrder : Obligations.CommandChecksInOrder := by
  intro i o c s u f hrow hrun hstop htag hfree
  obtain ⟨act, hact⟩ := exec_of_commandOf hrow
  obtain ⟨hun, hdown, hevery, hfwd⟩ := command_placed (act := act) hrun hstop htag hfree
  have hfails : placeOf u c = .here → ∀ st, firstFailure u o c = some st → exec i s = .next (complete f.etag st [] u) :=
    fun hhere st hst => by rw [hact, command_here hrun hstop htag hfree hhere, runHere_fails act hst]
  obtain ⟨hparam, hlater⟩ := firstFailure_order u o c
  refine ⟨fun h => by rw [hact, hun h], fun h => by rw [hact, hdown h], fun h hres => by rw [hact, hevery h hres],
    fun h hc => by rw [hact, hfwd h hc], fun hhere => ⟨fun h => hfails hhere _ (hparam h), fun h1 h2 h3 => ?_⟩⟩
  obtain ⟨hlock, hlater⟩ := hlater h1 h2 h3
  refine ⟨fun hx hl => hfails hhere _ (hlock hx hl), fun h4 => ?_⟩
  obtain ⟨hlen, hlater⟩ := hlater h4
  refine ⟨fun h => hfails hhere _ (hlen h), fun h5 => ?_⟩
  obtain ⟨hunit, hlater⟩ := hlater h5
  refine ⟨fun h => hfails hhere _ (hunit h), fun h6 => ?_⟩
  obtain ⟨hchain, hlater⟩ := hlater h6
  refine ⟨fun hp ho => hfails hhere _ (hchain hp ho), fun h7 => ?_⟩
  obtain ⟨hoff, hready⟩ := hlater h7
  exact ⟨fun h => hfails hhere _ (hoff h), fun h8 h => hfails hhere _ (hready h8 h)⟩

end Sys2Proof.Proofs
end

section
/-! Where the registers of the units lie (R389, R390), and what a served write of each does. -/
namespace Sys2Proof.Proofs
open Sys2Proof Sys2Proof.Machine Sys2Proof.Laws

/-! ### Registers without reserved codes -/

/-- Reserved codes stand in rack slot words, in OUT_SPREAD and in the receive lanes' controls alone (R395). -/
theorem codeFields_none {a : Nat} (hrack : ¬ (0x40000 ≤ a ∧ a < 0x40400 ∧ 0x100 ≤ a % 0x200 ∧ a % 16 = 0))
    (hout : ¬ (0x41000 ≤ a ∧ a < 0x41200 ∧ a % 0x20 = 8))
    (hlane : ¬ (0x1000000 ≤ a ∧ 0x3000 ≤ a % 0x100000 ∧ a % 0x100000 < 0x4000)) : codeFields a = [] := by
  unfold codeFields
  rw [if_neg hrack, if_neg hout, if_neg]
  rintro ⟨hport, hlo, hhi, -⟩
  refine hlane ⟨?_, hlo, hhi⟩
  have hin : inPort a = true := by
    cases h : inPort a with
    | true => rfl
    | false => simp [addrPort, h] at hport
  exact (of_decide_eq_true hin).1

/-! ### Registers of the hub -/

/-- A served write of a register below the tiles that has no reserved code is the hub's. -/
theorem busWrite_hub {v : View} {i : RegInfo} {a : Nat} {w : Word} {s : State} (h : writes v a i s = true) (ha : a < 0x1000000)
    (hrack : ¬ (0x40000 ≤ a ∧ a < 0x40400 ∧ 0x100 ≤ a % 0x200 ∧ a % 16 = 0)) (hout : ¬ (0x41000 ≤ a ∧ a < 0x41200 ∧ a % 0x20 = 8))
    (hne : a ≠ refSelR) : busWrite v a w s = hubWrite v i a w 0 0 (served v a true s) :=
  (busWrite_plain h (codeFields_none hrack hout (by omega)) hne).trans (regWrite_hub ha)

theorem busWrite_lockCtl {v : View} {i : RegInfo} {w : Word} {s u : State} (h : writes v lockCtlR i s = true)
    (hu : u = served v lockCtlR true s) : busWrite v lockCtlR w s = wr lockCtlR (rd u lockCtlR ||| (w &&& 0x1F)) u := by
  subst hu; exact busWrite_hub h (by decide) (by decide) (by decide) (by decide)

theorem busWrite_snapCtl {v : View} {i : RegInfo} {w : Word} {s : State} (h : writes v snapCtlR i s = true) :
    busWrite v snapCtlR w s = snapCtlWrite v w (served v snapCtlR true s) :=
  busWrite_hub h (by decide) (by decide) (by decide) (by decide)

theorem busWrite_devResetCtl {v : View} {i : RegInfo} {w : Word} {s : State} (h : writes v devResetCtlR i s = true) :
    busWrite v devResetCtlR w s = resetCtlWrite v w (served v devResetCtlR true s) :=
  busWrite_hub h (by decide) (by decide) (by decide) (by decide)

theorem busWrite_chainCtl {v : View} {i : RegInfo} {w : Word} {s : State} (h : writes v chainCtlR i s = true) :
    busWrite v chainCtlR w s = chainCtlWrite w (served v chainCtlR true s) :=
  busWrite_hub h (by decide) (by decide) (by decide) (by decide)

theorem busWrite_pwrPlOper {v : View} {i : RegInfo} {w : Word} {s : State} (h : writes v pwrPlOperR i s = true) :
    busWrite v pwrPlOperR w s = plWrite true w (served v pwrPlOperR true s) :=
  busWrite_hub h (by decide) (by decide) (by decide) (by decide)

theorem busWrite_pwrPlGrader {v : View} {i : RegInfo} {w : Word} {s : State} (h : writes v pwrPlGraderR i s = true) :
    busWrite v pwrPlGraderR w s = plWrite false w (served v pwrPlGraderR true s) :=
  busWrite_hub h (by decide) (by decide) (by decide) (by decide)

/-- The blocks of the power domains lie above every hub register before them. -/
theorem hubWrite_dom {v : View} {i : RegInfo} {a : Nat} {w diff : Word} {step : BitVec 16} {s : State} (ha : 0x20000 ≤ a ∧ a < 0x20A00) :
    hubWrite v i a w step diff s = domWrite v i a w s := by
  simp (disch := omega) only [hubWrite, snapCtlR, lockCtlR, devStrapsR, devResetCtlR, clkRootSrcR, clkEnR, refSelR, if_neg, if_pos ha]

/-- A served write of a domain's control: the target that it does not accept is logged (R317). -/
theorem busWrite_domCtl {v : View} {i : RegInfo} {d : Nat} {w : Word} {s u : State} (hd : d < 80) (h : writes v (domBase d) i s = true)
    (hu : u = served v (domBase d) true s) :
    busWrite v (domBase d) w s = if (domCtlWrite d w u).2 then accessError v (domBase d) 8 true (domCtlWrite d w u).1
      else (domCtlWrite d w u).1 := by
  subst hu
  have hbase : domBase d = 0x20000 + 0x20 * d := rfl
  rw [busWrite_hub h (by omega) (by omega) (by omega) (by unfold refSelR; omega), hubWrite_dom (by omega), domWrite, if_pos (by omega),
    show (domBase d - 0x20000) / 0x20 = d by omega]

/-! ### Registers of the rack clock -/

theorem hubWrite_rack {v : View} {i : RegInfo} {a : Nat} {w diff : Word} {step : BitVec 16} {s : State} (ha : 0x40000 ≤ a ∧ a < 0x42000) :
    hubWrite v i a w step diff s = rackWrite i a w s := by
  simp (disch := omega) only [hubWrite, snapCtlR, lockCtlR, devStrapsR, devResetCtlR, clkRootSrcR, clkEnR, refSelR, pwrPlOperR,
    pwrPlGraderR, evtBaseLoR, evtBaseHiR, evtRingCfgR, if_neg, if_pos ha]

/-- A served write of a rack clock register, with fields of a reserved code left as they are. -/
theorem busWrite_rack {v : View} {i : RegInfo} {a : Nat} {w : Word} {s u : State} {k : Word × State} (h : writes v a i s = true)
    (ha : 0x40000 ≤ a ∧ a < 0x42000) (hu : u = served v a true s) (hk : k = keepReserved v a (rd u a) w u) :
    busWrite v a w s = rackWrite i a k.1 k.2 := by
  rw [busWrite_writes h hu hk (by unfold refSelR; omega), regWrite_hub (by omega), hubWrite_rack ha]

theorem busWrite_rackCtl {v : View} {i : RegInfo} {b : Bool} {w : Word} {s : State} (h : writes v (rackCtl (72 + b2n b)) i s = true) :
    busWrite v (rackCtl (72 + b2n b)) w s = rackCtlWrite (72 + b2n b) w (served v (rackCtl (72 + b2n b)) true s) := by
  have hb : b2n b < 2 := by cases b <;> decide
  have hbase : rackCtl (72 + b2n b) = 0x40000 + 0x200 * b2n b := by unfold rackCtl rackBase; omega
  rw [busWrite_rack h (by omega) rfl (keepReserved_plain (codeFields_none (by omega) (by omega) (by omega))).symm, rackWrite,
    if_pos (by omega)]
  dsimp only
  rw [if_pos (by omega), show 72 + (rackCtl (72 + b2n b) - 0x40000) / 0x200 = 72 + b2n b by omega]

theorem busWrite_rackSlot {v : View} {i : RegInfo} {b frac : Bool} {k a : Nat} {w x : Word} {s t : State} (hk : k < 16)
    (ha : a = rackSlotR (72 + b2n b) k + (if frac then 4 else 0)) (h : writes v a i s = true)
    (hx : (x, t) = keepReserved v a (rd (served v a true s) a) w (served v a true s)) :
    busWrite v a w s = rackSlotWrite (72 + b2n b) k frac x t := by
  have hb : b2n b < 2 := by cases b <;> decide
  have hbase : rackSlotR (72 + b2n b) k = 0x40000 + 0x200 * b2n b + 0x100 + 0x10 * k := by unfold rackSlotR rackBase; omega
  have hword : ((a % 0x200 % 16 == 4) = frac) ∧ a % 0x200 = 0x100 + 0x10 * k + (if frac then 4 else 0) := by
    cases frac
    · simp only [Bool.false_eq_true, if_false] at ha ⊢
      exact ⟨beq_eq_false_iff_ne.mpr (by omega), by omega⟩
    · simp only [if_true] at ha ⊢
      exact ⟨beq_iff_eq.mpr (by omega), by omega⟩
  have hoff : (if frac then 4 else 0) ≤ 4 := by cases frac <;> decide
  obtain ⟨hfrac, hplace⟩ := hword
  generalize (if frac then 4 else 0) = o at *
  rw [busWrite_rack h (by omega) rfl hx, rackWrite, if_pos (by omega)]
  dsimp only
  rw [if_neg (by omega), if_pos (by omega), hfrac, show 72 + (a - 0x40000) / 0x200 = 72 + b2n b by omega,
    show (a % 0x200 - 0x100) / 16 = k by omega]

/-- A register of an output, by its place in the output's block. -/
theorem rackWrite_out {i : RegInfo} {n o : Nat} {w : Word} {s : State} (hn : n < 16) (ho : o < 0x20) :
    rackWrite i (outBase n + o) w s =
      if o = 0 then outCfgWrite n (rwWord s i (outBase n + o) w) s
      else if o = 4 then outPhaseWrite n (rwWord s i (outBase n + o) w) s
      else if o = 0xC then (if bitGet w 0 then outReturn n s else s)
      else plainWrite i (outBase n + o) w s := by
  have hbase : outBase n = 0x41000 + 0x20 * n := rfl
  rw [rackWrite, if_neg (by omega), if_pos (by omega)]
  dsimp only
  rw [show (outBase n + o) % 0x20 = o by omega, show (outBase n + o - 0x41000) / 0x20 = n by omega]

/-- A served write of an output's register but OUT_SPREAD, which alone has a reserved code. -/
theorem busWrite_out {v : View} {i : RegInfo} {n o : Nat} {w : Word} {s : State} (hn : n < 16) (ho : o < 0x20) (hne : o ≠ 8)
    (h : writes v (outBase n + o) i s = true) :
    busWrite v (outBase n + o) w s = rackWrite i (outBase n + o) w (served v (outBase n + o) true s) := by
  have hbase : outBase n = 0x41000 + 0x20 * n := rfl
  exact busWrite_rack (k := (w, _)) h (by omega) rfl (keepReserved_plain (codeFields_none (by omega) (by omega) (by omega))).symm

/-! ### Registers of a tile -/

theorem busWrite_tileCtl {v : View} {i : RegInfo} {t : Nat} {w : Word} {s : State} (ht : t < 8) (h : writes v (tileBase t) i s = true) :
    busWrite v (tileBase t) w s = if bitGet w 0 then tileReset t (served v (tileBase t) true s) else served v (tileBase t) true s := by
  have hbase : tileBase t = 0x1000000 * (t + 1) := rfl
  have hoff : tileBase t % 0x1000000 = 0 := by omega
  have htile : tileBase t / 0x1000000 - 1 = t := by omega
  rw [busWrite_plain h (codeFields_none (by omega) (by omega) (by omega)) (by unfold refSelR; omega),
    regWrite_tile (by omega) (by omega), tileWrite, hoff, if_pos rfl, htile]

theorem portBase_eq (p : Nat) : portBase p = 0x1000000 * (p / 8 + 1) + 0x100000 * (p % 8 + 1) := rfl

theorem inPort_port {p o : Nat} (ho : o < 0x100000) : inPort (portBase p + o) = true := by
  have hbase := portBase_eq p
  exact decide_eq_true (by omega)

/-- The port of a place in its space. -/
theorem addrPort_port {p o : Nat} (ho : o < 0x100000) : addrPort (portBase p + o) = some p := by
  have hbase := portBase_eq p
  rw [addrPort, if_pos (inPort_port ho)]
  exact congrArg some (by omega)

/-- The pair of a place in its block. -/
theorem addrPair_pair {l o : Nat} (ho : o < 0x10000) : addrPair (pairBase l + o) = some l := by
  have hplace : pairBase l + o = portBase (l / 8) + (0x10000 * (l % 8 + 1) + o) := Nat.add_assoc ..
  have hbase := portBase_eq (l / 8)
  rw [hplace, addrPair, if_pos ⟨inPort_port (by omega), by omega, by omega⟩]
  exact congrArg some (by omega)

/-- A register of a port, by its place in the port's space. -/
theorem tileWrite_port {v : View} {i : RegInfo} {p o : Nat} {w : Word} {s : State} (ho : o < 0x100000) :
    tileWrite v i (portBase p + o) w s =
      if o = 0 then portCtlWrite v p w s
      else if 0x1000 ≤ o ∧ o < 0x2000 then synWrite i p (o - 0x1000) w s
      else if 0x2000 ≤ o ∧ o < 0x4000 ∧ o % 0x400 = 0 then hlCtlWrite (8 * p + (o - 0x2000) / 0x400) (rwWord s i (portBase p + o) w) s
      else match addrPair (portBase p + o) with
        | some l => if o % 0x10000 = 0 then pairCtlWrite l w s else plainWrite i (portBase p + o) w s
        | none => plainWrite i (portBase p + o) w s := by
  have hbase := portBase_eq p
  have hoff : (portBase p + o) % 0x1000000 = 0x100000 * (p % 8 + 1) + o := by omega
  have hport : (0x100000 * (p % 8 + 1) + o) % 0x100000 = o := by omega
  rw [tileWrite, hoff, if_neg (by omega), if_neg (by omega), if_neg (by omega), addrPort_port ho]
  simp only [hport] <;> rfl

/-- A served write in a port's space, with fields of a reserved code left as they are. -/
theorem busWrite_port {v : View} {i : RegInfo} {p o : Nat} {w : Word} {s u : State} {k : Word × State} (hp : p < 64) (ho : o < 0x100000)
    (h : writes v (portBase p + o) i s = true) (hu : u = served v (portBase p + o) true s)
    (hk : k = keepReserved v (portBase p + o) (rd u (portBase p + o)) w u) :
    busWrite v (portBase p + o) w s = tileWrite v i (portBase p + o) k.1 k.2 := by
  have hbase := portBase_eq p
  rw [busWrite_writes h hu hk (by unfold refSelR; omega), regWrite_tile (by omega) (by omega)]

/-- The reserved codes of a port's space are the receive lanes'. -/
theorem codeFields_port {p o : Nat} (hp : p < 64) (ho : o < 0x100000) (hlane : ¬ (0x3000 ≤ o ∧ o < 0x4000)) :
    codeFields (portBase p + o) = [] := by
  have hbase := portBase_eq p
  exact codeFields_none (by omega) (by omega) (by omega)

theorem busWrite_portCtl {v : View} {i : RegInfo} {p : Nat} {w : Word} {s : State} (hp : p < 64) (h : writes v (portBase p) i s = true) :
    busWrite v (portBase p) w s = portCtlWrite v p w (served v (portBase p) true s) := by
  rw [← Nat.add_zero (portBase p)] at h ⊢
  rw [busWrite_port hp (by omega) h rfl (keepReserved_plain (codeFields_port hp (by omega) (by omega))).symm, tileWrite_port (by omega),
    if_pos rfl]

theorem busWrite_pairCtl {v : View} {i : RegInfo} {l : Nat} {w : Word} {s : State} (hl : l < 512) (h : writes v (pairBase l) i s = true) :
    busWrite v (pairBase l) w s = pairCtlWrite l w (served v (pairBase l) true s) := by
  have hplace : portBase (l / 8) + 0x10000 * (l % 8 + 1) = pairBase l := rfl
  have hwrite := busWrite_port (p := l / 8) (o := 0x10000 * (l % 8 + 1)) (w := w) (by omega) (by omega) h rfl
    (keepReserved_plain (codeFields_port (by omega) (by omega) (by omega))).symm
  rw [tileWrite_port (by omega), if_neg (by omega), if_neg (by omega), if_neg (by omega), hplace,
    ← Nat.add_zero (pairBase l), addrPair_pair (by omega)] at hwrite
  simpa only [Nat.add_zero, if_pos (show 0x10000 * (l % 8 + 1) % 0x10000 = 0 by omega)] using hwrite

/-- A served write of a host lane's control, with the reserved code of a receive lane's CTLE keeping its field (R395). -/
theorem busWrite_hlCtl {v : View} {i : RegInfo} {n : Nat} {w x : Word} {s t : State} (hn : n < 512) (h : writes v (hlCtl n) i s = true)
    (hx : (x, t) = keepReserved v (hlCtl n) (rd (served v (hlCtl n) true s) (hlCtl n)) w (served v (hlCtl n) true s)) :
    busWrite v (hlCtl n) w s = hlCtlWrite n (rwWord t i (hlCtl n) x) t := by
  have hplace : hlCtl n = portBase (n / 8) + (0x2000 + 0x400 * (n % 8)) := Nat.add_assoc ..
  rw [hplace] at h hx ⊢
  rw [busWrite_port (by omega) (by omega) h rfl hx, tileWrite_port (by omega), if_neg (by omega), if_neg (by omega), if_pos (by omega),
    show 8 * (n / 8) + (0x2000 + 0x400 * (n % 8) - 0x2000) / 0x400 = n by omega]

/-! ### Registers of the synthesizers of ports and tiles -/

/-- A served write of a synthesizer's register is the synthesizer's. -/
theorem busWrite_syn {v : View} {i : RegInfo} {x o : Nat} {w : Word} {s : State} (hx : x < 72) (ho : o < 0x1000)
    (h : writes v (synBase x + o) i s = true) :
    busWrite v (synBase x + o) w s = synWrite i x o w (served v (synBase x + o) true s) := by
  by_cases hport : x < 64
  · have hplace : synBase x + o = portBase x + (0x1000 + o) := by rw [synBase, if_pos hport, Nat.add_assoc]
    rw [hplace] at h ⊢
    rw [busWrite_port hport (by omega) h rfl (keepReserved_plain (codeFields_port hport (by omega) (by omega))).symm,
      tileWrite_port (by omega), if_neg (by omega), if_pos (by omega), Nat.add_sub_cancel_left]
  · have hplace : synBase x + o = 0x1000000 * (x - 64 + 1) + (0x1000 + o) := by rw [synBase, if_neg hport, Nat.add_assoc]; rfl
    rw [busWrite_plain h (codeFields_none (by omega) (by omega) (by omega)) (by unfold refSelR; omega),
      regWrite_tile (by omega) (by omega), tileWrite]
    dsimp only
    rw [if_neg (by omega), if_pos (by omega), show 64 + ((synBase x + o) / 0x1000000 - 1) = x by omega,
      show (synBase x + o) % 0x1000000 - 0x1000 = o by omega]

theorem busWrite_synCtl {v : View} {i : RegInfo} {x : Nat} {w : Word} {s : State} (hx : x < 72) (h : writes v (synCtl x) i s = true) :
    busWrite v (synCtl x) w s = synCtlWrite x w (served v (synCtl x) true s) :=
  busWrite_syn (o := 0) hx (by omega) h

theorem busWrite_synSlot {v : View} {i : RegInfo} {x k a : Nat} {frac : Bool} {w : Word} {s : State} (hx : x < 72) (hk : k < 4)
    (ha : a = synSlotR x k + (if frac then 4 else 0)) (h : writes v a i s = true) :
    busWrite v a w s = synWordWrite x k frac w (served v a true s) := by
  obtain ⟨o, ho, hfrac⟩ : ∃ o, o = 8 * k + (if frac then 4 else 0) ∧ (o % 8 == 4) = frac := by
    refine ⟨_, rfl, ?_⟩
    cases frac
    · exact beq_eq_false_iff_ne.mpr (by simp)
    · exact beq_iff_eq.mpr (by simp only [if_true]; omega)
  have hle : (if frac then 4 else 0) ≤ 4 := by cases frac <;> decide
  have hplace : a = synBase x + (0x20 + o) := by rw [ha, ho, synSlotR]; omega
  generalize (if frac then 4 else 0) = f at *
  rw [hplace] at h ⊢
  rw [busWrite_syn hx (by omega) h, synWrite, if_neg (by omega), if_pos (by omega), Nat.add_sub_cancel_left,
    show (0x20 + o) % 8 = o % 8 by omega, hfrac, show o / 8 = k by omega]

end Sys2Proof.Proofs
end

section
/-! Register writes that reset, restart, swap, disable or move a unit (R301, R398, R410, R445, R477, R478). -/
namespace Sys2Proof.Proofs
open Sys2Proof Sys2Proof.Machine Sys2Proof.Laws

/-! ### PORT_CTL (R410) -/

theorem portCtlWrite_reset (v : View) (p : Nat) (s : State) : portCtlWrite v p 0x20002 s = portReset p s := by
  have hswap : bitGet (wmMask 0x20002) 0 = false := by decide
  have hreset : (bitGet (wmMask 0x20002) 1 && bitGet 0x20002 1) = true := by decide
  simp only [portCtlWrite, hswap, hreset, Bool.false_and, Bool.false_eq_true, if_false, if_true]

/-- A word that writes PAIR_SWAP alone, with a link of the port that is not DOWN where it changes. -/
theorem portCtlWrite_swap (v : View) (p : Nat) (b : Bool) (s : State) :
    portCtlWrite v p (if b then 0x10001 else 0x10000) s =
      if b != rdB s (portBase p) 0 && (portLinks s p).any (fun l => (linkOf s l).state != .down) then accessError v (portBase p) 6 true s
      else wrB (portBase p) 0 b s := by
  have hmask : bitGet (wmMask (if b then 0x10001 else 0x10000)) 0 = true := by cases b <;> decide
  have hreset : bitGet (wmMask (if b then 0x10001 else 0x10000)) 1 = false := by cases b <;> decide
  have hbit : bitGet (if b then 0x10001 else 0x10000) 0 = b := by cases b <;> decide
  simp only [portCtlWrite, hmask, hreset, hbit, Bool.true_and, Bool.false_and, Bool.false_eq_true, if_false, if_true]

/-! ### PAIR_CTL (R410) -/

theorem pairCtlWrite_restart (l : Nat) (s : State) : pairCtlWrite l 0x10001 s = pairRestart l s := by
  have htx : bitGet (wmMask 0x10001) 1 = false := by decide
  have hsyn : bitGet (wmMask 0x10001) 2 = false := by decide
  have hrestart : (bitGet (wmMask 0x10001) 0 && bitGet 0x10001 0) = true := by decide
  simp only [pairCtlWrite, htx, hsyn, hrestart, Bool.false_eq_true, if_false, if_true]

theorem pairCtlWrite_txDisable (l : Nat) (b : Bool) (s : State) :
    pairCtlWrite l (if b then 0x20002 else 0x20000) s = wrB (pairBase l) 1 b s := by
  have htx : bitGet (wmMask (if b then 0x20002 else 0x20000)) 1 = true := by cases b <;> decide
  have hsyn : bitGet (wmMask (if b then 0x20002 else 0x20000)) 2 = false := by cases b <;> decide
  have hrestart : bitGet (wmMask (if b then 0x20002 else 0x20000)) 0 = false := by cases b <;> decide
  have hbit : bitGet (if b then 0x20002 else 0x20000) 1 = b := by cases b <;> decide
  simp only [pairCtlWrite, htx, hsyn, hrestart, hbit, Bool.false_and, Bool.false_eq_true, if_false, if_true]

theorem pairCtlWrite_clkSyn (l : Nat) (b : Bool) (s : State) :
    pairCtlWrite l (if b then 0x40004 else 0x40000) s =
      if rdB s (pairBase l) 2 && !b then
        linksLoseBanks (linkOfPair (lineMux l (wrB (pairBase l) 2 b s)) l).toList (lineMux l (wrB (pairBase l) 2 b s))
      else lineMux l (wrB (pairBase l) 2 b s) := by
  have htx : bitGet (wmMask (if b then 0x40004 else 0x40000)) 1 = false := by cases b <;> decide
  have hsyn : bitGet (wmMask (if b then 0x40004 else 0x40000)) 2 = true := by cases b <;> decide
  have hrestart : bitGet (wmMask (if b then 0x40004 else 0x40000)) 0 = false := by cases b <;> decide
  have hbit : bitGet (if b then 0x40004 else 0x40000) 2 = b := by cases b <;> decide
  simp only [pairCtlWrite, htx, hsyn, hrestart, hbit, Bool.false_and, Bool.false_eq_true, if_false, if_true]

/-- Settles O30: each row is a write of one control word, and the word's set bits or its mask leave one branch of the register's write. -/
theorem unitControlWrites : Obligations.UnitControlWrites := by
  refine ⟨fun v p i s h => ?_, fun v p b i s u h hu hfree => ?_, fun v p b i s u l h hu hchange hl hup => ?_, fun v l i s h => ?_,
    fun v l b i s h => ?_, fun v l b i s u w h hu hw => ?_, fun v t i s h => ?_, fun v i s u h hu => ?_, fun v i s u h hu hsup => ?_,
    fun v i s u h hu hsup => ?_, fun v w i s h hw => ?_⟩
  · exact congrArg Host.Outcome.next ((busWrite_portCtl p.isLt h).trans (portCtlWrite_reset ..))
  · have hkeeps : (b != rdB u (portBase p.toNat) 0 && (portLinks u p.toNat).any fun l => (linkOf u l).state != .down) = false := by
      rcases hfree with hsame | hdown
      · rw [hsame, bne_self_eq_false, Bool.false_and]
      · rw [List.any_eq_false.mpr (fun l hl => by rw [hdown l hl]; decide), Bool.and_false]
    refine congrArg Host.Outcome.next ((busWrite_portCtl p.isLt h).trans ?_)
    rw [← hu, portCtlWrite_swap, hkeeps, if_neg Bool.false_ne_true]
  · have hrefused : (b != rdB u (portBase p.toNat) 0 && (portLinks u p.toNat).any fun l => (linkOf u l).state != .down) = true := by
      rw [hchange, List.any_eq_true.mpr ⟨l, hl, by simpa using hup⟩, Bool.and_true]
      cases b <;> rfl
    refine congrArg Host.Outcome.next ((busWrite_portCtl p.isLt h).trans ?_)
    rw [← hu, portCtlWrite_swap, hrefused, if_pos rfl]
  · exact congrArg Host.Outcome.next ((busWrite_pairCtl l.isLt h).trans (pairCtlWrite_restart ..))
  · exact congrArg Host.Outcome.next ((busWrite_pairCtl l.isLt h).trans (pairCtlWrite_txDisable ..))
  · rw [hw, hu]
    exact congrArg Host.Outcome.next ((busWrite_pairCtl l.isLt h).trans (pairCtlWrite_clkSyn ..))
  · exact congrArg Host.Outcome.next ((busWrite_tileCtl t.isLt h).trans (if_pos (by decide)))
  · subst hu
    refine congrArg Host.Outcome.next ((busWrite_chainCtl h).trans ?_)
    rw [chainCtlWrite, show bitGet 1 0 = true by decide, Bool.true_and]
  · subst hu
    refine congrArg Host.Outcome.next ((busWrite_devResetCtl h).trans ?_)
    rw [resetCtlWrite, if_neg (by decide), hsup, if_neg Bool.false_ne_true]
  · subst hu
    refine congrArg Host.Outcome.next ((busWrite_devResetCtl h).trans ?_)
    rw [resetCtlWrite, if_neg (by decide), hsup, if_pos rfl]
  · exact congrArg Host.Outcome.next ((busWrite_devResetCtl h).trans (if_pos hw))

end Sys2Proof.Proofs
end

section
/-! Writes of synthesizer, reference, output, host lane and power registers (R230, R239, R240, R250, R258, R264, R265, R268, R271, R279,
R313, R317). -/
namespace Sys2Proof.Proofs
open Sys2Proof Sys2Proof.Machine Sys2Proof.Laws

/-- A rack PLL has none of the synthesizer rows. -/
theorem synField_rack {v : View} {x hi lo k : Nat} {s : State} (hx : 72 ≤ x) : synField v x hi lo k s = s := if_neg (by omega)

theorem synField_syn {v : View} {i : RegInfo} {x hi lo k : Nat} {s : State} (hx : x < 72) (h : writes v (synCtl x) i s = true) :
    synField v x hi lo k s = synCtlWrite x (fieldPut (rd s (synCtl x)) hi lo k) (served v (synCtl x) true s) :=
  (if_pos hx).trans (busWrite_synCtl hx h)

/-- A served write of REF_SEL brings the measurements of the switch. -/
theorem writeWord_refSel {v : View} {i : RegInfo} {w diff : Word} {step : BitVec 16} {s : State} (h : writes v refSelR i s = true) :
    (writeWord v refSelR w true step diff s).2 = refSelWrite w step diff (served v refSelR true s) :=
  (writeWord_writes h rfl (keepReserved_plain (by decide)).symm).trans (regWrite_hub (by decide))

/-- Settles O32: the register map gives each row its register's write. -/
theorem synthesizerWrites : Obligations.SynthesizerWrites := by
  refine ⟨fun v x k i s hx h => ?_, fun v x bw i s hx h => ?_, fun v x m1 i s hx h => ?_, fun v x k frac w i s a hx ha h => ?_,
    fun v x k bw m1 frac w s hx => ?_, fun v w step diff i s u h hu hsel hok => ?_, fun v w step diff i s u h hu hkeep => ?_,
    fun v osb k i s h => ?_, fun v osb frac k w x i s u t a ha h hu hx => ?_, fun v osb b i s h => ?_⟩
  · exact congrArg Host.Outcome.next (synField_syn hx h)
  · exact congrArg Host.Outcome.next (synField_syn hx h)
  · exact congrArg Host.Outcome.next (synField_syn hx h)
  · subst ha
    exact congrArg Host.Outcome.next ((if_pos hx).trans (busWrite_synSlot hx k.isLt rfl h))
  · exact ⟨congrArg Host.Outcome.next (synField_rack hx), congrArg Host.Outcome.next (synField_rack hx),
      congrArg Host.Outcome.next (synField_rack hx), congrArg Host.Outcome.next (if_neg (by omega))⟩
  · refine congrArg Host.Outcome.next ((writeWord_refSel h).trans ?_)
    rw [refSelWrite, ← hu, if_pos ⟨hsel.symm, hok⟩]
  · refine congrArg Host.Outcome.next ((writeWord_refSel h).trans ?_)
    rw [refSelWrite, ← hu, if_neg]
    rintro ⟨hsel, hok⟩
    rcases hkeep with hsame | hfails
    · exact hsel hsame.symm
    · rw [hfails] at hok; cases hok
  · exact congrArg Host.Outcome.next (busWrite_rackCtl h)
  · subst hu
    rw [← busWrite_rackSlot k.isLt ha h hx, ha]; rfl
  · exact congrArg Host.Outcome.next (busWrite_rackCtl h)

/-- Settles O33: the register map gives each row its register's write. -/
theorem outputAndPowerWrites : Obligations.OutputAndPowerWrites := by
  refine ⟨fun v n x i s u h hu => ?_, fun v n x i s u h hu => ?_, fun v n fmt src i s u h hu => ?_, fun v n i s h => ?_,
    fun v n w x i s u t h hu hx => ?_, fun n s hm hrun => ?_, fun v n w x i s u t h hu hx => ?_, fun v d w i s u h hu hle hacc => ?_,
    fun v d w i s u h hu hbad => ?_, fun v w i s h => ?_, fun v w i s h => ?_⟩
  · subst hu
    exact congrArg Host.Outcome.next ((busWrite_out (o := 0) n.isLt (by decide) (by decide) h).trans
      (rackWrite_out (o := 0) n.isLt (by decide)))
  · subst hu
    exact congrArg Host.Outcome.next ((busWrite_out n.isLt (by decide) (by decide) h).trans (rackWrite_out n.isLt (by decide)))
  · subst hu
    exact congrArg Host.Outcome.next ((busWrite_out (o := 0) n.isLt (by decide) (by decide) h).trans
      (rackWrite_out (o := 0) n.isLt (by decide)))
  · exact congrArg Host.Outcome.next ((busWrite_out n.isLt (by decide) (by decide) h).trans (rackWrite_out n.isLt (by decide)))
  · have hn := n.isLt
    have hbase : outBase n.toNat = 0x41000 + 0x20 * n.toNat := rfl
    exact congrArg Host.Outcome.next ((busWrite_rack (k := (x, t)) h (by omega) hu hx).trans (rackWrite_out n.isLt (by decide)))
  · exact congrArg Host.Outcome.next (if_neg (by simp [hm, hrun]))
  · subst hu
    exact congrArg Host.Outcome.next (busWrite_hlCtl n.isLt h hx)
  · refine congrArg Host.Outcome.next ((busWrite_domCtl d.isLt h hu).trans ?_)
    have hgood : ¬ (4 < fieldGet w 2 0 ∨ accepts d.val (fieldGet w 2 0) = false) := by simp [hacc, hle]
    simp only [domCtlWrite, if_neg hgood, Bool.false_eq_true, if_false]
  · refine congrArg Host.Outcome.next ((busWrite_domCtl d.isLt h hu).trans ?_)
    simp only [domCtlWrite, if_pos hbad, if_true]
  · exact congrArg Host.Outcome.next (busWrite_pwrPlOper h)
  · exact congrArg Host.Outcome.next (busWrite_pwrPlGrader h)

end Sys2Proof.Proofs
end

section
/-! Accesses to registers of the hub and to windows (R4, R392, R397, R400, R401, R406, R407, R409). -/
namespace Sys2Proof.Proofs
open Sys2Proof Sys2Proof.Machine Sys2Proof.Laws

/-! ### SNAP_CTL (R406, R407) -/

theorem snapCtlWrite_go {v : View} {h : Word} {s : State} :
    snapCtlWrite v (1 ||| (h &&& 2)) s = snapGo (wrView v snapCtlR (h &&& 2) s) := by
  have hheld : (1 ||| (h &&& 2)) &&& 2 = h &&& 2 := by
    ext j hj
    by_cases h0 : j = 0
    · subst h0; simp
    · simp [h0]
  have hcollide : bitGet (1 ||| (h &&& 2)) 3 = false := by simp [bitGet]
  have hgo : bitGet (1 ||| (h &&& 2)) 0 = true := by simp [bitGet]
  simp only [snapCtlWrite, hheld, hcollide, hgo, Bool.false_eq_true, if_false, if_true]

theorem snapCtlWrite_held {v : View} {b : Bool} {s : State} :
    snapCtlWrite v (if b then 2 else 0) s = wrView v snapCtlR (if b then 2 else 0) s := by
  cases b <;> rfl

/-! ### What the view of a window's word is (R392) -/

/-- An access that is not one whole aligned word fails with cause 9. -/
theorem writeWord_partial {v : View} {a : Nat} {w diff : Word} {step : BitVec 16} {s : State} (h : reaches s v a = true) :
    (writeWord v a w false step diff s).2 = accessDone v a false (accessFails v a 9 true s) := by
  simp only [writeWord, h, Bool.not_true, Bool.false_eq_true, if_false, Bool.not_false, Bool.true_or, if_true]

theorem busRead_partial {v : View} {a : Nat} {s : State} (h : reaches s v a = true) :
    busRead v a false s = emit (.readData v allOnes true) (accessDone v a true (accessFails v a 9 false s)) := by
  simp only [busRead, readWord, h, Bool.not_true, Bool.false_eq_true, if_false, Bool.not_false, Bool.true_or, if_true]

/-- A served write of a word of a window goes to the window. -/
theorem busWrite_window {v : View} {a : Nat} {w : Word} {s : State} (hr : reaches s v a = true) (ha : a % 4 = 0) (hne : a ≠ refSelR)
    (hv : verdict s v a true = .serve) (hi : regInfo a = none) : busWrite v a w s = windowWrite v a w (served v a true s) := by
  simp only [busWrite, if_neg hne, writeWord, hr, ha, hv, serveWrite, hi, Bool.not_true, Bool.false_eq_true, if_false, bne_self_eq_false,
    Bool.or_self]

/-- A served read returns a word and leaves what the read leaves. -/
theorem busRead_served {v : View} {a : Nat} {s : State} (h : reads v a s = true) :
    busRead v a true s = emit (.readData v (readValue v a (windowWords v a false s)).1 false)
      (served v a false (afterRead v a (readValue v a (windowWords v a false s)).2)) := by
  simp only [reads, Bool.and_eq_true, beq_iff_eq] at h
  obtain ⟨⟨hx, hv⟩, ha⟩ := h
  simp only [busRead, readWord, hx, hv, ha, Bool.not_true, Bool.false_eq_true, if_false, bne_self_eq_false, Bool.or_self]

/-! ### DEV_TIME_LO (R409) -/

theorem peek_devTimeLo (s : State) (v : View) : peek s v devTimeLoR = s.time.setWidth 32 := by
  have hcovered : covered devTimeLoR = false := by decide +kernel
  have hview : pvMask devTimeLoR = 0 := by decide +kernel
  have hlive : liveWord s v devTimeLoR = s.time.setWidth 32 := by
    calc liveWord s v devTimeLoR
      _ = (s.time.setWidth 32 &&& ~~~(pvMask devTimeLoR)) ||| (rdView s v devTimeLoR &&& pvMask devTimeLoR) := rfl
      _ = s.time.setWidth 32 := by
        rw [hview, show (~~~0 : Word) = BitVec.allOnes 32 by decide, BitVec.and_allOnes]
        exact (congrArg _ BitVec.and_zero).trans BitVec.or_zero
  obtain ⟨i, hi⟩ : ∃ i, regInfo devTimeLoR = some i := Option.isSome_iff_exists.mp (by decide +kernel)
  have hword : windowWord s devTimeLoR = none := rfl
  have hne : devTimeLoR ≠ devTimeHiR := by decide
  simp only [peek, hword, hi, hcovered, Bool.false_and, Bool.false_eq_true, if_false, if_neg hne, hlive]

/-- Settles O31: each clause is a served access, a failed one, or the write of one hub register. -/
theorem hubAccesses : Obligations.HubAccesses := by
  refine ⟨fun v w i s u h hu => ?_, fun v i s u h hu => ?_, fun v b i s h => ?_, fun s u hm hbusy hu => ?_,
    fun v a w x i s u t h hne hu hx => ?_, fun v w i x s u hx h => ?_, fun v a w s hr ha hne hv hi => ?_, fun v a w s hr => ?_,
    fun v w i s u h hu => ?_, fun v a x s u h hx => ?_, fun v a i s h hb hlo hhi hf ht hrush hi hrc => ?_, fun v a s hr => ?_,
    fun v s h => ?_⟩
  · exact congrArg Host.Outcome.next (busWrite_lockCtl h hu)
  · subst hu
    exact congrArg Host.Outcome.next ((busWrite_snapCtl h).trans snapCtlWrite_go)
  · exact congrArg Host.Outcome.next ((busWrite_snapCtl h).trans snapCtlWrite_held)
  · subst hu
    exact congrArg Host.Outcome.next (if_neg (by simp [hm, hbusy]))
  · exact congrArg Host.Outcome.next (busWrite_writes (k := (x, t)) h hu hx hne)
  · refine congrArg Host.Outcome.next ((if_pos rfl).trans ((if_pos rfl).trans ?_))
    rw [← hx]
    exact writeWord_refSel h
  · exact congrArg Host.Outcome.next (busWrite_window hr ha hne hv hi)
  · exact congrArg Host.Outcome.next (writeWord_partial hr)
  · subst hu
    exact congrArg Host.Outcome.next (busWrite_hub h (by decide) (by decide) (by decide) (by decide))
  · rw [show exec (.clearOnRead v a true) s = .next (busRead v a.toNat true s) from rfl, busRead_served h, ← hx]
  · rw [show exec (.clearOnRead v a true) s = .next (busRead v a.toNat true s) from rfl, busRead_reads h hb hf ht hrush, afterRead,
      if_neg hlo, if_neg hhi, if_neg hb, hi]
    dsimp only
    rw [if_neg hrc]
  · exact congrArg Host.Outcome.next (busRead_partial hr)
  · rw [show exec (.devTimeLoRead v) s = .next (busRead v devTimeLoR true s) from rfl,
      busRead_reads h (by decide) rfl (by decide) (by decide), peek_devTimeLo]
    rfl

end Sys2Proof.Proofs
end

section
/-! Performance counter blocks (R411, R413, R417, R419). -/
namespace Sys2Proof.Proofs
open Sys2Proof Sys2Proof.Machine Sys2Proof.Laws

/-! ### Single bits and wide registers -/

theorem bitGet_bitPut {w : Word} {i j : Nat} {b : Bool} (hi : i < 32) : bitGet (bitPut w i b) j = if j = i then b else bitGet w j := by
  have hbit : ∀ c : Bool, (if c then 1 else 0) % 2 ^ (i + 1 - i) * 2 ^ i = if c then 2 ^ i else 0 := by
    intro c; rw [Nat.add_sub_cancel_left]; cases c <;> simp
  have hmask : (2 ^ (i + 1 - i) - 1) * 2 ^ i = 2 ^ i := by rw [Nat.add_sub_cancel_left]; simp
  simp only [bitGet, bitPut, fieldPut, fieldMask, hbit, hmask, BitVec.getLsbD_or, BitVec.getLsbD_and, BitVec.getLsbD_not,
    BitVec.getLsbD_ofNat]
  by_cases hj : j = i
  · subst hj
    cases b <;> simp [hi]
  · by_cases hlt : j < 32
    · cases b <;> simp [hj, hlt, Ne.symm hj]
    · simp [hj, hlt, BitVec.getLsbD_of_ge w j (by omega)]

theorem rdB_wrB_same {a i : Nat} {b : Bool} {s : State} (hi : i < 32) : rdB (wrB a i b s) a i = b := by
  rw [rdB, rd_wrB_same, bitGet_bitPut hi, if_pos rfl]

theorem rdB_wrB_other {a i j : Nat} {b : Bool} {s : State} (hi : i < 32) (hj : j ≠ i) : rdB (wrB a i b s) a j = rdB s a j := by
  rw [rdB, rd_wrB_same, bitGet_bitPut hi, if_neg hj]; rfl

theorem rdWide_congr {s t : State} {a : Nat} (h : rd s a = rd t a) (h' : rd s (a + 4) = rd t (a + 4)) : rdWide s a = rdWide t a := by
  rw [rdWide, h, h', rdWide]

/-- A 48-bit counter that is written with a multiple of 2^48 holds 0. -/
theorem rdWide_wrWide_zero {a v : Nat} {s : State} (h : v % 2 ^ 48 = 0) : rdWide (wrWide a 48 v s) a = 0 := by
  have hlow : (BitVec.ofNat 32 v).toNat = 0 := by rw [BitVec.toNat_ofNat]; omega
  rw [rdWide, wrWide, rd_wr_same, rd_wr_other _ _ (by omega), rd_wr_same, hlow, h]
  rfl

theorem rdWide_wrWide_other {a b w v : Nat} {s : State} (h : b + 4 < a ∨ a + 4 < b) : rdWide (wrWide a w v s) b = rdWide s b :=
  rdWide_congr (rd_wrWide_other _ _ _ (by omega) (by omega)) (rd_wrWide_other _ _ _ (by omega) (by omega))

/-! ### Clearing a block -/

/-- The registers that a clearing writes hold 0 after it, and it leaves PERF_CTL. -/
theorem perfClear_reads (b : Nat) (s : State) :
    (∀ n < 8, rdWide (perfClear b s) (perfPc b n) = 0) ∧ rdWide (perfClear b s) (perfBase b + 8) = 0 ∧ rd (perfClear b s) (perfOvf b) = 0 := by
  have hfold : ∀ (l : List Nat) (u : State),
      (∀ n, n ∈ l ∨ rdWide u (perfPc b n) = 0 → rdWide (l.foldl (fun s n => wrWide (perfPc b n) 48 0 s) u) (perfPc b n) = 0) ∧
      (∀ x, x < perfBase b + 0x4C → rd (l.foldl (fun s n => wrWide (perfPc b n) 48 0 s) u) x = rd u x) := by
    intro l
    induction l with
    | nil => exact fun u => ⟨fun n h => h.resolve_left List.not_mem_nil, fun x _ => rfl⟩
    | cons m l ih =>
      intro u
      obtain ⟨hzero, hkeep⟩ := ih (wrWide (perfPc b m) 48 0 u)
      refine ⟨fun n h => hzero n ?_, fun x hx => (hkeep x hx).trans (rd_wrWide_other _ _ _ ?_ ?_)⟩
      · by_cases hm : n = m
        · exact .inr (hm ▸ rdWide_wrWide_zero rfl)
        · rcases h with h | h
          · exact .inl ((List.mem_cons.mp h).resolve_left hm)
          · exact .inr ((rdWide_wrWide_other (by unfold perfPc; omega)).trans h)
      all_goals unfold perfPc; omega
  obtain ⟨hzero, hkeep⟩ := hfold (List.range 8) (wrWide (perfBase b + 8) 48 0 (wr (perfOvf b) 0 s))
  refine ⟨fun n hn => hzero n (.inl (List.mem_range.mpr hn)), ?_, ?_⟩
  · exact (rdWide_congr (hkeep _ (by omega)) (hkeep _ (by omega))).trans (rdWide_wrWide_zero rfl)
  · refine (hkeep _ (by unfold perfOvf; omega)).trans ?_
    rw [rd_wrWide_other _ _ _ (by unfold perfOvf; omega) (by unfold perfOvf; omega), rd_wr_same]

/-! ### A counter at its overflow (R417) -/

/-- What a counter's addition leaves: the counters before it, and the registers of the block below them but PERF_OVF. -/
theorem rd_perfAdd_before {b fuel n k x : Nat} {s : State} (h : x < perfPc b n) (hovf : x ≠ perfOvf b) :
    rd (perfAdd b fuel n k s) x = rd s x := by
  induction fuel generalizing n k s with
  | zero => rfl
  | succ fuel ih =>
    have hpc : x ≠ perfPc b n ∧ x ≠ perfPc b n + 4 := by omega
    have hnext : x < perfPc b (n + 1) := by unfold perfPc at h ⊢; omega
    rw [perfAdd]
    dsimp only
    split
    · split
      · rw [ih hnext, rd_wrB_other _ _ _ hovf, rd_wrWide_other _ _ _ hpc.1 hpc.2]
      · rw [rd_wrB_other _ _ _ hovf, rd_wrWide_other _ _ _ hpc.1 hpc.2]
    · rw [rd_wrWide_other _ _ _ hpc.1 hpc.2]

/-- An addition to a counter sets no overflow bit of a counter before it, and clears none. -/
theorem rdB_perfAdd_ovf {b fuel n k j : Nat} {s : State} (hn : n < 8) (hj : j ≤ n) :
    rdB (perfAdd b fuel n k s) (perfOvf b) j = rdB s (perfOvf b) j := by
  have hpc : ∀ n, perfOvf b ≠ perfPc b n ∧ perfOvf b ≠ perfPc b n + 4 := by intro n; unfold perfOvf perfPc; omega
  have hwide : ∀ n v s, rdB (wrWide (perfPc b n) 48 v s) (perfOvf b) j = rdB s (perfOvf b) j := fun n v s => by
    rw [rdB, rd_wrWide_other _ _ _ (hpc n).1 (hpc n).2, rdB]
  induction fuel generalizing n k s with
  | zero => rfl
  | succ fuel ih =>
    rw [perfAdd]
    dsimp only
    split
    · split
      · rename_i hcascade
        rw [ih (by omega) (by omega), rdB_wrB_other (by omega) (by omega), hwide]
      · rw [rdB_wrB_other (by omega) (by omega), hwide]
    · exact hwide ..

/-- A counter that reaches 2^48 holds 0 and its overflow bit stands. -/
theorem perfAdd_wraps {b fuel n k : Nat} {s : State} (hn : n < 8) (hk : (rdWide s (perfPc b n) + k) % 2 ^ 48 = 0)
    (hwraps : 2 ^ 48 ≤ rdWide s (perfPc b n) + k) :
    rdWide (perfAdd b (fuel + 1) n k s) (perfPc b n) = 0 ∧ rdB (perfAdd b (fuel + 1) n k s) (perfOvf b) (n + 1) = true := by
  have hovf : perfPc b n ≠ perfOvf b ∧ perfPc b n + 4 ≠ perfOvf b := by unfold perfOvf perfPc; omega
  have hzero : ∀ u, u = wrB (perfOvf b) (n + 1) true (wrWide (perfPc b n) 48 (rdWide s (perfPc b n) + k) s) → rdWide u (perfPc b n) = 0 :=
    fun u hu => by
      subst hu
      exact (rdWide_congr (rd_wrB_other _ _ _ hovf.1) (rd_wrB_other _ _ _ hovf.2)).trans (rdWide_wrWide_zero hk)
  rw [perfAdd]
  dsimp only
  rw [if_pos hwraps]
  split
  · have hbefore : perfPc b n + 4 < perfPc b (n + 1) := by unfold perfPc; omega
    refine ⟨(rdWide_congr (rd_perfAdd_before (by omega) hovf.1) (rd_perfAdd_before (by omega) hovf.2)).trans (hzero _ rfl), ?_⟩
    rw [rdB_perfAdd_ovf (by omega) (Nat.le_refl _), rdB_wrB_same (by omega)]
  · exact ⟨hzero _ rfl, rdB_wrB_same (by omega)⟩

/-- What the interrupt of an overflow leaves: every register of a counter block. -/
theorem rd_perfIrq {b x : Nat} {was : Word} {s : State} (hx : 0x70000 ≤ x) : rd (perfIrq b was s) x = rd s x := by
  rw [perfIrq]
  split
  · exact rd_raise_other (by omega) (by unfold chainHopDropR; omega)
  · rfl

theorem hub_le_perfBase (b : Nat) : 0x70000 ≤ perfBase b := by unfold perfBase tileBase; split <;> omega

/-- The cycle counter that reaches 2^48 holds 0 and its overflow bit stands. -/
theorem perfCycle_wraps {b k : Nat} {s : State} (hcounts : perfCounts s b = true) (hk : (rdWide s (perfBase b + 8) + k) % 2 ^ 48 = 0)
    (hwraps : 2 ^ 48 ≤ rdWide s (perfBase b + 8) + k) :
    rdWide (perfCycle b k s) (perfBase b + 8) = 0 ∧ rdB (perfCycle b k s) (perfOvf b) 0 = true := by
  have hbase := hub_le_perfBase b
  have hovf : perfOvf b = perfBase b + 0x10 := rfl
  have hpc : perfPc b 0 = perfBase b + 0x50 := rfl
  rw [perfCycle, hcounts, if_pos rfl]
  dsimp only
  rw [if_pos hwraps]
  generalize hu : wrB (perfOvf b) 0 true (wrWide (perfBase b + 8) 48 (rdWide s (perfBase b + 8) + k) s) = u
  have hzero : rdWide u (perfBase b + 8) = 0 := by
    rw [← hu]
    exact (rdWide_congr (rd_wrB_other _ _ _ (by omega)) (rd_wrB_other _ _ _ (by omega))).trans (rdWide_wrWide_zero hk)
  have hset : rdB u (perfOvf b) 0 = true := by rw [← hu]; exact rdB_wrB_same (by omega)
  have hcascade : ∀ t, t = u ∨ t = perfAdd b 8 0 1 u → rdWide t (perfBase b + 8) = 0 ∧ rdB t (perfOvf b) 0 = true := by
    rintro t (rfl | rfl)
    · exact ⟨hzero, hset⟩
    · exact ⟨(rdWide_congr (rd_perfAdd_before (by omega) (by omega)) (rd_perfAdd_before (by omega) (by omega))).trans hzero,
        (rdB_perfAdd_ovf (by omega) (Nat.le_refl _)).trans hset⟩
  have hchain : (if rdB u (perfSel b 0) 19 = true then perfAdd b 8 0 1 u else u) = u ∨
      (if rdB u (perfSel b 0) 19 = true then perfAdd b 8 0 1 u else u) = perfAdd b 8 0 1 u := by
    split
    · exact .inr rfl
    · exact .inl rfl
  obtain ⟨hlow, hbit⟩ := hcascade _ hchain
  exact ⟨(rdWide_congr (rd_perfIrq (by omega)) (rd_perfIrq (by omega))).trans hlow,
    (congrArg (bitGet · 0) (rd_perfIrq (by omega))).trans hbit⟩

/-- The counts that are left to the overflow of a counter bring it to a multiple of 2^48. -/
theorem add_left_mod (v : Nat) : (v + (2 ^ 48 - v % 2 ^ 48)) % 2 ^ 48 = 0 ∧ 2 ^ 48 ≤ v + (2 ^ 48 - v % 2 ^ 48) := by omega

theorem overflow_cycle {b : Nat} {s : State} (hm : s.mode = .running) (hcounts : perfCounts s b = true) :
    overflow b 0 s = perfCycle b (2 ^ 48 - rdWide s (perfBase b + 8) % 2 ^ 48) s := by
  rw [overflow, if_neg (by simp [hm, hcounts]), if_pos rfl]

theorem overflow_counter {b n : Nat} {s : State} (hm : s.mode = .running) (hcounts : perfCounts s b = true) (hn : n ≠ 0) :
    overflow b n s = perfIrq b (rd s (perfOvf b)) (perfAdd b 8 (n - 1) (2 ^ 48 - rdWide s (perfPc b (n - 1)) % 2 ^ 48) s) := by
  rw [overflow, if_neg (by simp [hm, hcounts]), if_neg hn]

/-! ### Windows (R419) -/

theorem perfWinStart_opens {b k : Nat} {x : PerfWin} {s : State} (hm : s.mode = .running)
    (hfind : s.perfWins.find? (fun e => e.1 == b) = some (k, x)) (hopen : x.opened = false) :
    perfWinStart b s = winOpen b (BitVec.ofNat 64 (rdWide s (perfStart b))) s := by
  rw [perfWinStart, hfind]
  exact if_pos ⟨hm, hopen⟩

theorem perfWinEnd_ends {b k : Nat} {x : PerfWin} {s : State} (hm : s.mode = .running)
    (hfind : s.perfWins.find? (fun e => e.1 == b) = some (k, x)) (hopen : x.opened = true) :
    perfWinEnd b s = wrB (perfBase b) 1 true (wrB (perfBase b) 4 true (winCancel b s)) := by
  rw [perfWinEnd, hfind]
  exact if_pos ⟨hm, hopen⟩

theorem regs_winOpen (b : Nat) (since : BitVec 64) (s : State) :
    (winOpen b since s).regs = (wrB (perfBase b) 1 false (perfClear b s)).regs := by
  unfold winOpen; rfl

theorem rd_winOpen (b : Nat) (since : BitVec 64) (s : State) (a : Nat) :
    rd (winOpen b since s) a = rd (wrB (perfBase b) 1 false (perfClear b s)) a := by
  rw [rd, regs_winOpen, ← rd]

/-- A window that opens has its counters, PERF_OVF and FREEZE at 0. -/
theorem winOpen_reads (b : Nat) (since : BitVec 64) (s : State) :
    rdB (winOpen b since s) (perfBase b) 1 = false ∧ rdWide (winOpen b since s) (perfBase b + 8) = 0 ∧
      (∀ n < 8, rdWide (winOpen b since s) (perfPc b n) = 0) ∧ rd (winOpen b since s) (perfOvf b) = 0 := by
  obtain ⟨hpc, hcycle, hovf⟩ := perfClear_reads b s
  have hctl : ∀ {a}, a ≠ perfBase b → rd (winOpen b since s) a = rd (perfClear b s) a :=
    fun h => (rd_winOpen ..).trans (rd_wrB_other _ _ _ h)
  refine ⟨(congrArg (bitGet · 1) (rd_winOpen ..)).trans (rdB_wrB_same (by omega)), ?_, fun n hn => ?_, (hctl (by unfold perfOvf; omega)).trans hovf⟩
  · exact (rdWide_congr (hctl (by omega)) (hctl (by omega))).trans hcycle
  · exact (rdWide_congr (hctl (by unfold perfPc; omega)) (hctl (by unfold perfPc; omega))).trans (hpc n hn)

/-- A served write of PERF_CTL. -/
theorem busWrite_perfCtl {v : View} {b : Fin 9} {i : RegInfo} {w : Word} {s : State} (h : writes v (perfBase b.val) i s = true) :
    busWrite v (perfBase b.val) w s = perfCtlWrite v b.val w (served v (perfBase b.val) true s) := by
  rw [← Nat.add_zero (perfBase b.val)] at h ⊢
  rw [busWrite_perf b.isLt (by omega) h, perfWrite, if_pos rfl]

/-- Settles O34: PERF_CTL and PERF_SEL by the register map, the windows by what a clearing writes, the overflows by what an addition to a
counter at its limit does. -/
theorem performanceRows : Obligations.PerformanceRows := by
  refine ⟨fun v b i s h => congrArg Host.Outcome.next (busWrite_perfCtl h), fun v b i s h => congrArg Host.Outcome.next (busWrite_perfCtl h),
    fun v b en fr i s h => congrArg Host.Outcome.next (busWrite_perfCtl h), fun v b n w i s u h hu hbit => ?_,
    fun b s k x hm hfind hopen => ?_, fun b s k x hm hfind hopen => ?_, fun b s hm hcounts => ?_, fun b n s hm hcounts hn => ?_⟩
  · rw [exec_perfSelWrite h, perfSelWrite_stored (.inl hbit), hu]
  · exact ⟨_, congrArg Host.Outcome.next (perfWinStart_opens hm hfind hopen), rfl, winOpen_reads ..⟩
  · refine ⟨_, congrArg Host.Outcome.next (perfWinEnd_ends hm hfind hopen), rfl, rdB_wrB_same (by omega), ?_, ?_, rfl⟩
    · rw [rdB_wrB_other (by omega) (by omega), rdB_wrB_same (by omega)]
    · rw [rdB_wrB_other (by omega) (by omega), rdB_wrB_other (by omega) (by omega)]
      exact rdB_wrB_same (by omega)
  · obtain ⟨hmod, hle⟩ := add_left_mod (rdWide s (perfBase b.val + 8))
    exact ⟨_, congrArg Host.Outcome.next (overflow_cycle hm hcounts), perfCycle_wraps hcounts hmod hle⟩
  · have hn0 : n.val ≠ 0 := fun h => hn (Fin.ext h)
    have hpos : n.val - 1 + 1 = n.val := by omega
    have hbase := hub_le_perfBase b.val
    obtain ⟨hmod, hle⟩ := add_left_mod (rdWide s (perfPc b.val (n.val - 1)))
    obtain ⟨hlow, hbit⟩ := perfAdd_wraps (fuel := 7) (by omega) hmod hle
    refine ⟨_, congrArg Host.Outcome.next (overflow_counter hm hcounts hn0), ?_, ?_⟩
    · have hpc : perfBase b.val ≤ perfPc b.val (n.val - 1) := by unfold perfPc; omega
      exact (rdWide_congr (rd_perfIrq (by omega)) (rd_perfIrq (by omega))).trans hlow
    · rw [hpos] at hbit
      exact (congrArg (bitGet · n.val) (rd_perfIrq (by unfold perfOvf; omega))).trans hbit

end Sys2Proof.Proofs
end

section
/-! The DEVICE, EVENT and STORE commands (R309, R310, R345 to R347, R365, R366, R369). -/
namespace Sys2Proof.Proofs
open Sys2Proof Sys2Proof.Machine Sys2Proof.Laws

/-! ### A command that has passed its checks (R327) -/

/-- Of a command that has passed its checks and waits for no domain the row answers what the command does. -/
theorem next_command {o : OpSpec} {c : Cmd} {act : Nat → State → State} {s u t : State} {e : Nat} (h : startOf o c s = some (e, u))
    (hact : act e u = t) : (Host.Outcome.next (command o c act s) : Out State) = .next t := by rw [command_starts h, hact]

/-- No condition of the list fails. -/
theorem firstBad_none {l : List (Bool × Nat)} (h : ∀ x ∈ l, x.1 = false) : firstBad l = none := by
  induction l with
  | nil => rfl
  | cons x l ih => rw [firstBad, h x List.mem_cons_self]; exact ih fun y hy => h y (List.mem_cons_of_mem _ hy)

/-! ### EVT_SUBSCRIBE and EVT_READ_LOG (R369) -/

theorem actEvtSubscribe_good {c : Cmd} {e : Nat} {u : State} (hbad : evtSubscribeBad c = false) :
    actEvtSubscribe c e u = complete e stOk [] (if leAt c.params 8 1 = 0 then wrF evtRingCfgR 4 0 (leAt c.params 8 1)
        (wrF evtRingCfgR 16 8 (leAt c.params 10 2) (wrWide evtBaseLoR 64 (leAt c.params 0 8) (wrWide evtClassLoR 64 (leAt c.params 16 8) u)))
      else evtRestart (wrF evtRingCfgR 4 0 (leAt c.params 8 1)
        (wrF evtRingCfgR 16 8 (leAt c.params 10 2) (wrWide evtBaseLoR 64 (leAt c.params 0 8) (wrWide evtClassLoR 64 (leAt c.params 16 8) u))))) := by
  rw [actEvtSubscribe, hbad, if_neg Bool.false_ne_true]

/-- Settles O16: each action, past the conditions that its hypotheses exclude. -/
theorem deviceAndEventCommandsComplete : Obligations.DeviceAndEventCommandsComplete := by
  refine ⟨fun c s u e h => next_command h rfl, fun c s u e h => next_command h rfl, fun c s u e h hlink hhold => next_command h ?_,
    fun c s u e h hchain haction => next_command h ?_, fun c s u e h => next_command h rfl, fun c s u e h hbad hsize => next_command h ?_,
    fun c s u e h hbad hsize => next_command h ?_, fun c s u e h hpos hmax hrsvd hmram hseq => next_command h ?_⟩
  · simp only [actDevOff, hlink, hhold, Bool.false_eq_true, if_false]
  · have hfree : ¬ ((rdB u chainStateR 1 && !rdB u chainStateR 0) || actionPending u) = true := by
      rcases hchain with h1 | h0 <;> simp [*]
    rw [actDevTimeSet, if_neg hfree]
    rfl
  · rw [actEvtSubscribe_good hbad, if_neg hsize]
  · rw [actEvtSubscribe_good hbad, if_pos hsize, hsize]
  · have hcount : ¬ (leAt c.params 4 2 = 0 ∨ 2047 < leAt c.params 4 2 ∨ leAt c.params 6 2 ≠ 0) := by omega
    simp only [actEvtReadLog, if_neg hcount, hmram, hseq, Bool.not_true, Bool.false_eq_true, if_false]

/-! ### The STORE commands (R365, R366) -/

/-- A calibration record that passes its check is returned, and nothing is reported. -/
theorem calRead_valid {l band : Nat} {u : State} (hm : mramReady u = true) (h : calValid l (calRecord l band) = true) :
    calRead l band u = (some (calRecord l band), u) := by
  simp only [calRead, hm, h, Bool.not_true, Bool.false_eq_true, if_false, if_true]

theorem calRead_invalid {l band : Nat} {u : State} (hm : mramReady u = true) (h : ¬ calValid l (calRecord l band) = true) :
    calRead l band u = (none, (calRead l band u).2) := by
  simp only [calRead, hm, h, Bool.not_true, Bool.false_eq_true, if_false]

/-- Settles O17: each action, past the conditions that its hypotheses exclude. -/
theorem storeCommandsComplete : Obligations.StoreCommandsComplete := by
  refine ⟨fun c s u e h hpos hmax hmram => next_command h ?_, fun c s u e i h hname hi hmram => next_command h ?_,
    fun c s u e i h hone hname hi hmram hhold => next_command h ?_, fun c s u e h hall hzero hmram hhold => next_command h ?_,
    fun c s u e h hpair hlink hband hrsvd hmram => next_command h ?_⟩
  · have hmax' : (contListMax c == 0 || decide (2048 < contListMax c)) = false := by simp; omega
    simp only [actContList, hmax', hmram, firstBad, Bool.not_true, Bool.false_eq_true, if_false]
  · simp only [actContRead, hname, hi, hmram, Bool.not_true, Bool.false_eq_true, if_false]
  · have hone' : (leAt c.params 0 1 == 2) = false := beq_eq_false_iff_ne.mpr hone
    simp only [actContDelete, hone', hname, hi, hmram, hhold, Option.isNone_some, Bool.not_true, Bool.and_false, Bool.false_eq_true,
      if_false]
  · have hall' : (leAt c.params 0 1 == 2) = true := beq_iff_eq.mpr hall
    simp only [actContDelete, hall', hzero, hmram, hhold, Bool.not_true, Bool.false_and, Bool.false_eq_true, if_false, if_true]
  · have hlink' : (linkOfPair u (leAt c.params 0 2)).isNone = false := by rw [Option.isNone_eq_false_iff]; exact hlink
    have hranges : firstBad [((511 < leAt c.params 0 2 || 3 < leAt c.params 2 1 : Bool), stRange), (!mramReady u, stNotReady)] = none :=
      firstBad_none (by simp [hmram]; omega)
    have hunit : ¬ (leAt c.params 0 2 < 512 ∧ (linkOfPair u (leAt c.params 0 2)).isNone = true) := by simp [hlink']
    simp only [actCalRecordRead, hrsvd, ne_eq, not_true_eq_false, if_false, if_neg hunit, hranges]
    by_cases hvalid : calValid (leAt c.params 0 2) (calRecord (leAt c.params 0 2) (leAt c.params 2 1)) = true
    · rw [if_pos hvalid, calRead_valid hmram hvalid]
      rfl
    · rw [if_neg hvalid, calRead_invalid hmram hvalid]
      rfl

end Sys2Proof.Proofs
end

section
/-! The commands that set how a link is configured, and those that move it (R144, R336, R349 to R353). -/
namespace Sys2Proof.Proofs
open Sys2Proof Sys2Proof.Machine Sys2Proof.Laws

/-! ### Numbers in byte strings -/

theorem leNat_lt (b : List Byte) : leNat b < 2 ^ (8 * b.length) := by
  induction b with
  | nil => decide
  | cons x t ih =>
    have hx := x.isLt
    have hpow : 2 ^ (8 * (t.length + 1)) = 256 * 2 ^ (8 * t.length) := by rw [Nat.mul_add, Nat.pow_add, Nat.mul_comm]
    rw [leNat, List.length_cons, hpow]
    omega

/-- A field of `n` bytes is below 256 to the `n`. -/
theorem leAt_lt (b : List Byte) (o n : Nat) : leAt b o n < 2 ^ (8 * n) :=
  Nat.lt_of_lt_of_le (leNat_lt _) (Nat.pow_le_pow_right (by decide) (Nat.mul_le_mul_left 8 (List.length_take_le ..)))

/-- Eight bits hold a byte of a string. -/
theorem toNat_byteAt (b : List Byte) (o : Nat) : (BitVec.ofNat 8 (leAt b o 1)).toNat = leAt b o 1 := by
  rw [BitVec.toNat_ofNat]; exact Nat.mod_eq_of_lt (leAt_lt b o 1)

/-! ### An entry is applied (R335, R349) -/

theorem each_fixes {γ : Type} (g : State → γ) {l : List Nat} {f : Nat → State → State} {s : State} (h : ∀ s, ∀ n ∈ l, g (f n s) = g s) :
    g (each l f s) = g s := foldl_fixes g l s h

theorem linkOf_setMonType (m ty : Nat) (mask : BitVec 8) (s : State) (j : Nat) : linkOf (setMonType m ty mask s) j = linkOf s j := by
  unfold setMonType
  refine each_fixes (fun s => linkOf s j) fun s k _ => ?_
  simp only [linkOf_wr]
  split
  · exact each_fixes (fun s => linkOf s j) fun s i _ => by simp only [linkOf_wr]
  · rfl

theorem linkOf_applyPolicy_same (m : Nat) (b : List Byte) (s : State) : linkOf (applyPolicy m b s) m =
    { linkOf s m with pol := entryPolicy b, gen := leAt b 0xF8 4, override := false, configPending := configDiffers (linkOf s m) b } := by
  rw [applyPolicy, applyTimers, linkOf_wr, linkOf_modLink_same]

/-- A link that took its configuration from an entry does not differ from it. -/
theorem configDiffers_same {x : LinkSt} {b : List Byte} (hmode : x.mode = leAt b 0 1) (hmask : x.mask = BitVec.ofNat 8 (leAt b 1 1))
    (hpcs : x.pcs = leAt b 2 1) : configDiffers x b = false := by
  rw [configDiffers, hmode, hmask, hpcs, toNat_byteAt]
  simp only [bne_self_eq_false, Bool.or_self]

theorem linkOf_configure {m : Nat} {c : Cmd} {b : List Byte} {u : State} (h : leAt b 0 1 ≠ 0) : linkOf (configure m c b u) m =
    { mode := leAt b 0 1, mask := BitVec.ofNat 8 (leAt b 1 1), pcs := leAt b 2 1, pol := entryPolicy b, gen := leAt b 0xF8 4,
      loopback := (linkOf u m).loopback } := by
  rw [configure, if_neg h, linkOf_applyPolicy_same, linkOf_setMonType, linkOf_putLink_same, configDiffers_same rfl rfl rfl]

theorem linkOf_configure_none {m : Nat} {c : Cmd} {b : List Byte} {u : State} (h : leAt b 0 1 = 0) :
    linkOf (configure m c b u) m = { loopback := (linkOf u m).loopback } := by
  rw [configure, if_pos h, linkOf_putLink_same]

/-- A configuration that is good and not refused is applied. -/
theorem actLinkConfigure_applies {c : Cmd} {b : List Byte} {e : Nat} {u : State} (hzero : zeroFrom c.params 1 = true)
    (hswap : leAt c.params 0 1 ≤ 1) (hldt : ldtEnabled u = true) (hcrc : ldtCrcOk b = true) (hranges : entryRanges b = true)
    (hmode : modeOk (leAt b 0 1) (leAt b 2 1) = true)
    (hset : (leAt b 0 1 == 0 || pairSet (leAt b 0 1) (c.idx.toNat % 8) == some (BitVec.ofNat 8 (leAt b 1 1))) = true)
    (hok : configRefused u c.idx.toNat c b = false) :
    actLinkConfigure c (some b) e u = complete e stOk (if leAt b 0 1 = 0 then leBytes 4 (leAt b 0xF8 4) ++ zeros 1
      else refreshResult (configure c.idx.toNat c b u) c.idx.toNat) (configure c.idx.toNat c b u) := by
  have hread : entryRead (some b) = some b := if_pos hcrc
  have hparams : (!zeroFrom c.params 1 || decide (1 < leAt c.params 0 1)) = false := by simp [hzero, hswap]
  simp only [actLinkConfigure, hparams, hldt, hread, hranges, hmode, hset, hok, Bool.not_true, Bool.or_self, Bool.false_eq_true, if_false]

theorem actLinkRefresh_applies {c : Cmd} {b : List Byte} {e : Nat} {u : State} (hldt : ldtEnabled u = true) (hcrc : ldtCrcOk b = true)
    (hranges : entryRanges b = true) : actLinkRefresh c (some b) e u = complete e stOk
      (refreshResult (applyPolicy c.idx.toNat b (ldtStore c.idx.toNat b (ldtInvalidate c.idx.toNat u))) c.idx.toNat)
      (applyPolicy c.idx.toNat b (ldtStore c.idx.toNat b (ldtInvalidate c.idx.toNat u))) := by
  have hread : entryRead (some b) = some b := if_pos hcrc
  simp only [actLinkRefresh, hldt, hread, hranges, Bool.not_true, Bool.false_eq_true, if_false]

/-- The bit that LINK_QUIET_POLICY writes. -/
theorem quietFlag (f : BitVec 8) {n : Nat} (h : n ≤ 1) : b2n (((f &&& ~~~0x20) ||| BitVec.ofNat 8 (32 * n)).getLsbD 5) = n := by
  obtain rfl | rfl : n = 0 ∨ n = 1 := by omega
  · simp [b2n]
  · simp [b2n]

/-- Settles O19: each action, past the conditions that its hypotheses exclude. -/
theorem linkSettingsComplete : Obligations.LinkSettingsComplete := by
  refine ⟨fun c b s u e h hzero hswap hldt hcrc hranges hmode hon hset hok => ?_, fun c b s u e h hzero hswap hldt hcrc hranges hmode hoff hok => ?_,
    fun c b s u e h hldt hcrc hranges => ?_, fun c s u e h hlen => next_command h (if_pos hlen),
    fun c s u v e p h hlen hflag hrefresh hrsvd hp hv => next_command h ?_, fun c s u e h hlen => next_command h (if_pos hlen),
    fun c s u v e m p h hlen hbad hm hp hv => next_command h ?_, fun c s u e h hpref hext hrsvd hfree => next_command h ?_⟩
  · refine ⟨configure c.idx.toNat c b u, next_command h ?_, linkOf_configure hon⟩
    rw [actLinkConfigure_applies hzero hswap hldt hcrc hranges hmode (by rw [hset]; simp) hok, if_neg hon, refreshResult,
      linkOf_configure hon]
    rfl
  · refine ⟨configure c.idx.toNat c b u, next_command h ?_, linkOf_configure_none hoff⟩
    rw [actLinkConfigure_applies hzero hswap hldt hcrc hranges (by rw [hoff]; exact hmode) (by rw [hoff]; rfl) hok, if_pos hoff]
  · have hlink : linkOf (ldtStore c.idx.toNat b (ldtInvalidate c.idx.toNat u)) c.idx.toNat = linkOf u c.idx.toNat := rfl
    refine ⟨applyPolicy c.idx.toNat b (ldtStore c.idx.toNat b (ldtInvalidate c.idx.toNat u)), next_command h ?_, ?_⟩
    · rw [actLinkRefresh_applies hldt hcrc hranges, refreshResult, linkOf_applyPolicy_same, hlink]
    · rw [linkOf_applyPolicy_same, hlink]
  · have hgood : ¬ (1 < leAt c.params 0 1 ∨ 127 < leAt c.params 1 1 ∨ leAt c.params 2 2 ≠ 0) := by omega
    have hresult : quietPolicyResult v c.idx.toNat =
        leBytes 1 (leAt c.params 0 1) ++ leBytes 1 (orDefault (leAt c.params 1 1) 8) ++ zeros 2 := by
      rw [hv, quietPolicyResult, linkOf_modLink_same]
      dsimp only
      rw [quietFlag _ hflag]
    rw [actLinkQuietPolicy, if_neg hlen, if_neg hgood, ← hresult, hv, hp]
    rfl
  · rw [actTakePolicy, if_neg hlen, hbad, if_neg Bool.false_ne_true, hv, hp, hm]
    rfl
  · have hfields : (2 < leAt c.params 0 1 || decide (1 < leAt c.params 1 1) || leAt c.params 2 2 != 0 : Bool) = false := by
      simp [hrsvd, hpref, hext]
    have hrole : (!(fdxOut u (c.idx.toNat / 8)).isEmpty && leAt c.params 0 1 != 0 &&
        (portOf u (c.idx.toNat / 8)).fixedRole.any (fun r => r != (leAt c.params 0 1 == 2))) = false := by
      rcases hfree with hnone | hzero | hsame
      · rw [hnone]; rfl
      · rw [hzero, bne_self_eq_false, Bool.and_false, Bool.false_and]
      · cases hrole : (portOf u (c.idx.toNat / 8)).fixedRole with
        | none => rw [Option.any_none, Bool.and_false]
        | some r =>
          rw [hrole, Option.all_some] at hsame
          rw [Option.any_some, eq_of_beq hsame, bne_self_eq_false, Bool.and_false]
    rw [actLinkForceRole, firstBad_none]
    simp only [List.mem_cons, List.not_mem_nil, or_false]
    rintro x (rfl | rfl)
    · exact hfields
    · exact hrole

/-! ### LINK_UP, LINK_DOWN and LINK_TRAIN_STEP (R144, R350, R353) -/

theorem linkOf_keepRunning (e aux : Nat) (s : State) (j : Nat) : linkOf (keepRunning e aux s) j = linkOf s j := rfl

theorem linkUp_down {m : Nat} {s : State} (h : (linkOf s m).state = .down) :
    linkUp m s = enterListen m false (modLink m (fun x => { x with graded := false }) (modLink m (fun x => { x with relinks := 0 }) s)) := by
  simp only [linkUp, linkOf_modLink_same, h]

theorem linkUp_holdoff {m : Nat} {s : State} (h : (linkOf s m).state = .holdoff) :
    linkUp m s = enterListen m false (modLink m (fun x => { x with relinks := 0 }) s) := by
  simp only [linkUp, linkOf_modLink_same, h]

/-- A link that is coming up goes on. -/
theorem linkUp_coming {m : Nat} {s : State}
    (h : (linkOf s m).state = .listen ∨ (linkOf s m).state = .negotiate ∨ (linkOf s m).state = .train) :
    linkUp m s = modLink m (fun x => { x with relinks := 0 }) s := by
  rcases h with h | h | h <;> simp only [linkUp, linkOf_modLink_same, h]

/-- LINK_UP of a link that is not in UP, with none pending. -/
theorem actLinkUp_waits {c : Cmd} {e : Nat} {u : State} (hzero : zeroFrom c.params 1 = true) (hswap : leAt c.params 0 1 ≤ 1)
    (hcable : cableBusy u (c.idx.toNat / 8) = false) (hsyn : synState u (c.idx.toNat / 8) ≠ 4)
    (hrun : running u opcLinkUp 4 c.idx.toNat = []) (hstate : (linkOf u c.idx.toNat).state ≠ .leaving) :
    actLinkUp c e u = if (linkOf u c.idx.toNat).state = .up then complete e stOk (upResult u c.idx.toNat 0) u
      else linkUp c.idx.toNat (keepRunning e c.idx.toNat
        (if leAt c.params 0 1 = 1 then modLink c.idx.toNat (fun x => { x with noCont := true }) u else u)) := by
  rw [actLinkUp, firstBad_none]
  simp [hzero, hswap, hcable, hsyn, hrun, hstate]

theorem linkDown_leaves {m : Nat} {s : State} (h : (linkOf s m).state = .train ∨ (linkOf s m).state = .up) :
    linkDown m s = leaveByCommand m s := by
  rcases h with h | h <;> simp only [linkDown, h]

theorem linkDown_leaving {m : Nat} {s : State} (h : (linkOf s m).state = .leaving) :
    linkDown m s = modLink m (fun x => { x with relisten := false }) s := by
  simp only [linkDown, h]

theorem linkDown_listening {m : Nat} {s : State}
    (h : (linkOf s m).state = .listen ∨ (linkOf s m).state = .negotiate ∨ (linkOf s m).state = .holdoff) :
    linkDown m s = enterDown m (completeAll opcLinkUp 4 m stAborted (upResult s m 1) s) := by
  rcases h with h | h | h <;> simp only [linkDown, h]

/-- LINK_DOWN of a link that is not DOWN waits. -/
theorem actLinkDown_waits {c : Cmd} {e : Nat} {u : State} (h : (linkOf u c.idx.toNat).state ≠ .down) :
    actLinkDown c e u = linkDown c.idx.toNat (keepRunning e c.idx.toNat u) := if_neg h

/-- LINK_TRAIN_STEP whose action the link's state allows. -/
theorem actLinkTrainStep_allowed {c : Cmd} {e : Nat} {u : State} (hzero : zeroFrom c.params 1 = true) (hmax : leAt c.params 0 1 ≤ 2)
    (harm : leAt c.params 0 1 = 0 → (linkOf u c.idx.toNat).state = .down ∨ (linkOf u c.idx.toNat).state = .listen)
    (hgo : leAt c.params 0 1 = 1 → (linkOf u c.idx.toNat).heldAt = true) :
    actLinkTrainStep c e u =
      if leAt c.params 0 1 = 0 then complete e stOk (stepResult u c.idx.toNat) (modLink c.idx.toNat (fun x => { x with hold := true }) u)
      else if leAt c.params 0 1 = 1 then phaseNext c.idx.toNat (keepRunning e c.idx.toNat u)
      else complete e stOk (stepResult (modLink c.idx.toNat (fun x => { x with hold := false, heldAt := false }) u) c.idx.toNat)
        (if (linkOf u c.idx.toNat).heldAt then phaseNext c.idx.toNat (modLink c.idx.toNat (fun x => { x with hold := false, heldAt := false }) u)
          else modLink c.idx.toNat (fun x => { x with hold := false, heldAt := false }) u) := by
  have harm' : (leAt c.params 0 1 == 0 && (linkOf u c.idx.toNat).state != .down && (linkOf u c.idx.toNat).state != .listen) = false := by
    by_cases h0 : leAt c.params 0 1 = 0
    · rcases harm h0 with h | h <;> simp [h]
    · simp [h0]
  have hgo' : (leAt c.params 0 1 == 1 && !(linkOf u c.idx.toNat).heldAt) = false := by
    by_cases h1 : leAt c.params 0 1 = 1
    · simp [hgo h1]
    · simp [h1]
  rw [actLinkTrainStep, firstBad_none]
  simp [hzero, hmax, harm', hgo']

/-- Settles O20: each command's action, then what the link's state makes of it. -/
theorem linkMovesComplete : Obligations.LinkMovesComplete := by
  refine ⟨fun c s u w e m h hm hzero hswap hcable hsyn hrun hw => ?_, fun c s u w e m h hm hw => ?_, fun c s u e h => next_command h rfl,
    fun c s u e m h hm hzero => ?_⟩
  · subst hm
    have hkept : (linkOf (keepRunning e c.idx.toNat
        (if leAt c.params 0 1 = 1 then modLink c.idx.toNat (fun x => { x with noCont := true }) u else u)) c.idx.toNat).state =
        (linkOf u c.idx.toNat).state := by
      rw [linkOf_keepRunning]
      split
      · rw [linkOf_modLink_same]
      · rfl
    have hwaits := fun hstate => actLinkUp_waits (e := e) hzero hswap hcable hsyn hrun hstate
    refine ⟨fun hs => next_command h ?_, fun hs => next_command h ?_, fun hs => next_command h ?_, fun hs => next_command h ?_⟩
    · rw [hwaits (by simp [hs]), if_neg (by simp [hs]), linkUp_down (hkept.trans hs), hw]
    · rw [hwaits (by simp [hs]), if_neg (by simp [hs]), linkUp_holdoff (hkept.trans hs), hw]
    · rw [hwaits (by rcases hs with hs | hs | hs <;> simp [hs]), if_neg (by rcases hs with hs | hs | hs <;> simp [hs]),
        linkUp_coming (by rwa [hkept]), hw]
    · rw [hwaits (by simp [hs]), if_pos hs]
  · subst hm hw
    have hkept := congrArg LinkSt.state (linkOf_keepRunning e c.idx.toNat u c.idx.toNat)
    refine ⟨fun hs => next_command h ?_, fun hs => next_command h ?_, fun hs => next_command h ?_, fun hs => next_command h ?_⟩
    · rw [actLinkDown_waits (by rcases hs with hs | hs <;> simp [hs]), linkDown_leaves (by rwa [hkept])]
    · rw [actLinkDown_waits (by simp [hs]), linkDown_leaving (hkept.trans hs)]
    · rw [actLinkDown_waits (by rcases hs with hs | hs | hs <;> simp [hs]), linkDown_listening (by rwa [hkept])]
    · exact if_pos hs
  · subst hm
    refine ⟨fun ha hs => next_command h ?_, fun ha hs => next_command h ?_, fun ha hs => next_command h ?_, fun ha hs => next_command h ?_⟩
    · rw [actLinkTrainStep_allowed hzero (by omega) (fun _ => hs) (by omega), if_pos ha, stepResult]
    · rw [actLinkTrainStep_allowed hzero (by omega) (by omega) (fun _ => hs), if_neg (by omega), if_pos ha]
    · rw [actLinkTrainStep_allowed hzero (by omega) (by omega) (by omega), if_neg (by omega), if_neg (by omega), hs,
        if_neg Bool.false_ne_true, stepResult, linkOf_modLink_same]
    · rw [actLinkTrainStep_allowed hzero (by omega) (by omega) (by omega), if_neg (by omega), if_neg (by omega), hs, if_pos rfl, stepResult,
        linkOf_modLink_same]

end Sys2Proof.Proofs
end

section
/-! The TAKE commands (R108, R112, R115, R123, R354 to R356). -/
namespace Sys2Proof.Proofs
open Sys2Proof Sys2Proof.Machine Sys2Proof.Laws

/-! ### TAKE_WRITE (R356) -/

/-- A slot that the command stores into: the image without option, the emptying with option 1, the verification with option 2. -/
theorem takeStore_image {c : Cmd} {e k : Nat} {s : State} (h : leAt c.params 1 1 = 0) :
    takeStore c e k s = complete e stOk (leBytes 1 k ++ leBytes 1 (slotCode s c.idx.toNat k) ++ zeros 2)
      (takeWords 0x22 0 c.idx.toNat k 4096 (writeTake c.idx.toNat k (c.params.drop 8) s)) := by
  simp only [takeStore, h, Nat.zero_testBit, Bool.false_eq_true, if_false]

theorem takeStore_empties {c : Cmd} {e k : Nat} {s : State} (h : leAt c.params 1 1 = 1) :
    takeStore c e k s = complete e stOk (leBytes 1 k ++ leBytes 1 (slotCode s c.idx.toNat k) ++ zeros 2) (clearSlot c.idx.toNat k s) := by
  rw [takeStore, h]
  exact if_pos (by decide)

theorem takeStore_verifies {c : Cmd} {e k : Nat} {s : State} (h : leAt c.params 1 1 = 2) :
    takeStore c e k s = keepRunning e k (askVerify c.idx.toNat k 1 e (slotCode s c.idx.toNat k)
      (takeWords 0x22 0 c.idx.toNat k 4096 (writeTake c.idx.toNat k (c.params.drop 8) s))) := by
  have h0 : Nat.testBit 2 0 = false := by decide
  have h1 : Nat.testBit 2 1 = true := by decide
  simp only [takeStore, h, h0, h1, Bool.false_eq_true, if_false, if_true]

/-- TAKE_WRITE into a named slot that is neither SCHEDULED nor ACTIVE and not with the loader. -/
theorem actTakeWrite_named {c : Cmd} {e : Nat} {u w : State} (hk : leAt c.params 0 1 ≤ 7) (hrsvd : leAt c.params 2 6 = 0)
    (hopt : leAt c.params 1 1 ≤ 2) (hload : loaderHas u c.idx.toNat (leAt c.params 0 1) = false)
    (hw : w = if stepSlot u c.idx.toNat (leAt c.params 0 1) (cmdLink u c) then stepRelease c.idx.toNat (leAt c.params 0 1) u else u)
    (hsched : slotCode w c.idx.toNat (leAt c.params 0 1) ≠ slScheduled) (hact : slotCode w c.idx.toNat (leAt c.params 0 1) ≠ slActive) :
    actTakeWrite c e u = takeStore c e (leAt c.params 0 1) w := by
  have hgood : ¬ ((7 < leAt c.params 0 1 ∧ leAt c.params 0 1 ≠ 0xFF) ∨ 3 ≤ leAt c.params 1 1 ∨ leAt c.params 2 6 ≠ 0 ∨
      (leAt c.params 1 1 = 1 ∧ leAt c.params 0 1 = 0xFF)) := by omega
  rw [actTakeWrite, if_neg hgood, if_neg (by omega), ← hw]
  dsimp only
  rw [firstBad_none (by simp [hload, hsched, hact])]

/-- TAKE_WRITE into any slot. -/
theorem actTakeWrite_any {c : Cmd} {e k : Nat} {u : State} (hany : leAt c.params 0 1 = 0xFF) (hrsvd : leAt c.params 2 6 = 0)
    (hopt : leAt c.params 1 1 = 0 ∨ leAt c.params 1 1 = 2) (hslot : anySlot u c.idx.toNat = some k)
    (hload : loaderHas u c.idx.toNat k = false) : actTakeWrite c e u = takeStore c e k u := by
  have hgood : ¬ ((7 < leAt c.params 0 1 ∧ leAt c.params 0 1 ≠ 0xFF) ∨ 3 ≤ leAt c.params 1 1 ∨ leAt c.params 2 6 ≠ 0 ∨
      (leAt c.params 1 1 = 1 ∧ leAt c.params 0 1 = 0xFF)) := by omega
  simp only [actTakeWrite, if_neg hgood, if_pos hany, hslot, hload, Bool.false_eq_true, if_false]

/-! ### TAKE_CUT (R112, R115, R123) -/

/-- The superframe two on is the first that a local cut can have. -/
theorem sfDiff_add (x c : Word) : sfDiff (c + x) c = x.toNat := by rw [sfDiff, BitVec.add_comm, BitVec.add_sub_cancel]

theorem sfFuture_add {x c : Word} (hpos : x ≠ 0) (hlt : x.toNat < 2 ^ 31) : sfFuture (c + x) c = true := by
  have hne : (c + x != c) = true := bne_iff_ne.mpr fun h => hpos (by simpa using h)
  have hdiff : c + x - c = x := by rw [BitVec.add_comm, BitVec.add_sub_cancel]
  rw [sfFuture, hne, hdiff, decide_eq_true hlt]
  rfl

/-- The next odd superframe is one or two on. -/
theorem nextOdd_add (c : Word) : ∃ x : Word, nextOdd c = c + x ∧ 0 < x.toNat ∧ x.toNat ≤ 2 := by
  by_cases h : bitGet c 0 = true
  · exact ⟨2, if_pos h, by decide, by decide⟩
  · exact ⟨1, if_neg h, by decide, by decide⟩

theorem sfFuture_joined (c : Word) {lead : Nat} (h : lead ≤ 255) : sfFuture (nextOdd c + BitVec.ofNat 32 lead) c = true := by
  obtain ⟨x, hx, hpos, hle⟩ := nextOdd_add c
  have hnat : (x + BitVec.ofNat 32 lead).toNat = x.toNat + lead := by
    rw [BitVec.toNat_add, BitVec.toNat_ofNat]; omega
  rw [hx, BitVec.add_assoc]
  refine sfFuture_add (fun h0 => ?_) (by omega)
  rw [h0] at hnat
  exact absurd hnat (by simp; omega)

theorem isCompat_of_isFdx {m : Nat} (h : isFdx m = true) : isCompat m = false := by
  simp only [isFdx, Bool.or_eq_true, beq_iff_eq] at h
  rcases h with ((rfl | rfl) | rfl) | rfl <;> rfl

theorem isFdx_of_isCompat {m : Nat} (h : isCompat m = true) : isFdx m = false := by
  simp only [isCompat, Bool.or_eq_true, beq_iff_eq] at h
  rcases h with (rfl | rfl) | rfl <;> rfl

/-- TAKE_CUT that no condition refuses: where the slot's options are allowed and the slot and its link are ready. -/
theorem actTakeCut_sets {c : Cmd} {e : Nat} {u : State} (hk : leAt c.params 0 1 ≤ 7) (hopt : leAt c.params 1 1 < 8)
    (hrsvd : leAt c.params 2 2 = 0) (hup : (linkOf u (cmdLink u c)).state = .up ∨ (linkOf u (cmdLink u c)).heldAt = true)
    (hslot : slotCode u c.idx.toNat (leAt c.params 0 1) = slVerified) (hcut : (pairOf u c.idx.toNat).cut = none)
    (hform : (((leAt c.params 1 1).testBit 2 && ((leAt c.params 1 1).testBit 0 || (leAt c.params 1 1).testBit 1)) ||
      (isCompat (modeOf u (cmdLink u c)) && ((leAt c.params 1 1).testBit 1 || (leAt c.params 1 1).testBit 2))) = false)
    (hallowed : ((isCompat (modeOf u (cmdLink u c)) && breaksCompat u c.idx.toNat (leAt c.params 0 1)) ||
      (!isCompat (modeOf u (cmdLink u c)) && !(leAt c.params 1 1).testBit 2 &&
        ((leAt c.params 1 1).testBit 1 || txDiffers u c.idx.toNat (leAt c.params 0 1)) && linkMismatch u (cmdLink u c))) = false) :
    actTakeCut c e u = cutSet c.idx.toNat (leAt c.params 0 1) (cmdLink u c) ((leAt c.params 1 1).testBit 0) ((leAt c.params 1 1).testBit 1)
      ((leAt c.params 1 1).testBit 2) (BitVec.ofNat 32 (leAt c.params 4 4)) e u := by
  have hgood : ¬ (16 ≤ leAt c.params 1 1 ∨ leAt c.params 2 2 ≠ 0) := by omega
  have hcancel : (leAt c.params 1 1).testBit 3 = false := Nat.testBit_lt_two_pow (by omega)
  have hform' : (decide (7 < leAt c.params 0 1) ||
      ((leAt c.params 1 1).testBit 2 && ((leAt c.params 1 1).testBit 0 || (leAt c.params 1 1).testBit 1)) ||
      (isCompat (modeOf u (cmdLink u c)) && ((leAt c.params 1 1).testBit 1 || (leAt c.params 1 1).testBit 2))) = false := by
    rw [decide_eq_false (by omega), Bool.false_or, hform]
  have hready : (!((linkOf u (cmdLink u c)).state == .up || (linkOf u (cmdLink u c)).heldAt) ||
      slotCode u c.idx.toNat (leAt c.params 0 1) == slEmpty) = false := by
    rw [hslot]
    rcases hup with h | h <;> simp [h, slVerified, slEmpty]
  have hverified : (slotCode u c.idx.toNat (leAt c.params 0 1) != slVerified) = false := by rw [hslot, bne_self_eq_false]
  have hfree : (pairOf u c.idx.toNat).cut.isSome = false := by rw [hcut]; rfl
  rw [actTakeCut, if_neg hgood, hcancel, if_neg Bool.false_ne_true, firstBad_none]
  simp only [List.mem_cons, List.not_mem_nil, or_false]
  rintro x (rfl | rfl | rfl | rfl | rfl)
  · exact hform'
  · exact hready
  · exact hfree
  · exact hverified
  · exact hallowed

/-- Where a local cut is allowed none is coordinated, and nothing refuses it. -/
theorem cutsLocal_allows {s : State} {l k m : Nat} (h : cutsLocal s l k m = true) :
    ((isCompat (modeOf s m) && breaksCompat s l k) || (!isCompat (modeOf s m) && txDiffers s l k && linkMismatch s m)) = false ∧
      (isFdx (modeOf s m) && txDiffers s l k) = false := by
  simp only [cutsLocal, Bool.or_eq_true, Bool.and_eq_true, Bool.not_eq_true'] at h
  rcases h with ⟨hfdx, htx⟩ | ⟨hcompat, hbreaks⟩
  · simp [htx, isCompat_of_isFdx hfdx]
  · simp [hcompat, hbreaks, isFdx_of_isCompat hcompat]

/-- A local cut at the superframe two on or at the one it names. -/
theorem cutSet_local {l k m e : Nat} {at' : Bool} {want : Word} {s : State} (hlocal : cutsLocal s l k m = true)
    (hahead : at' = true → sfFuture want (curSf s l) = true ∧ 2 ≤ sfDiff want (curSf s l)) :
    cutSet l k m at' false false want e s =
      setCut l { slot := k, sf := if at' then want else curSf s l + 2, etag := some e } (keepRunning e k s) := by
  have hcoord := (cutsLocal_allows hlocal).2
  have htwo : sfDiff (curSf s l + 2) (curSf s l) = 2 := sfDiff_add 2 _
  have hin : (sfFuture (if at' then want else curSf s l + 2) (curSf s l) &&
      decide (sfDiff (curSf s l + 2) (curSf s l) ≤ sfDiff (if at' then want else curSf s l + 2) (curSf s l))) = true := by
    cases at' with
    | true => simp only [if_true, hahead rfl, htwo, decide_true, Bool.and_self]
    | false => simp [sfFuture_add]
  simp only [cutSet, Bool.false_or, hcoord, Bool.false_eq_true, if_false, hin, Bool.not_true]

/-- A joined cut is coordinated at the first odd superframe after the lead. -/
theorem cutSet_joined {l k m e : Nat} {want : Word} {s : State} (hfdx : isFdx (modeOf s m) = true) (hlead : (linkOf s m).pol.txLead ≤ 255) :
    cutSet l k m false true false want e s =
      coordCut l k 0 (nextOdd (curSf s l) + BitVec.ofNat 32 (linkOf s m).pol.txLead) true (some e) (keepRunning e k s) := by
  simp [cutSet, hfdx, sfFuture_joined _ hlead]

/-- Settles O21: each action, past the conditions that its hypotheses exclude; of TAKE_WRITE and TAKE_CUT by option. -/
theorem takeCommandsComplete : Obligations.TakeCommandsComplete := by
  refine ⟨fun c s u e h => next_command h rfl, fun c s u e h hk hlen hslot => next_command h ?_,
    fun c s u w v e l k prev h hl hk hk7 hrsvd hload hw hprev hsched hact hv => ?_,
    fun c s u v e l k h hl hany hrsvd hslot hload hv => ?_, fun c s u e h hk hzero hempty hsched hact => next_command h ?_,
    fun c s u e k h hopt hrsvd hcut => next_command h ?_, fun c s u e l k want h hl hk hk7 hwant hrsvd hup hslot hcut => ?_,
    fun c s u e h hflag hzero hup hgrader hrun => next_command h ?_⟩
  · rw [actTakeRead, firstBad_none (by simp [hslot]; omega)]
  · subst hl hk hprev hv
    have hnamed := fun hopt => actTakeWrite_named (e := e) hk7 hrsvd hopt hload hw hsched hact
    refine ⟨fun ho => next_command h ?_, fun ho => next_command h ?_, fun ho => next_command h ?_⟩
    · rw [hnamed (by omega), takeStore_image ho]
    · rw [hnamed (by omega), takeStore_empties ho]
    · rw [hnamed (by omega), takeStore_verifies ho]
  · subst hl hv
    refine ⟨fun ho => next_command h ?_, fun ho => next_command h ?_⟩
    · rw [actTakeWrite_any hany hrsvd (.inl ho) hslot hload, takeStore_image ho]
    · rw [actTakeWrite_any hany hrsvd (.inr ho) hslot hload, takeStore_verifies ho]
  · rw [actTakeVerify, firstBad_none (by simp [hk, hzero, hempty, hsched, hact])]
  · have hgood : ¬ (16 ≤ leAt c.params 1 1 ∨ leAt c.params 2 2 ≠ 0) := by omega
    rw [actTakeCut, if_neg hgood, hopt]
    exact (if_pos (by decide)).trans (by rw [cancelCut, hcut])
  · subst hl hk hwant
    have hsets := fun ho => actTakeCut_sets (e := e) hk7 ho hrsvd hup hslot hcut
    refine ⟨fun ho hlocal => next_command h ?_, fun ho hlocal hfut hfar => next_command h ?_, fun ho hfdx => next_command h ?_,
      fun ho hfdx hmis hlead => next_command h ?_⟩
    · obtain ⟨hallowed, -⟩ := cutsLocal_allows hlocal
      rw [hsets (by omega) (by simp [ho]) (by simpa [ho] using hallowed), ho]
      exact cutSet_local (at' := false) hlocal (fun h => absurd h Bool.false_ne_true)
    · obtain ⟨hallowed, -⟩ := cutsLocal_allows hlocal
      have h1 : Nat.testBit 1 1 = false := by decide
      have h2 : Nat.testBit 1 2 = false := by decide
      rw [hsets (by omega) (by simp [ho, h1, h2]) (by simpa [ho, h1, h2] using hallowed), ho]
      exact cutSet_local (at' := true) hlocal (fun _ => ⟨hfut, hfar⟩)
    · rw [hsets (by omega) (by rw [ho, isCompat_of_isFdx hfdx]; rfl) (by rw [ho, isCompat_of_isFdx hfdx]; rfl), ho]
      rfl
    · rw [hsets (by omega) (by rw [ho, isCompat_of_isFdx hfdx]; rfl) (by rw [ho, isCompat_of_isFdx hfdx, hmis, Bool.and_false]; rfl), ho]
      exact cutSet_joined hfdx hlead
  · rw [actTakeGrade, firstBad_none (by simp [hflag, hzero, hup, hgrader, hrun])]

end Sys2Proof.Proofs
end

section
/-! The other diagnostic commands and the counter commands (R191, R207, R231, R344, R364, R406, R411). -/
namespace Sys2Proof.Proofs
open Sys2Proof Sys2Proof.Machine Sys2Proof.Laws

/-! ### LOOPBACK (R207) -/

/-- LOOPBACK of a port sets HOST loopback or ends it. -/
theorem actLoopback_port {c : Cmd} {e : Nat} {u : State} (hcls : c.cls = 3) (hzero : zeroFrom c.params 1 = true)
    (hk : leAt c.params 0 1 ≤ 1) :
    actLoopback c e u = complete e stOk [] (if leAt c.params 0 1 = 0
      then modPort c.idx.toNat (fun x => { x with hostLoop := leAt c.params 0 1 == 1 }) u
      else each (eight (8 * c.idx.toNat)) quietWake (modPort c.idx.toNat (fun x => { x with hostLoop := leAt c.params 0 1 == 1 }) u)) := by
  have h2 : leAt c.params 0 1 ≠ 2 := by omega
  have h3 : leAt c.params 0 1 ≠ 3 := by omega
  rw [actLoopback, firstBad_none (by simp [hcls, hzero, h2, h3]; omega)]
  simp [hcls, h3]

/-- LOOPBACK of a link that its state allows. -/
theorem actLoopback_link {c : Cmd} {e : Nat} {u v : State} (hcls : c.cls = 4) (hzero : zeroFrom c.params 1 = true)
    (hk : leAt c.params 0 1 = 0 ∨ leAt c.params 0 1 = 2 ∧ (linkOf u c.idx.toNat).state = .up ∨
      leAt c.params 0 1 = 3 ∧ (linkOf u c.idx.toNat).state = .down ∧ isFdx (linkOf u c.idx.toNat).mode = true)
    (hv : v = if leAt c.params 0 1 = 3 then each (linkPairs (modLink c.idx.toNat (fun x => { x with loopback := leAt c.params 0 1 }) u) c.idx.toNat)
        (fun l s => modPair l (fun p => { framingOff p with txOn := true, sf := portSf s (c.idx.toNat / 8) }) s)
        (modLink c.idx.toNat (fun x => { x with loopback := leAt c.params 0 1 }) u)
      else if (linkOf u c.idx.toNat).loopback = 3 ∧ (linkOf u c.idx.toNat).state = .down then
        each (linkPairs (modLink c.idx.toNat (fun x => { x with loopback := leAt c.params 0 1 }) u) c.idx.toNat)
          (fun l s => modPair l framingOff s) (modLink c.idx.toNat (fun x => { x with loopback := leAt c.params 0 1 }) u)
      else modLink c.idx.toNat (fun x => { x with loopback := leAt c.params 0 1 }) u) :
    actLoopback c e u = complete e stOk [] (if leAt c.params 0 1 = 0 then v else each (linkPairs v c.idx.toNat) quietWake v) := by
  have hport : (c.cls == 3) = false := by rw [hcls]; rfl
  have hform : (3 < leAt c.params 0 1 || (leAt c.params 0 1 == 1 && !(c.cls == 3)) || (2 ≤ leAt c.params 0 1 && c.cls == 3) ||
      !zeroFrom c.params 1 : Bool) = false := by rw [hport, hzero]; simp; omega
  have hstate : ((leAt c.params 0 1 == 2 && (linkOf u c.idx.toNat).state != .up) ||
      (leAt c.params 0 1 == 3 && ((linkOf u c.idx.toNat).state != .down || !isFdx (linkOf u c.idx.toNat).mode))) = false := by
    rcases hk with h | ⟨h, hup⟩ | ⟨h, hdown, hfdx⟩ <;> simp [*]
  subst hv
  rw [actLoopback, firstBad_none]
  · simp only [hport, Bool.not_false, Bool.true_and, Bool.and_eq_true, beq_iff_eq, Bool.false_eq_true, if_false]
  · simp only [List.mem_cons, List.not_mem_nil, or_false]
    rintro x (rfl | rfl)
    · exact hform
    · exact hstate

/-- Settles O23: each action, past the conditions that its hypotheses exclude. -/
theorem diagnosticAndCounterCommandsComplete : Obligations.DiagnosticAndCounterCommandsComplete := by
  refine ⟨fun c s u e h => next_command h rfl, fun c s u e h hzero hrx hgrid hscan hauto => next_command h ?_,
    fun c s u e h hcls hzero => ⟨fun hk => next_command h ?_, fun hk => next_command h ?_⟩,
    fun c s u v e h hcls hzero hv => ⟨fun hk => next_command h ?_, fun hk hup => next_command h ?_, fun hk hdown hfdx => ?_⟩,
    fun c s u e h => next_command h rfl, fun c s u e h hzero hgate => ⟨fun hk => next_command h ?_, fun hk hdone => next_command h ?_⟩,
    fun c s u e h => next_command h rfl, fun c s u e h hzero hk => next_command h ?_⟩
  · have hgrid' : (eyeGrid c.params).isNone = false := by rw [Option.isNone_eq_false_iff]; exact hgrid
    rw [actEyeScan, firstBad_none (by simp [hzero, hrx, hgrid', hscan, hauto])]
  · rw [actLoopback_port hcls hzero (by omega), if_pos hk, hk]
    rfl
  · rw [actLoopback_port hcls hzero (by omega), if_neg (by omega), hk]
    rfl
  · rw [actLoopback_link hcls hzero (.inl hk) rfl, if_pos hk, if_neg (by omega), hv]
  · have hstate : ¬ ((linkOf u c.idx.toNat).loopback = 3 ∧ (linkOf u c.idx.toNat).state = .down) := by simp [hup]
    rw [actLoopback_link hcls hzero (.inr (.inl ⟨hk, hup⟩)) rfl, if_neg (by omega), if_neg (by omega), if_neg hstate, hv]
  · refine ⟨_, rfl, next_command h ?_⟩
    rw [actLoopback_link hcls hzero (.inr (.inr ⟨hk, hdown, hfdx⟩)) rfl, if_neg (by omega), if_pos hk, hv]
  · rw [actCntRead, firstBad_none (by simp [hk, hzero, hgate]), hk]
    rfl
  · rw [actCntRead, firstBad_none (by simp [hk, hzero, hgate, hdone]), hk]
    rfl
  · rw [actUtilWindow, firstBad_none (by simp [hzero, hk])]
    dsimp only
    split <;> rfl

end Sys2Proof.Proofs
end

section
/-! The power commands, the chain commands and the host lane commands (R305, R363, R367, R368, R370, R448, R456). -/
namespace Sys2Proof.Proofs
open Sys2Proof Sys2Proof.Machine Sys2Proof.Laws

theorem firstBad_pair {a b : Bool} {x y : Nat} (ha : a = false) (hb : b = false) : firstBad [(a, x), (b, y)] = none := by
  rw [ha, hb]; rfl

/-! ### The power commands (R305, R363) -/

/-- PWR_POLICY within the ranges of its fields. -/
theorem pwrPolicy_ranges {c : Cmd} (htimers : timersOk c.idx.toNat (BitVec.ofNat 32 (leAt c.params 0 4)) = true)
    (hauto : leAt c.params 4 1 ≤ 1) (hset : leAt c.params 9 1 ≤ 1) (hrsvd : leAt c.params 5 3 = 0) (hrsvd' : leAt c.params 10 2 = 0)
    (haon : c.idx.toNat = 72 → leAt c.params 4 1 = 0)
    (hkeep : leAt c.params 9 1 = 1 → retainMask c.idx.toNat ≠ 0 ∧ BitVec.ofNat 32 (leAt c.params 8 1) &&& ~~~(retainMask c.idx.toNat) = 0) :
    (!timersOk c.idx.toNat (BitVec.ofNat 32 (leAt c.params 0 4)) || decide (1 < leAt c.params 4 1 ∨ 1 < leAt c.params 9 1) ||
      leAt c.params 5 3 != 0 || leAt c.params 10 2 != 0 || (c.idx.toNat == 72 && leAt c.params 4 1 == 1) ||
      (leAt c.params 9 1 == 1 && (retainMask c.idx.toNat == 0 ||
        BitVec.ofNat 32 (leAt c.params 8 1) &&& ~~~(retainMask c.idx.toNat) != 0))) = false := by
  have hranges : decide (1 < leAt c.params 4 1 ∨ 1 < leAt c.params 9 1) = false := decide_eq_false (by omega)
  have haon' : (c.idx.toNat == 72 && leAt c.params 4 1 == 1) = false := by
    by_cases h : c.idx.toNat = 72
    · simp [haon h]
    · simp [h]
  have hkeep' : (leAt c.params 9 1 == 1 && (retainMask c.idx.toNat == 0 ||
      BitVec.ofNat 32 (leAt c.params 8 1) &&& ~~~(retainMask c.idx.toNat) != 0)) = false := by
    by_cases h : leAt c.params 9 1 = 1
    · rw [(hkeep h).2, beq_eq_false_iff_ne.mpr (hkeep h).1, bne_self_eq_false, Bool.or_self, Bool.and_false]
    · rw [beq_eq_false_iff_ne.mpr h, Bool.false_and]
  rw [htimers, hranges, hrsvd, hrsvd', haon', hkeep']
  rfl

/-- A policy that changes nothing while the lock stands. -/
theorem pwrPolicy_unlocked {c : Cmd} {u : State} (hlock : locked u 2 = true →
      rd u (domBase c.idx.toNat + 8) = BitVec.ofNat 32 (leAt c.params 0 4) ∧ rdB u (domBase c.idx.toNat) 3 = (leAt c.params 4 1 == 1) ∧
      (leAt c.params 9 1 = 1 → rd u (domBase c.idx.toNat + 0x14) = BitVec.ofNat 32 (leAt c.params 8 1))) :
    (locked u 2 && (rd u (domBase c.idx.toNat + 8) != BitVec.ofNat 32 (leAt c.params 0 4) ||
      rdB u (domBase c.idx.toNat) 3 != (leAt c.params 4 1 == 1) ||
      (leAt c.params 9 1 == 1 && rd u (domBase c.idx.toNat + 0x14) != BitVec.ofNat 32 (leAt c.params 8 1)))) = false := by
  cases hl : locked u 2 with
  | false => rfl
  | true =>
    obtain ⟨htimers, hauto, hkeep⟩ := hlock hl
    rw [htimers, hauto, bne_self_eq_false, bne_self_eq_false]
    by_cases h : leAt c.params 9 1 = 1
    · rw [hkeep h, bne_self_eq_false, Bool.and_false]; rfl
    · rw [beq_eq_false_iff_ne.mpr h]; rfl

/-- Settles O25: each action, past the conditions that its hypotheses exclude. -/
theorem powerCommandsComplete : Obligations.PowerCommandsComplete := by
  refine ⟨fun c s u e h hzero hst hacc => ?_, fun c s u v e h htimers hauto hset hrsvd hrsvd' haon hkeep hlock hv => next_command h ?_,
    fun c s u e n h hlv hzero hunit hbusy => next_command h ?_, fun c s u e h => ⟨fun hcls => next_command h ?_, fun hcls => next_command h ?_⟩,
    fun c s u e h hlv hzero => next_command h ?_⟩
  · have hgood : (!zeroFrom c.params 1 || decide (4 < leAt c.params 0 1) || !accepts c.idx.toNat (leAt c.params 0 1)) = false := by
      simp [hzero, hacc, hst]
    refine ⟨fun hx => next_command h ?_, fun hx => ⟨_, rfl, next_command h ?_⟩⟩
    · simp only [actPwrStateSet, hgood, hx, Bool.false_eq_true, if_false]
    · simp only [actPwrStateSet, hgood, hx, Bool.false_eq_true, if_false, if_true]
  · unfold actPwrPolicy
    extract_lets d p w auto keep set ret
    rw [firstBad_pair (pwrPolicy_ranges htimers hauto hset hrsvd hrsvd' haon hkeep) (pwrPolicy_unlocked hlock), hv]
    simp only [set, beq_iff_eq]
    rfl
  · have hn : (if c.cls = 2 then c.idx.toNat else 16) = n := by
      rcases hunit with ⟨hc, hn⟩ | ⟨hc, -, hn⟩
      · rw [if_pos hc, hn]
      · rw [hc, hn]; rfl
    have hcore : (c.cls == 8 && c.idx != 73) = false := by
      rcases hunit with ⟨hc, -⟩ | ⟨hc, hi, -⟩
      · rw [hc]; rfl
      · rw [hi, bne_self_eq_false, Bool.and_false]
    rw [actPwrLevelSet, hn, hcore, firstBad_none (by simp [hlv, hzero, hbusy])]
  · rw [pwrStatusResult, if_pos hcls]
  · rw [pwrStatusResult, if_neg (by rw [hcls]; decide)]
  · have hgood : (decide (4 < leAt c.params 0 1) || !zeroFrom c.params 1) = false := by simp [hzero, hlv]
    rw [actPwrKeepAwake, hgood, if_neg Bool.false_ne_true]

/-! ### The chain commands (R367, R368, R448, R456) -/

theorem chainOff_clocked {u : State} (h : rdB u clkEnR 1 = true) : chainOff u = false := by rw [chainOff, h]; rfl

/-- CHAIN_EPOCH that no condition refuses. -/
theorem chainEpoch_unrefused {c : Cmd} {u : State} (hbad : epochBad c = false)
    (htime : leAt c.params 8 1 = 4 ∨ u.time.toNat + 1000000 ≤ leAt c.params 0 8) (hclk : rdB u clkEnR 1 = true)
    (hbusy : leAt c.params 8 1 = 4 ∨ (epochAnswer u (leAt c.params 8 1) (leAt c.params 9 1)).2.1 = false)
    (hmgr : isManager u = true) (htwo : twoManagers u = false) :
    firstBad [(epochBad c, stBadParam), (leAt c.params 8 1 != 4 && decide (leAt c.params 0 8 < u.time.toNat + 1000000), stRange),
      (chainOff u, stNotReady), (leAt c.params 8 1 != 4 && (epochAnswer u (leAt c.params 8 1) (leAt c.params 9 1)).2.1, stBusy),
      (!isManager u || twoManagers u, stRefused)] = none := by
  have htime' : (leAt c.params 8 1 != 4 && decide (leAt c.params 0 8 < u.time.toNat + 1000000)) = false := by
    rcases htime with h | h
    · rw [h]; rfl
    · rw [decide_eq_false (by omega), Bool.and_false]
  have hbusy' : (leAt c.params 8 1 != 4 && (epochAnswer u (leAt c.params 8 1) (leAt c.params 9 1)).2.1) = false := by
    rcases hbusy with h | h
    · rw [h]; rfl
    · rw [h, Bool.and_false]
  rw [hbad, htime', chainOff_clocked hclk, hbusy', hmgr, htwo]
  rfl

/-! ### The host lane commands (R370) -/

/-- HL_CONFIGURE that leaves the controls of every lane with a present stream. -/
theorem actHlConfigure_writes {c : Cmd} {e : Nat} {u : State} (hform : c.expert = true ∨ (leAt c.params 0 1 ≤ 3 ∧ zeroFrom c.params 1 = true))
    (hctle : ∀ n ∈ cmdLanes c, laneIsTx n = true ∨ fieldGet (hlNew u n (hlRequest c)) 4 0 ≤ 28)
    (hkeep : ∀ n ∈ cmdLanes c, lanePresent u n = true → fieldGet (hlNew u n (hlRequest c)) 12 0 = rdF u (hlCtl n) 12 0) :
    actHlConfigure c e u = complete e stOk [] (each (cmdLanes c) (hlConfigure (hlRequest c)) u) := by
  have hform' : (!c.expert && (decide (3 < leAt c.params 0 1) || !zeroFrom c.params 1)) = false := by
    rcases hform with h | ⟨hrate, hzero⟩
    · rw [h]; rfl
    · rw [decide_eq_false (by omega), hzero]; exact Bool.and_false _
  have hctle' : (cmdLanes c).any (fun n => !laneIsTx n && decide (28 < fieldGet (hlNew u n (hlRequest c)) 4 0)) = false :=
    List.any_eq_false.mpr fun n hn => by rcases hctle n hn with h | h <;> simp [h]
  have hkeep' : (cmdLanes c).any (fun n => lanePresent u n && fieldGet (hlNew u n (hlRequest c)) 12 0 != rdF u (hlCtl n) 12 0) = false :=
    List.any_eq_false.mpr fun n hn => by
      by_cases h : lanePresent u n = true
      · simp [hkeep n hn h]
      · simp [h]
  rw [actHlConfigure, hform', hctle', hkeep']
  rfl

/-- Settles O26: each action, past the conditions that its hypotheses exclude. -/
theorem chainAndHostLaneCommandsComplete : Obligations.ChainAndHostLaneCommandsComplete := by
  refine ⟨fun c s u e h hclk hmgr htwo henum hfree => next_command h ?_, fun c s u e h hclk => next_command h ?_,
    fun c s u e x y z f h hbad hone htime hclk hanswer hy hmgr htwo hf => next_command h ?_,
    fun c s u e id h hbad hfour hclk hmgr htwo hid => next_command h ?_, fun c s u e h hform hctle hkeep => next_command h ?_,
    fun c s u e h => next_command h rfl, fun c s u e h hzero hrx hscan hauto => ⟨fun hk => next_command h ?_, fun hk hfree => next_command h ?_⟩⟩
  · simp only [actChainEnumerate, chainOff_clocked hclk, hmgr, htwo, henum, hfree, Option.isSome_none, Bool.not_true, Bool.or_self,
      Bool.false_eq_true, if_false]
  · simp only [chainOff_clocked hclk, Bool.false_eq_true, if_false]
  · have hnone := chainEpoch_unrefused hbad (.inr htime) hclk (.inr (by rw [hanswer]; exact hy)) hmgr htwo
    simp only [actChainEpoch, hnone, if_neg hone]
    rw [hf, hanswer]
  · have hnone := chainEpoch_unrefused hbad (.inl hfour) hclk (.inl hfour) hmgr htwo
    simp only [actChainEpoch, hnone, if_pos hfour, hid]
  · exact actHlConfigure_writes hform hctle hkeep
  · have hne : leAt c.params 0 1 ≠ 0xFF := by omega
    rw [actHlCtleSet, firstBad_none (by simp [hk, hzero, hrx, hscan, hauto, hne])]
    exact if_neg hne
  · rw [actHlCtleSet, firstBad_none (by simp [hk, hzero, hrx, hscan, hauto, hfree])]
    exact if_pos hk

end Sys2Proof.Proofs
end

section
/-! The commands that program clocks (R239, R241, R242, R265, R267, R269, R270, R279, R285, R361, R362, R403, R506). -/
namespace Sys2Proof.Proofs
open Sys2Proof Sys2Proof.Machine Sys2Proof.Laws

/-- A choice goes by an equivalent condition. -/
theorem ite_of_iff {α : Type} {b c : Prop} [Decidable b] [Decidable c] {x y : α} (h : b ↔ c) :
    (if b then x else y) = if c then x else y := ite_congr (propext h) (fun _ => rfl) (fun _ => rfl)

/-! ### CLK_PLL_PROGRAM (R239, R241, R265, R506) -/

/-- CLK_PLL_PROGRAM of a port's or tile's synthesizer that is not in use where it would change: by the slot's word. -/
theorem programSyn_stores {c : Cmd} {e p : Nat} {u v w : State} (hk : leAt c.params 0 1 ≤ 3) (hflags : leAt c.params 1 1 ≤ 3)
    (hrsvd : leAt c.params 2 2 = 0) (hw : leAt c.params 4 4 < 4096) (hbusy : synBusy u c.idx.toNat = false)
    (hp : p = if 2 ≤ leAt c.params 1 1 then bitsOf (leAt c.params 4 4) 11 8 + 1 else rdF u (synCtl c.idx.toNat) 3 0 + 1)
    (huse : leAt c.params 1 1 ≠ 0 ∨ leAt c.params 0 1 = synActive u c.idx.toNat → synInUse u c.idx.toNat = false)
    (hstate : leAt c.params 1 1 % 2 = 1 → synState u c.idx.toNat ≠ 0)
    (hv : v = if 2 ≤ leAt c.params 1 1 then each (List.range 4) (fun j => wrB (synSlotR c.idx.toNat j) 14 false)
      (wrF (synCtl c.idx.toNat) 3 0 (p - 1) u) else u)
    (hww : w = synWordWrite c.idx.toNat (leAt c.params 0 1) true (BitVec.ofNat 32 (leAt c.params 8 4))
      (synWordWrite c.idx.toNat (leAt c.params 0 1) false (BitVec.ofNat 32 (leAt c.params 4 4)) v)) :
    programSyn c e u =
      if synWordOk u c.idx.toNat p (leAt c.params 4 4 % 256) (BitVec.ofNat 32 (leAt c.params 8 4)).toNat = false then
        complete e stRange [] u
      else if leAt c.params 1 1 % 2 = 1 then
        keepRunning e 0 (synHop c.idx.toNat (leAt c.params 0 1) (synState u c.idx.toNat == 4) (some e) w)
      else complete e stOk [] (if 2 ≤ leAt c.params 1 1 ∧ synState u c.idx.toNat ≠ 4 ∧ synState w c.idx.toNat ≠ 0
        then synAgain c.idx.toNat (synActive w c.idx.toNat) true none w else w) := by
  have hform : (decide (3 < leAt c.params 0 1) || decide (3 < leAt c.params 1 1) || leAt c.params 2 2 != 0 ||
      decide (4096 ≤ leAt c.params 4 4)) = false := by simp [hrsvd]; omega
  have huse' : ((leAt c.params 1 1 % 2 == 1 || decide (2 ≤ leAt c.params 1 1) || leAt c.params 0 1 == synActive u c.idx.toNat) &&
      synInUse u c.idx.toNat) = false := by
    by_cases h : leAt c.params 1 1 ≠ 0 ∨ leAt c.params 0 1 = synActive u c.idx.toNat
    · rw [huse h, Bool.and_false]
    · rw [not_or, Classical.not_not] at h
      rw [h.1, beq_eq_false_iff_ne.mpr h.2]
      rfl
  have hstate' : (leAt c.params 1 1 % 2 == 1 && synState u c.idx.toNat == 0) = false := by
    by_cases h : leAt c.params 1 1 % 2 = 1
    · rw [beq_eq_false_iff_ne.mpr (hstate h), Bool.and_false]
    · rw [beq_eq_false_iff_ne.mpr h, Bool.false_and]
  have hpre : (if decide (2 ≤ leAt c.params 1 1) = true then bitsOf (leAt c.params 4 4) 11 8 + 1 else rdF u (synCtl c.idx.toNat) 3 0 + 1) = p := by
    rw [hp]; simp only [decide_eq_true_eq]
  unfold programSyn
  extract_lets i k flags act pre word frac prediv held prepared stored
  have hprediv : prediv = p := hpre
  cases hok : synWordOk u c.idx.toNat p (leAt c.params 4 4 % 256) (BitVec.ofNat 32 (leAt c.params 8 4)).toNat with
  | false =>
    have hbad : firstBad [(decide (3 < k) || decide (3 < flags) || leAt c.params 2 2 != 0 || decide (4096 ≤ word), stBadParam),
        (synBusy u i, stBusy), (!synWordOk u i prediv (word % 256) frac.toNat, stRange),
        ((act || pre || k == synActive u i) && synInUse u i, stRefused), (act && synState u i == 0, stRefused)] = some stRange := by
      rw [hform, hbusy, hprediv, hok]; rfl
    rw [hbad, if_pos rfl]
  | true =>
    have hnone : firstBad [(decide (3 < k) || decide (3 < flags) || leAt c.params 2 2 != 0 || decide (4096 ≤ word), stBadParam),
        (synBusy u i, stBusy), (!synWordOk u i prediv (word % 256) frac.toNat, stRange),
        ((act || pre || k == synActive u i) && synInUse u i, stRefused), (act && synState u i == 0, stRefused)] = none := by
      rw [hform, hbusy, hprediv, hok, huse', hstate']; rfl
    rw [hnone, if_neg (Bool.false_ne_true ∘ Eq.symm)]
    have hstored : stored = w := by
      simp only [stored, prepared, pre, flags, hprediv, decide_eq_true_eq, hww, hv]
      rfl
    rw [hstored]
    by_cases hact : leAt c.params 1 1 % 2 = 1
    · rw [if_pos (beq_iff_eq.mpr hact), if_pos hact]
    · have hcond : (pre && !held && synState w i != 0) = true ↔
          2 ≤ leAt c.params 1 1 ∧ synState u c.idx.toNat ≠ 4 ∧ synState w c.idx.toNat ≠ 0 := by
        simp [pre, held, flags, i, and_assoc]
      rw [if_neg (by simpa [act, flags] using hact), if_neg hact, ite_of_iff hcond]

/-- CLK_PLL_PROGRAM of a rack PLL that is not in use where it would change. -/
theorem programRack_stores {c : Cmd} {e : Nat} {u v w : State} {on active : Bool} (hk : leAt c.params 0 1 ≤ 15) (hact : leAt c.params 1 1 ≤ 1)
    (hrsvd : leAt c.params 2 2 = 0) (hword : (BitVec.ofNat 32 (leAt c.params 4 4)).toNat < 2 ^ 22)
    (hbw : fieldGet (BitVec.ofNat 32 (leAt c.params 4 4)) 11 9 ≤ 5) (hen : rackEnabled u c.idx.toNat = true)
    (hbusy : rackBusy u c.idx.toNat = false)
    (hok : rackWordOk u (BitVec.ofNat 32 (leAt c.params 4 4)) (BitVec.ofNat 32 (leAt c.params 8 4)) = true) (hlock : locked u 0 = false)
    (hon : on = (rackState u c.idx.toNat != 0)) (hactive : active = (on && leAt c.params 0 1 == rdF u (rackCtl c.idx.toNat) 3 0))
    (huse : leAt c.params 1 1 = 1 ∨ active = true → rackInUse u c.idx.toNat = false)
    (hv : v = wr (rackSlotR c.idx.toNat (leAt c.params 0 1) + 4) (BitVec.ofNat 32 (leAt c.params 8 4))
      (wrF (rackSlotR c.idx.toNat (leAt c.params 0 1)) 21 0 (BitVec.ofNat 32 (leAt c.params 4 4)).toNat u))
    (hw : w = if active then v else wrB (rackSlotR c.idx.toNat (leAt c.params 0 1)) 28 false v) :
    programRack c e u = if leAt c.params 1 1 = 1 then keepRunning e 0 (if on then rackHop c.idx.toNat (leAt c.params 0 1) (some e) w
        else rackEnable c.idx.toNat (some e) (wrF (rackCtl c.idx.toNat) 3 0 (leAt c.params 0 1) w))
      else complete e stOk [] (if active then rackHop c.idx.toNat (leAt c.params 0 1) none w else w) := by
  have hform : (decide (15 < leAt c.params 0 1) || decide (1 < leAt c.params 1 1) || leAt c.params 2 2 != 0 ||
      decide (2 ^ 22 ≤ (BitVec.ofNat 32 (leAt c.params 4 4)).toNat) ||
      decide (5 < fieldGet (BitVec.ofNat 32 (leAt c.params 4 4)) 11 9)) = false := by
    rw [decide_eq_false (by omega), decide_eq_false (by omega), hrsvd, decide_eq_false (by omega), decide_eq_false (by omega)]
    rfl
  have huse' : ((leAt c.params 1 1 == 1 || active) && rackInUse u c.idx.toNat) = false := by
    by_cases h : leAt c.params 1 1 = 1 ∨ active = true
    · rw [huse h, Bool.and_false]
    · rw [not_or, Bool.not_eq_true] at h
      rw [beq_eq_false_iff_ne.mpr h.1, h.2]
      rfl
  unfold programRack
  extract_lets i k act word frac on' active' stored marked
  have hon' : on' = on := hon.symm
  have hactive' : active' = active := by rw [hactive, hon]
  have hmarked : marked = w := by rw [hw, hv, ← hactive']
  rw [firstBad_none, hmarked, hon', hactive']
  · simp only [act, beq_iff_eq]
    rfl
  · rw [hactive', hlock]
    simp only [List.mem_cons, List.not_mem_nil, or_false]
    rintro x (rfl | rfl | rfl | rfl | rfl | rfl)
    · exact hform
    · rw [hen]; rfl
    · exact hbusy
    · rw [hok]; rfl
    · rfl
    · exact huse'

/-! ### CLK_HOP and CLK_SYNC_ARM (R362) -/

theorem not_tooSoon {s : State} {t : Nat} (h : s.time.toNat + 100000 ≤ t) : tooSoon s t = false := decide_eq_false (by omega)

/-- CLK_HOP of a port's or tile's synthesizer that is not in use. -/
theorem actClkHop_syn {c : Cmd} {e : Nat} {u : State} (hi : c.idx.toNat < 72) (hlen : c.paramLen = 4) (hrsvd : leAt c.params 1 3 = 0)
    (hk : leAt c.params 0 1 ≤ 3) (hstate : synState u c.idx.toNat ≠ 0) (hbusy : synBusy u c.idx.toNat = false)
    (huse : synInUse u c.idx.toNat = false) :
    actClkHop c e u = keepRunning e 0 (synHop c.idx.toNat (leAt c.params 0 1) (synState u c.idx.toNat == 4) (some e) u) := by
  rw [actClkHop, if_pos hi, firstBad_none (by simp [hlen, hrsvd, hk, hstate, hbusy, huse])]

/-- CLK_HOP of a rack PLL that is not in use, at once or scheduled. -/
theorem actClkHop_rack {c : Cmd} {e : Nat} {u : State} (hi : 72 ≤ c.idx.toNat) (hrsvd : leAt c.params 1 3 = 0)
    (hk : leAt c.params 0 1 ≤ 15) (hen : rackEnabled u c.idx.toNat = true) (hstate : rackState u c.idx.toNat ≠ 0)
    (hbusy : rackBusy u c.idx.toNat = false) (huse : rackInUse u c.idx.toNat = false)
    (htime : c.paramLen = 12 → tooSoon u (leAt c.params 4 8) = false ∧ hopScheduled u c.idx.toNat = false) :
    actClkHop c e u = if c.paramLen = 12 then complete e stOk (zeros 4)
        { u with hops := tabInsert u.hops c.idx.toNat (leAt c.params 0 1, BitVec.ofNat 64 (leAt c.params 4 8)) }
      else keepRunning e 0 (rackHop c.idx.toNat (leAt c.params 0 1) (some e) u) := by
  have htimed : (c.paramLen == 12 && tooSoon u (leAt c.params 4 8)) = false ∧ (c.paramLen == 12 && hopScheduled u c.idx.toNat) = false := by
    by_cases h : c.paramLen = 12
    · rw [(htime h).1, (htime h).2, Bool.and_false]; exact ⟨rfl, rfl⟩
    · rw [beq_eq_false_iff_ne.mpr h]; exact ⟨rfl, rfl⟩
  rw [actClkHop, if_neg (by omega), htimed.1, htimed.2, firstBad_none (by simp [hrsvd, hk, hen, hstate, hbusy, huse])]
  simp only [beq_iff_eq]

theorem actClkSyncArm_arms {c : Cmd} {e : Nat} {u v : State} (hrsvd : leAt c.params 2 2 = 0)
    (hen : ∀ n, n < 16 → (leAt c.params 0 2).testBit n = true → rackEnabled u (outSrc u n) = true)
    (hv : v = each ((List.range 16).filter (fun n => (leAt c.params 0 2).testBit n)) (fun n => wrB (outBase n) 6 true) (wrB clapCtlR 0 true u))
    (htime : c.paramLen = 12 → rdB u chainStateR 0 = true ∧ tooSoon u (leAt c.params 4 8) = false ∧ rdB u clapCtlR 2 = true ∧
      pulseScheduled u = false) :
    actClkSyncArm c e u = complete e stOk [] (if c.paramLen = 12 then { v with pulse := some (BitVec.ofNat 64 (leAt c.params 4 8)) } else v) := by
  have houts : ((List.range 16).filter (fun n => (leAt c.params 0 2).testBit n)).any (fun n => !rackEnabled u (outSrc u n)) = false :=
    List.any_eq_false.mpr fun n hn => by
      obtain ⟨hlt, hbit⟩ := List.mem_filter.mp hn
      rw [hen n (List.mem_range.mp hlt) hbit]
      exact Bool.false_ne_true
  have htimed : ∀ b, (b = !rdB u chainStateR 0 ∨ b = tooSoon u (leAt c.params 4 8) ∨ b = !rdB u clapCtlR 2 ∨ b = pulseScheduled u) →
      (c.paramLen == 12 && b) = false := by
    intro b hb
    by_cases h : c.paramLen = 12
    · obtain ⟨hchain, hsoon, hclap, hpulse⟩ := htime h
      rcases hb with rfl | rfl | rfl | rfl
      · rw [hchain]; exact Bool.and_false _
      · rw [hsoon, Bool.and_false]
      · rw [hclap]; exact Bool.and_false _
      · rw [hpulse, Bool.and_false]
    · rw [beq_eq_false_iff_ne.mpr h, Bool.false_and]
  unfold actClkSyncArm
  extract_lets mask outs timed t armed
  rw [firstBad_none, ← show v = armed from hv]
  · simp only [timed, beq_iff_eq]
    rfl
  · simp only [List.mem_cons, List.not_mem_nil, or_false]
    rintro x (rfl | rfl | rfl | rfl | rfl)
    · exact bne_eq_false_iff_eq.mpr hrsvd
    · exact htimed _ (.inl rfl)
    · exact htimed _ (.inr (.inl rfl))
    · exact Bool.or_eq_false_iff.mpr ⟨houts, htimed _ (.inr (.inr (.inl rfl)))⟩
    · exact htimed _ (.inr (.inr (.inr rfl)))

/-! ### CLK_OUTPUT_SET and CLK_SPREAD (R267, R269, R270) -/

/-- CLK_OUTPUT_SET of a request that nothing forbids. -/
theorem actClkOutputSet_sets {c : Cmd} {e : Nat} {u v w : State} {cfg ph : Word} {ret : Bool} (hbad : outParamsBad c = false)
    (hreq : outRequest u c.idx.toNat c = some (cfg, ph, ret)) (hen : rackEnabled u (outSrc u c.idx.toNat) = true)
    (hen' : rackEnabled u (72 + fieldGet cfg 0 0) = true) (hret : ret = true → rackState u (72 + fieldGet cfg 0 0) = 3)
    (hlock : outLocked u c.idx.toNat cfg ph = false)
    (hfollow : followedLocked u c.idx.toNat = true → freqEq (outFreq u c.idx.toNat) (outFreqAfter u c.idx.toNat cfg ret) = true)
    (hv : v = outPhaseWrite c.idx.toNat ph (outCfgWrite c.idx.toNat cfg u)) (hw : w = if ret then outReturn c.idx.toNat v else v) :
    actClkOutputSet c e u = complete e stOk
      (if c.expert then [] else leBytes 1 (fieldGet cfg 0 0) ++ zeros 1 ++ leBytes 2 (fieldGet cfg 19 8 + 1)
        ++ leBytes 8 ((2 * (pllVco w (72 + fieldGet cfg 0 0)).1 + (pllVco w (72 + fieldGet cfg 0 0)).2 * (fieldGet cfg 19 8 + 1))
          / (2 * ((pllVco w (72 + fieldGet cfg 0 0)).2 * (fieldGet cfg 19 8 + 1))))) w := by
  have hlocked : (ret && rackState u (72 + fieldGet cfg 0 0) != 3) = false := by
    cases hr : ret with
    | false => rfl
    | true => rw [hret hr]; rfl
  have hfollow' : (followedLocked u c.idx.toNat && !freqEq (outFreq u c.idx.toNat) (outFreqAfter u c.idx.toNat cfg ret)) = false := by
    cases hf : followedLocked u c.idx.toNat with
    | false => rfl
    | true => rw [hfollow hf]; rfl
  have hsrc : 72 + fieldGet cfg 0 0 - 72 = fieldGet cfg 0 0 := Nat.add_sub_cancel_left ..
  rw [actClkOutputSet, hbad, if_neg Bool.false_ne_true, hreq]
  dsimp only
  rw [hlocked, hfollow', hlock, hen, hen', ← hv, ← hw, hsrc]
  rfl

/-- CLK_SPREAD within its ranges, of an output that nothing forbids to spread. -/
theorem actClkSpread_writes {c : Cmd} {e : Nat} {u : State} (hmode : leAt c.params 0 1 ≤ 2) (hrsvd : leAt c.params 3 1 = 0)
    (hamount : leAt c.params 1 1 ≤ (if leAt c.params 0 1 = 2 then 25 else 50)) (hlow : 60 ≤ leAt c.params 2 1) (hhigh : leAt c.params 2 1 ≤ 126)
    (hen : rackEnabled u (outSrc u c.idx.toNat) = true) (hhost : rdB u (outBase c.idx.toNat) 3 = false)
    (hcompat : (followers u c.idx.toNat).any (tileCompat u) = false) (hfollow : leAt c.params 0 1 = 2 → followers u c.idx.toNat = []) :
    actClkSpread c e u = complete e stOk [] (wr (outBase c.idx.toNat + 8)
      (BitVec.ofNat 32 (leAt c.params 0 1 + 256 * leAt c.params 1 1 + 65536 * leAt c.params 2 1)) u) := by
  have hrange : (decide ((if leAt c.params 0 1 = 2 then 25 else 50) < leAt c.params 1 1) ||
      decide (leAt c.params 2 1 < 60 ∨ 126 < leAt c.params 2 1)) = false := by
    rw [decide_eq_false (by omega), decide_eq_false (by omega)]; rfl
  have hcentred : (leAt c.params 0 1 == 2 && !(followers u c.idx.toNat).isEmpty) = false := by
    by_cases h : leAt c.params 0 1 = 2
    · rw [hfollow h]; exact Bool.and_false _
    · rw [beq_eq_false_iff_ne.mpr h, Bool.false_and]
  rw [actClkSpread, hrange, hcentred, firstBad_none (by simp [hmode, hrsvd, hen, hhost, hcompat])]

/-! ### CLK_REF_SELECT (R285, R361) -/

theorem selectRoot_selects {c : Cmd} {e : Nat} {u : State} (hx : c.expert = false) (hsrc : leAt c.params 1 1 ≤ 2)
    (hrsvd : leAt c.params 2 2 = 0) (hok : rootSrcOk u (leAt c.params 1 1) = true)
    (hlock : locked u 0 = true → leAt c.params 1 1 = rdF u clkRootSrcR 1 0) :
    selectRoot c e u = complete e stOk [] (rootSelect (leAt c.params 1 1) (storeRootWord (leAt c.params 1 1) u)) := by
  have hlock' : (locked u 0 && leAt c.params 1 1 != rdF u clkRootSrcR 1 0) = false := by
    cases hl : locked u 0 with
    | false => rfl
    | true => rw [hlock hl, bne_self_eq_false, Bool.and_false]
  rw [selectRoot, hlock', firstBad_none (by simp [hx, hsrc, hrsvd, hok])]

theorem selectSelector_switches {c : Cmd} {e : Nat} {step : BitVec 16} {diff : Word} {u v : State} (href : leAt c.params 1 1 ≤ 1)
    (hrevert : leAt c.params 2 1 ≤ (if c.expert then 7 else 0)) (hrsvd : leAt c.params 3 1 = 0) (hok : refOk u (leAt c.params 1 1) = true)
    (hlock : locked u 0 = false)
    (hv : v = if c.expert then wrF refSelR 7 6 (leAt c.params 2 1 / 2) (wrF refSelR 1 1 (leAt c.params 2 1 % 2) u) else u) :
    selectSelector c e step diff u = complete e stOk []
      (if leAt c.params 1 1 = refActive v then v else refSwitch (leAt c.params 1 1) 0 step diff v) := by
  have hform : (decide (1 < leAt c.params 1 1) || (if c.expert then decide (7 < leAt c.params 2 1) else leAt c.params 2 1 != 0) ||
      leAt c.params 3 1 != 0) = false := by
    rw [decide_eq_false (by omega), hrsvd]
    cases hx : c.expert with
    | true => rw [hx, if_pos rfl] at hrevert; rw [if_pos rfl, decide_eq_false (by omega)]; rfl
    | false => rw [hx, if_neg Bool.false_ne_true] at hrevert; rw [if_neg Bool.false_ne_true, Nat.le_zero.mp hrevert]; rfl
  rw [selectSelector, hform, hok, hlock, hv]
  rfl

theorem selectHost_selects {c : Cmd} {e : Nat} {u : State} (hlo : 64 ≤ c.idx.toNat) (hhi : c.idx.toNat ≤ 71) (hx : c.expert = false)
    (hsrc : leAt c.params 0 1 ≤ 1) (hout : leAt c.params 1 1 ≤ 15) (hnone : leAt c.params 0 1 = 0 → leAt c.params 1 1 = 0)
    (hrsvd : leAt c.params 2 2 = 0) (hlock : locked u 0 = false) (hlane : tileLaneLocked u (c.idx.toNat - 64) = false)
    (hspread : leAt c.params 0 1 = 1 → fieldGet (spreadOf u (leAt c.params 1 1)) 1 0 ≠ 2 ∧
      (tileCompat u (c.idx.toNat - 64) = true → spreadMode u (leAt c.params 1 1) = 0)) :
    selectHost c e u = complete e stOk [] (wrF (synRefR c.idx.toNat) 4 0 (leAt c.params 0 1 + 2 * leAt c.params 1 1) u) := by
  have hunit : decide (c.idx.toNat < 64 ∨ 71 < c.idx.toNat) = false := decide_eq_false (by omega)
  have hform : (decide (1 < leAt c.params 0 1) || decide (15 < leAt c.params 1 1) || (leAt c.params 0 1 == 0 && leAt c.params 1 1 != 0) ||
      c.expert || leAt c.params 2 2 != 0) = false := by
    have hnone' : (leAt c.params 0 1 == 0 && leAt c.params 1 1 != 0) = false := by
      by_cases h : leAt c.params 0 1 = 0
      · rw [hnone h]; exact Bool.and_false _
      · rw [beq_eq_false_iff_ne.mpr h, Bool.false_and]
    rw [decide_eq_false (by omega), decide_eq_false (by omega), hnone', hx, hrsvd]
    rfl
  have hspread' : (leAt c.params 0 1 == 1 && (fieldGet (spreadOf u (leAt c.params 1 1)) 1 0 == 2 ||
      (tileCompat u (c.idx.toNat - 64) && spreadMode u (leAt c.params 1 1) != 0))) = false := by
    by_cases h : leAt c.params 0 1 = 1
    · obtain ⟨hmode, hzero⟩ := hspread h
      cases hc : tileCompat u (c.idx.toNat - 64) with
      | false => rw [beq_eq_false_iff_ne.mpr hmode]; exact Bool.and_false _
      | true => rw [beq_eq_false_iff_ne.mpr hmode, hzero hc]; exact Bool.and_false _
    · rw [beq_eq_false_iff_ne.mpr h, Bool.false_and]
  rw [selectHost, hunit, hform, hlock, hlane, hspread']
  rfl

/-! ### CLK_STATUS (R361, R400) -/

/-- The words of a class of units. -/
theorem clkStatusWords_device {c : Cmd} {u : State} (h : c.cls = 0) :
    clkStatusWords c u = [rd u refSelR, rd u clkRootSrcR, rdFor u (pathView c.path) clkMonStatusR] := by rw [clkStatusWords, h]; rfl

theorem clkStatusWords_output {c : Cmd} {u : State} (h : c.cls = 6) : clkStatusWords c u =
    [rd u (outBase c.idx.toNat), rd u (outBase c.idx.toNat + 4), rd u (outBase c.idx.toNat + 8), outStatusWord u c.idx.toNat] := by
  rw [clkStatusWords, h]; rfl

theorem clkStatusWords_pll {c : Cmd} {u : State} (h : c.cls = 7) : clkStatusWords c u = if c.idx.toNat < 72
    then [rd u (synCtl c.idx.toNat), synStatusWord u c.idx.toNat, rd u (synSteerR c.idx.toNat), rd u (synOffsetR c.idx.toNat)]
    else [rd u (rackCtl c.idx.toNat), rackStatusWord u c.idx.toNat, rd u (rackStepOfs c.idx.toNat), 0] := by
  rw [clkStatusWords, h]; rfl

/-- CLK_STATUS of a unit whose clock runs. -/
theorem actClkStatus_reports {c : Cmd} {e : Nat} {u : State} (hout : c.cls = 6 → rackEnabled u (outSrc u c.idx.toNat) = true)
    (hpll : c.cls = 7 → 72 ≤ c.idx.toNat → rackEnabled u c.idx.toNat = true) :
    actClkStatus c e u = complete e stOk ((clkStatusWords c u).flatMap (fun w => leBytes 4 w.toNat))
      (if c.cls = 0 then wrView (pathView c.path) clkMonStatusR 0 u else u) := by
  have hgated : ((c.cls == 6 && !rackEnabled u (outSrc u c.idx.toNat)) ||
      (c.cls == 7 && decide (72 ≤ c.idx.toNat) && !rackEnabled u c.idx.toNat)) = false := by
    have h6 : (c.cls == 6 && !rackEnabled u (outSrc u c.idx.toNat)) = false := by
      by_cases h : c.cls = 6
      · rw [hout h]; exact Bool.and_false _
      · rw [beq_eq_false_iff_ne.mpr h, Bool.false_and]
    have h7 : (c.cls == 7 && decide (72 ≤ c.idx.toNat) && !rackEnabled u c.idx.toNat) = false := by
      by_cases h : c.cls = 7 ∧ 72 ≤ c.idx.toNat
      · rw [hpll h.1 h.2]; exact Bool.and_false _
      · rw [show (c.cls == 7 && decide (72 ≤ c.idx.toNat)) = false by simpa using h, Bool.false_and]
    rw [h6, h7]
    rfl
  rw [actClkStatus, hgated, if_neg Bool.false_ne_true]

/-- Settles O24: each action, past the conditions that its hypotheses exclude. -/
theorem clockCommandsComplete : Obligations.ClockCommandsComplete := by
  refine ⟨fun c s u v e cfg ph ret h hbad hreq hen hen' hret hlock hfollow hv => ?_,
    fun c s u v w e p h hi hk hflags hrsvd hw hbusy hp huse hstate hv hww => next_command h ?_,
    fun c s u v e on active h hi hk hact hrsvd hword hbw hen hbusy hok hlock hon hactive huse hv => ?_, fun c s u e h hrsvd => ⟨?_, ?_⟩,
    fun c s u e h hstep hen hok => next_command h ?_, fun c s u e h hmode hrsvd hamount hlow hhigh hen hhost hcompat hfollow =>
      next_command h (actClkSpread_writes hmode hrsvd hamount hlow hhigh hen hhost hcompat hfollow),
    fun c s u v e h hrsvd hen hv => ⟨fun hlen => next_command h ?_, fun hlen hchain htime hclap hpulse => next_command h ?_⟩,
    fun c step diff s u e h hcls hx hone hsrc hrsvd hok hlock => next_command h ?_,
    fun c step diff s u v e h hcls hzero href hrevert hrsvd hok hlock hv => next_command h ?_,
    fun c step diff s u e h hcls hlo hhi hx hsrc hout hnone hrsvd hlock hlane hspread => next_command h ?_,
    fun c s u e h => ⟨fun hcls => next_command h ?_, fun hcls hen => next_command h ?_, fun hcls hi => next_command h ?_,
      fun hcls hi hen => next_command h ?_⟩⟩
  · exact ⟨_, rfl, next_command h (actClkOutputSet_sets hbad hreq hen hen' hret hlock hfollow hv rfl)⟩
  · rw [actClkPllProgram, if_pos hi, programSyn_stores hk hflags hrsvd hw hbusy hp huse hstate hv hww]
  · refine ⟨_, rfl, next_command h ?_⟩
    rw [actClkPllProgram, if_neg (by omega), programRack_stores hk hact hrsvd hword hbw hen hbusy hok hlock hon hactive huse hv rfl]
  · exact fun hi hlen hk hstate hbusy huse => next_command h (actClkHop_syn hi hlen hrsvd hk hstate hbusy huse)
  · refine fun hi hk hen hstate hbusy huse => ⟨fun hlen => next_command h ?_, fun hlen htime hfree => next_command h ?_⟩
    · rw [actClkHop_rack hi hrsvd hk hen hstate hbusy huse (fun h12 => absurd (hlen.symm.trans h12) (by decide)), if_neg (by rw [hlen]; decide)]
    · rw [actClkHop_rack hi hrsvd hk hen hstate hbusy huse (fun _ => ⟨not_tooSoon htime, hfree⟩), if_pos hlen]
  · have hen' : (decide (72 ≤ c.idx.toNat) && !rackEnabled u c.idx.toNat) = false := by
      rcases hen with hi | hen
      · rw [decide_eq_false (by omega), Bool.false_and]
      · rw [hen]; exact Bool.and_false _
    have hstep' : decide (2 ^ 20 < (signed 32 (leAt c.params 0 4)).natAbs) = false := decide_eq_false (Nat.not_lt.mpr hstep)
    rw [actClkStep, hen', hstep', hok]
    rfl
  · rw [actClkSyncArm_arms hrsvd hen hv (fun h12 => absurd (hlen.symm.trans h12) (by decide)), if_neg (by rw [hlen]; decide)]
  · rw [actClkSyncArm_arms hrsvd hen hv (fun _ => ⟨hchain, not_tooSoon htime, hclap, hpulse⟩), if_pos hlen]
  · rw [actClkRefSelect, if_neg (by rw [hcls]; decide), hone]
    exact selectRoot_selects hx hsrc hrsvd hok hlock
  · rw [actClkRefSelect, if_neg (by rw [hcls]; decide), hzero]
    exact selectSelector_switches href hrevert hrsvd hok hlock hv
  · rw [actClkRefSelect, if_pos hcls]
    exact selectHost_selects hlo hhi hx hsrc hout hnone hrsvd hlock hlane hspread
  · rw [actClkStatus_reports (fun h' => absurd (hcls.symm.trans h') (by decide)) (fun h' => absurd (hcls.symm.trans h') (by decide)), if_pos hcls, clkStatusWords_device hcls]
    simp only [List.flatMap_cons, List.flatMap_nil, List.append_nil, List.append_assoc]
  · rw [actClkStatus_reports (fun _ => hen) (fun h' => absurd (hcls.symm.trans h') (by decide)), if_neg (by rw [hcls]; decide), clkStatusWords_output hcls]
  · rw [actClkStatus_reports (fun h' => absurd (hcls.symm.trans h') (by decide)) (fun _ => by omega), if_neg (by rw [hcls]; decide), clkStatusWords_pll hcls,
      if_pos hi]
  · rw [actClkStatus_reports (fun h' => absurd (hcls.symm.trans h') (by decide)) (fun _ _ => hen), if_neg (by rw [hcls]; decide), clkStatusWords_pll hcls,
      if_neg (by omega)]

end Sys2Proof.Proofs
end

section
/-! Submission, completion, the delivery of events, ring configuration and the mailbox (R318 to R326, R333, R337, R338, R422, R427, R435,
R471 to R474). -/
namespace Sys2Proof.Proofs
open Sys2Proof Sys2Proof.Machine Sys2Proof.Laws

/-- Two rows that answer next states answer the same where the states are the same. -/
theorem next_eq {s t : State} (h : s = t) : (Host.Outcome.next s : Out State) = .next t := congrArg _ h

/-! ### Submission (R319, R322, R323, R326, R427) -/

/-- The fetch of the next slot in turn, with an engine tag that is free. -/
theorem ringFetch_fetches {n : Nat} {s u : State} (hn : nextRing s = some n) (hdma : dmaOk s = true) (htag : tagsFree s ≠ 0)
    (hu : u = modCmd (fun c => { c with
      inflight := c.inflight ++ [{ etag := freeTag s, cmd := { path := .ring (BitVec.ofNat 6 n) }, stage := .fetching, aux := sqHead s n }],
      rrRing := n,
      rrLeft := if s.cmd.rrRing = n ∧ s.cmd.rrLeft ≠ 0 then s.cmd.rrLeft - 1 else rdF s (sqBase n + 8) 13 10 }) s) :
    ringFetch s = fetchResume (wrF (sqBase n + 0xC) 11 0 ((sqHead u n + 1) % sqSize u n) u) := by
  simp only [ringFetch, hn, hdma, Bool.not_true, Bool.false_eq_true, if_false, if_neg htag, hu]

/-- A slot that cannot be read stays the next one to fetch, and its ring reports the error. -/
theorem slotArrived_fails {e : Nat} {f : InFlight} {n : Ring} {s : State}
    (hf : s.cmd.inflight.find? (fun f => f.etag == e && f.stage == .fetching) = some f) (hp : f.cmd.path = .ring n) :
    slotArrived e none s = ringError 0 n.toNat 0x02 (wrF (sqBase n.toNat + 0xC) 11 0 f.aux (wrF (sqBase n.toNat + 0xC) 23 16 0x02
      (wrB (sqBase n.toNat + 0xC) 13 true (modCmd (fun c => { c with inflight := c.inflight.filter (fun g => g.etag != e) }) s)))) := by
  simp only [slotArrived, hf, hp]

theorem paramsArrived_fails {e : Nat} {f : InFlight} {s : State}
    (hf : s.cmd.inflight.find? (fun f => f.etag == e && f.stage == .loading) = some f) :
    paramsArrived e none s = complete e stBadParam [] s := by simp only [paramsArrived, hf]

/-- A fill that the cache asked for: stored where it passes its CRC, else counted and marked bad. -/
theorem ldtArrived_asked {l : Nat} {data : Option (List Byte)} {s u v : State} (hask : ldtAsked s l = true) (hen : ldtEnabled s = true)
    (hu : u = modCmd (fun c => { c with ldtFills := c.ldtFills.filter (fun x => x != l) }) s)
    (hv : v = if data.isSome then dmaRead 5 256 u else u) :
    ldtArrived l data s = if data.any ldtCrcOk then ldtStore l (data.getD []) v
      else count ldtCrcErrR 1 (modCmd (fun c => { c with ldtBad := c.ldtBad ++ [l] }) v) := by
  subst hu hv
  cases data <;> simp [ldtArrived, hask, hen]

/-- A command whose timeout expires. -/
theorem commandTimeout_ends {e : Nat} {f : InFlight} {s : State} (hf : s.cmd.inflight.find? (fun f => f.etag == e) = some f)
    (hm : s.mode = .running) (ht : f.cmd.timeout ≠ 0) (hst : f.stage ≠ .fetching) :
    commandTimeout e s = detach f (giveUp f (finish f stTimeout (if f.waitFor = 0 then [] else leBytes 8 (f.failMask ||| f.waitFor)) s)) := by
  have hgood : ¬ (s.mode ≠ .running ∨ f.cmd.timeout = 0 ∨ f.stage = .fetching) := by
    rintro (h | h | h)
    · exact h hm
    · exact ht h
    · exact hst h
  simp only [commandTimeout, hf, if_neg hgood]

/-- Settles O27: each row's function, past the conditions that its hypotheses exclude. -/
theorem submissionRows : Obligations.SubmissionRows := by
  refine ⟨fun n v s u h hen htail => ?_, fun s u n hm hstop hbox hn hdma htag hu => next_eq ?_, fun s hm hstop hbox htag => next_eq ?_,
    fun e b s f hf => next_eq ?_, fun e b p s f hf hp => next_eq ?_, fun e s f n hf hp => ?_,
    fun e s f hf => ⟨next_eq (paramsArrived_fails hf), next_eq (paramsArrived_fails hf)⟩, fun l s v hask hen hv => ?_, fun l b s => rfl,
    fun e s f hf hm ht hst => next_eq (commandTimeout_ends hf hm ht hst)⟩
  · show execSqTailDoorbell n v s = _
    rw [execSqTailDoorbell, h]
    refine next_eq ?_
    simp only [sqTailWrite, hen, Bool.not_true, Bool.false_eq_true, if_false, if_neg (Nat.not_le.mpr htail)]
  · rw [slotFetch, if_neg (by simp [hm, hstop]), hbox, if_neg (by simp), ringFetch_fetches hn hdma htag hu]
  · rw [slotFetch, if_neg (by simp [hm, hstop]), hbox, if_pos (by simp [htag])]
  · simp only [hostReadDone, slotArrived, hf]
    rfl
  · simp only [hostReadDone, paramsArrived, hf, hp]
  · exact ⟨_, rfl, next_eq (slotArrived_fails hf hp), next_eq (slotArrived_fails hf hp)⟩
  · have hmarks := (ldtArrived_asked (data := none) hask hen rfl rfl).trans hv.symm
    exact ⟨next_eq hmarks, next_eq hmarks⟩

/-! ### Completion and the delivery of events (R320, R321, R337, R422, R471 to R474) -/

theorem counterRecord_writes {m : Nat} {b : List Byte} {s u v : State} (hm : s.mode = .running) (hl : isLink s m = true) (hu : u = ldtUse m s)
    (hb : ldtFind u m = some b) (haddr : dmaAddrOf b ≠ 0) (hper : dmaPeriodOf b ≠ 0) (hdma : dmaOk u = true)
    (hv : v = hostWriteBy 7 (dmaAddrOf b + 32) ((linkPairs u m).flatMap (recordEntry u)) u) :
    counterRecord m s = modLink m (fun x => { x with recSeq := x.recSeq + 1 }) (hostWriteBy 7 (dmaAddrOf b) (recordHeader u m) v) := by
  rw [counterRecord, if_neg (by simp [hm, hl])]
  dsimp only
  rw [← hu, hb]
  dsimp only
  rw [if_neg (by simp [haddr, hper, hdma]), hv]

/-- The oldest staged record, whose class the ring takes and whose masks are known. -/
theorem evtDeliver_known {r : EvRec} {q : List EvRec} {s u : State} (hq : s.evt.staging = r :: q) (hen : ringEnabled s = true)
    (hdma : dmaOk s = true) (hcls : maskBit s evtClassLoR (r.code.toNat / 256) = true) (hknown : maskVerdict s r ≠ .wait)
    (hu : u = if maskVerdict s r = .withhold then maskUse r s else if evtFull s then ringDrop (maskUse r s) else evtWrite r (maskUse r s)) :
    evtDeliver s = { u with evt := { u.evt with staging := q } } := by
  simp only [evtDeliver, hq, hen, hdma, hcls, Bool.not_true, Bool.or_self, Bool.false_eq_true, if_false]
  cases hverdict : maskVerdict s r with
  | wait => exact absurd hverdict hknown
  | withhold => rw [hu, hverdict, if_pos rfl]
  | deliver =>
    have hne : MaskVerdict.deliver ≠ .withhold := by decide
    rw [hu, hverdict, if_neg hne]
    dsimp only
    by_cases hfull : evtFull s = true
    · rw [if_pos hfull, if_pos hfull]
    · rw [if_neg hfull, if_neg hfull]

/-- Settles O28: each row's function, past the conditions that its hypotheses exclude. -/
theorem completionAndEventRows : Obligations.CompletionAndEventRows := by
  refine ⟨fun n s a b w t v c k hc hen hfull hdma ha hb hk hw ht hv => next_eq ?_, fun n w s u h hen hsize hdist => ?_,
    fun n s hun hcoal => next_eq ?_, fun w s u v h hen hsize hdist hv => ?_, fun s u r q hq hen hdma => ⟨fun hcls => next_eq ?_,
      fun hcls hwait => next_eq ?_, fun hcls hknown hu => next_eq (evtDeliver_known hq hen hdma hcls hknown hu)⟩,
    fun s r q hq hdom hclk hhold hsup => next_eq ?_,
    fun l b s u v hm hl hu hb haddr hper hdma hv => next_eq (counterRecord_writes hm hl hu hb haddr hper hdma hv)⟩
  · subst hv ht hw hk hb ha
    simp only [statusSlotWrite, hc, hen, hfull, hdma, Bool.not_true, Bool.or_self, Bool.false_eq_true, if_false]
  · show execCqHeadDoorbell n w s = _
    rw [execCqHeadDoorbell, h]
    refine next_eq ?_
    simp only [cqHeadWrite, hen, Bool.not_true, Bool.false_eq_true, if_false, if_neg (Nat.not_le.mpr hsize), if_neg (Nat.not_lt.mpr hdist)]
  · rw [coalesceExpiry, hun, if_pos (by simp [hcoal])]
  · show execEventRingHeadDoorbell w s = _
    rw [execEventRingHeadDoorbell, h]
    refine next_eq ?_
    simp only [evtHeadWrite, hen, Bool.not_true, Bool.false_eq_true, if_false, if_neg (Nat.not_le.mpr hsize), if_neg (Nat.not_lt.mpr hdist),
      hv]
  · simp only [evtDeliver, hq, hen, hdma, hcls, Bool.not_true, Bool.not_false, Bool.or_self, Bool.false_eq_true, if_false, if_true]
  · simp only [evtDeliver, hq, hen, hdma, hcls, hwait, Bool.not_true, Bool.or_self, Bool.false_eq_true, if_false]
  · have hready : ¬ (domState s 79 ≠ 0 ∨ (!rdB s clkEnR 4) = true ∨ mramHold s = true ∨ supHalted s = true) := by
      simp [hdom, hclk, hhold, hsup]
    simp only [logWrite, hq, if_neg hready]

/-! ### Ring configuration (R318, R337, R338, R471) -/

theorem bitGet_and {x y : Word} {k : Nat} (h : bitGet y k = true) : bitGet (x &&& y) k = bitGet x k := by
  rw [bitGet, BitVec.getLsbD_and, show y.getLsbD k = true from h, Bool.and_true]; rfl

/-- The ENABLE bit of SQ_CFG and CQ_CFG passes their masks. -/
theorem sqCfg_enable (w : Word) : bitGet (w &&& 0xBFFF) 15 = bitGet w 15 := bitGet_and (by decide)
theorem cqCfg_enable (w : Word) : bitGet (w &&& 0xFFFF9FFF) 15 = bitGet w 15 := bitGet_and (by decide)

/-- Words whose ENABLE bits differ are not the same. -/
theorem ne_of_bitGet {x y : Word} {k : Nat} {a : Bool} (hx : bitGet x k = a) (hy : bitGet y k = !a) : x ≠ y := by
  rintro rfl
  rw [hx] at hy
  cases a <;> cases hy

theorem sqCfgWrite_disabled {v : View} {n : Nat} {w : Word} {u : State} (hoff : sqEnabled u n = false) (hlog : log2Ok (w &&& 0xBFFF) = true)
    (hne : w &&& 0xBFFF ≠ rd u (sqBase n + 8)) (hcq : bitGet w 15 = true → cqEnabled u (fieldGet (w &&& 0xBFFF) 9 4) = true) :
    sqCfgWrite v n w u = if bitGet w 15 then wr (sqTailDb n) 0 (wr (sqBase n + 0xC) 0 (wr (sqBase n + 8) (w &&& 0xBFFF) u))
      else wr (sqBase n + 8) (w &&& 0xBFFF) u := by
  have hoff' : bitGet (rd u (sqBase n + 8)) 15 = false := hoff
  cases hen : bitGet w 15 with
  | true => simp only [sqCfgWrite, if_neg hne, hoff', hlog, sqCfg_enable, hen, hcq hen, Bool.not_true, Bool.false_eq_true, if_false, if_true]
  | false => simp only [sqCfgWrite, if_neg hne, hoff', hlog, sqCfg_enable, hen, Bool.not_true, Bool.false_eq_true, if_false]

theorem cqCfgWrite_disabled {v : View} {n : Nat} {w : Word} {u : State} (hoff : cqEnabled u n = false)
    (hlog : log2Ok (w &&& 0xFFFF9FFF) = true) (hne : w &&& 0xFFFF9FFF ≠ rd u (cqBase n + 8)) :
    cqCfgWrite v n w u = if bitGet w 15 then wr (cqHeadDb n) 0 (wrF (cqBase n + 0xC) 11 0 0 (wrB (cqBase n + 0xC) 12 true
        (wr (cqBase n + 8) (w &&& 0xFFFF9FFF) u)))
      else wr (cqBase n + 8) (w &&& 0xFFFF9FFF) u := by
  have hoff' : bitGet (rd u (cqBase n + 8)) 15 = false := hoff
  simp only [cqCfgWrite, if_neg hne, hoff', hlog, cqCfg_enable, Bool.not_true, Bool.false_eq_true, if_false]

/-! ### The mailbox (R333, R435) -/

/-- What a write of MAILBOX_CTL does to VECTOR and COLLIDE, and then its GO. -/
theorem mailboxCtlWrite_eq {ser : Bool} {w : Word} {s a : State}
    (ha : a = if bitGet w 3 then wrB mailboxCtlR 3 false (wrF mailboxCtlR 24 16 (fieldGet w 24 16) s)
      else wrF mailboxCtlR 24 16 (fieldGet w 24 16) s) :
    (bitGet w 0 = false → mailboxCtlWrite ser w s = a) ∧
    (bitGet w 0 = true → rdB a mailboxCtlR 1 = true → mailboxCtlWrite ser w s = wrB mailboxCtlR 3 true a) ∧
    (∀ (u b : State), bitGet w 0 = true → rdB a mailboxCtlR 1 = false →
      u = modCmd (fun c => { c with mboxMute := false }) (wrB mailboxCtlR 1 true (wrB mailboxCtlR 2 false (wrB mailboxCtlR 4 ser a))) →
      b = (if ser then beginWake 73 (beginWake 74 u) else beginWake 73 (beginWake 74 (beginWake 76 u))) →
      mailboxCtlWrite ser w s = if tagsFree b = 0 then fetchPause (modCmd (fun c => { c with mboxWaits := true }) b)
        else mailboxStart (if ser then .mboxSerial else .mboxPcie) b) := by
  subst ha
  refine ⟨fun hgo => ?_, fun hgo hbusy => ?_, fun u b hgo hbusy hu hb => ?_⟩
  · simp only [mailboxCtlWrite, hgo, Bool.not_false, if_true]
  · simp only [mailboxCtlWrite, hgo, hbusy, Bool.not_true, Bool.false_eq_true, if_false, if_true]
  · subst hb hu
    simp only [mailboxCtlWrite, hgo, hbusy, Bool.not_true, Bool.false_eq_true, if_false]
    rfl

/-- A row of a device that runs. -/
theorem next_running {s t u : State} (hm : s.mode = .running) (h : t = u) :
    (Host.Outcome.next (if s.mode ≠ .running then s else t) : Out State) = .next u := by
  rw [if_neg (not_not_intro hm), h]

/-- The index of a word of the mailbox buffer is its own. -/
theorem mailboxIndex (o : BitVec 10) : 4 * o.toNat % 0x1000 / 4 * 4 = 4 * o.toNat := by have := o.isLt; omega

/-- Settles O29: each row's function, past the conditions that its hypotheses exclude. -/
theorem ringConfigAndMailboxRows : Obligations.RingConfigAndMailboxRows := by
  refine ⟨fun v n w s u h hoff hlog => ?_, fun v n w s u h hon hsame hen => ?_, fun v n w s u h hoff hlog => ?_,
    fun v n w s u h hon hsame hen hfree => ?_, fun v w s u h => ?_,
    fun l data s u v hask hen hu hv => next_eq (ldtArrived_asked hask hen hu hv), fun v k w s u h hoff hk => ?_, fun v w s u h hoff => ?_,
    fun v w s u h hon hsize hvec => ?_, fun ser w s a hm ha => ?_, fun o w s hm hfree => next_running hm ?_,
    fun o w s hm hbusy => next_running hm (if_pos hbusy), fun w s hm => next_running hm ?_, fun s hm => next_running hm rfl⟩
  · have hexec : exec (.sqCfgWrite v n w) s = .next (sqCfgWrite v n.toNat w u) := by
      show execSqCfgWrite v n w s = _
      rw [execSqCfgWrite, h]
    refine ⟨fun hen hcq => ?_, fun hen hne => ?_⟩
    · rw [hexec, sqCfgWrite_disabled hoff hlog (ne_of_bitGet ((sqCfg_enable w).trans hen) hoff) (fun _ => hcq), hen, if_pos rfl]
    · rw [hexec, sqCfgWrite_disabled hoff hlog hne (fun h => absurd (hen.symm.trans h) Bool.false_ne_true), hen, if_neg Bool.false_ne_true]
  · show execSqCfgWrite v n w s = _
    rw [execSqCfgWrite, h]
    have hon' : bitGet (rd u (sqBase n.toNat + 8)) 15 = true := hon
    have hne := ne_of_bitGet ((sqCfg_enable w).trans hen) hon'
    refine next_eq ?_
    simp only [sqCfgWrite, if_neg hne, hon', hsame, ne_eq, not_true_eq_false, if_false, if_true]
  · have hexec : exec (.cqCfgWrite v n w) s = .next (cqCfgWrite v n.toNat w u) := by
      show execCqCfgWrite v n w s = _
      rw [execCqCfgWrite, h]
    refine ⟨fun hen => ?_, fun hen hne => ?_⟩
    · rw [hexec, cqCfgWrite_disabled hoff hlog (ne_of_bitGet ((cqCfg_enable w).trans hen) hoff), hen, if_pos rfl]
    · rw [hexec, cqCfgWrite_disabled hoff hlog hne, hen, if_neg Bool.false_ne_true]
  · show execCqCfgWrite v n w s = _
    rw [execCqCfgWrite, h]
    have hon' : bitGet (rd u (cqBase n.toNat + 8)) 15 = true := hon
    have hne := ne_of_bitGet ((cqCfg_enable w).trans hen) hon'
    refine next_eq ?_
    simp only [cqCfgWrite, if_neg hne, hon', hsame, hfree, ne_eq, not_true_eq_false, Bool.false_eq_true, if_false, if_true]
  · show execLdtCtlWrite v w s = _
    rw [execLdtCtlWrite, h]
    rfl
  · show execEvtRingCfgWrite v k w s = _
    rw [execEvtRingCfgWrite, h]
    refine next_eq ?_
    have hlow : k = 0 ∨ k = 1 := by omega
    rcases hlow with rfl | rfl
    · simp only [evtCfgWrite, hoff, Bool.false_and, Bool.false_eq_true, if_false]
      rfl
    · simp only [evtCfgWrite, hoff, Bool.false_and, Bool.false_eq_true, if_false]
      rfl
  · have hexec : exec (.evtRingCfgWrite v 2 w) s = .next (evtCfgWrite v 8 w u) := by
      show execEvtRingCfgWrite v 2 w s = _
      rw [execEvtRingCfgWrite, show evtBaseLoR + 4 * (2 : Fin 3).val = evtRingCfgR from rfl, h]
      rfl
    have hplace : evtBaseLoR + 8 = evtRingCfgR := rfl
    refine ⟨fun hsize => ?_, fun hlo hhi => ?_⟩
    · rw [hexec]
      simp [evtCfgWrite, hoff, hsize, hplace]
    · have hcode : ¬ ((1 ≤ fieldGet w 4 0 ∧ fieldGet w 4 0 ≤ 3) ∨ 17 ≤ fieldGet w 4 0) := by omega
      have hsize : fieldGet w 4 0 ≠ 0 := by omega
      rw [hexec]
      simp [evtCfgWrite, hoff, hcode, hsize, hplace]
  · have hplace : evtBaseLoR + 8 = evtRingCfgR := rfl
    show execEvtRingCfgWrite v 2 w s = _
    rw [execEvtRingCfgWrite, show evtBaseLoR + 4 * (2 : Fin 3).val = evtRingCfgR from rfl, h]
    refine next_eq ?_
    simp [evtCfgWrite, hon, hsize, hvec, hplace]
  · obtain ⟨hnone, hcollides, hgoes⟩ := mailboxCtlWrite_eq (ser := ser) ha
    exact ⟨fun hgo => next_running hm (hnone hgo), fun hgo hbusy => next_running hm (hcollides hgo hbusy),
      fun u b hgo hbusy hu hb => next_running hm (hgoes u b hgo hbusy hu hb)⟩
  · rw [mailboxBufWrite, hfree, if_neg Bool.false_ne_true, mailboxIndex]
  · rfl

end Sys2Proof.Proofs
end

section
/-! The clocked serial port: its frames, what it does behind them, and board setup (R394, R433 to R440, R512). -/
namespace Sys2Proof.Proofs
open Sys2Proof Sys2Proof.Machine Sys2Proof.Laws

/-! ### Frames (R433, R437) -/

theorem spFrame_idle {f : SpFrame} {s : State} (hm : s.mode ≠ .running) : spFrame f s = s := if_pos hm

theorem spFrame_windowedRead {i : BitVec 6} {n : BitVec 11} {late : Option (BitVec 11)} {s : State} (hm : s.mode = .running) :
    spFrame (.windowedRead i n late) s = readFrame false i.toNat n.toNat ((late.map BitVec.toNat).getD 2048) s := if_neg (not_not_intro hm)

theorem spFrame_windowedWrite {i : BitVec 6} {ws : List Word} {s : State} (hm : s.mode = .running) :
    spFrame (.windowedWrite i ws) s = writeFrame false i.toNat ws s := if_neg (not_not_intro hm)

theorem spFrame_addressedRead {a : Word} {n : BitVec 11} {late : Option (BitVec 11)} {s : State} (hm : s.mode = .running) :
    spFrame (.addressedRead 0 a n late) s = readFrame true a.toNat n.toNat ((late.map BitVec.toNat).getD 2048) s :=
  if_neg (not_not_intro hm)

theorem spFrame_addressedWrite {a : Word} {ws : List Word} {s : State} (hm : s.mode = .running) :
    spFrame (.addressedWrite 0 a ws) s = writeFrame true a.toNat ws s := if_neg (not_not_intro hm)

/-- An addressed frame with a reserved bit is ignored. -/
theorem spFrame_reserved {f : SpFrame} {z : BitVec 5} {a : Word} {s : State} (hz : z ≠ 0)
    (hf : (∃ ws, f = .addressedWrite z a ws) ∨ ∃ n late, f = .addressedRead z a n late) : spFrame f s = s := by
  by_cases hm : s.mode = .running
  · rcases hf with ⟨ws, rfl⟩ | ⟨n, late, rfl⟩
    · exact (if_neg (not_not_intro hm)).trans (if_neg hz)
    · exact (if_neg (not_not_intro hm)).trans (if_neg hz)
  · exact spFrame_idle hm

theorem frameItems_one (start : Nat) (s : State) : frameItems false start 1 s = [windowItem s start 0] := rfl

/-- A frame of one word that goes to the hub: the word is queued behind the posted ones, or discarded where they are 1,024. -/
theorem writeFrame_one {addressed : Bool} {start a : Nat} {w : Word} {s : State} (hitem : frameItems addressed start 1 s = [.bar a]) :
    writeFrame addressed start [w] s = modSp (fun x => if x.queue.length < 1024 then { x with hold := none, queue := x.queue ++ [(a, w)] }
      else { x with hold := none, drop := true }) s := by
  have hframe : frameItems addressed start [w].length s = [.bar a] := hitem
  rw [writeFrame, hframe]
  show spPost a w (modSp (fun x => { x with hold := none }) s) = _
  rfl

theorem modSp_congr {f g : SpSt → SpSt} {s : State} (h : f s.sp = g s.sp) : modSp f s = modSp g s := by rw [modSp, modSp, h]

theorem writeFrame_queues {addressed : Bool} {start a : Nat} {w : Word} {s : State} (hitem : frameItems addressed start 1 s = [.bar a])
    (hroom : s.sp.queue.length < 1024) :
    writeFrame addressed start [w] s = modSp (fun x => { x with hold := none, queue := x.queue ++ [(a, w)] }) s :=
  (writeFrame_one hitem).trans (modSp_congr (if_pos hroom))

theorem writeFrame_drops {addressed : Bool} {start a : Nat} {w : Word} {s : State} (hitem : frameItems addressed start 1 s = [.bar a])
    (hfull : 1024 ≤ s.sp.queue.length) :
    writeFrame addressed start [w] s = modSp (fun x => { x with hold := none, drop := true }) s :=
  (writeFrame_one hitem).trans (modSp_congr (if_neg (Nat.not_lt.mpr hfull)))

/-- An addressed frame with a 32-bit address begins at it. -/
theorem frameItems_addressed {a : Word} {s : State} (hsize : 2 ≤ rdF s spFrameConfigR 2 1)
    (hitem : spItem (a.toNat / 4 * 4) = .bar (a.toNat / 4 * 4)) : frameItems true a.toNat 1 s = [.bar (a.toNat / 4 * 4)] := by
  have hstart : spStart s (BitVec.ofNat 32 a.toNat) = a.toNat / 4 * 4 := by
    rw [BitVec.ofNat_toNat, BitVec.setWidth_eq]
    simp (disch := omega) only [spStart, if_neg]
  rw [frameItems, hstart]
  exact congrArg (fun x => [x]) hitem

/-! ### Reads (R434, R438) -/

/-- A read of one word that comes in time. -/
theorem readFrame_one {start a : Nat} {w : Word} {e : Bool} {s t : State} (hitem : windowItem s start 0 = .bar a)
    (hheld : heldFrame s false start 1 = none) (hq : s.sp.queue = []) (hread : readWord .serial a true (putHold none s) = (some (w, e), t)) :
    readFrame false start 1 2048 s = emit (.serialOut (leBytes 4 w.toNat)) (if e then spBusErr t else t) := by
  have hqueue : (putHold none s).sp.queue.isEmpty = true := by rw [putHold, modSp, hq]; rfl
  have hword : readItem (.bar a) (decide (2048 ≤ 0)) {} (putHold none s) = (readGive w {}, if e then spBusErr t else t) := by
    simp only [readItem, hqueue, hread, Bool.not_true, Bool.false_eq_true, if_false, show decide (2048 ≤ 0) = false from rfl, Bool.or_self]
  have hitems : readItems 2048 (frameItems false start 1 s) 0 {} (putHold none s) = (readGive w {}, if e then spBusErr t else t) := by
    rw [frameItems_one, hitem]
    simp only [readItems, hword]
  simp only [readFrame, hheld, hitems]
  rfl

/-- The byte of the status read (R439), bit by bit. -/
theorem statusByte_bits : ∀ (x : Fin 16) (b4 b5 b6 b7 : Bool),
    (BitVec.ofNat 8 (x.val + 16 * b2n b4 + 32 * b2n b5 + 64 * b2n b6 + 128 * b2n b7)).toNat % 16 = x.val ∧
    (BitVec.ofNat 8 (x.val + 16 * b2n b4 + 32 * b2n b5 + 64 * b2n b6 + 128 * b2n b7)).getLsbD 4 = b4 ∧
    (BitVec.ofNat 8 (x.val + 16 * b2n b4 + 32 * b2n b5 + 64 * b2n b6 + 128 * b2n b7)).getLsbD 5 = b5 ∧
    (BitVec.ofNat 8 (x.val + 16 * b2n b4 + 32 * b2n b5 + 64 * b2n b6 + 128 * b2n b7)).getLsbD 6 = b6 ∧
    (BitVec.ofNat 8 (x.val + 16 * b2n b4 + 32 * b2n b5 + 64 * b2n b6 + 128 * b2n b7)).getLsbD 7 = b7 := by
  decide +kernel

theorem rdF_lt (s : State) (a hi lo : Nat) : rdF s a hi lo < 2 ^ (hi + 1 - lo) := Nat.mod_lt _ (Nat.two_pow_pos _)

/-- A repeat of the held frame. -/
theorem heldFrame_repeats {s : State} {h : SpHold} {n : Nat} (hh : s.sp.hold = some h) (hn : n ≤ h.n) :
    heldFrame s h.addressed h.start n = some h := by
  rw [heldFrame, hh, Option.filter_some, beq_self_eq_true, beq_self_eq_true, decide_eq_true hn]
  rfl

theorem serialRetry_held {s : State} {h : SpHold} {n : Nat} (hm : s.mode = .running) (hh : s.sp.hold = some h) :
    serialRetry n s = readFrame h.addressed h.start n 2048 s := by
  rw [serialRetry, hh]
  exact if_pos hm

theorem serialRetry_none {s : State} {n : Nat} (hh : s.sp.hold = none) : serialRetry n s = s := by rw [serialRetry, hh]

theorem serialRetry_idle {s : State} {n : Nat} (hm : s.mode ≠ .running) : serialRetry n s = s := by
  unfold serialRetry
  split
  · rfl
  · exact if_neg hm

/-- A repeat whose reads have completed sends the held words. -/
theorem readFrame_held {s : State} {h : SpHold} {a : Nat} {w : Word} (hh : s.sp.hold = some h) (hwin : h.addressed = false)
    (htodo : h.todo = []) (hn : 1 ≤ h.n) (hwords : h.words = [w]) (hitem : windowItem s h.start 0 = .bar a) :
    readFrame h.addressed h.start 1 2048 s = emit (.serialOut (leBytes 4 w.toNat)) (modSp (fun x => { x with hold := none }) s) := by
  have hheld := heldFrame_repeats hh hn
  have hretry : retryItems [.bar a] [w] {} (putHold none s) = (readGive w {}, putHold none s) := rfl
  rw [hwin] at hheld ⊢
  simp only [readFrame, hheld, htodo, List.isEmpty_nil, if_true, frameItems_one, hitem, hwords, hretry]
  rfl

/-- A repeat that comes too early finds no data. -/
theorem readFrame_early {s u : State} {h : SpHold} {n : Nat} {b : List Byte} (hh : s.sp.hold = some h) (htodo : h.todo ≠ []) (hn : n ≤ h.n)
    (hb : (b, u) = freeWords n s) : readFrame h.addressed h.start n 2048 s = emit (.serialOut b) (spLate u) := by
  have hheld := heldFrame_repeats hh hn
  have hempty : h.todo.isEmpty = false := List.isEmpty_eq_false_iff.mpr htodo
  have hlen : (frameItems h.addressed h.start n s).length = n := by rw [frameItems, List.length_map, List.length_range]
  simp only [readFrame, hheld, hempty, Bool.false_eq_true, if_false, hlen, ← hb]

/-- The next late read, after the writes queued before it. -/
theorem heldReadDone_reads {s t : State} {h : SpHold} {a : Nat} {q : List Nat} {w : Word} {e : Bool} (hm : s.mode = .running)
    (hh : s.sp.hold = some h) (htodo : h.todo = a :: q) (hq : s.sp.queue = []) (hread : readWord .serial a true s = (some (w, e), t)) :
    heldReadDone s = holdWord w e t := by
  have hnext : s.sp.hold.bind (fun h => h.todo.head?) = some a := by rw [hh, Option.bind_some, htodo]; rfl
  simp only [heldReadDone, hnext, hm, hq, List.isEmpty_nil, ne_eq, not_true_eq_false, Bool.true_eq_false, or_self, if_false, hread]

theorem heldReadDone_waits {s : State} (h : s.sp.hold = none ∨ s.sp.queue ≠ []) : heldReadDone s = s := by
  unfold heldReadDone
  rcases h with h | h
  · rw [h]; rfl
  · split
    · rfl
    · exact if_pos (.inr (List.isEmpty_eq_false_iff.mpr h))

/-! ### Posted writes (R440) -/

/-- A served write of one word has completed. -/
theorem writeWord_done {v : View} {a : Nat} {i : RegInfo} {w diff : Word} {step : BitVec 16} {s : State} (h : writes v a i s = true) :
    (writeWord v a w true step diff s).1 = true := by
  simp only [writes, Bool.and_eq_true, beq_iff_eq] at h
  obtain ⟨⟨⟨⟨⟨hr, hv⟩, ha⟩, -⟩, -⟩, -⟩ := h
  simp only [writeWord, hr, ha, hv, Bool.not_true, Bool.false_eq_true, if_false, bne_self_eq_false, Bool.or_self]

theorem writeWord_fails {v : View} {a c : Nat} {w diff : Word} {step : BitVec 16} {s : State} (ha : a % 4 = 0) (hr : reaches s v a = true)
    (hv : verdict s v a true = .fail c) : writeWord v a w true step diff s =
      (true, accessDone v a false (accessFails v a c true (stallOver v a true s))) := by
  simp only [writeWord, hr, ha, hv, Bool.not_true, Bool.false_eq_true, if_false, bne_self_eq_false, Bool.or_self]

theorem writeWord_stalls {v : View} {a : Nat} {w diff : Word} {step : BitVec 16} {s : State} (ha : a % 4 = 0) (hr : reaches s v a = true)
    (hv : verdict s v a true = .stall) : writeWord v a w true step diff s = (false, stalled v a true s) := by
  simp only [writeWord, hr, ha, hv, Bool.not_true, Bool.false_eq_true, if_false, bne_self_eq_false, Bool.or_self]

/-- The oldest posted write, of any register but REF_SEL: it leaves the queue unless it has not completed. -/
theorem writePosted_eq {s u t : State} {a : Nat} {w : Word} {q : List (Nat × Word)} {done : Bool} (hm : s.mode = .running)
    (hq : s.sp.queue = (a, w) :: q) (hu : u = modSp (fun y => { y with queue := q }) s) (ha : a ≠ refSelR)
    (hw : writeWord .serial a w true 0 0 u = (done, t)) :
    writePosted s = if done && !(a == bcfgCtlR && bcfgPends w s) then t else modSp (fun y => { y with queue := (a, w) :: q }) t := by
  subst hu
  have hw' : writeWord .serial a w true ((0 : BitVec 64).setWidth 16) (((0 : BitVec 64) >>> 16).setWidth 32)
      (modSp (fun y => { y with queue := q }) s) = (done, t) := hw
  simp only [writePosted, hq, hm, ne_eq, not_true_eq_false, if_false, if_neg ha, hw']

/-! ### Stalled accesses (R394, R438) -/

theorem accessTimeout_other {v : View} {a : Nat} {b : Bool} {s : State} (hv : v ≠ .serial) : accessTimeout v a b s = stallTimeout v a b s :=
  if_neg hv

theorem accessTimeout_over {v : View} {a : Nat} {b : Bool} {s : State} (h : verdict s v a b ≠ .stall) : accessTimeout v a b s = s := by
  by_cases hv : v = .serial
  · subst hv
    exact (if_pos rfl).trans (if_pos (.inl h))
  · have hover : ¬ (reaches s v a && verdict s v a b == .stall) = true := by simp [h]
    exact (if_neg hv).trans (if_neg hover)

theorem stallTimeout_read {v : View} {a : Nat} {s u : State} (hr : reaches s v a = true) (hv : verdict s v a false = .stall)
    (hu : u = if v = .pcie then aerNote 15 a false s else s) : stallTimeout v a false s =
      emit (.readData v allOnes true) (accessDone v a true (accessError v a 0xA false (stallOver v a false u))) := by
  subst hu
  simp only [stallTimeout, hr, hv, beq_self_eq_true, Bool.and_self, if_true, and_true, Bool.not_false, Bool.false_eq_true, if_false]

theorem stallTimeout_write {v : View} {a : Nat} {s : State} (hr : reaches s v a = true) (hv : verdict s v a true = .stall) :
    stallTimeout v a true s = accessDone v a false (accessError v a 0xA true (stallOver v a true s)) := by
  simp only [stallTimeout, hr, hv, beq_self_eq_true, Bool.and_self, if_true, Bool.true_eq_false, and_false, Bool.not_true, if_false]

/-! ### Board setup (R512) -/

/-- A bit above the key leaves the key. -/
theorem bcfgKey_bitPut {w : Word} {i : Nat} {b : Bool} (hlo : 16 ≤ i) (hhi : i < 32) : bcfgKey (bitPut w i b) = bcfgKey w := by
  have hkey : ∀ x : Word, fieldGet x 15 0 = (x.setWidth 16).toNat := by
    intro x
    rw [fieldGet, bitsOf, Nat.pow_zero, Nat.div_one, BitVec.toNat_setWidth]
  have hlow : (bitPut w i b).setWidth 16 = w.setWidth 16 := by
    ext j hj
    have hbit : (bitPut w i b).getLsbD j = w.getLsbD j := (bitGet_bitPut hhi).trans (if_neg (by omega))
    rw [BitVec.getElem_setWidth, BitVec.getElem_setWidth, hbit]
  rw [bcfgKey, hkey, hlow, ← hkey, bcfgKey]

theorem busWrite_bcfgCtl {w : Word} {i : RegInfo} {s : State} (h : writes .serial bcfgCtlR i s = true) :
    busWrite .serial bcfgCtlR w s = bcfgCtlWrite w (served .serial bcfgCtlR true s) :=
  busWrite_hub h (by decide) (by decide) (by decide) (by decide)

theorem busWrite_bcfgData {w : Word} {i : RegInfo} {s : State} (h : writes .serial bcfgDataR i s = true) :
    busWrite .serial bcfgDataR w s = bcfgWrite w (served .serial bcfgDataR true s) :=
  busWrite_hub h (by decide) (by decide) (by decide) (by decide)

theorem exec_bcfgSetup {w : Word} {i : RegInfo} {s : State} (h : writes .serial bcfgCtlR i s = true) (hcommit : bitGet w 17 = false) :
    exec (.bcfgSetup w) s = .next (bcfgSetup (bitPut w 16 true) (served .serial bcfgCtlR true s)) := by
  refine next_eq ((busWrite_bcfgCtl h).trans ?_)
  have h16 : bitGet (bitPut w 16 true) 16 = true := (bitGet_bitPut (by decide)).trans (if_pos rfl)
  have h17 : bitGet (bitPut w 16 true) 17 = false := (bitGet_bitPut (by decide)).trans hcommit
  simp only [bcfgCtlWrite, h16, h17, if_true, Bool.false_eq_true, if_false]

theorem exec_bcfgCommit {w : Word} {i : RegInfo} {s : State} (h : writes .serial bcfgCtlR i s = true) :
    exec (.bcfgCommit w) s = .next (bcfgCommit (bitPut (bitPut w 16 false) 17 true) (served .serial bcfgCtlR true s)) := by
  refine next_eq ((busWrite_bcfgCtl h).trans ?_)
  have h16 : bitGet (bitPut (bitPut w 16 false) 17 true) 16 = false :=
    (bitGet_bitPut (by decide)).trans ((bitGet_bitPut (by decide)).trans (if_pos rfl))
  have h17 : bitGet (bitPut (bitPut w 16 false) 17 true) 17 = true := (bitGet_bitPut (by decide)).trans (if_pos rfl)
  simp only [bcfgCtlWrite, h16, h17, if_true, Bool.false_eq_true, if_false]

theorem bcfgCommit_key (w : Word) : bcfgKey (bitPut (bitPut w 16 false) 17 true) = bcfgKey w :=
  (bcfgKey_bitPut (by decide) (by decide)).trans (bcfgKey_bitPut (by decide) (by decide))

/-- A commit with the key of a staging copy. -/
theorem bcfgCommit_staged {w : Word} {u : State} {r : List Byte} (hkey : bcfgKey w = true) (hr : u.bcfg = some r) :
    bcfgCommit w u =
      if recordOk r = false ∨ domState u 79 = 4 ∨ rdB u clkEnR 4 = false ∨ rdB u fwStateR 4 = true then wrB bcfgCtlR 20 true u
      else if commitWaits u then (if domRuns u 79 then u else beginWake 79 u)
      else wrF bcfgCtlR 20 18 (2 * rdF u bcfgCtlR 19 19) { u with mram := putBytes0 u.mram recordBase r, bcfg := none } := by
  simp only [bcfgCommit, hkey, hr, Bool.not_true, Bool.false_eq_true, if_false]

/-- Nothing makes the commit of a good staging copy impossible. -/
theorem commit_possible {u : State} {r : List Byte} (hok : recordOk r = true) (hdom : domState u 79 ≠ 4) (hclk : rdB u clkEnR 4 = true)
    (hsup : rdB u fwStateR 4 = false) :
    ¬ (recordOk r = false ∨ domState u 79 = 4 ∨ rdB u clkEnR 4 = false ∨ rdB u fwStateR 4 = true) := by
  simp [hok, hdom, hclk, hsup]

/-- Settles O35: frames by what each kind of frame does, the rest by the function of its row. -/
theorem serialRows : Obligations.SerialRows := by
  refine ⟨fun i n late s hm => next_eq (spFrame_windowedRead hm), fun i s t a w e hm hitem hheld hq hread => next_eq ?_,
    fun i ws s hm => next_eq (spFrame_windowedWrite hm), fun i s a w hm hitem hroom => next_eq ?_,
    fun i s a w hm hitem hfull => next_eq ?_, fun a w s hm hsize hroom hitem => next_eq ?_,
    fun a ws n late s hm => next_eq (spFrame_addressedWrite hm), fun a n late s hm => next_eq (spFrame_addressedRead hm),
    fun r a ws n late s hr => next_eq ?_, fun s hm => ?_, fun s h n hm hh => next_eq (serialRetry_held hm hh),
    fun s h a w hm hh hwin htodo hn hwords hitem => next_eq ?_, fun s u h n b hm hh htodo hn hb => next_eq ?_,
    fun s n hh => next_eq (serialRetry_none hh), fun i s a w hm hitem hroom => next_eq ?_,
    fun i z a n late ws s => ⟨rfl, rfl, rfl, rfl, rfl⟩, fun i z a n late w ws s hm => ⟨next_eq (spFrame_idle hm), next_eq (spFrame_idle hm),
      next_eq (spFrame_idle hm), next_eq (spFrame_idle hm), next_eq (serialRetry_idle hm)⟩,
    fun s t h a q w e hm hh htodo hq hread => next_eq (heldReadDone_reads hm hh htodo hq hread),
    fun s t h a q w hm hh htodo hq hread => next_eq (heldReadDone_reads hm hh htodo hq hread),
    fun s h => next_eq (heldReadDone_waits h), fun s u v t a w x q i hm hq hu ha hpend hw hv hx => next_eq ?_,
    fun s u a c w q hm hq hu ha hctl h4 hr hv => next_eq ?_, fun s u a w q hm hq hu ha h4 hr hv => next_eq ?_,
    fun s hq => next_eq ?_, fun v a s u hv hr hstall hu => next_eq ((accessTimeout_other hv).trans (stallTimeout_read hr hstall hu)),
    fun v a s hv hr hstall => next_eq ((accessTimeout_other hv).trans (stallTimeout_write hr hstall)),
    fun v a b s h => next_eq (accessTimeout_over h), fun a s u w q hm hq hstall hu => next_eq ?_,
    fun a s h q hm hh htodo hstall => next_eq ?_, fun w i s u h hu hcommit => ?_, fun w i s u r h hu hkey hr hok hdom hclk hsup hwait => ?_,
    fun w i s u r h hu hkey hr hok hdom hclk hsup hwait => ?_, fun w i s u r h hu hkey hr hbad => ?_, fun w i s u h hu hno => ?_,
    fun w i s u r h hu hr => next_eq ?_, fun w i s u h hu hr => next_eq ?_, fun s h => next_eq ?_⟩
  · exact (spFrame_windowedRead hm).trans (readFrame_one hitem hheld hq hread)
  · exact (spFrame_windowedWrite hm).trans (writeFrame_queues (congrArg (fun x => [x]) hitem) hroom)
  · exact (spFrame_windowedWrite hm).trans (writeFrame_drops (congrArg (fun x => [x]) hitem) hfull)
  · exact (spFrame_addressedWrite hm).trans (writeFrame_queues (frameItems_addressed hsize hitem) hroom)
  · cases ws with
    | some ws => exact spFrame_reserved hr (.inl ⟨ws, rfl⟩)
    | none => exact spFrame_reserved hr (.inr ⟨n, late, rfl⟩)
  · exact ⟨_, _, next_eq (if_neg (not_not_intro hm)), rfl, statusByte_bits ⟨_, rdF_lt s spStatusR 3 0⟩ (rdB s mailboxCtlR 2) (irqAsserted s)
      (spReady s) s.sp.drop⟩
  · exact (serialRetry_held hm hh).trans (readFrame_held hh hwin htodo hn hwords hitem)
  · exact (serialRetry_held hm hh).trans (readFrame_early hh htodo hn hb)
  · exact (spFrame_windowedWrite hm).trans (writeFrame_queues (congrArg (fun x => [x]) hitem) hroom)
  · have hkeep : (a == bcfgCtlR && bcfgPends w s) = false := by
      by_cases hctl : a = bcfgCtlR
      · rw [hpend hctl, Bool.and_false]
      · rw [beq_eq_false_iff_ne.mpr hctl, Bool.false_and]
    rw [writePosted_eq hm hq hu ha (Prod.ext (writeWord_done hw) rfl), hkeep]
    exact writeWord_writes (k := (x, t)) hw hv hx
  · rw [writePosted_eq hm hq hu ha (writeWord_fails h4 hr hv), beq_eq_false_iff_ne.mpr hctl]
    rfl
  · rw [writePosted_eq hm hq hu ha (writeWord_stalls h4 hr hv)]
    rfl
  · rw [writePosted, hq]
  · have hfront : s.sp.queue.head?.any (fun e => e.1 == a.toNat) = true := by rw [hq]; exact beq_self_eq_true _
    have hrest : modSp (fun x => { x with queue := x.queue.drop 1 }) s = u := by rw [hu, modSp, modSp, hq]; rfl
    rw [accessTimeout, if_pos rfl, serialStallTimeout, if_neg (by simp [hstall, hm]), if_pos rfl, hfront, if_pos rfl, hrest]
    rfl
  · have hnext : s.sp.hold.bind (fun h => h.todo.head?) = some a.toNat := by rw [hh, Option.bind_some, htodo]; rfl
    rw [accessTimeout, if_pos rfl, serialStallTimeout, if_neg (by simp [hstall, hm]), if_neg Bool.false_ne_true, if_pos hnext]
    rfl
  · rw [exec_bcfgSetup h hcommit, ← hu]
    refine next_eq ?_
    rw [bcfgSetup, bcfgKey_bitPut (by decide) (by decide)]
    cases bcfgKey w <;> rfl
  · rw [exec_bcfgCommit h, ← hu, bcfgCommit_staged ((bcfgCommit_key w).trans hkey) hr, if_neg (commit_possible hok hdom hclk hsup), hwait,
      if_neg Bool.false_ne_true]
  · rw [exec_bcfgCommit h, ← hu, bcfgCommit_staged ((bcfgCommit_key w).trans hkey) hr, if_neg (commit_possible hok hdom hclk hsup), hwait,
      if_pos rfl]
  · rw [exec_bcfgCommit h, ← hu, bcfgCommit_staged ((bcfgCommit_key w).trans hkey) hr, if_pos hbad]
  · rw [exec_bcfgCommit h, ← hu]
    refine next_eq ?_
    rw [bcfgCommit, bcfgCommit_key]
    cases hkey : bcfgKey w with
    | false => rfl
    | true =>
      have hnone : u.bcfg = none := hno.resolve_left (by rw [hkey]; decide)
      simp only [hnone, Bool.not_true, Bool.false_eq_true, if_false, if_true]
  · subst hu
    refine (busWrite_bcfgData h).trans ?_
    rw [bcfgWrite, hr]
  · subst hu
    refine (busWrite_bcfgData h).trans ?_
    rw [bcfgWrite, hr]
  · refine (busRead_served h).trans ?_
    show emit (.readData .serial (bcfgRead s).1 false) (served .serial bcfgDataR false (bcfgRead s).2) = _
    rw [bcfgRead]
    cases s.bcfg <;> rfl

end Sys2Proof.Proofs
end

section
/-! ### The PCIe function (R425 to R431) -/

namespace Sys2Proof.Proofs

open Sys2Proof Sys2Proof.Machine Sys2Proof.Laws

/-- What a FUNCTION reset of kind 3 does first: PERST_N falls. -/
def pinFall (k : BitVec 2) (s : State) : State :=
  modPcie (fun p => if k = 3 then { p with perstN := false, ready := false, waitFrom := none } else p) s

/-- What a FUNCTION reset of kind 2 or 3 does last: the link is down. -/
def linkFall (k : BitVec 2) (s : State) : State :=
  modPcie (fun p => if 2 ≤ k then { p with linkUp := false, aspmL1 := false } else p) s

theorem pinFall_perst (s : State) :
    pinFall 3 s = modPcie (fun p => { p with perstN := false, ready := false, waitFrom := none }) s := rfl

theorem pinFall_other {k : BitVec 2} (hk : k ≠ 3) (s : State) : pinFall k s = s := by
  simp only [pinFall, if_neg hk]
  rfl

theorem linkFall_low {k : BitVec 2} (hk : k.toNat < 2) (s : State) : linkFall k s = s := by
  have hk2 : ¬ 2 ≤ k := fun h => absurd (BitVec.le_def.mp h) (Nat.not_le.mpr hk)
  simp only [linkFall, if_neg hk2]
  rfl

theorem linkFall_high {k : BitVec 2} (hk : 2 ≤ k) (s : State) :
    linkFall k s = modPcie (fun p => { p with linkUp := false, aspmL1 := false }) s := by
  simp only [linkFall, if_pos hk]

/-- R425: a FUNCTION reset while the device runs, its PERST_N form first noting the pin. -/
theorem functionReset_running {k : BitVec 2} {s : State} (hm : s.mode = .running) :
    functionReset k s = unitResetEvent 3 unitDev
      (linkFall k (configReset (functionStop (pinFall k s)))) :=
  if_neg (not_not_intro hm)

/-- What a FUNCTION reset leaves of configuration space and MSI-X. -/
theorem functionReset_pcie {k : BitVec 2} {s : State} (hm : s.mode = .running) :
    (functionReset k s).pcie.memSpace = false ∧ (functionReset k s).pcie.busMaster = false ∧ (functionReset k s).pcie.msixEnable = false ∧
      (functionReset k s).pcie.unmasked = [] ∧ (functionReset k s).pcie.pba = [] ∧ (functionReset k s).pcie.d3hot = false ∧
      (functionReset k s).pcie.bars = [] := by
  rw [functionReset_running hm, unitResetEvent, raise_pcie]
  simp only [linkFall, modPcie, configReset]
  split <;> exact ⟨rfl, rfl, rfl, rfl, rfl, rfl, rfl⟩

theorem unsupported_pcie {a : Nat} {write : Bool} {s : State} (hm : s.mode = .running) :
    unsupported .pcie a write s = emit .unsupported (aerNote 20 a write s) := by
  rw [unsupported, if_pos ⟨rfl, hm⟩]
  exact if_pos ⟨rfl, hm⟩

/-- R430: a configuration request of a device that runs with its port out of PERST_N. -/
theorem configRequest_eq {r : CfgReq} {s : State} (hm : s.mode = .running) (hp : s.pcie.perstN = true) :
    configRequest r s = (if (nowReady (modPcie (fun p => { p with linkUp := true }) s)).1
      then cfgServe r (modPcie (fun p => { p with ready := true, waitFrom := none }) (nowReady (modPcie (fun p => { p with linkUp := true }) s)).2)
      else emit .cfgRetry (nowReady (modPcie (fun p => { p with linkUp := true }) s)).2) := by
  rw [configRequest, if_neg]
  · rw [hm, hp]
    decide

theorem configRequest_ready {r : CfgReq} {s : State} (hm : s.mode = .running) (hp : s.pcie.perstN = true) (hr : s.pcie.ready = true)
    (hw : s.pcie.waitFrom = none) :
    configRequest r s = cfgServe r (modPcie (fun p => { p with linkUp := true }) s) := by
  rw [configRequest_eq hm hp]
  have hnow : nowReady (modPcie (fun p => { p with linkUp := true }) s) = (true, modPcie (fun p => { p with linkUp := true }) s) := by
    simp only [nowReady, modPcie, hw, hr]
  rw [hnow, if_pos rfl]
  congr 1
  simp only [modPcie, ← hr, ← hw]

theorem busWrite_unreached {v : View} {a : Nat} {w : Word} {s : State} (hr : reaches s v a = false) (hne : a ≠ refSelR) :
    busWrite v a w s = unsupported v a true s := by
  rw [busWrite, if_neg hne, writeWord, hr, Bool.not_false, if_pos rfl]

theorem busRead_unreached {v : View} {a : Nat} {s : State} (hr : reaches s v a = false) : busRead v a true s = unsupported v a false s := by
  rw [busRead, hr, Bool.not_false, if_pos rfl]

/-- Settles O36: the functions of the PCIe function clause by clause; inbound requests are accesses of the PCIe view. -/
theorem pcieRows : Obligations.PcieRows := by
  refine ⟨fun k s hm hk => next_eq ?_, fun s hm => next_eq ?_, fun s u hm hu => next_eq ?_,
    fun k s hm => next_eq ?_, fun k s hm => ⟨_, next_eq rfl, functionReset_pcie hm⟩, fun s hm hd => next_eq ?_,
    fun s hd => next_eq (if_pos (.inr hd)), fun s hm => next_eq (if_neg (not_not_intro hm)), fun b s hm => next_eq (if_pos hm),
    fun v s hm => next_eq (if_pos hm), fun s hm => next_eq (if_pos hm), fun p a x s u h hx => next_eq ?_,
    fun w x a i s u t h hne hu hx => next_eq (busWrite_writes (k := (x, t)) h hu hx hne), fun w a s hr => next_eq ?_,
    fun w p s hm => next_eq ?_, fun w a p s hm hr hne => next_eq ?_, fun r s u hm hp hn => next_eq ?_,
    fun r s u hm hp hn => next_eq ?_, fun r s hp => next_eq (if_pos (.inr hp)), fun b m s hm hp hr hw => next_eq (configRequest_ready hm hp hr hw),
    fun hi s hm hp hr hw => next_eq ((configRequest_ready hm hp hr hw).trans ?_), fun e m s hm hp hr hw => next_eq (configRequest_ready hm hp hr hw),
    fun s hp => next_eq ?_, fun s hp => next_eq (if_pos hp), fun s hm hp => next_eq (if_pos ⟨hm, hp⟩), fun s hp => next_eq ?_,
    fun s => next_eq rfl⟩
  · rw [functionReset_running hm, linkFall_low hk, pinFall_other fun h => absurd hk (by rw [h]; decide)]
  · rw [functionReset_running hm, pinFall_other (by decide), linkFall_high (by decide)]
  · rw [hu, functionReset_running hm, linkFall_high (by decide), pinFall_perst]
  · refine Eq.trans (b := pinFall k s) (if_pos hm) ?_
    by_cases hk : k = 3
    · rw [if_pos hk, hk, pinFall_perst]
    · rw [if_neg hk, pinFall_other hk]
  · exact if_neg (by rw [hm, hd]; decide)
  · show busRead .pcie a.toNat true s = _
    rw [busRead_served h, ← hx]
  · show (if true && reaches s .pcie a.toNat then _ else _) = _
    rw [hr]
    rfl
  · rw [inboundRequest, unsupported_pcie hm]
  · show inboundRequest w (some a) p s = _
    cases w with
    | none => exact (busRead_unreached hr).trans (unsupported_pcie hm)
    | some w =>
      show (if p && reaches s .pcie a.toNat then _ else busWrite .pcie a.toNat w s) = _
      rw [hr, Bool.and_false, if_neg Bool.false_ne_true]
      exact (busWrite_unreached hr hne).trans (unsupported_pcie hm)
  · rw [configRequest_eq hm hp, hn, if_pos rfl]
  · rw [configRequest_eq hm hp, hn, if_neg Bool.false_ne_true]
  · cases hi <;> rfl
  · rw [perstDeassert, hp, if_neg Bool.false_ne_true]
    rfl
  · exact if_neg (by rw [hp]; exact fun h => absurd h.2 (by decide))

end Sys2Proof.Proofs
end

section
/-! ### Resets of the whole device, and the boot -/

namespace Sys2Proof.Proofs

open Sys2Proof Sys2Proof.Machine Sys2Proof.Laws

/-! #### What the boot does leaves the device's mode -/

/-- The hypothesis names the state after a step, so that the kernel compares states and never unfolds a projection of one. -/
theorem each_mode {l : List Nat} {f : Nat → State → State} (h : ∀ s n t, t = f n s → t.mode = s.mode) (s : State) :
    (each l f s).mode = s.mode := each_fixes State.mode fun s n _ => h s n _ rfl

@[simp] theorem draw_mode (k : Nat) (s : State) : (draw k s).2.mode = s.mode := rfl

theorem EngineOnly.mode {s t : State} (h : EngineOnly s t) : t.mode = s.mode := by
  obtain ⟨_, _, _, _, _, _, rfl⟩ := h; rfl

@[simp] theorem finish_mode (f : InFlight) (st : Nat) (r : List Byte) (s : State) : (finish f st r s).mode = s.mode :=
  (engineOnly_finish f st r s).mode

@[simp] theorem complete_mode (e st : Nat) (r : List Byte) (s : State) : (complete e st r s).mode = s.mode :=
  (engineOnly_complete e st r s).mode

@[simp] theorem chainRestart_mode (s : State) : (chainRestart s).mode = s.mode := by
  unfold chainRestart
  extract_lets m s1 s2 s3
  have h1 : s1.mode = s.mode := by
    simp only [s1]
    split <;> simp
  have h2 : s2.mode = s1.mode := foldl_fixes State.mode _ s1 fun s f _ => finish_mode f _ _ s
  rw [wr_mode, modChain_mode, h2, h1]

@[simp] theorem setMon_mode (src d : Nat) (dev : Word) (s : State) : (setMon src d dev s).mode = s.mode := by
  rw [setMon]
  dsimp only
  rw [raise_mode]
  split
  · split <;> simp
  · simp

@[simp] theorem monPass_mode (src : Nat) (dev : Word) (s : State) : (monPass src dev s).mode = s.mode := by
  unfold monPass
  split <;> simp

@[simp] theorem muxSwitch_mode (m i o n : Nat) (s : State) : (muxSwitch m i o n s).mode = s.mode := by
  unfold muxSwitch
  split
  · rfl
  · unfold muxSet
    split
    · simp
    · simp
    · simp
    · simp
    · split <;> simp
    · rfl

@[simp] theorem lineMux_mode (l : Nat) (s : State) : (lineMux l s).mode = s.mode := by
  unfold lineMux
  split
  · simp
  · split <;> simp

@[simp] theorem rootSelect_mode (src : Nat) (s : State) : (rootSelect src s).mode = s.mode := by
  unfold rootSelect
  extract_lets s1 s2
  show s1.mode = _
  simp only [s1]
  split <;> simp

@[simp] theorem storeRootWord_mode (src : Nat) (s : State) : (storeRootWord src s).mode = s.mode := by
  unfold storeRootWord
  split <;> simp

@[simp] theorem verifyBank_mode (b c : Nat) (s : State) : (verifyBank b c s).2.mode = s.mode := by
  unfold verifyBank
  extract_lets ty code
  split <;> simp

@[simp] theorem tryBank_mode (b c : Nat) (s : State) : (tryBank b c s).2.mode = s.mode := by
  unfold tryBank
  split
  · rfl
  · exact verifyBank_mode b c s

@[simp] theorem chooseBank_mode (ty : Nat) (c : Nat → Nat) (s : State) : (chooseBank ty c s).2.mode = s.mode := by
  have hfirst := tryBank_mode (activeBank s ty) (c (activeBank s ty)) s
  simp only [chooseBank]
  split
  · exact hfirst
  · have hsecond := tryBank_mode (stagingBank (tryBank (activeBank s ty) (c (activeBank s ty)) s).2 ty)
      (c (stagingBank (tryBank (activeBank s ty) (c (activeBank s ty)) s).2 ty)) (tryBank (activeBank s ty) (c (activeBank s ty)) s).2
    split <;> simp

@[simp] theorem imageRuns_mode (ty b : Nat) (s : State) : (imageRuns ty b s).mode = s.mode := modFw_mode _ s

@[simp] theorem bootPatch_mode (c : Nat → Nat) (s : State) : (bootPatch c s).mode = s.mode := by
  have hbank := chooseBank_mode 1 c s
  rw [bootPatch]
  generalize chooseBank 1 c s = r at hbank ⊢
  obtain ⟨_ | b, u⟩ := r
  · dsimp only at hbank ⊢
    rw [wrB_mode, modFw_mode, draw_mode, hbank]
  · dsimp only at hbank ⊢
    rw [imageRuns_mode, hbank]

@[simp] theorem pairsToSyn_mode (p : Nat) (s : State) : (pairsToSyn p s).mode = s.mode := by
  unfold pairsToSyn
  exact each_mode (fun s l t (ht : t = lineMux l (wrB (pairBase l) 2 true s)) => by rw [ht, lineMux_mode, wrB_mode]) s

@[simp] theorem bootOperator_mode (c : Nat → Nat) (s : State) : (bootOperator c s).mode = s.mode := by
  have hbank := chooseBank_mode 0 c s
  rw [bootOperator]
  generalize chooseBank 0 c s = r at hbank ⊢
  obtain ⟨_ | b, u⟩ := r
  · dsimp only at hbank ⊢
    rw [wrB_mode, hbank]
  · have hpairs : (each (List.range 64) pairsToSyn (imageRuns 0 b u)).mode = u.mode := by
      rw [each_mode fun s p t ht => by rw [ht, pairsToSyn_mode], imageRuns_mode]
    dsimp only at hbank ⊢
    generalize each (List.range 64) pairsToSyn (imageRuns 0 b u) = v at hpairs ⊢
    split
    · rw [chainRestart_mode, hpairs, hbank]
    · rw [hpairs, hbank]

@[simp] theorem putImage_mode (a v : Nat) (s : State) : (putImage a v s).mode = s.mode := wr_mode _ _ s

@[simp] theorem applyBoard_mode (r : List Byte) (s : State) : (applyBoard r s).mode = s.mode := by
  unfold applyBoard
  rw [each_mode fun s t u (hu : u = putImage (synRefR (64 + t)) (leAt r (0x48 + 4 * t) 4) (putImage (tileClkEnR t) (leAt r 0x2C 1) s)) => by
    rw [hu, putImage_mode, putImage_mode]]
  simp only [wr_mode, wrF_mode, putImage_mode]

@[simp] theorem bootWithout_mode (s : State) : (bootWithout s).mode = s.mode := by
  unfold bootWithout
  rw [each_mode fun s t u (hu : u = wr (tileClkEnR t) 0xF s) => by rw [hu, wr_mode], wr_mode, wr_mode]

@[simp] theorem bootRoot_mode (r : List Byte) (s : State) : (bootRoot r s).mode = s.mode := by
  unfold bootRoot
  extract_lets src word s1 s2
  split
  · rfl
  · split
    · rw [rootSelect_mode, storeRootWord_mode]
    · exact storeRootWord_mode src s1

@[simp] theorem rackEnable_mode (i : Nat) (tag : Option Nat) (s : State) : (rackEnable i tag s).mode = s.mode := by
  simp [rackEnable, setRackState]

@[simp] theorem bootPll_mode (i : Nat) (s : State) : (bootPll i s).mode = s.mode := by
  unfold bootPll
  split <;> simp

@[simp] theorem applyRack_mode (r : List Byte) (s : State) : (applyRack r s).mode = s.mode := by
  unfold applyRack
  extract_lets s1 s2 s3 s4
  have h1 : s1.mode = s.mode := putImage_mode _ _ s
  have h2 : s2.mode = s1.mode := each_mode (fun s x t ht => by
    rw [ht]
    exact each_mode (fun s k u hu => by rw [hu, putImage_mode, putImage_mode]) s) s1
  have h3 : s3.mode = s2.mode := each_mode (fun s n t ht => by
    rw [ht, putImage_mode, putImage_mode, wrB_mode, putImage_mode]) s2
  have h4 : s4.mode = s3.mode := each_mode (fun s x t ht => by
    rw [ht]
    extract_lets v u
    have hu : u.mode = s.mode := wrF_mode _ _ _ _ s
    split
    · rw [bootPll_mode, hu]
    · exact hu) s3
  rw [wr_mode, h4, h3, h2, h1]

@[simp] theorem contIndex_mode (s : State) : (contIndex s).mode = s.mode :=
  foldl_fixes State.mode _ s fun s e _ => by
    split
    · rfl
    · exact raise_mode _ _ _ _

@[simp] theorem unitResetEvent_mode (k : Nat) (u : BitVec 16) (s : State) : (unitResetEvent k u s).mode = s.mode := raise_mode _ _ _ _

@[simp] theorem factoryHeaders_mode (l : List (List Byte)) (s : State) : (factoryHeaders l s).mode = s.mode :=
  each_mode (fun s b t ht => by
    rw [ht]
    split
    · rfl
    · exact modFw_mode _ s) s

/-! #### The boot -/

/-- R505: the end of the boot, once the root and the rack plan are applied: the function's identity, the operator image and the events. -/
def bootEnd (c : Nat → Nat) (ids : Word) (failed : BitVec 8) (v : State) : State :=
  let w := { v with pcie := { v.pcie with bootAt := some v.time, subsys := ids, waitFrom := if v.pcie.perstN then some v.time else none } }
  unitResetEvent (if rdF w devResetCauseR 2 0 = 1 then 1 else 2) unitDev
    (raise 0x0000 unitDev [BitVec.ofNat 8 (rdF w devResetCauseR 2 0), failed] (contIndex (bootOperator c w)))

theorem bootEnd_mode (c : Nat → Nat) (ids : Word) (failed : BitVec 8) (v : State) : (bootEnd c ids failed v).mode = v.mode := by
  rw [bootEnd]
  dsimp only
  rw [unitResetEvent_mode, raise_mode, contIndex_mode, bootOperator_mode]

/-- The state of a boot after the patch is chosen. -/
def bootStart (m : Bool) (x : List (List Byte × BitVec 3)) (s : State) : State :=
  bootPatch (fun b => (x.getD b ([], 0)).2.toNat)
    (factoryHeaders (x.map Prod.fst) (wrB devStrapsR 0 m (wrB clkRootSrcR 5 (s.badCores.contains 0) { s with mode := .running })))

theorem bootStart_mode (m : Bool) (x : List (List Byte × BitVec 3)) (s : State) : (bootStart m x s).mode = .running := by
  rw [bootStart, bootPatch_mode, factoryHeaders_mode, wrB_mode, wrB_mode]

theorem deviceBoot_record {m : Bool} {p : List (BitVec 4)} {x : List (List Byte × BitVec 3)} {s u : State} {r : List Byte}
    (hm : s.mode = .inReset) (hu : u = bootStart m x s) (hr : r = storedRecord u) (hok : recordOk r = true) :
    deviceBoot m p x s = bootEnd (fun b => (x.getD b ([], 0)).2.toNat) (BitVec.ofNat 32 (leAt r 8 4)) 0
      (applyRack r (bootRoot r (p.foldl (fun s y => monPass y.toNat 0 s) (wrB bcfgCtlR 19 true (applyBoard r u))))) := by
  rw [deviceBoot, if_neg (not_not_intro hm)]
  unfold bootStart at hu
  simp only [← hu, ← hr, hok, if_true]
  rfl

theorem deviceBoot_noRecord {m : Bool} {p : List (BitVec 4)} {x : List (List Byte × BitVec 3)} {s u : State}
    (hm : s.mode = .inReset) (hu : u = bootStart m x s) (hok : recordOk (storedRecord u) = false) :
    deviceBoot m p x s = bootEnd (fun b => (x.getD b ([], 0)).2.toNat) (Config.vendorId.setWidth 32 ||| 0x51200000) 1
      (p.foldl (fun s y => monPass y.toNat 0 s) (wrB bcfgCtlR 19 false (bootWithout u))) := by
  rw [deviceBoot, if_neg (not_not_intro hm)]
  unfold bootStart at hu
  simp only [← hu, hok, if_false, Bool.false_eq_true]
  rfl

/-- R505: after the boot the device runs. -/
theorem deviceBoot_mode {m : Bool} {p : List (BitVec 4)} {x : List (List Byte × BitVec 3)} {s : State} (hm : s.mode = .inReset) :
    (deviceBoot m p x s).mode = .running := by
  have hpass (u : State) : (p.foldl (fun s y => monPass y.toNat 0 s) u).mode = u.mode :=
    foldl_fixes State.mode p u fun s y _ => monPass_mode _ _ s
  cases hok : recordOk (storedRecord (bootStart m x s)) with
  | true => rw [deviceBoot_record hm rfl rfl hok, bootEnd_mode, applyRack_mode, bootRoot_mode, hpass, wrB_mode, applyBoard_mode, bootStart_mode]
  | false => rw [deviceBoot_noRecord hm rfl hok, bootEnd_mode, hpass, wrB_mode, bootWithout_mode, bootStart_mode]

theorem bootEnd_eq {c : Nat → Nat} {ids : Word} {failed : BitVec 8} {k : Nat} {v w : State}
    (hw : w = { v with pcie := { v.pcie with bootAt := some v.time, subsys := ids, waitFrom := if v.pcie.perstN then some v.time else none } })
    (hk : k = rdF w devResetCauseR 2 0) :
    bootEnd c ids failed v = unitResetEvent (if k = 1 then 1 else 2) unitDev
      (raise 0x0000 unitDev [BitVec.ofNat 8 k, failed] (contIndex (bootOperator c w))) := by
  rw [bootEnd, ← hw, hk]

/-- A field holds what was put into it. -/
theorem fieldGet_fieldPut {w : Word} {hi lo v : Nat} (hlo : lo ≤ hi) (hhi : hi < 32) (hv : v < 2 ^ (hi + 1 - lo)) :
    fieldGet (fieldPut w hi lo v) hi lo = v := by
  refine Nat.eq_of_testBit_eq fun i => ?_
  simp only [fieldGet, bitsOf, fieldPut, fieldMask, Nat.testBit_mod_two_pow, Nat.testBit_div_two_pow, BitVec.testBit_toNat,
    BitVec.getLsbD_or, BitVec.getLsbD_and, BitVec.getLsbD_not, BitVec.getLsbD_ofNat, Nat.mod_eq_of_lt hv, Nat.testBit_mul_two_pow,
    Nat.testBit_two_pow_sub_one]
  by_cases hi' : i < hi + 1 - lo
  · have h32 : i + lo < 32 := by omega
    simp [hi', h32]
  · have hbit : v.testBit i = false := Nat.testBit_lt_two_pow (Nat.lt_of_lt_of_le hv (Nat.pow_le_pow_right (by decide) (Nat.le_of_not_lt hi')))
    simp [hi', hbit]

/-! #### Resets -/

/-- R478: a reset of the device leaves every register at its reset value but for its cause and the bank selection. -/
theorem rd_resetDevice {m : DevMode} {c a : Nat} {s : State} (ha : a ≠ devResetCauseR) (hfw : a ≠ fwStateR) :
    rd (resetDevice m c s) a = regReset a := by
  rw [resetDevice, rd_wr_other _ _ ha, rd_wrF_other _ _ _ _ hfw]
  rfl

theorem resetDevice_bank (m : DevMode) (c : Nat) (s : State) : rdF (resetDevice m c s) fwStateR 1 0 = rdF s fwStateR 1 0 := by
  rw [resetDevice, rdF, rd_wr_other _ _ (by decide : fwStateR ≠ devResetCauseR), rd_wrF_same]
  exact fieldGet_fieldPut (by decide) (by decide) (rdF_lt s fwStateR 1 0)

/-- Settles O37: resets through what `resetDevice` leaves, the boot through `deviceBoot_record` and `deviceBoot_noRecord`. -/
theorem deviceResetAndBootRows : Obligations.DeviceResetAndBootRows := by
  refine ⟨fun s => ⟨rfl, rfl⟩, fun s => rfl, fun s => rfl, fun s => rfl, fun s => rfl,
    fun m c s hc => ⟨rfl, rfl, rfl, rfl, rfl, rfl, rd_wr_same .., fun a ha hfw => rd_resetDevice ha hfw, resetDevice_bank m c s⟩,
    fun m p x s hm => ⟨_, rfl, deviceBoot_mode hm⟩, fun m p x s u v w c r k hm hc hu hr hok hv hw hk => next_eq ?_,
    fun m p x s u v w c k hm hc hu hok hv hw hk => next_eq ?_, fun m p x s hm => next_eq (if_pos hm), fun s src hm hp hok => next_eq ?_,
    fun s hp => ⟨next_eq ?_, next_eq ?_⟩, fun s src hm hp => next_eq ?_, fun x s hm hb hin => next_eq (if_pos ⟨hm, hb, hin⟩),
    fun x s h => next_eq (if_neg ?_), fun t s hm => next_eq (if_neg (not_not_intro hm))⟩
  · subst hc
    rw [deviceBoot_record hm hu hr hok, ← hv, bootEnd_eq hw hk]
  · subst hc
    rw [deviceBoot_noRecord hm hu hok, ← hv, bootEnd_eq hw hk]
  · rw [pendingRootSwitch, hp]
    exact if_pos ⟨hm, hok⟩
  · rw [pendingRootSwitch, hp]
  · exact if_neg (by rw [hp]; exact fun h => absurd h.2 (by decide))
  · exact if_pos ⟨hm, by rw [hp]; rfl⟩
  · rintro ⟨-, hb, hin⟩
    rcases h with h | h
    · exact absurd (hb.symm.trans h) (by decide)
    · exact absurd (hin.symm.trans h) (by decide)

end Sys2Proof.Proofs
end

section
/-! ### Supply and temperature monitors, and power transitions (R302 to R315, R475, R476, R487) -/

namespace Sys2Proof.Proofs

open Sys2Proof Sys2Proof.Machine Sys2Proof.Laws

/-! #### Monitors -/

theorem all_range {n : Nat} {p : Nat → Bool} : (List.range n).all p = true ↔ ∀ k < n, p k = true := by
  simp only [List.all_eq_true, List.mem_range]

/-- R475: THERM_CLEAR with the readings stored. -/
theorem thermClear_eq {ts : List (BitVec 16)} {s u : State} (hm : s.mode = .running)
    (hu : u = each (List.range 98) (fun i s => match ts[i]? with
      | some t => setTemp i t s
      | none => s) s) :
    thermClear ts s = if rdB u thermStatusR 0 && (List.range 98).all
        (fun i => decide (tempOf u i < talert u - 16 * (rdF u thermCfgR 11 8 : Int)))
      then raise 0x0003 unitDev (thermData (hottest u) (tabGet 0 u.temps (hottest u))) (wrB thermStatusR 0 false u) else u := by
  unfold thermClear
  rw [if_neg (not_not_intro hm)]
  extract_lets v lim
  have hv : v = u := hu.symm
  rw [← hv]

/-- Settles O38: the rows of the monitors, by what each of their conditions says. -/
theorem monitorRows : Obligations.MonitorRows := by
  refine ⟨fun rail low s u hm hno hlow hu => next_eq ?_, fun rail low s h => next_eq ?_, fun rail low s u x hx hu hr => next_eq ?_,
    fun rail low s u x hx hu hr => next_eq ?_, fun rail low s hx => ⟨next_eq ?_, next_eq ?_⟩, fun s => next_eq ?_,
    fun rail low s u x hm h6 hx hlow hu => next_eq ?_, fun rail low s h => next_eq ?_, fun i t s u hm hi hu => next_eq ?_,
    fun ts s u hm hu hs hall => next_eq ?_, fun ts s u k hm hu hk h => next_eq ?_, fun i t s u hm hi hu ht hs => next_eq ?_,
    fun i t s u hm hi hu hs hall => next_eq ?_, fun i t s u k hm hi hu hk h => next_eq ?_⟩
  · rw [dipStart, if_neg (by simp [hm, hno, hlow]), ← hu]
  · exact if_pos (.inr h)
  · rw [dipRecovery, hx]
    dsimp only
    rw [← hu, hr, if_neg Bool.false_ne_true]
  · rw [dipRecovery, hx]
    dsimp only
    rw [← hu, hr, if_pos rfl]
  · rw [dipRecovery, hx]
  · rw [supplyLow, hx]
    exact ite_self s
  · rw [holdEnd]
    cases hd : s.dips <;> simp
  · have h6' : rail.toNat ≠ 6 := fun h => h6 (BitVec.eq_of_toNat_eq h)
    rw [supplyLow, if_neg (by simp [hm, h6', hlow]), hx]
    dsimp only
    rw [← hu]
  · exact if_pos (.inr (h.imp (fun h => by rw [h]; rfl) id))
  · rw [thermAlert, if_neg (by simp [hm]; omega), ← hu]
  · have hcool : (List.range 98).all (fun i => decide (tempOf u i < talert u - 16 * (rdF u thermCfgR 11 8 : Int))) = true :=
      all_range.mpr fun k hk => decide_eq_true (hall k hk)
    rw [thermClear_eq hm hu, hs, hcool, Bool.true_and, if_pos rfl]
  · rw [thermClear_eq hm hu]
    refine if_neg fun hc => ?_
    obtain ⟨hs, hall⟩ := (Bool.and_eq_true _ _).mp hc
    have hcool := of_decide_eq_true (all_range.mp hall k hk)
    exact h.elim (fun h => absurd (hs.symm.trans h) (by decide)) (fun h => absurd hcool (Int.not_lt.mpr h))
  · rw [thermCrit, if_neg (by simp [hm]; omega), ← hu, if_pos ⟨ht, hs⟩]
  · rw [thermCrit, if_neg (by simp [hm]; omega), ← hu, if_neg (by simp [hs]), hs, Bool.true_and,
      if_pos (all_range.mpr fun k hk => decide_eq_true (hall k hk))]
  · rw [thermCrit, if_neg (by simp [hm]; omega), ← hu]
    rcases h with ⟨ht, hs⟩ | ⟨hs, hhot⟩
    · rw [if_neg fun h => absurd h.1 (Int.not_le.mpr ht), hs, Bool.false_and, if_neg Bool.false_ne_true]
    · rw [if_neg (by simp [hs]), hs, Bool.true_and]
      exact if_neg fun hall => absurd (of_decide_eq_true (all_range.mp hall k hk)) (Int.not_lt.mpr hhot)

/-! #### Power transitions -/

/-- R302: what an idle timer that expires needs to start an entry. -/
theorem idleExpiry_enters {d st : Nat} {s : State} (hm : s.mode = .running) (hst : 1 ≤ st) (hauto : rdB s (domBase d) 3 = true)
    (ht : timerOf (rd s (domBase d + 8)) st ≠ 0) (hacc : accepts d st = true) (hlt : domState s d < st) (hidle : domIdle s d = true)
    (hsup : supHalted s = false) :
    idleExpiry d st s = (if refuserMask s d st ≠ 0 then refuse d (refuserMask s d st) none s else enter d st none s) := by
  rw [idleExpiry, if_pos ⟨hm, hst, hauto, ht, hacc, hlt, hidle⟩, tryEnter, hsup, if_neg Bool.false_ne_true]

/-- Settles O39: the rows of power transitions, by what each of their conditions says. -/
theorem powerRows : Obligations.PowerRows := by
  refine ⟨fun d st s hm hst hauto ht hacc hlt hidle hsup hmask => next_eq ?_, fun d st s m hm hst hauto ht hacc hlt hidle hsup hmask hne => next_eq ?_,
    fun d st s h => next_eq ?_, fun d s hm hb hg => next_eq (if_pos ⟨hm, hb, hg⟩), fun d s h => ⟨next_eq ?_, next_eq ?_⟩,
    fun d s u x hm hsup hb hx hg hu => next_eq ?_, fun d edge late s hm h => next_eq ?_, fun d s hm hb hg => ⟨next_eq ?_, next_eq ?_⟩,
    fun d s u v w x hm hsup hb hx hg hu hv hw => next_eq ?_, fun d s h => next_eq ?_,
    fun d s h => ⟨next_eq (if_pos (.inr (.inl h))), next_eq (if_pos (.inr (.inl h)))⟩, fun n s u x hx hu => next_eq ?_, fun n s hx => next_eq ?_⟩
  · rw [idleExpiry_enters hm hst hauto ht hacc hlt hidle hsup, if_neg (not_not_intro hmask)]
    rfl
  · rw [idleExpiry_enters hm hst hauto ht hacc hlt hidle hsup, ← hmask, if_pos hne]
    rfl
  · refine if_neg ?_
    rintro ⟨-, hst, hauto, ht, hacc, hlt, hidle⟩
    rcases h with h | h | h | h | h | h
    · rw [h] at hst
      exact absurd hst (by decide)
    · exact absurd (hauto.symm.trans h) (by decide)
    · exact ht h
    · exact absurd (hacc.symm.trans h) (by decide)
    · exact absurd hlt (Nat.not_lt.mpr h)
    · exact absurd (hidle.symm.trans h) (by decide)
  · refine if_neg ?_
    rintro ⟨-, hb, hg⟩
    exact h.elim (fun h => absurd (hb.symm.trans h) (by decide)) hg
  · exact if_pos (.inr (.inr h))
  · rw [entryComplete]
    dsimp only
    rw [← hx, if_neg (by simp [hm, hsup, hb, hg]), ← hu]
    split <;> rfl
  · rw [wakeRequest, if_neg (not_not_intro hm), if_neg]
    intro hc
    simp only [Bool.and_eq_true, bne_iff_ne] at hc
    obtain ⟨⟨hb, hg⟩, hl⟩ := hc
    rcases h with h | h | h
    · exact absurd (hl.symm.trans h) (by decide)
    · exact absurd (hb.symm.trans h) (by decide)
    · exact hg h
  · rw [wakeRequest, if_neg (not_not_intro hm), if_pos (by simp [hb, hg]), if_pos rfl]
  · rw [wakeRequest, if_neg (not_not_intro hm), if_pos (by simp [hb, hg]), if_neg Bool.false_ne_true]
  · rw [domainReady]
    dsimp only
    rw [← hx, if_neg (by simp [hm, hsup, hb, hg]), ← hu, ← hv, ← hw] <;>
      cases x.next <;> rfl
  · exact if_pos (.inr (.inr h))
  · rw [plDone, hx]
    dsimp only
    rw [← hu] <;> cases x.tag <;> rfl
  · rw [plDone, hx]

end Sys2Proof.Proofs
end

section
/-! ### Clock monitors, synthesizers and the rack clock (R239 to R291) -/

namespace Sys2Proof.Proofs

open Sys2Proof Sys2Proof.Machine Sys2Proof.Laws

/-! #### Clock monitors, the reference, the roots and the muxes -/

/-- R283: a detector that fires on a source that passes. -/
theorem monFires_fails {src detector : Nat} {dev : Word} {step : BitVec 16} {diff : Word} {s : State} (hm : s.mode = .running)
    (hsrc : monSource src = true) (hok : monOk s src = true) (hdev : detector = 2 → monBeyond s src dev = true) :
    monFires src detector dev step diff s = sourceFailed src detector dev step diff (setMon src detector dev s) := by
  refine if_neg ?_
  rintro (h | h | h | ⟨hd, h⟩)
  · exact h hm
  · exact absurd (hsrc.symm.trans h) (by decide)
  · exact absurd (hok.symm.trans h) (by decide)
  · exact absurd ((hdev hd).symm.trans h) (by decide)

/-- R287: what follows the failure of a tile's line. -/
theorem sourceFailed_tile {src detector : Nat} {dev : Word} {step : BitVec 16} {diff : Word} {s : State} (h : 8 ≤ src) :
    sourceFailed src detector dev step diff s = tileRootFailover (src - 8) detector dev s := by
  simp only [sourceFailed, show ¬ src < 2 by omega, show ¬ src < 3 by omega, h, false_and, if_false, if_true]

theorem muxDone_none {mux inst : Nat} {s : State} (h : muxFind s mux inst = none) : muxDone mux inst s = s := by
  rw [muxDone, h]

theorem muxForce_none {mux inst : Nat} {s : State} (h : muxFind s mux inst = none) : muxForce mux inst s = s := by
  rw [muxForce, h]

theorem muxNewDead_none {mux inst : Nat} {b : Bool} {s : State} (h : muxFind s mux inst = none) : muxNewDead mux inst b s = s := by
  rw [muxNewDead, h]

/-- R291: a new clock that is dead, with the old one dead too, of a mux whose domain can be frozen. -/
theorem muxNewDead_freezes {mux inst : Nat} {s u v : State} {m : MuxSwitch} (h : muxFind s mux inst = some m) (h5 : mux ≠ 5)
    (hu : u = muxForced mux inst 2 s)
    (hv : v = { u with muxFrozen := (mux, inst) :: u.muxFrozen.filter (fun f => f != (mux, inst)) }) :
    muxNewDead mux inst false s = muxEnd m m.new (if mux = 3 then setFrozen (inst / 8) true v else v) := by
  rw [muxNewDead, h]
  simp only [Bool.false_eq_true, if_false, if_neg h5, ← hu]
  rw [hv]

/-- Settles O40: the detectors through `monFires_fails`, the muxes by the switch that is found. -/
theorem clockMonitorRows : Obligations.ClockMonitorRows := by
  refine ⟨fun x dev step diff s hm hsrc hok => next_eq (monFires_fails hm hsrc hok fun h => absurd h (by decide)),
    fun x dev step diff s hm hsrc hok hdev => next_eq (monFires_fails hm hsrc hok fun _ => decide_eq_true hdev),
    fun x dev step diff s hm h8 hok => next_eq ?_, fun x dev step diff s h => next_eq ?_, fun x dev step diff s h => next_eq ?_,
    fun x dev s hm hsrc hok hdev => next_eq ?_, fun x dev s h => next_eq ?_, fun s hm => next_eq (if_pos hm),
    fun d s hm hin hsel hch => next_eq (if_pos ⟨hm, hin, hsel, hch⟩), fun d s h => next_eq ?_,
    fun t s hm hr hok => next_eq (if_pos ⟨hm, hr, hok⟩), fun t s h => next_eq ?_, fun dev s c hm hc hok => next_eq ?_,
    fun dev s c hm hc hok => next_eq ?_, fun mux l s m h => ⟨next_eq ?_, next_eq ?_, next_eq ?_⟩,
    fun mux l s u v m h h5 hu hv => next_eq (muxNewDead_freezes h h5 hu hv), fun l s m h => next_eq ?_,
    fun mux l b s h => ⟨next_eq (muxDone_none h), next_eq (muxForce_none h), next_eq (muxNewDead_none h)⟩⟩
  · have hlt := x.isLt
    have hsrc : monSource x.toNat = true := decide_eq_true (.inr ⟨h8, hlt⟩)
    rw [monFires_fails hm hsrc hok fun h => absurd h (by decide), sourceFailed_tile h8]
  · refine if_pos ?_
    rcases h with h | h | h
    · exact .inr (.inl h)
    · exact .inr (.inr (.inl h))
    · exact .inr (.inr (.inr ⟨rfl, decide_eq_false (Nat.not_lt.mpr h)⟩))
  · exact if_pos (h.elim (fun h => .inr (.inl h)) fun h => .inr (.inr (.inl h)))
  · refine if_neg ?_
    rintro (h | h | h | h)
    · exact h hm
    · exact absurd (hsrc.symm.trans h) (by decide)
    · exact absurd (hok.symm.trans h) (by decide)
    · exact absurd (of_decide_eq_true h) (Nat.not_lt.mpr hdev)
  · refine if_pos ?_
    rcases h with h | h | h
    · exact .inr (.inl h)
    · exact .inr (.inr (.inl h))
    · exact .inr (.inr (.inr (decide_eq_true h)))
  · refine if_neg ?_
    rintro ⟨-, hin, hsel, hch⟩
    rcases h with h | h | h
    · exact h hin
    · exact absurd (hsel.symm.trans h) (by decide)
    · exact h hch
  · refine if_neg ?_
    rintro ⟨-, hr, hok⟩
    exact h.elim (fun h => absurd (hr.symm.trans h) (by decide)) fun h => absurd (hok.symm.trans h) (by decide)
  · rw [aonFailover]
    rw [if_neg (not_not_intro hm), ← hc, hok, if_pos rfl]
  · rw [aonFailover]
    rw [if_neg (not_not_intro hm), ← hc, hok, if_neg Bool.false_ne_true]
  · rw [muxDone, h]
  · rw [muxForce, h]
  · rw [muxNewDead, h]
    rfl
  · show muxNewDead 5 l.toNat false s = _
    rw [muxNewDead, h]
    rfl

end Sys2Proof.Proofs
end

section
/-! ### The synthesizers by themselves (R239 to R257, R266) -/

namespace Sys2Proof.Proofs

open Sys2Proof Sys2Proof.Machine Sys2Proof.Laws

/-- R256: a loss of lock that is not masked. -/
theorem synthLoss_unmasked {i : Nat} {s : State} (hm : s.mode = .running) (hi : i < 72) (hmask : (synOf s i).masked = false) :
    synthLoss i s = (if i < 64 ∧ synState s i ≠ 0 ∧ synState s i ≠ 4 then portHeld i (synHold i s) else synHold i s) :=
  if_neg (by simp [hm, hmask]; omega)

/-- R257: a synthesizer that is OFF or HELD is not held again. -/
theorem synHold_stands {i : Nat} {s : State} (h : synState s i = 0 ∨ synState s i = 4) : synHold i s = s := if_pos h

theorem marginIn_synth {i m : Nat} {s : State} (hm : s.mode = .running) (hi : i < 72) (hst : synState s i ≠ 0) :
    marginIn i m s = synMargin i m s := by
  rw [marginIn, if_neg (not_not_intro hm), if_pos hi, if_neg hst]

/-- R246: a steering period of a locked synthesizer: what its mode does, from the means of the period. -/
theorem steeringPeriod_locked {p q : Nat} {s u t : State} {im phim : Rat} (hm : s.mode = .running) (hst : synState s p = 2)
    (hu : ((im, phim), u) = periodMeans p (rotatePairs p s)) (ht : t = periodBegin p u) :
    steeringPeriod p q s =
      if steerMode t p = 2 then
        steerBy p (trackStep t p im phim) (offsetTiming p im (setOffset p (steerOffset t p (synSteer t p) im) t))
      else if steerMode t p = 3 then offsetTiming p im (setOffset p (steerOffset t p (synSteer t p) im) t)
      else if steerMode t p = 4 then
        setOffset p (steerOffset (steerBy p (compatStep t p q) t) p (synSteer (steerBy p (compatStep t p q) t) p) 0) (steerBy p (compatStep t p q) t)
      else t := by
  rw [steeringPeriod, if_neg (by simp [hm, hst])]
  dsimp only
  rw [← hu]
  dsimp only
  rw [← ht]
  generalize hmode : steerMode t p = mode
  match mode with
  | 0 => rfl
  | 1 => rfl
  | 2 => rfl
  | 3 => rfl
  | 4 => rfl
  | n + 5 => rfl

/-- R242, R266: the oldest step that waits leaves the queue; it is refused or applied. -/
theorem smallStepDone_next {i e : Nat} {d : Int} {q : List (Nat × Int)} {s u : State} (hm : s.mode = .running)
    (hq : (synOf s i).steps = (e, d) :: q) (hu : u = modSyn i (fun x => { x with steps := q }) s) :
    smallStepDone i s = if stepRefused u i then complete e stRefused [] u
      else if i < 72 then complete e stOk (leBytes 4 (rd (smallStep i d u) (synSteerR i)).toNat) (smallStep i d u)
      else complete e stOk (leBytes 4 (rd (rackStep i d u) (rackStepOfs i)).toNat) (rackStep i d u) := by
  rw [smallStepDone, if_neg (not_not_intro hm), hq]
  dsimp only
  rw [← hu]
  by_cases hi : i < 72
  · simp only [if_pos hi]
  · simp only [if_neg hi]

/-- A full step toward a value, from the other side (R243, R245). -/
theorem neg_towardZero (z : Int) : -(towardZero z) = max (-(2 ^ 20)) (min (2 ^ 20) z) := by
  unfold towardZero
  split
  · omega
  · split <;> omega

/-- Settles O41: the rows of the synthesizers, by what each of their conditions says. -/
theorem synthesizerRows : Obligations.SynthesizerRows := by
  refine ⟨fun i s hm h64 h72 hmask => next_eq ?_, fun i s hm h64 hmask h0 h4 => next_eq ?_, fun i s h => next_eq ?_,
    fun i m s u hm hi hst hu => next_eq ?_, fun i m s hi hst => next_eq ?_, fun i m s hm hi => next_eq ?_,
    fun i band other fresh s hm h64 h72 => next_eq ?_, fun i band other fresh s t hm h64 ht => next_eq ?_,
    fun i band other fresh s hi => next_eq ?_, fun p q s u t im phim hm hst hu ht hmode => next_eq ?_,
    fun p q s u t im phim hm hst hu ht hmode => next_eq ?_, fun p q s u t v im phim hm hst hu ht hmode hv => next_eq ?_,
    fun p q s u t im phim hm hst hu ht hmode => next_eq ?_, fun p q s hst => next_eq ?_,
    fun i s u e d q hm hq hi hu hr => next_eq ?_, fun i s u e d q hm hq hi hu hr => next_eq ?_, fun i s u e d q hm hq hu hr => next_eq ?_,
    fun i s hq => next_eq ?_, fun p s u hm hr hu => next_eq ?_, fun p s hr => next_eq ?_, fun p s u z d hm hu hz hd => next_eq ?_,
    fun p s hm ha => next_eq ?_⟩
  · rw [synthLoss_unmasked hm h72 hmask, if_neg fun h => absurd h.1 (Nat.not_lt.mpr h64)]
  · rw [synthLoss_unmasked hm (by omega) hmask, if_pos ⟨h64, h0, h4⟩]
  · rw [synthLoss]
    split
    · rfl
    · next hc =>
      simp only [not_or] at hc
      obtain ⟨-, hi, hmask⟩ := hc
      rcases h with h | h | h | h
      · exact absurd h hi
      · exact absurd h hmask
      · dsimp only
        rw [synHold_stands (.inl h), if_neg fun hp => hp.2.1 h]
      · dsimp only
        rw [synHold_stands (.inr h), if_neg fun hp => hp.2.2 h]
  · rw [marginIn_synth hm hi hst, synMargin, ← hu]
  · rw [marginIn, if_pos hi, if_pos hst, ite_self]
  · rw [marginIn, if_neg (not_not_intro hm), if_neg (Nat.not_lt.mpr hi)]
  · rw [synthHopEnd, if_neg (by simp [hm]; omega), if_neg (Nat.not_lt.mpr h64)]
  · rw [synthHopEnd, if_neg (by simp [hm]; omega), if_pos h64, ← ht]
  · exact if_pos (.inr hi)
  · rw [steeringPeriod_locked hm hst hu ht, if_pos hmode]
  · rw [steeringPeriod_locked hm hst hu ht, if_neg (by omega), if_pos hmode]
  · rw [steeringPeriod_locked hm hst hu ht, if_neg (by omega), if_neg (by omega), if_pos hmode, ← hv]
  · rw [steeringPeriod_locked hm hst hu ht, if_neg (by omega), if_neg (by omega), if_neg (by omega)]
  · exact if_pos (.inr hst)
  · rw [smallStepDone_next hm hq hu, hr, if_neg Bool.false_ne_true, if_pos hi]
  · rw [smallStepDone_next hm hq hu, hr, if_neg Bool.false_ne_true, if_neg (Nat.not_lt.mpr hi)]
  · rw [smallStepDone_next hm hq hu, hr, if_pos rfl]
  · rw [smallStepDone, hq]
    exact ite_self s
  · rw [steerRamp, if_neg (by simp [hm, hr]), ← hu]
  · exact if_pos (.inr hr)
  · rw [acquireRamp, if_neg (not_not_intro hm), ← hu]
    dsimp only
    rw [hz]
    dsimp only
    rw [neg_towardZero, ← hd]
    simp only [Int.sub_eq_zero]
  · rw [acquireRamp, if_neg (not_not_intro hm)]
    dsimp only
    rw [ha]

end Sys2Proof.Proofs
end

section
/-! ### The rack clock by itself (R264 to R278) -/

namespace Sys2Proof.Proofs

open Sys2Proof Sys2Proof.Machine Sys2Proof.Laws

theorem each_congr {l : List Nat} {f g : Nat → State → State} (h : ∀ n ∈ l, ∀ s, f n s = g n s) (s : State) : each l f s = each l g s := by
  induction l generalizing s with
  | nil => rfl
  | cons n l ih =>
    show each l f (f n s) = each l g (g n s)
    rw [h n List.mem_cons_self, ih fun k hk => h k (List.mem_cons_of_mem _ hk)]

/-! #### A bypass input that fails (R278) -/

/-- One PLL's part of a bypass input that fails. -/
def bypassOne (src i : Nat) (s : State) : State :=
  let hit := (pllOuts s i).filter (fun n => outState s n == 2 && bypSrc s n == src)
  match hit with
  | [] => s
  | n :: _ => bypassEvent i (rdF s (outStatus n) 7 6) (each hit (fun n s => setOutState n 3 s) s)

theorem bypassFail_eq {src : Nat} {s : State} (hm : s.mode = .running) (hbad : bypassOk s src = false) :
    bypassFail src s = bypassOne src 73 (bypassOne src 72 s) := by
  rw [bypassFail, if_neg (by simp [hm, hbad])]
  rfl

theorem bypassOne_none {src i : Nat} {s : State} (h : (pllOuts s i).filter (fun n => outState s n == 2 && bypSrc s n == src) = []) :
    bypassOne src i s = s := by
  rw [bypassOne, h]

theorem bypassOne_hit {src i n : Nat} {q : List Nat} {s : State}
    (h : (pllOuts s i).filter (fun n => outState s n == 2 && bypSrc s n == src) = n :: q) :
    bypassOne src i s = bypassEvent i (rdF s (outStatus n) 7 6) (each (n :: q) (fun n s => setOutState n 3 s) s) := by
  rw [bypassOne, h]

/-! #### The end of a hop (R265) -/

theorem rackHopDone_eq {i band : Nat} {fresh : Bool} {s : State} {x : SynSt} (hm : s.mode = .running) (hi : rackPll i = true)
    (hb : rackBusy s i = true) (hx : x = synOf s i) :
    rackHopDone i band fresh s =
      let srch := x.search || fresh
      let s := if srch then wrB (rackSlotR i x.target) 28 true (wrF (rackSlotR i x.target) 27 22 band s) else s
      let s := wrF (rackStatus i) 7 4 x.target (setRackState i 3 s)
      let s := if x.enabling then s else count (rackBase i + 0x18) 1 s
      let s := if srch && !x.enabling then count (rackBase i + 0x1C) 1 s else s
      hopEnd x.hopTag srch (outsRun i (modSyn i (fun y => { y with search := false, enabling := false, hopTag := none }) s)) := by
  rw [hx]
  exact if_neg (by simp [hm, hi, hb])

/-! #### The clapper (R272 to R274) -/

/-- A register below the tiles' says nothing about which output a tile follows. -/
theorem followers_rd {s t : State} (n : Nat) (h : ∀ k < 8, rd t (synRefR (64 + k)) = rd s (synRefR (64 + k))) :
    followers t n = followers s n := by
  refine List.filter_congr fun k hk => ?_
  have hout : hostOut t k = hostOut s k := by
    unfold hostOut rdB rdF
    rw [h k (List.mem_range.mp hk)]
  rw [tileFollows, tileFollows, hout]

theorem tileBase_le (t : Nat) : 0x1000000 ≤ tileBase t := by
  unfold tileBase
  omega

theorem rd_spreadTop_other {n a : Nat} {s : State} (h : a ≠ outStatus n) : rd (spreadTop n s) a = rd s a := by
  rw [spreadTop, rd_wrB_other _ _ _ h]
  rfl

theorem followers_restart (n : Nat) (hn : n < 16) (s : State) :
    followers (wrB (outStatus n) 3 true (wrB (outBase n) 6 false (spreadTop n s))) n = followers s n := by
  refine followers_rd n fun k hk => ?_
  have hout : ∀ o ≤ 0x10, synRefR (64 + k) ≠ outBase n + o := by
    intro o ho
    have hbase := tileBase_le k
    simp only [synRefR, synBase, if_neg (show ¬ 64 + k < 64 by omega), Nat.add_sub_cancel_left, outBase]
    omega
  have hstatus : synRefR (64 + k) ≠ outStatus n := hout 0x10 (by decide)
  have hcfg : synRefR (64 + k) ≠ outBase n := hout 0 (by decide)
  rw [rd_wrB_other _ _ _ hstatus, rd_wrB_other _ _ _ hcfg, rd_spreadTop_other hstatus]

/-- Settles O42: the rows of the rack clock, by what each of their conditions says. -/
theorem rackRows : Obligations.RackRows := by
  refine ⟨fun i s hm hi hst hin => next_eq (if_pos ⟨hm, hi, hst, hin⟩), fun i s hm hi hst hin => next_eq (if_pos ⟨hm, hi, hst, hin⟩),
    fun i s hm hi hst => next_eq (if_pos ⟨hm, hi, hst⟩), fun i s hm hi hst => next_eq (if_pos ⟨hm, hi, hst⟩),
    fun i s hi => ?_, fun src s u n q hm hbad hq hu hnone => next_eq ?_, fun src s n q hm hbad hnone hq => next_eq ?_,
    fun src s u n k q r hm hbad hq hu hr => next_eq ?_, fun src s h => next_eq (if_pos (.inr h)),
    fun i band s x hm hi hb hx hs he => next_eq ?_, fun i band fresh s u v x hm hi hb hx hs hu hv => next_eq ?_,
    fun i band fresh s h => next_eq ?_, fun s u outs hm hd hen hlast ho hu => next_eq ?_, fun s t hm hd hen hlast hnear => next_eq ?_,
    fun s hm hd => next_eq ?_, fun s hd hen => next_eq ?_, fun t s => rfl⟩
  · have hno : ∀ {c : Prop}, ¬ (s.mode = .running ∧ rackPll i.val = true ∧ c) := fun h => absurd (hi.symm.trans h.2.1) (by decide)
    exact ⟨next_eq (if_neg hno), next_eq (if_neg hno), next_eq (if_neg hno), next_eq (if_neg hno)⟩
  · rw [bypassFail_eq hm hbad, bypassOne_hit hq, ← hu, bypassOne_none hnone]
  · rw [bypassFail_eq hm hbad, bypassOne_none hnone, bypassOne_hit hq]
  · rw [bypassFail_eq hm hbad, bypassOne_hit hq, ← hu, bypassOne_hit hr]
  · rw [rackHopDone_eq hm hi hb hx]
    simp only [hs, he, Bool.or_self, Bool.false_eq_true, if_false, Bool.false_and]
  · have hsrch : (x.search || fresh) = true := by simpa using hs
    rw [rackHopDone_eq hm hi hb hx]
    simp only [hsrch, if_true, Bool.true_and, ← hu]
    rw [hv]
    cases he : x.enabling with
    | true => simp only [Bool.not_true, Bool.false_eq_true, if_false, if_true]
    | false => simp only [Bool.not_false, Bool.false_eq_true, if_false, if_true]
  · exact if_pos (.inr h)
  · have hnear : s.lastClap.any (fun t => decide ((s.time - t).toNat < 1000)) = false := by
      cases hl : s.lastClap with
      | none => rfl
      | some t =>
        rw [hl] at hlast
        exact decide_eq_false (Nat.not_lt.mpr (of_decide_eq_true hlast))
    have hrestart : ∀ n ∈ outs, ∀ s : State, each (followers (wrB (outStatus n) 3 true (wrB (outBase n) 6 false (spreadTop n s))) n)
        (fun t s => if hostSynLocked s t then tileLanesLost t (modSyn (64 + t) (fun x => { x with masked := true }) s) else s)
        (wrB (outStatus n) 3 true (wrB (outBase n) 6 false (spreadTop n s))) = each (followers s n)
        (fun t s => if hostSynLocked s t then tileLanesLost t (modSyn (64 + t) (fun x => { x with masked := true }) s) else s)
        (wrB (outStatus n) 3 true (wrB (outBase n) 6 false (spreadTop n s))) := by
      intro n hn s
      rw [ho] at hn
      rw [followers_restart n (List.mem_range.mp (List.mem_filter.mp hn).1)]
    unfold clapper
    rw [if_neg (not_not_intro hm), hd, Bool.not_true, if_neg Bool.false_ne_true, if_neg (by rw [hen]; decide)]
    extract_lets near v armed w
    have harmed : armed = outs := ho.symm
    have hw : w = u := by
      rw [hu, ← harmed]
      exact each_congr (harmed ▸ hrestart) v
    rw [show near = false from hnear, if_neg Bool.false_ne_true, harmed, hw]
  · have hnear' : s.lastClap.any (fun t => decide ((s.time - t).toNat < 1000)) = true := by
      rw [hlast]
      exact decide_eq_true hnear
    rw [clapper, if_neg (not_not_intro hm), hd, Bool.not_true, if_neg Bool.false_ne_true, if_neg (by rw [hen]; decide), hnear', if_pos rfl]
  · rw [clapper, if_neg (not_not_intro hm), hd, Bool.not_false, if_pos rfl]
  · rw [clapper, hd, Bool.not_true, if_neg Bool.false_ne_true, if_pos hen]
    exact ite_self s

end Sys2Proof.Proofs
end

section
/-! ### The transmit side of a pair (R31, R37 to R44, R71, R81 to R84, R113, R124, R177) -/

namespace Sys2Proof.Proofs

open Sys2Proof Sys2Proof.Machine Sys2Proof.Laws

/-- R31: the next superframe of a pair that transmits, up to what training does at its start. -/
theorem superframeStart_runs {l : Nat} {bad : BitVec 2} {lpi : Bool} {s u : State} {m : Nat} (hm : s.mode = .running)
    (htx : (pairOf s l).txOn = true) (hf : lineFrozen s l = false) (hl : m = (linkOfPair s l).getD l)
    (hu : u = trainStart l m (modPair l (fun p => { p with sf := p.sf + 1, ownLpi := lpi, farLpiLast := p.farLpi }) s)) :
    superframeStart l bad lpi s = if (pairOf u l).txOn = false then u else
      let v := modPair l (fun p => { p with farLpi := p.sfLock }) (sendSlate l (quietStart l m (partnerTxStart l m
        (cutDecide l (bad.getLsbD 1) u))))
      bankAudit l (bad.getLsbD 0) (fillRequest l
        (if (linkOf v m).state = .leaving ∧ bitGet (pairOf v l).sf 0 = false ∧ (activePairs v m).head? = some l then
          modLink m (fun x => { x with evenCounts := x.evenCounts + 1 }) v else v)) := by
  rw [hu, hl]
  exact if_neg (by simp [hm, htx, hf])

theorem exchangeRow_runs {f : PairSt → PairSt} {l : Nat} {s : State} {x : Exchange} (hm : s.mode = .running)
    (hx : (pairOf s l).exch = some x) (hf : lineFrozen s l = false) : exchangeRow f l s = modPair l f s :=
  if_neg (by simp [hm, hx, hf])

theorem exchangeRow_none {f : PairSt → PairSt} {l : Nat} {s : State} (h : (pairOf s l).exch = none ∨ lineFrozen s l = true) :
    exchangeRow f l s = s :=
  if_pos (.inr (h.imp (fun h => by rw [h]; rfl) id))

/-- R37: a row of a pair that transmits a body. -/
theorem rowStart_body {l : Nat} {lpi : Bool} {s u : State} {m : Nat} {p : PairSt} {a i : Bool} {v : Nat × Nat} (hm : s.mode = .running)
    (hp : p = pairOf s l) (htx : p.txOn = true) (hf : lineFrozen s l = false) (hl : m = (linkOfPair s l).getD l)
    (hbody : sendsBody s l m = true)
    (ha : a = (if p.quiet then false else !((linkOf s m).state == .up || digitalLoop s m)
      || (if remoteLoop s m then p.rxAbsent else p.absent || p.xqOff)))
    (hi : i = (p.quiet || (((linkOf s m).state == .up || digitalLoop s m) && (if remoteLoop s m then p.rxLpi else lpi))))
    (hv : (v, u) = if a || p.quiet then ((254, 0), s)
      else (rowFill p.queue ((draw 7 s).1.toNat % 32768) ((draw 7 s).1.toNat / 32768), (draw 7 s).2)) :
    rowStart l lpi s = perfTally (l / 64) 0x29 (pairUnit l) (254 - v.1) (modPair l (fun x => { x with
      row := (x.row + 1) % 8224, fill := v.1, queue := v.2, underrun := false, header := rowHeader v.1 p.row (l % 8) a i p.underrun }) u) := by
  rw [hp] at htx
  rw [rowStart]
  dsimp only
  rw [← hl, if_neg (by simp [hm, htx, hf]), hbody, Bool.not_true, if_neg Bool.false_ne_true, ← hp, ← ha, ← hi]
  dsimp only [draw] at hv ⊢
  rw [← hv]

/-- Settles O43: the rows of the transmit side, by what each of their conditions says. -/
theorem transmitRows : Obligations.TransmitRows := by
  refine ⟨fun l bad lpi s u v w m hm htx hf hl hu hon hv hw => next_eq ?_, fun l bad lpi s u m hm htx hf hl hu hoff => next_eq ?_,
    fun l bad lpi s h => ⟨next_eq ?_, next_eq ?_⟩,
    fun l s x hm hx hf => ⟨next_eq (exchangeRow_runs hm hx hf), next_eq (exchangeRow_runs hm hx hf), next_eq (exchangeRow_runs hm hx hf)⟩,
    fun l s h => ⟨next_eq (exchangeRow_none h), next_eq (exchangeRow_none h), next_eq (exchangeRow_none h)⟩,
    fun p bad badNext s u hm hp hf hu => next_eq ?_, fun p bad badNext s h => next_eq (if_pos (.inr h)),
    fun l lpi s m hm htx hf hl hbody => next_eq ?_, fun l lpi s m p up a i hm hp htx hf hl hbody hup ha hi hq => next_eq ?_,
    fun l lpi s u x m f q p hm hp htx hf hl hbody hquiet hup habs hx hfill => next_eq ?_, fun l s hm => next_eq (if_neg (not_not_intro hm)),
    fun l n s hm hq hx => next_eq (if_neg (by simp [hm, hq, hx])), fun l n s h => next_eq (if_pos (.inr h))⟩
  · rw [superframeStart_runs hm htx hf hl hu, if_neg (by rw [hon]; decide), ← hv]
    dsimp only
    rw [← hw]
  · rw [superframeStart_runs hm htx hf hl hu, if_pos hoff]
  · exact if_pos (.inr h)
  · exact if_pos (.inr h)
  · rw [periodBoundary, if_neg (by simp [hm, hp, hf]), ← hu]
  · rw [rowStart]
    dsimp only
    rw [← hl, if_neg (by simp [hm, htx, hf]), hbody, Bool.not_false, if_pos rfl]
  · rw [hup] at ha hi
    exact rowStart_body (v := (254, 0)) hm hp htx hf hl hbody ha hi (if_pos (by simpa using hq)).symm
  · have hup' : ((linkOf s m).state == .up || digitalLoop s m) = true := by simpa using hup
    refine rowStart_body (v := (f, q)) hm hp htx hf hl hbody (a := false) (i := if remoteLoop s m then p.rxLpi else lpi) ?_ ?_ ?_
    · rw [hquiet, if_neg Bool.false_ne_true, hup', habs]
      rfl
    · rw [hquiet, hup']
      rfl
    · rw [hquiet, if_neg (by decide), ← hx, hfill]

end Sys2Proof.Proofs
end

section
/-! ### The receive side of a pair, and its measurements (R36, R41, R42, R74, R150, R178, R184 to R187) -/

namespace Sys2Proof.Proofs

open Sys2Proof Sys2Proof.Machine Sys2Proof.Laws

/-- R36: the polarity that a sync word of `n` matching signs has. -/
def syncPolarity (n : Nat) : Option Bool := if 56 ≤ n then some false else if n ≤ 8 then some true else none

theorem syncPolarity_eq {n : Nat} {inv : Bool} (h : inv = false ∧ 56 ≤ n ∨ inv = true ∧ n ≤ 8) : syncPolarity n = some inv := by
  rcases h with ⟨rfl, h⟩ | ⟨rfl, h⟩
  · exact if_pos h
  · rw [syncPolarity, if_neg (by omega), if_pos h]

theorem syncPolarity_none {n : Nat} (h8 : 8 < n) (h56 : n < 56) : syncPolarity n = none := by
  rw [syncPolarity, if_neg (by omega), if_neg (by omega)]

theorem syncPolarity_ne {n : Nat} {inv : Bool} (h : inv = false ∧ n < 56 ∨ inv = true ∧ 8 < n) : syncPolarity n ≠ some inv := by
  unfold syncPolarity
  rcases h with ⟨rfl, h⟩ | ⟨rfl, h⟩
  · rw [if_neg (by omega)]
    split <;> decide
  · split
    · decide
    · rw [if_neg (by omega)]
      decide

/-- R36: a sync word of a pair that hears, in superframe lock. -/
theorem syncWord1_locked {l n ms m : Nat} {sp : Bool} {s : State} (hm : hears s l = some m) (hlock : (pairOf s l).sfLock = true) :
    syncWord1 l n sp ms s =
      let u := if trainOrUp (linkOf s m).state && syncPolarity n == some (pairOf s l).inverted then latchLevel l 1 ms (pairOf s l).sf s else s
      if syncPolarity n = some (pairOf s l).inverted then modPair l (fun p => { p with missed := 0 }) u
      else if (pairOf s l).missed < 2 then modPair l (fun p => { p with missed := p.missed + 1 }) u else sfLoss l m u := by
  rw [syncWord1, hm]
  exact if_pos hlock

/-- R36: a sync word of a pair that hears and is not in superframe lock. -/
theorem syncWord1_unlocked {l n ms m : Nat} {sp inv : Bool} {s : State} (hm : hears s l = some m) (hlock : (pairOf s l).sfLock = false)
    (hpol : syncPolarity n = some inv) :
    syncWord1 l n sp ms s =
      let u := if (pairOf s l).found = some inv ∧ sp = true then sfGain l m inv s else modPair l (fun p => { p with found := some inv }) s
      if trainOrUp (linkOf u m).state then latchLevel l 1 ms (pairOf s l).sf u else u := by
  rw [syncWord1, hm]
  dsimp only
  rw [if_neg (by rw [hlock]; decide), show (if 56 ≤ n then some false else if n ≤ 8 then some true else none) = some inv from hpol]

/-- R42, R184: a row header of a pair in superframe lock. -/
theorem rowHeaderIn_locked {l r m : Nat} {h : BitVec 120} {s u v w x y : State} (hm : hears s l = some m)
    (hlock : (pairOf s l).sfLock = true) (hst : (trainOrUp (linkOf s m).state || digitalLoop s m) = true)
    (hu : u = (if digitalLoop s m then countWide (innerCwR l) 64 255 s else innerRow l s))
    (hv : v = (if r = 0 then modPair l (fun p => { p with rxScr := scramblerSeed p.farPair p.sf }) u else u))
    (hw : w = (match headerRead h with
      | some (f, _) => modPair l (fun p => { p with rxFill := f, rxRow := r }) v
      | none => count (rowHdrLostR l) 1 (modPair l (fun p => { p with rxRow := r, rowLost := p.rowLost ||
          ((linkOf v m).phase == 4 && !sfFuture (linkOf v m).phaseSf p.sf) }) v)))
    (hx : x = perfTally (l / 64) 0x2A (pairUnit l) (254 - (pairOf w l).rxFill) w)
    (hy : y = modPair l (fun p => { p with farLpi := p.farLpi && p.rxLpi }) (match headerFlags h with
      | some (a, i, b) => rxFlags l a i b x
      | none => x)) :
    rowHeaderIn l r h s = if (pairOf y l).quiet && (headerRead h).any (fun g => g.2 == r)
      && !((pairOf y l).refreshing && (pairOf y l).rxLpi) then quietWake l y else y := by
  unfold rowHeaderIn
  rw [hm]
  show (if !(pairOf s l).sfLock || !(trainOrUp (linkOf s m).state || digitalLoop s m) then s else _) = _
  rw [if_neg (by rw [hlock, hst]; decide)]
  extract_lets got u' v' w' x' z' y' p
  have hu' : u' = u := hu.symm
  clear_value u'
  subst hu'
  have hv' : v' = v := hv.symm
  clear_value v'
  subst hv'
  have hw' : w' = w := hw.symm
  clear_value w'
  subst hw'
  have hx' : x' = x := hx.symm
  clear_value x'
  subst hx'
  have hy' : y' = y := hy.symm
  clear_value y'
  subst hy'
  rfl

/-- R184 to R187: a measurement that counts. -/
theorem snrMeasure_counts {l e m : Nat} {s : State} (hm : s.mode = .running) (hl : linkOfPair s l = some m) (hrun : lineRuns s l = true)
    (hact : (activePairs s m).contains l = true) (hst : trainOrUp (linkOf s m).state = true)
    (hfdx : isFdx (modeOf s m) = true → (pairOf s l).sfLock = true ∧ ((pairOf s l).quiet = false ∨ (pairOf s l).refreshing = true))
    (hcompat : isCompat (modeOf s m) = true → txPair s l = false) :
    snrMeasure l e true s = snrTake l m e s := by
  have hfdx' : (isFdx (modeOf s m) && (!(pairOf s l).sfLock || ((pairOf s l).quiet && !(pairOf s l).refreshing))) = false := by
    cases hf : isFdx (modeOf s m) with
    | false => rfl
    | true =>
      obtain ⟨hlock, hq⟩ := hfdx hf
      rcases hq with hq | hq <;> simp [hlock, hq]
  have hcompat' : (isCompat (modeOf s m) && txPair s l) = false := by
    cases hc : isCompat (modeOf s m) with
    | false => rfl
    | true => exact hcompat hc
  rw [snrMeasure, hl]
  dsimp only
  rw [if_neg (by simp [hm, hrun, hst]; exact List.contains_iff_mem.mp hact), hfdx', if_neg Bool.false_ne_true, hcompat', if_neg Bool.false_ne_true]

theorem snrMeasure_none {l e m : Nat} {s : State} (hl : linkOfPair s l = some m)
    (h : lineRuns s l = false ∨ (activePairs s m).contains l = false ∨ trainOrUp (linkOf s m).state = false ∨
      (isFdx (modeOf s m) = true ∧ ((pairOf s l).sfLock = false ∨ ((pairOf s l).quiet = true ∧ (pairOf s l).refreshing = false))) ∨
      (isCompat (modeOf s m) = true ∧ txPair s l = true)) :
    snrMeasure l e true s = s := by
  rw [snrMeasure, hl]
  dsimp only
  rcases h with h | h | h | ⟨hf, h⟩ | ⟨hc, h⟩
  · rw [if_pos (by simp [h])]
  · rw [h, if_pos (by simp)]
  · rw [if_pos (by simp [h])]
  · have hno : (isFdx (modeOf s m) && (!(pairOf s l).sfLock || ((pairOf s l).quiet && !(pairOf s l).refreshing))) = true := by
      rcases h with h | ⟨hq, hr⟩
      · simp [hf, h]
      · simp [hf, hq, hr]
    rw [hno, if_pos rfl, ite_self]
  · rw [hc, h, Bool.and_true, if_pos rfl, ite_self, ite_self]

/-- Settles O44: sync words through their polarity, a row header step by step, measurements by what makes them count. -/
theorem receiveAndMeasurementRows : Obligations.ReceiveAndMeasurementRows := by
  refine ⟨fun l n sp ms s hm => ⟨next_eq ?_, next_eq ?_⟩, fun l n sp ms s m hm hlock h8 h56 => next_eq ?_,
    fun l n sp inv ms s u m hm hlock hpol hu => next_eq ?_, fun l n sp ms s m p hm hp hlock hpol => next_eq ?_,
    fun l n sp ms s m p hm hp hlock hpol => next_eq ?_, fun l s m hm => next_eq ?_,
    fun l r h s u v w x y m hm hlock hst hu hv hw hx hy => next_eq ?_, fun l r h s hno => next_eq ?_, fun l s hm hq => next_eq ?_,
    fun l s hq => next_eq ?_, fun l e s m hm hl hrun hact hst hfdx hcompat => next_eq (snrMeasure_counts hm hl hrun hact hst hfdx hcompat),
    fun l e s => next_eq ?_, fun l e s m hl h => next_eq (snrMeasure_none hl h), fun l high n s hm => ⟨next_eq ?_, next_eq ?_⟩⟩
  · rw [syncWord1, hm]
  · rw [sfLockLoss, hm]
  · rw [syncWord1, hm]
    dsimp only
    rw [if_neg (by rw [hlock]; decide), show (if 56 ≤ n.toNat then some false else if n.toNat ≤ 8 then some true else none) = none from
      syncPolarity_none h8 h56]
  · rw [syncWord1_unlocked hm hlock (syncPolarity_eq hpol), ← hu]
  · rw [syncWord1_locked hm (hp ▸ hlock), ← hp, syncPolarity_eq hpol, if_pos rfl, beq_self_eq_true, Bool.and_true]
  · have hne := syncPolarity_ne hpol
    rw [syncWord1_locked hm (hp ▸ hlock), ← hp, if_neg hne, beq_eq_false_iff_ne.mpr hne, Bool.and_false, if_neg Bool.false_ne_true]
  · rw [sfLockLoss, hm]
  · exact rowHeaderIn_locked hm hlock hst hu (by rw [hv]; exact ite_of_iff (BitVec.toNat_inj (y := 0#14)).symm) hw hx hy
  · rw [rowHeaderIn]
    rcases hno with hno | hno
    · rw [hno]
    · cases hears s l.toNat with
      | none => rfl
      | some m => exact if_pos (by rw [hno]; rfl)
  · show (if s.mode ≠ .running then s else quietWake l.toNat s) = _
    rw [if_neg (not_not_intro hm), quietWake, if_pos hq]
  · show (if s.mode ≠ .running then s else quietWake l.toNat s) = _
    have hstands : quietWake l.toNat s = s := if_neg (by rw [hq]; decide)
    rw [hstands, ite_self]
  · rw [snrMeasure]
    cases linkOfPair s l.toNat with
    | none => rfl
    | some m => exact if_pos (.inr (.inl rfl))
  · rw [interpHit, if_neg (not_not_intro hm)]
    rfl
  · rw [interpHit, if_neg (not_not_intro hm)]
    rfl

end Sys2Proof.Proofs
end

section
/-! ### Slate messages (R46, R48, R49, R115 to R120, R172, R176) -/

namespace Sys2Proof.Proofs

open Sys2Proof Sys2Proof.Machine Sys2Proof.Laws

/-! #### What every message passes through -/

theorem slateIn_deaf {ty l : Nat} {msg : BitVec 64} {act : Nat → State → State} {s : State}
    (h : hears s l = none ∨ (pairOf s l).sfLock = false) : slateIn ty l msg act s = s := by
  rw [slateIn]
  cases hm : hears s l with
  | none => rfl
  | some m => exact if_pos (by rw [h.resolve_left (by rw [hm]; exact Option.some_ne_none m)]; rfl)

section
variable {ty l m : Nat} {msg : BitVec 64} {act : Nat → State → State} {s : State}

theorem slateIn_heard (hm : hears s l = some m) (hlock : (pairOf s l).sfLock = true) :
    slateIn ty l msg act s = if !slateCrcOk msg then count (slateMsgErrR l) 1 s
      else if slateType msg = 0 ∨ 7 ≤ slateType msg then count (slateMsgUnknownR l) 1 s
      else if ty.testBit (slateType msg) then act m s else s := by
  rw [slateIn, hm]
  exact if_neg (by rw [hlock]; decide)

theorem slateIn_bad (hm : hears s l = some m) (hlock : (pairOf s l).sfLock = true) (hcrc : slateCrcOk msg = false) :
    slateIn ty l msg act s = count (slateMsgErrR l) 1 s := by
  rw [slateIn_heard hm hlock, hcrc, Bool.not_false, if_pos rfl]

theorem slateIn_unknown (hm : hears s l = some m) (hlock : (pairOf s l).sfLock = true) (hcrc : slateCrcOk msg = true)
    (ht : slateType msg = 0 ∨ 7 ≤ slateType msg) : slateIn ty l msg act s = count (slateMsgUnknownR l) 1 s := by
  rw [slateIn_heard hm hlock, hcrc, Bool.not_true, if_neg Bool.false_ne_true, if_pos ht]

theorem slateIn_typed (hm : hears s l = some m) (hlock : (pairOf s l).sfLock = true) (hcrc : slateCrcOk msg = true)
    (h1 : 1 ≤ slateType msg) (h7 : slateType msg < 7) : slateIn ty l msg act s = if ty.testBit (slateType msg) then act m s else s := by
  rw [slateIn_heard hm hlock, hcrc, Bool.not_true, if_neg Bool.false_ne_true, if_neg (by omega)]

theorem slateIn_acts {t : Nat} (hm : hears s l = some m) (hlock : (pairOf s l).sfLock = true) (hcrc : slateCrcOk msg = true)
    (ht : slateType msg = t) (h1 : 1 ≤ t) (h7 : t < 7) (hty : ty.testBit t = true) : slateIn ty l msg act s = act m s := by
  rw [slateIn_typed hm hlock hcrc (ht ▸ h1) (ht ▸ h7), ht, hty, if_pos rfl]

theorem slateIn_passed (hm : hears s l = some m) (hlock : (pairOf s l).sfLock = true) (hcrc : slateCrcOk msg = true)
    (h1 : 1 ≤ slateType msg) (h7 : slateType msg < 7) (hty : ty.testBit (slateType msg) = false) : slateIn ty l msg act s = s := by
  rw [slateIn_typed hm hlock hcrc h1 h7, hty, if_neg Bool.false_ne_true]

end

/-! #### COUNT, notices, acknowledgements and quiet messages -/

/-- R172: a COUNT with STATE 3 of a link in UP makes it depart, after the comparison. -/
theorem countActive_departs {l m off : Nat} {msg : BitVec 64} {s : State} (hup : (linkOf s m).state = .up)
    (hst : slateField msg 43 42 = 3) :
    countActive l m msg off s = depart m 0x02 0 (if (pairOf s l).adopted then countCompare l m (slateSf msg) s else s) := by
  rw [countActive]
  dsimp only
  rw [hup, if_neg fun h => absurd h.1 (by decide), if_pos hst, if_neg fun h => absurd h.1 (by decide)]

/-- R116: a notice that repeats none and crosses none. -/
theorem noticeActive_evaluates {l m : Nat} {msg : BitVec 64} {s : State}
    (hans : (pairOf s l).answer.all (fun a => a.sf != slateSf msg || a.seq != slateField msg 39 36) = true)
    (hcut : (pairOf s l).cut.all (fun c => !c.coord || !c.sent || c.acked) = true) :
    noticeActive l m msg s = noticeEval l m (slateSf msg) (slateField msg 39 36) (msg.getLsbD 40) (msg.getLsbD 41) s := by
  have hnew : (pairOf s l).answer.any (fun a => a.sf == slateSf msg && a.seq == slateField msg 39 36) = false := by
    cases ha : (pairOf s l).answer with
    | none => rfl
    | some a =>
      rw [ha] at hans
      simpa only [Option.any_some, Option.all_some, Bool.and_eq_false_iff, Bool.or_eq_true, bne_iff_ne, beq_eq_false_iff_ne] using hans
  have halone : (pairOf s l).cut.any (fun c => c.coord && c.sent && !c.acked) = false := by
    cases hc : (pairOf s l).cut with
    | none => rfl
    | some c =>
      rw [hc] at hcut
      simpa only [Option.any_some, Option.all_some, Bool.and_eq_false_iff, Bool.or_eq_true, Bool.not_eq_true', Bool.not_eq_false'] using hcut
  rw [noticeActive, hnew, if_neg Bool.false_ne_true, halone, if_neg Bool.false_ne_true]

theorem ackActive_none {l : Nat} {msg : BitVec 64} {s : State} (h : (pairOf s l).cut = none) : ackActive l msg s = s := by
  rw [ackActive, h]

theorem ackActive_cut {l : Nat} {msg : BitVec 64} {s : State} {c : Cut} (hc : (pairOf s l).cut = some c) :
    ackActive l msg s = if c.coord = false ∨ c.sf ≠ slateSf msg ∨ c.seq ≠ slateField msg 39 36 then s
      else if msg.getLsbD 40 then modPair l (fun p => { p with cut := some { c with acked := true } }) s
      else cutMiss l 0x05 0 slVerified stDisagree s := by
  rw [ackActive, hc]
  exact ite_of_iff (by simp [or_assoc])

theorem quietActive_answer {l m : Nat} {msg : BitVec 64} {s : State} {q : QuietReq} (hk : slateField msg 5 4 ≠ 1)
    (hq : (pairOf s l).quietReq = some q) :
    quietActive l m msg s = if q.mine = false ∨ q.sf ≠ BitVec.ofNat 32 (slateField msg 37 6) ∨ q.refresh ≠ slateField msg 44 38 then s
      else if slateField msg 5 4 = 2 then modPair l (fun p => { p with quietReq := some { q with granted := true } }) s
      else if slateField msg 5 4 = 3 then modPair l (fun p => { p with quietReq := none }) s else s := by
  rw [quietActive, if_neg hk, hq]
  exact ite_of_iff (by simp [or_assoc])

theorem quietActive_none {l m : Nat} {msg : BitVec 64} {s : State} (hk : slateField msg 5 4 ≠ 1) (hq : (pairOf s l).quietReq = none) :
    quietActive l m msg s = s := by
  rw [quietActive, if_neg hk, hq]

/-- Settles O45: each row through `slateIn`, and what the message of its type does. -/
theorem slateRows : Obligations.SlateRows := by
  refine ⟨fun l msg off s h => ⟨next_eq (slateIn_deaf h), next_eq (slateIn_deaf h), next_eq (slateIn_deaf h), next_eq (slateIn_deaf h),
      next_eq (slateIn_deaf h)⟩,
    fun l msg off s m hm hlock hcrc => ⟨next_eq (slateIn_bad hm hlock hcrc), next_eq (slateIn_bad hm hlock hcrc),
      next_eq (slateIn_bad hm hlock hcrc), next_eq (slateIn_bad hm hlock hcrc), next_eq (slateIn_bad hm hlock hcrc)⟩,
    fun l msg off s m hm hlock hcrc ht => ⟨next_eq (slateIn_unknown hm hlock hcrc ht), next_eq (slateIn_unknown hm hlock hcrc ht),
      next_eq (slateIn_unknown hm hlock hcrc ht), next_eq (slateIn_unknown hm hlock hcrc ht), next_eq (slateIn_unknown hm hlock hcrc ht)⟩,
    fun l msg off s m hm hlock hcrc ht hst => next_eq ?_, fun l msg off s m hm hlock hcrc ht hst => next_eq ?_,
    fun l msg off s m hm hlock hcrc ht hup h3 => next_eq ?_,
    fun l msg s m hm hlock hcrc ht => next_eq (slateIn_acts hm hlock hcrc ht (by decide) (by decide) rfl),
    fun l msg s m hm hlock hcrc ht hst hans hcut => next_eq ?_, fun l msg s m c hm hlock hcrc ht hst hc => next_eq ?_,
    fun l msg s m hm hlock hcrc ht h => next_eq ?_, fun l msg s m hm hlock hcrc ht => next_eq ?_,
    fun l msg s m hm hlock hcrc ht hup hk => next_eq ?_, fun l msg s m q hm hlock hcrc ht hup hk hq => next_eq ?_,
    fun l msg s m hm hlock hcrc ht h => next_eq ?_, fun l msg off s m t hm hlock hcrc ht h1 h7 => ?_⟩
  · refine (slateIn_acts hm hlock hcrc ht (by decide) (by decide) rfl).trans ?_
    dsimp only
    rw [hst, if_pos rfl]
  · refine (slateIn_acts hm hlock hcrc ht (by decide) (by decide) rfl).trans ?_
    dsimp only
    rw [hst, if_neg Bool.false_ne_true]
  · refine (slateIn_acts hm hlock hcrc ht (by decide) (by decide) rfl).trans ?_
    dsimp only
    rw [hup, if_pos (by decide), countActive_departs hup h3]
  · refine (slateIn_acts hm hlock hcrc ht (by decide) (by decide) rfl).trans ?_
    rw [hst, if_pos rfl, noticeActive_evaluates hans hcut]
  · refine (slateIn_acts hm hlock hcrc ht (by decide) (by decide) rfl).trans ?_
    rw [hst, if_pos rfl, ackActive_cut hc]
  · refine (slateIn_acts hm hlock hcrc ht (by decide) (by decide) rfl).trans ?_
    rcases h with h | h
    · rw [h, if_neg Bool.false_ne_true]
    · rw [ackActive_none h, ite_self]
  · rcases ht with ht | ht
    · exact slateIn_acts hm hlock hcrc ht (by decide) (by decide) rfl
    · exact slateIn_acts hm hlock hcrc ht (by decide) (by decide) rfl
  · refine (slateIn_acts hm hlock hcrc ht (by decide) (by decide) rfl).trans ?_
    rw [if_pos hup, quietActive, if_pos hk]
  · refine (slateIn_acts hm hlock hcrc ht (by decide) (by decide) rfl).trans ?_
    rw [if_pos hup, quietActive_answer hk hq]
  · refine (slateIn_acts hm hlock hcrc ht (by decide) (by decide) rfl).trans ?_
    rcases h with h | ⟨hk, hq⟩
    · rw [if_neg h]
    · rw [quietActive_none hk hq, ite_self]
  · subst ht
    have hpass {ty : Nat} {act : Nat → State → State} (hty : ty.testBit (slateType msg) = false) :
        slateIn ty l.toNat msg act s = s := slateIn_passed hm hlock hcrc h1 h7 hty
    exact ⟨fun h => next_eq (hpass ((by decide : ∀ t < 7, t ≠ 1 → Nat.testBit 0b10 t = false) _ h7 h)),
      fun h => next_eq (hpass ((by decide : ∀ t < 7, t ≠ 2 → Nat.testBit 0b100 t = false) _ h7 h)),
      fun h => next_eq (hpass ((by decide : ∀ t < 7, t ≠ 3 → Nat.testBit 0b1000 t = false) _ h7 h)),
      fun h4 h5 => next_eq (hpass ((by decide : ∀ t < 7, t ≠ 4 → t ≠ 5 → Nat.testBit 0b110000 t = false) _ h7 h4 h5)),
      fun h => next_eq (hpass ((by decide : ∀ t < 7, t ≠ 6 → Nat.testBit 0b1000000 t = false) _ h7 h))⟩

end Sys2Proof.Proofs
end

section
/-! ### Negotiation, the fast and the join road, and FDX training (R145 to R171, R385) -/

namespace Sys2Proof.Proofs

open Sys2Proof Sys2Proof.Machine Sys2Proof.Laws

/-! #### Negotiation -/

/-- R153: the resolution where an FDX mode is common and the partner is the expected one. -/
theorem resolution_fdx {m : Nat} {off : Int} {s : State} (hm : s.mode = .running) (hst : (linkOf s m).state = .negotiate)
    (hn : fdxChoice s m ≠ 0) (hx : unexpected (linkOf s m) = false) :
    resolution m off s = match roleOf s m with
      | none => roleConflict m 1 s
      | some pref => entryPhase m (fdxStart m 1 (portRole s m pref) off
          (modLink m (fun x => { x with road := 1, runMode := fdxChoice s m, runMask := pairsFrom (m % 8) (fdxChoice s m) }) s)) := by
  rw [resolution, if_neg (by simp [hm, hst])]
  dsimp only
  rw [if_pos hn, hx, if_neg Bool.false_ne_true] <;> rfl

/-- R153: the resolution where no FDX mode is common. -/
theorem resolution_compat {m : Nat} {off : Int} {s : State} (hm : s.mode = .running) (hst : (linkOf s m).state = .negotiate)
    (hn : fdxChoice s m = 0) :
    resolution m off s = if compatChoice s m ≠ 0 then compatStart m 4 (compatChoice s m) s else negotiateFail m 0x0A s := by
  rw [resolution, if_neg (by simp [hm, hst])]
  exact if_neg (not_not_intro hn)

/-- R171: what the COMPAT detector fired on selects: a COMPAT link's own technology, or the largest that fits an AUTO link. -/
def detectedMode (s : State) (m : Nat) (f : BitVec 8) (mode : Nat) : Nat :=
  if mode ≠ 0x80 then (if (linkPairs s m).any (fun l => !txPair s l && f.getLsbD (l % 8)) then mode - 0x10 else 0)
  else if firedRun s m f = 4 then 4 else if 2 ≤ firedRun s m f then 2 else firedRun s m f

theorem parallelDetect_fires {m n : Nat} {f : BitVec 8} {s u : State} {x : LinkSt} (hm : s.mode = .running) (hx : x = linkOf s m)
    (hst : x.state = .listen) (hf : f ≠ 0)
    (hu : u = each ((linkPairs s m).filter (fun l => f.getLsbD (l % 8) && lineRuns s l))
      (fun l s => modPair l (fun p => { p with detect := 3 }) s) s)
    (hn : detectedMode u m f x.mode = n) :
    parallelDetect m f s = if !(isCompat x.mode || x.mode == 0x80) then u
      else if n = 0 then u
      else if activationPending u then modLink m (fun x => { x with firedAs := some n }) u
      else compatStart m 5 n u := by
  rw [parallelDetect]
  dsimp only
  rw [← hx, if_neg (by simp [hm, hst]; exact hf), ← hu]
  rw [← hn]
  rfl

/-- Settles O46: pages, the resolution and the COMPAT detector, by what each finds. -/
theorem negotiationRows : Obligations.NegotiationRows := by
  refine ⟨fun l page ms s u m hm hl hu => next_eq ?_, fun l page ms s hm hl => next_eq ?_,
    fun m off s pref hm hst hn hx hr => next_eq ?_, fun m off s hm hst hn hx => next_eq ?_, fun m off s hm hst hn hx hr => next_eq ?_,
    fun m off s hm hst hn hc => next_eq ?_, fun m off s hm hst hn hc => next_eq ?_, fun m off s hst => next_eq (if_pos (.inr hst)),
    fun m f s u x n hm hx hst hf hu hc h80 hn hne hany => next_eq ?_, fun m f s u x c n hm hx hst hf hu h80 hc hn hne => next_eq ?_,
    fun m f s u x hm hx hst hf hu h => next_eq ?_, fun m f s h => next_eq (if_pos (.inr h))⟩
  · rw [pageIn, if_neg (not_not_intro hm), hl]
    dsimp only
    rw [← hu]
  · rw [pageIn, if_neg (not_not_intro hm), hl]
  · rw [resolution_fdx hm hst hn hx, hr]
  · rw [resolution, if_neg (by simp [hm, hst])]
    dsimp only
    rw [if_pos hn, hx, if_pos rfl]
  · rw [resolution_fdx hm hst hn hx, hr]
  · rw [resolution_compat hm hst hn, if_pos hc]
  · rw [resolution_compat hm hst hn, if_neg (not_not_intro hc)]
  · have hmode : detectedMode u m.toNat f x.mode = n := by rw [detectedMode, if_pos h80, hany, if_pos rfl, hn]
    rw [parallelDetect_fires hm hx hst hf hu hmode, hc, Bool.true_or, Bool.not_true, if_neg Bool.false_ne_true, if_neg hne]
  · have hmode : detectedMode u m.toNat f x.mode = n := by rw [detectedMode, if_neg (not_not_intro h80), ← hc, hn]
    rw [parallelDetect_fires hm hx hst hf hu hmode, h80, beq_self_eq_true, Bool.or_true, Bool.not_true, if_neg Bool.false_ne_true,
      if_neg hne]
  · rcases h with ⟨hc, h80⟩ | ⟨h80, h0⟩ | ⟨h80, hany⟩
    · rw [parallelDetect_fires hm hx hst hf hu rfl, hc, beq_eq_false_iff_ne.mpr h80, Bool.or_self, Bool.not_false, if_pos rfl]
    · have hmode : detectedMode u m.toNat f x.mode = 0 := by rw [detectedMode, if_neg (not_not_intro h80), h0]; rfl
      rw [parallelDetect_fires hm hx hst hf hu hmode, if_pos rfl, ite_self]
    · have hmode : detectedMode u m.toNat f x.mode = 0 := by rw [detectedMode, if_pos h80, hany]; rfl
      rw [parallelDetect_fires hm hx hst hf hu hmode, if_pos rfl, ite_self]

/-! #### Beacons and roads -/

theorem beaconIn_heard {l ms m : Nat} {b : BitVec 128} {s u : State} {x : LinkSt} (hl : linkOfPair s l = some m) (hm : s.mode = .running)
    (hx : x = linkOf s m) (hst : x.state = .listen) (hrun : lineRuns s l = true) (hon : beaconOn s m = true) (hb : beaconOk b = true)
    (hu : u = modPair l (fun p => { p with detect := 2 }) (latchLevel l 3 ms (timeStamp s) s)) :
    beaconIn l b ms s = if x.beacons = false then u
      else if bitsOf b.toNat 111 48 ≠ x.pol.expSerial ∨ bitsOf b.toNat 47 42 ≠ x.pol.expPort then modLink m (fun x => { x with beacons := false }) u
      else modPair l (fun p => { p with beaconOk := bitsOf b.toNat 41 39 == l % 8 }) (modLink m (fun x => { x with offer :=
        { x.offer with
          modes := BitVec.ofNat 4 (bitsOf b.toNat 38 35), pref := bitsOf b.toNat 33 32, forced := b.toNat.testBit 34,
          chainLocked := b.toNat.testBit 31, serial := bitsOf b.toNat 111 48, port := bitsOf b.toNat 47 42 } }) u) := by
  rw [beaconIn, hl]
  dsimp only
  rw [← hx, if_neg (by simp [hm, hst, hrun, hon, hb]), ← hu]
  exact ite_of_iff (by simp)

/-- R148, R168, R385: nothing keeps a listening link whose pairs all have their beacon off the fast road. -/
theorem fastEntry_open {m : Nat} {s : State} (hm : s.mode = .running) (ha : activationPending s = false)
    (hst : (linkOf s m).state = .listen) (hb : (linkOf s m).beacons = true) (hall : ∀ l ∈ linkPairs s m, (pairOf s l).beaconOk = true) :
    ¬ (s.mode ≠ .running ∨ activationPending s = true ∨ (linkOf s m).state ≠ .listen ∨ (linkOf s m).beacons = false ∨
      (!((linkPairs s m).all (fun l => (pairOf s l).beaconOk))) = true) := by
  have hok : (linkPairs s m).all (fun l => (pairOf s l).beaconOk) = true := List.all_eq_true.mpr hall
  rw [hm, ha, hst, hb, hok]
  decide

/-- Settles O47: beacons and the two roads, by what each of their conditions says. -/
theorem roadRows : Obligations.RoadRows := by
  refine ⟨fun l b ms s u m x hl hm hx hst hrun hon hb hu => next_eq (beaconIn_heard hl hm hx hst hrun hon hb hu),
    fun l b ms s m hl h => next_eq ?_, fun l b ms s hl => next_eq ?_, fun m s hm hst => next_eq (if_pos ⟨hm, hst⟩),
    fun m s hst => next_eq (if_neg fun h => hst h.2), fun m off s v pref slave hm ha hst hb hall hr hsl hv => next_eq ?_,
    fun m off s hm ha hst hb hall hr => next_eq ?_, fun m off s l h => next_eq ?_, fun m s hm hj hsl hall => next_eq ?_,
    fun m s l h => next_eq ?_⟩
  · rw [beaconIn, hl]
    refine if_pos (.inr ?_)
    rcases h with h | h | h | h
    · exact .inl h
    · exact .inr (.inl (by rw [h]; rfl))
    · exact .inr (.inr (.inl (by rw [h]; rfl)))
    · exact .inr (.inr (.inr (by rw [h]; rfl)))
  · rw [beaconIn, hl]
  · rw [fastEntry]
    dsimp only
    rw [if_neg (fastEntry_open hm ha hst hb hall), hr]
    dsimp only
    rw [← hsl, ← hv]
  · rw [fastEntry]
    dsimp only
    rw [if_neg (fastEntry_open hm ha hst hb hall), hr]
  · refine if_pos (.inr ?_)
    rcases h with h | h | h | ⟨hl, h⟩
    · exact .inl h
    · exact .inr (.inl h)
    · exact .inr (.inr (.inl h))
    · refine .inr (.inr (.inr ?_))
      rw [Bool.not_eq_true', List.all_eq_false]
      exact ⟨l, hl, by rw [h]; decide⟩
  · exact if_pos ⟨hm, hj, hsl, List.all_eq_true.mpr hall⟩
  · refine if_neg ?_
    rintro ⟨-, hj, hsl, hall⟩
    rcases h with h | h | ⟨hl, h⟩
    · exact absurd (hj.symm.trans h) (by decide)
    · exact absurd (hsl.symm.trans h) (by decide)
    · exact absurd ((List.all_eq_true.mp hall l hl).symm.trans h) (by decide)

/-! #### FDX training -/

theorem phaseEnd_ends {m : Nat} {s : State} (hm : s.mode = .running) (hst : (linkOf s m).state = .train) (h0 : (linkOf s m).phase ≠ 0)
    (hh : (linkOf s m).heldAt = false) (hd : phaseDone s m = true) :
    phaseEnd m s = if (linkOf s m).hold then holdHere m s else phaseNext m s :=
  if_neg (by simp [hm, hst, h0, hh, hd])

/-- Settles O48: the rows of training, by what each of their conditions says. -/
theorem trainingRows : Obligations.TrainingRows := by
  refine ⟨fun m s hm hst hsl hf h => next_eq (if_pos ⟨hm, hst, hsl, hf, h⟩), fun m s h => next_eq ?_,
    fun m s hm hst hsl h => next_eq (if_pos ⟨hm, hst, hsl, h⟩), fun m s h => next_eq ?_, fun m s hm hst hp hh hhold hall => next_eq ?_,
    fun m s hm hst h0 hh hd => next_eq (phaseEnd_ends hm hst h0 hh hd), fun m s h => next_eq (if_pos (.inr h)),
    fun m s hm hst h0 h2 hh => next_eq (if_neg (by simp [hm, hst, h0, h2, hh])), fun m s h => next_eq (if_pos (.inr h)),
    fun l e s m ok hm hl hst hp hact hok => next_eq ?_, fun l e s h => next_eq ?_⟩
  · refine if_neg ?_
    rintro ⟨-, hst, hsl, -, hroad⟩
    rcases h with h | h | h
    · exact h hst
    · exact absurd (hsl.symm.trans h) (by decide)
    · exact h hroad
  · refine if_neg ?_
    rintro ⟨-, hst, hsl, -⟩
    rcases h with h | h
    · exact h hst
    · exact absurd (hsl.symm.trans h) (by decide)
  · have hd : phaseDone s m.toNat = true := (if_pos hp).trans hall
    rw [phaseEnd_ends hm hst (by rw [hp]; decide) hh hd, hhold, if_neg Bool.false_ne_true, phaseNext]
    exact if_pos hp
  · rw [qualWindow, hl]
    dsimp only
    rw [if_neg (by simp only [hm, hst, hp, hact]; decide), ← hok]
  · rw [qualWindow]
    cases hl : linkOfPair s l.toNat with
    | none => rfl
    | some m =>
      rw [hl] at h
      simp only [Option.all_some, Bool.or_eq_true, bne_iff_ne] at h
      exact if_pos (.inr (by simpa only [or_assoc] using h))

end Sys2Proof.Proofs
end

section
/-! PROOFS. The ways out of a link (O49), and the grading rows (O50). -/
namespace Sys2Proof.Proofs
open Sys2Proof Sys2Proof.Machine Sys2Proof.Laws

/-! #### COMPAT training -/

/-- R170: the pair of a COMPAT link in training whose partner may ask for settings. -/
theorem request_open {l m : Nat} {s : State} (hm : s.mode = .running) (hst : (linkOf s m).state = .train)
    (hc : isCompat (modeOf s m) = true) (ha : (activePairs s m).contains l = true) (ht : txPair s l = true) :
    ¬ (s.mode ≠ .running ∨ (linkOf s m).state ≠ .train ∨ (!isCompat (modeOf s m)) = true ∨ (!(activePairs s m).contains l) = true ∨
      (!txPair s l) = true) := by
  rw [hm, hst, hc, ha, ht]
  decide

theorem trainRequest_cut {l m k : Nat} {tx : BitVec 128} {s u v w : State} {t : List Byte} (hl : linkOfPair s l = some m)
    (ho : ¬ (s.mode ≠ .running ∨ (linkOf s m).state ≠ .train ∨ (!isCompat (modeOf s m)) = true ∨ (!(activePairs s m).contains l) = true ∨
      (!txPair s l) = true)) (hr : (t, u) = requestTake l m (leBytes 16 tx.toNat) s) (hk : anySlot u l = some k)
    (hv : v = takeWords 0x22 0 l k 4096 (writeTake l k t u)) (hw : w = entryCut l k (setSlot l k slVerified false v)) :
    trainRequest l tx s = if (verifyTake (takeContext v l) (takeAt v l k)).1 = 0 then
      (if slotCode w l k = slActive then emit (.coefStatus l (((pairOf w l).active.tx.drop 0x40).take 16)) w else w) else v := by
  rw [trainRequest, hl]
  dsimp only
  rw [if_neg ho, ← hr]
  dsimp only
  rw [hk]
  dsimp only
  rw [← hv, ← hw]

theorem trainRequest_noSlot {l m : Nat} {tx : BitVec 128} {s u : State} {t : List Byte} (hl : linkOfPair s l = some m)
    (ho : ¬ (s.mode ≠ .running ∨ (linkOf s m).state ≠ .train ∨ (!isCompat (modeOf s m)) = true ∨ (!(activePairs s m).contains l) = true ∨
      (!txPair s l) = true)) (hr : (t, u) = requestTake l m (leBytes 16 tx.toNat) s) (hk : anySlot u l = none) :
    trainRequest l tx s = count (takeStoreFullR l) 1 u := by
  rw [trainRequest, hl]
  dsimp only
  rw [if_neg ho, ← hr]
  dsimp only
  rw [hk]

/-- Settles O49: training, a lost signal, LEAVING and HOLDOFF, by what each of their conditions says. -/
theorem compatAndLeavingRows : Obligations.CompatAndLeavingRows := by
  refine ⟨fun l tx s u v w m k t hm hl hst hc ha ht hr hk hv hw =>
      next_eq (trainRequest_cut hl (request_open hm hst hc ha ht) hr hk hv hw),
    fun l tx s u m t hm hl hst hc ha ht hr hk => next_eq (trainRequest_noSlot hl (request_open hm hst hc ha ht) hr hk),
    fun l tx s h => next_eq ?_, fun m s hc hall => next_eq ?_, fun m s l h => next_eq ?_, fun m s => rfl, fun l s m hl => next_eq ?_,
    fun l s hl => next_eq ?_, fun m s hm h => next_eq ?_, fun m s hf he ht => next_eq ?_, fun m s hm hst h => next_eq ?_,
    fun m s h => next_eq (if_pos (.inr h))⟩
  · rw [trainRequest]
    cases hl : linkOfPair s l.toNat with
    | none => rfl
    | some m =>
      rw [hl] at h
      simp only [Option.all_some, Bool.or_eq_true, bne_iff_ne] at h
      exact if_pos (.inr (by simpa only [or_assoc] using h))
  · refine if_pos ?_
    rw [hc, List.all_eq_true.mpr hall]
    rfl
  · refine if_neg ?_
    rw [Bool.and_eq_true]
    rintro ⟨hc, hall⟩
    rcases h with h | ⟨hl, h⟩
    · exact absurd (hc.symm.trans h) (by decide)
    · exact absurd ((List.all_eq_true.mp hall l hl).symm.trans h) (by decide)
  · rw [signalLost, hl]
  · rw [signalLost, hl]
  · rw [leaveDone, if_neg (not_not_intro hm)]
    refine if_neg ?_
    rw [Bool.and_eq_true, Bool.and_eq_true, decide_eq_true_eq]
    rintro ⟨⟨hf, he⟩, ht⟩
    rcases h with h | h | h
    · exact absurd (hf.symm.trans h) (by decide)
    · exact absurd he (Nat.not_lt.mpr h)
    · exact absurd (ht.symm.trans h) (by decide)
  · rw [leaveDone]
    refine ite_eq_left_iff.mpr fun _ => if_pos ?_
    rw [hf, decide_eq_true he, ht]
    rfl
  · refine if_neg ?_
    rintro (h' | h' | ⟨hw, hs⟩)
    · exact h' hm
    · exact h' hst
    · rcases h with h | h
      · exact absurd (hw.symm.trans h) (by decide)
      · exact hs h

/-! #### The take loader and grading -/

/-- The retake pass of a run of pair 0 has folded seven segments; the eighth, at symbol 5 of superframe 0, is captured. -/
def retakeEighth : State :=
  { wr (tileClkEnR 0) 0xF { State.reset with mode := .running } with
    runs := [(0, [{ pair := 0, cls := 1, started := true, retake := true, segs := 7 }])]
    captures := [(0, [{ owner := 1, state := 3, posStart := 5 }])] }

/-- Refutes O50: where the eighth segment ends a retake pass, the model keeps the run's SEG_AT, the place of the take's last segment,
and the statement's clause gives it the place of the segment that was folded. In `retakeEighth` the one is 0 and the other 5. -/
theorem not_gradingRows : ¬ Obligations.GradingRows := by
  unfold Obligations.GradingRows
  rintro ⟨-, -, -, -, -, -, -, -, hfold, -⟩
  have h := hfold 0 retakeEighth _ { pair := 0, cls := 1, started := true, retake := true, segs := 7 }
    { owner := 1, state := 3, posStart := 5 } rfl (by decide +kernel) (by decide +kernel) (by decide +kernel) rfl
  have hsegs : (runsOf (segFold 0 retakeEighth) 0).map Run.segAt = [5] :=
    (congrArg (fun s => (runsOf s 0).map Run.segAt) (Host.Outcome.next.inj h)).trans (by decide +kernel)
  exact absurd hsegs (by decide +kernel)

end Sys2Proof.Proofs
end

section
/-! PROOFS. Captures, continuity records and diagnostics (O51, O52). -/
namespace Sys2Proof.Proofs
open Sys2Proof Sys2Proof.Machine Sys2Proof.Laws

/-! #### Continuity records -/

theorem contWrite_unavailable {m : Nat} {s : State} (hm : s.mode = .running) (hd : s.contDue.contains m = true)
    (hr : mramReady s = false) :
    contWrite m s = { s with contDue := s.contDue.filter (fun x => x != m), contDrop := s.contDrop + 1 } := by
  rw [contWrite, if_neg (by rw [hm, hd]; decide), if_pos (by rw [hr]; rfl)]
  rfl

theorem contWrite_waits {m : Nat} {s : State} (hr : mramReady s = true)
    (hh : mramHold s = true ∨ supHalted s = true) : contWrite m s = s := by
  rw [contWrite, hr, Bool.not_true, if_neg Bool.false_ne_true, if_pos (Bool.or_eq_true_iff.mpr hh)]
  exact ite_self _

theorem contWrite_writes {m i : Nat} {e : Bool} {b : List Byte} {s u : State} (hm : s.mode = .running)
    (hd : s.contDue.contains m = true) (hr : mramReady s = true) (hh : mramHold s = false) (hp : supHalted s = false)
    (hi : (i, e) = contPlace s (linkOf s m).serial (linkOf s m).port (m / 8))
    (hb : (b, u) = contRecord m (s.contUse + 1) (contEvicted e i s)) :
    contWrite m s = contWritten m (contPut i (s.contUse + 1) b u) := by
  rw [contWrite, if_neg (by rw [hm, hd]; decide), if_neg (by rw [hr]; decide), if_neg (by rw [hh, hp]; decide)]
  dsimp only
  rw [← hi]
  dsimp only
  rw [← hb]

/-! #### Captures -/

theorem captureStart_starts {p pos ring : Nat} {s u : State} {c : Capture} {q : List Capture} {h : List Byte} {x : Nat × Nat}
    (hm : s.mode = .running) (hq : capsOf s p = c :: q)
    (hx : x = captureFirst ((eight (8 * p)).any (fun l => (pairOf s l).txOn)) c pos ring) (h1 : c.state = 1)
    (ht : triggerCame s p c pos = true) (hr : retakeSpaced s p c x.1 = true) (hh : (h, u) = segHeader p c pos x.1 x.2 s) :
    captureStart p pos ring s = putCaps p ({ c with
      state := 2, header := h, live := BitVec.ofNat 8 (liveMask u p), cuts := (eight (8 * p)).map (fun l => (pairOf u l).cuts)
      sfStart := leAt h 0xC 4, posStart := leAt h 0x10 4, timeStart := leAt h 0x18 8 } :: q)
      (areaPut p 0 (List.replicate recordLen none) u) := by
  rw [captureStart, hq]
  dsimp only
  rw [← hx, if_neg (by simp [hm, h1, ht, hr]), ← hh]

theorem captureStart_waits {p pos ring : Nat} {s : State} (h : (capsOf s p).head?.all (fun c => c.state != 1 || !triggerCame s p c pos ||
      !retakeSpaced s p c (captureFirst ((eight (8 * p)).any (fun l => (pairOf s l).txOn)) c pos ring).1) = true) :
    captureStart p pos ring s = s := by
  rw [captureStart]
  cases hq : capsOf s p with
  | nil => rfl
  | cons c q =>
    rw [hq] at h
    simp only [List.head?_cons, Option.all_some, Bool.or_eq_true, Bool.not_eq_true', bne_iff_ne, or_assoc] at h
    exact if_pos (.inr h)

theorem captureDone_capturing {p : Nat} {data : List Byte} {s u : State} {c d : Capture} {q : List Capture} (hm : s.mode = .running)
    (hq : capsOf s p = c :: q) (h2 : c.state = 2)
    (hd : d = { c with header := c.header.take 0x5C ++ leBytes 1 (c.live.toNat &&& liveMask s p) ++ c.header.drop 0x5D })
    (hu : u = areaWords 0x22 0xD p 0 recordLen (areaPut p 0 (segRecord d data)
      (putCaps p ({ d with state := 3, etag := none } :: q) s))) :
    captureDone p data s = c.etag.elim u (fun e => complete e stOk [3, 0, 0, 0] u) := by
  rw [captureDone, hq]
  dsimp only
  rw [if_neg (by simp [hm, h2])]
  subst hd hu
  cases c.etag <;> rfl

theorem captureDone_other {p : Nat} {data : List Byte} {s : State} (h : (capsOf s p).head?.all (fun c => c.state != 2) = true) :
    captureDone p data s = s := by
  rw [captureDone]
  cases hq : capsOf s p with
  | nil => rfl
  | cons c q =>
    rw [hq] at h
    exact if_pos (.inr (bne_iff_ne.mp h))

theorem rushesHeld_front {p : Nat} {s : State} {c : Capture} {q : List Capture} (hm : s.mode = .running) (hq : capsOf s p = c :: q) :
    rushesHeld p s = if c.owner = 0 ∧ c.heldSent = false ∧ q.any (fun r => r.owner == 1) = true then
      raise 0x0902 (unitPort p) [] (putCaps p ({ c with heldSent := true } :: q) s) else s := by
  rw [rushesHeld, hq]
  dsimp only
  refine (ite_of_iff ?_).trans (ite_not _ _ _)
  simp only [hm, ne_eq, not_true_eq_false, false_or, Classical.not_and_iff_not_or_not, Bool.not_eq_false, Bool.not_eq_true', Bool.not_eq_true]

theorem uploadDone_uploads {p off len : Nat} {s u v : State} {f : InFlight} {c : Capture} {b : List Byte} (hm : s.mode = .running)
    (hf : (running s 0x0403 3 p).head? = some f) (hc : doneCapture s p = some c) (ho : off = leAt f.cmd.params 8 4)
    (hl : len = (if leAt f.cmd.params 12 4 = 0 then recordLen - off else leAt f.cmd.params 12 4))
    (hb : (b, u) = areaRead p off len (areaWords 0x21 0xE p off len s)) (hv : v = hostWriteBy 0xE (leAt f.cmd.params 0 8) b u) :
    uploadDone p s = complete f.etag stOk (leBytes 4 len) (if leAt f.cmd.params 16 1 = 1 then dropHostCapture p v else v) := by
  rw [uploadDone, hf, hc]
  dsimp only
  rw [if_neg (not_not_intro hm), ← ho, ← hl, ← hb]
  dsimp only
  rw [← hv]

/-- Settles O51: the continuity write, the start and end of a capture, a held area and an upload, by what waits in each. -/
theorem captureRows : Obligations.CaptureRows := by
  refine ⟨fun m s hm hd hr => next_eq (contWrite_unavailable hm hd hr), fun m s _ hr hh => next_eq (contWrite_waits hr hh),
    fun m s hd => next_eq (if_pos (.inr (by rw [hd]; rfl))),
    fun m s u i e b hm hd hr hh hp hi hb => next_eq (contWrite_writes hm hd hr hh hp hi hb),
    fun p pos ring s u c q h x hm hq hx h1 ht hr hh => next_eq (captureStart_starts hm hq hx h1 ht hr hh),
    fun p pos ring s h => next_eq (captureStart_waits h), fun p data s u c d q hm hq h2 hd hu => next_eq ?_,
    fun p data s h => next_eq (captureDone_other h), fun p s c q hm hq => next_eq (rushesHeld_front hm hq),
    fun p s hq => next_eq ?_, fun p s u v f c off len b hm hf hc ho hl hb hv => next_eq (uploadDone_uploads hm hf hc ho hl hb hv),
    fun p s f hf hc => next_eq ?_, fun p s hr => next_eq ?_⟩
  · rw [captureDone_capturing hm hq h2 hd hu]
    cases c.etag <;> rfl
  · rw [rushesHeld, hq]
  · rw [uploadDone, hf, hc]
  · rw [uploadDone, hr]
    rfl

/-! #### Diagnostics -/

theorem cablePairDone_tested {p far len e k d vp : Nat} {cs : List Cluster} {next : List (BitVec 16)} {s u : State} {x : PortSt}
    {c : Cmd} {bad : Bool} {out nx : List Byte} {left : BitVec 8} (hm : s.mode = .running) (hx : x = portOf s p)
    (he : x.cableTest = some e) (hk : (List.range 8).find? (fun j => x.cableMask.getLsbD j) = some k) (ha : atFdxClock s p = true)
    (hc : c = ((s.cmd.inflight.find? (fun f => f.etag == e)).map (fun f => f.cmd)).getD {}) (hd : (bad, d, vp) = cableParams c.params 2)
    (hout : out = x.cableOut ++ cableRecord s (8 * p + k) d vp cs far len)
    (hnx : nx = x.cableNext ++ ((List.range 8).filter (fun j => decide (k < j) && (leAt c.params 0 1).testBit j)).flatMap
      (fun j => leBytes 1 k ++ leBytes 1 j ++ leBytes 2 (next.getD j 0).toNat))
    (hl : left = x.cableMask &&& ~~~(BitVec.ofNat 8 (2 ^ k)))
    (hu : u = modPort p (fun x => { x with cableTest := none, cableMask := 0, cableOut := [], cableNext := [] }) s) :
    cablePairDone p cs far len next s = if left = 0 then complete e stOk (cableHeader c ++ out ++ nx) u
      else modPort p (fun x => { x with cableMask := left, cableOut := out, cableNext := nx }) s := by
  rw [cablePairDone, ← hx, he, hk]
  dsimp only
  rw [if_neg (by simp [hm, ha]), ← hc, ← hd]
  dsimp only
  rw [← hout, ← hnx, ← hl, ← hu]

theorem cablePairDone_idle {p far len : Nat} {cs : List Cluster} {next : List (BitVec 16)} {s : State}
    (h : (portOf s p).cableTest = none ∨ (portOf s p).cableMask = 0 ∨ atFdxClock s p = false) :
    cablePairDone p cs far len next s = s := by
  rw [cablePairDone]
  rcases h with h | h | h
  · rw [h]
  · rw [h]
    cases (portOf s p).cableTest <;> rfl
  · cases (portOf s p).cableTest with
    | none => rfl
    | some e =>
      cases (List.range 8).find? (fun k => (portOf s p).cableMask.getLsbD k) with
      | none => rfl
      | some k => exact if_pos (.inr h)

theorem eyePoint_scan {n k e : Nat} {s u : State} {f : InFlight} {g : List Int × List Nat × Nat} (hm : s.mode = .running)
    (he : (laneOf s n).scan = some e) (hf : s.cmd.inflight.find? (fun x => x.etag == e) = some f) (hg : eyeGrid f.cmd.params = some g)
    (hu : u = hostWriteBy 5 (leAt f.cmd.params 0 8 + 4 * (laneOf s n).scanPoint) (leBytes 4 k) s) :
    eyePoint n k s = if eyePoints g ≤ (laneOf s n).scanPoint + 1 then
      complete e stOk (leBytes 4 (eyePoints g) ++ leBytes 4 (2 ^ g.2.2 / 1024)) (modLane n (fun x => { x with scan := none, scanPoint := 0 }) u)
      else modLane n (fun x => { x with scanPoint := x.scanPoint + 1 }) u := by
  rw [eyePoint, if_neg (not_not_intro hm), he]
  dsimp only
  rw [hf, Option.map_some, Option.getD_some, hg]
  dsimp only
  rw [← hu]

theorem eyePoint_auto {n k e : Nat} {s u : State} {x : LaneSt} (hm : s.mode = .running) (hx : x = laneOf s n) (hs : x.scan = none)
    (he : x.auto = some e)
    (hu : u = (if x.autoArea < k ∨ x.scanPoint = 0 then modLane n (fun y => { y with autoBest := x.scanPoint, autoArea := k }) s else s)) :
    eyePoint n k s = if 28 ≤ x.scanPoint then ctleAutoEnd n e u else modLane n (fun y => { y with scanPoint := y.scanPoint + 1 }) u := by
  rw [eyePoint, if_neg (not_not_intro hm), ← hx, hs, he]
  dsimp only
  rw [← hu]

theorem utilDiscard_wrF (a hi lo v : Nat) (s : State) : (wrF a hi lo v s).utilDiscard = s.utilDiscard := rfl

theorem utilEnd_sums {p un : Nat} {cs : List (BitVec 48)} {um : BitVec 8} {s u : State} (hm : s.mode = .running)
    (hb : utilBoundary s p = true) (hd : s.utilDiscard.contains p = false)
    (hu : u = wrF (utilR p 0) 31 16 (rdF s (utilR p 0) 31 16 + 1) s)
    (hn : un = ((List.range 8).filter (fun k => !((!um.getLsbD k && streamMonitored u p k 0) &&
      (!um.getLsbD k && streamMonitored u p k 1)))).foldl (fun a k => a + 2 ^ k) 0) :
    utilEnd p cs um s = each (List.range 6) (fun i s => wrWide (utilR p (8 + 8 * i)) 48
      ((((List.range 8).filter (fun k => !um.getLsbD k && streamMonitored u p k (if i < 3 then 1 else 0))).map
        (fun k => (cs.getD (6 * k + i) 0).toNat)).sum) s) (wrF (utilR p 0) 15 8 un u) := by
  have hdu : u.utilDiscard.contains p = false := by rw [hu, utilDiscard_wrF, hd]
  rw [utilEnd, if_neg (by simp [hm, hb])]
  dsimp only
  rw [← hu, if_neg (by rw [hdu]; exact Bool.false_ne_true), ← hn]

theorem utilEnd_discarded {p : Nat} {cs : List (BitVec 48)} {um : BitVec 8} {s u : State} (hm : s.mode = .running)
    (hb : utilBoundary s p = true) (hd : s.utilDiscard.contains p = true)
    (hu : u = wrF (utilR p 0) 31 16 (rdF s (utilR p 0) 31 16 + 1) s) :
    utilEnd p cs um s = { u with utilDiscard := u.utilDiscard.filter (fun q => q != p) } := by
  have hdu : u.utilDiscard.contains p = true := by rw [hu, utilDiscard_wrF, hd]
  rw [utilEnd, if_neg (by simp [hm, hb])]
  dsimp only
  rw [← hu, if_pos hdu]

section
variable {g : Nat} {recs : List PairMeasure} {s : State} {r : Run} {c : Capture} (hm : s.mode = .running)
  (hr : (runsOf s g).find? (fun r => r.profile && r.started) = some r)
  (hc : (capsOf s (r.pair / 8)).find? (fun c => c.owner == 2 && c.state == 3) = some c)
include hm hr hc

theorem profileDone_up {u : State} {now seen : List Nat} {d vp : Nat} {bad : Bool} {body : List Byte} (hst : (linkOf s r.pair).state = .up)
    (hnow : now = (activePairs s r.pair).map (fun l => (pairOf s l).cuts))
    (hseen : seen = (if r.fails = 0 then (activePairs s r.pair).map (fun l => c.cuts.getD (l % 8) 0) else r.slots))
    (hu : u = capDrop (r.pair / 8) (fun c => c.owner == 2) (putRuns g ((runsOf s g).filter (fun q => q != r)) s))
    (hd : (bad, d, vp) = cableParams (((s.cmd.inflight.find? (fun f => f.etag == r.etag)).map (fun f => f.cmd.params)).getD []) 0)
    (hbody : body = (((activePairs s r.pair).zip (List.range 8)).map
      (fun x => profileRecord s r.pair x.1 d vp (recs.getD x.2 ⟨[], [], [], 0, 0⟩))).flatten) :
    profileDone g recs s =
      if now = seen then complete r.etag stOk (leBytes 1 (activePairs s r.pair).length ++ zeros 1 ++ leBytes 2 d ++ leBytes 1 vp ++ zeros 3
        ++ leBytes 4 c.sfStart ++ zeros 4 ++ body) u
      else if r.fails = 0 then putRuns g ((runsOf s g).map (fun q => if q == r then { q with fails := 1, slots := now } else q)) s
      else complete r.etag stAborted [] u := by
  rw [profileDone, hr]
  dsimp only
  rw [hc]
  dsimp only
  rw [if_neg (not_not_intro hm), if_neg (not_not_intro hst), ← hnow, ← hseen, ← hd]
  dsimp only
  rw [← hu, ← hbody]

theorem profileDone_down (hst : (linkOf s r.pair).state ≠ .up) :
    profileDone g recs s = complete r.etag stAborted [] (capDrop (r.pair / 8) (fun c => c.owner == 2)
      (putRuns g ((runsOf s g).filter (fun q => q != r)) s)) := by
  rw [profileDone, hr]
  dsimp only
  rw [hc]
  dsimp only
  rw [if_neg (not_not_intro hm), if_pos hst]

end

/-- Settles O52: the cable test, the eye scan, the utilization window and the cable profile, by what each has left to do. -/
theorem diagnosticRows : Obligations.DiagnosticRows := by
  refine ⟨fun p cs far len next s u x c e k d vp bad out nx left hm hx he hk ha hc hd hout hnx hl hu =>
      next_eq (cablePairDone_tested hm hx he hk ha hc hd hout hnx hl hu),
    fun p cs far len next s h => next_eq (cablePairDone_idle h), fun n k s u e f g hm he hf hg hu => next_eq (eyePoint_scan hm he hf hg hu),
    fun n k s u e x hm hx hs he hu => next_eq (eyePoint_auto hm hx hs he hu), fun n k s hs ha => next_eq ?_,
    fun p cs um s u counted un hm hb hd hu hc hn => next_eq ?_,
    fun p cs um s u hm hb hd hu => next_eq (utilEnd_discarded hm hb hd hu), fun p cs um s hb => next_eq (if_pos (.inr hb)),
    fun g recs s u r c now seen d vp bad body hm hr hc hst hnow hseen hu hd hbody =>
      next_eq (profileDone_up hm hr hc hst hnow hseen hu hd hbody),
    fun g recs s r c hm hr hc hst => next_eq (profileDone_down hm hr hc hst), fun g recs s hr => next_eq ?_⟩
  · rw [eyePoint, hs, ha]
    exact ite_self _
  · obtain rfl : counted = fun k dir => !um.getLsbD k && streamMonitored u p.toNat k dir := funext fun k => funext fun dir => hc k dir
    exact utilEnd_sums hm hb hd hu hn
  · rw [profileDone, hr]

end Sys2Proof.Proofs
end

section
/-! PROOFS. The host lanes, and the ends of resets with the RS monitors (O53, O54). -/
namespace Sys2Proof.Proofs
open Sys2Proof Sys2Proof.Machine Sys2Proof.Laws

/-! #### Markers that arrive -/

section
variable {n : Nat} {p : BitVec 512} {t : Word} {k : Nat} {a b : HalfSign} {s : State}

/-- R219: the receive lane that may take a marker. -/
theorem markerIn_enabled (hm : s.mode = .running) (ht : laneIsTx n = false) (he : laneEnabled s n = true) :
    ¬ (s.mode ≠ .running ∨ laneIsTx n = true ∨ laneEnabled s n = false) := by
  rw [hm, ht, he]
  decide

theorem markerIn_decoded {u : Nat} {v w : State} (hm : s.mode = .running) (ht : laneIsTx n = false) (he : laneEnabled s n = true)
    (h2 : laneState s n = 2) (hv : v = halvesIn n b (halvesIn n a (count (hlStuffErr n) k s)))
    (hu : mkDecode (if (laneOf v n).invLevels then ~~~p else p) = some u) (hw : w = keepMarker n u t v) :
    markerIn n p t k a b s = if (laneOf w n).settled = false then w
      else if u.testBit 69 then laneSigns n a b w else deskew n (laneSigns n a b w) := by
  rw [markerIn, if_neg (markerIn_enabled hm ht he), h2]
  dsimp only
  rw [← hv, hu]
  dsimp only
  rw [← hw]
  exact ite_of_iff (by rw [Bool.not_eq_true'])

theorem markerIn_undecoded {v : State} (hm : s.mode = .running) (ht : laneIsTx n = false) (he : laneEnabled s n = true)
    (h2 : laneState s n = 2) (hv : v = halvesIn n b (halvesIn n a (count (hlStuffErr n) k s)))
    (hu : mkDecode (if (laneOf v n).invLevels then ~~~p else p) = none) : markerIn n p t k a b s = markerLost n v := by
  rw [markerIn, if_neg (markerIn_enabled hm ht he), h2]
  dsimp only
  rw [← hv, hu]
  rfl

theorem markerIn_unlocked (hm : s.mode = .running) (ht : laneIsTx n = false) (he : laneEnabled s n = true)
    (h : laneState s n = 1 ∨ laneState s n = 4) : markerIn n p t k a b s = lockMarker n p t a b s := by
  rw [markerIn, if_neg (markerIn_enabled hm ht he)]
  rcases h with h | h
  · rw [h]
    rfl
  · rw [h]
    rfl

theorem lockMarker_wrongDirection {u : Nat} (hs : (laneOf s n).settled = false)
    (hu : mkDecode (if mkInverted p then ~~~p else p) = some u) (h66 : u.testBit 66 = true)
    (hf : laneState (laneFault n 2 s) n ≠ 2) : lockMarker n p t a b s = laneFault n 2 s := by
  have hfirst : firstLock n u (mkInverted p) s = laneFault n 2 s := if_pos h66
  rw [lockMarker, hs]
  dsimp only
  rw [if_neg Bool.false_ne_true, hu]
  dsimp only
  rw [if_neg Bool.false_ne_true, hfirst, if_pos hf]

theorem markerIn_other (h : s.mode ≠ .running ∨ laneIsTx n = true ∨ laneEnabled s n = false ∨ laneState s n = 0 ∨ laneState s n = 3 ∨
    5 ≤ laneState s n) : markerIn n p t k a b s = s := by
  rw [markerIn]
  rcases h with h | h | h | h | h | h
  · exact if_pos (.inl h)
  · exact if_pos (.inr (.inl h))
  · exact if_pos (.inr (.inr h))
  · rw [h]
    exact ite_self _
  · rw [h]
    exact ite_self _
  · obtain ⟨j, hj⟩ := Nat.exists_eq_add_of_le' h
    rw [hj]
    exact ite_self _

end

/-! #### Locked receive lanes -/

theorem rxLocked_iff {s : State} {n : Nat} : rxLocked s n = true ↔ s.mode = .running ∧ laneIsTx n = false ∧ laneState s n = 2 := by
  simp [rxLocked, and_assoc]

theorem markerLost_locked {n : Nat} {s : State} (ht : laneIsTx n = false) (h2 : laneState s n = 2) :
    markerLost n s = streamsAbsent n (count (hlMarkerLost n) 1 (modLane n (fun x => { x with descramble := false }) s)) :=
  if_neg (by simp [ht, h2])

theorem markerLost_unlocked {n : Nat} {s : State} (h : rxLocked s n = false) :
    (if s.mode = .running then markerLost n s else s) = s := by
  refine ite_eq_right_iff.mpr fun hm => if_pos (Classical.byContradiction fun hc => ?_)
  rw [not_or, Classical.not_not, Bool.not_eq_true] at hc
  exact Bool.false_ne_true (h.symm.trans (rxLocked_iff.mpr ⟨hm, hc⟩))

theorem slipEnd_found {n : Nat} {s u : State} (h : rxLocked s n = true) (hs : (laneOf s n).searching = true)
    (hu : u = modLane n (fun x => { x with searching := false }) s) :
    slipEnd n true s = count (hlSlip n) 1 u ∧ slipEnd n false s = laneLoseLock n u := by
  rw [slipEnd, slipEnd, h, hs, ← hu]
  exact ⟨rfl, rfl⟩

theorem rxAsleep_locked {n k : Nat} {s : State} (h : rxLocked s n = true) :
    rxAsleep n k s = if (laneOf s n).sleepMark = true ∧ k ≤ 64
      then streamsAbsent n (setLaneState n 3 (modLane n (fun x => { x with sleepMark := false, descramble := false }) s))
      else laneLoseLock n s :=
  (if_pos h).trans (ite_of_iff (by rw [Bool.and_eq_true, decide_eq_true_eq]))

/-- Settles O53: each row of a lane, by the state of the lane that it needs. -/
theorem hostLaneRows : Obligations.HostLaneRows := by
  refine ⟨fun n p t k a b s v w u hm ht he h2 hv hu hw => next_eq (markerIn_decoded hm ht he h2 hv hu hw),
    fun n p t k a b s v hm ht he h2 hv hu => next_eq (markerIn_undecoded hm ht he h2 hv hu),
    fun n p t k a b s hm ht he h => next_eq (markerIn_unlocked hm ht he h),
    fun n p t k a b s u hm ht he h1 hs hu h66 hf =>
      next_eq ((markerIn_unlocked hm ht he (.inl h1)).trans (lockMarker_wrongDirection hs hu h66 hf)),
    fun n p t k a b s h => next_eq (markerIn_other h), fun n s hm ht h2 => next_eq ((if_pos hm).trans (markerLost_locked ht h2)),
    fun n s h => ⟨next_eq (if_pos h), next_eq (if_pos h), next_eq (if_pos h)⟩,
    fun n s u h hs hu => ⟨next_eq (slipEnd_found h hs hu).1, next_eq (slipEnd_found h hs hu).2⟩,
    fun n k s h => next_eq (rxAsleep_locked h), fun n b k s h => ?_, fun n b s h => next_eq ?_, fun n s => rfl,
    fun p f s hm => next_eq (if_neg (not_not_intro hm)), fun n s => rfl, fun l w s hm => next_eq (if_neg (not_not_intro hm)),
    fun n s => rfl, fun n s => rfl, fun p f l w s hm => ⟨next_eq (if_pos hm), next_eq (if_pos hm)⟩⟩
  · have hlocked : ¬ rxLocked s n.toNat = true := by rw [h]; exact Bool.false_ne_true
    exact ⟨next_eq (markerLost_unlocked h), next_eq (if_neg hlocked), next_eq (if_neg hlocked),
      next_eq (if_neg (by rw [h]; exact Bool.false_ne_true)), next_eq (if_neg hlocked)⟩
  · exact if_neg (by rw [h, Bool.and_false]; exact Bool.false_ne_true)

/-! #### Ends of resets and the queues' handshake -/

/-- A row that the machine's mode and one condition of its own guard. -/
theorem ite_not_ite {P C : Prop} [Decidable P] [Decidable C] {a s : State} :
    (if ¬P then s else if C then a else s) = if P ∧ C then a else s := by
  by_cases hp : P
  · rw [if_neg (not_not_intro hp)]
    exact ite_of_iff (and_iff_right hp).symm
  · rw [if_pos hp, if_neg fun h => hp h.1]

theorem resetComplete_pair (l : Nat) (s : State) : resetComplete 7 l s = if s.mode = .running ∧ (pairOf s l).restarting = true
    then unitResetEvent 7 (pairUnit l) (modPair l (fun p => { p with restarting := false }) s) else s := by
  rw [resetComplete, if_pos rfl]
  exact ite_not_ite

theorem resetComplete_port (u : Nat) (s : State) :
    resetComplete 6 u s = if s.mode = .running ∧ u < 64 ∧ (portOf s u).resetting = true
      then unitResetEvent 6 (unitPort u) (lanesStart u (synRelock u (modPort u (fun x => { x with resetting := false }) s))) else s := by
  rw [resetComplete, if_neg (by decide : ¬ 6 = 7), if_pos rfl]
  exact ite_not_ite

theorem resetComplete_tile (u : Nat) (s : State) :
    resetComplete 5 u s = if s.mode = .running ∧ u < 8 ∧ (tileOf s u).resetting = true
      then unitResetEvent 5 (unitTile u) (each (eight (8 * u)) (fun p s => pairsToSyn p (lanesStart p (synRestart p s)))
        (synRestart (64 + u) (modTile u (fun x => { x with resetting := false }) s))) else s := by
  rw [resetComplete, if_neg (by decide : ¬ 5 = 7), if_neg (by decide : ¬ 5 = 6), if_pos rfl]
  exact ite_not_ite

theorem resetComplete_other {k u : Nat} {s : State} (hk : k < 5) : resetComplete k u s = s := by
  rw [resetComplete, if_neg (by omega : ¬ k = 7), if_neg (by omega : ¬ k = 6), if_neg (by omega : ¬ k = 5)]
  exact ite_self _

theorem bridgeHalf_iff {s : State} {t : Nat} : bridgeHalf s t = true ↔ (tileOf s t).resetting = true ∨ 3 ≤ domState s (64 + t) := by
  rw [bridgeHalf, Bool.or_eq_true, decide_eq_true_eq]

theorem queueDiscards_bridge (u n : Nat) (s : State) : queueDiscards true u n s =
    if s.mode = .running ∧ u < 8 ∧ ((tileOf s u).resetting = true ∨ 3 ≤ domState s (64 + u))
    then discard [(unitTile u).toNat] n (count (tileXqR u) n s) else s := by
  rw [queueDiscards, if_pos rfl]
  exact ite_not_ite.trans (ite_of_iff (and_congr_right' (and_congr_right' bridgeHalf_iff)))

theorem queueDiscards_queue {l n : Nat} {s : State} (hm : s.mode = .running) (h : (pairOf s l).xqOff = true ∨ queueHalf s l = true) :
    queueDiscards false l n s = breakDue l (discard [(pairUnit l).toNat, (unitPort (l / 8)).toNat, (unitTile (l / 64)).toNat] n
      (modPair l (fun p => { p with xqOff := true, queue := 0, toHost := 0 }) (count (portXqR (l / 8)) n s))) := by
  rw [queueDiscards, if_neg (not_not_intro hm), if_neg Bool.false_ne_true]
  refine if_neg ?_
  rcases h with h | h
  · rw [h]
    exact Bool.false_ne_true
  · rw [h, Bool.not_true, Bool.and_false]
    exact Bool.false_ne_true

theorem queueDiscards_idle {l n : Nat} {s : State}
    (h : s.mode ≠ .running ∨ (pairOf s l).xqOff = false ∧ queueHalf s l = false) : queueDiscards false l n s = s := by
  rcases h with h | ⟨hx, hq⟩
  · exact if_pos h
  · rw [queueDiscards, if_neg Bool.false_ne_true, hx, hq]
    exact ite_self _

theorem queueResumes_eq (l : Nat) (s : State) : queueResumes l s =
    if s.mode = .running ∧ (pairOf s l).xqOff = true ∧ queueHalf s l = false
    then modPair l (fun p => { p with xqOff := false, fill := 0, rxFill := 0, queue := 0, toHost := 0 }) s else s := by
  refine (ite_of_iff ?_).trans (ite_not _ _ _)
  rw [Classical.not_and_iff_not_or_not, Classical.not_and_iff_not_or_not, Bool.not_eq_true, Bool.not_eq_false]

/-! #### RS monitors -/

theorem rsLock_line {l : Nat} {n : List (BitVec 32)} {s : State} (h : rsInstance s l 0 = true) :
    rsLock l 0 n s = countWide (rsBase l 0 + 0x88) 64 (((List.range 17).map (fun i => (n.getD i 0).toNat)).sum)
      (each (List.range 17) (fun i s => countWide (rsBase l 0 + 8 * i) 48 (n.getD i 0).toNat s) (wrB (rsMonStatusR l 0) 0 true s)) := by
  rw [rsLock, if_pos h]
  generalize wrB (rsMonStatusR l 0) 0 true s = u
  have hline : ¬ 0 = 1 := by decide
  rw [rsCount, if_neg (fun h => hline h.1), if_neg hline]

theorem rsLock_hostQuiet {l : Nat} {n : List (BitVec 32)} {s : State} (h : rsInstance s l 1 = true)
    (ho : (rsSet (wrB (rsMonStatusR l 1) 0 true s) l 1).any (fun k => !(pairOf s k).rsOpen) = true) :
    rsLock l 1 n s = wrB (rsMonStatusR l 1) 0 true s := by
  rw [rsLock, if_pos h]
  have hp : ∀ k, pairOf (wrB (rsMonStatusR l 1) 0 true s) k = pairOf s k := fun k => pairOf_wrB ..
  generalize wrB (rsMonStatusR l 1) 0 true s = u at ho hp ⊢
  have hu : (rsSet u l 1).any (fun k => !(pairOf u k).rsOpen) = true := by simpa only [hp] using ho
  rw [rsCount, if_pos ⟨rfl, hu⟩]

theorem rsLoss_eq (l dir : Nat) (n : List (BitVec 32)) (s : State) :
    rsLoss l dir n s = if rsInstance s l dir = true ∧ rdB s (rsMonStatusR l dir) 0 = true
      then orViews (rsMonStatusR l dir) 2 (wrB (rsMonStatusR l dir) 0 false (rsCount l dir n s)) else s :=
  ite_of_iff (Bool.and_eq_true ..).to_iff

/-- Settles O54: the end of each kind of reset, the two sides of the handshake and the monitors' two rows. -/
theorem resetAndMonitorRows : Obligations.ResetAndMonitorRows := by
  refine ⟨fun l s => next_eq (resetComplete_pair ..), fun u s => next_eq (resetComplete_port ..),
    fun u s => next_eq (resetComplete_tile ..), fun k u s hk => next_eq (resetComplete_other hk),
    fun u n s => next_eq (queueDiscards_bridge ..), fun l n s hm h => next_eq (queueDiscards_queue hm h),
    fun l n s h => next_eq (queueDiscards_idle h), fun l s => next_eq (queueResumes_eq ..),
    fun l n s h => next_eq (rsLock_line h), fun l n s h ho => next_eq (rsLock_hostQuiet h ho),
    fun l host n s => ⟨rfl, next_eq (rsLoss_eq ..)⟩⟩

end Sys2Proof.Proofs
end

section
/-! PROOFS. Scrubbing, voting and the lockstep pair, and the operator firmware (O55, O56). -/
namespace Sys2Proof.Proofs
open Sys2Proof Sys2Proof.Machine Sys2Proof.Laws

/-! #### Scrubbing -/

/-- The words known bad once a word of a bank has been read clean or corrected. -/
def wordGood (b : MemBank) (off : Nat) (s : State) : State :=
  { s with badWords := s.badWords.filter (fun x => x != (bankKey b, bankWord b off)) }

section
variable {b : MemBank} {off : Nat} {x : Bool} {h : Holds} {s : State} (hm : s.mode = .running) (hp : bankPowered s b = true)
include hm hp

theorem scrub_reads : ¬ (s.mode ≠ .running ∨ bankPowered s b = false) := by
  rw [hm, hp]
  decide

theorem scrubRead_clean : scrubRead b off .clean x h s = wordGood b off s := by
  rw [scrubRead, if_neg (scrub_reads hm hp)]
  cases x <;> rfl

theorem scrubRead_correctable : scrubRead b off .correctable x h s = memCorrected b (wordGood b off s) := by
  rw [scrubRead, if_neg (scrub_reads hm hp)]
  cases x <;> rfl

theorem scrubRead_uncorrectable :
    scrubRead b off .uncorrectable x h s = badWordRead h (memUncorrectable b off (if x then wordGood b off s else s)) := by
  rw [scrubRead, if_neg (scrub_reads hm hp)]
  cases x <;> rfl

end

theorem memCorrected_due {b : MemBank} {u v : State} (hv : v = count (bankRegs b) 1 u)
    (hd : (v.corrAt.find? (fun e => e.1 == bankKey b)).all (fun e => decide (e.2.toNat + 1000000000 ≤ v.time.toNat)) = true) :
    memCorrected b u = raise 0x0005 (bankUnit b) (bankName b ++ zeros 2 ++ leBytes 4 (rd v (bankRegs b)).toNat)
      { v with corrAt := tabInsert v.corrAt (bankKey b) v.time } := by
  rw [memCorrected, ← hv]
  cases hf : v.corrAt.find? (fun e => e.1 == bankKey b) with
  | none =>
    dsimp only
    rw [if_pos rfl]
  | some e =>
    obtain ⟨k, t⟩ := e
    rw [hf, Option.all_some] at hd
    dsimp only at hd ⊢
    rw [if_pos hd]

theorem memCorrected_recent {b : MemBank} {u v : State} (hv : v = count (bankRegs b) 1 u)
    (hd : (v.corrAt.find? (fun e => e.1 == bankKey b)).any (fun e => decide (v.time.toNat < e.2.toNat + 1000000000)) = true) :
    memCorrected b u = v := by
  rw [memCorrected, ← hv]
  cases hf : v.corrAt.find? (fun e => e.1 == bankKey b) with
  | none =>
    rw [hf] at hd
    exact absurd hd Bool.false_ne_true
  | some e =>
    obtain ⟨k, t⟩ := e
    rw [hf, Option.any_some, decide_eq_true_eq] at hd
    dsimp only at hd ⊢
    rw [if_neg (by rw [decide_eq_true_eq, Nat.not_le]; exact hd)]

theorem memUncorrectable_known {b : MemBank} {off : Nat} {u : State} (hk : u.badWords.contains (bankKey b, bankWord b off) = true) :
    memUncorrectable b off u = u := if_pos hk

theorem memUncorrectable_new {b : MemBank} {off : Nat} {u : State} (hk : u.badWords.contains (bankKey b, bankWord b off) = false) :
    memUncorrectable b off u = raise 0x0006 (bankUnit b) (bankName b)
      (wr (bankRegs b + 8) (BitVec.ofNat 32 (bankAddr b off)) (count (bankRegs b + 4) 1
        (wordDecoded b off { u with badWords := u.badWords ++ [(bankKey b, bankWord b off)] }))) :=
  if_neg (by rw [hk]; exact Bool.false_ne_true)

/-- The state that a word found uncorrectable leaves, by whether it was known. -/
theorem memUncorrectable_eq {b : MemBank} {off : Nat} {u v : State} (hold : u.badWords.contains (bankKey b, bankWord b off) = true → v = u)
    (hnew : u.badWords.contains (bankKey b, bankWord b off) = false → v = raise 0x0006 (bankUnit b) (bankName b)
      (wr (bankRegs b + 8) (BitVec.ofNat 32 (bankAddr b off)) (count (bankRegs b + 4) 1
        (wordDecoded b off { u with badWords := u.badWords ++ [(bankKey b, bankWord b off)] })))) : memUncorrectable b off u = v := by
  cases hk : u.badWords.contains (bankKey b, bankWord b off) with
  | true => exact (memUncorrectable_known hk).trans (hold hk).symm
  | false => exact (memUncorrectable_new hk).trans (hnew hk).symm

/-! #### Voting -/

section
variable {a : Nat} {x : Word} {s : State} (hm : s.mode = .running) (ha : tmrBits a ≠ 0)
  (hd : (addrDomain a).any (fun d => domState s d == 4) = false)
include hm ha hd

theorem tmr_votes : ¬ (s.mode ≠ .running ∨ tmrBits a = 0 ∨ (addrDomain a).any (fun d => domState s d == 4) = true) := by
  rintro (h | h | h)
  · exact h hm
  · exact ha h
  · exact absurd (hd.symm.trans h) (by decide)

theorem tmrMismatch_majority : tmrMismatch a true x s = raise 0x0007 unitDev (leBytes 4 a ++ [0])
    (wr tmrLastR (BitVec.ofNat 32 a) (count tmrMismatchCntR 1 s)) := by
  rw [tmrMismatch, if_neg (tmr_votes hm ha hd), if_pos rfl]
  rfl

theorem tmrMismatch_copyA : tmrMismatch a false x s = raise 0x0007 unitDev (leBytes 4 a ++ [1])
    (wr a ((rd s a &&& ~~~(tmrBits a)) ||| (x &&& tmrBits a)) s) := by
  rw [tmrMismatch, if_neg (tmr_votes hm ha hd), if_neg Bool.false_ne_true]
  rfl

end

/-- Settles O55: a scrubbed word by what was found in it, a vote by its majority, and the lockstep pair. -/
theorem integrityRows : Obligations.IntegrityRows := by
  refine ⟨fun b off x h s hm hp => next_eq (scrubRead_clean hm hp), fun b off x h s u v hm hp hu hv => ⟨fun hd => next_eq ?_,
      fun hd => next_eq ?_⟩, fun b off x h s u v hm hp hu hold hnew => ?_, fun b off f x h s hp => next_eq (if_pos hp),
    fun a x s hm ha hd => ⟨next_eq (tmrMismatch_majority hm ha hd), next_eq (tmrMismatch_copyA hm ha hd)⟩,
    fun a m x s h => next_eq (if_pos (.inr h)), fun s hm => next_eq (if_neg (not_not_intro hm))⟩
  · exact (scrubRead_correctable hm hp).trans (memCorrected_due (by rw [hv, hu]; rfl) hd)
  · exact (scrubRead_correctable hm hp).trans (memCorrected_recent (by rw [hv, hu]; rfl) hd)
  · have hv : ∀ h, scrubRead b off.toNat .uncorrectable x h s = badWordRead h v := fun h => by
      rw [scrubRead_uncorrectable hm hp]
      exact congrArg (badWordRead h) (hu ▸ memUncorrectable_eq hold hnew)
    exact ⟨next_eq (hv _), next_eq (hv _), fun l => next_eq (hv _)⟩

/-! #### The operator firmware -/

theorem restartDue_eq (c : Nat) (s : State) :
    restartDue c s = if s.fw.restarting = none ∧ inRecovery s = false ∧ supHalted s = false then
      modCmd (fun c => { c with stopped := true }) (modFw (fun f => { f with restarting := some c }) s) else s := by
  refine (ite_of_iff ?_).trans (ite_not _ _ _)
  rw [Bool.or_eq_true, Bool.or_eq_true, or_assoc, Option.isSome_iff_ne_none, ← Bool.not_eq_false (inRecovery s), ← Bool.not_eq_false (supHalted s),
    Classical.not_and_iff_not_or_not, Classical.not_and_iff_not_or_not]

theorem operatorTrap_eq (m : Bool) (s : State) : (if s.mode = .running then restartDue (if m then 3 else 2) s else s) =
    if s.mode = .running ∧ s.fw.restarting = none ∧ inRecovery s = false ∧ supHalted s = false then
      modCmd (fun c => { c with stopped := true }) (modFw (fun f => { f with restarting := some (if m then 3 else 2) }) s) else s := by
  rw [restartDue_eq]
  by_cases hm : s.mode = .running
  · rw [if_pos hm]
    exact ite_of_iff (and_iff_right hm).symm
  · rw [if_neg hm, if_neg fun h => hm h.1]

theorem watchdog_checks {b : List Word} {s u : State} (hm : s.mode = .running) (hw : rdB s operWdtCfgR 7 = true)
    (hr : inRecovery s = false) (hh : supHalted s = false) (hf : s.fw.restarting = none) (hp : s.fw.patching = none)
    (hu : u = modFw (fun f => { f with heartbeats := (List.range 20).map (fun k => (k, (b.getD k 0).toNat)) }) s) :
    watchdog b s = if (List.range 4).any (fun k => stale s k b) then restartDue 1 u
      else each ((List.range 16).filter (fun g => graderOn s g && domRuns s (64 + g / 2) && stale s (4 + g) b)) graderStalls u := by
  rw [watchdog, if_neg (by simp [hm, hw, hr, hh, hf, hp]), ← hu]

/-- R309: the MRAM need not wake before the supervisor reads an image. -/
theorem mram_readable {s : State} (h : domRuns s 79 = true ∨ domState s 79 = 4 ∨ rdB s clkEnR 4 = false) :
    ¬ (domState s 79 ≠ 4 ∧ rdB s clkEnR 4 = true ∧ domRuns s 79 = false) := by
  rintro ⟨h4, hc, hd⟩
  rcases h with h | h | h
  · exact absurd (hd.symm.trans h) (by decide)
  · exact h4 h
  · exact absurd (hc.symm.trans h) (by decide)

section
variable {c : Nat} {s : State} {x : Nat} (hm : s.mode = .running) (hx : s.fw.restarting = some x) (hh : supHalted s = false)
include hm hx hh

theorem operatorRestart_goes (hd : domRuns s 79 = true ∨ domState s 79 = 4 ∨ rdB s clkEnR 4 = false) :
    operatorRestart c s = restartGo x c s := by
  rw [operatorRestart, hx]
  dsimp only
  rw [if_neg (by simp [hm, hh]), if_neg (mram_readable hd)]

theorem operatorRestart_wakes (hd : domRuns s 79 = false) (h4 : domState s 79 ≠ 4) (hc : rdB s clkEnR 4 = true) :
    operatorRestart c s = beginWake 79 s := by
  rw [operatorRestart, hx]
  dsimp only
  rw [if_neg (by simp [hm, hh]), if_pos ⟨h4, hc, hd⟩]

end

theorem operatorRestart_idle {c : Nat} {s : State} (h : s.fw.restarting = none ∨ supHalted s = true) : operatorRestart c s = s := by
  rw [operatorRestart]
  cases hx : s.fw.restarting with
  | none => rfl
  | some x => exact if_pos (.inr (h.resolve_left (by rw [hx]; exact Option.some_ne_none x)))

theorem restartGo_eq {x c : Nat} {s u : State} (hu : u = operatorStops noTag (modFw (fun f => { f with restartTimes := restartsNow s }) s)) :
    restartGo x c s = if 4 ≤ (restartsNow s).length
      then raise 0x0C04 unitDev (leBytes 1 x ++ leBytes 1 (restartsNow s).length) (enterRecovery u) else restartImage x c u := by
  rw [restartGo, ← hu]

/-! #### Activation -/

section
variable {c e : Nat} {s : State} (hm : s.mode = .running) (he : s.fw.activating = some e) (hh : supHalted s = false)
  (hr : s.fw.restarting = none) (hq : quiescent s = true)
include hm he hh hr hq

theorem quiescentPoint_activates {k : Nat} {t u v : State} (hd : domRuns s 79 = true ∨ domState s 79 = 4 ∨ rdB s clkEnR 4 = false)
    (hk : (k, u) = (if domState s 79 = 4 ∨ rdB s clkEnR 4 = false then (1, s) else verifyBank (stagingBank s 0) c s))
    (hv : v = modFw (fun f => { f with activating := none, verified := f.verified.filter (fun x => x != stagingBank s 0) }) u)
    (ht : t = operatorStops e (wrB fwStateR 2 false (wrB fwStateR 0 (stagingBank s 0 == 1) v))) :
    quiescentPoint c s = if k ≠ 0 then complete e stAborted [] (activationEnds v)
      else unitResetEvent 4 unitDev (raise 0x0C02 unitDev [] (complete e stOk [] (imageRuns 0 (stagingBank s 0)
        (activationEnds (if inRecovery v then each (List.range 64) pairsToSyn t else t))))) := by
  rw [quiescentPoint, he]
  dsimp only
  rw [if_neg (by simp [hm, hh, hr, hq]), if_neg (mram_readable hd), ← hk]
  dsimp only
  rw [← hv, ← ht]

theorem quiescentPoint_wakes (hd : domRuns s 79 = false) (h4 : domState s 79 ≠ 4) (hc : rdB s clkEnR 4 = true) :
    quiescentPoint c s = beginWake 79 s := by
  rw [quiescentPoint, he]
  dsimp only
  rw [if_neg (by simp [hm, hh, hr, hq]), if_pos ⟨h4, hc, hd⟩]

end

theorem quiescentPoint_idle {c : Nat} {s : State}
    (h : s.fw.activating = none ∨ supHalted s = true ∨ s.fw.restarting.isSome = true ∨ quiescent s = false) : quiescentPoint c s = s := by
  rw [quiescentPoint]
  cases he : s.fw.activating with
  | none => rfl
  | some e => exact if_pos (.inr (h.resolve_left (by rw [he]; exact Option.some_ne_none e)))

theorem patchActivation_starts {s u : State} {e : Nat} (hm : s.mode = .running) (he : s.fw.patching = some e) (hh : supHalted s = false)
    (hu : u = modFw (fun f => { f with patching := none, verified := f.verified.filter (fun x => x != stagingBank s 1) }) s) :
    patchActivation s = complete e stOk [] (imageRuns 1 (stagingBank s 1)
      (wrB fwStateR 5 false (wrB fwStateR 1 (stagingBank s 1 == 3) u))) := by
  rw [patchActivation, he]
  dsimp only
  rw [if_neg (by simp [hm, hh]), ← hu]

theorem patchActivation_idle {s : State} (h : s.fw.patching = none ∨ supHalted s = true) : patchActivation s = s := by
  rw [patchActivation]
  cases he : s.fw.patching with
  | none => rfl
  | some e => exact if_pos (.inr (h.resolve_left (by rw [he]; exact Option.some_ne_none e)))

theorem rollbackTimer_eq {y : Bool} {s : State} {n : Nat} (hn : n = leAt (tabGet [] s.fw.headers (activeBank s (b2n y))) 0xC 2) :
    rollbackTimer (b2n y) s = if s.mode = .running ∧
      (s.fw.svnSince.find? (fun e => e.1 == b2n y)).any (fun e => decide (e.2.toNat + 600000000000 ≤ s.time.toNat)) = true ∧
      (if y then rdB s fwStateR 5 else inRecovery s) = false ∧ tabGet 0 s.fw.floors (b2n y) < n ∧ mramReady s = true ∧ mramHold s = false ∧
      supHalted s = false then modFw (fun f => { f with floors := tabInsert f.floors (b2n y) n }) s else s := by
  have hruns : (if b2n y = 0 then !inRecovery s else !rdB s fwStateR 5) = true ↔
      (if y then rdB s fwStateR 5 else inRecovery s) = false := by
    cases y with
    | false => exact (Bool.not_eq_true' _).to_iff
    | true => exact (Bool.not_eq_true' _).to_iff
  rw [rollbackTimer, ← hn]
  cases s.fw.svnSince.find? (fun e => e.1 == b2n y) with
  | none =>
    dsimp only
    rw [Option.any_none]
    exact ite_of_iff (and_congr_right' (and_congr_right' (and_congr_left' hruns)))
  | some e =>
    obtain ⟨k, t⟩ := e
    rw [Option.any_some]
    dsimp only
    exact ite_of_iff (and_congr_right' (and_congr_right' (and_congr_left' hruns)))

/-! #### Requests of the operator firmware -/

theorem supervisorRequest_checked {v : View} {a : Nat} {w : Word} {s : State} (hm : s.mode = .running) (hh : supHalted s = false) :
    supervisorRequest v a w s = if pathRefused v a w s then firewallRefusal v a true s else if changesLocked a w s then s
      else busWrite .supervisor a w s :=
  if_neg (by simp [hm, hh])

/-- Settles O56: the trap and the watchdog, the restart, the activations, the floors and the requests, by what each has due. -/
theorem operatorRows : Obligations.OperatorRows := by
  refine ⟨fun m s => next_eq (operatorTrap_eq m s), fun b s u hm hw hr hh hf hp hu => next_eq (watchdog_checks hm hw hr hh hf hp hu),
    fun b s h => next_eq (if_pos (.inr h)),
    fun c s u x hm hx hh hd hu => next_eq ((operatorRestart_goes hm hx hh hd).trans (restartGo_eq hu)),
    fun c s x hm hx hh hd h4 hc => next_eq (operatorRestart_wakes hm hx hh hd h4 hc), fun c s h => next_eq (operatorRestart_idle h),
    fun c s t u v e k hm he hh hr hq hd hk hv ht => next_eq (quiescentPoint_activates hm he hh hr hq hd hk hv ht),
    fun c s e hm he hh hr hq hd h4 hc => next_eq (quiescentPoint_wakes hm he hh hr hq hd h4 hc),
    fun c s h => next_eq (quiescentPoint_idle h), fun s u e hm he hh hu => next_eq (patchActivation_starts hm he hh hu),
    fun s h => next_eq (patchActivation_idle h), fun y s n hn => next_eq (rollbackTimer_eq hn),
    fun v a w s hm hh hp => next_eq ((supervisorRequest_checked hm hh).trans (if_pos hp)), fun v a w s hm hh hp hl => next_eq ?_,
    fun v a w s hh => next_eq (if_pos (.inr hh)), fun v a w i s u k hm hh hp hl hne hw hu hk => next_eq ?_⟩
  · rw [supervisorRequest_checked hm hh, hp, if_neg Bool.false_ne_true, if_pos hl]
  · rw [supervisorRequest_checked hm hh, hp, if_neg Bool.false_ne_true, hl, if_neg Bool.false_ne_true, busWrite_writes hw hu hk hne]

end Sys2Proof.Proofs
end

section
/-! PROOFS. The fate of a frame, enumeration, and forwarded commands and events (O57). -/
namespace Sys2Proof.Proofs
open Sys2Proof Sys2Proof.Machine Sys2Proof.Laws

/-! #### What becomes of a frame (R447) -/

theorem received_good {act : State → State} {s : State} (hc : chainRuns s = true) : received .good act s = act s :=
  if_neg (by rw [hc]; decide)

theorem received_badCrc {act : State → State} {s : State} (hc : chainRuns s = true) :
    received .badCrc act s = count chainCrcErrR 1 s := if_neg (by rw [hc]; decide)

theorem received_hops127 {act : State → State} {s : State} (hc : chainRuns s = true) :
    received .hops127 act s = count chainHopDropR 1 s := if_neg (by rw [hc]; decide)

theorem received_stopped {f : Fate} {act : State → State} {s : State} (hc : chainRuns s = false) : received f act s = s :=
  if_pos (by rw [hc]; rfl)

/-- A frame that does not act: the port does not run, or the frame is dropped and counted. -/
theorem received_dropped {f : Fate} {act : State → State} {s v : State} (h : f ≠ .good ∨ chainRuns s = false)
    (hv : v = (if chainRuns s = false then s else if f = .badCrc then count chainCrcErrR 1 s else count chainHopDropR 1 s)) :
    received f act s = v := by
  cases hc : chainRuns s with
  | false => rw [received_stopped hc, hv, if_pos hc]
  | true =>
    have hne : ¬ chainRuns s = false := by rw [hc]; decide
    rw [hv, if_neg hne]
    cases f with
    | good => exact absurd h (not_or.mpr ⟨fun h => h rfl, hne⟩)
    | badCrc => rw [received_badCrc hc, if_pos rfl]
    | hops127 => rw [received_hops127 hc, if_neg (by decide)]

/-! #### Enumeration -/

section
variable {s : State} (hc : chainRuns s = true)
include hc

theorem tokenFrame_worker {v : Nat} (hm : isManager s = false) : tokenFrame .good v s = passFrame 1 63 (min 255 (v + 1)) []
    (modChain (fun c => { c with tentative := if v ≤ 62 then some v else none }) s) := by
  rw [tokenFrame, received_good hc, hm, if_neg Bool.false_ne_true]

theorem tokenFrame_returned {v e : Nat} (hm : isManager s = true) (he : s.chain.enum = some (e, 1)) :
    tokenFrame .good v s = sendFrame 2 63 0 [] (modChain (fun c => { c with enum := some (e, 2), token := v }) s) := by
  rw [tokenFrame, received_good hc, if_pos hm, he]
  rfl

theorem tokenFrame_other {v : Nat} (hm : isManager s = true) (he : s.chain.enum.all (fun x => x.2 != 1) = true) :
    tokenFrame .good v s = s := by
  rw [tokenFrame, received_good hc, if_pos hm]
  split
  next e h =>
    rw [h] at he
    exact absurd he Bool.false_ne_true
  next => rfl

theorem commitFrame_worker (hm : isManager s = false) : commitFrame .good s = passFrame 2 63 0 [] (modChain (fun c => { c with
    tentative := none }) (wrF chainStateR 15 8 (s.chain.tentative.getD 0xFF) (wrB chainStateR 1 s.chain.tentative.isSome s))) := by
  rw [commitFrame, received_good hc, hm, if_neg Bool.false_ne_true]

theorem commitFrame_returned {e : Nat} (hm : isManager s = true) (he : s.chain.enum = some (e, 2)) :
    commitFrame .good s = enumerationEnd e s.chain.token s := by
  rw [commitFrame, received_good hc, if_pos hm, he]
  rfl

theorem commitFrame_other (hm : isManager s = true) (he : s.chain.enum.all (fun x => x.2 != 2) = true) : commitFrame .good s = s := by
  rw [commitFrame, received_good hc, if_pos hm]
  split
  next e h =>
    rw [h] at he
    exact absurd he Bool.false_ne_true
  next => rfl

end

theorem enumerationEnd_eq {e v n : Nat} {s u : State} (hn : n = v - 1)
    (hu : u = wrB chainStateR 6 (decide (62 < n)) (wrF chainStateR 23 16 (min n 62) (modChain (fun c => { c with enum := none, lost := 0 }) s))) :
    enumerationEnd e v s = complete e stOk (leBytes 1 (min n 62) ++ leBytes 1 (b2n (decide (62 < n))) ++ zeros 2)
      (if 62 < n then raise 0x0D00 unitDev (leBytes 2 n) u else u) := by
  rw [enumerationEnd, ← hn, ← hu]
  exact congrArg _ (ite_of_iff decide_eq_true_iff)

/-! #### Forwarded commands and events -/

section
variable {s : State} (hc : chainRuns s = true)
include hc

theorem cmdFrame_starved {op : Nat} {c : Cmd} (h0 : tagsFree s = 0) : cmdFrame .good op c s = fetchPause s := by
  rw [cmdFrame, received_good hc, if_pos h0]

theorem cmdFrame_taken {op : Nat} {c : Cmd} {g : InFlight} (h0 : tagsFree s ≠ 0)
    (hg : g = { etag := freeTag s, opcode := op, cmd := { c with path := .chain } }) :
    cmdFrame .good op c s = submitted (freeTag s) (fetchedCount g.cmd
      (fetchResume (modCmd (fun x => { x with inflight := x.inflight ++ [g] }) s))) := by
  rw [cmdFrame, received_good hc, if_neg h0, hg]

theorem replyFrame_late {e a st : Nat} {r : List Byte} (hg : s.cmd.inflight.find? (fun g => g.etag == e) = none) :
    replyFrame .good e a st r s = count chainLateReplyR 1 s := by
  rw [replyFrame, received_good hc, hg]

theorem replyFrame_forwarded {e a st : Nat} {r : List Byte} {g : InFlight}
    (hg : s.cmd.inflight.find? (fun g => g.etag == e) = some g) (hw : g.waitFor.testBit a = false) :
    replyFrame .good e a st r s = if g.stage = .forwarded ∧ g.cmd.chainAddr.toNat = a then finish g st r s
      else count chainLateReplyR 1 s := by
  rw [replyFrame, received_good hc, hg]
  dsimp only
  rw [hw, if_neg Bool.false_ne_true]
  exact ite_of_iff (by rw [Bool.and_eq_true, beq_iff_eq, beq_iff_eq])

theorem replyFrame_awaited {e a st : Nat} {r : List Byte} {g : InFlight}
    (hg : s.cmd.inflight.find? (fun g => g.etag == e) = some g) (hw : g.waitFor.testBit a = true) :
    replyFrame .good e a st r s = answer g a st s := by
  rw [replyFrame, received_good hc, hg]
  dsimp only
  rw [if_pos hw]

theorem eventFrame_manager {a : Nat} {r : EvRec} (hm : isManager s = true) :
    eventFrame .good a r s = stageRec { r with origin := BitVec.ofNat 8 (a + 0x40) } s := by
  rw [eventFrame, received_good hc, if_pos hm]

theorem eventFrame_worker {a : Nat} {r : EvRec} (hm : isManager s = false) :
    eventFrame .good a r s = passFrame 5 0 a (evBytes r false false) s := by
  rw [eventFrame, received_good hc, hm, if_neg Bool.false_ne_true]

end

/-- Settles O57: each frame by its fate and by what this device is to it, and the end of an enumeration. -/
theorem enumerationAndForwardingRows : Obligations.EnumerationAndForwardingRows := by
  refine ⟨fun v s hc hm => next_eq (tokenFrame_worker hc hm), fun v s e hc hm he => next_eq (tokenFrame_returned hc hm he),
    fun v s hm he hc => next_eq (tokenFrame_other hc hm he), fun s hc hm => next_eq (commitFrame_worker hc hm),
    fun s u e n hc hm he hn hu => next_eq ((commitFrame_returned hc hm he).trans (enumerationEnd_eq hn hu)),
    fun s hm he hc => next_eq (commitFrame_other hc hm he), fun s => ⟨fun e k he => next_eq ?_, fun he => next_eq ?_⟩,
    fun v s hc => ⟨next_eq (received_badCrc hc), next_eq (received_hops127 hc), next_eq (received_badCrc hc),
      next_eq (received_hops127 hc)⟩, fun f v s hc => ⟨next_eq (received_stopped hc), next_eq (received_stopped hc)⟩,
    fun op c s hc h0 => next_eq (cmdFrame_starved hc h0), fun op c s g hc h0 hg => next_eq (cmdFrame_taken hc h0 hg),
    fun e a st r s hc hg => next_eq (replyFrame_late hc hg), fun e a st r s g hc hg hw => next_eq (replyFrame_forwarded hc hg hw),
    fun e a st r s g hc hg hw => next_eq (replyFrame_awaited hc hg hw), fun a n k u t d b s hc hm => next_eq (eventFrame_manager hc hm),
    fun a n k u t d b s hc hm => next_eq (eventFrame_worker hc hm),
    fun op c e a st r n k u t d b f s v hf hv => ⟨next_eq (received_dropped (.inl hf) hv), next_eq (received_dropped (.inl hf) hv),
      next_eq (received_dropped (.inl hf) hv)⟩,
    fun op c e a st r n k u t d b s hc => ⟨next_eq (received_stopped hc), next_eq (received_stopped hc), next_eq (received_stopped hc)⟩⟩
  · rw [enumerationTimeout, he]
  · rw [enumerationTimeout, he]

end Sys2Proof.Proofs
end

section
/-! PROOFS. Chain time, the ring and epoch actions (O58, O59). -/
namespace Sys2Proof.Proofs
open Sys2Proof Sys2Proof.Machine Sys2Proof.Laws

/-! #### Chain time -/

theorem timeSend_eq (s : State) : timeSend s = if chainRuns s = true ∧ isManager s = true ∧ twoManagers s = false
    then sendFrame 6 63 0 (timeBytes {
      tTx := s.time, corr := 0, decl := 0, nundecl := 0, unaddr := 0, fabric := managerFabric s, share := BitVec.ofInt 32 s.chain.share,
      present := 0, serial := Config.serial }) s else s :=
  ite_of_iff (by rw [Bool.and_eq_true, Bool.and_eq_true, Bool.not_eq_true', and_assoc])

theorem timeCorrect_eq (off : Int) (u : State) : timeCorrect off u = if u.chain.timed = false ∨ 1000000 < off.natAbs
    then lateEpochs (raise 0x0D03 unitDev (leBytes 8 (twos 64 (roundDiv off 1000)))
      (count chainTimeStepR 1 (setTime (BitVec.ofInt 64 (u.time.toNat + roundDiv off 1000)) u)))
    else setTime (BitVec.ofInt 64 (u.time.toNat + max (-200) (min 200 (roundDiv off 1000)))) u :=
  ite_of_iff (by rw [Bool.or_eq_true, Bool.not_eq_true', decide_eq_true_eq])

section
variable {f : TimeFrame} {r : Nat} {s : State} (hc : chainRuns s = true)
include hc

theorem timeReceived_manager (hm : isManager s = true) : timeReceived .good f r s = if f.serial = Config.serial then s
    else timePass f r (raise 0x0D01 unitDev (leBytes 8 f.serial.toNat) (wrB chainStateR 4 true s)) := by
  rw [timeReceived, received_good hc, if_pos hm]

theorem timeReceived_unaddressed (hm : isManager s = false) (ha : isAddressed s = false) :
    timeReceived .good f r s = timePass f r s := by
  rw [timeReceived, received_good hc, hm, if_neg Bool.false_ne_true, ha, Bool.not_false, if_pos rfl]

theorem timeReceived_addressed {u : State} {off : Int} (hm : isManager s = false) (ha : isAddressed s = true)
    (ho : off = chainEstimate f s - s.time.toNat * 1000) (hu : u = wr chainTimeOfsR (BitVec.ofInt 32 off) (timePass f r s)) :
    timeReceived .good f r s = heldOut (wrB chainStateR 5 true
      (modChain (fun c => { c with timed := true, fabricOk := f.fabric }) (timeCorrect off u))) := by
  rw [timeReceived, received_good hc, hm, if_neg Bool.false_ne_true, ha, Bool.not_true, if_neg Bool.false_ne_true, ← ho]
  dsimp only
  rw [← hu]

theorem timeReturn_manager {u : State} (hm : isManager s = true) (hu : u = modChain (fun c => { c with returns := c.returns + 1 })
      (presence f.present (undeclared f r (wr chainRtR (BitVec.ofNat 32 r) s)))) :
    timeReturn .good f r s = if 2 ≤ u.chain.returns ∧ rdB u chainStateR 2 = false then
      (if u.chain.broken then raise 0x0D09 unitDev [] (modChain (fun c => { c with broken := false }) (wrB chainStateR 2 true u))
      else modChain (fun c => { c with broken := false }) (wrB chainStateR 2 true u)) else u := by
  rw [timeReturn, received_good hc, hm, Bool.not_true, if_neg Bool.false_ne_true]
  dsimp only
  rw [← hu]
  exact ite_of_iff (by rw [Bool.and_eq_true, decide_eq_true_eq, Bool.not_eq_true'])

theorem timeReturn_worker (hm : isManager s = false) : timeReturn .good f r s = s := by
  rw [timeReturn, received_good hc, hm, Bool.not_false, if_pos rfl]

end

/-! #### The ring -/

theorem ringBroken_eq {b : Nat} {s u v : State} (hu : u = modChain (fun c => { c with returns := 0 }) s)
    (hv : v = (if rdB u chainStateR 2
      then forwardedDown (raise 0x0D08 unitDev (leBytes 1 b) (modChain (fun c => { c with broken := true }) (wrB chainStateR 2 false u)))
      else u)) : ringBroken b s = v := by
  rw [ringBroken, ← hu, ← hv]

/-- Settles O58: the TIME frames by what this device is to them, and the ring's losses and returns. -/
theorem chainTimeRows : Obligations.ChainTimeRows := by
  refine ⟨fun s => next_eq (timeSend_eq s), fun f r s hc hm => next_eq (timeReceived_manager hc hm),
    fun f r s hc hm ha => next_eq (timeReceived_unaddressed hc hm ha), fun f r s u off hc hm ha ho hu => next_eq ?_,
    fun f r s u hc hm hu => ⟨fun h => next_eq ?_, fun h2 hr hb => next_eq ?_, fun h2 hr hb => next_eq ?_⟩,
    fun f r s hm hc => next_eq (timeReturn_worker hc hm), fun s => rfl, fun s => rfl, fun s u v hu hv => next_eq ?_,
    fun b s u v hc hu hv => next_eq ?_, fun s => ⟨next_eq ?_, next_eq ?_, rfl⟩,
    fun f r b t s v h hv => ⟨next_eq (received_dropped h hv), next_eq (received_dropped h hv), next_eq (received_dropped h hv)⟩⟩
  · rw [timeReceived_addressed hc hm ha ho hu, timeCorrect_eq]
  · rw [timeReturn_manager hc hm hu, if_neg]
    rintro ⟨h2, hr⟩
    rcases h with h | h
    · exact absurd h2 (Nat.not_le.mpr h)
    · exact absurd (hr.symm.trans h) (by decide)
  · rw [timeReturn_manager hc hm hu, if_pos ⟨h2, hr⟩, if_pos hb]
  · rw [timeReturn_manager hc hm hu, if_pos ⟨h2, hr⟩, hb, if_neg Bool.false_ne_true]
  · rw [ringBroken_eq hu hv]
    exact ite_of_iff (by rw [Bool.and_eq_true])
  · rw [inLoss, received_good hc, ringBroken_eq hu hv]
  · exact ite_of_iff (by rw [Bool.and_eq_true])
  · exact ite_of_iff (by rw [Bool.and_eq_true, Bool.not_eq_true'])

/-! #### Epoch frames -/

section
variable {f : EpochFrame} {s : State} (hc : chainRuns s = true)
include hc

theorem epochFrame_unaddressed (ha : chainAddr s = none) : epochFrame .good f s = passFrame 7 63 0 (epochBytes f) s := by
  rw [epochFrame, received_good hc, ha]

theorem epochFrame_manager {a : Nat} (ha : chainAddr s = some a) (hm : isManager s = true) : epochFrame .good f s = s := by
  rw [epochFrame, received_good hc, ha]
  exact if_pos hm

theorem epochFrame_worker {a : Nat} (ha : chainAddr s = some a) (hm : isManager s = false) : epochFrame .good f s =
    if f.kind = 2 then passFrame 7 63 0 (epochBytes { f with ack := setBit f.ack a true }) (epochDrop f.id s)
    else if f.kind = 1 then passFrame 7 63 0 (epochBytes f) (modChain (fun c => { c with
      epochs := c.epochs.map (fun x => if x.id == f.id then { x with confirmed := true } else x) }) s)
    else passFrame 7 63 0 (epochBytes { f with
        ack := setBit f.ack a (epochAnswer s f.action.toNat (72 + b2n f.pll)).1
        busy := setBit f.busy a (epochAnswer s f.action.toNat (72 + b2n f.pll)).2.1
        reject := setBit f.reject a (epochAnswer s f.action.toNat (72 + b2n f.pll)).2.2 })
      (if (epochAnswer s f.action.toNat (72 + b2n f.pll)).1 then epochTake f s else s) := by
  rw [epochFrame, received_good hc, ha]
  dsimp only
  rw [hm, if_neg Bool.false_ne_true]

theorem epochReturn_unknown (hg : epochCommand s f.id = none) : epochReturn .good f s = s := by
  rw [epochReturn, received_good hc, hg]

theorem epochReturn_cancelling {g : InFlight} (hg : epochCommand s f.id = some g) (h4 : leAt g.cmd.params 8 1 = 4) :
    epochReturn .good f s = if f.ack &&& BitVec.ofNat 64 (2 ^ (workers s + 1) - 1) = BitVec.ofNat 64 (2 ^ (workers s + 1) - 1)
      then complete g.etag stOk (leBytes 4 f.id.toNat) s else s := by
  rw [epochReturn, received_good hc, hg]
  exact if_pos (beq_iff_eq.mpr h4)

theorem epochReturn_action {g : InFlight} (hg : epochCommand s f.id = some g) (h4 : leAt g.cmd.params 8 1 ≠ 4) :
    epochReturn .good f s = if f.busy ≠ 0 ∨ f.reject ≠ 0
      then rejectEvent (complete g.etag (if f.busy ≠ 0 then stBusy else stRefused) [] (cancelFrame f.id s))
      else if f.ack &&& BitVec.ofNat 64 (2 ^ (workers s + 1) - 1) = BitVec.ofNat 64 (2 ^ (workers s + 1) - 1)
      then complete g.etag stOk (leBytes 4 f.id.toNat) (sendEpoch { f with kind := 1 } (modChain (fun c => { c with
        epochs := c.epochs.map (fun x => if x.id == f.id then { x with confirmed := true } else x) }) s)) else s := by
  rw [epochReturn, received_good hc, hg]
  exact if_neg fun h => h4 (beq_iff_eq.mp h)

end

/-! #### Epochs that fire, and what waits for a time -/

theorem epochDiscard_eq (id : Word) (s : State) : epochDiscard id s =
    if s.mode = .running ∧ (epochOf s id).any (fun x => !x.confirmed) = true then epochDrop id s else s :=
  ite_of_iff (by rw [Bool.and_eq_true, beq_iff_eq, and_comm])

theorem epochFire_epoch {id : Word} {s : State} {x : Epoch} (hx : epochOf s id = some x) :
    epochFire (some id) s = if s.mode = .running ∧ x.time.toNat ≤ s.time.toNat then epochAct x s else s := by
  rw [epochFire, hx]
  exact ite_not_ite

theorem epochFire_noEpoch {id : Word} {s : State} (hx : epochOf s id = none) : epochFire (some id) s = s := by
  rw [epochFire, hx]
  exact ite_self _

theorem epochFire_pulse {s : State} {t : BitVec 64} (hp : s.pulse = some t) :
    epochFire none s = if s.mode = .running ∧ t.toNat ≤ s.time.toNat then clapPulse { s with pulse := none } else s := by
  rw [epochFire, hp]
  exact ite_not_ite

theorem epochFire_noPulse {s : State} (hp : s.pulse = none) : epochFire none s = s := by
  rw [epochFire, hp]
  exact ite_self _

theorem scheduledHop_found {i j k : Nat} {t : BitVec 64} {s u : State} (hu : u = { s with hops := tabErase s.hops i })
    (hh : s.hops.find? (fun h => h.1 == i) = some (j, k, t)) :
    scheduledHop i s = if s.mode = .running ∧ t.toNat ≤ s.time.toNat then (if rackState u i = 0 then u else rackHop i k none u) else s := by
  rw [scheduledHop, hh]
  dsimp only
  rw [← hu]

/-- Settles O59: an epoch's frames by what this device is to them, their returns by the masks, and the moments that fire. -/
theorem epochRows : Obligations.EpochRows := by
  refine ⟨fun f s hc ha => next_eq (epochFrame_unaddressed hc ha), fun f s a hc ha hm => next_eq (epochFrame_manager hc ha hm),
    fun f s a hc ha hm h2 => next_eq ((epochFrame_worker hc ha hm).trans (if_pos h2)), fun f s a hc ha hm h1 => next_eq ?_,
    fun f s a x y z hc ha hm h1 h2 hx => next_eq ?_, fun f s hc hg => next_eq (epochReturn_unknown hc hg),
    fun f s g hc hg h4 => next_eq (epochReturn_cancelling hc hg h4),
    fun f s g hc hg h4 hb => next_eq ((epochReturn_action hc hg h4).trans (if_pos hb)),
    fun f s g hc hg h4 hb hr => next_eq ((epochReturn_action hc hg h4).trans (if_neg (not_or.mpr ⟨not_not_intro hb, not_not_intro hr⟩))),
    fun f t s v h hv => ⟨next_eq (received_dropped h hv), next_eq (received_dropped h hv)⟩,
    fun id s => ⟨fun g hg => next_eq ?_, fun hg => next_eq ?_⟩, fun id s => next_eq (epochDiscard_eq id s),
    fun id s => ⟨fun x hx => next_eq (epochFire_epoch hx), fun hx => next_eq (epochFire_noEpoch hx)⟩,
    fun s => ⟨fun t hp => next_eq (epochFire_pulse hp), fun hp => next_eq (epochFire_noPulse hp)⟩,
    fun i s u hu => ⟨fun j k t hh => next_eq (scheduledHop_found hu hh), fun hh => next_eq ?_⟩⟩
  · rw [epochFrame_worker hc ha hm, if_neg (by rw [h1]; decide), if_pos h1]
  · rw [epochFrame_worker hc ha hm, if_neg h2, if_neg h1, hx]
  · rw [epochTimeout, hg]
  · rw [epochTimeout, hg]
  · rw [scheduledHop, hh]

end Sys2Proof.Proofs
end
